-- ==== Sys2Proof/Word.lean ====
section
/-! DEFINITION. The word types of the device and the plainest arithmetic on them (00 R8). -/

namespace Sys2Proof

/-- A byte. -/
abbrev Byte := BitVec 8

/-- A 64-bit word: a packet word, a register, a word of a ring entry. -/
abbrev Word := BitVec 64

end Sys2Proof
end

