-- ==== Sys2Proof/Syntax.lean ====
section
/-! DEFINITION. The commands of the block, one constructor per row of spec/opcode_table.json, and their operands.
The table gives the rows no operands, so each operand is what the row's rules need from outside the device: a value
written, bytes fetched, a reading, a result of the medium. `at` is the device time of R399, in always-on cycles. -/

namespace Sys2Proof

/-- The three link events that make a warm reset (02 R57). -/
inductive LinkReset where
  | flr | hotReset | dlDown
  deriving DecidableEq, Repr

/-- The two IDE streams (02 R51). -/
inductive IdeStream where
  | io | cachemem
  deriving DecidableEq, Repr

/-- What the link partner offers in alternate protocol negotiation, and what trained (02 R56, Table 2-7). -/
structure LinkOffer where
  io    : Bool
  cache : Bool
  mem   : Bool
  /-- RATE code of Table 2-7: 1 is 2.5 GT/s, 5 is 32 GT/s. -/
  rate  : Nat
  width : Nat
  deriving DecidableEq, Repr

/-- One 16-byte entry of a buffer list as fetched (04 Table 4-4). `rsvd` holds the reserved bits. -/
structure ListEntry where
  address : Nat
  length  : Nat
  eor     : Bool
  hdm     : Bool
  rsvd    : Nat
  deriving DecidableEq, Repr

/-- What the host memory gives while a packet is checked (03 R60): the buffer list the packet names, or none when
the fetch fails (02 R46), and whether every other host address of the packet translates. -/
structure TakeInput where
  list   : Option (List ListEntry)
  addrOk : Bool
  deriving DecidableEq, Repr

/-- What a start finds outside the state: digests of the four stages (16 Table 16-4), which control cores pass their
self-test (17 R442), which cipher lanes pass the known-answer test (06 R157), what the boot loader reads from SPI NOR. -/
structure BootInput where
  digest0  : List Byte
  digest1  : List Byte
  digest2  : List Byte
  digest3  : List Byte
  coresOk  : BitVec 4
  katOk    : BitVec 8
  subsysId : BitVec 32
  deriving DecidableEq, Repr

/-- How head link training ends: trained lanes, lanes that failed on a wrong ALIGN lane number, and the IDENT payload
(11 R292, R293). -/
structure TrainResult where
  rxOk   : BitVec 12
  txOk   : BitVec 4
  wiring : BitVec 16
  ident  : BitVec 40
  deriving DecidableEq, Repr

/-- What a reader finds in a codeword slot (08 R214): every bit as it was written, or 6-bit samples, 1.25 to a channel bit, with
whether the SYNC field was found where it was predicted. -/
inductive Reading where
  | clean
  | samples (sync : Bool) (r : List Int)
  deriving DecidableEq, Repr

/-- What the verify reader finds in the slot of a written codeword (09 R237). -/
structure VerifyResult where
  seq       : Nat
  subset    : Nat
  row       : Nat
  track     : Nat
  /-- none: a first writing; some c: a copy that the dataset with SEQ c carries. -/
  carrier   : Option Nat
  reading   : Reading
  deriving DecidableEq, Repr

/-- What a tick brings from outside (01 R13-R18): its length in core cycles, the verify results that completed, the
datapath stages that overran with the cycles they used, the inputs of the Drover (12 Table 12-1) with absent ones
missing, the raw state of the sensors, and how far the tape has gone. -/
structure TickInput where
  /-- Length of the tick that this edge ends, in core cycles. -/
  period    : Nat
  at_       : Nat
  verify    : List VerifyResult
  /-- (stage of Table 18-4, core cycles used). -/
  overruns  : List (Nat × Nat)
  /-- (source code of Table 12-1, value); a source not listed is missing for the tick (12 R313). -/
  sources   : List (Nat × Int)
  /-- Loops whose framed computation has not completed at this edge (12 R314). -/
  unfinished : List Nat
  /-- Encoder A and B: illegal transitions and edges counted in the tick (13 Table 13-4). -/
  encA      : Nat × Nat
  encB      : Nat × Nat
  /-- Tension code and the estimate from reel A current (13 Table 13-4). -/
  tensionEst : Nat
  /-- Frames delivered and position in nm of the four servo channels; none: no frame. -/
  servoCh   : List (Option Int)
  /-- Stripes read in group R of the servo frame, servo frames under the head since the servo tick before (1 while none is missed;
  13 R336), and the wrap (07 R176). -/
  stripes   : Option Nat
  passed    : Nat
  wrap      : Nat
  /-- Core 0's tick task completed in the tick (17 R440). -/
  taskDone  : Bool
  deriving DecidableEq, Repr

/-- A 66-bit block as it stands on a lane: sync header, scrambled payload (11 R283). -/
structure LinkBlock where
  sync    : BitVec 2
  payload : Word
  deriving DecidableEq, Repr

/-- The blocks that bring a frame in on a lane, from FSTART to FEND, and the scrambled payload of the block before them (11 R283,
R286). -/
structure LinkFrame where
  lane   : Nat
  before : Word
  blocks : List LinkBlock
  deriving DecidableEq, Repr

/-- What a cartridge holds when it is put in: the 16 KiB of cartridge memory (07 Table 7-5) and, per partition, the
headers of its chain as they stand on tape. -/
structure TapeItem where
  /-- 0x01 record, 0x02 filemark (07 Table 7-3). -/
  kind   : Nat
  length : Nat
  /-- A new directory entry begins with it (07 R189). -/
  starts : Bool
  /-- BLOCK and OFFSET of its first byte, and STREAM_START (07 Table 7-3). -/
  block  : Nat
  offset : Nat
  stream : Bool
  deriving DecidableEq, Repr

/-- A frame on tape (06 Table 6-1): its key label, IV, clear flag, the record and offset of its first byte, its ciphertext
(the encoded blocks of a clear frame) and its tag. -/
structure TapeFrame where
  alg     : Nat
  limited : Bool
  label   : Nat
  ivInst  : Nat
  ivCount : Nat
  tenant  : Nat
  record  : Nat
  offset  : Nat
  /-- The first block of the frame has HIST = 0 (05 R128). -/
  access  : Bool
  ctLen   : Nat
  bytes   : List Byte
  tag     : List Byte
  /-- Input bytes of its blocks. -/
  inLen   : Nat
  deriving DecidableEq, Repr

/-- A copy in a rewrite slot: its place, and the codeword (07 R184). -/
structure SlotCopy where
  track  : Nat
  slot   : Nat
  seq    : Nat
  subset : Nat
  row    : Nat
  deriving DecidableEq, Repr

/-- A dataset: the header fields of Table 7-2 that differ between datasets, its items, its frames and its rewrite slots (07
R184-R190). -/
structure Dataset where
  seq        : Nat
  kind       : Nat
  partition  : Nat
  closedEarly : Bool
  rewritten  : Bool
  truncate   : Bool
  c3On       : Bool
  dirSpill   : Bool
  wrap       : Nat
  bootEpoch  : Nat
  sfn        : Nat
  serial     : Nat
  firstItem  : Nat
  items      : List TapeItem
  entries    : Nat
  userBytes  : Nat
  contBytes  : Nat
  /-- User-area offset of the access-point frame; none when no block begins here. -/
  apOffset   : Option Nat
  apBlock    : Nat
  apRecord   : Nat
  apRecOffset : Nat
  originSeq  : Nat
  c3Group    : Nat
  c3Index    : Nat
  c3Members  : Nat
  /-- Frames whose header begins in this dataset. -/
  frames     : List TapeFrame
  /-- The CONT_BYTES: the end of a frame of the dataset before. -/
  cont       : List Byte
  /-- Copies in its rewrite slots; the other slots hold fill codewords (09 R244). -/
  copies     : List SlotCopy
  /-- In a C3 parity dataset: user bytes and directory of each data member, by index (08 R220). -/
  sources    : List (List Byte × List Byte)
  deriving DecidableEq, Repr

/-- A cartridge: its memory, as bytes listed by offset (unlisted bytes read 0), and its datasets in tape order. -/
structure Cartridge where
  cm    : List (Nat × Byte)
  chain : List Dataset
  deriving DecidableEq, Repr

/-- A cipher request (06 Table 6-5). -/
structure CipherRequest where
  op     : Nat
  cls    : Nat
  dev    : Bool
  slot   : Nat
  src    : Word
  dst    : Word
  len    : Nat
  aadAddr : Word
  iv     : BitVec 96
  cookie : Word
  deriving DecidableEq, Repr

/-- What a lane's work on a request came to (06 Table 6-6): its tag or known answer held, and for CHECK the plaintext
was equal. -/
structure CipherOutcome where
  tagOk : Bool
  same  : Bool
  deriving DecidableEq, Repr

/-- What a read finds in a codeword slot of a dataset (08 R214), and whether the read datapath overran there (01 R18). Slots that a
command does not list hold every bit as it was written. -/
structure SlotReading where
  seq     : Nat
  slot    : Nat
  track   : Nat
  late    : Bool
  reading : Reading
  deriving DecidableEq, Repr

/-- The tag of a frame read fails (06 R170): the dataset's SEQ, the frame's place in it, the lane, and whether the
repeat on another lane fails too. -/
structure TagFailure where
  seq      : Nat
  frame    : Nat
  lane     : Nat
  lasting  : Bool
  deriving DecidableEq, Repr

/-- What triggers a wake (15 R395). -/
inductive WakeKind where
  | sqDoorbell | counterWrite | snoop | cxlMem | mctp | cartridge | threshold | register
  deriving DecidableEq, Repr

/-- Fields of METER_STATEMENT as the mailbox carries them (16 Table 16-7). -/
structure StatementReq where
  firstTenant : Nat
  count       : Nat
  nonzero     : Bool
  nonce       : List Byte
  deriving DecidableEq, Repr

/-- The block's commands: one constructor per row of spec/opcode_table.json, in the table's order. Command packets
are named by the JSN of their journal entry. -/
inductive Instr where
  | powerOn
  | coldRstN
  | sysResetCtrlWarm
  | sysResetCtrlCold
  | warmReset (c : LinkReset)
  | coldResetStopEnd (at_ : Nat)
  | startUpSequence (b : BootInput) (t : TrainResult)
  | replayOpenCommands
  | replayReportPosted
  | thermalTrip (at_ : Nat)
  | tripRestart (at_ : Nat)
  | supplyLoss
  | whRstN
  | weighhousePowerOn (selfTestOk : Bool)
  | linkNegotiation (o : LinkOffer)
  | busMasterEnable
  | hdmDecoderCommit (base size iw : Nat) (lock : Bool)
  | cxlMemRead (hpa : Nat)
  | memWr (hpa : Nat) (data : List Byte)
  | memWrPtl (hpa : Nat) (data : List (Option Byte))
  | cxlSnoop (line : Nat)
  /-- `gone`: the pages are translated no more. -/
  | atsInvalidate (addr size : Nat) (gone : Bool)
  | doeRequest (vendor dtype : Nat) (payload : List Byte)
  | doeAbort
  /-- `lines`: how many of the last HDM writes lie in the MAC epoch that fails. -/
  | ideIntegrityFail (st : IdeStream) (lines at_ : Nat)
  | ideKeysEstablished (st : IdeStream)
  | ideKeyTimeout (st : IdeStream) (at_ : Nat)
  | msixUnmask (vec : Nat)
  | mmioAccessRefused (offset size : Nat) (write : Bool)
  | registerWrite (offset size : Nat) (value : Word)
  | cmdSqTailWrite (ring value : Nat)
  | sqEntryFetch (ring : Nat) (words : List Word)
  | cmdCqHeadWrite (ring value : Nat)
  | cmdEvqHeadWrite (value : Nat)
  | cmdRingCommitWrite
  | cmdCtrSopWrite (w : Word)
  | cmdCtrDataWrite (w : Word)
  | flush
  | clrCounts
  | journalTake (t : TakeInput)
  | journalEntryDurable (jsn : Nat)
  | journalSlotFreed (jsn : Nat)
  | cmdAbortWrite (jsn : Nat)
  | abortRecorded
  | cmdCompatWrite (value : Word)
  | evgStatusClear (group : Nat) (value sameCycle : BitVec 32)
  | managementPacket (words : List Word)
  | unitReport (unit state : Nat)
  | mgtEidAssigned (eid dynAddr : Nat)
  | nop (jsn : Nat)
  | nopDelayExpiry (jsn : Nat)
  | identify (jsn : Nat)
  | getStatus (jsn : Nat)
  | setWakeTolerance (jsn : Nat)
  /-- `done` of a motion command: the motion has come to its end; otherwise the row begins it, or finds it under way. -/
  | load (jsn : Nat) (done : Bool)
  | unload (jsn : Nat) (done : Bool)
  | rewind (jsn : Nat) (done : Bool)
  | locate (jsn : Nat) (done : Bool)
  /-- `passed`: items that the motion has passed so far; none: it has come to its end. -/
  | space (jsn : Nat) (passed : Option Nat)
  | formatPartitions (jsn : Nat)
  | openContext (jsn : Nat)
  | closeContext (jsn : Nat)
  | setContextProfile (jsn : Nat)
  | setContextKey (jsn : Nat)
  /-- `list`: the buffer list as a command of before the start fetches it again; none: the fetch fails. -/
  | writeRecords (jsn : Nat) (list : Option (List ListEntry))
  | writeFilemarks (jsn : Nat)
  | sync (jsn : Nat)
  | readRecords (jsn : Nat) (tags : List TagFailure)
  | verifyRange (jsn : Nat) (tags : List TagFailure)
  /-- `part`: bytes transferred so far; none: the transfer has come to its end. -/
  | readOverflow (jsn : Nat) (part : Option Nat)
  | getLog (jsn : Nat)
  | clearLog (jsn : Nat)
  | ledgerRead (jsn : Nat)
  | meterStatement (jsn : Nat)
  /-- `part` of PKR_ESTIMATE and PKR_DECODE: blocks done so far; none: all are done. -/
  | pkrEstimate (jsn : Nat) (bytes : List Byte) (part : Option Nat)
  | pkrSetLevel (jsn : Nat)
  | pkrDecode (jsn : Nat) (bytes : List Byte) (part : Option Nat)
  | fmtDatasetInfo (jsn : Nat)
  | fmtCmAccess (jsn : Nat) (bytes : List Byte)
  | tecSetDecode (jsn : Nat)
  | tecTrackQuality (jsn : Nat)
  | tecSetDetector (jsn : Nat)
  | tecCapture (jsn : Nat) (slots : List (List Int))
  | tecCaptureTimeout (jsn : Nat) (at_ : Nat)
  | tecC1Encode (jsn : Nat) (bytes : List Byte)
  | drvSetSection (jsn : Nat)
  | drvSetMode (jsn : Nat)
  | drvMove (jsn : Nat) (at_ : Nat)
  | drvMoveTimeout (jsn : Nat) (at_ : Nat)
  | drvCapture (jsn : Nat)
  | diagSafeStop (jsn : Nat)
  | diagCipherSelftest (jsn : Nat) (passed : BitVec 8) (done : Bool)
  | diagUnitOffline (jsn : Nat)
  | diagUnitOnline (jsn : Nat)
  | diagClearRetirement (jsn : Nat)
  | diagReset (jsn : Nat)
  | thermalLimitTimeout (jsn : Nat) (at_ : Nat)
  | epochWaitTimeout (jsn : Nat) (at_ : Nat)
  | servoTick (t : TickInput)
  | syntheticTick (t : TickInput)
  | servoMeasurementPost (m : List (Nat × Int)) (cycle : Nat)
  | dacWriteDone
  | safeStopEnd (at_ : Nat)
  | safeStopRetry (failed : List Nat) (at_ : Nat)
  | servoLoss (at_ : Nat)
  | servoLossTimeout (sfn at_ : Nat)
  | drvCommitWrite
  | drvCoefWrite (loop sec reg : Nat) (value : Word)
  | drvModeWrite (loop : Nat) (value : Word)
  | drvTargetWrite (loop : Nat) (value : Word)
  | drvMonCommitWrite
  | spmCommitWrite
  | vfyCommitWrite
  | hlkCommitWrite
  | thmCommitWrite
  | hlkLaneRetrain (lane : Nat)
  | hlkLaneRetire (lane : Nat)
  | hlkLinkTraining (t : TrainResult)
  | samples (f : LinkFrame)
  | servo (f : LinkFrame)
  | status (f : LinkFrame)
  | reply (f : LinkFrame)
  | ident (f : LinkFrame)
  | blockLockLoss (lane : Nat)
  | reorderTimeout (lane source missing : Nat)
  | laneRetrainDone (passed : Bool) (at_ : Nat)
  | pkrBlockEncoded (jsn lane : Nat)
  | pkrSelfcheck (jsn lane : Nat) (pass retryPass : Bool)
  | pkrBlockDecoded (jsn lane record : Nat) (block history : List Byte) (glitch : Bool) (retryLane : Nat)
  | formatterPlaceBlock (jsn lane : Nat) (check retry : Bool)
  | datasetIdleClose (at_ : Nat)
  | writingRunStart (at_ : Nat) (atStep : Bool)
  | cmStatusWrite
  | datasetRelease
  | releaseRecordDurable (seq : Nat)
  | cphRqPush (desc : List Word)
  | cphRqCancel (cookie : Word)
  | cphCqPop
  | cphRequestComplete (lane : Nat) (o : CipherOutcome)
  | ceilRaiseDurable
  | cphInstanceWrite (value : Word)
  | subdatasetDecode (seq subset : Nat) (found : Bool) (ahead : Nat) (slots : List SlotReading)
  | c3Decode (seq subset : Nat)
  | readAutoRetry (seq : Nat) (found : Bool) (slots : List SlotReading)
  | recoveryPass (seq : Nat) (found : Bool) (slots : List SlotReading)
  | alloc (owner size : Nat) (wait : Bool)
  | share (owner : Nat) (handle : Word) (new : Nat)
  | release (owner : Nat) (handle : Word)
  | transfer (owner : Nat) (handle : Word) (dest : Nat)
  | free (owner : Nat) (handle : Word)
  | patrolScrub (hbm : Bool) (addr : Nat)
  | pcRetrainDone (passed : Bool) (at_ : Nat)
  | arm (value : Word)
  | thermalSample (sensor : Nat) (raw : Int) (at_ : Nat)
  | thmSensorLasting (sensor at_ : Nat)
  | throttleEvaluation (at_ : Nat)
  | thermalStop (at_ : Nat)
  | idleEntry (at_ : Nat)
  | wakeTrigger (k : WakeKind)
  | wake
  | wakeComplete (t : TrainResult)
  | cartPresenceChange (c : Option Cartridge)
  | tapeSlack (asserted : Bool)
  | tallyFrameReceive (bytes : List Byte)
  | tallyResendTimeout (at_ : Nat)
  | whStatusPublish (at_ : Nat) (temp : Int)
  | whUnavailable (at_ : Nat)
  | whRetryExpiry (at_ : Nat)
  | formationBlockTimeout (at_ : Nat)
  | extend (stage : Nat) (digest : List Byte)
  | close
  | ledgerGet (firstEpoch count : Nat)
  | statement (r : StatementReq)
  | spdm (mctp : Bool) (msg : List Byte)
  | getMeasurements (mctp : Bool) (index : Nat)
  | ideKm (stream : IdeStream) (msg : List Byte)
  | markRead (epochs : List Nat)
  | send
  | romExit
  | whMbPop
  | sysCoreKick (core at_ : Nat)
  | coreWatchdogExpiry (core at_ : Nat)
  | coreRetryDone (core : Nat) (ok : Bool) (at_ : Nat)
  | servoFrameDetected (fast : Bool)
  | whTimeCheckpoint
  | whSupplyLoss
  | mctpSpdmRequest (mtype : Nat) (msg : List Byte)
  | hostRecordFetch (jsn : Nat) (bytes : List Byte) (macOk : Bool)
  deriving DecidableEq, Repr

end Sys2Proof
end

