-- ==== Sys2Proof/Config.lean ====
section
/-! DEFINITION. What an implementation fixes and the free values: constants with no body, so that no proof can see
what they are (log entries 4, 8, 9, 13, 14). -/

namespace Sys2Proof.Config

/-- The key drawn for device key slot 0 at a cold reset or power-on, by the number of free values drawn before it
(06 R160; log entry 8). -/
opaque deviceKey : Nat → BitVec 256

/-- The known-answer self-test key of the cipher engine, fixed in ROM (06 Table 6-3, which gives no value; log entry 8). -/
opaque romKey : BitVec 256

/-- A 47-bit random value of the limited phase (06 R158). -/
opaque limitedRandom : Nat → BitVec 47

/-- INSTANCE as fused (06 R152; log entry 9). -/
opaque fusedInstance : BitVec 32

/-- The 64-bit serial number of the device (02 Table 2-2). -/
opaque serialNumber : BitVec 64

/-- Byte of the firmware version string of IDENTIFY, by index (03 Table 3-14). -/
opaque firmwareVersion : Nat → Byte

/-- The 4-byte hash of the match search, which the spec names and does not give (05 R131; log entry 13). -/
opaque hash4 : List Byte → Nat

/-- The choice of the match search at a position of a text, by the chain depth (05 R131; log entry 13). -/
opaque matchChoice : Nat → List Byte → Nat → Nat

/-- The code lengths that an encoder gives to an alphabet of so many symbols, for the symbols that occur (log entry 13). -/
opaque codeLengths : Nat → List Nat → List Nat

/-- Bits that an output buffer of a compression lane holds beyond a token latch (05 R134; log entry 13). -/
opaque outputBits : Nat

/-- A result that the spec leaves open, by the number of free values drawn before it (log entry 4). -/
opaque freeNat : Nat → Nat

/-- The detector of a read channel before any adaptation: 24 taps, the target's two coefficients, the predictor's two, the
variance (08 R214, which gives none of them; log entry 50). -/
opaque detectorDefault : Nat → Rat

/-- Where the timing recovery places a channel bit, against its nominal place in samples (08 R214; log entry 50). -/
opaque timing : List Int → Nat → Rat

/-- sir_cw of 08 R226 in units of 2^-32, of the target, predictor and variance, the equalised samples and the channel bits. -/
opaque sirCw : List Rat → List Rat → List Bool → Int

/-- The calibrated code of loop 4 at a data band (13 R337). -/
opaque bandCode : Nat → Int

/-- A number of the sled calibration record or of a sled part (13 R338, R339, R342), by what it is. -/
opaque sledNumber : Nat → Int

/-- A choice that the spec leaves open. -/
opaque freeBool : Nat → Bool

/-- A byte that the spec leaves open. -/
opaque freeByte : Nat → Byte

/-- Bytes that a unit outside the spec's description makes: signatures, SPDM contents (16 R424-R427), by what asks for
them and the bytes that go in. -/
opaque signed : Nat → List Byte → List Byte

/-- WH_VERSION of the seal fuses, and the digest of the Weighhouse ROM (16 Table 16-1, R426). -/
opaque whVersion : BitVec 32

opaque whRomDigest : List Byte

/-- SHA-384 of a list of bytes (FIPS 180-4, named by 16 and not described there; log entry 14). -/
opaque sha384 : List Byte → List Byte

end Sys2Proof.Config
end

