-- ==== Sys2Proof/Machine/State.lean ====
section
/-! DEFINITION. The state of the device as plain data, and the state right after a power-on (17 R428, R429).
One structure per block of 01 Table 1-1, the Weighhouse die (16), the MRAM records, the cartridge, the queue of
waiting commands and the record of what the device has sent out. Register fields stand under their names in the
tables of spec/; fields of several bits are Nat, below their width. -/

namespace Sys2Proof.Machine

/-- The device never stops with a fault: what goes wrong is a status, an event, a unit state or a reset (17). -/
inductive Fault where
  deriving DecidableEq, Repr

/-- Reasons to refuse a command. -/
inductive Refusal where
  /-- Raised by an arm of exec whose command has no meaning yet; safe: the machine stops. -/
  | notModelled (mnemonic : String)
  deriving DecidableEq, Repr

/-! ### Sparse tables -/

/-- A sparse table: keys strictly rising, no value equal to the table's default. -/
abbrev Table (α : Type) := List (Nat × α)

/-! ### System: start-up, units, control cores (01, 17) -/

/-- Where the formatter die stands between resets (17 R428-R443, R462). -/
inductive BootPhase where
  /-- Core supplies off: before power-on, after a trip or a supply loss. -/
  | off
  /-- A cold reset is bringing a moving tape to rest (R473). -/
  | coldStop
  /-- Start-up step 1 may begin (R431). -/
  | stepOne
  /-- Start-up steps 1 to 6 are done. -/
  | running
  deriving DecidableEq, Repr

/-- SYS_UNIT_u (17 Table 17-12). -/
structure SysUnit where
  state     : Nat
  cause     : Nat
  transient : Nat
  deriving DecidableEq, Repr

/-- One control core: its watchdog's last kick, its last retry, the tick task (17 R440, R442). -/
structure CoreState where
  lastKick   : Nat
  lastRetry  : Option Nat
  deriving DecidableEq, Repr

structure Sys where
  phase        : BootPhase
  /-- COLD_RST_N is delaying a start (19 R464); START kind and SOURCE of the start to come or in force. -/
  kind         : Nat
  source       : Nat
  unclean      : Bool
  ready        : Bool
  replaying    : Bool
  replayPosted : Bool
  fatal        : Bool
  coresUp      : BitVec 4
  replayLeft   : Nat
  /-- SYS_TICK_COUNT, SYS_TICK_STATUS (01 Tables 1-2, 1-3). -/
  tickCount    : BitVec 64
  synth        : Bool
  step         : Nat
  lastPeriod   : Nat
  /-- Device time latched at the last tick edge (01 R13). -/
  tickStart    : Nat
  /-- Write current is removed for the rest of the tick after a short one (01 R15). -/
  shortTick    : Bool
  units        : List SysUnit
  faulted      : BitVec 4
  lasting      : BitVec 4
  tickCore     : Nat
  mgtCore      : Nat
  cores        : List CoreState
  taskMisses   : Nat
  /-- Cold reset in progress: device time at which it began (17 R473). -/
  stopBegan    : Nat
  /-- End of start-up, for the wait of R418. -/
  readyAt      : Nat
  /-- The transient counts of lanes of log page 0x01 (17 Table 17-6). -/
  laneRetries  : Table Nat
  trackRetries : Table Nat
  subsysId     : BitVec 32
  /-- The commands of before the start that are still to be reported (17 R436). -/
  toReport     : List Nat
  deriving DecidableEq, Repr

/-! ### Host interface (02) -/

inductive IdeState where
  | off | secure | insecure
  deriving DecidableEq, Repr

structure Ide where
  state  : IdeState
  failAt : Nat
  /-- HDM lines written while the stream was Secure, oldest first (02 R53). -/
  epoch  : List Nat
  deriving DecidableEq, Repr

structure Doe where
  request  : Option (Nat × Nat × List Byte)
  response : Option (List Byte)
  error    : Bool
  deriving DecidableEq, Repr

structure Hif where
  mode       : Nat
  rate       : Nat
  width      : Nat
  cacheEn    : Bool
  memEn      : Bool
  atsEn      : Bool
  busMaster  : Bool
  /-- Memory Space Enable of the Command register, and the six base address registers of the header (02 Table 2-3). -/
  memSpace   : Bool
  bars       : List Nat
  /-- HDM decoder (02 R38, R39). -/
  hdmBase    : Nat
  hdmSize    : Nat
  committed  : Bool
  notCommitted : Bool
  locked     : Bool
  poison     : Nat
  /-- HIF_ACCESS_ERR_LOG (02 Table 2-8). -/
  logOffset  : Nat
  logSize    : Nat
  logWrite   : Bool
  logOverflow : Bool
  logValid   : Bool
  ideIo      : Ide
  ideCm      : Ide
  ideSkid    : Bool
  doe        : Doe
  /-- MSI-X vectors that are not masked, Function Mask, pending bits (02 R55). -/
  unmasked   : Table Bool
  funcMask   : Bool
  pba        : Table Bool
  /-- MSI-X Enable, and the message of each vector: address and data (02 Table 2-3, R54). -/
  msixEn     : Bool
  messages   : Table (Nat × Nat)
  /-- Address Translation Cache: (untranslated address, size) held, latest first, at most 2,048 (02 R35, R46). -/
  atc        : List (Nat × Nat)
  /-- Ranges whose translation fails or lacks permission since an invalidation (02 R46, R47). -/
  atcBad     : List (Nat × Nat)
  deriving DecidableEq, Repr

/-! ### Command intake (03) -/

/-- BASE and CFG of a ring (03 Table 3-5). -/
structure RingCfg where
  base     : Word
  en       : Bool
  sizeLog2 : Nat
  burst    : Nat
  deriving DecidableEq, Repr

/-- A packet on its way to the journal, with the index of its first ring entry. -/
structure Packet where
  words : List Word
  index : Nat
  deriving DecidableEq, Repr

structure SubRing where
  shadow : RingCfg
  cfg    : RingCfg
  tail   : Nat
  head   : Nat
  copied : List Packet
  deriving DecidableEq, Repr

/-- A completion entry before it takes its slot (03 Table 3-11). KIND 0 REJECTED, 1 ACCEPTED, 2 FINAL, 3 ACCEPTED_FINAL. -/
structure Completion where
  cid       : Nat
  source    : Nat
  kind      : Nat
  untrusted : Bool
  status    : Nat
  jsn       : Nat
  result0   : Word
  result1   : Word
  deriving DecidableEq, Repr

structure CplRing where
  shadow  : RingCfg
  cfg     : RingCfg
  head    : Nat
  tail    : Nat
  phase   : Bool
  /-- Entries written and not released: JSN and whether the entry is the command's last (03 R76). -/
  live    : List (Nat × Bool)
  /-- Entries that wait for a free slot (03 R82). -/
  waiting : List Completion
  vector  : Nat
  vecEn   : Bool
  deriving DecidableEq, Repr

/-- An event before it takes its slot (03 Table 3-12), with its place in the order of first waits (03 R85). -/
structure EventEntry where
  source : Nat
  count  : Nat
  tick   : BitVec 64
  param0 : Word
  param1 : Word
  deriving DecidableEq, Repr

structure EvtRing where
  shadow  : RingCfg
  cfg     : RingCfg
  head    : Nat
  tail    : Nat
  phase   : Bool
  /-- ORDERED entries and STATUS entries that wait, in order of first occurrence (03 R85). -/
  waiting : List EventEntry
  highWater : Nat
  /-- ORDERED occurrences held back at their source while the queue is full (03 R474). -/
  held    : List EventEntry
  vector  : Nat
  vecEn   : Bool
  deriving DecidableEq, Repr

inductive CtrState where
  | idle | opened | dropping
  deriving DecidableEq, Repr

/-- The Counter (03 R68): stages in arrival order; the last `openWords` of them are the open packet. -/
structure Counter where
  stages    : List Word
  openWords : Nat
  state     : CtrState
  dropped   : Nat
  discarded : Nat
  flushed   : Nat
  deriving DecidableEq, Repr

structure EventGroup where
  status : BitVec 32
  mask   : BitVec 32
  vector : Nat
  vecEn  : Bool
  deriving DecidableEq, Repr

structure Cmd where
  subRings : List SubRing
  cplRings : List CplRing
  evt      : EvtRing
  commitPending : Bool
  commitErr : Bool
  errRing  : Nat
  counter  : Counter
  groups   : List EventGroup
  /-- CMD_ABORT (03 R77): the JSN asked for, and RESULT. -/
  abortJsn : Nat
  abortResult : Nat
  compatT4 : Bool
  compatActive : Bool
  /-- Submission ring whose turn is next, entries taken in the turn (03 R72). -/
  turn     : Nat
  turnTaken : Nat
  /-- Management port packets in arrival order. -/
  mgtQueue : List (List Word)
  /-- Final completions that wait for the DURABLE of the same JSN to reach the event ring (03 R85): ring, entry. -/
  lateFinals : List (Nat × Completion)
  /-- Kinds of journal slot for which JOURNAL_FULL was raised and no slot has freed since (03 R74). -/
  fullRing : Bool
  fullRes  : Bool
  deriving DecidableEq, Repr

/-! ### Journal and running commands (03, 17) -/

inductive SlotState where
  /-- Phase 1 or 2 is being written: the word at byte 192 is not there yet (03 R75). -/
  | writing
  | valid
  /-- The write that clears MARK is not yet durable (03 R76). -/
  | freeing
  deriving DecidableEq, Repr

structure JournalEntry where
  jsn      : Nat
  source   : Nat
  sqIndex  : Nat
  words    : List Word
  reserved : Bool
  slot     : SlotState
  deriving DecidableEq, Repr

/-- A retire word (03 R76): STATE 0x01 abort recorded, 0x02 retired. -/
structure RetireWord where
  jsn     : Nat
  state   : Nat
  status  : Nat
  result0 : Word
  result1 : Word
  deriving DecidableEq, Repr

/-- How far a command's execution has come. -/
inductive RunPhase where
  /-- Accepted, not started. -/
  | accepted
  /-- Its row ran while it had to wait (04 R94, R95, R116). -/
  | waiting
  /-- Started and not ended. -/
  | started
  /-- Ended, but no retire word was free (03 R76). -/
  | unretired
  deriving DecidableEq, Repr

/-- What the device holds of a command in the journal beside its entry: volatile. -/
structure RunInfo where
  jsn       : Nat
  phase     : RunPhase
  /-- The buffer list as fetched before acceptance (04 R105). -/
  list      : List ListEntry
  /-- ACCEPTED entry written or waiting for its slot. -/
  announced : Bool
  /-- An automatic retry was made for it (17 R438). -/
  retried   : Bool
  untrusted : Bool
  /-- Tick or time at which it began to run or wait. -/
  since     : Nat
  /-- Command-specific progress: slots or records done. -/
  done      : Nat
  /-- The final completion that waits for a retire word; or what an abort would report of the work done so far. -/
  final     : Option (Nat × Word × Word)
  /-- A write command's tenant, LEVEL, DICT_PERSIST and partition as captured at its start (04 R99, R104), and the number of
  its first item, or the end of data where none was placed (R107); they outlive a reset. -/
  grant     : Option (Nat × Nat × Bool × Nat)
  first     : Option Nat
  /-- Began after an earlier start (17 R433). -/
  replayed  : Bool
  deriving DecidableEq, Repr

structure Journal where
  entries  : List JournalEntry
  retire   : List RetireWord
  nextJsn  : Nat
  runs     : List RunInfo
  deriving DecidableEq, Repr

/-! ### Object contexts (04) -/

/-- A context record (04 Table 4-1). -/
structure Context where
  isOpen    : Bool
  level     : Nat
  persist   : Bool
  partition : Nat
  tenant    : Nat
  position  : Nat
  dict      : Word
  itemsWritten : Nat
  bytesWritten : Nat
  deriving DecidableEq, Repr

/-- The context record after a cold reset: closed, every field zero (17 Table 17-2). -/
def Context.zero : Context :=
  { isOpen := false, level := 0, persist := false, partition := 0, tenant := 0, position := 0, dict := 0,
    itemsWritten := 0, bytesWritten := 0 }

structure Ctx where
  records : Table Context
  /-- Cached contexts, most recently used first (04 R93). -/
  lines   : List Nat
  /-- Commands that pin their context: (JSN, context). -/
  pins    : List (Nat × Nat)
  /-- Commands that wait for a line (04 R94), in journal order. -/
  waiting : List Nat
  misses  : Nat
  deriving DecidableEq, Repr

/-! ### Packer (05) -/

structure LevelParams where
  depth  : Nat
  window : Nat
  lazyEval : Nat
  deriving DecidableEq, Repr

/-- A chained buffer (05 R137): its handle, context, bytes, read point, and the ranges of it that are untrusted. -/
structure Chained where
  handle    : Word
  /-- Handles of the chain's Porter buffers, the first one naming it. -/
  bufs      : List Word
  ctx       : Nat
  bytes     : List Byte
  truncated : Bool
  bad       : List (Nat × Nat)
  /-- Bytes transferred from it, and how many more stand before a poisoned word where it has one (14 Table 14-9). -/
  taken     : Nat
  sound     : Option Nat
  deriving DecidableEq, Repr

structure Pkr where
  levels     : List LevelParams
  /-- A change of PKR_SET_LEVEL that waits for the next tick (05 R144). -/
  levelNext  : List (Nat × LevelParams)
  cDegraded  : BitVec 8
  dDegraded  : BitVec 8
  chained    : List Chained
  inBytes    : Nat
  outBytes   : Nat
  rawBlocks  : Nat
  reencoded  : Nat
  selfErrs   : Nat
  decodeErrs : Nat
  /-- Per context: the handle's history and where the context's last item ended (05 R130). -/
  history    : List (Nat × List Byte × Nat × Nat)
  deriving DecidableEq, Repr

/-! ### Cipher engine (06) -/

inductive SlotUse where
  | empty | active | exhausted
  deriving DecidableEq, Repr

/-- A key being loaded (06 R162): nothing, a clear, a key wrapped under device slot 0, or a key still wrapped under a transport
slot. -/
inductive PendingKey where
  | none
  | clear (jsn : Nat)
  | key (jsn label : Nat) (wrapped : List Byte)
  | wrapped (jsn label transport : Nat) (aad : List Word) (key : BitVec 256) (tag : BitVec 128) (iv : BitVec 96)
  deriving DecidableEq, Repr

structure KeySlot where
  use      : SlotUse
  label    : Nat
  counter  : Nat
  limited  : Nat
  /-- The 47-bit value of the limited phase, drawn on the slot's first draw of the phase (06 R158). -/
  random   : Option (BitVec 47)
  /-- The key of device slots 0 to 7, which the engine itself holds. -/
  key      : BitVec 256
  /-- The key of every other slot as its record holds it: wrapped under device slot 0 (06 Table 6-3). -/
  wrapped  : List Byte
  pending  : PendingKey
  deriving DecidableEq, Repr

def KeySlot.none : KeySlot :=
  { use := .empty, label := 0, counter := 0, limited := 0, random := Option.none, key := 0, wrapped := [], pending := .none }

/-- A cipher request in the engine: whether it has drawn an IV, that IV, how often it was suspended, when it started and when it
was posted (06 R164-R166). -/
structure CipherJob where
  req      : CipherRequest
  drawn    : Bool
  iv       : BitVec 96
  limited  : Bool
  suspends : Nat
  order    : Nat
  posted   : Nat
  deriving DecidableEq, Repr

structure CipherDone where
  result   : Nat
  lane     : Nat
  limited  : Bool
  suspends : Nat
  iv       : BitVec 96
  cookie   : Word
  deriving DecidableEq, Repr

/-- A save area (06 R166): the request, its counter block, the GHASH accumulator, the lengths so far, its position. -/
structure SaveArea where
  job   : CipherJob
  ctr   : List Byte
  acc   : Nat
  aad   : Nat
  text  : Nat
  pos   : Nat
  deriving DecidableEq, Repr

structure Lane where
  job   : Option CipherJob
  saved : List SaveArea
  deriving DecidableEq, Repr

structure Cph where
  ceilErr   : Bool
  /-- Intervals of R157 in force: start-up, self-test, unclean recovery. -/
  starting  : Bool
  testing   : Bool
  recovery  : Bool
  /-- The known-answer self-test has passed since the reset (06 R157). -/
  katOk     : Bool
  ctxSlots  : Table KeySlot
  devSlots  : Table KeySlot
  lanes     : List Lane
  degraded  : BitVec 8
  queue     : List CipherJob
  /-- Jobs that wait for a CEIL raise (06 R153). -/
  ceilWait  : List CipherJob
  done      : List CipherDone
  popped    : Option CipherDone
  desc      : List Word
  nextOrder : Nat
  nextPost  : Nat
  drawn     : Nat
  burnt     : Nat
  tagFails  : Nat
  selfErrs  : Nat
  suspends  : Nat
  deriving DecidableEq, Repr

/-! ### Formatter and write pipeline (05, 07, 09) -/

/-- An encoded block in the reorder stage (05 Table 5-1). -/
structure EncBlock where
  /-- TYPE: 0 RAW, 1 CODED, 2 FILL. -/
  type    : Nat
  hist    : Bool
  level   : Nat
  input   : List Byte
  payload : List Byte
  lane    : Nat
  checked : Bool
  deriving DecidableEq, Repr

/-- A command at work that places items or waits for their durability: WRITE_RECORDS, WRITE_FILEMARKS, SYNC. -/
structure WriteRun where
  jsn        : Nat
  ctx        : Nat
  partition  : Nat
  /-- Profile and tenant as captured at the start (04 R99, R104). -/
  tenant     : Nat
  level      : Nat
  persist    : Bool
  subscribe  : Bool
  /-- Filemarks to place in all. -/
  filemarks  : Nat
  /-- Lengths of the records (04 R105). -/
  lens       : List Nat
  /-- Record bytes fetched so far, in stream order (05 R118), and how many of them are encoded. -/
  input      : List Byte
  encoded    : Nat
  /-- Encoded blocks not yet placed, in stream order; number of the next one to be placed. -/
  blocks     : List EncBlock
  nextBlock  : Nat
  /-- Stream bytes and items placed. -/
  placedBytes : Nat
  placedItems : Nat
  firstItem  : Option Nat
  /-- End of data of the partition when the command started. -/
  startEnd   : Nat
  /-- Leading items whose every part stands in a dataset. -/
  done       : Nat
  /-- (SEQ, leading items complete once that dataset is released), for every dataset with a part of the command's
  items that holds a SEQ (09 R250). -/
  marks      : List (Nat × Nat)
  /-- Leading durable items. -/
  durable    : Nat
  /-- Status, and RESULT1 where one is stated, that the command ends with when its datasets are settled; none: OK. -/
  ending     : Option (Nat × Option Nat)
  /-- History that the first block continues (05 R130); empty: none. -/
  carry      : List Byte
  /-- Stream offset of the start of the latest block with HIST = 0 (05 R127). -/
  histFrom   : Nat
  /-- Leading items that were durable when the stream began: 0, or more after a reset or a restart (14 R368, 17 R433). -/
  base       : Nat
  /-- Item whose byte was uncorrectable in HDM and made the restart of 14 R368. -/
  badItem    : Option Nat
  /-- Porter buffers that hold the record bytes fetched and not yet encoded (02 R52). -/
  bufs       : List Word
  /-- Lane that first encrypted the frame whose one retry waits for CEIL (06 R169). -/
  spent      : Option Nat
  deriving DecidableEq, Repr

/-- The dataset being assembled (07 R181, R191), or closed and waiting for its SEQ (R193, R196). -/
structure OpenDataset where
  ds       : Dataset
  /-- A frame is still open: its last element of `ds.frames`; blocks in it; header offset; its command. -/
  frameOpen : Bool
  frameBlocks : Nat
  frameHead : Nat
  frameJsn : Nat
  /-- Encoded blocks of the open frame. -/
  chunk    : List Byte
  /-- Device time of the latest item or byte (04 R109). -/
  lastAt   : Nat
  /-- Bytes per tenant in its user area (09 R251). -/
  tally    : Table Nat
  /-- Commands with anything in it, with an item in it, those of them that subscribe (09 R252), and how many leading items of
  each are complete in it. -/
  jsns     : List Nat
  itemJsns : List Nat
  subs     : List Nat
  marks    : List (Nat × Nat)
  /-- Record of the first decoded byte of the first frame with any part in it (09 R248). -/
  firstRec : Option Nat
  /-- The last directory entry: TYPE, LENGTH, stream, RUN. -/
  lastEntry : Option (Nat × Nat × Nat × Nat)
  /-- Tally frames reserved (16 R410). -/
  reserved : Nat
  /-- Handle of its 8 MiB buffer (01 R20). -/
  buf      : Word
  deriving DecidableEq, Repr

/-- A codeword that has failed verify and has no passing copy (09 R242). -/
structure FailedCw where
  seq    : Nat
  subset : Nat
  row    : Nat
  track  : Nat
  /-- Tracks of the copies made, oldest first; the SEQ of the dataset that carries the copy in flight. -/
  copies : List Nat
  flight : Option Nat
  deriving DecidableEq, Repr

/-- A dataset that holds a SEQ and is neither released nor retracted (09). -/
structure WrittenDataset where
  ds        : Dataset
  tally     : Table Nat
  jsns      : List Nat
  itemJsns  : List Nat
  subs      : List Nat
  firstRec  : Option Nat
  reserved  : Nat
  buf       : Word
  /-- Its slot 127 has gone out. -/
  written   : Bool
  /-- Rows whose first writing has a result, and rows that have passed, by m = 16 × row + sub-dataset. -/
  seen      : BitVec 7680
  ok        : BitVec 7680
  /-- First writings failed on tracks not excluded (09 R245), and failures per track (09 R256). -/
  failures  : Nat
  trackFails : Table Nat
  /-- Slots per track without SYNC, and write-driver faults reported while it went out (09 R257). -/
  noSync    : Table Nat
  drvFault  : BitVec 64
  /-- Datasets after it on tape in its partition, that may carry copies. -/
  carriers  : List Nat
  /-- Retracted while its bits still go out: 0 replaced, 3 truncated (09 R245, R248). -/
  dead      : Option Nat
  /-- Subject to 09 R245, which waits until its DATASET_RETRACTED can enter the event queue (03 R474). -/
  due       : Bool
  deriving DecidableEq, Repr

/-- The writing run in progress (07 R178, R196). -/
structure TapeRun where
  partition : Nat
  /-- The run-in is still to be written. -/
  runIn     : Bool
  /-- SEQ of the dataset under the head and the channel bits written of it; the dataset before it in the run. -/
  seq       : Nat
  bits      : Nat
  prev      : Option Nat
  /-- Servo frame number at which its slot 0 began (07 R186). -/
  startSfn  : Nat
  /-- The content of its rewrite slots is fixed (09 R241), and the copies in them (R243). -/
  fixed     : Bool
  copies    : List SlotCopy
  /-- The run is in its closing EOD datasets; at the edge of the last one a further one was found needed. -/
  closing   : Bool
  further   : Bool
  /-- The run is to end: no further data dataset joins it (09 R248, R258). -/
  ending    : Bool
  /-- The run-out is being written (07 R178). -/
  runOut    : Bool
  warned    : Bool
  /-- The run is counted as one ended under 13 R349; a data dataset that joins its closing does not make it two. -/
  counted   : Bool
  deriving DecidableEq, Repr

/-- A C3 group with members formed (08 R221, R222). -/
structure C3Group where
  partition : Nat
  number    : Nat
  formed    : Nat
  verified  : Nat
  closed    : Bool
  /-- The accumulator: user bytes and directory of the members taken in, by index (08 R222). -/
  taken     : List (Nat × List Byte × List Byte)
  deriving DecidableEq, Repr

structure Fmt where
  writes    : List WriteRun
  opened    : Option OpenDataset
  /-- Data datasets closed and waiting for their SEQ, in order. -/
  closed    : List OpenDataset
  /-- SEQs of datasets waiting for their slots, in SEQ order. -/
  formed    : List Nat
  /-- Datasets with a SEQ that are neither released nor retracted, in SEQ order. -/
  active    : List WrittenDataset
  run       : Option TapeRun
  nextSeq   : Nat
  /-- Record number of the next item of each partition by placement, and end of data by release (09 R255). -/
  placeEnd  : List Nat
  durableEnd : List Nat
  /-- A TRUNCATE dataset is to be formed next in the partition (07 R197, R475, 09 R255): FIRST_ITEM; it begins a run of
  its own (R197, R255). -/
  truncate  : List (Option Nat)
  truncRun  : List Bool
  /-- A run of R255 is still owed before the tape is used. -/
  owed      : List Bool
  /-- The first approach to a run's place has failed (07 R476). -/
  approached : Bool
  /-- The base end was recorded since LOAD (09 R255). -/
  based     : List Bool
  /-- Device time at which the first ready byte became ready (13 R349). -/
  firstReady : Option Nat
  /-- Buffers of released datasets whose release record is not yet durable: SEQ, handle (09 R249). -/
  leaving   : List (Nat × Word)
  datasets  : Nat
  eodDatasets : Nat
  earlyCloses : Nat
  dirSpills : Nat
  fillSlots : Nat
  /-- Datasets released, for log page 0x06. -/
  releasedCount : Nat
  /-- Number of the next C3 group per partition; groups that hold an accumulator. -/
  c3Next    : List Nat
  c3Groups  : List C3Group
  deriving DecidableEq, Repr

/-! ### Tape error correction and read path (08, 10) -/

structure WrapRecord where
  wrap   : Nat
  step   : Nat
  valid  : Bool
  mixed  : Bool
  mean   : Nat
  /-- Per track: SNR, SIR, R_A, RATIO, N_SLOT, N_PASS (08 Table 8-3). -/
  tracks : List (Nat × Nat × Nat × Nat × Nat × Nat)
  deriving DecidableEq, Repr

/-- The wrap in progress (08 R225-R229): datasets written in it, data slots of each track that passed with margin. -/
structure LiveWrap where
  step     : Nat
  mixed    : Bool
  datasets : Nat
  passes   : Table Nat
  /-- Per track: valid codewords, squared noise over their bits, sampled codewords and the sum of their rates (08 R225, R226). -/
  valids   : Table Nat
  noise    : List (Nat × Rat)
  sampled  : Table Nat
  rates    : List (Nat × Int)
  deriving DecidableEq, Repr

/-- What the C1-C2 schedule of a dataset's sub-datasets came to (08 R215-R219; 10 Table 10-7). -/
structure DecodeStats where
  /-- Rows not valid after the first C1 decode of their own slot. -/
  c1Invalid  : Nat
  /-- Rows not valid after their last C1 pass. -/
  c1Left     : Nat
  copiesUsed : Nat
  c2Symbols  : Nat
  overrule   : Nat
  outer      : Nat
  maxIter    : Nat
  worstFlips : Nat
  worstWeak  : Nat
  deriving DecidableEq, Repr

structure HeldDataset where
  seq     : Nat
  /-- Sub-datasets that failed and are still not decoded. -/
  failed  : List Nat
  /-- Rows (sub-dataset, row) of those that no reading has made valid (10 R270). -/
  bad     : List (Nat × Nat)
  /-- Codeword slots without a SYNC field in the first reading, by read channel (10 R272). -/
  unsynced : List (Nat × Nat)
  notFound : Bool
  retried : Bool
  passes  : Nat
  c3Used  : Bool
  /-- Sub-datasets for which C3 was tried since the last reading. -/
  c3Tried : List Nat
  stats   : DecodeStats
  deriving DecidableEq, Repr

/-- The detector of a read channel in a wrap direction (08 R214): the equaliser's taps, the target's coefficients, the
predictor's, the variance of its noise. -/
structure Detector where
  taps : List Rat
  g1   : Rat
  g2   : Rat
  p1   : Rat
  p2   : Rat
  var  : Rat
  deriving DecidableEq, Repr

structure Tec where
  verifyIter : Nat
  readIter   : Nat
  outer      : Nat
  c3Read     : Bool
  frozen     : Bool
  ratioLow   : Nat
  stepLog2   : Nat
  tapsReset  : Bool
  /-- Detectors that have adapted, by 2 x track + wrap direction (08 R214). -/
  detectors  : List (Nat × Detector)
  /-- A setting that waits for the next tick (08 R230): the decode group, and FREEZE with STEP_LOG2. -/
  decodeNext : Option (Nat × Nat × Nat × Bool × Nat)
  detectNext : Option (Bool × Bool × Nat)
  live       : LiveWrap
  last       : WrapRecord
  c1VerifyFail : Nat
  c1ReadFail : Nat
  c1Miscorrect : Nat
  c2Symbols  : Nat
  c2Overrule : Nat
  subsetFail : Nat
  c3Recovered : Nat
  c3Fail     : Nat
  rdActive   : Bool
  rdPass     : Nat
  c3Active   : Bool
  /-- The dataset for which a read waits, with the PASSES and NO_C3 of the read (10 R269). -/
  recovering : Option (Nat × Nat × Bool)
  /-- SEQs of the datasets that hold a buffer (10 R266), and what the decoding of datasets came to. -/
  buffers    : List Nat
  held       : List HeldDataset
  rdFault    : Word
  rdFaultSfn : Nat
  rdDatasets : Nat
  rdSuperseded : Nat
  rdCopies   : Nat
  rdRetries  : Nat
  rdRetryOk  : Nat
  rdPasses   : Nat
  rdMediaErr : Nat
  rdUnneeded : Nat
  /-- Blocks that fail to decode twice: JSN of the read and the record whose bytes they hold (05 R141). -/
  badBlocks  : List (Nat × Nat)
  degradedChannels : List Nat
  deriving DecidableEq, Repr

/-! ### Verify and rewrite (09) -/

structure Margin where
  iterMax    : Nat
  flipsMax   : Nat
  weakMax    : Nat
  wholeMin   : Nat
  suspectMin : Nat
  deriving DecidableEq, Repr

/-- Shadow group state: COMMIT pending, ERR (18 R449, R450). -/
structure Commit where
  pending : Bool
  err     : Bool
  deriving DecidableEq, Repr

structure Vfy where
  margin   : Margin
  shadow   : Margin
  commit   : Commit
  /-- Excluded tracks with CAUSE (09 R257). -/
  excluded : List (Nat × Nat)
  disabled : Bool
  failedCws : List FailedCw
  /-- Tracks suspect since a dataset (09 R256): (track, SEQ of the suspect dataset, the cause that it shows). -/
  suspects : List (Nat × Nat × Nat)
  /-- Write-driver faults that STATUS frames have reported since the dataset under the head began. -/
  wdrvFault : BitVec 64
  cwFirst  : Nat
  cwFail   : Nat
  cwMargin : Nat
  copies   : Nat
  copyFail : Nat
  whole    : Nat
  lasting  : Nat
  trackErrs : Table Nat
  deriving DecidableEq, Repr

/-! ### Head link (11) -/

inductive LaneFault where
  | none | crc | lock | training | wiring | host
  deriving DecidableEq, Repr

structure HlkLane where
  crcErr   : Nat
  blockErr : Nat
  lockLoss : Nat
  retrains : Nat
  retired  : Bool
  cause    : LaneFault
  lost     : Nat
  active   : Bool
  failing  : Bool
  /-- Device time at which its last retrain passed. -/
  retrainAt : Option Nat
  /-- Frames seen and the frame numbers of CRC errors within the window (11 R294). -/
  frames   : Nat
  errorsAt : List Nat
  nextSeq  : Option Nat
  locked   : Bool
  /-- Of an outbound lane: FSEQ of its next frame, the scrambled payload it sent last, blocks queued in the tick (R286, R288). -/
  txSeq    : Nat
  txLast   : Word
  queued   : Nat
  deriving DecidableEq, Repr

structure HlkErrCfg where
  crcLimit  : Nat
  windowLog2 : Nat
  recur     : Nat
  deriving DecidableEq, Repr

structure Hlk where
  /-- STATE: 0 DOWN, 1 TRAINING, 2 UP, 3 DEGRADED, 4 FAILED. -/
  state    : Nat
  lanes    : List HlkLane
  retraining : Option Nat
  /-- Returns and retirements that wait for the tick edge (11 R296): (lane, returns). -/
  maskNext : List (Nat × Bool)
  h64Id    : BitVec 40
  cfg      : HlkErrCfg
  shadow   : HlkErrCfg
  commit   : Commit
  /-- Whole-link retrain made (11 R297). -/
  wholeRetry : Bool
  /-- Per source the next INDEX expected plus 1, 0: none yet; frames that arrived ahead of a gap: (SOURCE, INDEX, items) (11
  R288). -/
  nextIndex : Table Nat
  ahead     : List (Nat × Nat × List Int)
  /-- Per source the samples taken in order since the last tick edge; a lost one is none (11 R287, R289). -/
  samples   : Table (List (Option Int))
  underrun : BitVec 64
  /-- Payload of the last REPLY, and its INDEX tag. -/
  lastReply : Word
  replyTag  : Nat
  /-- Write bits of the run's 64 channels that fill no frame yet, and the bit index of the first (11 R287). -/
  unsent    : List (List Bool)
  bitIndex  : Nat
  capRead  : Nat
  capWrite : Nat
  /-- H64_RST_N, low from a start until link training (19 Table 19-2). -/
  h64RstN  : Bool
  deriving DecidableEq, Repr

/-! ### Drover (12) and transport monitor (13) -/

/-- A second-order section (12 Table 12-9); mantissas are signed. -/
structure Section where
  b0 : Int
  b1 : Int
  b2 : Int
  a1 : Int
  a2 : Int
  exp : Int
  x1 : Int
  x2 : Int
  y1 : Int
  y2 : Int
  deriving DecidableEq, Repr

/-- Paired fields of a loop (12 Table 12-8): CFG, OUT, FE, PROF, VMAX, AMAX, JMAX. -/
structure LoopCfg where
  eager  : Bool
  nsec   : Nat
  intSec : Nat
  fbNeg  : Bool
  inExp  : Int
  fbSrc  : Nat
  sink   : Nat
  spSrc  : Nat
  outMin : Int
  outMax : Int
  feLimit : Nat
  feTime : Nat
  feAction : Nat
  kind   : Nat
  vmax   : Nat × Int
  amax   : Nat × Int
  jmax   : Nat × Int
  deriving DecidableEq, Repr

structure Loop where
  cfg      : LoopCfg
  shadow   : LoopCfg
  sections : List Section
  modeReq  : Nat
  mode     : Nat
  bump     : Bool
  manOut   : Int
  target   : Int
  targetNext : Option Int
  /-- Profile state: set-point, velocity, acceleration, in codes with 24 fraction bits (12 R320). -/
  sp       : Int
  vel      : Int
  acc      : Int
  doneRaised : Bool
  /-- Output code last applied; the framed output to be applied at the next edge. -/
  output   : Int
  nextOut  : Option Int
  /-- Output code last completed, for sources 0x20 on (12 R302). -/
  code     : Int
  sat      : Bool
  clamp    : Bool
  missing  : Bool
  overrun  : Bool
  ovrRun   : Nat
  feCount  : Nat
  feTripped : Bool
  fbLast   : Int
  /-- Error of the last input stage, in codes with 24 fraction bits. -/
  err24    : Int
  /-- Sections loaded by DRV_SET_SECTION that wait for the next tick (12 R309): (section, values). -/
  loads    : List (Nat × Section)
  /-- The host has written a coefficient since LOAD (13 R339). -/
  hostCoef : Bool
  /-- States and code before the computation of the tick in progress, for an overrun (12 R314). -/
  before   : List Section
  codeBefore : Int
  /-- A transfer from MANUAL to AUTO was made and its preset waits for the input of the tick (12 R318). -/
  presetDue : Bool
  deriving DecidableEq, Repr

/-- A DRV_MOVE or DRV_CAPTURE or DRV_SET_MODE that is under way: JSN, loop, tick of start. -/
structure DrvJob where
  jsn   : Nat
  loop  : Nat
  start : Nat
  at_   : Nat
  target : Int
  deriving DecidableEq, Repr

structure Drv where
  safeStop : Bool
  busyLast : Nat
  busyMax  : Nat
  commit   : Commit
  errLoop  : Nat
  speedLoop : Nat
  speedEn  : Bool
  speedLoopSh : Nat
  speedEnSh : Bool
  loops    : List Loop
  overruns : Nat
  sats     : Nat
  missingCnt : Nat
  transfers : Nat
  feTrips  : Nat
  moves    : List DrvJob
  modes    : List DrvJob
  captures : List DrvJob
  /-- DRV_SET_SECTION commands that wait for the load; `target` holds E. -/
  sets     : List DrvJob
  /-- DAC writes in order: (loop, code) (12 R311). -/
  dacQueue : List (Nat × Int)
  /-- Inputs latched at the last tick edge, substitutes in place. -/
  latched  : List (Nat × Int)
  /-- Servo measurements were posted since the last tick edge. -/
  posted   : Bool
  /-- Posted inputs that wait for their loop (12 R315). -/
  waitPost : List (Nat × List (Nat × Int))
  /-- Tick period and step for which the sections of loops 0 to 3 were computed (13 R339). -/
  secPeriod : Nat
  secStep  : Nat
  /-- Drover cycles of work in the tick in progress. -/
  busyNow  : Nat
  /-- S1_CLR_N, which clears the actuator DAC while low (19 R467). -/
  s1ClrN   : Bool
  deriving DecidableEq, Repr

structure MonCfg where
  stuckTicks : Nat
  agree      : Nat
  tenAgree   : Nat
  releaseTicks : Nat
  offtrackNm : Nat
  deriving DecidableEq, Repr

/-- One feedback sensor (13 Table 13-4): state 0 OK, 1 failed in retry, 2 lasting, 3 UNDECIDED; check counters. -/
structure Sensor where
  state  : Nat
  count  : Nat
  count2 : Nat
  count3 : Nat
  last   : Int
  /-- Reel A current at the start of the tension stretch, and whether it has moved by more than 200 codes since. -/
  ref    : Int
  moved  : Bool
  /-- Frames that passed since it was failed, and the time of its last re-admission (13 R341). -/
  passes : Nat
  readmitted : Option Nat
  deriving DecidableEq, Repr

structure Mon where
  /-- Encoder A, encoder B, tension, servo channels 0 to 3. -/
  sensors  : List Sensor
  lock     : Bool
  /-- Consecutive servo frames detected while ticks are synthetic (01 R14). -/
  frames   : Nat
  inhibit  : Bool
  inhSrc   : BitVec 5
  goodTicks : Nat
  safeCause : Nat
  radiusA  : Nat
  radiusB  : Nat
  kSquare  : Nat
  cfg      : MonCfg
  shadow   : MonCfg
  commit   : Commit
  /-- A safe stop has ended and its retry is to be made (13 R343); time of the last stop by cause. -/
  stopped  : Bool
  openLoop : Bool
  lastStop : Option (Nat × Nat)
  /-- Servo loss: time and SFN of the last one (13 R346). -/
  lossAt   : Option Nat
  lossSfn  : Option Nat
  sfn      : Nat
  /-- Symbols of the last servo frames, the newest last, at most 32; the band of the last good servo word (13 R336). -/
  symbols  : List (Option Nat)
  band     : Nat
  /-- Loop 4 is in MANUAL at the code of a new data band, whose servo is not locked yet (13 R337). -/
  bandWait : Bool
  wrapNow  : Option Nat
  /-- Tape speed, mm/s, signed (13 source 0x0E). -/
  speed    : Int
  slackTicks : Nat
  /-- Motor current ADCs A and B: ticks at a rail, failed. -/
  currents : List (Nat × Bool)
  /-- Device time since which the tape has been slower than 50 mm/s (13 R342). -/
  slowFrom : Option Nat
  deriving DecidableEq, Repr

/-! ### Speed matching (13) -/

structure SpmCfg where
  maxStep  : Nat
  headroom : Nat
  hyst     : Nat
  fLow     : Nat
  fHigh    : Nat
  fRestart : Nat
  hLow     : Nat
  hHigh    : Nat
  deriving DecidableEq, Repr

structure Spm where
  chosen   : Nat
  mode     : Nat
  runWait  : Bool
  /-- Native bytes ready and not yet on tape; made ready since the last decision; delivered since then. -/
  readyBytes : Nat
  inSince  : Nat
  outSince : Nat
  /-- Averages in bytes per second, none before the first sample (13 R347). -/
  rIn      : Option Nat
  rOut     : Option Nat
  lastDecision : Nat
  commandCap : Nat
  sensorCap : Nat
  thermalCap : Nat
  cfg      : SpmCfg
  shadow   : SpmCfg
  commit   : Commit
  stepChanges : Nat
  runStops : Nat
  capDowns : Nat
  deriving DecidableEq, Repr

/-! ### Porter and memory (14) -/

structure BufRec where
  allocated : Bool
  gen       : Nat
  owners    : List Nat
  final     : Nat
  /-- Freed and not yet back in its pool (14 R360). -/
  returning : Bool
  deriving DecidableEq, Repr

def BufRec.fresh : BufRec := { allocated := false, gen := 0, owners := [], final := 0, returning := false }

structure Pool where
  bufs     : Table BufRec
  /-- Published at the last settle (14 Table 14-11). -/
  free     : Nat
  minFree  : Nat
  low      : Nat
  /-- Last winner of classes 0, 1, 2 (14 R359). -/
  lastWin  : List Nat
  deriving DecidableEq, Repr

structure RefuseEntry where
  caller : Nat
  gen    : Nat
  index  : Nat
  pool   : Nat
  op     : Nat
  reason : Nat
  valid  : Bool
  deriving DecidableEq, Repr

structure Prt where
  pools    : List Pool
  /-- Requests with WAIT = 1 that wait: (owner, size) (14 R359). -/
  waiting  : List (Nat × Nat)
  carry    : Bool
  refuseLog : List RefuseEntry
  refusePtr : Nat
  allocs   : Nat
  fallbacks : Nat
  noBuffer : Nat
  refusals : Nat
  fwArg    : Word
  fwResult : Word
  deriving DecidableEq, Repr

/-- An entry of an error table (14 Table 14-18). -/
structure ErrEntry where
  address  : Nat
  position : Nat
  kind     : Nat
  repeats  : Nat
  tick     : Nat
  deriving DecidableEq, Repr

structure FlipCfg where
  cls   : Nat
  isMatch : Bool
  addr  : Nat
  masks : List Word
  deriving DecidableEq, Repr

structure Mem where
  /-- HBM bytes, canonical: addresses rising, no zero byte listed. -/
  hbm      : List Host.Cell
  /-- SRAM bytes in the same form. -/
  sram     : List Host.Cell
  /-- Granules marked written (14 R374), rising. -/
  written  : List Nat
  /-- Error patterns of stored words: (word address, XOR with the codeword as encoded); poison is kept apart. -/
  hbmErr   : Table (BitVec 288)
  sramErr  : Table (BitVec 72)
  hbmPoison : List Nat
  sramPoison : List Nat
  ready    : Bool
  retiredPc : Option Nat
  /-- The remap table in force: retired pseudo-channel whose granules are remapped (14 R371). -/
  remapPc  : Option Nat
  /-- The pseudo-channel just retired, whose poisoned words the consumers of pool buffers have not met (14 R371, Table 14-9). -/
  poolsLost : Option Nat
  retrainPc : Option Nat
  /-- The word that made the pseudo-channel failing. -/
  retrainAddr : Nat
  /-- Time at which a retrain of a pseudo-channel passed, plus 1; 0: none. -/
  retrainAt : Table Nat
  degraded : Bool
  sramCe   : Nat
  sramUe   : Nat
  hbmCe    : Nat
  hbmUe    : Nat
  poisonMerges : Nat
  scrubFixes : Nat
  sramTab  : List ErrEntry
  hbmTab   : List ErrEntry
  sramOver : Nat
  hbmOver  : Nat
  pcCounts : Table Nat
  /-- Corrected reads of the last second: (pseudo-channel, time). -/
  pcTimes  : List (Nat × Nat)
  armed    : Bool
  armPending : Bool
  armErr   : Bool
  flip     : FlipCfg
  flipSh   : FlipCfg
  flipDone : Nat
  deriving DecidableEq, Repr

/-! ### Thermal and power (15) -/

structure ThmCfg where
  throttle : Int
  crit     : Int
  hyst     : Nat
  rate     : Nat
  deriving DecidableEq, Repr

structure ThmGroup where
  classes   : List ThmCfg
  downSteps : Nat
  downMs    : Nat
  upMs      : Nat
  deriving DecidableEq, Repr

structure ThmSensor where
  raw      : Int
  eff      : Int
  rate     : Int
  /-- 0 in service, 1 failed, 2 lasting. -/
  state    : Nat
  diffs    : Nat
  failedAt : Nat
  readmitAt : Option Nat
  /-- Start of the unbroken stretch within 12 degrees of its consensus. -/
  agreeFrom : Option Nat
  lastAt   : Option Nat
  /-- Samples of the last millisecond: (time, raw), oldest first. -/
  samples  : List (Nat × Int)
  deriving DecidableEq, Repr

structure Thm where
  cfg      : ThmGroup
  shadow   : ThmGroup
  commit   : Commit
  sensors  : List ThmSensor
  /-- Effective readings as the last tick published them (15 R379). -/
  published : List Int
  fast     : Bool
  coolSince : Nat
  cap      : Nat
  wasHot   : Bool
  tDown    : Nat
  tUp      : Nat
  tCool    : Nat
  holdEnd  : Nat
  crit     : Bool
  critFrom : Option Nat
  stopped  : Bool
  downs    : Nat
  failures : Nat
  critEntries : Nat
  deriving DecidableEq, Repr

structure Pwr where
  state     : Nat
  allowedMax : Nat
  now       : Bool
  tolerance : Nat
  waking    : Bool
  idleDelay : Nat
  idleFrom  : Nat
  entries   : List Nat
  /-- L3 entry saved the Porter records, bitmap and remap table (15 R398). -/
  saved     : Bool
  deriving DecidableEq, Repr

/-- The always-on domain (15 R388-R402, 19 R462). -/
structure Aon where
  /-- PWR_TIME. -/
  time       : Nat
  cartPresent : Bool
  slack      : Bool
  supplyOk   : Bool
  tripLatch  : Bool
  supplyLatch : Bool
  autoOff    : Bool
  trips      : Nat
  tripTimes  : List Nat
  tripped    : Bool
  coreEn     : Bool
  hbmEn      : Bool
  reelEn     : Bool
  brake      : Bool
  deriving DecidableEq, Repr

/-! ### Weighhouse side of the formatter, and the Weighhouse die (16) -/

/-- A tally frame (16 Table 16-3); `bad`: the queue copy fails its CRC. -/
structure TallyFrame where
  tsn       : Nat
  seq       : Nat
  partition : Nat
  last      : Bool
  epoch     : Nat
  entries   : List (Nat × Nat)
  bad       : Bool
  deriving DecidableEq, Repr

structure Wh where
  /-- AVAIL: 0 unavailable, 1 available, 2 retrying, 3 degraded. -/
  avail     : Nat
  lifecycle : Nat
  epochValid : Bool
  epoch     : Nat
  blocked   : Bool
  blockedAt : Option Nat
  lastTsn   : Nat
  time      : Nat
  bad       : Nat
  gap       : Nat
  dup       : Nat
  /-- Frames reserved under R410. -/
  reserved  : Nat
  lastStatus : Nat
  lastRise  : Nat
  failedAt  : Nat
  /-- Frames on the link, in order. -/
  link      : List TallyFrame
  /-- Highest TSN sent. -/
  sentTsn   : Nat
  romPhase  : Bool
  tx        : List Byte
  rx        : Option (List Byte)
  rxRest    : List Byte
  sent      : Nat
  resent    : Nat
  lostFrames : Nat
  unavailCnt : Nat
  deriving DecidableEq, Repr

/-- A ledger entry (16 Table 16-5). -/
structure LedgerEntry where
  epoch     : Nat
  timeOpen  : Nat
  timeClose : Nat
  timeEnd   : Nat
  /-- 0 MEASURING, 1 RUNNING, 2 ENDED, 3 ABANDONED. -/
  state     : Nat
  stages    : List (List Byte)
  start     : Nat
  endCause  : Nat
  prevHash  : List Byte
  signature : List Byte
  deriving DecidableEq, Repr

structure Meter where
  count     : Nat
  tsn       : Nat
  prevCount : Nat
  prevTsn   : Nat
  deriving DecidableEq, Repr

def Meter.zero : Meter := { count := 0, tsn := 0, prevCount := 0, prevTsn := 0 }

/-- The state word of Weighhouse MRAM (16 R408). -/
structure StateWord where
  lastTsn    : Nat
  nextEpoch  : Nat
  statementNo : Nat
  datasets   : Nat
  lost       : Nat
  timeCheck  : Nat
  powerOns   : Nat
  seqNo      : Nat
  deriving DecidableEq, Repr

structure Weighhouse where
  /-- VDD_WH is up; the die runs (it does not while WH_RST_N is low). -/
  supplied  : Bool
  powered   : Bool
  /-- LIFECYCLE: 0 UNSEALED, 1 SEALED, 2 FAULT. -/
  lifecycle : Nat
  /-- WH_TIME as it stood at the device time `timeFrom`. -/
  time      : Nat
  timeFrom  : Nat
  /-- The two copies of the state word; the one with the higher sequence number is in force. -/
  copyA     : StateWord
  copyB     : StateWord
  meters    : Table Meter
  /-- The ledger ring, newest first, at most 4,096 entries. -/
  ledger    : List LedgerEntry
  readEpochs : List Nat
  bad       : Nat
  gap       : Nat
  dup       : Nat
  /-- Connection state of the two SPDM transports: DOE, MCTP. -/
  spdmDoe   : Nat
  spdmMctp  : Nat
  /-- SPDM sessions, oldest first, at most 4 (16 R425): held over MCTP, and FINISH has come. -/
  sessions  : List (Bool × Bool)
  /-- Epoch released in this boot of the formatter. -/
  released  : Option Nat
  /-- Epochs of overwritten entries that were never read, for WH_LEDGER_UNREAD (16 R421). -/
  unread    : List Nat
  deriving DecidableEq, Repr

/-! ### MRAM records, cartridge, management port -/

/-- A copy of CEIL: one MRAM word with a 32-bit sequence number and a CRC-32C (06 R153). -/
structure CeilCopy where
  ceil  : Nat
  seqNo : Nat
  crc   : Nat
  deriving DecidableEq, Repr

/-- A release record (09 R249). -/
structure ReleaseRecord where
  serial    : List Byte
  partition : Nat
  seq       : Nat
  /-- FIRST_ITEM + ITEMS. -/
  endItem   : Nat
  /-- Number behind the last item that is durable: a record of the dataset that runs on into one not released is not (09 R250). -/
  whole     : Nat
  deriving DecidableEq, Repr

/-- A DATASET_WRITTEN event with no follow-up yet (09 R254). -/
structure WrittenRecord where
  jsn       : Nat
  seq       : Nat
  partition : Nat
  replacement : Bool
  /-- The event itself has entered the queue (03 R474). -/
  raised    : Bool
  deriving DecidableEq, Repr

structure Mram where
  ceilA     : CeilCopy
  ceilB     : CeilCopy
  /-- A raised copy that is being written: CEIL. -/
  ceilNext  : Option Nat
  inst      : BitVec 32
  fused     : BitVec 32
  cleanMark : Bool
  prtEpoch  : Nat
  releases  : List ReleaseRecord
  /-- Release records being written (09 R249): SEQ. -/
  releasing : List Nat
  written   : List WrittenRecord
  /-- Base ends (09 R255): (serial, partition, end). -/
  baseEnds  : List (List Byte × Nat × Nat)
  /-- Pending truncations (17 R435): serials of at most 16 cartridges. -/
  truncs    : List (List Byte × Nat)
  tallies   : List TallyFrame
  nextTsn   : Nat
  deriving DecidableEq, Repr

structure Cart where
  inDrive   : Option Cartridge
  threaded  : Bool
  /-- 0 none, 1 valid, 2 valid after recovery, 3 invalid (07 Table 7-8 CM). -/
  cm        : Nat
  loaded    : Bool
  /-- The cartridge counts as loaded for FMT_CM_ACCESS and UNLOAD alone (07 R204). -/
  unknown   : Bool
  dirty     : Bool
  wrap      : Option Nat
  /-- A writing run has been made since LOAD (07 R202). -/
  runMade   : Bool
  /-- A status page write is due (07 R202). -/
  statusDue : Bool
  /-- DRIVE_STATE of GET_STATUS (03 R89) while no run and no read is in progress. -/
  positioned : Bool
  /-- The status copy written last since LOAD, with its UPDATE_COUNT, and the history entry of this use (07 R202). -/
  statusAt  : Option (Nat × Nat)
  historyAt : Option Nat
  /-- Data band that the head stands in (07 R176). -/
  band      : Nat
  deriving DecidableEq, Repr

structure Mgt where
  dynAddr   : Option Nat
  eid       : Option Nat
  lastMsg   : Option Nat
  copyStale : Bool
  rxMsgs    : Nat
  txMsgs    : Nat
  dropped   : Nat
  deriving DecidableEq, Repr

/-! ### What the device sends out -/

/-- One thing the device sends. Host memory writes carry their bytes; ring entries are host memory writes. -/
inductive Output where
  | hostWrite (addr : Nat) (bytes : List Byte)
  /-- A read of host memory: address, length in bytes. -/
  | hostRead (addr len : Nat)
  | msix (vector : Nat)
  /-- CXL.mem response: data and poison. -/
  | memData (bytes : List Byte) (poison : Bool)
  | memCmp
  | snoopResponse (line : Nat)
  | atsComplete (addr size : Nat)
  | doeResponse (bytes : List Byte)
  | configRetry
  | mmioOnes
  | mmioData (value : Word)
  /-- A completion returned over the management port (17 R446). -/
  | mgtCompletion (words : List Word)
  | mctp (bytes : List Byte)
  /-- Head link: blocks on an outbound lane (11 R283); the device inhibits writing, and an INHIBIT block stands on every active
  lane (11 R291). -/
  | linkBlocks (lane : Nat) (blocks : List LinkBlock)
  | inhibit
  /-- A hardware sink of the Drover is given a code (12 Table 12-1). -/
  | sink (code : Nat) (value : Int)
  /-- The mailbox and the tally link. -/
  | mailbox (bytes : List Byte)
  | ideKey (stream : IdeStream) (msg : List Byte)
  deriving DecidableEq, Repr

structure State where
  sys  : Sys
  hif  : Hif
  cmd  : Cmd
  jrn  : Journal
  ctx  : Ctx
  pkr  : Pkr
  cph  : Cph
  fmt  : Fmt
  tec  : Tec
  vfy  : Vfy
  hlk  : Hlk
  drv  : Drv
  mon  : Mon
  spm  : Spm
  prt  : Prt
  mem  : Mem
  thm  : Thm
  pwr  : Pwr
  aon  : Aon
  wh   : Wh
  whd  : Weighhouse
  mram : Mram
  cart : Cart
  mgt  : Mgt
  /-- Waiting commands, first in, first out. -/
  pending : List Instr
  /-- What has been sent out, in order. -/
  out  : List Output
  /-- The model's own counter of free values drawn. -/
  freeCount : Nat
  deriving DecidableEq, Repr

/-! ### The state right after a power-on start -/

def Commit.none : Commit := { pending := false, err := false }

def RingCfg.zero : RingCfg := { base := 0, en := false, sizeLog2 := 0, burst := 0 }

def SubRing.reset : SubRing := { shadow := .zero, cfg := .zero, tail := 0, head := 0, copied := [] }

def CplRing.reset (n : Nat) : CplRing :=
  { shadow := .zero, cfg := .zero, head := 0, tail := 0, phase := true, live := [], waiting := [], vector := n,
    vecEn := true }

def EvtRing.reset : EvtRing :=
  { shadow := .zero, cfg := .zero, head := 0, tail := 0, phase := true, waiting := [], highWater := 0, held := [],
    vector := 64, vecEn := true }

def Counter.reset : Counter :=
  { stages := [], openWords := 0, state := .idle, dropped := 0, discarded := 0, flushed := 0 }

def EventGroup.reset (g : Nat) : EventGroup := { status := 0, mask := 0, vector := 65 + g, vecEn := true }

/-- 03 and Tables 18-5 to 18-9. -/
def Cmd.reset : Cmd :=
  { subRings := List.replicate 64 .reset, cplRings := (List.range 64).map .reset, evt := .reset,
    commitPending := false, commitErr := false, errRing := 0, counter := .reset,
    groups := (List.range 40).map .reset, abortJsn := 0, abortResult := 0, compatT4 := false, compatActive := false,
    turn := 0, turnTaken := 0, mgtQueue := [], lateFinals := [], fullRing := false, fullRes := false }

def SysUnit.zero : SysUnit := { state := 0, cause := 0, transient := 0 }

/-- 01 Tables 1-2, 1-3 and 17 Tables 17-9 to 17-13, before start-up step 1 of a power-on. -/
def Sys.reset : Sys :=
  { phase := .stepOne, kind := 0, source := 0, unclean := false, ready := false, replaying := false,
    replayPosted := false, fatal := false, coresUp := 0, replayLeft := 0, tickCount := 0, synth := true,
    step := 0x1F, lastPeriod := 0, tickStart := 0, shortTick := false, units := List.replicate 32 .zero,
    faulted := 0, lasting := 0, tickCore := 0, mgtCore := 3,
    cores := List.replicate 4 { lastKick := 0, lastRetry := Option.none }, taskMisses := 0, stopBegan := 0,
    readyAt := 0, laneRetries := [], trackRetries := [], subsysId := 0, toReport := [] }

def Ide.reset : Ide := { state := .off, failAt := 0, epoch := [] }

def Doe.reset : Doe := { request := Option.none, response := Option.none, error := false }

/-- 02 Tables 2-7 to 2-9; the MSI-X vectors are masked (log entry 6) and the HDM decoder is uncommitted (log
entry 5). -/
def Hif.reset : Hif :=
  { mode := 0, rate := 0, width := 0, cacheEn := false, memEn := false, atsEn := false, busMaster := false,
    memSpace := false, bars := List.replicate 6 0, msixEn := false, messages := [], atcBad := [],
    hdmBase := 0, hdmSize := 0, committed := false, notCommitted := false, locked := false, poison := 0,
    logOffset := 0, logSize := 0, logWrite := false, logOverflow := false, logValid := false, ideIo := .reset,
    ideCm := .reset, ideSkid := false, doe := .reset, unmasked := [], funcMask := false, pba := [], atc := [] }

def Journal.reset : Journal := { entries := [], retire := [], nextJsn := 1, runs := [] }

def Ctx.reset : Ctx := { records := [], lines := [], pins := [], waiting := [], misses := 0 }

/-- 05 Table 5-4: chain depth, logarithm of the window, lazy evaluation. -/
def levelDefaults : List LevelParams :=
  [(0, 0, 0), (4, 16, 0), (8, 17, 0), (16, 18, 0), (32, 18, 1), (64, 19, 1), (128, 19, 1), (256, 20, 2),
    (512, 20, 2), (1024, 20, 2)].map fun p => { depth := p.1, window := p.2.1, lazyEval := p.2.2 }

def Pkr.reset : Pkr :=
  { levels := levelDefaults, levelNext := [], cDegraded := 0, dDegraded := 0, chained := [],
    inBytes := 0, outBytes := 0, rawBlocks := 0, reencoded := 0, selfErrs := 0, decodeErrs := 0, history := [] }

/-- Device key slot 0 as drawn (06 R160): its key is a free value. -/
def KeySlot.drawn (n : Nat) : KeySlot :=
  { KeySlot.none with use := .active, key := Config.deviceKey n }

/-- Device key slot 1: the known-answer self-test key, fixed in ROM (06 Table 6-3). -/
def KeySlot.rom : KeySlot := { KeySlot.none with use := .active, key := Config.romKey }

/-- 06 Tables 6-7 to 6-10. -/
def Cph.reset : Cph :=
  { ceilErr := false, starting := true, testing := false, recovery := false, katOk := false, ctxSlots := [],
    devSlots := [(0, .drawn 0), (1, .rom)], lanes := List.replicate 8 { job := Option.none, saved := [] }, degraded := 0,
    queue := [], ceilWait := [], done := [], popped := Option.none, desc := List.replicate 8 0, nextOrder := 0, nextPost := 0,
    drawn := 0, burnt := 0, tagFails := 0, selfErrs := 0, suspends := 0 }

def Fmt.reset : Fmt :=
  { writes := [], opened := Option.none, closed := [], formed := [], active := [], run := Option.none, nextSeq := 0,
    placeEnd := List.replicate 4 0, durableEnd := List.replicate 4 0, truncate := List.replicate 4 Option.none,
    truncRun := List.replicate 4 false, approached := false, owed := List.replicate 4 false, based := List.replicate 4 false,
    firstReady := Option.none, leaving := [], datasets := 0, eodDatasets := 0, earlyCloses := 0, dirSpills := 0, fillSlots := 0,
    releasedCount := 0, c3Next := List.replicate 4 0, c3Groups := [] }

def WrapRecord.none : WrapRecord := { wrap := 0xFFFF, step := 0, valid := false, mixed := false, mean := 0, tracks := [] }

def LiveWrap.none : LiveWrap :=
  { step := 0x1F, mixed := false, datasets := 0, passes := [], valids := [], noise := [], sampled := [], rates := [] }

/-- 08 Tables 8-5, 8-6 and 10 Tables 10-10 to 10-12. -/
def Tec.reset : Tec :=
  { verifyIter := 8, readIter := 24, outer := 4, c3Read := true, frozen := false, ratioLow := 0xDEB8, stepLog2 := 12,
    tapsReset := false, detectors := [], decodeNext := Option.none, detectNext := Option.none, live := .none, last := .none,
    c1VerifyFail := 0, c1ReadFail := 0, c1Miscorrect := 0, c2Symbols := 0, c2Overrule := 0,
    subsetFail := 0, c3Recovered := 0, c3Fail := 0, rdActive := false, rdPass := 0, c3Active := false, recovering := Option.none, buffers := [], held := [],
    rdFault := 0, rdFaultSfn := 0, rdDatasets := 0, rdSuperseded := 0, rdCopies := 0, rdRetries := 0, rdRetryOk := 0,
    rdPasses := 0, rdMediaErr := 0, rdUnneeded := 0, badBlocks := [],
    degradedChannels := [] }

def Margin.reset : Margin :=
  { iterMax := 4, flipsMax := 0x60, weakMax := 0x180, wholeMin := 0x100, suspectMin := 0x18 }

def Vfy.reset : Vfy :=
  { margin := .reset, shadow := .reset, commit := .none, excluded := [], disabled := false, failedCws := [],
    suspects := [], wdrvFault := 0, cwFirst := 0, cwFail := 0, cwMargin := 0, copies := 0, copyFail := 0,
    whole := 0, lasting := 0, trackErrs := [] }

def HlkLane.reset : HlkLane :=
  { crcErr := 0, blockErr := 0, lockLoss := 0, retrains := 0, retired := false, cause := .none, lost := 0,
    active := false, failing := false, retrainAt := Option.none, frames := 0, errorsAt := [], nextSeq := Option.none,
    locked := false, txSeq := 0, txLast := 0, queued := 0 }

def HlkErrCfg.reset : HlkErrCfg := { crcLimit := 4, windowLog2 := 10, recur := 2000 }

def Hlk.reset : Hlk :=
  { state := 0, lanes := List.replicate 16 .reset, retraining := Option.none, maskNext := [], h64Id := 0,
    cfg := .reset, shadow := .reset, commit := .none, wholeRetry := false, nextIndex := [], ahead := [], samples := [], underrun := 0,
    lastReply := 0, replyTag := 0, unsent := [], bitIndex := 0, capRead := 0x1F, capWrite := 0x1F, h64RstN := false }

def Section.zero : Section :=
  { b0 := 0, b1 := 0, b2 := 0, a1 := 0, a2 := 0, exp := 0, x1 := 0, x2 := 0, y1 := 0, y2 := 0 }

/-- 12 Table 12-8. -/
def LoopCfg.reset : LoopCfg :=
  { eager := false, nsec := 1, intSec := 0xF, fbNeg := false, inExp := 0, fbSrc := 0, sink := 0, spSrc := 0,
    outMin := 0, outMax := 0, feLimit := 0, feTime := 0, feAction := 0, kind := 0, vmax := (0, 0), amax := (0, 0),
    jmax := (0, 0) }

def Loop.reset : Loop :=
  { cfg := .reset, shadow := .reset, sections := List.replicate 8 .zero, modeReq := 0, mode := 0, bump := false,
    manOut := 0, target := 0, targetNext := Option.none, sp := 0, vel := 0, acc := 0, doneRaised := true, output := 0,
    nextOut := Option.none, code := 0, sat := false, clamp := false, missing := false, overrun := false, ovrRun := 0,
    feCount := 0, feTripped := false, fbLast := 0, err24 := 0, loads := [], hostCoef := false, before := List.replicate 8 .zero, codeBefore := 0, presetDue := false }

def Drv.reset : Drv :=
  { safeStop := false, busyLast := 0, busyMax := 0, commit := .none, errLoop := 0, speedLoop := 0, speedEn := false,
    speedLoopSh := 0, speedEnSh := false, loops := List.replicate 32 .reset, overruns := 0, sats := 0,
    missingCnt := 0, transfers := 0, feTrips := 0, moves := [], modes := [], captures := [], sets := [], dacQueue := [],
    latched := [], posted := false, waitPost := [], secPeriod := 0, secStep := 0x1F, busyNow := 0, s1ClrN := false }

def MonCfg.reset : MonCfg :=
  { stuckTicks := 0x10, agree := 0x0D, tenAgree := 0x4D, releaseTicks := 8, offtrackNm := 0xC8 }

def Sensor.reset : Sensor :=
  { state := 0, count := 0, count2 := 0, count3 := 0, last := 0, ref := 0, moved := false, passes := 0, readmitted := Option.none }

def Mon.reset : Mon :=
  { sensors := List.replicate 7 .reset, lock := false, frames := 0, inhibit := false, inhSrc := 0, goodTicks := 0,
    safeCause := 0, radiusA := 0, radiusB := 0, kSquare := 0, cfg := .reset, shadow := .reset, commit := .none,
    stopped := false, openLoop := false, lastStop := Option.none, lossAt := Option.none, lossSfn := Option.none,
    sfn := 0, symbols := [], band := 0, bandWait := false, wrapNow := Option.none, speed := 0, slackTicks := 0, currents := [(0, false), (0, false)],
    slowFrom := Option.none }

def SpmCfg.reset : SpmCfg :=
  { maxStep := 24, headroom := 1, hyst := 1, fLow := 0x10, fHigh := 0x30, fRestart := 0x40, hLow := 0xC, hHigh := 0x14 }

def Spm.reset : Spm :=
  { chosen := 0x1F, mode := 0, runWait := false, readyBytes := 0, inSince := 0, outSince := 0, rIn := Option.none,
    rOut := Option.none, lastDecision := 0, commandCap := 24, sensorCap := 24, thermalCap := 24, cfg := .reset,
    shadow := .reset, commit := .none, stepChanges := 0, runStops := 0, capDowns := 0 }

/-- Buffers of pools 0 to 3 (14 Table 14-11). -/
def poolSizes : List Nat := [4096, 256, 5120, 120]

def Pool.reset (n : Nat) : Pool := { bufs := [], free := n, minFree := n, low := 0, lastWin := [0, 0, 0] }

def RefuseEntry.zero : RefuseEntry :=
  { caller := 0, gen := 0, index := 0, pool := 0, op := 0, reason := 0, valid := false }

def Prt.reset : Prt :=
  { pools := poolSizes.map .reset, waiting := [], carry := false, refuseLog := List.replicate 16 .zero, refusePtr := 0,
    allocs := 0, fallbacks := 0, noBuffer := 0, refusals := 0, fwArg := 0, fwResult := 0 }

def FlipCfg.zero : FlipCfg := { cls := 0, isMatch := false, addr := 0, masks := List.replicate 5 0 }

def Mem.reset : Mem :=
  { hbm := [], sram := [], written := [], hbmErr := [], sramErr := [], hbmPoison := [], sramPoison := [],
    ready := false, retiredPc := Option.none, remapPc := Option.none, poolsLost := Option.none, retrainPc := Option.none, retrainAddr := 0, retrainAt := [],
    degraded := false, sramCe := 0, sramUe := 0, hbmCe := 0, hbmUe := 0, poisonMerges := 0, scrubFixes := 0,
    sramTab := [], hbmTab := [], sramOver := 0, hbmOver := 0, pcCounts := [], pcTimes := [], armed := false, armPending := false,
    armErr := false, flip := .zero, flipSh := .zero, flipDone := 0 }

/-- 15 Tables 15-2 and 15-8, readings in eighths of a degree. -/
def ThmGroup.reset : ThmGroup :=
  { classes := [{ throttle := 0x320, crit := 0x348, hyst := 0x28, rate := 0x40 },
      { throttle := 0x2A8, crit := 0x2F8, hyst := 0x28, rate := 0x20 },
      { throttle := 0x2F8, crit := 0x348, hyst := 0x28, rate := 0x40 }],
    downSteps := 2, downMs := 10, upMs := 100 }

def ThmSensor.reset : ThmSensor :=
  { raw := 0, eff := 0, rate := 0, state := 0, diffs := 0, failedAt := 0, readmitAt := Option.none,
    agreeFrom := Option.none, lastAt := Option.none, samples := [] }

def Thm.reset : Thm :=
  { cfg := .reset, shadow := .reset, commit := .none, sensors := List.replicate 33 .reset, published := List.replicate 33 ThmSensor.reset.eff, fast := false,
    coolSince := 0, cap := 24, wasHot := false, tDown := 0, tUp := 0, tCool := 0, holdEnd := 0, crit := false,
    critFrom := Option.none, stopped := false, downs := 0, failures := 0, critEntries := 0 }

/-- 15 Tables 15-11, 15-13, 15-16. -/
def Pwr.reset : Pwr :=
  { state := 0, allowedMax := 4, now := false, tolerance := 100, waking := false, idleDelay := 1000, idleFrom := 0,
    entries := [0, 0, 0, 0], saved := false }

/-- 15 Table 15-15; the supplies are enabled, reel enables low and brakes high (19 R462, R467). -/
def Aon.reset : Aon :=
  { time := 0, cartPresent := false, slack := false, supplyOk := false, tripLatch := false, supplyLatch := false,
    autoOff := false, trips := 0, tripTimes := [], tripped := false, coreEn := true, hbmEn := true, reelEn := false,
    brake := true }

def Wh.reset : Wh :=
  { avail := 0, lifecycle := 0, epochValid := false, epoch := 0xFFFFFFFF, blocked := false, blockedAt := Option.none,
    lastTsn := 0, time := 0, bad := 0, gap := 0, dup := 0, reserved := 0, lastStatus := 0, lastRise := 0,
    failedAt := 0, link := [], sentTsn := 0, romPhase := true, tx := [], rx := Option.none, rxRest := [], sent := 0,
    resent := 0, lostFrames := 0, unavailCnt := 0 }

def StateWord.first : StateWord :=
  { lastTsn := 0, nextEpoch := 1, statementNo := 0, datasets := 0, lost := 0, timeCheck := 0, powerOns := 1,
    seqNo := 1 }

/-- The Weighhouse die beside the formatter: powered and SEALED (log entry 11). -/
def Weighhouse.reset : Weighhouse :=
  { supplied := true, powered := true, lifecycle := 1, time := 0, timeFrom := 0, copyA := .first, copyB := { StateWord.first with seqNo := 0 },
    meters := [], ledger := [], readEpochs := [], bad := 0, gap := 0, dup := 0, spdmDoe := 0, spdmMctp := 0,
    sessions := [], released := Option.none, unread := [] }

/-- MRAM with nothing recorded (log entries 7, 9, 10). -/
def Mram.reset : Mram :=
  { ceilA := { ceil := 0, seqNo := 1, crc := 0xF6251FE5 }, ceilB := { ceil := 0, seqNo := 0, crc := 0x2B60B55D },
    ceilNext := Option.none, inst := Config.fusedInstance, fused := Config.fusedInstance, cleanMark := false,
    prtEpoch := 1, releases := [], releasing := [], written := [], baseEnds := [], truncs := [], tallies := [],
    nextTsn := 1 }

def Cart.reset : Cart :=
  { inDrive := Option.none, threaded := false, cm := 0, loaded := false, unknown := false, dirty := false,
    wrap := Option.none, runMade := false, statusDue := false, positioned := false, statusAt := Option.none,
    historyAt := Option.none, band := 0 }

def Mgt.reset : Mgt :=
  { dynAddr := Option.none, eid := Option.none, lastMsg := Option.none, copyStale := false, rxMsgs := 0, txMsgs := 0,
    dropped := 0 }

/-- The device right after its core supplies reach their valid level for the first time (17 R428, R429, column
"Power-on"): start-up step 1 is about to run and no command waits. -/
def State.reset : State :=
  { sys := .reset, hif := .reset, cmd := .reset, jrn := .reset, ctx := .reset, pkr := .reset, cph := .reset,
    fmt := .reset, tec := .reset, vfy := .reset, hlk := .reset, drv := .reset, mon := .reset, spm := .reset,
    prt := .reset, mem := .reset, thm := .reset, pwr := .reset, aon := .reset, wh := .reset, whd := .reset,
    mram := .reset, cart := .reset, mgt := .reset, pending := [], out := [], freeCount := 1 }

end Sys2Proof.Machine
end

