-- ==== Sys2Proof/Machine/Bits.lean ====
section
/-! DEFINITION. Bit fields, byte order (00 R8), saturating counters, two's complement and the CRCs that spec/ names. -/

namespace Sys2Proof.Machine

/-- Bits lo to lo + n - 1 of a number. -/
def bitsN (x lo n : Nat) : Nat := (x >>> lo) % 2 ^ n

/-- Bits lo to lo + n - 1 of a word. -/
def bits (w : Word) (lo n : Nat) : Nat := bitsN w.toNat lo n

/-- Bit i of a word. -/
def bitAt (w : Word) (i : Nat) : Bool := w.getLsbD i

/-- A Bool as a one-bit field. -/
def boolNat (b : Bool) : Nat := if b then 1 else 0

/-- A word from a number. -/
def wd (n : Nat) : Word := BitVec.ofNat 64 n

/-- An element put before the first that it does not exceed. -/
def insertBy {α : Type} (le : α → α → Bool) (x : α) : List α → List α
  | [] => [x]
  | y :: t => if le x y then x :: y :: t else y :: insertBy le x t

/-- A list in rising order; equal elements keep theirs. -/
def sortBy {α : Type} (le : α → α → Bool) (l : List α) : List α := l.foldr (insertBy le) []

/-- The two's complement of an integer in n bits. -/
def toTwos (n : Nat) (i : Int) : Nat := (i % (2 ^ n : Int)).toNat

/-- The integer that n bits hold in two's complement. -/
def fromTwos (n : Nat) (x : Nat) : Int := if 2 * (x % 2 ^ n) < 2 ^ n then (x % 2 ^ n : Nat) else (x % 2 ^ n : Nat) - 2 ^ n

/-- The k bytes of a number, lowest first (00 R8). -/
def leBytes : Nat → Nat → List Byte
  | 0, _ => []
  | k + 1, x => BitVec.ofNat 8 x :: leBytes k (x / 256)

/-- The number that bytes hold, lowest first. -/
def leNat : List Byte → Nat
  | [] => 0
  | b :: t => b.toNat + 256 * leNat t

/-- The k bytes of a number, highest first. -/
def beBytes (k x : Nat) : List Byte := (leBytes k x).reverse

/-- The bytes of words, in order. -/
def wordBytes (ws : List Word) : List Byte := ws.flatMap fun w => leBytes 8 w.toNat

/-- Bytes o to o + n - 1 of a list, missing ones 0. -/
def slice (l : List Byte) (o n : Nat) : List Byte := (List.range n).map fun i => l.getD (o + i) 0

/-- A list brought to n bytes with zero bytes behind it. -/
def padTo (n : Nat) (l : List Byte) : List Byte := l.take n ++ List.replicate (n - l.length) 0

/-- x + y, not above a cap. -/
def satAdd (cap x y : Nat) : Nat := min cap (x + y)

/-- A 64-bit saturating counter. -/
def sat64 (x y : Nat) : Nat := satAdd (2 ^ 64 - 1) x y

/-- A number in [lo, hi]. -/
def clampI (lo hi x : Int) : Int := max lo (min hi x)

def absDiff (x y : Nat) : Nat := (x - y) + (y - x)

/-- Integer division rounding half away from zero, as a number of units. -/
def divRound (x : Int) (d : Nat) : Int :=
  if 0 ≤ x then (2 * x + d) / (2 * d) else -((2 * (-x) + d) / (2 * d))

/-- One bit of a reflected CRC: shift right, XOR the reflected polynomial when the bit falling out is 1. -/
def crcBits (poly : Nat) : Nat → Nat → Nat
  | 0, c => c
  | n + 1, c => crcBits poly n (if c % 2 = 1 then (c / 2) ^^^ poly else c / 2)

/-- CRC-32C of bytes: polynomial 0x1EDC6F41, reflected, start and final XOR all ones (03 Table 3-9; the reflection and
the start value are the family's, log entry 15). -/
def crc32c (l : List Byte) : Nat :=
  (l.foldl (fun c b => crcBits 0x82F63B78 8 (c ^^^ b.toNat)) 0xFFFFFFFF) ^^^ 0xFFFFFFFF

/-- One bit of an unreflected 16-bit CRC. -/
def crc16Bits : Nat → Nat → Nat
  | 0, c => c
  | n + 1, c => crc16Bits n (if c / 0x8000 % 2 = 1 then ((c * 2) % 0x10000) ^^^ 0x1021 else (c * 2) % 0x10000)

/-- CRC-16 of bytes: polynomial 0x1021, start 0xFFFF, most significant bit first. -/
def crc16 (l : List Byte) : Nat := l.foldl (fun c b => crc16Bits 8 (c ^^^ (b.toNat * 256))) 0xFFFF

/-- Device time in always-on cycles of 640 ns (15 R399): has a time of ms milliseconds passed from t0 to t? -/
def passedMs (t0 t ms : Nat) : Bool := ms * 1000000 ≤ (t - t0) * 640

/-- Milliseconds of device time, rounded down. -/
def msOf (t : Nat) : Nat := t * 640 / 1000000

/-- Always-on cycles in ms milliseconds, rounded up. -/
def cyclesOf (ms : Nat) : Nat := (ms * 3125 + 1) / 2

/-- The first index of a list at which a test holds. -/
def indexOf? {α : Type} (p : α → Bool) : List α → Option Nat
  | [] => none
  | a :: t => if p a then some 0 else (indexOf? p t).map (· + 1)

end Sys2Proof.Machine
end

