-- ==== Sys2Proof/Machine/Aes.lean ====
section
/-! DEFINITION. AES-256 as the Cipher Engine uses it (06 R147-R149, R161, R162, R164): GCM and the key wrap KW. The spec names
the standards and does not restate them; PRESUMED, log entry 14. -/

namespace Sys2Proof.Machine

/-! ### Products modulo a polynomial over GF(2) -/

/-- x times an element of the field of m elements with a polynomial of that degree. -/
def fieldDouble (m poly a : Nat) : Nat := if 2 * a < m then 2 * a else (2 * a) ^^^ poly

/-- Product in that field; the first argument bounds the bits of the second factor. -/
def fieldTimes (m poly : Nat) : Nat → Nat → Nat → Nat
  | 0, _, _ => 0
  | n + 1, a, b => (if b % 2 = 1 then a else 0) ^^^ fieldTimes m poly n (fieldDouble m poly a) (b / 2)

/-- Power of an element by repeated squaring; the first argument bounds the bits of the exponent. -/
def fieldPower (m poly bitsOf : Nat) : Nat → Nat → Nat → Nat
  | 0, _, _ => 1
  | n + 1, a, e =>
    fieldTimes m poly bitsOf (if e % 2 = 1 then a else 1)
      (fieldPower m poly bitsOf n (fieldTimes m poly bitsOf a a) (e / 2))

/-! ### The block cipher (FIPS 197) -/

def aesTimes (a b : Nat) : Nat := fieldTimes 256 0x11B 8 a b

/-- The substitution of a byte: the inverse, then the affine map. -/
def aesSub (a : Nat) : Nat :=
  let b := fieldPower 256 0x11B 8 8 a 254
  let rot := fun (k : Nat) => (b * 2 ^ k + b / 2 ^ (8 - k)) % 256
  b ^^^ rot 1 ^^^ rot 2 ^^^ rot 3 ^^^ rot 4 ^^^ 0x63

def aesBox : List Nat := (List.range 256).map aesSub

def aesSubBack (a : Nat) : Nat := (indexOf? (· == a) aesBox).getD 0

def aesBoxBack : List Nat := (List.range 256).map aesSubBack

def subAll (box l : List Nat) : List Nat := l.map fun a => box.getD a 0

def xorAll (a b : List Nat) : List Nat := a.zipWith (· ^^^ ·) b

/-- Words of the key schedule, newest first; the arguments count the words still to make and the round constant. -/
def aesExpand : Nat → Nat → List (List Nat) → List (List Nat)
  | 0, _, ws => ws
  | n + 1, rcon, ws =>
    let i := ws.length
    let t := ws.headD []
    let t := if i % 8 = 0 then xorAll (subAll aesBox (t.drop 1 ++ t.take 1)) [rcon, 0, 0, 0]
      else if i % 8 = 4 then subAll aesBox t else t
    aesExpand n (if i % 8 = 0 then aesTimes 2 rcon else rcon) (xorAll (ws.getD 7 []) t :: ws)

/-- The four bytes of each word of a key of 32 bytes. -/
def keyWords (key : List Nat) : List (List Nat) := (List.range 8).map fun i => (key.drop (4 * i)).take 4

/-- The 15 round keys. -/
def aesKeys (key : List Nat) : List (List Nat) :=
  let ws := (aesExpand 52 1 (keyWords key).reverse).reverse
  (List.range 15).map fun r => ((ws.drop (4 * r)).take 4).flatten

/-- Row r of the state moves r places. -/
def shiftRows (back : Bool) (l : List Nat) : List Nat :=
  (List.range 16).map fun i =>
    let r := i % 4
    let c := i / 4
    l.getD (r + 4 * ((if back then c + 4 - r else c + r) % 4)) 0

/-- The columns times a polynomial, by its coefficients. -/
def mixColumns (m l : List Nat) : List Nat :=
  (List.range 16).map fun i => (List.range 4).foldl (fun a k =>
    a ^^^ aesTimes (l.getD (4 * (i / 4) + k) 0) (m.getD ((k + 4 - i % 4) % 4) 0)) 0

def aesRounds (keys : List (List Nat)) (l : List Nat) : List Nat :=
  match keys with
  | [] => l
  | [k] => xorAll (shiftRows false (subAll aesBox l)) k
  | k :: t => aesRounds t (xorAll (mixColumns [2, 3, 1, 1] (shiftRows false (subAll aesBox l))) k)

/-- One block of 16 bytes under the round keys. -/
def aesBlock (keys : List (List Nat)) (l : List Nat) : List Nat := aesRounds (keys.drop 1) (xorAll l (keys.headD []))

def aesRoundsBack (keys : List (List Nat)) (l : List Nat) : List Nat :=
  match keys with
  | [] => l
  | [k] => xorAll (subAll aesBoxBack (shiftRows true l)) k
  | k :: t => aesRoundsBack t (mixColumns [14, 11, 13, 9] (xorAll (subAll aesBoxBack (shiftRows true l)) k))

/-- The block that the cipher takes to this one. -/
def aesBlockBack (keys : List (List Nat)) (l : List Nat) : List Nat :=
  aesRoundsBack (keys.reverse.drop 1) (xorAll l (keys.reverse.headD []))

/-! ### GCM (SP 800-38D) -/

def natsOf (l : List Byte) : List Nat := l.map (·.toNat)
def bytesOf (l : List Nat) : List Byte := l.map fun n => BitVec.ofNat 8 n

/-- The number whose bytes come highest first. -/
def beNat (l : List Byte) : Nat := leNat l.reverse

/-- Product in the field of GHASH: bits of the first factor from the highest of the n left. -/
def ghashTimes : Nat → Nat → Nat → Nat
  | 0, _, _ => 0
  | n + 1, x, v =>
    (if x.testBit n then v else 0) ^^^ ghashTimes n x (if v % 2 = 1 then (v / 2) ^^^ (0xE1 * 2 ^ 120) else v / 2)

/-- Blocks of 16 bytes, the last filled with zeros; the first argument bounds them. -/
def blocks16 : Nat → List Byte → List (List Byte)
  | 0, _ => []
  | n + 1, l => if l.isEmpty then [] else padTo 16 l :: blocks16 n (l.drop 16)

def ghash (h : Nat) (l : List (List Byte)) : Nat := l.foldl (fun y b => ghashTimes 128 (y ^^^ beNat b) h) 0

/-- The key stream from a counter on, XORed onto a text; the first argument bounds the blocks. -/
def counterMode (keys : List (List Nat)) (iv : List Byte) : Nat → Nat → List Byte → List Byte
  | 0, _, _ => []
  | n + 1, ctr, l =>
    if l.isEmpty then []
    else
      (l.take 16).zipWith (· ^^^ ·) (bytesOf (aesBlock keys (natsOf (iv ++ beBytes 4 ctr))))
        ++ counterMode keys iv n (ctr + 1) (l.drop 16)

/-- Encryption, or decryption, of a text under an IV of 12 bytes. -/
def gcmText (key iv text : List Byte) : List Byte := counterMode (aesKeys (natsOf key)) iv (text.length / 16 + 1) 2 text

/-- The tag of a ciphertext and its associated data. -/
def gcmTag (key iv aad ct : List Byte) : List Byte :=
  let keys := aesKeys (natsOf key)
  let h := beNat (bytesOf (aesBlock keys (List.replicate 16 0)))
  let blocks := blocks16 (aad.length / 16 + 1) aad ++ blocks16 (ct.length / 16 + 1) ct
    ++ [beBytes 8 (8 * aad.length) ++ beBytes 8 (8 * ct.length)]
  let e := aesBlock keys (natsOf (iv ++ beBytes 4 1))
  (beBytes 16 (ghash h blocks)).zipWith (· ^^^ ·) (bytesOf e)

/-! ### The key wrap KW (SP 800-38F) -/

/-- One step on register i of the four, at step t. -/
def wrapStep (keys : List (List Nat)) (p : List Byte × List (List Byte)) (t : Nat) : List Byte × List (List Byte) :=
  let i := (t - 1) % 4
  let b := bytesOf (aesBlock keys (natsOf (p.1 ++ p.2.getD i [])))
  ((b.take 8).zipWith (· ^^^ ·) (beBytes 8 t), p.2.set i (b.drop 8))

def unwrapStep (keys : List (List Nat)) (p : List Byte × List (List Byte)) (t : Nat) : List Byte × List (List Byte) :=
  let i := (t - 1) % 4
  let b := bytesOf (aesBlockBack keys (natsOf ((p.1.zipWith (· ^^^ ·) (beBytes 8 t)) ++ p.2.getD i [])))
  (b.take 8, p.2.set i (b.drop 8))

def wrapStart : List Byte := List.replicate 8 0xA6

/-- A key of 32 bytes wrapped to 40. -/
def kwWrap (kek key : List Byte) : List Byte :=
  let r := (List.range 4).map fun i => (key.drop (8 * i)).take 8
  let p := ((List.range 24).map (· + 1)).foldl (wrapStep (aesKeys (natsOf kek))) (wrapStart, r)
  p.1 ++ p.2.flatten

/-- The key that 40 bytes wrap; none when the check value is wrong. -/
def kwUnwrap (kek wrapped : List Byte) : Option (List Byte) :=
  let r := (List.range 4).map fun i => (wrapped.drop (8 + 8 * i)).take 8
  let p := ((List.range 24).map (24 - ·)).foldl (unwrapStep (aesKeys (natsOf kek))) (wrapped.take 8, r)
  if p.1 = wrapStart then some p.2.flatten else none

end Sys2Proof.Machine
end

