-- ==== Sys2Proof/Machine/Flags.lean ====
section
/-! DEFINITION. Numbers of the event sources (18 Table 18-3), the completion statuses (03 Table 3-13), the units
(17 Table 17-5) and the opcodes (03 Table 3-2 and the tables of the expert ranges). -/

namespace Sys2Proof.Machine

abbrev evSysReplayPosted : Nat := 0
abbrev evSysReplayDone : Nat := 1
abbrev evSysCoreFault : Nat := 2
abbrev evSysCoreLasting : Nat := 3
abbrev evSysTruncPending : Nat := 4
abbrev evUnitStateConflict : Nat := 5
abbrev evTickShort : Nat := 6
abbrev evDatapathOverrun : Nat := 7
abbrev evHifAccessError : Nat := 64
abbrev evHifHdmPoison : Nat := 65
abbrev evHifIdeFail : Nat := 66
abbrev evHifLinkChange : Nat := 67
abbrev evIntakeMalformed : Nat := 96
abbrev evIntakeTruncated : Nat := 97
abbrev evIntakeOversize : Nat := 98
abbrev evCmdDoorbellErr : Nat := 99
abbrev evCmdRingCfgErr : Nat := 100
abbrev evCmdNoCq : Nat := 101
abbrev evJournalFull : Nat := 102
abbrev evCmdCompatRefused : Nat := 103
abbrev evEvqOrderedFull : Nat := 104
abbrev evCtxCacheWait : Nat := 256
abbrev evPkrSelfcheckFail : Nat := 288
abbrev evPkrDecodeErr : Nat := 289
abbrev evPkrLaneDegraded : Nat := 290
abbrev evPkrDictDropped : Nat := 291
abbrev evCphUntrustedRange : Nat := 320
abbrev evCphSelfcheckFail : Nat := 321
abbrev evCphLaneDegraded : Nat := 322
abbrev evCphKeyExhausted : Nat := 323
abbrev evCphKeyMismatch : Nat := 324
abbrev evCphCeilingErr : Nat := 325
abbrev evCphInstanceRefused : Nat := 326
abbrev evFmtCmStale : Nat := 352
abbrev evFmtCmError : Nat := 353
abbrev evFmtEarlyWarning : Nat := 354
abbrev evFmtPartitionFull : Nat := 355
abbrev evFmtNotWritable : Nat := 356
abbrev evFmtMediaUnknown : Nat := 357
abbrev evTecSubsetFail : Nat := 384
abbrev evTecC3Invoked : Nat := 385
abbrev evTecC3Unrecovered : Nat := 386
abbrev evTecC1Miscorrect : Nat := 387
abbrev evTecRatioLow : Nat := 388
abbrev evTecReadRetry : Nat := 389
abbrev evTecReadPass : Nat := 390
abbrev evTecReadMediaErr : Nat := 391
abbrev evTecReadChDegraded : Nat := 392
abbrev evDurable : Nat := 416
abbrev evDatasetWritten : Nat := 417
abbrev evDatasetVerified : Nat := 418
abbrev evDatasetRetracted : Nat := 419
abbrev evVfyTrackSuspect : Nat := 420
abbrev evVfyTrackExcluded : Nat := 421
abbrev evVfyWriteFailed : Nat := 422
abbrev evVfyWriteDisabled : Nat := 423
abbrev evVfyCfgErr : Nat := 424
abbrev evVfyWholeRewrite : Nat := 425
abbrev evHlkLaneRetrain : Nat := 448
abbrev evHlkLaneRetired : Nat := 449
abbrev evHlkStepCap : Nat := 450
abbrev evHlkLinkFailed : Nat := 451
abbrev evHlkWiring : Nat := 452
abbrev evHlkH64Mismatch : Nat := 453
abbrev evHlkWdrvFault : Nat := 454
abbrev evHlkWriteUnderrun : Nat := 455
abbrev evHlkCtrlRefused : Nat := 456
abbrev evHlkCfgErr : Nat := 457
abbrev evDrvOverrun : Nat := 512
abbrev evDrvSafeStop : Nat := 513
abbrev evDrvFollowErr : Nat := 514
abbrev evDrvSat : Nat := 515
abbrev evDrvInputMissing : Nat := 516
abbrev evDrvTransferBump : Nat := 517
abbrev evDrvProfileDone : Nat := 518
abbrev evDrvCfgErr : Nat := 519
abbrev evDrvCoefRefused : Nat := 520
abbrev evDrvSensorFail : Nat := 521
abbrev evDrvSensorLasting : Nat := 522
abbrev evDrvWriteInhibit : Nat := 523
abbrev evDrvServoLost : Nat := 524
abbrev evDrvSafeStopDone : Nat := 525
abbrev evDrvMonCfgErr : Nat := 526
abbrev evSpmRunStop : Nat := 544
abbrev evSpmCfgErr : Nat := 545
abbrev evPrtRefused : Nat := 576
abbrev evPrtPoolLow : Nat := 577
abbrev evPrtNoBuffer : Nat := 578
abbrev evMemCe : Nat := 608
abbrev evMemUe : Nat := 609
abbrev evEccPoisonMerge : Nat := 610
abbrev evMemMirrorLost : Nat := 611
abbrev evMemPcRetrain : Nat := 612
abbrev evMemPcRetired : Nat := 613
abbrev evMemDegraded : Nat := 614
abbrev evMemFlipDone : Nat := 615
abbrev evThmThrottle : Nat := 672
abbrev evThmSensorFail : Nat := 673
abbrev evThmSensorLasting : Nat := 674
abbrev evThmCrit : Nat := 675
abbrev evThmTripRestart : Nat := 676
abbrev evThmCfgErr : Nat := 677
abbrev evPwrStateChange : Nat := 678
abbrev evPwrSupplyLoss : Nat := 679
abbrev evPwrCartChange : Nat := 680
abbrev evPwrTapeSlack : Nat := 681
abbrev evWhUnavailable : Nat := 768
abbrev evWhAvailable : Nat := 769
abbrev evWhFormBlocked : Nat := 770
abbrev evWhLedgerUnread : Nat := 771
abbrev evWhMbRefused : Nat := 772
abbrev evWhQueueWriteBlocked : Nat := 773
abbrev evMgtEidAssigned : Nat := 800
abbrev evMgtMsgDropped : Nat := 801
abbrev evMgtPacketJournaled : Nat := 802

/-- Source of SYS_UNIT_CHANGE of a unit. -/
def evUnitChange (u : Nat) : Nat := 32 + u
/-- Source of CMD_CQ_WAIT of a completion ring. -/
def evCqWait (n : Nat) : Nat := 128 + n
/-- Source of CMD_SQ_REJECT of a submission ring. -/
def evSqReject (n : Nat) : Nat := 192 + n
/-- Source of HLK_LANE_ERR of a lane. -/
def evLaneErr (n : Nat) : Nat := 480 + n
/-- Source of MEM_PC_CE of a pseudo-channel. -/
def evPcCe (n : Nat) : Nat := 640 + n
/-- Source of THM_LEVEL of a sensor. -/
def evThmLevel (n : Nat) : Nat := 704 + n

/-- The ORDERED sources (03 R85, 18 Table 18-3). -/
def isOrdered (src : Nat) : Bool :=
  src == evCphUntrustedRange || (evDurable ≤ src && src ≤ evDatasetRetracted)

abbrev stOk : Nat := 0x00
abbrev stOkRetried : Nat := 0x01
abbrev stOverflowChained : Nat := 0x02
abbrev stInvalidOpcode : Nat := 0x10
abbrev stInvalidField : Nat := 0x11
abbrev stContextNotOpen : Nat := 0x12
abbrev stMediaError : Nat := 0x20
abbrev stUntrusted : Nat := 0x21
abbrev stEndOfData : Nat := 0x22
abbrev stFilemarkReached : Nat := 0x23
abbrev stNoBuffer : Nat := 0x30
abbrev stAbortedByHost : Nat := 0x31
abbrev stAbortedByReset : Nat := 0x32
abbrev stThermalLimit : Nat := 0x40
abbrev stKeyLimitReached : Nat := 0x41
abbrev stUnitDegraded : Nat := 0x50
abbrev stInternalFault : Nat := 0x7F

abbrev unHost : Nat := 0
abbrev unJournal : Nat := 1
abbrev unCore0 : Nat := 2
abbrev unPack : Nat := 6
abbrev unUnpack : Nat := 7
abbrev unCipher : Nat := 8
abbrev unWriteCh : Nat := 9
abbrev unReadCh : Nat := 10
abbrev unReadPath : Nat := 11
abbrev unHeadLink : Nat := 12
abbrev unDrover : Nat := 13
abbrev unEncA : Nat := 14
abbrev unEncB : Nat := 15
abbrev unTension : Nat := 16
abbrev unServo : Nat := 17
abbrev unTransport : Nat := 18
abbrev unHbm : Nat := 19
abbrev unThermal : Nat := 20
abbrev unWeighhouse : Nat := 21

abbrev opNop : Nat := 0x01
abbrev opIdentify : Nat := 0x02
abbrev opGetStatus : Nat := 0x03
abbrev opSetWake : Nat := 0x08
abbrev opLoad : Nat := 0x10
abbrev opUnload : Nat := 0x11
abbrev opRewind : Nat := 0x12
abbrev opLocate : Nat := 0x13
abbrev opSpace : Nat := 0x14
abbrev opFormat : Nat := 0x15
abbrev opOpenContext : Nat := 0x20
abbrev opCloseContext : Nat := 0x21
abbrev opSetKey : Nat := 0x22
abbrev opSetProfile : Nat := 0x23
abbrev opWriteRecords : Nat := 0x30
abbrev opWriteFilemarks : Nat := 0x31
abbrev opSync : Nat := 0x32
abbrev opReadRecords : Nat := 0x38
abbrev opVerifyRange : Nat := 0x39
abbrev opReadOverflow : Nat := 0x3A
abbrev opGetLog : Nat := 0x40
abbrev opClearLog : Nat := 0x41
abbrev opLedgerRead : Nat := 0x48
abbrev opMeterStatement : Nat := 0x49
abbrev opDiag : Nat := 0x7F

end Sys2Proof.Machine
end

