-- ==== Sys2Proof/Machine/LinkBlocks.lean ====
section
/-! DEFINITION. The blocks of the head link: the scrambler (11 R283), control blocks (Table 11-1), frames in blocks and their checks
(R284, R286), items of a payload (R287). -/

namespace Sys2Proof.Machine

/-! ### The scrambler x^58 + x^39 + 1 (R283) -/

/-- Bit k places before bit i of the stream whose word is y and whose word before it was prev. -/
def streamBit (prev y : Word) (i k : Nat) : Bool := if k ≤ i then y.getLsbD (i - k) else prev.getLsbD (64 + i - k)

/-- A payload scrambled behind the scrambled payload before it, bit 0 first. -/
def scramble (prev x : Word) : Word :=
  (List.range 64).foldl (fun y i =>
    if xor (x.getLsbD i) (xor (streamBit prev y i 39) (streamBit prev y i 58)) then y ||| wd (2 ^ i) else y) 0

/-- The payload that a scrambled one holds. -/
def descramble (prev y : Word) : Word :=
  let w : BitVec 128 := y ++ prev
  y ^^^ w.extractLsb' 25 64 ^^^ w.extractLsb' 6 64

/-- Payloads with their sync headers, scrambled one behind the other; the last scrambled payload. -/
def scrambleAll : Word → List (BitVec 2 × Word) → List LinkBlock × Word
  | prev, [] => ([], prev)
  | prev, (h, x) :: t =>
    let y := scramble prev x
    let rest := scrambleAll y t
    ({ sync := h, payload := y } :: rest.1, rest.2)

/-! ### Control blocks (Table 11-1) -/

/-- What a block is at a receiver. -/
inductive LinkItem where
  | data (w : Word)
  | idle
  | align
  | fstart (w : Word)
  | fend (crc fseq : Nat)
  | inhibit
  /-- A block error (R284). -/
  | bad
  deriving DecidableEq, Repr

/-- DBLK of an FTYPE (Table 11-3); those of head control depend on the frame (Table 11-4). -/
def dblkOf : Nat → Option Nat
  | 1 => some 30
  | 2 => some 30
  | 3 => some 4
  | 4 => some 1
  | 5 => some 1
  | 8 => some 30
  | 9 => some 1
  | 10 => some 2
  | 11 => some 2
  | 12 => some 1
  | 13 => some 1
  | 14 => some 1
  | _ => none

/-- A control payload: TYPE in [7:0], and content as Table 11-1 gives it. `inbound`: the receiver is the device. -/
def controlItem (inbound : Bool) (w : Word) : LinkItem :=
  match bits w 0 8 with
  | 0x1E => if w.toNat / 256 = 0 then .idle else .bad
  | 0x2D => if bits w 12 4 = (if inbound then 1 else 2) ∧ bits w 48 16 = 0 then .align else .bad
  | 0x33 => if (dblkOf (bits w 8 4)).isSome ∧ 1 ≤ bits w 19 5 ∧ bits w 19 5 ≤ 30 then .fstart w else .bad
  | 0x4B => if bits w 56 8 = 0 then .fend (bits w 8 32) (bits w 40 16) else .bad
  | 0x55 => if w.toNat / 256 = 0 ∧ inbound = false then .inhibit else .bad
  | _ => .bad

/-- A block by its sync header (R283). -/
def blockItem (inbound : Bool) (sync : BitVec 2) (w : Word) : LinkItem :=
  if sync = 1 then .data w else if sync = 2 then controlItem inbound w else .bad

/-- The blocks of a lane, each descrambled behind the one before it. -/
def readBlocks (inbound : Bool) : Word → List LinkBlock → List LinkItem
  | _, [] => []
  | prev, b :: t => blockItem inbound b.sync (descramble prev b.payload) :: readBlocks inbound b.payload t

/-! ### Frames (R286) -/

/-- A frame that has been accepted: FTYPE, SOURCE, INDEX and FSEQ of its header (Table 11-2), its data blocks. -/
structure HeadFrame where
  ftype  : Nat
  source : Nat
  index  : Nat
  fseq   : Nat
  data   : List Word
  deriving DecidableEq, Repr

/-- The FSTART payload of a frame. -/
def startWord (ftype source dblk fseq index : Nat) : Word :=
  wd (0x33 + ftype % 16 * 2 ^ 8 + source % 128 * 2 ^ 12 + dblk % 32 * 2 ^ 19 + fseq % 65536 * 2 ^ 24 + index % 2 ^ 24 * 2 ^ 40)

/-- CRC-32C of a frame: the FSTART payload, then the data blocks, little-endian. -/
def frameCrc (start : Word) (data : List Word) : Nat := crc32c ((start :: data).flatMap fun w => leBytes 8 w.toNat)

/-- A frame's blocks before scrambling. -/
def frameBlocks (ftype source fseq index : Nat) (data : List Word) : List (BitVec 2 × Word) :=
  let start := startWord ftype source data.length fseq index
  let fend := wd (0x4B + frameCrc start data * 2 ^ 8 + fseq % 65536 * 2 ^ 40)
  (2, start) :: data.map (fun w => (1, w)) ++ [(2, fend)]

/-- Data blocks between FSTART and FEND; none where a control block other than INHIBIT stands among them. -/
def dataBetween : List LinkItem → Option (List Word)
  | [] => some []
  | .data w :: t => (dataBetween t).map (w :: ·)
  | .inhibit :: t => dataBetween t
  | _ :: _ => none

/-- The blocks begin with an FSTART: a frame is under way. -/
def beginsFrame : List LinkItem → Bool
  | .fstart _ :: _ => true
  | _ => false

/-- The frame that blocks hold from its FSTART to its FEND, where R286 accepts it. -/
def acceptedFrame (l : List LinkItem) : Option HeadFrame :=
  match l.head?, l.getLast? with
  | some (.fstart w), some (.fend crc q) =>
    match dataBetween (l.drop 1).dropLast with
    | none => none
    | some data =>
      let ftype := bits w 8 4
      if data.length = bits w 19 5 ∧ dblkOf ftype = some data.length ∧ crc = frameCrc w data ∧ q = bits w 24 16 then
        some { ftype := ftype, source := bits w 12 7, index := bits w 40 24, fseq := q, data := data }
      else none
  | _, _ => none

/-- What the blocks of a row are at the device. -/
def rowItems (f : LinkFrame) : List LinkItem := readBlocks true f.before f.blocks

/-- Block errors among them (R284). -/
def blockErrors (l : List LinkItem) : Nat := (l.filter (· == .bad)).length

/-! ### Items (R287) -/

/-- The payload as one number: bit b is bit b mod 64 of block b / 64. -/
def payloadNat (data : List Word) : Nat := data.foldr (fun w v => w.toNat + 2 ^ 64 * v) 0

/-- A two's-complement value of w bits. -/
def signedItem (w v : Nat) : Int := if v < 2 ^ (w - 1) then v else (v : Int) - 2 ^ w

/-- The n items of w bits that a payload holds. -/
def itemsOf (w n : Nat) (data : List Word) : List Int :=
  let p := payloadNat data
  (List.range n).map fun i => signedItem w (bitsN p (w * i) w)

/-- Data blocks whose payload bits are given, bit 0 first. -/
def wordsOf (n : Nat) (l : List Bool) : List Word :=
  (List.range n).map fun k => wd (((l.drop (64 * k)).take 64).foldr (fun b v => boolNat b + 2 * v) 0)

end Sys2Proof.Machine
end

