-- ==== Sys2Proof/Machine/Ops.lean ====
section
/-! DEFINITION. The operations that the meanings share: sparse tables, what is sent out, events (18 R454, 03 R85),
MSI-X (02 R55), completion entries (03 R80-R82), the journal and the end of a command (03 R76), unit states
(17 R438, R444). -/

namespace Sys2Proof.Machine

/-- What a meaning answers. -/
abbrev Out := Host.Outcome State Fault Refusal

/-! ### Sparse tables -/

/-- The value of a key; unlisted keys hold the default. -/
def tabGet {α : Type} (d : α) : Table α → Nat → α
  | [], _ => d
  | (k, v) :: t, a => if a = k then v else tabGet d t a

/-- The table with a key given a value, at its place in the order of keys. -/
def tabPut {α : Type} (a : Nat) (x : α) : Table α → Table α
  | [] => [(a, x)]
  | (k, v) :: t => if a < k then (a, x) :: (k, v) :: t else if a = k then (a, x) :: t else (k, v) :: tabPut a x t

/-- The table with a key given a value, in canonical form: a key of the default value is not listed. -/
def tabSet {α : Type} [DecidableEq α] (d : α) (a : Nat) (x : α) (t : Table α) : Table α :=
  if x = d then t.filter fun p => p.1 != a else tabPut a x t

/-- Keys strictly rising from a bound, no value equal to the default. -/
def tabWfFrom {α : Type} [DecidableEq α] (d : α) : Nat → Table α → Bool
  | _, [] => true
  | lo, (k, v) :: t => decide (lo ≤ k) && decide (v ≠ d) && tabWfFrom d (k + 1) t

/-- The canonical form of a table. -/
def tabWf {α : Type} [DecidableEq α] (d : α) (t : Table α) : Bool := tabWfFrom d 0 t

/-- A table with one key's value changed. -/
def tabUpd {α : Type} [DecidableEq α] (d : α) (a : Nat) (f : α → α) (t : Table α) : Table α :=
  tabSet d a (f (tabGet d t a)) t

/-- A rising list of numbers with one inserted. -/
def insertNat (a : Nat) : List Nat → List Nat
  | [] => [a]
  | b :: t => if a < b then a :: b :: t else if a = b then b :: t else b :: insertNat a t

/-- Numbers strictly rising from a bound. -/
def risingFrom : Nat → List Nat → Bool
  | _, [] => true
  | lo, a :: t => decide (lo ≤ a) && risingFrom (a + 1) t

/-! ### Outputs, time, free values -/

/-- The device sends something out. -/
def emit (o : Output) (s : State) : State := { s with out := s.out ++ [o] }

/-- Device time has come to t (15 R399): it never goes back. -/
def atTime (t : Nat) (s : State) : State := { s with aon := { s.aon with time := max s.aon.time t } }

/-- The next free value has been drawn (log entry 4). -/
def drawFree (s : State) : State := { s with freeCount := s.freeCount + 1 }

/-! ### MSI-X (02 R55) -/

/-- A trigger of a vector: sent, or its pending bit recorded while it is masked or the CXL.io stream is Insecure (02 R53).
With EN = 0 nothing is recorded (18 R456). -/
def msixTrigger (v : Nat) (en : Bool) (s : State) : State :=
  if !en then s
  else if s.hif.funcMask || !tabGet false s.hif.unmasked v || decide (s.hif.ideIo.state = .insecure) then
    { s with hif := { s.hif with pba := tabSet false v true s.hif.pba } }
  else emit (.msix v) s

/-! ### Rings -/

/-- Entries that a ring has room for: 2^SIZE_LOG2. -/
def ringSize (c : RingCfg) : Nat := 2 ^ c.sizeLog2

/-- Entries from one index up to another around a ring. -/
def ringSpan (size a b : Nat) : Nat := (b + size - a % size) % size

/-- A ring has a free slot: it holds at most size - 1 entries, so that head and tail tell full from empty
(03 R65, R82, R83; log entry 16). -/
def ringRoom (c : RingCfg) (head tail : Nat) : Bool := c.en && ringSpan (ringSize c) head tail + 1 < ringSize c

/-- The IDE stream that carries the device's own host accesses is not Insecure (02 R46, R53): CXL.cachemem in CXL mode with
ATS Enable, CXL.io otherwise. -/
def pathOpen (s : State) : Bool :=
  decide ((if s.hif.mode = 1 ∧ s.hif.atsEn then s.hif.ideCm.state else s.hif.ideIo.state) ≠ .insecure)

/-- A host access over the CXL.io stream: an Insecure stream carries none (02 R53). -/
def onMmio (s t : State) : State := if s.hif.ideIo.state = .insecure then s else t

/-- The device may fetch from host memory: Bus Master Enable is set (02 R57) and the path is open. -/
def hostReachable (s : State) : Bool := s.hif.busMaster && pathOpen s

/-- A host range lies in the 64-bit address space and its pages translate (02 R46). -/
def hostRangeOk (addr len : Nat) : Bool := addr + len ≤ 2 ^ 64

/-- The ranges overlap. -/
def overlaps (a n b m : Nat) : Bool := decide (a < b + m) && decide (b < a + n)

/-- An accepted command's host range still translates, with the permission it needs (02 R46). -/
def translates (addr len : Nat) (s : State) : Bool :=
  hostRangeOk addr len && !(s.hif.atsEn && s.hif.atcBad.any fun p => overlaps addr len p.1 p.2)

/-- Pages of 4 KiB that a range touches, at most 2,048 of them. -/
def pagesOf (addr len : Nat) : List (Nat × Nat) :=
  (List.range (min 2048 ((addr % 4096 + len + 4095) / 4096))).map fun k => ((addr / 4096 + k) * 4096, 4096)

/-- The Address Translation Cache after an access: the pages come to its front, and it holds at most 2,048 (02 R35, R46). -/
def atcTouch (addr len : Nat) (h : Hif) : Hif :=
  if h.mode = 1 ∧ h.atsEn then
    { h with atc := ((pagesOf addr len) ++ h.atc.filter fun p => !overlaps addr len p.1 p.2).take 2048 }
  else h

/-- The device reads host memory (02 R46). -/
def hostFetch (addr len : Nat) (s : State) : State :=
  { s with hif := atcTouch addr len s.hif, out := s.out ++ [.hostRead addr len] }

/-- The device writes host memory (02 R46). -/
def hostStore (addr : Nat) (l : List Byte) (s : State) : State :=
  { s with hif := atcTouch addr l.length s.hif, out := s.out ++ [.hostWrite addr l] }

/-! ### Requests on the host link (02 R45) -/

/-- Device-to-host requests: the three of CXL.cache, and CXL.io memory reads and writes. -/
inductive HostRequest where
  | rdCurr (line : Nat)
  | itoMWr (line : Nat) (data : List Byte)
  /-- Part of a line with byte enables: a byte written, or none. -/
  | woWrInv (line : Nat) (data : List (Option Byte))
  | ioRead (addr len : Nat)
  | ioWrite (addr : Nat) (data : List Byte)
  deriving DecidableEq, Repr

/-- 64-byte lines that a range touches. -/
def linesOf (addr len : Nat) : List Nat :=
  if len = 0 then [] else (List.range ((addr % 64 + len + 63) / 64)).map fun k => addr / 64 + k

/-- A write of one line: whole, or part of it with byte enables. -/
def lineWrite (addr : Nat) (l : List Byte) (line : Nat) : HostRequest :=
  let data := (List.range 64).map fun i => if line * 64 + i < addr then none else l[line * 64 + i - addr]?
  if data.all Option.isSome then .itoMWr line (data.filterMap id) else .woWrInv line data

/-- What an access becomes on the link: CXL.cache requests by line in CXL mode with ATS Enable, CXL.io reads and writes
otherwise (R45, R46). -/
def hostRequests (h : Hif) (o : Output) : List HostRequest :=
  let cached := decide (h.mode = 1) && h.atsEn
  match o with
  | .hostRead a n => if cached then (linesOf a n).map .rdCurr else [.ioRead a n]
  | .hostWrite a l => if cached then (linesOf a l.length).map (lineWrite a l) else [.ioWrite a l]
  | _ => []

/-- Requests in the groups in which they are in flight: at most 768 reads or 256 writes at once (R45). -/
def inFlight (write : Bool) : Nat → List HostRequest → List (List HostRequest)
  | 0, _ => []
  | _ + 1, [] => []
  | n + 1, x :: t =>
    let k := if write then 256 else 768
    (x :: t).take k :: inFlight write n ((x :: t).drop k)

/-! ### Event ring (03 R84, R85; 18 R454) -/

/-- An event ring entry (03 Table 3-12). -/
def eventBytes (e : EventEntry) (phase : Bool) : List Byte :=
  wordBytes [wd (e.source + e.count * 2 ^ 11 + boolNat phase * 2 ^ 63), e.tick, e.param0, e.param1]

/-- The slot at a ring's tail lies in the host's address space (02 R46). -/
def slotReach (c : RingCfg) (tail : Nat) : Bool := hostRangeOk (c.base.toNat + 32 * tail) 32

def evtRoom (s : State) : Bool :=
  pathOpen s && slotReach s.cmd.evt.cfg s.cmd.evt.tail && ringRoom s.cmd.evt.cfg s.cmd.evt.head s.cmd.evt.tail

/-- The event ring's tail moves on, its PHASE turning at the wrap (03 R81). -/
def evtAdvance (r : EvtRing) : EvtRing :=
  let t := (r.tail + 1) % ringSize r.cfg
  { r with tail := t, phase := if t = 0 then !r.phase else r.phase }

/-- One entry written to the event ring, and the ring's vector triggered (02 R55). -/
def evtWrite (e : EventEntry) (s : State) : State :=
  let r := s.cmd.evt
  let s := hostStore (r.cfg.base.toNat + 32 * r.tail) (eventBytes e r.phase) s
  msixTrigger r.vector r.vecEn { s with cmd := { s.cmd with evt := evtAdvance r } }

/-- ORDERED entries waiting in the queue of R85. -/
def orderedWaiting (s : State) : Nat := (s.cmd.evt.waiting.filter fun e => isOrdered e.source).length

/-- The queue of R85 is full. -/
def orderedFull (s : State) : Bool := 8192 ≤ orderedWaiting s

/-- A further ORDERED occurrence would be held back at its source (03 R474). -/
def heldBack (s : State) : Bool := orderedFull s || !s.cmd.evt.held.isEmpty

def setWaiting (w : List EventEntry) (s : State) : State :=
  { s with cmd := { s.cmd with evt := { s.cmd.evt with waiting := w } } }

/-- An occurrence of a STATUS source that waits raises the COUNT of its pending entry, or begins to wait. -/
def statusWait (e : EventEntry) : List EventEntry → List EventEntry
  | [] => [e]
  | x :: t => if x.source = e.source then { x with count := satAdd 65535 x.count 1 } :: t else x :: statusWait e t

def mkEvent (src p0 p1 : Nat) (s : State) : EventEntry :=
  { source := src, count := 1, tick := s.sys.tickCount, param0 := wd p0, param1 := wd p1 }

def setGroup (g : Nat) (f : EventGroup → EventGroup) (s : State) : State :=
  { s with cmd := { s.cmd with groups := s.cmd.groups.modify g f } }

def groupOf (src : Nat) (s : State) : EventGroup := s.cmd.groups.getD (src / 32) (.reset 0)

/-- R454 step 1. -/
def setStatusBit (src : Nat) (s : State) : State :=
  setGroup (src / 32) (fun g => { g with status := g.status ||| BitVec.ofNat 32 (2 ^ (src % 32)) }) s

/-- R454 step 3: the group's vector, when the bit was 0 before. -/
def groupVector (src : Nat) (was : Bool) (s : State) : State :=
  if was then s else msixTrigger (groupOf src s).vector (groupOf src s).vecEn s

/-- An occurrence of a STATUS source (18 R454, 03 R85). -/
def raiseStatus (src p0 p1 : Nat) (s : State) : State :=
  let was := (groupOf src s).status.getLsbD (src % 32)
  let masked := (groupOf src s).mask.getLsbD (src % 32)
  let s := setStatusBit src s
  if masked then s
  else
    let e := mkEvent src p0 p1 s
    let s := if s.cmd.evt.waiting.isEmpty && evtRoom s then evtWrite e s
      else setWaiting (statusWait e s.cmd.evt.waiting) s
    groupVector src was s

/-- An ORDERED entry begins to wait in the queue, which may become full (03 R85, R474). -/
def orderedWait (e : EventEntry) (s : State) : State :=
  let s := setWaiting (s.cmd.evt.waiting ++ [e]) s
  let n := orderedWaiting s
  let s := { s with cmd := { s.cmd with evt := { s.cmd.evt with highWater := max s.cmd.evt.highWater n } } }
  if n = 8192 then raiseStatus evEvqOrderedFull 8192 0 s else s

/-- An occurrence of an ORDERED source: never masked, merged or dropped; held at its source while the queue is full. -/
def raiseOrdered (src p0 p1 : Nat) (s : State) : State :=
  let was := (groupOf src s).status.getLsbD (src % 32)
  let s := setStatusBit src s
  let e := mkEvent src p0 p1 s
  let s :=
    if s.cmd.evt.waiting.isEmpty && s.cmd.evt.held.isEmpty && evtRoom s then evtWrite e s
    else if heldBack s then
      { s with cmd := { s.cmd with evt := { s.cmd.evt with held := s.cmd.evt.held ++ [e] } } }
    else orderedWait e s
  groupVector src was s

/-- An event source occurs. -/
def raise (src p0 p1 : Nat) (s : State) : State :=
  if isOrdered src then raiseOrdered src p0 p1 s else raiseStatus src p0 p1 s

/-- An event whose chapter gives PARAM0 alone: PARAM1 is open (18 Table 18-4), a free value. -/
def raiseP (src p0 : Nat) (s : State) : State := raise src p0 (Config.freeNat s.freeCount) (drawFree s)

/-- An event whose chapter gives no parameter: both are free values. -/
def raiseN (src : Nat) (s : State) : State := raiseP src (Config.freeNat s.freeCount) (drawFree s)

/-! ### Completion entries (03 R80-R82) -/

def getCq (n : Nat) (s : State) : CplRing := s.cmd.cplRings.getD n (.reset n)

def setCq (n : Nat) (f : CplRing → CplRing) (s : State) : State :=
  { s with cmd := { s.cmd with cplRings := s.cmd.cplRings.modify n f } }

def sqHead (src : Nat) (s : State) : Nat := (s.cmd.subRings.getD src .reset).head

/-- Words of a completion entry (03 Table 3-11). -/
def cplWords (c : Completion) (head : Nat) (phase : Bool) : List Word :=
  [wd (c.cid + c.source * 2 ^ 16 + head % 4096 * 2 ^ 24 + c.kind * 2 ^ 36 + boolNat c.untrusted * 2 ^ 38
      + c.status * 2 ^ 40 + boolNat phase * 2 ^ 63),
    wd c.jsn, c.result0, c.result1]

/-- KIND FINAL or ACCEPTED_FINAL. -/
def isFinalKind (k : Nat) : Bool := k == 2 || k == 3

def cplAdvance (c : Completion) (r : CplRing) : CplRing :=
  let t := (r.tail + 1) % ringSize r.cfg
  { r with tail := t, phase := if t = 0 then !r.phase else r.phase, live := r.live ++ [(c.jsn, isFinalKind c.kind)] }

/-- One entry written to a completion ring, and its vector triggered. -/
def cplWrite (n : Nat) (c : Completion) (s : State) : State :=
  let r := getCq n s
  let head := if c.source < 64 then sqHead c.source s else 0
  let s := hostStore (r.cfg.base.toNat + 32 * r.tail) (wordBytes (cplWords c head r.phase)) s
  msixTrigger r.vector r.vecEn (setCq n (cplAdvance c) s)

def cqRoom (n : Nat) (s : State) : Bool :=
  pathOpen s && slotReach (getCq n s).cfg (getCq n s).tail && ringRoom (getCq n s).cfg (getCq n s).head (getCq n s).tail

/-- An entry for a completion ring is written, or waits behind the ring's others (03 R82). CMD_CQ_WAIT is raised when
an entry first waits for a full ring. -/
def cplPost (n : Nat) (c : Completion) (s : State) : State :=
  if (getCq n s).waiting.isEmpty && cqRoom n s then cplWrite n c s
  else
    let r := getCq n s
    let first := r.waiting.isEmpty && r.cfg.en && !ringRoom r.cfg r.head r.tail
    let s := setCq n (fun r => { r with waiting := r.waiting ++ [c] }) s
    if first then raise (evCqWait n) n 1 s else s

/-- Waiting entries of a ring are written while it has room; the first argument bounds how many. -/
def cplPump (n : Nat) : Nat → State → State
  | 0, s => s
  | k + 1, s =>
    match (getCq n s).waiting with
    | [] => s
    | c :: t => if cqRoom n s then cplPump n k (cplWrite n c (setCq n (fun r => { r with waiting := t }) s)) else s

/-- A completion of a management packet returns over the management port (03 R72, 17 R446). -/
def mgtReturn (c : Completion) (s : State) : State :=
  emit (.mgtCompletion (cplWords c 0 false)) { s with mgt := { s.mgt with txMsgs := sat64 s.mgt.txMsgs 1 } }

/-- The sources behind whose events a command's final completion waits: DURABLE (R27) and CPH_UNTRUSTED_RANGE (R474). -/
def holdsFinal (src : Nat) : Bool := src == evDurable || src == evCphUntrustedRange

/-- A DURABLE or a CPH_UNTRUSTED_RANGE of a JSN has not yet reached the event ring. -/
def durableWaits (jsn : Nat) (s : State) : Bool :=
  (s.cmd.evt.waiting ++ s.cmd.evt.held).any fun e => holdsFinal e.source && e.param0 == wd jsn

/-- An entry goes to where the packet's completions go; a final one waits behind its events (01 R27, 03 R85, R474). -/
def postTo (ring : Nat) (c : Completion) (s : State) : State :=
  if c.source = 65 then mgtReturn c s
  else if isFinalKind c.kind && durableWaits c.jsn s then
    { s with cmd := { s.cmd with lateFinals := s.cmd.lateFinals ++ [(ring, c)] } }
  else cplPost ring c s

/-- Final completions behind an event that has just been written. -/
def releaseLate (jsn : Nat) (s : State) : State :=
  let now := s.cmd.lateFinals.filter fun p => p.2.jsn == jsn
  let rest := s.cmd.lateFinals.filter fun p => p.2.jsn != jsn
  if durableWaits jsn s then s
  else now.foldl (fun s p => cplPost p.1 p.2 s) { s with cmd := { s.cmd with lateFinals := rest } }

/-- A held ORDERED occurrence enters the queue as room comes (03 R474). -/
def evtRefill (s : State) : State :=
  match s.cmd.evt.held with
  | [] => s
  | e :: t =>
    if orderedFull s then s
    else orderedWait e { s with cmd := { s.cmd with evt := { s.cmd.evt with held := t } } }

/-- Waiting entries are written to the event ring in the order in which they began to wait (03 R85), while it has
room; the first argument bounds how many. -/
def evtDrain : Nat → State → State
  | 0, s => s
  | k + 1, s =>
    match s.cmd.evt.waiting with
    | [] => s
    | e :: t =>
      if evtRoom s then
        let s := evtRefill (evtWrite e (setWaiting t s))
        evtDrain k (if holdsFinal e.source then releaseLate e.param0.toNat s else s)
      else s

/-- Everything that waits for the event ring and now finds room. -/
def evtPump (s : State) : State :=
  evtDrain (s.cmd.evt.waiting.length + s.cmd.evt.held.length + s.cmd.lateFinals.length + 1) s

/-! ### Packets and the journal (03 R58, R74-R76) -/

def pktWord (e : JournalEntry) (i : Nat) : Word := e.words.getD i 0
def pktOp (w : Word) : Nat := bits w 0 8
def pktLen (w : Word) : Nat := bits w 8 5
def pktPrio (w : Word) : Nat := bits w 13 2
def pktExpert (w : Word) : Bool := bitAt w 15
def pktCid (w : Word) : Nat := bits w 16 16
def pktCq (w : Word) : Nat := bits w 32 6

def entryOp (e : JournalEntry) : Nat := pktOp (pktWord e 0)
def entryExpert (e : JournalEntry) : Bool := pktExpert (pktWord e 0)
def entryCq (e : JournalEntry) : Nat := pktCq (pktWord e 0)

/-- A write command: WRITE_RECORDS or WRITE_FILEMARKS. -/
def isWriteOp (o : Nat) : Bool := o == opWriteRecords || o == opWriteFilemarks

/-- CTX of word 1. -/
def pktCtx (ws : List Word) : Nat := bits (ws.getD 1 0) 0 18
def entryCtx (e : JournalEntry) : Nat := pktCtx e.words

/-- Does the packet name a context (04 R95)? -/
def namesCtx (e : JournalEntry) : Bool :=
  let o := entryOp e
  o == opRewind || o == opLocate || o == opSpace || o == opOpenContext || o == opCloseContext || o == opSetProfile
    || isWriteOp o || o == opSync || o == opReadRecords || o == opVerifyRange || o == 0x78
    || (o == opSetKey && (!entryExpert e || bits (pktWord e 1) 20 2 ≤ 1))

/-- MARK of a journal entry (03 Table 3-9). -/
def journalMark : Nat := 0x41434350

/-- Bytes 0 to 191 of a journal entry: phase 1 (03 Table 3-9). -/
def entryBody (e : JournalEntry) : List Byte :=
  leBytes 8 e.jsn ++ [BitVec.ofNat 8 e.source, BitVec.ofNat 8 (pktLen (pktWord e 0))] ++ leBytes 2 e.sqIndex
    ++ List.replicate 52 0 ++ padTo 128 (wordBytes e.words)

/-- The word at byte 192, phase 2: JSN_COPY, MARK and the CRC over what comes before it. -/
def entrySeal (e : JournalEntry) : List Byte :=
  let b := leBytes 8 e.jsn ++ leBytes 4 journalMark
  b ++ leBytes 4 (crc32c (entryBody e ++ b)) ++ List.replicate 48 0

/-- The 256 bytes of a slot in MRAM: a slot that is being freed holds its MARK until that write is durable (03 R76). -/
def entryImage (e : JournalEntry) : List Byte :=
  entryBody e ++ if e.slot = .writing then List.replicate 64 0 else entrySeal e

/-- MARK, JSN_COPY and CRC all match (03 R75). -/
def imageValid (l : List Byte) : Bool :=
  slice l 192 8 == slice l 0 8 && leNat (slice l 200 4) == journalMark && leNat (slice l 204 4) == crc32c (slice l 0 204)

/-- The 64 bytes of a retire word (03 R76): its fields, and the CRC over them. -/
def retireImage (w : RetireWord) : List Byte :=
  let b := leBytes 8 w.jsn ++ [BitVec.ofNat 8 w.state, BitVec.ofNat 8 w.status] ++ leBytes 8 w.result0.toNat
    ++ leBytes 8 w.result1.toNat ++ List.replicate 34 0
  b ++ leBytes 4 (crc32c b)

/-- A retire word whose CRC fails counts as absent (17 R432). -/
def retireValid (l : List Byte) : Bool := leNat (slice l 60 4) == crc32c (slice l 0 60)

def findEntry (s : State) (jsn : Nat) : Option JournalEntry := s.jrn.entries.find? fun e => e.jsn == jsn
def findRun (s : State) (jsn : Nat) : Option RunInfo := s.jrn.runs.find? fun r => r.jsn == jsn

def setRun (jsn : Nat) (f : RunInfo → RunInfo) (s : State) : State :=
  { s with jrn := { s.jrn with runs := s.jrn.runs.map fun r => if r.jsn = jsn then f r else r } }

def setEntry (jsn : Nat) (f : JournalEntry → JournalEntry) (s : State) : State :=
  { s with jrn := { s.jrn with entries := s.jrn.entries.map fun e => if e.jsn = jsn then f e else e } }

/-- A command waits: nothing else of it happens (04 R94, R95, R116). -/
def waitRun (jsn : Nat) (s : State) : State :=
  setRun jsn (fun r => { r with phase := .waiting, since := if r.phase = .waiting then r.since else s.aon.time }) s

def startRun (jsn : Nat) (s : State) : State :=
  setRun jsn (fun r => { r with phase := .started, since := s.aon.time }) s

def mkCpl (e : JournalEntry) (kind status : Nat) (r0 r1 : Word) (untrusted : Bool) : Completion :=
  { cid := pktCid (pktWord e 0), source := e.source, kind := kind, untrusted := untrusted, status := status,
    jsn := e.jsn, result0 := r0, result1 := r1 }

/-- The ACCEPTED entry of a command. -/
def postAccepted (e : JournalEntry) (s : State) : State :=
  setRun e.jsn (fun r => { r with announced := true }) (postTo (entryCq e) (mkCpl e 1 0 0 0 false) s)

/-- A slot begins to be freed: the MRAM write that clears MARK is under way (03 R76). -/
def beginFree (jsn : Nat) (s : State) : State := setEntry jsn (fun e => { e with slot := .freeing }) s

def retireFree (s : State) : Bool := s.jrn.retire.length < 16384

/-- A retire word with STATE 0x02 exists for the JSN. -/
def isRetired (s : State) (jsn : Nat) : Bool := s.jrn.retire.any fun w => w.jsn == jsn && w.state == 2

/-- A retire word with STATE 0x01 exists for the JSN. -/
def abortRecordedFor (s : State) (jsn : Nat) : Bool := s.jrn.retire.any fun w => w.jsn == jsn && w.state == 1

/-- The slot that a SET_CONTEXT_KEY names: a device slot?, its number. -/
def keyTarget (ws : List Word) : Bool × Nat :=
  (pktExpert (ws.getD 0 0) && 2 ≤ bits (ws.getD 1 0) 20 2, pktCtx ws)

def getSlot (t : Bool × Nat) (s : State) : KeySlot :=
  tabGet .none (if t.1 then s.cph.devSlots else s.cph.ctxSlots) t.2

def setSlot (t : Bool × Nat) (k : KeySlot) (s : State) : State :=
  if t.1 then { s with cph := { s.cph with devSlots := tabSet .none t.2 k s.cph.devSlots } }
  else { s with cph := { s.cph with ctxSlots := tabSet .none t.2 k s.cph.ctxSlots } }

def keyBytes (k : BitVec 256) : List Byte := leBytes 32 k.toNat

/-- The key-wrapping key: device slot 0 (06 Table 6-3). -/
def wrapKey (s : State) : List Byte := keyBytes (getSlot (true, 0) s).key

/-- The key of a slot as a lane has it: the engine's own slots hold it, every other record holds it wrapped (06 Table 6-3). -/
def slotKey (t : Bool × Nat) (s : State) : List Byte :=
  if t.1 && decide (t.2 < 8) then keyBytes (getSlot t s).key
  else (kwUnwrap (wrapKey s) (getSlot t s).wrapped).getD (List.replicate 32 0)

/-- The JSN that a pending area serves. -/
def pendingJsn : PendingKey → Option Nat
  | .none => none
  | .clear j => some j
  | .key j _ _ => some j
  | .wrapped j _ _ _ _ _ _ => some j

/-- The pending area that a SET_CONTEXT_KEY holds frees when the command ends (06 R162). -/
def freePending (e : JournalEntry) (s : State) : State :=
  let k := getSlot (keyTarget e.words) s
  if entryOp e = opSetKey ∧ pendingJsn k.pending = some e.jsn then
    setSlot (keyTarget e.words) { k with pending := .none } s
  else s

/-- The engine is in the limited phase (06 R156, R157). -/
def limitedPhase (s : State) : Bool := s.cph.starting || s.cph.testing || s.cph.recovery || s.cph.ceilErr

/-- Prefixes of the limited phase that has ended are forgotten (06 R158). -/
def endPhase (s : State) : State :=
  if limitedPhase s then s
  else
    let f := fun (p : Nat × KeySlot) => (p.1, { p.2 with random := Option.none })
    let keep := fun (p : Nat × KeySlot) => decide (p.2 ≠ KeySlot.none)
    { s with cph := { s.cph with
      ctxSlots := (s.cph.ctxSlots.map f).filter keep, devSlots := (s.cph.devSlots.map f).filter keep } }

/-- Commands of before the start are all ended: the limited phase of unclean recovery ends (17 R437). -/
def replayDone (s : State) : State :=
  endPhase <| raiseN evSysReplayDone
    { s with sys := { s.sys with replaying := false }, cph := { s.cph with recovery := false } }

def replayEnded (wasReplayed : Bool) (s : State) : State :=
  if !wasReplayed then s
  else
    let s := { s with sys := { s.sys with replayLeft := s.sys.replayLeft - 1 } }
    if s.sys.replayLeft = 0 then replayDone s else s

/-- CMD_ABORT of a command that has ended first (03 Table 3-10). -/
def abortMissed (jsn : Nat) (s : State) : State :=
  if s.cmd.abortResult = 1 ∧ s.cmd.abortJsn = jsn then { s with cmd := { s.cmd with abortResult := 3 } } else s

/-- The command's report of before the start is made at once when it ends earlier than the report (17 R436). -/
def reportFirst (e : JournalEntry) (s : State) : State :=
  if s.sys.toReport.contains e.jsn then
    postAccepted e { s with sys := { s.sys with toReport := s.sys.toReport.filter (· != e.jsn) } }
  else s

/-- A command that has ended no longer pins its context; another accepted command that names it keeps the pin (04 R93). -/
def unpin (e : JournalEntry) (s : State) : State :=
  let other := s.jrn.entries.find? fun x =>
    x.jsn != e.jsn && namesCtx x && entryCtx x == entryCtx e && (findRun s x.jsn).isSome
  let pins := match other with
    | some x => s.ctx.pins.map fun p => if p.1 = e.jsn then (x.jsn, p.2) else p
    | none => s.ctx.pins.filter (·.1 != e.jsn)
  { s with ctx := { s.ctx with pins := pins } }

/-- The retire word is written and the final completion posted (03 R76, R80): ACCEPTED_FINAL when no ACCEPTED entry
has been written. -/
def retireNow (e : JournalEntry) (r : RunInfo) (status : Nat) (r0 r1 : Word) (s : State) : State :=
  let s := { s with jrn := { s.jrn with
    retire := s.jrn.retire ++ [{ jsn := e.jsn, state := 2, status := status, result0 := r0, result1 := r1 }] } }
  let s := reportFirst e s
  let announced := r.announced || s.jrn.runs.any fun x => x.jsn == e.jsn && x.announced
  let s := { s with jrn := { s.jrn with runs := s.jrn.runs.filter (·.jsn != e.jsn) },
                    ctx := { s.ctx with waiting := s.ctx.waiting.filter (· != e.jsn) } }
  let s := freePending e (unpin e s)
  let s := postTo (entryCq e) (mkCpl e (if announced then 2 else 3) status r0 r1 r.untrusted) s
  let s := if e.source = 65 then beginFree e.jsn s else s
  abortMissed e.jsn (replayEnded r.replayed s)

/-- A command ends: OK becomes OK_RETRIED after an automatic retry (17 R438); without a free retire word it waits with
its effects made (03 R76). -/
def endCommand (jsn status : Nat) (r0 r1 : Word) (s : State) : State :=
  match findEntry s jsn, findRun s jsn with
  | some e, some r =>
    let status := if status = stOk ∧ r.retried then stOkRetried else status
    if retireFree s then retireNow e r status r0 r1 s
    else setRun jsn (fun r => { r with phase := .unretired, final := some (status, r0, r1) }) s
  | _, _ => s

/-- Ends with a status and two numbers. -/
def endWith (jsn status r0 r1 : Nat) (s : State) : State := endCommand jsn status (wd r0) (wd r1) s

/-- Ends with a status whose RESULT fields spec/ does not state: free values (log entry 4). -/
def endBare (jsn st : Nat) (s : State) : State :=
  endWith jsn st (Config.freeNat s.freeCount) (Config.freeNat (s.freeCount + 1)) (drawFree (drawFree s))

/-- Ends with a status and RESULT0, RESULT1 not being stated. -/
def endR0 (jsn st r0 : Nat) (s : State) : State := endWith jsn st r0 (Config.freeNat s.freeCount) (drawFree s)

/-- Ends with a status and RESULT1, RESULT0 not being stated. -/
def endR1 (jsn st r1 : Nat) (s : State) : State := endWith jsn st (Config.freeNat s.freeCount) r1 (drawFree s)

/-- Commands that waited for a retire word write it now, in journal order (03 R76). -/
def retireWaiting : List Nat → State → State
  | [], s => s
  | j :: t, s =>
    match findEntry s j, findRun s j with
    | some e, some r =>
      match r.phase, r.final with
      | .unretired, some (st, r0, r1) => if retireFree s then retireWaiting t (retireNow e r st r0 r1 s) else s
      | _, _ => retireWaiting t s
    | _, _ => retireWaiting t s

/-! ### Which commands may run -/

/-- Firmware runs commands: start-up is done, the device is not FATAL and in power state ACTIVE (17 R431, R443,
15 R392). -/
def firmwareRuns (s : State) : Bool :=
  decide (s.sys.phase = .running) && !s.sys.fatal && decide (s.pwr.state = 0)

/-- The entry and run of a command that may begin: its journal entry is durable, its opcode is the row's, no abort is
recorded for it, and no command of before the start is left when it came after (17 R437). -/
def runnable (op jsn : Nat) (s : State) : Option (JournalEntry × RunInfo) :=
  match findEntry s jsn, findRun s jsn with
  | some e, some r =>
    if firmwareRuns s && decide (e.slot = .valid) && entryOp e == op
        && (decide (r.phase = .accepted) || decide (r.phase = .waiting)) && (r.replayed || s.sys.replayLeft == 0)
    then some (e, r) else none
  | _, _ => none

/-- A command's own row: nothing happens when the command is not there to run (log entry 12). -/
def onCommand (op jsn : Nat) (s : State) (k : JournalEntry → RunInfo → State → State) : State :=
  match runnable op jsn s with
  | some (e, r) => k e r s
  | none => s

/-- The entry and run of a command that has started and not ended. -/
def started (op jsn : Nat) (s : State) : Option (JournalEntry × RunInfo) :=
  match findEntry s jsn, findRun s jsn with
  | some e, some r =>
    if firmwareRuns s && entryOp e == op && decide (r.phase = .started) then some (e, r) else none
  | _, _ => none

/-! ### Units (17 R438, R439, R444) -/

def unitState (u : Nat) (s : State) : Nat := (s.sys.units.getD u .zero).state

def modUnit (u : Nat) (f : SysUnit → SysUnit) (s : State) : State :=
  { s with sys := { s.sys with units := s.sys.units.modify u f } }

/-- SYS_UNIT_u takes a state and a cause; SYS_UNIT_CHANGE when STATE changes (18 Table 18-4). -/
def setUnit (u st cause : Nat) (s : State) : State :=
  let old := unitState u s
  let s := modUnit u (fun x => { x with state := st, cause := cause }) s
  if old = st then s else raise (evUnitChange u) u (st + cause * 256) s

/-- A transient fault of a unit (17 R438). -/
def addTransient (u : Nat) (s : State) : State :=
  modUnit u (fun x => { x with transient := satAdd (2 ^ 32 - 1) x.transient 1 }) s

/-- The unit is DEGRADED or OFFLINE. -/
def unitDown (u : Nat) (s : State) : Bool := 2 ≤ unitState u s

/-- A command that needs units: it ends with UNIT_DEGRADED without them (17 R439) and waits while one is RETRYING
(17 R438). -/
def needUnits (us : List Nat) (jsn : Nat) (s : State) (k : State → State) : State :=
  if us.any (unitDown · s) then endBare jsn stUnitDegraded s
  else if us.any (fun u => unitState u s == 1) then waitRun jsn s
  else k s

/-- A wake trigger (15 R395): in an idle state a wake begins. -/
def wakeNow (s : State) : State :=
  if s.pwr.state = 0 ∨ s.pwr.waking then s else { s with pwr := { s.pwr with waking := true } }

/-! ### What goes out on the head link (11 R283-R288) -/

def getLane (n : Nat) (s : State) : HlkLane := s.hlk.lanes.getD n .reset

def modLane (n : Nat) (f : HlkLane → HlkLane) (s : State) : State :=
  { s with hlk := { s.hlk with lanes := s.hlk.lanes.modify n f } }

/-- Blocks go out on a lane. -/
def sendBlocks (lane : Nat) (l : List (BitVec 2 × Word)) (s : State) : State :=
  let r := scrambleAll (getLane lane s).txLast l
  emit (.linkBlocks lane r.1) (modLane lane (fun x => { x with txLast := r.2, queued := x.queued + l.length }) s)

/-- The active outbound lane whose queue holds the fewest blocks, the lowest on a tie (R288). -/
def outLane (s : State) : Option Nat :=
  ((List.range 4).map (12 + ·)).foldl (fun best n =>
    if !(getLane n s).active then best
    else match best with
      | none => some n
      | some m => if (getLane n s).queued < (getLane m s).queued then some n else best) none

/-- A frame goes out whole on one lane (R286, R288). -/
def sendFrame (ftype source index : Nat) (data : List Word) (s : State) : State :=
  match outLane s with
  | none => s
  | some n =>
    let l := frameBlocks ftype source (getLane n s).txSeq index data
    modLane n (fun x => { x with txSeq := (x.txSeq + 1) % 65536, frames := x.frames + 1 }) (sendBlocks n l s)

/-- A head control frame (Table 11-4): no channel. -/
def sendControl (ftype : Nat) (data : List Word) (s : State) : State := sendFrame ftype 0x7F 0 data s

/-! ### Write inhibit and the head (11 R291) -/

/-- An INHIBIT block goes out on every active outbound lane. -/
def sendInhibit (s : State) : State :=
  emit .inhibit (((List.range 4).map (12 + ·)).foldl (fun s n => if (getLane n s).active then sendBlocks n [(2, 0x55)] s else s) s)

/-- A source of write inhibit is asserted: INHIBIT goes out on the head link when none was asserted before. -/
def inhibitOn (src : Nat) (s : State) : State :=
  let was := s.mon.inhibit
  let s := { s with mon := { s.mon with inhibit := true, inhSrc := s.mon.inhSrc ||| BitVec.ofNat 5 (2 ^ src) } }
  if was then s else raiseP evDrvWriteInhibit s.mon.inhSrc.toNat (sendInhibit s)

end Sys2Proof.Machine
end

