-- ==== Sys2Proof/Machine/Intake.lean ====
section
/-! DEFINITION. Rings, doorbells, ring commits and the Counter (03 R62-R71, R81-R85). -/

namespace Sys2Proof.Machine

/-! ### Ring commits (03 R63, R64, R67) -/

/-- SIZE_LOG2 within range in an enabled ring; the shadow's BASE aligned to 4 KiB; BASE and SIZE_LOG2 kept while the
ring stays enabled. -/
def ringCfgOk (top : Nat) (old new : RingCfg) : Bool :=
  (!new.en || (4 ≤ new.sizeLog2 && new.sizeLog2 ≤ top)) && bits new.base 0 12 == 0
    && (!(old.en && new.en) || (old.base == new.base && old.sizeLog2 == new.sizeLog2))

/-- A packet in the journal names the completion ring and its last entry has not been written to the ring. -/
def ringOwed (n : Nat) (s : State) : Bool :=
  s.jrn.entries.any fun e =>
    e.source != 65 && entryCq e == n && decide (e.slot ≠ .freeing) && !(getCq n s).live.contains (e.jsn, true)

/-- A completion ring may take its shadow (R64). -/
def cqCommitOk (n : Nat) (r : CplRing) (s : State) : Bool :=
  ringCfgOk 12 r.cfg r.shadow
    && (!(r.cfg.en && !r.shadow.en) || (!ringOwed n s && r.waiting.isEmpty && (s.cmd.lateFinals.all (·.1 != n))))

/-- The first ring at fault, numbered as ERR_RING. -/
def ringFault (s : State) : Option Nat :=
  match indexOf? (fun r : SubRing => !ringCfgOk 12 r.cfg r.shadow) s.cmd.subRings with
  | some n => some n
  | none =>
    match (List.range 64).find? fun n => !cqCommitOk n (getCq n s) s with
    | some n => some (64 + n)
    | none => if ringCfgOk 16 s.cmd.evt.cfg s.cmd.evt.shadow then none else some 128

/-- A submission ring takes its shadow: enabled anew it starts at 0 (R64); disabled, its entries are discarded (R67). -/
def subTransfer (r : SubRing) : SubRing :=
  if r.shadow.en && !r.cfg.en then { r with cfg := r.shadow, tail := 0, head := 0 } else { r with cfg := r.shadow }

def cqTransfer (r : CplRing) : CplRing :=
  if r.shadow.en && !r.cfg.en then { r with cfg := r.shadow, head := 0, tail := 0, phase := true, live := [] }
  else if !r.shadow.en && r.cfg.en then { r with cfg := r.shadow, live := [] }
  else { r with cfg := r.shadow }

def evtTransfer (r : EvtRing) : EvtRing :=
  if r.shadow.en && !r.cfg.en then { r with cfg := r.shadow, head := 0, tail := 0, phase := true }
  else { r with cfg := r.shadow }

/-- Final entries among released ones begin the freeing of their commands' slots (R76). -/
def releaseLive (l : List (Nat × Bool)) (s : State) : State :=
  l.foldl (fun s p => if p.2 && p.1 != 0 then beginFree p.1 s else s) s

/-- Entries of completion rings that a commit disables count as released (R64). -/
def disabledLive (s : State) : List (Nat × Bool) :=
  s.cmd.cplRings.flatMap fun r => if r.cfg.en && !r.shadow.en then r.live else []

/-- Every completion ring and the event ring write what waits and finds room. -/
def pumpRings (s : State) : State :=
  evtPump ((List.range 64).foldl (fun s n => cplPump n (getCq n s).waiting.length s) s)

/-- The transfer of all ring shadows at core cycle 16 of the tick after CMD_RING_COMMIT (R63, R64, 18 R450, R451). -/
def ringTransfer (s : State) : State :=
  if !s.cmd.commitPending then s
  else
    let s := { s with cmd := { s.cmd with commitPending := false } }
    match ringFault s with
    | some n =>
      raiseN evCmdRingCfgErr { s with cmd := { s.cmd with
        commitErr := true, errRing := n
        subRings := s.cmd.subRings.map fun r => { r with shadow := r.cfg }
        cplRings := s.cmd.cplRings.map fun r => { r with shadow := r.cfg }
        evt := { s.cmd.evt with shadow := s.cmd.evt.cfg } } }
    | none =>
      let freed := disabledLive s
      let s := { s with cmd := { s.cmd with
        commitErr := false
        subRings := s.cmd.subRings.map subTransfer
        cplRings := s.cmd.cplRings.map cqTransfer
        evt := evtTransfer s.cmd.evt } }
      pumpRings (releaseLive freed s)

/-- CMD_RING_COMMIT_WRITE (03 R63). -/
def execCmdRingCommitWrite (s : State) : Out :=
  .next <| onMmio s { s with cmd := { s.cmd with commitPending := true } }

/-! ### Doorbells (03 R65, R81, R83) -/

/-- CMD_DOORBELL_ERR with the ring, numbered as ERR_RING, and the value written. -/
def doorbellErr (ring value : Nat) (s : State) : State := raise evCmdDoorbellErr ring value s

/-- CMD_SQ_TAIL_WRITE (03 R65, R83); a doorbell is a wake trigger (15 R395). -/
def execCmdSqTailWrite (ring value : Nat) (s : State) : Out :=
  .next <| onMmio s <|
    let s := wakeNow s
    let r := s.cmd.subRings.getD ring .reset
    if !r.cfg.en || ringSize r.cfg ≤ value then doorbellErr ring value s
    else { s with cmd := { s.cmd with subRings := s.cmd.subRings.modify ring fun r => { r with tail := value } } }

/-- CMD_CQ_HEAD_WRITE (03 R76, R81-R83): entries released, slots of consumed final ones freed, waiting ones written. -/
def execCmdCqHeadWrite (ring value : Nat) (s : State) : Out :=
  .next <| onMmio s <|
    let r := getCq ring s
    let size := ringSize r.cfg
    if !r.cfg.en || size ≤ value || ringSpan size r.head r.tail < ringSpan size r.head value then
      doorbellErr (64 + ring) value s
    else
      let n := ringSpan size r.head value
      let s := setCq ring (fun r => { r with head := value, live := r.live.drop n }) s
      let s := releaseLive (r.live.take n) s
      cplPump ring (getCq ring s).waiting.length s

/-- CMD_EVQ_HEAD_WRITE (03 R81, R83, R85): entries released, waiting ones written. -/
def execCmdEvqHeadWrite (value : Nat) (s : State) : Out :=
  .next <| onMmio s <|
    let r := s.cmd.evt
    let size := ringSize r.cfg
    if !r.cfg.en || size ≤ value || ringSpan size r.head r.tail < ringSpan size r.head value then
      doorbellErr 128 value s
    else evtPump { s with cmd := { s.cmd with evt := { r with head := value } } }

/-! ### Fetch (03 R66) -/

/-- Ring entries of a packet by the LEN of its word 0. -/
def entriesOf (w0 : Word) : Nat := if pktLen w0 ≤ 8 then 1 else 2

/-- SQ_ENTRY_FETCH: the next packet of a ring is copied when all of its entries lie before the tail, and CMD_SQ_HEAD
moves past them (R65, R66). The device fetches only with Bus Master Enable (02 R57). -/
def execSqEntryFetch (ring : Nat) (words : List Word) (s : State) : Out :=
  .next <|
    let r := s.cmd.subRings.getD ring .reset
    let size := ringSize r.cfg
    let w0 := words.getD 0 0
    let n := entriesOf w0
    let addr := r.cfg.base.toNat + 64 * r.head
    if !(firmwareRuns s) || !s.hif.busMaster || !pathOpen s || !r.cfg.en || ringSpan size r.head r.tail < n then s
    else if !hostRangeOk addr 64 then s
    else
      let s := hostFetch addr 64 s
      let s := if n = 2 then hostFetch (r.cfg.base.toNat + 64 * ((r.head + 1) % size)) 64 s else s
      let p : Packet := { words := words.take (max 1 (min 16 (pktLen w0))), index := r.head }
      { s with cmd := { s.cmd with subRings := s.cmd.subRings.modify ring fun r =>
        { r with head := (r.head + n) % size, copied := r.copied ++ [p] } } }

/-! ### The Counter (03 R68-R71) -/

def setCounter (f : Counter → Counter) (s : State) : State :=
  { s with cmd := { s.cmd with counter := f s.cmd.counter } }

/-- Stages not in use. -/
def ctrFree (c : Counter) : Nat := 64 - c.stages.length

/-- The stages that hold committed packets. -/
def committedWords (c : Counter) : List Word := c.stages.take (c.stages.length - c.openWords)

/-- LEN of the open packet. -/
def openLen (c : Counter) : Nat := pktLen (c.stages.getD (c.stages.length - c.openWords) 0)

/-- The open packet is removed back to its rewind mark. -/
def dropOpen (c : Counter) : Counter := { c with stages := committedWords c, openWords := 0 }

/-- Words of committed packets cut into packets; the first argument bounds how many. -/
def cutPackets : Nat → List Word → List (List Word)
  | 0, _ => []
  | _ + 1, [] => []
  | n + 1, w :: t => (w :: t).take (max 1 (pktLen w)) :: cutPackets n ((w :: t).drop (max 1 (pktLen w)))

def ctrPackets (c : Counter) : List (List Word) := cutPackets 64 (committedWords c)

def discardOne (c : Counter) : Counter := { c with discarded := satAdd 65535 c.discarded 1 }

/-- Rows 3 and 4 of Table 3-6: a valid SOP word when no packet is open. -/
def sopWord (w : Word) (s : State) : State :=
  let c := s.cmd.counter
  if 1 ≤ ctrFree c then
    setCounter (fun c => { c with stages := c.stages ++ [w], openWords := 1, state := .opened }) s
  else
    raise evIntakeOversize w.toNat 0 (setCounter (fun c => { discardOne c with state := .dropping }) s)

/-- CMD_CTR_SOP_WRITE (03 Table 3-6, rows 1 to 4). -/
def execCmdCtrSopWrite (w : Word) (s : State) : Out :=
  .next <| onMmio s <|
    let s := wakeNow s
    let c := s.cmd.counter
    let wasOpen := decide (c.state = .opened)
    if pktLen w < 2 ∨ 16 < pktLen w then
      let s := setCounter (fun c => { (if wasOpen then discardOne (dropOpen c) else c) with state := .dropping }) s
      raise evIntakeMalformed w.toNat (if wasOpen then c.openWords else 0) s
    else if wasOpen then
      let s := setCounter (fun c => { discardOne (dropOpen c) with state := .idle }) s
      sopWord w (raise evIntakeTruncated w.toNat c.openWords s)
    else sopWord w s

/-- CMD_CTR_DATA_WRITE (03 Table 3-6, rows 5 to 7). -/
def execCmdCtrDataWrite (w : Word) (s : State) : Out :=
  .next <| onMmio s <|
    let s := wakeNow s
    let c := s.cmd.counter
    if c.state = .opened then
      if 1 ≤ ctrFree c then
        setCounter (fun c =>
          let c' := { c with stages := c.stages ++ [w], openWords := c.openWords + 1 }
          if openLen c ≤ c.openWords + 1 then { c' with openWords := 0, state := .idle } else c') s
      else
        let s := setCounter (fun c => { discardOne (dropOpen c) with state := .dropping }) s
        raise evIntakeOversize w.toNat c.openWords s
    else setCounter (fun c => { c with dropped := satAdd 65535 c.dropped 1 }) s

/-- FLUSH (03 R70): every stage is emptied at once. -/
def execFlush (s : State) : Out :=
  .next <| onMmio s <| setCounter (fun c =>
    let isOpen := decide (c.state = .opened)
    let n := (ctrPackets c).length + (if isOpen then 1 else 0)
    { c with stages := [], openWords := 0, state := if isOpen then .dropping else .idle,
             flushed := satAdd 65535 c.flushed n }) s

/-- CLR_COUNTS (03 Table 3-8). -/
def execClrCounts (s : State) : Out :=
  .next <| onMmio s <| setCounter (fun c => { c with dropped := 0, discarded := 0, flushed := 0 }) s

/-- The committed packet that R69 presents: the oldest of the highest PRIO. -/
def ctrNext (c : Counter) : Option (List Word) :=
  (ctrPackets c).foldl (fun best p => match best with
    | none => some p
    | some b => if pktPrio (b.getD 0 0) < pktPrio (p.getD 0 0) then some p else some b) none

/-- The presented packet leaves the chain and the words behind it fall forward. -/
def ctrTake (p : List Word) (c : Counter) : Counter :=
  let rest := ((ctrPackets c).erase p).flatten
  { c with stages := rest ++ c.stages.drop (c.stages.length - c.openWords) }

/-! ### Compatibility mode, event groups (03 R91, 18 R455) -/

/-- CMD_COMPAT_WRITE (03 R91): a change of T4 waits for core cycle 16 of the next tick, or is refused while a cartridge
is loaded or a context is open. -/
def execCmdCompatWrite (value : Word) (s : State) : Out :=
  .next <| onMmio s <|
    let t4 := bitAt value 0
    if t4 = s.cmd.compatT4 then s
    else if s.cart.loaded || (s.ctx.records.any fun p => p.2.isOpen) then raiseN evCmdCompatRefused s
    else { s with cmd := { s.cmd with compatT4 := t4 } }

/-- EVG_STATUS_CLEAR (18 R455): RW1C, a bit set in the same cycle staying 1 and firing the vector again. -/
def execEvgStatusClear (group : Nat) (value sameCycle : BitVec 32) (s : State) : Out :=
  .next <| onMmio s <|
    let g := s.cmd.groups.getD group (.reset 0)
    let again := value &&& g.status &&& sameCycle
    let ordered := BitVec.ofNat 32 ((List.range 32).foldl (fun a b => a + boolNat (isOrdered (32 * group + b)) * 2 ^ b) 0)
    let s := setGroup group (fun g => { g with status := (g.status &&& ~~~value) ||| again }) s
    if again &&& (~~~g.mask ||| ordered) = 0 then s else msixTrigger g.vector g.vecEn s

end Sys2Proof.Machine
end

