-- ==== Sys2Proof/Machine/Operands.lean ====
section
/-! DEFINITION. The fields of every packet form and the checks before acceptance (03 R58-R61; the packet tables of 04
to 08, 10, 12, 15, 16 and 17). -/

namespace Sys2Proof.Machine

/-! ### Fields -/

/-- SYNC ALL of the expert form. -/
def syncAll (e : JournalEntry) : Bool := entryExpert e && bitAt (pktWord e 1) 18

/-- SUBSCRIBE and AT_POSITION of WRITE_RECORDS. -/
def subscribes (e : JournalEntry) : Bool := entryExpert e && bitAt (pktWord e 4) 0
def atPosition (e : JournalEntry) : Bool := entryExpert e && bitAt (pktWord e 4) 1

/-- NO_MOTION of LOCATE and SPACE (04 R111). -/
def noMotion (e : JournalEntry) : Bool :=
  entryExpert e && (entryOp e == opLocate || entryOp e == opSpace) && bitAt (pktWord e 3) 5

/-- MAX_STEP of a motion command (04 R111) or of READ_RECORDS (10 Table 10-4). -/
def maxStepOf (e : JournalEntry) : Nat :=
  if !entryExpert e then 24
  else if entryOp e = opLocate ∨ entryOp e = opSpace then bits (pktWord e 3) 0 5
  else if entryOp e = opReadRecords then bits (pktWord e 5) 8 5
  else if entryOp e = opLoad ∨ entryOp e = opUnload ∨ entryOp e = opRewind then bits (pktWord e 2) 0 5
  else 24

/-- FUNCTION, UNIT and ARG of DIAG (17 Table 17-8). -/
def diagFunction (ws : List Word) : Nat := bits (ws.getD 1 0) 0 8
def diagUnit (ws : List Word) : Nat := bits (ws.getD 1 0) 8 5
def diagArg (ws : List Word) : Bool := bitAt (ws.getD 2 0) 0

/-- A motion or read command, or a Drover command that uses the tape (04 R116, 12 R324, 17 R447). -/
def isMotion (e : JournalEntry) : Bool :=
  let o := entryOp e
  if o = opLocate ∨ o = opSpace then !noMotion e
  else o == opLoad || o == opUnload || o == opRewind || o == opReadRecords || o == opVerifyRange || o == opFormat
    || o == 0x61 || o == 0x62 || o == 0x78 || (o == opDiag && diagFunction e.words == 1)

/-- A command that uses the tape (04 R116). -/
def usesTape (e : JournalEntry) : Bool := isMotion e || isWriteOp (entryOp e) || entryOp e == opSync

/-! ### Assigned opcodes (03 R60, Table 3-2) -/

def assigned (o : Nat) : Bool :=
  [0x01, 0x02, 0x03, 0x08, 0x10, 0x11, 0x12, 0x13, 0x14, 0x15, 0x20, 0x21, 0x22, 0x23, 0x30, 0x31, 0x32, 0x38, 0x39, 0x3A,
    0x40, 0x41, 0x48, 0x49, 0x60, 0x61, 0x62, 0x63, 0x70, 0x71, 0x72, 0x78, 0x79, 0x7A, 0x7B, 0x7C, 0x7D, 0x7E,
    0x7F].contains o

/-- Word counts defined for an opcode and form (03 R59, R60). -/
def lenOk (o : Nat) (expert t4 : Bool) (n : Nat) : Bool :=
  if o = 0x01 then n == if expert then 3 else 2
  else if o = 0x02 ∨ o = 0x03 then n == 2
  else if o = 0x08 then n == if expert then 3 else 2
  else if o = 0x10 ∨ o = 0x11 ∨ o = 0x12 then n == if expert then 3 else 2
  else if o = 0x13 ∨ o = 0x14 then n == if expert then 4 else 3
  else if o = 0x15 then n == if expert then 3 else 2
  else if o = 0x20 ∨ o = 0x21 ∨ o = 0x23 then n == if expert then 3 else 2
  else if o = 0x22 then if expert then n == 11 else n == 2 || n == 7 || (t4 && n == 6)
  else if o = 0x30 then n == if expert then 5 else 4
  else if o = 0x31 then n == 3
  else if o = 0x32 then n == 2
  else if o = 0x38 then n == if expert then 6 else 5
  else if o = 0x39 then n == if expert then 4 else 2
  else if o = 0x3A then n == 4
  else if o = 0x40 then n == 4
  else if o = 0x41 then n == 2
  else if o = 0x48 then n == if expert then 4 else 2
  else if o = 0x49 then n == if expert then 5 else 2
  else expert && (
    if o = 0x60 then n == 7 else if o = 0x61 then n == 2 else if o = 0x62 then n == 3 else if o = 0x63 then n == 4
    else if o = 0x70 then n == 3 else if o = 0x71 then n == 2 else if o = 0x72 then n == 5
    else if o = 0x78 then n == 4 else if o = 0x79 then n == 3 else if o = 0x7A then n == 2 else if o = 0x7B then n == 3
    else if o = 0x7C then n == 2 else if o = 0x7D then n == 4 else if o = 0x7E then n == 3 else n == 3)

/-! ### Reserved fields and ranges -/

/-- Reserved bits are zero (00 R10). -/
def rsv (w : Word) (lo n : Nat) : Bool := bits w lo n == 0

/-- [17:0] CTX with nothing above (04 R92: every value of 18 bits is a context). -/
def ctxWord (w : Word) : Bool := rsv w 18 46

/-- Finite, and below 2^n in magnitude (12 R325): the exponent field of an IEEE 754 binary64. -/
def doubleBelow (w : Word) (n : Nat) : Bool := bits w 52 11 < 1023 + n

/-- Word counts PAIRS0 to PAIRS3 of FORMAT_PARTITIONS (07 R199). -/
def pairsOf (w : Word) : List Nat := (List.range 4).map fun p => bits w (8 * p) 8

def formatOk (expert t4 : Bool) (w1 w2 : Word) : Bool :=
  let n := bits w1 0 3
  if !expert then rsv w1 3 61 && 1 ≤ n && n ≤ (if t4 then 2 else 4)
  else
    !t4 && rsv w1 3 1 && rsv w1 8 56 && rsv w2 32 32 && 1 ≤ n && n ≤ 4
      && ((List.range 4).all fun p =>
        if p < n then 1 ≤ bits w2 (8 * p) 8 && bits w2 (8 * p) 8 ≤ 104
        else bits w2 (8 * p) 8 == 0 && !bitAt w1 (4 + p))
      && (pairsOf w2).foldl (· + ·) 0 ≤ 104

/-- Expert form of SET_CONTEXT_KEY (06 Table 6-4): targets, and zero in the fields an ACTION does not use. -/
def keyExpertOk (ws : List Word) : Bool :=
  let w1 := ws.getD 1 0
  let act := bits w1 20 2
  let target := bits w1 0 18
  let zeros := fun (a b : Nat) => (List.range b).all fun i => b ≤ i || i < a || ws.getD i 0 == 0
  rsv w1 18 2 && rsv w1 22 2 && rsv w1 30 34 && rsv (ws.getD 10 0) 32 32
    && (if act ≤ 1 then true else 8 ≤ target && target ≤ 63)
    && (if act = 1 then 8 ≤ bits w1 24 6 else bits w1 24 6 == 0)
    && (if act = 1 then true else zeros 7 11)
    && (if act = 3 then zeros 2 11 else true)

/-- FUNCTION, UNIT and ARG of DIAG (17 Table 17-8, Table 17-5). -/
def diagOk (ws : List Word) : Bool :=
  let f := diagFunction ws
  let u := diagUnit ws
  rsv (ws.getD 1 0) 13 51 && rsv (ws.getD 2 0) 1 63 && 1 ≤ f && f ≤ 6
    && (if f = 3 then [2, 3, 4, 5, 6, 12, 13].contains u else if f = 4 then u ≤ 21 else u == 0)
    && (f = 6 || !diagArg ws)

def cmAccessOk (w : Word) : Bool :=
  let off := bits w 0 14
  let len := bits w 16 15
  rsv w 14 2 && rsv w 31 1 && rsv w 33 31 && len ≤ 16384 && off + len ≤ 16384
    && !(bitAt w 32 && 1 ≤ len && off < 0x0C00)

/-- Bytes of a Boot Ledger entry and of a meter statement for a count of tenants (16 Tables 16-5, 16-8). -/
def ledgerEntryBytes : Nat := 384
def statementBytes (n : Nat) : Nat := 184 + 16 * n

/-- Reserved fields and value ranges of words 1 and later, by opcode and form. -/
def fieldsOk (ws : List Word) (t4 : Bool) : Bool :=
  let w0 := ws.getD 0 0
  let o := pktOp w0
  let ex := pktExpert w0
  let w1 := ws.getD 1 0
  let w2 := ws.getD 2 0
  let w3 := ws.getD 3 0
  if o = 0x01 then !ex || rsv w2 32 32
  else if o = 0x02 then hostRangeOk w1.toNat 4096
  else if o = 0x03 then w1 == 0
  else if o = 0x08 then rsv w1 32 32 && (!ex || (bits w2 0 3 ≤ 4 && rsv w2 4 60))
  else if o = 0x10 ∨ o = 0x11 then w1 == 0 && (!ex || (bits w2 0 5 ≤ 24 && rsv w2 5 59))
  else if o = 0x12 then ctxWord w1 && (!ex || (bits w2 0 5 ≤ 24 && rsv w2 5 59))
  else if o = 0x13 then rsv w1 18 2 && rsv w1 22 42 && (!ex || (bits w3 0 5 ≤ 24 && rsv w3 6 58))
  else if o = 0x14 then rsv w1 18 2 && rsv w1 22 42 && rsv w2 32 32 && (!ex || (bits w3 0 5 ≤ 24 && rsv w3 6 58))
  else if o = 0x15 then formatOk ex t4 w1 w2
  else if o = 0x20 then rsv w1 18 2 && rsv w1 22 10 && rsv w1 44 20 && (!ex || (bits w2 0 4 ≤ 9 && rsv w2 5 59))
  else if o = 0x21 then ctxWord w1 && (!ex || rsv w2 1 63)
  else if o = 0x23 then rsv w1 18 2 && rsv w1 24 40 && bits w1 20 4 ≤ 9 && (!ex || rsv w2 1 63)
  else if o = 0x22 then if ex then keyExpertOk ws else ctxWord w1
  else if o = 0x30 then ctxWord w1 && bits w2 0 4 == 0 && rsv w3 17 47 && 1 ≤ bits w3 0 17 && bits w3 0 17 ≤ 65536
      && hostRangeOk w2.toNat (16 * bits w3 0 17) && (!ex || rsv (ws.getD 4 0) 2 62)
  else if o = 0x31 then ctxWord w1 && rsv w2 32 32
  else if o = 0x32 then if ex then rsv w1 19 45 else ctxWord w1
  else if o = 0x38 then rsv w1 18 14 && bits w2 0 4 == 0 && rsv w3 17 47 && 1 ≤ bits w3 0 17 && bits w3 0 17 ≤ 65536
      && hostRangeOk w2.toNat (16 * bits w3 0 17) && hostRangeOk (ws.getD 4 0).toNat (16 * bits w1 32 32)
      && (!ex || (bits (ws.getD 5 0) 0 4 ≤ 8 && rsv (ws.getD 5 0) 5 3 && bits (ws.getD 5 0) 8 5 ≤ 24
        && rsv (ws.getD 5 0) 13 51))
  else if o = 0x39 then rsv w1 18 14 && (!ex || (bits w3 32 4 ≤ 8 && rsv w3 37 27
      && (bits w3 0 32 == 0 || 16 ≤ bits w3 0 32) && hostRangeOk w2.toNat (bits w3 0 32)))
  else if o = 0x3A then rsv w3 33 31 && hostRangeOk w2.toNat (bits w3 0 32)
  else if o = 0x40 then bits w2 0 8 ≤ 6 && rsv w2 32 32 && hostRangeOk w1.toNat (bits w2 8 24)
  else if o = 0x41 then 1 ≤ bits w1 0 8 && bits w1 0 8 ≤ 6 && rsv w1 8 56
  else if o = 0x48 then
    if ex then rsv w2 32 32 && rsv w3 13 51 && bits w3 0 13 ≤ 4096
      && hostRangeOk w1.toNat (ledgerEntryBytes * bits w3 0 13)
    else hostRangeOk w1.toNat ledgerEntryBytes
  else if o = 0x49 then
    if ex then rsv w2 12 4 && rsv w2 30 34 && bits w2 0 12 + bits w2 16 13 ≤ 4096
      && hostRangeOk w1.toNat (statementBytes (bits w2 16 13))
    else hostRangeOk w1.toNat (statementBytes 4096)
  else if o = 0x60 then rsv w1 5 3 && rsv w1 11 53
      && ((List.range 3).all fun i => doubleBelow (ws.getD (2 + i) 0) 31)
      && ((List.range 2).all fun i => doubleBelow (ws.getD (5 + i) 0) 1)
  else if o = 0x61 then rsv w1 5 3 && rsv w1 10 54 && bits w1 8 2 ≤ 2
  else if o = 0x62 then rsv w1 5 27 && rsv w1 48 16 && rsv w2 24 40
  else if o = 0x63 then rsv w1 5 59 && rsv w3 24 40 && hostRangeOk w2.toNat (32 * bits w3 0 24)
  else if o = 0x70 then rsv w2 36 28 && bits w2 32 4 ≤ 9 && hostRangeOk w1.toNat (bits w2 0 32)
  else if o = 0x71 then rsv w1 4 4 && rsv w1 19 5 && rsv w1 29 3 && rsv w1 35 29 && 1 ≤ bits w1 0 4 && bits w1 0 4 ≤ 9
      && (bitAt w1 34 || (1 ≤ bits w1 8 11 && bits w1 8 11 ≤ 1024 && 16 ≤ bits w1 24 5 && bits w1 24 5 ≤ 20
        && bits w1 32 2 ≤ 2))
  else if o = 0x72 then rsv w2 32 32 && rsv (ws.getD 4 0) 32 32 && hostRangeOk w1.toNat (bits w2 0 32)
      && hostRangeOk w3.toNat (bits (ws.getD 4 0) 0 32)
  else if o = 0x78 then ctxWord w1 && hostRangeOk w3.toNat 256
  else if o = 0x79 then cmAccessOk w1 && hostRangeOk w2.toNat (bits w1 16 15)
  else if o = 0x7A then rsv w1 15 1 && rsv w1 32 32
      && (bitAt w1 14 || (1 ≤ bits w1 0 4 && bits w1 0 4 ≤ 8 && 1 ≤ bits w1 4 6 && bits w1 4 6 ≤ 48
        && bits w1 10 3 ≤ 4))
  else if o = 0x7B then rsv w2 1 63 && hostRangeOk w1.toNat 1040
  else if o = 0x7C then rsv w1 2 2 && rsv w1 8 56 && 8 ≤ bits w1 4 4
  else if o = 0x7D then rsv w1 8 56 && rsv w3 8 56 && bits w1 6 2 ≤ 2 && bits w3 0 8 ≤ 64
      && hostRangeOk w2.toNat (([11520, 9216, 8].getD (bits w1 6 2) 0) * bits w3 0 8)
  else if o = 0x7E then hostRangeOk w1.toNat 1080 && hostRangeOk w2.toNat 72
  else diagOk ws

/-! ### Buffer lists (04 R105, 02 R40, R46) -/

/-- An HDM entry: CXL mode, decoder committed, range wholly below the committed size (02 R40). -/
def hdmEntryOk (e : ListEntry) (s : State) : Bool :=
  s.hif.mode == 1 && s.hif.committed && e.address + e.length ≤ s.hif.hdmSize

/-- One entry of a write list. -/
def writeEntryOk (s : State) (e : ListEntry) : Bool :=
  e.rsvd == 0 && e.length < 2 ^ 32 && (e.eor || 1 ≤ e.length)
    && (if e.hdm then hdmEntryOk e s else hostRangeOk e.address e.length)

/-- One entry of a read list. -/
def readEntryOk (e : ListEntry) : Bool :=
  e.rsvd == 0 && !e.eor && !e.hdm && 1 ≤ e.length && e.length < 2 ^ 32 && hostRangeOk e.address e.length

/-- Lengths of the records of a write list, in list order; the first argument gathers the record in hand. -/
def recordLens : Nat → List ListEntry → List Nat
  | _, [] => []
  | n, e :: t => if e.eor then (n + e.length) :: recordLens 0 t else recordLens (n + e.length) t

def writeListOk (l : List ListEntry) (s : State) : Bool :=
  l.all (writeEntryOk s) && (match l.getLast? with
    | some e => e.eor
    | none => false) && (recordLens 0 l).all (· < 2 ^ 32)

/-- The packet's buffer list, when it has one, passes. -/
def listOk (ws : List Word) (t : TakeInput) (s : State) : Bool :=
  let o := pktOp (ws.getD 0 0)
  if o = opWriteRecords ∨ o = opReadRecords then
    match t.list with
    | none => false
    | some l => l.length == bits (ws.getD 3 0) 0 17
        && (if o = opWriteRecords then writeListOk l s else l.all readEntryOk)
  else true

/-- Packets that the management port may carry (17 R446). -/
def mgtAllowed (ws : List Word) : Bool :=
  let o := pktOp (ws.getD 0 0)
  o == opNop || o == opGetStatus || (o == opDiag && [1, 3, 4, 6].contains (diagFunction ws))

/-- The checks before acceptance (03 R60): none, or the status of the REJECTED completion. -/
def rejectStatus (source : Nat) (ws : List Word) (t : TakeInput) (s : State) : Option Nat :=
  let w0 := ws.getD 0 0
  let o := pktOp w0
  let t4 := s.cmd.compatActive
  if source = 65 && !mgtAllowed ws then some stInvalidField
  else if !assigned o then some stInvalidOpcode
  else if lenOk o (pktExpert w0) t4 (pktLen w0) && rsv w0 38 26 && (64 ≤ source || pktPrio w0 == 0) && fieldsOk ws t4
      && listOk ws t s && t.addrOk then none
  else some stInvalidField

end Sys2Proof.Machine
end

