-- ==== Sys2Proof/Machine/JournalRows.lean ====
section
/-! DEFINITION. Arbitration, the journal, aborts' first half and the management port (03 R72-R80, 06 R162, 17 R445,
R446, 18 R453). -/

namespace Sys2Proof.Machine

/-! ### Key material and pending areas (06 R161, R162) -/

/-- 256 bits from four words, lowest first. -/
def word256 (ws : List Word) (i : Nat) : BitVec 256 :=
  BitVec.ofNat 256 ((List.range 4).foldl (fun a k => a + (ws.getD (i + k) 0).toNat * 2 ^ (64 * k)) 0)

/-- A key as it is kept outside the lanes: wrapped under device slot 0, whose key is given (R161, R162). -/
def wrapped (kek : List Byte) (ws : List Word) (i : Nat) : List Byte := kwWrap kek (keyBytes (word256 ws i))

/-- What a packet places in the pending area of its slot (R162). -/
def pendingOf (kek : List Byte) (jsn : Nat) (ws : List Word) : PendingKey :=
  let ex := pktExpert (ws.getD 0 0)
  let n := pktLen (ws.getD 0 0)
  let act := bits (ws.getD 1 0) 20 2
  let label := (ws.getD 2 0).toNat
  if ex then
    if act = 3 then .clear jsn
    else if act = 1 then
      .wrapped jsn label (bits (ws.getD 1 0) 24 6) [ws.getD 1 0, ws.getD 2 0] (word256 ws 3)
        (BitVec.ofNat 128 ((ws.getD 7 0).toNat + (ws.getD 8 0).toNat * 2 ^ 64))
        (BitVec.ofNat 96 ((ws.getD 9 0).toNat + bits (ws.getD 10 0) 0 32 * 2 ^ 64))
    else .key jsn label (wrapped kek ws 3)
  else if n = 2 then .clear jsn
  else if n = 6 then .key jsn 0 (wrapped kek ws 2)
  else .key jsn label (wrapped kek ws 3)

/-- The packet as the journal holds it: key material as zeros (R162). -/
def journalWords (ws : List Word) : List Word :=
  let w0 := ws.getD 0 0
  if pktOp w0 ≠ opSetKey then ws
  else ws.zipIdx.map fun p =>
    if !pktExpert w0 && pktLen w0 == 6 then (if 2 ≤ p.2 && p.2 ≤ 5 then 0 else p.1)
    else if 3 ≤ p.2 && p.2 ≤ 10 then 0 else p.1

/-! ### Slots and waiting sources (03 R72, R74) -/

def ringSlots (s : State) : Nat := (s.jrn.entries.filter fun e => !e.reserved).length
def reservedSlots (s : State) : Nat := (s.jrn.entries.filter fun e => e.reserved).length

/-- The kind of slot that has run out for a source: 0 ring slots for a ring packet, 1 neither kind (R74). -/
def slotsOut (src : Nat) (s : State) : Option Nat :=
  if src < 64 then (if 24320 ≤ ringSlots s then some 0 else none)
  else if 256 ≤ reservedSlots s && 24320 ≤ ringSlots s then some 1 else none

/-- The completion ring that a packet names is full (R72). -/
def cqBlocked (src : Nat) (w0 : Word) (s : State) : Bool :=
  src != 65 && (getCq (pktCq w0) s).cfg.en && (!cqRoom (pktCq w0) s || !(getCq (pktCq w0) s).waiting.isEmpty)

/-- A SET_CONTEXT_KEY whose target's pending area is held (06 R162). -/
def keyBlocked (ws : List Word) (s : State) : Bool :=
  pktOp (ws.getD 0 0) == opSetKey && decide ((getSlot (keyTarget ws) s).pending ≠ .none)

/-- A source waits without losing its place (R72, R85). -/
def sourceWaits (src : Nat) (ws : List Word) (s : State) : Bool :=
  cqBlocked src (ws.getD 0 0) s || (slotsOut src s).isSome || keyBlocked ws s
    || ((isWriteOp (pktOp (ws.getD 0 0)) || pktOp (ws.getD 0 0) == opSync) && orderedFull s)
    || (!hostReachable s && (pktOp (ws.getD 0 0) == opWriteRecords || pktOp (ws.getD 0 0) == opReadRecords))

/-- A source waits for a slot: FULL of CMD_JOURNAL_STATUS (03 Table 3-16). -/
def slotWaits (s : State) : Bool :=
  (!s.cmd.mgtQueue.isEmpty && (slotsOut 65 s).isSome) || ((ctrNext s.cmd.counter).isSome && (slotsOut 64 s).isSome)
    || ((s.cmd.subRings.any fun r => !r.copied.isEmpty) && (slotsOut 0 s).isSome)

/-- JOURNAL_FULL when a source begins to wait for a kind that has not been reported since one of its slots freed. -/
def noteFull (src : Nat) (s : State) : State :=
  match slotsOut src s with
  | some 0 => if s.cmd.fullRing then s else raise evJournalFull src 0 { s with cmd := { s.cmd with fullRing := true } }
  | some _ => if s.cmd.fullRes then s else raise evJournalFull src 1 { s with cmd := { s.cmd with fullRes := true } }
  | none => s

/-! ### The turn of the submission rings (R72) -/

def nextTurn (s : State) : State := { s with cmd := { s.cmd with turn := (s.cmd.turn + 1) % 64, turnTaken := 0 } }

/-- The next packet of the ring in turn, passing turns that have nothing to take; the first argument bounds the
passes. -/
def ringTurn : Nat → State → State × Option (Nat × Packet)
  | 0, s => (s, none)
  | n + 1, s =>
    let ring := s.cmd.turn
    let r := s.cmd.subRings.getD ring .reset
    match r.copied with
    | [] => ringTurn n (nextTurn s)
    | p :: t =>
      let k := entriesOf (p.words.getD 0 0)
      if s.cmd.turnTaken ≠ 0 ∧ r.cfg.burst + 1 < s.cmd.turnTaken + k then ringTurn n (nextTurn s)
      else if sourceWaits ring p.words s then ringTurn n (nextTurn (noteFull ring s))
      else
        ({ s with cmd := { s.cmd with
            turnTaken := s.cmd.turnTaken + k
            subRings := s.cmd.subRings.modify ring fun r => { r with copied := t } } }, some (ring, p))

/-- The packet that the order of R72 gives, taken from its source; the sources before it that must wait are noted. -/
def takePacket (s : State) : State × Option (Nat × Packet) :=
  let tryMgt := fun (s : State) => match s.cmd.mgtQueue with
    | ws :: t =>
      if sourceWaits 65 ws s then ringTurn 65 (noteFull 65 s)
      else ({ s with cmd := { s.cmd with mgtQueue := t } }, some (65, { words := ws, index := 0 }))
    | [] => ringTurn 65 s
  match ctrNext s.cmd.counter with
  | some ws =>
    if sourceWaits 64 ws s then tryMgt (noteFull 64 s)
    else (setCounter (ctrTake ws) s, some (64, { words := ws, index := 0 }))
  | none => tryMgt s

/-! ### Taking a packet (R60, R73-R75) -/

/-- The one completion of a packet that is not accepted; CMD_SQ_REJECT for a submission ring (18 Table 18-4). -/
def rejectPacket (src : Nat) (ws : List Word) (st : Nat) (s : State) : State :=
  let w0 := ws.getD 0 0
  let c : Completion :=
    { cid := pktCid w0, source := src, kind := 0, untrusted := false, status := st, jsn := 0, result0 := 0,
      result1 := 0 }
  let s := postTo (pktCq w0) c s
  if src < 64 then raise (evSqReject src) (pktCid w0) st s else s

/-- A run that has not begun. -/
def newRun (jsn : Nat) (list : List ListEntry) (replayed : Bool) : RunInfo :=
  { jsn := jsn, phase := .accepted, list := list, announced := false, retried := false, untrusted := false, since := 0,
    done := 0, final := none, grant := none, first := none, replayed := replayed }

/-- Phase 1 of the packet's journal entry begins: the slot, the next JSN, the pending area of a key (R74, R75). -/
def journalPacket (src : Nat) (p : Packet) (list : List ListEntry) (s : State) : State :=
  let jsn := s.jrn.nextJsn
  let e : JournalEntry :=
    { jsn := jsn, source := src, sqIndex := p.index, words := journalWords p.words
      reserved := decide (64 ≤ src) && decide (reservedSlots s < 256), slot := .writing }
  let s := if pktOp (p.words.getD 0 0) = opSetKey then
      setSlot (keyTarget p.words) { getSlot (keyTarget p.words) s with pending := pendingOf (wrapKey s) jsn p.words } s
    else s
  { s with jrn := { s.jrn with
      entries := s.jrn.entries ++ [e], nextJsn := jsn + 1, runs := s.jrn.runs ++ [newRun jsn list false] } }

/-- The buffer list is fetched before acceptance (04 R105). -/
def fetchList (ws : List Word) (s : State) : State :=
  if pktOp (ws.getD 0 0) = opWriteRecords ∨ pktOp (ws.getD 0 0) = opReadRecords then
    hostFetch (ws.getD 2 0).toNat (16 * bits (ws.getD 3 0) 0 17) s
  else s

/-- JOURNAL_TAKE (03 R72): one packet is taken, and dropped (R73), rejected (R60) or journaled (R75). Packets are taken
only after the reports of R436. -/
def execJournalTake (t : TakeInput) (s : State) : Out :=
  .next <|
    if !firmwareRuns s || !s.sys.toReport.isEmpty then s
    else
      match takePacket s with
      | (s, none) => s
      | (s, some (src, p)) =>
        let w0 := p.words.getD 0 0
        if src ≠ 65 ∧ !(getCq (pktCq w0) s).cfg.en then raise evCmdNoCq src (pktCid w0) s
        else
          match rejectStatus src p.words t s with
          | some st => rejectPacket src p.words st s
          | none => journalPacket src p (t.list.getD []) (fetchList p.words s)

/-- JOURNAL_ENTRY_DURABLE (03 R75, R80): the entry is valid and the acceptance completion is posted. -/
def execJournalEntryDurable (jsn : Nat) (s : State) : Out :=
  .next <|
    match findEntry s jsn with
    | none => s
    | some e =>
      if e.slot ≠ .writing then s
      else
        let s := setEntry jsn (fun e => { e with slot := .valid }) s
        let s := postAccepted e s
        let s := if entryOp e = opMeterStatement then setRun jsn (fun r => { r with done := s.mram.nextTsn - 1 }) s else s
        if e.source = 65 then
          raise evMgtPacketJournaled jsn
            (entryOp e + (if entryOp e = opDiag then diagFunction e.words else 0) * 256) s
        else s

/-- JOURNAL_SLOT_FREED (03 R76): the slot and its retire words are free, and commands that waited for a word end. -/
def execJournalSlotFreed (jsn : Nat) (s : State) : Out :=
  .next <|
    match findEntry s jsn with
    | none => s
    | some e =>
      if e.slot ≠ .freeing then s
      else
        let s := { s with jrn := { s.jrn with
          entries := s.jrn.entries.filter (·.jsn != jsn), retire := s.jrn.retire.filter (·.jsn != jsn) } }
        let s := { s with cmd := { s.cmd with
          fullRing := s.cmd.fullRing && e.reserved, fullRes := false } }
        retireWaiting (s.jrn.entries.map (·.jsn)) s

/-! ### Management port (17 R445, R446; 18 R453) -/

/-- A management message has arrived. -/
def mgtArrive (s : State) : State :=
  { s with mgt := { s.mgt with rxMsgs := sat64 s.mgt.rxMsgs 1, lastMsg := some s.aon.time } }

/-- MGT_MSG_DROPPED: message type, message code. -/
def mgtDrop (mtype code : Nat) (s : State) : State :=
  raise evMgtMsgDropped mtype code { s with mgt := { s.mgt with dropped := sat64 s.mgt.dropped 1 } }

/-- MANAGEMENT_PACKET (17 R446): a packet joins the port's queue, and a control core is needed (15 R395); a message
without packet words is dropped. -/
def execManagementPacket (words : List Word) (s : State) : Out :=
  .next <|
    let s := mgtArrive s
    if words.isEmpty then mgtDrop 0x7E 0x10 s
    else wakeNow { s with cmd := { s.cmd with mgtQueue := s.cmd.mgtQueue ++ [words.take 16] } }

/-- UNIT_REPORT (17 R445): a difference raises UNIT_STATE_CONFLICT and changes nothing. -/
def execUnitReport (unit state : Nat) (s : State) : Out :=
  .next <|
    let s := mgtArrive s
    if unitState unit s = state % 4 then s
    else raise evUnitStateConflict unit (unitState unit s + state % 4 * 4) s

/-- MGT_EID_ASSIGNED (18 Table 18-4). -/
def execMgtEidAssigned (eid dynAddr : Nat) (s : State) : Out :=
  .next <|
    let s := mgtArrive s
    raise evMgtEidAssigned eid dynAddr { s with mgt := { s.mgt with eid := some eid, dynAddr := some dynAddr } }

end Sys2Proof.Machine
end

