-- ==== Sys2Proof/Machine/Porter.lean ====
section
/-! DEFINITION. The Porter: pools, handles, ownership operations and the settle (14 R354-R362). -/

namespace Sys2Proof.Machine

/-- Bytes of a buffer of a pool (14 Table 14-4). -/
def bufBytes (p : Nat) : Nat := [4096, 65536, 1048576, 8388608].getD p 0

/-- Buffers of a pool, reserved ones included. -/
def poolCount (p : Nat) : Nat := [4096, 256, 5120, 128].getD p 0

/-- The smallest pool that serves a size (R354). -/
def poolFor (size : Nat) : Nat :=
  if size ≤ 4096 then 0 else if size ≤ 65536 then 1 else if size ≤ 1048576 then 2 else 3

/-- Sizes that a request may ask for (R354). -/
def sizeOk (size : Nat) : Bool := 1 ≤ size && size ≤ 8388608

/-- Class of an owner ID (14 Table 14-6). -/
def ownerClass (o : Nat) : Nat :=
  if 6 ≤ o ∧ o ≤ 10 then 0 else if o = 1 ∨ (3 ≤ o ∧ o ≤ 5) then 1 else 2

def getPool (p : Nat) (s : State) : Pool := s.prt.pools.getD p (.reset 0)

def setPool (p : Nat) (f : Pool → Pool) (s : State) : State :=
  { s with prt := { s.prt with pools := s.prt.pools.modify p f } }

def getBuf (p i : Nat) (s : State) : BufRec := tabGet .fresh (getPool p s).bufs i

def setBuf (p i : Nat) (b : BufRec) (s : State) : State :=
  setPool p (fun q => { q with bufs := tabSet .fresh i b q.bufs }) s

/-- The final owner of a buffer record. -/
def finalOwner (b : BufRec) : Nat := b.owners.getD b.final 0

/-- A buffer is not free: allocated, or freed and not yet back in its pool (R360). -/
def busyBuf (b : BufRec) : Bool := b.allocated || b.returning

def heldBy (p : Nat) (os : List Nat) (s : State) : Nat :=
  ((getPool p s).bufs.filter fun kv => busyBuf kv.2 && os.contains (finalOwner kv.2)).length

def usedBufs (p : Nat) (s : State) : Nat := ((getPool p s).bufs.filter fun kv => busyBuf kv.2).length

/-- Buffers of pool 3 reserved for the read path while a cartridge is loaded (10 R266). -/
def readReserve (s : State) : Nat := if s.cart.loaded then 16 else 0

/-- Reserved buffers of pool 3 that the write pipeline and the read path do not hold. -/
def writeSpare (s : State) : Nat := 8 - heldBy 3 [6, 8] s
def readSpare (s : State) : Nat := readReserve s - heldBy 3 [9] s

/-- Buffers of a pool that a request of an owner may take: a reserved one only for the formatter, verify and rewrite
or the read path, and never after a fallback (R354). -/
def takable (p owner : Nat) (fell : Bool) (s : State) : Nat :=
  let n := poolCount p - usedBufs p s
  if p < 3 then n
  else if !fell && (owner = 6 || owner = 8) then n - readSpare s
  else if !fell && owner = 9 then n - writeSpare s
  else n - (writeSpare s + readSpare s)

/-- FREE of PRT_POOL_n: free buffers, reserved ones excluded (14 Table 14-11). -/
def poolFree (p : Nat) (s : State) : Nat := takable p 0 true s

/-- The free buffer that a pool hands out: which one is open, so a free value picks it (log entry 4). -/
def freeIndex (p : Nat) (s : State) : Nat :=
  let free := (List.range (poolCount p)).filter fun i => !busyBuf (getBuf p i s)
  free.getD (Config.freeNat s.freeCount % free.length) 0

/-- GEN rises by 1 and skips 0 (R355). -/
def nextGen (g : Nat) : Nat := if g + 1 < 65536 then g + 1 else 1

/-- A buffer handle (14 Table 14-5). -/
def mkHandle (gen index pool epoch : Nat) : Word :=
  wd (gen + index * 2 ^ 16 + pool * 2 ^ 32 + epoch % 65536 * 2 ^ 34)

def hGen (h : Word) : Nat := bits h 0 16
def hIndex (h : Word) : Nat := bits h 16 16
def hPool (h : Word) : Nat := bits h 32 2
def hEpoch (h : Word) : Nat := bits h 34 16

/-- A buffer of a pool goes to an owner, its only and final one (R356). -/
def takeBuf (p owner : Nat) (s : State) : Word × State :=
  let i := freeIndex p s
  let g := nextGen (getBuf p i s).gen
  let s := setBuf p i { allocated := true, gen := g, owners := [owner], final := 0, returning := false } s
  let s := setPool p (fun q => { q with lastWin := q.lastWin.set (ownerClass owner) owner }) s
  let s := { s with prt := { s.prt with allocs := sat64 s.prt.allocs 1 } }
  (mkHandle g i p s.mram.prtEpoch, drawFree s)

/-- The pool from which a request is granted: its own, or the next larger ones in turn (R359). -/
def grantPool (owner own : Nat) (s : State) : Option Nat :=
  (List.range 4).find? fun p => own ≤ p && 1 ≤ takable p owner (own < p) s

/-- The request of one unit, met at once or not (R359); `none`: no buffer. -/
def porterTry (owner size : Nat) (s : State) : Option (Word × State) :=
  let own := poolFor size
  match grantPool owner own s with
  | some p =>
    let s := if own < p then { s with prt := { s.prt with fallbacks := sat64 s.prt.fallbacks 1 } } else s
    some (takeBuf p owner s)
  | none => none

/-- A request that no pool can meet, with WAIT = 0 (R359). -/
def noBuffer (owner size : Nat) (s : State) : State :=
  raise evPrtNoBuffer owner size { s with prt := { s.prt with noBuffer := sat64 s.prt.noBuffer 1 } }

/-- A refusal of a Porter operation (R357): event, log, count. -/
def refuse (caller oper reason : Nat) (h : Word) (s : State) : State :=
  let e : RefuseEntry :=
    { caller := caller, gen := hGen h, index := hIndex h, pool := hPool h, op := oper, reason := reason,
      valid := true }
  let s := { s with prt := { s.prt with refuseLog := s.prt.refuseLog.set s.prt.refusePtr e,
                                        refusePtr := (s.prt.refusePtr + 1) % 16,
                                        refusals := sat64 s.prt.refusals 1 } }
  raise evPrtRefused h.toNat (caller + oper * 2 ^ 8 + reason * 2 ^ 11) s

/-- A control core as caller. -/
def isCore (o : Nat) : Bool := 0x10 ≤ o && o ≤ 0x13

/-- PRT_FW_RESULT of a core's operation (14 Table 14-14). -/
def fwResult (o : Nat) (w : Nat) (s : State) : State :=
  if isCore o then { s with prt := { s.prt with fwResult := wd w } } else s

def fwHandle (o : Nat) (h : Word) (s : State) : State :=
  if isCore o then { s with prt := { s.prt with fwArg := h } } else s

/-- Is an owner listed after h's checks 1 and 2? The reason of the first check of Table 14-8 that fails; op 1 SHARE,
2 RELEASE, 3 TRANSFER, 4 FREE. -/
def refuseReason (op owner : Nat) (h : Word) (other : Nat) (s : State) : Option Nat :=
  let b := getBuf (hPool h) (hIndex h) s
  if hEpoch h ≠ s.mram.prtEpoch % 65536 ∨ poolCount (hPool h) ≤ hIndex h ∨ hGen h ≠ b.gen then some 1
  else if !b.allocated then some 2
  else if !b.owners.contains owner || (op = 3 && !b.owners.contains other) then some 3
  else if (op = 2 ∧ finalOwner b = owner) ∨ ((op = 3 ∨ op = 4) ∧ finalOwner b ≠ owner) then some 4
  else if op = 4 ∧ 1 < b.owners.length then some 5
  else if op = 1 ∧ b.owners.contains other then some 6
  else if op = 1 ∧ 8 ≤ b.owners.length then some 7
  else none

/-- The list without an owner, and the place of the final owner in it. -/
def dropOwner (o fin : Nat) (b : BufRec) : BufRec :=
  let l := b.owners.filter (· != o)
  { b with owners := l, final := (indexOf? (· == fin) l).getD 0 }

/-- The effect of an ownership operation that passed its checks (14 Table 14-7); a transfer to the caller itself leaves the
record as it is (DEDUCED, log entry 29). -/
def applyOwner (op owner : Nat) (h : Word) (other : Nat) (s : State) : State :=
  let b := getBuf (hPool h) (hIndex h) s
  let b' :=
    if op = 1 then { b with owners := b.owners ++ [other] }
    else if op = 2 then dropOwner owner (finalOwner b) b
    else if op = 3 then (if owner = other then b else dropOwner owner other b)
    else { b with allocated := false, owners := [], final := 0, returning := true }
  setBuf (hPool h) (hIndex h) b' s

/-- SHARE, RELEASE, TRANSFER or FREE by an owner (R356, R357). -/
def ownerOp (op owner : Nat) (h : Word) (other : Nat) (s : State) : State :=
  match refuseReason op owner h other s with
  | some r => fwResult owner (0x11 + 2 ^ 8 + r * 2 ^ 9) (refuse owner op r h s)
  | none => fwResult owner 0 (applyOwner op owner h other s)

/-- ALLOC (R354, R359): granted, waiting, NO_BUFFER, or refused for its size. -/
def allocOp (owner size : Nat) (wait : Bool) (s : State) : State :=
  if !sizeOk size then fwResult owner 0x11 (refuse owner 0 0 (wd size) s)
  else
    match porterTry owner size s with
    | some (h, s) => fwHandle owner h (fwResult owner 0 s)
    | none =>
      if wait then { s with prt := { s.prt with waiting := s.prt.waiting ++ [(owner, size)] } }
      else fwResult owner 0x30 (noBuffer owner size s)

/-! ### Settle (R360, R375) -/

/-- First granule of a buffer of an HBM pool (14 Table 14-3). -/
def bufGranule (p i : Nat) : Nat :=
  if p = 2 then 0x480000 + i * 256 else 0x440000 + i * 2048

/-- The bitmap bits of a freed HBM buffer are cleared (R375); its bytes read as zero again. -/
def clearBuffer (p i : Nat) (s : State) : State :=
  if p < 2 then s
  else
    let a := bufGranule p i
    let n := if p = 2 then 256 else 2048
    let out := fun g => !(decide (a ≤ g) && decide (g < a + n))
    { s with mem := { s.mem with
        written := s.mem.written.filter out
        hbm := s.mem.hbm.filter fun c => out (c.1 / 4096)
        hbmErr := s.mem.hbmErr.filter fun c => out (c.1 / 4096)
        hbmPoison := s.mem.hbmPoison.filter fun c => out (c / 4096) } }

/-- Buffers that return at a settle: (pool, index), in pool and index order. -/
def returns (s : State) : List (Nat × Nat) :=
  (List.range 4).flatMap fun p => ((getPool p s).bufs.filter fun kv => kv.2.returning).map fun kv => (p, kv.1)

def returnBuf (s : State) (pi : Nat × Nat) : State :=
  let s := clearBuffer pi.1 pi.2 s
  setBuf pi.1 pi.2 { getBuf pi.1 pi.2 s with returning := false } s

/-- The waiting request that a pool serves next: lowest class, then the first owner after the class's last winner in
ascending order with wrap-around (R359). -/
def better (p : Nat) (s : State) (a b : Nat × Nat) : Bool :=
  let rank := fun o => (o + 256 - ((getPool p s).lastWin.getD (ownerClass o) 0 + 1)) % 256
  if ownerClass a.1 ≠ ownerClass b.1 then ownerClass a.1 < ownerClass b.1 else rank a.1 < rank b.1

def nextWaiting (p : Nat) (s : State) : Option (Nat × Nat) :=
  let cand := s.prt.waiting.filter fun r => poolFor r.2 ≤ p && 1 ≤ takable p r.1 (poolFor r.2 < p) s
  cand.foldl (fun best r => match best with
    | none => some r
    | some b => if better p s r b then some r else some b) none

/-- One waiting request is served, from the smallest pool that can serve one. -/
def serveOne (s : State) : State :=
  match (List.range 4).findSome? fun p => (nextWaiting p s).map fun r => (p, r) with
  | none => s
  | some (p, r) =>
    let s := { s with prt := { s.prt with waiting := s.prt.waiting.erase r } }
    let s := if poolFor r.2 < p then { s with prt := { s.prt with fallbacks := sat64 s.prt.fallbacks 1 } } else s
    let (h, s) := takeBuf p r.1 s
    fwHandle r.1 h (fwResult r.1 0 s)

def serveWaiting : Nat → State → State
  | 0, s => s
  | n + 1, s => serveWaiting n (serveOne s)

/-- Levels of a pool are published; PRT_POOL_LOW when FREE falls below LOW (14 Table 14-11). -/
def publishPool (s : State) (p : Nat) : State :=
  let f := poolFree p s
  let old := getPool p s
  let s := setPool p (fun q => { q with free := f, minFree := min q.minFree f }) s
  if old.low ≠ 0 ∧ f < old.low ∧ old.low ≤ old.free then raise evPrtPoolLow p f s else s

/-- The Porter settle: at most 2,000 freed buffers return, waiting requests are served, the levels are published. -/
def porterSettle (s : State) : State :=
  let rs := returns s
  let s := (rs.take 2000).foldl returnBuf s
  let s := { s with prt := { s.prt with carry := decide (2000 < rs.length) } }
  (List.range 4).foldl publishPool (serveWaiting s.prt.waiting.length s)

/-! ### Meanings -/

/-- ALLOC (14 R359). -/
def execAlloc (owner size : Nat) (wait : Bool) (s : State) : Out := .next (allocOp owner size wait s)

/-- SHARE (14 R356). -/
def execShare (owner : Nat) (h : Word) (new : Nat) (s : State) : Out := .next (ownerOp 1 owner h new s)

/-- RELEASE (14 R356). -/
def execRelease (owner : Nat) (h : Word) (s : State) : Out := .next (ownerOp 2 owner h 0 s)

/-- TRANSFER (14 R356). -/
def execTransfer (owner : Nat) (h : Word) (dest : Nat) (s : State) : Out := .next (ownerOp 3 owner h dest s)

/-- FREE (14 R356). -/
def execFree (owner : Nat) (h : Word) (s : State) : Out := .next (ownerOp 4 owner h 0 s)

end Sys2Proof.Machine
end

