-- ==== Sys2Proof/Machine/Context.lean ====
section
/-! DEFINITION. The start of a command: order among commands, the context cache (04 R93-R95, R116); OPEN_CONTEXT,
CLOSE_CONTEXT, SET_CONTEXT_PROFILE (04 R96-R100), READ_OVERFLOW (05 R140). -/

namespace Sys2Proof.Machine

/-! ### Context records -/

def getCtx (n : Nat) (s : State) : Context := tabGet .zero s.ctx.records n

def setCtx (n : Nat) (f : Context → Context) (s : State) : State :=
  { s with ctx := { s.ctx with records := tabUpd .zero n f s.ctx.records } }

/-! ### Order of starts (04 R95, R116) -/

/-- A write command or SYNC. -/
def isWriteLike (e : JournalEntry) : Bool := isWriteOp (entryOp e) || entryOp e == opSync

/-- A write command without a run ends: its DURABLE event comes first (01 R27, 09 R250; log entry 19), RESULT0 is its durable
count (R29) and RESULT1 its first item's number, or the end of data (04 R107). -/
def endWriteAt (e : JournalEntry) (st r1 : Nat) (s : State) : State :=
  let n := (findRun s e.jsn).elim 0 (·.done)
  endWith e.jsn st n r1 (raise evDurable e.jsn n s)

def endWrite (e : JournalEntry) (st : Nat) (s : State) : State :=
  endWriteAt e st (((findRun s e.jsn).bind (·.first)).getD (s.fmt.durableEnd.getD (getCtx (entryCtx e) s).partition 0)) s

/-- Commands that wait by themselves for the durability of the writes before them, or overlap with them (04 R97, R98,
R99, R108; 06 R161). -/
def overlapsWrites (e : JournalEntry) : Bool :=
  isWriteLike e || entryOp e == opOpenContext || entryOp e == opCloseContext || entryOp e == opSetProfile
    || entryOp e == opSetKey

/-- Has an earlier unended command x, at the phase of its run, reached the point at which e may start? -/
def startBlocked (e x : JournalEntry) (p : RunPhase) : Bool :=
  (namesCtx x && namesCtx e && entryCtx x == entryCtx e
      && !(isWriteLike x && decide (p = .started) && overlapsWrites e))
    || (isMotion e && (isMotion x || isWriteOp (entryOp x)))
    || (isWriteOp (entryOp e) && isMotion x)

/-- An earlier command in journal order holds back the start of e. -/
def mustWait (e : JournalEntry) (s : State) : Bool :=
  s.jrn.entries.any fun x => x.jsn < e.jsn && (match findRun s x.jsn with
    | some r => startBlocked e x r.phase
    | none => false)

/-- An earlier accepted write command has not ended: all of them, or those of one context (04 R97, R98, R108). -/
def writesOpen (ctx : Option Nat) (jsn : Nat) (s : State) : Bool :=
  s.jrn.entries.any fun x => x.jsn < jsn && isWriteOp (entryOp x) && (findRun s x.jsn).isSome
    && (match ctx with
      | some c => entryCtx x == c
      | none => true)

/-! ### The context cache (04 R93, R94) -/

def pinned (c : Nat) (s : State) : Bool := s.ctx.pins.any (·.2 == c)

/-- The lines after the least recently used one that is not pinned has gone, or none when all are pinned. -/
def evictLine (s : State) : Option (List Nat) :=
  if s.ctx.lines.length < 4096 then some s.ctx.lines
  else
    match s.ctx.lines.reverse.find? fun c => !pinned c s with
    | some c => some (s.ctx.lines.filter (· != c))
    | none => none

/-- A context is used: its line moves to the front and the command pins it. -/
def touchLine (c : Nat) (s : State) : State :=
  { s with ctx := { s.ctx with lines := c :: s.ctx.lines.filter (· != c) } }

def addPin (jsn c : Nat) (s : State) : State :=
  { s with ctx := { s.ctx with
    pins := if pinned c s then s.ctx.pins else s.ctx.pins ++ [(jsn, c)]
    waiting := s.ctx.waiting.filter (· != jsn) } }

/-- A line is found for the context of a command that starts; none: it waits under R94. -/
def pinCtx (jsn c : Nat) (s : State) : Option State :=
  if s.ctx.lines.contains c then some (addPin jsn c (touchLine c s))
  else if s.ctx.waiting.any (· < jsn) then none
  else
    match evictLine s with
    | none => none
    | some l =>
      let s := { s with ctx := { s.ctx with lines := l, misses := satAdd (2 ^ 32 - 1) s.ctx.misses 1 } }
      some (addPin jsn c (touchLine c s))

/-- A command begins to wait for a line: CTX_CACHE_WAIT once (R94). -/
def cacheWait (jsn c : Nat) (s : State) : State :=
  let s := waitRun jsn s
  if s.ctx.waiting.contains jsn then s
  else raise evCtxCacheWait jsn c { s with ctx := { s.ctx with waiting := s.ctx.waiting ++ [jsn] } }

/-- Statuses of R100: does the opcode need its context open? -/
def needsOpen (o : Nat) : Bool :=
  o == opRewind || o == opLocate || o == opSpace || o == opSetProfile || isWriteOp o || o == opSync || o == opReadRecords

/-- READ_RECORDS, VERIFY_RANGE, READ_OVERFLOW. -/
def isReadLike (e : JournalEntry) : Bool :=
  entryOp e == opReadRecords || entryOp e == opVerifyRange || entryOp e == opReadOverflow

/-- A command ends before its effect, or where it stands: a write reports its durable count (R107), REWIND, LOCATE and SPACE
their POSITION and SPACE no item (R114, R115), LOAD and UNLOAD RESULT1 0 (R113), a read nothing delivered. -/
def endEarly (e : JournalEntry) (st : Nat) (s : State) : State :=
  let o := entryOp e
  let pos := (getCtx (entryCtx e) s).position
  if isWriteLike e then endWrite e st s
  else if o = opSpace then endWith e.jsn st 0 pos s
  else if o = opRewind ∨ o = opLocate then endR1 e.jsn st pos s
  else if o = opLoad ∨ o = opUnload then endR1 e.jsn st 0 s
  else if isReadLike e then endR0 e.jsn st 0 s
  else endBare e.jsn st s

/-- A command that meets a closed context (R100). -/
def notOpen (e : JournalEntry) (s : State) : State := endEarly e stContextNotOpen s

/-! ### Host buffers of a command (02 R46, R57) -/

/-- Bytes of the buffers that a packet's own words name. -/
def packetRanges (ws : List Word) : List (Nat × Nat) :=
  let w1 := ws.getD 1 0
  let w2 := ws.getD 2 0
  let w3 := ws.getD 3 0
  let w4 := ws.getD 4 0
  let ex := pktExpert (ws.getD 0 0)
  match pktOp (ws.getD 0 0) with
  | 0x02 => [(w1.toNat, 4096)]
  | 0x38 => [(w4.toNat, 16 * bits w1 32 32)]
  | 0x39 => if ex then [(w2.toNat, bits w3 0 32)] else []
  | 0x3A => [(w2.toNat, bits w3 0 32)]
  | 0x40 => [(w1.toNat, bits w2 8 24)]
  | 0x48 => [(w1.toNat, ledgerEntryBytes * if ex then bits w3 0 13 else 1)]
  | 0x49 => [(w1.toNat, statementBytes (if ex then bits w2 16 13 else 4096))]
  | 0x63 => [(w2.toNat, 32 * bits w3 0 24)]
  | 0x70 => [(w1.toNat, bits w2 0 32)]
  | 0x72 => [(w1.toNat, bits w2 0 32), (w3.toNat, bits w4 0 32)]
  | 0x78 => [(w3.toNat, 256)]
  | 0x79 => [(w2.toNat, bits w1 16 15)]
  | 0x7B => [(w1.toNat, 1040)]
  | 0x7D => [(w2.toNat, [11520, 9216, 8].getD (bits w1 6 2) 0 * bits w3 0 8)]
  | 0x7E => [(w1.toNat, 1080), (w2.toNat, 72)]
  | _ => []

/-- Host buffers that a command transfers data to or from, those of a buffer list of records to be written left out. -/
def hostRanges (e : JournalEntry) (r : RunInfo) : List (Nat × Nat) :=
  (packetRanges e.words ++ if entryOp e = opReadRecords then r.list.map fun x => (x.address, x.length) else []).filter (·.2 != 0)

/-- Buffers that the command reads: PKR_ESTIMATE, PKR_DECODE, FMT_CM_ACCESS that writes, TEC_C1_ENCODE. -/
def fetchRanges (e : JournalEntry) : List (Nat × Nat) :=
  let o := entryOp e
  if o = 0x70 ∨ o = 0x72 ∨ o = 0x7E ∨ (o = 0x79 ∧ bitAt (pktWord e 1) 32) then (packetRanges e.words).take 1 else []

def fetchHost (e : JournalEntry) (s : State) : State := (fetchRanges e).foldl (fun s p => hostFetch p.1 p.2 s) s

/-- The command's own effect with its host buffers at hand: it ends with INTERNAL_FAULT when one of them translates no more
(02 R46). -/
def withHost (e : JournalEntry) (r : RunInfo) (s : State) (k : JournalEntry → RunInfo → State → State) : State :=
  if (hostRanges e r).all fun p => translates p.1 p.2 s then k e r (fetchHost e s) else endEarly e stInternalFault s

/-- The command must wait for host memory to be within reach (02 R53, R57). -/
def awaitsHost (e : JournalEntry) (r : RunInfo) (s : State) : Bool := !(hostRanges e r).isEmpty && !hostReachable s

/-- A command starts: order (R95, R116), host memory, the context's line (R93, R94), the context's state (R100). -/
def onBegin (op jsn : Nat) (s : State) (k : JournalEntry → RunInfo → State → State) : State :=
  onCommand op jsn s fun e r s =>
    if mustWait e s || awaitsHost e r s then waitRun jsn s
    else if !namesCtx e then withHost e r s k
    else
      match pinCtx jsn (entryCtx e) s with
      | none => cacheWait jsn (entryCtx e) s
      | some s => if needsOpen op && !(getCtx (entryCtx e) s).isOpen then notOpen e s else withHost e r s k

/-! ### Chained buffers and DICT_HANDLE (05 R130, R139) -/

/-- A Porter buffer goes back to its pool, when the handle names one. -/
def freeBuffer (owner : Nat) (h : Word) (s : State) : State := if h = 0 then s else ownerOp 4 owner h 0 s

def dropChained (c : Chained) (s : State) : State :=
  let s := { s with pkr := { s.pkr with chained := s.pkr.chained.filter (·.handle != c.handle) } }
  c.bufs.foldl (fun s h => freeBuffer 4 h s) s

def dropChainedOf (ctx : Nat) (s : State) : State :=
  (s.pkr.chained.filter (·.ctx == ctx)).foldl (fun s c => dropChained c s) s

/-- DICT_HANDLE is released to the Porter. -/
def dropDict (ctx : Nat) (s : State) : State :=
  let h := (getCtx ctx s).dict
  let s := setCtx ctx (fun c => { c with dict := 0 }) s
  freeBuffer 3 h { s with pkr := { s.pkr with history := s.pkr.history.filter (·.1 != ctx) } }

/-! ### OPEN_CONTEXT, CLOSE_CONTEXT, SET_CONTEXT_PROFILE -/

/-- T4 compatibility mode limits a level to 6 (04 R117). -/
def capLevel (l : Nat) (s : State) : Nat := if s.cmd.compatActive then min l 6 else l

/-- LEVEL and DICT_PERSIST that an OPEN_CONTEXT sets. -/
def openProfile (e : JournalEntry) (s : State) : Nat × Bool :=
  if entryExpert e then (capLevel (bits (pktWord e 2) 0 4) s, bitAt (pktWord e 2) 4) else (3, false)

/-- The context as R96 opens it. -/
def openCtx (e : JournalEntry) (s : State) : State :=
  let p := openProfile e s
  setCtx (entryCtx e) (fun c => { c with
    isOpen := true, tenant := bits (pktWord e 1) 32 12, partition := bits (pktWord e 1) 20 2, position := 0,
    itemsWritten := 0, bytesWritten := 0, level := p.1, persist := p.2 }) s

/-- OPEN_CONTEXT (04 R96, R97). -/
def execOpenContext (jsn : Nat) (s : State) : Out :=
  .next <| onBegin opOpenContext jsn s fun e _ s =>
    let c := entryCtx e
    if (getCtx c s).isOpen then
      if writesOpen (some c) jsn s then waitRun jsn s
      else endR0 jsn stOk 1 (openCtx e (dropDict c (dropChainedOf c s)))
    else endR0 jsn stOk 0 (openCtx e s)

/-- RESET_RECORD of CLOSE_CONTEXT. -/
def resetRecord (e : JournalEntry) : Bool := entryExpert e && bitAt (pktWord e 2) 0

/-- The context as R98 closes it. -/
def closeCtx (e : JournalEntry) (s : State) : State :=
  setCtx (entryCtx e) (fun c =>
    if resetRecord e then
      { c with isOpen := false, level := 3, persist := false, tenant := 0, partition := 0, position := 0 }
    else { c with isOpen := false }) s

/-- CLOSE_CONTEXT (04 R98). -/
def execCloseContext (jsn : Nat) (s : State) : Out :=
  .next <| onBegin opCloseContext jsn s fun e _ s =>
    let c := entryCtx e
    if writesOpen (some c) jsn s then waitRun jsn s
    else if !(getCtx c s).isOpen then endBare jsn stOk s
    else endBare jsn stOk (closeCtx e (dropDict c (dropChainedOf c s)))

/-- The profile that SET_CONTEXT_PROFILE sets: LEVEL, and in the expert form DICT_PERSIST. -/
def profileCtx (e : JournalEntry) (s : State) : State :=
  setCtx (entryCtx e) (fun x => { x with
    level := capLevel (bits (pktWord e 1) 20 4) s
    persist := if entryExpert e then bitAt (pktWord e 2) 0 else x.persist }) s

/-- SET_CONTEXT_PROFILE (04 R99, R117, 05 R130): without DICT_PERSIST the history is let go. -/
def execSetContextProfile (jsn : Nat) (s : State) : Out :=
  .next <| onBegin opSetProfile jsn s fun e _ s =>
    let s := profileCtx e s
    endBare jsn stOk (if entryExpert e && !bitAt (pktWord e 2) 0 then dropDict (entryCtx e) s else s)

/-! ### READ_OVERFLOW (05 R137-R140, 06 R169) -/

/-- A flagged range meets the bytes from a to a + n - 1 of a chained buffer. -/
def meetsBad (bad : List (Nat × Nat)) (a n : Nat) : Bool := bad.any fun b => b.1 < a + n && a < b.1 + b.2

/-- Ranges after the first n bytes have gone. -/
def shiftBad (bad : List (Nat × Nat)) (n : Nat) : List (Nat × Nat) :=
  (bad.filter fun b => n < b.1 + b.2).map fun b => (b.1 - n, b.1 + b.2 - max n b.1)

/-- The next n bytes of a chained buffer go to host memory behind the `done` bytes before them, and the read point advances;
untrusted bytes among them set the UNTRUSTED bit (06 R173). -/
def overflowBytes (e : JournalEntry) (c : Chained) (done n : Nat) (s : State) : State :=
  let s := if n = 0 then s else hostStore ((pktWord e 2).toNat + done) (c.bytes.take n) s
  let c' := { c with bytes := c.bytes.drop n, bad := shiftBad c.bad n, taken := c.taken + n, sound := c.sound.map (· - n) }
  let s := { s with pkr := { s.pkr with chained := s.pkr.chained.map fun x => if x.handle = c.handle then c' else x } }
  if meetsBad c.bad 0 n then setRun e.jsn (fun r => { r with untrusted := true }) s else s

/-- Bytes of a chained buffer that can be read. -/
def soundBytes (c : Chained) : Nat := (c.sound.getD c.bytes.length).min c.bytes.length

/-- READ_OVERFLOW (05 R140): a transfer of untrusted bytes keeps its status. At a poisoned word it stops with INTERNAL_FAULT, and the
chain is released (14 Table 14-9). -/
def readOverflow (e : JournalEntry) (c : Chained) (done : Nat) (s : State) : State :=
  let want := min (bits (pktWord e 3) 0 32 - done) c.bytes.length
  let n := min want (soundBytes c)
  let left := c.bytes.length - n
  let s := overflowBytes e c done n s
  if n < want then endR0 e.jsn stInternalFault (done + n) (dropChained c s)
  else
  let s := if left = 0 ∨ bitAt (pktWord e 3) 32 then dropChained c s else s
  endWith e.jsn stOk (done + n) (left + boolNat c.truncated * 2 ^ 63) s

/-- A part of the transfer has been made: some bytes are left of it (03 Table 3-10a). -/
def overflowPart (e : JournalEntry) (c : Chained) (done part : Nat) (s : State) : State :=
  let n := min (min (bits (pktWord e 3) 0 32) part - done) (soundBytes c)
  setRun e.jsn (fun r => { r with done := done + n }) (overflowBytes e c done n (startRun e.jsn s))

/-- READ_OVERFLOW (05 R140). -/
def execReadOverflow (jsn : Nat) (part : Option Nat) (s : State) : Out :=
  let go := fun (e : JournalEntry) (r : RunInfo) (s : State) =>
    match s.pkr.chained.find? fun c => c.handle == pktWord e 1 with
    | none => endWith jsn stEndOfData 0 0 s
    | some c => match part with
      | some n => overflowPart e c r.done n s
      | none => readOverflow e c r.done s
  .next <| match started opReadOverflow jsn s with
    | some (e, r) => go e r s
    | none => onBegin opReadOverflow jsn s fun e r s => go e { r with done := 0 } s

end Sys2Proof.Machine
end

