-- ==== Sys2Proof/Machine/Memory.lean ====
section
/-! DEFINITION. Protected memory: the HBM and SRAM codes, reads, writes and merges, the granule bitmap, poison, the
error tables, pseudo-channel failure (14 R351-R353, R363-R376) and the HDM window over it (02 R38-R44). -/

namespace Sys2Proof.Machine

/-- The canonical form of HBM and SRAM: addresses strictly rising and no entry equal to what an unlisted address reads as
(zero, 14 R374), so that equal memories are equal data. -/
def Memory.wf (m : Mem) : Bool :=
  tabWf 0 m.hbm && tabWf 0 m.sram && risingFrom 0 m.written && risingFrom 0 m.hbmPoison && risingFrom 0 m.sramPoison
    && tabWf 0 m.hbmErr && tabWf 0 m.sramErr

/-! ### GF(2^8), polynomial 0x11D -/

def gfDouble (a : Nat) : Nat := if 128 ≤ a then (a * 2 % 256) ^^^ 0x1D else a * 2

def gfMulFrom : Nat → Nat → Nat → Nat → Nat
  | 0, _, _, acc => acc
  | n + 1, a, b, acc => gfMulFrom n (gfDouble a) (b / 2) (if b % 2 = 1 then acc ^^^ a else acc)

/-- Product in GF(2^8). -/
def gfMul (a b : Nat) : Nat := gfMulFrom 8 a b 0

/-- The powers of the field's generator 0x02. -/
def gfPow : Nat → Nat
  | 0 => 1
  | n + 1 => gfDouble (gfPow n)

/-! ### The HBM code (R364): RS(36,33), symbol i at z^(35 - i) -/

def errSymbol (e : BitVec 288) (i : Nat) : Nat := bitsN e.toNat (8 * i) 8

/-- Syndrome k of an error pattern: the code is linear, so the codeword adds nothing to it. -/
def hbmSyndrome (k : Nat) (e : BitVec 288) : Nat :=
  (List.range 36).foldl (fun acc i => gfMul acc (gfPow k) ^^^ errSymbol e i) 0

inductive Decoded where
  /-- Syndrome 0: the word as stored. -/
  | clean
  /-- Symbol or bit position corrected, and what was XORed into it. -/
  | corrected (pos val : Nat)
  | uncorrectable
  deriving DecidableEq, Repr

/-- What a read of an HBM word with an error pattern comes to: one symbol corrected, two detected. -/
def hbmDecode (e : BitVec 288) : Decoded :=
  let s0 := hbmSyndrome 0 e
  let s1 := hbmSyndrome 1 e
  let s2 := hbmSyndrome 2 e
  if s0 = 0 ∧ s1 = 0 ∧ s2 = 0 then .clean
  else
    match (List.range 36).find? fun i => s0 != 0 && gfMul s0 (gfPow (35 - i)) == s1 && gfMul s1 (gfPow (35 - i)) == s2 with
    | some i => .corrected i s0
    | none => .uncorrectable

/-- What is left of an error pattern after the correction. -/
def residue (e : BitVec 288) : Decoded → BitVec 288
  | .corrected i v => e ^^^ BitVec.ofNat 288 (v * 2 ^ (8 * i))
  | _ => e

/-- Ones of a number. -/
def popcount : Nat → Nat → Nat
  | 0, _ => 0
  | n + 1, x => x % 2 + popcount n (x / 2)

/-- What a read of an SRAM word with an error pattern comes to (R363): one bit is corrected and two are detected
whatever the odd-weight columns are; for more bits, and for the complemented check bits of a poisoned word, R363 says
uncorrectable in the second case, and the columns, which are open, decide the first: a free value. -/
def sramDecode (poison : Bool) (e : BitVec 72) : Decoded :=
  let w := popcount 72 e.toNat
  if poison then .uncorrectable
  else if w = 0 then .clean
  else if w = 1 then .corrected (Nat.log2 e.toNat) 1
  else if w = 2 then .uncorrectable
  else
    let r := Config.freeNat e.toNat % 74
    if r = 73 then .uncorrectable else if r = 72 then .clean else .corrected r 1

/-! ### Addresses -/

/-- The pseudo-channel of a DPA (R352). -/
def pcOf (a : Nat) : Nat := a / 4096 % 32

def granuleOf (a : Nat) : Nat := a / 4096
def hbmWordOf (a : Nat) : Nat := a / 32 * 32
def sramWordOf (a : Nat) : Nat := a / 8 * 8

/-- DPAs that the HBM has (R352). -/
def hbmLimit : Nat := 0x600000000

/-- Granules of the system region, of its mirror, of the spare region (14 Table 14-3). -/
def sysGranule (g : Nat) : Bool := 0x400000 ≤ g && g < 0x420000
def mirrorGranule (g : Nat) : Bool := 0x420000 ≤ g && g < 0x440000
def spareGranule (g : Nat) : Bool := 0x5C0000 ≤ g

/-- The second copy of a word of the system region (R353). -/
def mirrorAddr (a : Nat) : Nat := 0x420000000 + (a - 0x400000000 + 0x10000) % 0x20000000

def isWritten (a : Nat) (s : State) : Bool := s.mem.written.contains (granuleOf a)

/-! ### Error tables (R365) -/

/-- Class codes of events and of the flip group: 1 SRAM, 2 HBM. -/
abbrev clsSram : Nat := 1
abbrev clsHbm : Nat := 2

def tableOf (cls : Nat) (s : State) : List ErrEntry := if cls = clsSram then s.mem.sramTab else s.mem.hbmTab

def setTable (cls : Nat) (t : List ErrEntry) (s : State) : State :=
  if cls = clsSram then { s with mem := { s.mem with sramTab := t } } else { s with mem := { s.mem with hbmTab := t } }

def overTable (cls : Nat) (s : State) : State :=
  if cls = clsSram then { s with mem := { s.mem with sramOver := satAdd (2 ^ 32 - 1) s.mem.sramOver 1 } }
  else { s with mem := { s.mem with hbmOver := satAdd (2 ^ 32 - 1) s.mem.hbmOver 1 } }

/-- An error at a word address is logged: KIND 1 correctable, 2 uncorrectable, 3 poison merge. -/
def logError (cls addr pos kind : Nat) (s : State) : State :=
  let t := tableOf cls s
  if t.any (·.address == addr) then
    setTable cls (t.map fun e => if e.address = addr then { e with repeats := satAdd 65535 e.repeats 1 } else e) s
  else if t.length < 32 then
    let e : ErrEntry :=
      { address := addr, position := pos, kind := kind, repeats := 0, tick := s.sys.tickCount.toNat % 2 ^ 32 }
    let s := setTable cls (t ++ [e]) s
    if kind = 1 then raise evMemCe addr cls s else s
  else overTable cls s

/-! ### Write commands that a memory fault ends -/

/-- Every write command at work is to end with a status once its durable items are settled (01 R29). -/
def failWrites (st : Nat) (s : State) : State :=
  { s with fmt := { s.fmt with writes := s.fmt.writes.map fun w =>
      if w.ending.isNone then { w with ending := some (st, none) } else w } }

/-! ### Flips (R376) -/

/-- The armed mask, when a write of the whole codeword at an address takes it. -/
def flipHit (cls addr : Nat) (s : State) : Bool :=
  s.mem.armed && s.mem.flip.cls == cls && (!s.mem.flip.isMatch || s.mem.flip.addr == addr)

def flipMask (s : State) : Nat :=
  (List.range 5).foldl (fun acc i => acc + (s.mem.flip.masks.getD i 0).toNat * 2 ^ (64 * i)) 0

/-- After the flipped write: ARMED clears, the address is held, MEM_FLIP_DONE. -/
def flipDone (cls addr : Nat) (s : State) : State :=
  raise evMemFlipDone addr cls { s with mem := { s.mem with armed := false, flipDone := addr % 2 ^ 38 } }

/-! ### HBM words -/

/-- The 32 bytes that a word holds as written. -/
def hbmBytes (a : Nat) (s : State) : List Byte := (List.range 32).map fun i => tabGet 0 s.mem.hbm (a + i)

def putBytes (a : Nat) (l : List Byte) (m : List Host.Cell) : List Host.Cell :=
  (l.zipIdx.foldl (fun m p => tabSet 0 (a + p.2) p.1 m) m : Table Byte)

/-- A whole codeword is written to a word of a written granule (R366, R376). -/
def hbmPut (a : Nat) (l : List Byte) (poison : Bool) (s : State) : State :=
  let hit := flipHit clsHbm a s
  let e : BitVec 288 := if hit then BitVec.ofNat 288 (flipMask s) else 0
  let s := { s with mem := { s.mem with
    hbm := putBytes a l s.mem.hbm
    hbmErr := tabSet 0 a e s.mem.hbmErr
    hbmPoison := if poison then insertNat a s.mem.hbmPoison else s.mem.hbmPoison.filter (· != a) } }
  if hit then flipDone clsHbm a s else s

/-- The first write to a granule fills it with zero words first (R374); of the fill's words only one that a flip
takes is told from an unwritten one. -/
def fillGranule (a : Nat) (s : State) : State :=
  if isWritten a s then s
  else
    let g := granuleOf a
    let w := if s.mem.flip.isMatch then s.mem.flip.addr else g * 4096
    let s := if granuleOf w = g ∧ flipHit clsHbm w s then hbmPut w (List.replicate 32 0) false s else s
    { s with mem := { s.mem with written := insertNat g s.mem.written } }

/-- A word of HBM is written whole; the system region is written twice (R353). -/
def hbmWrite (a : Nat) (l : List Byte) (s : State) : State :=
  let s := hbmPut a l false (fillGranule a s)
  if sysGranule (granuleOf a) then hbmPut (mirrorAddr a) l false (fillGranule (mirrorAddr a) s) else s

/-- Corrected reads of a pseudo-channel within the last second, after one more now (18 Table 18-4, R370). -/
def pcCorrected (pc : Nat) (s : State) : State :=
  let now := s.aon.time
  let l := s.mem.pcTimes.filter (fun p => !passedMs p.2 now 1000) ++ [(pc, now)]
  let n := (l.filter (·.1 == pc)).length
  let s := { s with mem := { s.mem with
    pcTimes := l, pcCounts := tabUpd 0 pc (satAdd (2 ^ 32 - 1) 1) s.mem.pcCounts } }
  if n = 1024 then raise (evPcCe pc) pc n s else s

/-- Words of a granule. -/
def granuleWords (g : Nat) : List Nat := (List.range 128).map fun i => g * 4096 + 32 * i

/-- A pseudo-channel is retired: its written granules outside the system region and its mirror are filled with poisoned words,
and those of the system region are rebuilt (R371); what was wrong in the cells left behind is gone. -/
def pcRetire (pc : Nat) (s : State) : State :=
  let lost := s.mem.written.filter fun g => g % 32 == pc && !sysGranule g && !mirrorGranule g && !spareGranule g
  let words := lost.flatMap granuleWords
  let s := { s with mem := { s.mem with
    retiredPc := some pc, remapPc := some pc, retrainPc := none, poolsLost := some pc
    hbmPoison := words.foldl (fun l a => insertNat a l) s.mem.hbmPoison
    hbmErr := s.mem.hbmErr.filter fun c => pcOf c.1 != pc } }
  raiseP evMemPcRetired pc (setUnit unHbm 0 0 s)

/-- A second pseudo-channel is lasting (R372). -/
def memDegraded (addr : Nat) (s : State) : State :=
  let s := { s with mem := { s.mem with degraded := true, retrainPc := none } }
  failWrites stUnitDegraded (raise evMemDegraded addr clsHbm (setUnit unHbm 2 0 s))

/-- A pseudo-channel is lasting: the first is retired, a second is not. -/
def pcLasting (pc addr : Nat) (s : State) : State :=
  if s.mem.retiredPc.isNone && s.mem.remapPc.isNone then pcRetire pc s else memDegraded addr s

/-- A pseudo-channel is failing (R370, R371). -/
def pcFailing (a : Nat) (s : State) : State :=
  let pc := pcOf a
  if s.mem.remapPc = some pc ∨ s.mem.retrainPc.isSome ∨ s.mem.degraded then s
  else
    let t := tabGet 0 s.mem.retrainAt pc
    if t ≠ 0 ∧ !passedMs (t - 1) s.aon.time 10000 then pcLasting pc a s
    else setUnit unHbm 1 0 { s with mem := { s.mem with retrainPc := some pc, retrainAddr := a } }

/-- How a read of a word ended. -/
inductive ReadKind where
  | good | poisoned | bad
  deriving DecidableEq, Repr

/-- The bytes of a word under a residue of its error pattern. -/
def xorBytes (l : List Byte) (e : BitVec 288) : List Byte :=
  l.zipIdx.map fun p => p.1 ^^^ BitVec.ofNat 8 (errSymbol e p.2)

/-- An uncorrectable HBM word is counted and logged (R365, R367); it makes the pseudo-channel failing, and the word is
written poisoned (R370). -/
def lostWord (a : Nat) (l : List Byte) (poison : Bool) (s : State) : State :=
  let s := { s with mem := { s.mem with hbmUe := sat64 s.mem.hbmUe 1 } }
  let s := logError clsHbm a (Config.freeNat s.freeCount % 256) 2 (drawFree s)
  let s := raise evMemUe a clsHbm s
  if poison then s else pcFailing a (hbmPut a l true s)

/-- A corrected HBM word is counted and logged (R365, R367), and 65,536 of a pseudo-channel within one second make
it failing. -/
def fixedWord (a i : Nat) (s : State) : State :=
  let s := { s with mem := { s.mem with hbmCe := sat64 s.mem.hbmCe 1 } }
  let s := pcCorrected (pcOf a) (logError clsHbm a i 1 s)
  if 65536 ≤ (s.mem.pcTimes.filter (·.1 == pcOf a)).length then pcFailing a s else s

/-- One read of one stored HBM word through its code. -/
def hbmReadCopy (a : Nat) (s : State) : ReadKind × List Byte × State :=
  if !isWritten a s then (.good, List.replicate 32 0, s)
  else
    let e := tabGet 0 s.mem.hbmErr a
    let poison := s.mem.hbmPoison.contains a
    let d := hbmDecode e
    let r := residue e d
    let l := xorBytes (hbmBytes a s) r
    let marked := poison != r.getLsbD 256
    match d with
    | .uncorrectable => (.bad, l, lostWord a l poison s)
    | .corrected i _ => (if marked then .poisoned else .good, l, fixedWord a i s)
    | .clean => (if marked then .poisoned else .good, l, s)

/-- Commands that name a context whose record word is lost end with INTERNAL_FAULT (R353). -/
def mirrorLost (a : Nat) (s : State) : State :=
  let ctx := (a - 0x400000000) / 256
  let hit := s.fmt.writes.map fun w =>
    if w.ctx = ctx ∧ w.ending.isNone then { w with ending := some (stInternalFault, none) } else w
  let names := s.jrn.runs.filter fun r => match findEntry s r.jsn with
    | some e => 0x20 ≤ entryOp e && entryOp e ≤ 0x3A && bits (pktWord e 1) 0 32 == ctx && decide (r.phase ≠ .unretired)
        && !(entryOp e == opWriteRecords || entryOp e == opWriteFilemarks)
    | none => false
  let s := raise evMemMirrorLost a clsHbm { s with fmt := { s.fmt with writes := hit } }
  if a < 0x404000000 then names.foldl (fun s r => endWith r.jsn stInternalFault 0 0 s) s else s

/-- A read of an HBM word: the system region takes its second copy when the first is uncorrectable, and rewrites the
first from it (R353). -/
def hbmRead (a : Nat) (s : State) : ReadKind × List Byte × State :=
  match hbmReadCopy a s with
  | (.good, l, s) => (.good, l, s)
  | (k, l, s) =>
    if sysGranule (granuleOf a) then
      match hbmReadCopy (mirrorAddr a) s with
      | (.good, l', s) => (.good, l', hbmPut a l' false s)
      | (_, _, s) => (.bad, l, mirrorLost a s)
    else (k, l, s)

/-- A write of part of a word (R366): `l` gives the bytes written. -/
def hbmMerge (a : Nat) (l : List (Option Byte)) (s : State) : State :=
  let merge := fun (old : List Byte) => old.zipIdx.map fun p => (l.getD p.2 none).getD p.1
  let s := fillGranule a s
  match hbmReadCopy a s with
  | (.good, old, s) => hbmPut a (merge old) false s
  | (_, old, s) =>
    let s := hbmPut a (merge old) true s
    let s := { s with mem := { s.mem with poisonMerges := sat64 s.mem.poisonMerges 1 } }
    raise evEccPoisonMerge a clsHbm (logError clsHbm a (Config.freeNat s.freeCount % 256) 3 (drawFree s))

/-- Bytes of HDM from an address, read word by word; whether a word of them was poisoned or uncorrectable. -/
def readHdm : Nat → Nat → Nat → State → List Byte × Bool × State
  | 0, _, _, s => ([], false, s)
  | fuel + 1, addr, n, s =>
    if n = 0 then ([], false, s)
    else
      let a := addr / 32 * 32
      let k := min n (32 - addr % 32)
      match hbmRead a s with
      | (kind, l, s) =>
        match readHdm fuel (addr + k) (n - k) s with
        | (rest, bad, s) => (slice l (addr % 32) k ++ rest, bad || decide (kind ≠ .good), s)

/-- Bytes put into HBM from an address on, word by word; the first argument bounds the words. -/
def storeHbm : Nat → Nat → List Byte → State → State
  | 0, _, _, s => s
  | n + 1, addr, l, s =>
    if l.isEmpty then s
    else
      let a := addr / 32 * 32
      let k := min l.length (32 - addr % 32)
      let s := if k = 32 then hbmWrite a (l.take 32) s
        else hbmMerge a (List.replicate (addr % 32) none ++ (l.take k).map some) s
      storeHbm n (addr + k) (l.drop k) s

/-- Bytes from an address, without the errors that a read would meet. -/
def peekHbm (addr n : Nat) (s : State) : List Byte :=
  (List.range n).map fun i => (hbmBytes ((addr + i) / 32 * 32) s).getD ((addr + i) % 32) 0

/-! ### CXL.mem (02 R39, R43, R53) -/

/-- The DPA that an HPA maps to, when the device responds to CXL.mem requests for it. -/
def hdmMap (hpa : Nat) (s : State) : Option Nat :=
  if s.hif.mode = 1 ∧ s.hif.memEn ∧ s.hif.committed ∧ s.hif.ideCm.state ≠ .insecure ∧ s.mem.ready ∧
      s.hif.hdmBase ≤ hpa ∧ hpa < s.hif.hdmBase + s.hif.hdmSize
  then some ((hpa - s.hif.hdmBase) / 64 * 64) else none

/-- A line written under skid mode belongs to the MAC epoch in progress (02 R52, R53). -/
def noteEpoch (dpa : Nat) (s : State) : State :=
  if s.hif.ideSkid && decide (s.hif.ideCm.state = .secure) then
    { s with hif := { s.hif with ideCm := { s.hif.ideCm with epoch := insertNat dpa s.hif.ideCm.epoch } } }
  else s

/-- CXL_MEM_READ (02 R39): the line, zeros where nothing was written, or poison. -/
def execCxlMemRead (hpa : Nat) (s : State) : Out :=
  .next <| match hdmMap hpa s with
  | none => s
  | some a =>
    match hbmRead a s with
    | (k0, l0, s) =>
      match hbmRead (a + 32) s with
      | (k1, l1, s) =>
        if k0 = .good ∧ k1 = .good then emit (.memData (l0 ++ l1) false) s
        else
          let junk := (List.range 64).map fun i => Config.freeByte (s.freeCount * 64 + i)
          let s := drawFree s
          let s := { s with hif := { s.hif with poison := satAdd 0x7FFF s.hif.poison 1 } }
          emit (.memData junk true) (raiseN evHifHdmPoison s)

/-- MEM_WR (02 R39, 14 R366, R374): two whole HBM words. -/
def execMemWr (hpa : Nat) (data : List Byte) (s : State) : Out :=
  .next <| match hdmMap hpa s with
  | none => s
  | some a =>
    let s := hbmWrite a (slice data 0 32) s
    let s := hbmWrite (a + 32) (slice data 32 32) s
    emit .memCmp (noteEpoch a s)

/-- One word of a partial write: left alone, written whole, or merged. -/
def ptlWord (a : Nat) (l : List (Option Byte)) (s : State) : State :=
  if l.all Option.isNone then s
  else if l.all Option.isSome then hbmWrite a (l.map fun o => o.getD 0) s
  else hbmMerge a l s

/-- MEM_WR_PTL (14 R366). -/
def execMemWrPtl (hpa : Nat) (data : List (Option Byte)) (s : State) : Out :=
  .next <| match hdmMap hpa s with
  | none => s
  | some a =>
    let d := (List.range 64).map fun i => data.getD i none
    emit .memCmp (noteEpoch a (ptlWord (a + 32) (d.drop 32) (ptlWord a (d.take 32) s)))

/-! ### Scrub, retrain, arm -/

/-- The patrol scrub of an HBM word: a correctable one is written back corrected (R369). -/
def scrubHbm (a : Nat) (s : State) : State :=
  if !isWritten a s then s
  else
    let d := hbmDecode (tabGet 0 s.mem.hbmErr a)
    match hbmRead a s with
    | (k, l, s) =>
      match d with
      | .corrected _ _ =>
        hbmPut a l (decide (k = .poisoned)) { s with mem := { s.mem with scrubFixes := sat64 s.mem.scrubFixes 1 } }
      | _ => s

def sramData (a : Nat) (s : State) : List Byte := (List.range 8).map fun i => tabGet 0 s.mem.sram (a + i)

/-- A whole SRAM codeword is written. -/
def sramPut (a : Nat) (l : List Byte) (poison : Bool) (s : State) : State :=
  let hit := flipHit clsSram a s
  let e : BitVec 72 := if hit then BitVec.ofNat 72 (flipMask s) else 0
  let s := { s with mem := { s.mem with
    sram := putBytes a l s.mem.sram
    sramErr := tabSet 0 a e s.mem.sramErr
    sramPoison := if poison then insertNat a s.mem.sramPoison else s.mem.sramPoison.filter (· != a) } }
  if hit then flipDone clsSram a s else s

/-- The bytes of an SRAM word under an error pattern. -/
def xorSram (l : List Byte) (e : BitVec 72) : List Byte :=
  l.zipIdx.map fun p => p.1 ^^^ BitVec.ofNat 8 (bitsN e.toNat (8 * p.2) 8)

/-- The patrol scrub of an SRAM word (R363, R365, R369). -/
def scrubSram (a : Nat) (s : State) : State :=
  let e := tabGet 0 s.mem.sramErr a
  let l := sramData a s
  match sramDecode (s.mem.sramPoison.contains a) e with
  | .clean => s
  | .corrected i _ =>
    let s := { s with mem := { s.mem with sramCe := sat64 s.mem.sramCe 1 } }
    let s := logError clsSram a i 1 s
    let s := { s with mem := { s.mem with scrubFixes := sat64 s.mem.scrubFixes 1 } }
    sramPut a (xorSram l (e ^^^ BitVec.ofNat 72 (2 ^ i))) false s
  | .uncorrectable =>
    let s := { s with mem := { s.mem with sramUe := sat64 s.mem.sramUe 1 } }
    raise evMemUe a clsSram (logError clsSram a (Config.freeNat s.freeCount % 256) 2 (drawFree s))

/-- PATROL_SCRUB (14 R369). -/
def execPatrolScrub (hbm : Bool) (addr : Nat) (s : State) : Out :=
  .next <|
    if !s.mem.ready then s
    else if hbm then (if addr < hbmLimit then scrubHbm (hbmWordOf addr) s else s)
    else if addr < 0x4000000 then scrubSram (sramWordOf addr) s else s

/-- PC_RETRAIN_DONE (14 R370-R372). -/
def execPcRetrainDone (passed : Bool) (at_ : Nat) (s : State) : Out :=
  .next <|
    let s := atTime at_ s
    match s.mem.retrainPc with
    | none => s
    | some pc =>
      if passed then
        let s := { s with mem := { s.mem with
          retrainPc := none, retrainAt := tabSet 0 pc (s.aon.time + 1) s.mem.retrainAt } }
        raiseP evMemPcRetrain pc (addTransient unHbm (setUnit unHbm 0 0 s))
      else pcLasting pc s.mem.retrainAddr s

/-- The fields of MEM_ECC_FLIP_CTRL that a write carries enter the shadow; writing 1 clears ERR (14 Table 14-17,
18 R450). -/
def flipCtrlFields (value : Word) (s : State) : State :=
  { s with mem := { s.mem with
    flipSh := { s.mem.flipSh with cls := bits value 2 2, isMatch := bitAt value 4 }
    armErr := s.mem.armErr && !bitAt value 5 } }

/-- ARM (14 R376): the fields, then the commit. -/
def execArm (value : Word) (s : State) : Out :=
  .next <| onMmio s <|
    let s := flipCtrlFields value s
    if bitAt value 0 then { s with mem := { s.mem with armPending := true } } else s

/-- The arm's transfer at core cycle 16 of the next tick: refused for CLASS 0 or 3 or a MATCH address that is no word of
the class (R376); a refused one reloads the shadow (18 R451). -/
def armTransfer (s : State) : State :=
  if !s.mem.armPending then s
  else
    let c := s.mem.flipSh
    let word := if c.cls = clsSram then 8 else 32
    let ok := (c.cls = clsSram ∨ c.cls = clsHbm) ∧ (c.isMatch → c.addr % word = 0)
    if ok then { s with mem := { s.mem with armPending := false, armErr := false, armed := true, flip := c } }
    else { s with mem := { s.mem with armPending := false, armErr := true, flipSh := s.mem.flip } }

end Sys2Proof.Machine
end

