-- ==== Sys2Proof/Machine/Cipher.lean ====
section
/-! DEFINITION. The Cipher Engine: IVs, CEIL, key slots, requests on the lanes (06). -/

namespace Sys2Proof.Machine

/-! ### CEIL (06 R153, R154) -/

/-- What the CRC of a copy covers: CEIL and the sequence number. -/
def ceilBytes (ceil seqNo : Nat) : List Byte := leBytes 8 ceil ++ leBytes 4 seqNo

/-- The 64 bytes of a copy as MRAM holds it. -/
def ceilWord (c : CeilCopy) : List Byte := padTo 64 (ceilBytes c.ceil c.seqNo ++ leBytes 4 c.crc)

def ceilValid (c : CeilCopy) : Bool := c.crc == crc32c (ceilBytes c.ceil c.seqNo)

/-- A copy with its CRC; the sequence number has 32 bits. -/
def mkCeil (ceil seqNo : Nat) : CeilCopy :=
  { ceil := ceil, seqNo := seqNo % 2 ^ 32, crc := crc32c (ceilBytes ceil (seqNo % 2 ^ 32)) }

/-- The copy in force: valid, of the higher sequence number. -/
def ceilCopy (s : State) : Option CeilCopy :=
  let a := s.mram.ceilA
  let b := s.mram.ceilB
  if ceilValid a && (!ceilValid b || decide (b.seqNo ≤ a.seqNo)) then some a else if ceilValid b then some b else none

/-- The durable CEIL; 0 without a valid copy. -/
def ceilNow (s : State) : Nat := (ceilCopy s).elim 0 (·.ceil)

/-- A raise by 2^20 begins, unless one is being written. -/
def raiseCeil (s : State) : State :=
  if s.mram.ceilNext.isSome then s else { s with mram := { s.mram with ceilNext := some (ceilNow s + 2 ^ 20) } }

/-- A CEIL is durable in the copy that was not in force (R153). -/
def writeCeil (c : Nat) (s : State) : State :=
  let w := mkCeil c ((ceilCopy s).elim 1 (·.seqNo + 1))
  if ceilCopy s = some s.mram.ceilA then { s with mram := { s.mram with ceilB := w } }
  else { s with mram := { s.mram with ceilA := w } }

/-! ### Draws (06 R150-R159) -/

/-- A 96-bit IV: INSTANCE in the low 32 bits, COUNTER above (R151). -/
def mkIv (inst : BitVec 32) (counter : Nat) : BitVec 96 := BitVec.ofNat 96 (inst.toNat + counter * 2 ^ 32)

inductive Draw where
  | drawn (iv : BitVec 96) (limited : Bool)
  /-- CEIL must be raised first. -/
  | wait
  /-- RESULT of Table 6-6. -/
  | refused (result : Nat)
  deriving DecidableEq, Repr

/-- A slot becomes EXHAUSTED: CPH_KEY_EXHAUSTED with the context slot and 0 or 1. -/
def exhaust (t : Bool × Nat) (which : Nat) (s : State) : State :=
  let s := setSlot t { getSlot t s with use := .exhausted } s
  if t.1 then raiseN evCphKeyExhausted s else raise evCphKeyExhausted t.2 which s

def countDraw (s : State) : State := { s with cph := { s.cph with drawn := sat64 s.cph.drawn 1 } }

/-- A draw in the limited phase (R158, R159). -/
def drawLimited (t : Bool × Nat) (s : State) : Draw × State :=
  let k := getSlot t s
  if 65536 ≤ k.limited then (.refused 3, exhaust t 1 s)
  else
    let fresh := Config.limitedRandom s.freeCount
    let p := k.random.getD fresh
    let s := if k.random.isNone then drawFree s else s
    let counter := 2 ^ 63 + p.toNat * 2 ^ 16 + k.limited
    let s := setSlot t { k with random := some p, limited := k.limited + 1 } s
    (.drawn (mkIv s.mram.inst counter) true, countDraw s)

/-- A draw in normal service (R151, R153, R155). -/
def drawNormal (t : Bool × Nat) (s : State) : Draw × State :=
  let k := getSlot t s
  if 2 ^ 63 ≤ k.counter then (.refused 4, exhaust t 0 s)
  else if ceilNow s ≤ k.counter then (.wait, raiseCeil s)
  else (.drawn (mkIv s.mram.inst k.counter) false, countDraw (setSlot t { k with counter := k.counter + 1 } s))

/-- An IV for one encryption under a slot. -/
def drawIv (t : Bool × Nat) (s : State) : Draw × State :=
  match (getSlot t s).use with
  | .empty => (.refused 2, s)
  | .exhausted => (.refused 3, s)
  | .active => if limitedPhase s then drawLimited t s else drawNormal t s

def burnIv (n : Nat) (s : State) : State := { s with cph := { s.cph with burnt := sat64 s.cph.burnt n } }

/-! ### SET_CONTEXT_KEY (06 R154, R156, R161, R162) -/

def slotState (k : KeySlot) : Nat :=
  match k.use with
  | .empty => 0
  | .active => 1
  | .exhausted => 2

/-- A key is loaded: the counter takes the CEIL in force, 0 while CEIL_ERR is 1. -/
def loadKey (t : Bool × Nat) (label : Nat) (wrapped : List Byte) (s : State) : State :=
  let c := if s.cph.ceilErr then 0 else ceilNow s
  setSlot t { getSlot t s with use := .active, label := label, wrapped := wrapped, limited := 0, counter := c } s

def clearKey (t : Bool × Nat) (s : State) : State :=
  setSlot t { getSlot t s with use := .empty, label := 0, wrapped := List.replicate 40 0 } s

/-- A GCM decryption under a key: the text, if its tag is right. -/
def gcmOpen (key iv aad ct tag : List Byte) : Option (List Byte) :=
  if gcmTag key iv aad ct = tag then some (gcmText key iv ct) else none

/-- The key that ACTION 1 unwraps under a transport slot, wrapped under device slot 0; none when the slot is EMPTY or the tag
fails. -/
def unwrapKey (transport : Nat) (aad : List Word) (key : BitVec 256) (tag : BitVec 128) (iv : BitVec 96) (s : State) :
    Option (List Byte) :=
  if (getSlot (true, transport) s).use = .empty then none
  else
    (gcmOpen (slotKey (true, transport) s) (leBytes 12 iv.toNat) (wordBytes aad) (keyBytes key) (leBytes 16 tag.toNat)).map
      (kwWrap (wrapKey s))

/-- SET_CONTEXT_KEY (06 R161), from the pending area; without it the command is ended as after a cold reset (R162). -/
def execSetContextKey (jsn : Nat) (s : State) : Out :=
  .next <| onBegin opSetKey jsn s fun e _ s =>
    let t := keyTarget e.words
    if !t.1 && writesOpen (some t.2) jsn s then waitRun jsn s
    else
      let k := getSlot t s
      if pendingJsn k.pending ≠ some jsn then endBare jsn stAbortedByReset s
      else
        match k.pending with
        | .clear _ => endWith jsn stOk (slotState k) 0 (clearKey t s)
        | .key _ label key => endWith jsn stOk (slotState k) 0 (loadKey t label key s)
        | .wrapped _ label tr aad key tag iv =>
          match unwrapKey tr aad key tag iv s with
          | some key => endWith jsn stOk (slotState k) 0 (loadKey t label key s)
          | none => endBare jsn stUntrusted s
        | .none => endBare jsn stAbortedByReset s

/-! ### CPH_INSTANCE (06 R152, R156) -/

/-- A key slot that the host loads is ACTIVE: a context slot, or a device slot from 8 on (log entry 17). -/
def anyActive (s : State) : Bool :=
  (s.cph.ctxSlots.any fun p => decide (p.2.use = .active))
    || (s.cph.devSlots.any fun p => decide (8 ≤ p.1) && decide (p.2.use = .active))

/-- CEIL_ERR ends: both copies anew, every normal counter 0 (R156). -/
def ceilRepair (s : State) : State :=
  let z := fun (p : Nat × KeySlot) => (p.1, { p.2 with counter := 0 })
  endPhase { s with
    mram := { s.mram with
      ceilA := mkCeil (2 ^ 20) 1, ceilB := mkCeil (2 ^ 20) 2
      ceilNext := Option.none }
    cph := { s.cph with
      ceilErr := false, ctxSlots := (s.cph.ctxSlots.map z).filter (fun p => decide (p.2 ≠ KeySlot.none))
      devSlots := (s.cph.devSlots.map z).filter (fun p => decide (p.2 ≠ KeySlot.none)) } }

/-- CPH_INSTANCE_WRITE (06 R152, R156). -/
def execCphInstanceWrite (value : Word) (s : State) : Out :=
  .next <| onMmio s <|
    let v : BitVec 32 := BitVec.ofNat 32 value.toNat
    if anyActive s then raise evCphInstanceRefused v.toNat 0 s
    else
      let changed := decide (v ≠ s.mram.inst)
      let s := { s with mram := { s.mram with inst := v } }
      if s.cph.ceilErr && changed then ceilRepair s else s

/-! ### Requests on the lanes (06 R164-R168) -/

/-- A request as its eight words carry it (06 Table 6-5). -/
def decodeRequest (d : List Word) : CipherRequest :=
  let w := fun i => d.getD i 0
  { op := bits (w 0) 0 8, cls := bits (w 0) 8 2, dev := bitAt (w 0) 10, slot := bits (w 0) 11 18, src := w 1, dst := w 2,
    len := bits (w 3) 0 21, aadAddr := w 4, iv := BitVec.ofNat 96 ((w 5).toNat + bits (w 6) 0 32 * 2 ^ 64),
    cookie := w 7 }

/-- A completion of a request; its header fields are those of Table 6-6. -/
def finishJob (j : CipherJob) (lane result : Nat) (s : State) : State :=
  let d : CipherDone :=
    { result := result, lane := lane, limited := j.limited, suspends := j.suspends, iv := j.iv, cookie := j.req.cookie }
  { s with cph := { s.cph with done := s.cph.done ++ [d] } }

def setLane (n : Nat) (f : Lane → Lane) (s : State) : State :=
  { s with cph := { s.cph with lanes := s.cph.lanes.modify n f } }

def laneOf (n : Nat) (s : State) : Lane := s.cph.lanes.getD n { job := none, saved := [] }

def inService (n : Nat) (s : State) : Bool := !s.cph.degraded.getLsbD n

/-- Lanes in service that run nothing and hold nothing suspended. -/
def idleLanes (s : State) : List Nat :=
  (List.range 8).filter fun n => inService n s && (laneOf n s).job.isNone && (laneOf n s).saved.isEmpty

/-! ### What a request does (R164, R161) -/

/-- The AAD of a request: 32 bytes of frame header, and the 16 bytes at AAD_ADDR. -/
def jobAad (header : List Byte) (j : CipherJob) (s : State) : List Byte := header ++ peekHbm j.req.aadAddr.toNat 16 s

def jobIv (j : CipherJob) : List Byte := leBytes 12 j.iv.toNat

def jobKey (j : CipherJob) (s : State) : List Byte := slotKey (j.req.dev, j.req.slot) s

/-- Input of a request, read word by word. -/
def jobInput (addr n : Nat) (s : State) : List Byte × State :=
  match readHdm (n / 32 + 2) addr n s with
  | (l, _, s) => (l, s)

def jobOutput (addr : Nat) (l : List Byte) (s : State) : State := storeHbm (l.length / 32 + 2) addr l s

/-- The IV and the LIMITED flag go into the frame header at DST when an ENCRYPT starts (R164). -/
def stampHeader (j : CipherJob) (s : State) : State :=
  let d := j.req.dst.toNat
  jobOutput (d + 8) (jobIv j) (jobOutput (d + 3) [BitVec.ofNat 8 (boolNat j.limited)] s)

/-- ENCRYPT: ciphertext and tag behind the header at DST. -/
def runEncrypt (j : CipherJob) (s : State) : State :=
  match jobInput j.req.src.toNat j.req.len s with
  | (text, s) =>
    let aad := jobAad (peekHbm j.req.dst.toNat 32 s) j s
    let ct := gcmText (jobKey j s) (jobIv j) text
    jobOutput (j.req.dst.toNat + 32) (ct ++ gcmTag (jobKey j s) (jobIv j) aad ct) s

/-- Ciphertext and tag of a frame whose ciphertext stands at an address, decrypted: the plaintext, and whether the tag is right. The
header stands before it and the tag behind it (log entry 35). -/
def openFrameAt (addr : Nat) (j : CipherJob) (s : State) : List Byte × Bool × State :=
  match jobInput addr (j.req.len + 16) s with
  | (l, s) =>
    let ct := l.take j.req.len
    let aad := jobAad (peekHbm (addr - 32) 32 s) j s
    (gcmText (jobKey j s) (jobIv j) ct, decide (gcmTag (jobKey j s) (jobIv j) aad ct = l.drop j.req.len), s)

/-- UNWRAP: a wrapped key with its tag behind it; the key goes to DST wrapped under device slot 0 (log entry 35). -/
def runUnwrap (j : CipherJob) (s : State) : Bool × State :=
  match jobInput j.req.src.toNat (j.req.len + 16) s with
  | (l, s) =>
    match gcmOpen (jobKey j s) (jobIv j) (peekHbm j.req.aadAddr.toNat 16 s) (l.take j.req.len) (l.drop j.req.len) with
    | some k => (true, jobOutput j.req.dst.toNat (kwWrap (wrapKey s) k) s)
    | none => (false, s)

/-- RESULT of a request that has run, with what it leaves (06 Tables 6-5, 6-6). The outcome says where the lane itself went wrong. -/
def jobDone (j : CipherJob) (o : CipherOutcome) (s : State) : Nat × State :=
  if j.req.op = 1 then (0, runEncrypt j s)
  else if j.req.op = 2 then
    match openFrameAt j.req.src.toNat j s with
    | (text, ok, s) => (if ok && o.tagOk then 0 else 1, jobOutput j.req.dst.toNat text s)
  else if j.req.op = 3 then
    match openFrameAt (j.req.src.toNat + 32) j s with
    | (text, ok, s) =>
      match jobInput j.req.dst.toNat j.req.len s with
      | (src2, s) => (if !(ok && o.tagOk) then 1 else if text == src2 && o.same then 0 else 5, s)
  else if j.req.op = 4 then
    match runUnwrap j s with
    | (ok, s) => (if ok && o.tagOk then 0 else 1, s)
  else (if o.tagOk then 0 else 1, s)

/-! ### Lanes (R165, R166) -/

/-- A request starts on a lane: an ENCRYPT draws its IV, and one whose slot refuses it ends there (R155, R159, R164). -/
def startJob (n : Nat) (j : CipherJob) (s : State) : State :=
  let t := (j.req.dev, j.req.slot)
  let go := fun (j : CipherJob) (s : State) =>
    setLane n (fun l => { l with job := some { j with order := s.cph.nextOrder } })
      { s with cph := { s.cph with nextOrder := s.cph.nextOrder + 1 } }
  if j.req.op = 1 then
    match drawIv t s with
    | (.drawn iv lim, s) =>
      let j := { j with drawn := true, iv := iv, limited := lim }
      go j (stampHeader j s)
    | (.wait, s) => { s with cph := { s.cph with ceilWait := s.cph.ceilWait ++ [j] } }
    | (.refused r, s) => finishJob j n r s
  else if j.req.op ≠ 5 ∧ (getSlot t s).use = .empty then finishJob { j with iv := j.req.iv } n 2 s
  else go { j with iv := j.req.iv } s

/-- The oldest waiting request of the highest class, by when it was posted. -/
def nextJob (s : State) : Option CipherJob :=
  s.cph.queue.foldl (fun best j => match best with
    | none => some j
    | some b => if b.req.cls < j.req.cls ∨ (b.req.cls = j.req.cls ∧ j.posted < b.posted) then some j else some b) none

def unqueue (j : CipherJob) (s : State) : State := { s with cph := { s.cph with queue := s.cph.queue.erase j } }

/-- A suspended request resumes on its lane. -/
def resumeJob (n : Nat) (a : SaveArea) (s : State) : State := setLane n (fun l => { job := some a.job, saved := l.saved.dropLast }) s

/-- What a lane does when it runs nothing: the newest suspended request resumes when no request of a higher class waits, else the
oldest of the highest class starts (R165, R166). One that is refused or waits for CEIL leaves the lane to the next; the first
argument bounds them. -/
def laneFill : Nat → Nat → State → State
  | 0, _, s => s
  | k + 1, n, s =>
    if (laneOf n s).job.isSome || !inService n s then s
    else
      match (laneOf n s).saved.getLast?, nextJob s with
      | some a, some q =>
        if a.job.req.cls < q.req.cls then laneFill k n (startJob n q (unqueue q s)) else resumeJob n a s
      | some a, none => resumeJob n a s
      | none, some q => laneFill k n (startJob n q (unqueue q s))
      | none, none => s

def laneNext (n : Nat) (s : State) : State := laneFill (s.cph.queue.length + 1) n s

/-- The running lane that a request of a class suspends: of the lowest class, and of those the one started last. -/
def victim (cls : Nat) (s : State) : Option (Nat × CipherJob) :=
  (List.range 8).foldl (fun best n => match (laneOf n s).job with
    | none => best
    | some j =>
      if cls ≤ j.req.cls || !inService n s then best
      else match best with
        | none => some (n, j)
        | some (m, b) => if j.req.cls < b.req.cls ∨ (j.req.cls = b.req.cls ∧ b.order < j.order) then some (n, j)
          else some (m, b)) none

/-- What a save area holds at a block boundary: which one the lane has reached is open. -/
def saveArea (j : CipherJob) (s : State) : SaveArea :=
  let pos := 16 * (Config.freeNat s.freeCount % (j.req.len / 16 + 1))
  let h := beNat (bytesOf (aesBlock (aesKeys (natsOf (jobKey j s))) (List.replicate 16 0)))
  let enc := decide (j.req.op = 1)
  let src := peekHbm j.req.src.toNat pos s
  let text := if enc then gcmText (jobKey j s) (jobIv j) src else src
  let aad := jobAad (peekHbm (if enc then j.req.dst.toNat else j.req.src.toNat - 32) 32 s) j s
  { job := j, ctr := jobIv j ++ beBytes 4 (2 + pos / 16), acc := ghash h (blocks16 4 aad ++ blocks16 (pos / 16 + 1) text)
    aad := aad.length, text := pos, pos := pos }

/-- A lane's request is suspended into a save area (R166). -/
def suspend (n : Nat) (j : CipherJob) (s : State) : State :=
  let j := { j with suspends := satAdd 15 j.suspends 1 }
  let a := saveArea j s
  let s := drawFree { s with cph := { s.cph with suspends := sat64 s.cph.suspends 1 } }
  setLane n (fun l => { job := none, saved := l.saved ++ [a] }) s

/-- A request is placed (R165, R166): an idle lane takes it (which one is open: a free value), or a lane of a lower class is
suspended for it, or it waits. -/
def placeJob (j : CipherJob) (s : State) : State :=
  match idleLanes s with
  | [] =>
    match victim j.req.cls s with
    | some (n, v) => laneNext n (startJob n j (suspend n v s))
    | none => { s with cph := { s.cph with queue := s.cph.queue ++ [j] } }
  | l => startJob (l.getD (Config.freeNat s.freeCount % l.length) 0) j (drawFree s)

/-- A request is posted. -/
def postJob (q : CipherRequest) (s : State) : State :=
  placeJob { req := q, drawn := false, iv := 0, limited := false, suspends := 0, order := 0, posted := s.cph.nextPost }
    { s with cph := { s.cph with nextPost := s.cph.nextPost + 1 } }

/-- Lanes that stand idle take what waits. -/
def pumpLanes (s : State) : State := (List.range 8).foldl (fun s n => laneNext n s) s

/-- CPH_RQ_PUSH (06 R164-R166): the request that the descriptor words hold. -/
def execCphRqPush (desc : List Word) (s : State) : Out :=
  .next <|
    let s := { s with cph := { s.cph with desc := (List.range 8).map fun i => desc.getD i 0 } }
    pumpLanes (postJob (decodeRequest desc) s)

/-! ### Work that the device itself posts (R167): write chunks and their checks in class 1, read decryption in class 2, unwraps in
class 3. It runs whole in the step that needs it -/

/-- A lane may take a request of the device now: it idles, or runs one of a lower class. -/
def laneOpen (cls n : Nat) (s : State) : Bool :=
  inService n s && (match (laneOf n s).job with
    | none => true
    | some j => decide (j.req.cls < cls))

/-- The request runs on the lane: one of a lower class there is suspended for it and goes on afterwards. -/
def runOnLane (n : Nat) (s : State) : State :=
  match (laneOf n s).job with
  | none => s
  | some j => setLane n (fun l => { l with job := some { j with suspends := satAdd 15 j.suspends 1 } })
      { s with cph := { s.cph with suspends := sat64 s.cph.suspends 1 } }

/-- The lane that takes a request of a class: an idle one, or the one that R166 names. -/
def laneFor (cls : Nat) (s : State) : Option Nat :=
  match idleLanes s with
  | n :: _ => some n
  | [] => (victim cls s).map (·.1)

/-- A lane in service other than one, or that one where no other exists (R169). -/
def otherLane (n : Nat) (s : State) : Nat := (((List.range 8).filter fun m => m != n && inService m s).head?).getD n

/-- Lanes other than one that may take a frame's work now. -/
def freeOthers (n : Nat) (s : State) : List Nat := (List.range 8).filter fun m => m != n && laneOpen 1 m s

/-- A lane may encrypt a frame now: it is open, and so is another for the CHECK where another is in service (R169). -/
def framesOpen (n : Nat) (s : State) : Bool := laneOpen 1 n s && (otherLane n s == n || !(freeOthers n s).isEmpty)

/-- The lanes of a frame: the encrypting one, the one that checks it, the third that encrypts anew and the fourth that checks that
(R169). -/
def frameLanes (n : Nat) (s : State) : List Nat :=
  let l := freeOthers n s
  [n, l.getD 0 n, (l[1]?).getD (l.getD 0 n), (l[2]?).getD (l.getD 0 n)]

/-! ### Cancelling (R168) -/

/-- An ENCRYPT that ends without its frame: the IV it has drawn is burnt (R150, R168). -/
def burnJob (j : CipherJob) (s : State) : State := if j.drawn then burnIv 1 s else s

/-- The lane on which a cookie's request runs or lies suspended: the lowest. -/
def cookieLane (c : Word) (s : State) : Option Nat :=
  (List.range 8).find? fun n =>
    ((laneOf n s).job.any (·.req.cookie == c)) || ((laneOf n s).saved.any (·.job.req.cookie == c))

/-- A request of the cookie is cancelled wherever it is (R168). Where several have one cookie the spec does not say which goes: here
one that waits in the queue, then one that waits for CEIL, then the lowest lane's; and one that never ran ends with LANE 0, which
the spec leaves open too (DESIGN CHOICE, log entry 51). -/
def cancelJob (c : Word) (s : State) : State :=
  match s.cph.queue.find? (·.req.cookie == c), s.cph.ceilWait.find? (·.req.cookie == c), cookieLane c s with
  | some j, _, _ => finishJob j 0 6 (unqueue j s)
  | none, some j, _ => finishJob j 0 6 { s with cph := { s.cph with ceilWait := s.cph.ceilWait.erase j } }
  | none, none, none => s
  | none, none, some n =>
    match (laneOf n s).job.filter (·.req.cookie == c), (laneOf n s).saved.find? (·.job.req.cookie == c) with
    | some j, _ => laneNext n (finishJob j n 6 (burnJob j (setLane n (fun l => { l with job := none }) s)))
    | none, some a => finishJob a.job n 6 (burnJob a.job (setLane n (fun l => { l with saved := l.saved.erase a }) s))
    | none, none => s

/-- CPH_RQ_CANCEL (06 R168). -/
def execCphRqCancel (cookie : Word) (s : State) : Out := .next (pumpLanes (cancelJob cookie s))

/-- CPH_CQ_POP (06 Table 6-9): bit 0 of what the read returns is 1 when a completion was present. -/
def execCphCqPop (s : State) : Out :=
  .next <| match s.cph.done with
    | [] => emit (.mmioData 0) s
    | d :: t => emit (.mmioData 1) { s with cph := { s.cph with done := t, popped := some d } }

/-- CPH_REQUEST_COMPLETE (06 R165, R166). -/
def execCphRequestComplete (lane : Nat) (o : CipherOutcome) (s : State) : Out :=
  .next <| match (laneOf lane s).job with
    | none => s
    | some j =>
      match jobDone j o s with
      | (r, s) => laneNext lane (finishJob j lane r (setLane lane (fun l => { l with job := none }) s))

/-- The start-up interval ends with a known-answer test that has passed and the raised CEIL durable (R157). -/
def endStarting (s : State) : State :=
  if s.sys.phase = .running ∧ s.cph.katOk ∧ s.mram.ceilNext = none then
    endPhase { s with cph := { s.cph with starting := false } } else s

/-- CEIL_RAISE_DURABLE (06 R153, R154, R157): waiting draws are made, before what was posted after them. -/
def execCeilRaiseDurable (s : State) : Out :=
  .next <| match s.mram.ceilNext with
    | none => s
    | some c =>
      let s := endStarting (writeCeil c { s with mram := { s.mram with ceilNext := none } })
      let w := s.cph.ceilWait
      pumpLanes (w.foldl (fun s j => placeJob j s) { s with cph := { s.cph with ceilWait := [] } })

end Sys2Proof.Machine
end

