-- ==== Sys2Proof/Machine/Abf.lean ====
section
/-! DEFINITION. The Adethes Block Format (05 R119-R127): the decoder, and an encoder whose match search and code lengths are
open (log entry 13) and whose tokens, tables and header are the rules'. -/

namespace Sys2Proof.Machine

def b8 (n : Nat) : Byte := BitVec.ofNat 8 n

def lastBytes (n : Nat) (l : List Byte) : List Byte := l.drop (l.length - n)

/-! ### Huffman tables (R121-R123) -/

/-- The n code lengths that payload bytes from an offset hold. -/
def codeLengths (payload : List Byte) (off n : Nat) : List Nat :=
  (List.range n).map fun i => bitsN (payload.getD (off + i / 2) 0).toNat (4 * (i % 2)) 4

def countLen (lens : List Nat) (n : Nat) : Nat := (lens.filter (· == n)).length

/-- First code of a length (R122). -/
def firstCode (lens : List Nat) : Nat → Nat
  | 0 => 0
  | 1 => 0
  | n + 1 => (firstCode lens n + countLen lens n) * 2

/-- (length, code, symbol) of every used symbol. -/
def canonCodes (lens : List Nat) : List (Nat × Nat × Nat) :=
  (List.range 15).flatMap fun k =>
    let n := k + 1
    let syms := (lens.zipIdx.filter (·.1 == n)).map (·.2)
    syms.zipIdx.map fun p => (n, firstCode lens n + p.2, p.1)

/-- A table is valid (R123). -/
def tableOk (lens : List Nat) (isDist : Bool) : Bool :=
  let used := lens.filter (· != 0)
  used.foldl (fun a n => a + 2 ^ (15 - n)) 0 == 2 ^ 15 || used == [1] || (isDist && used.isEmpty)

/-! ### Tokens (R120, R124-R126) -/

/-- Bit p of a payload; none behind its end. -/
def payloadBit (payload : List Byte) (p : Nat) : Option Nat := (payload[p / 8]?).map fun b => b.toNat / 2 ^ (p % 8) % 2

/-- n extra bits from position p, lowest first. -/
def extraBits (payload : List Byte) : Nat → Nat → Option Nat
  | _, 0 => some 0
  | p, n + 1 =>
    match payloadBit payload p, extraBits payload (p + 1) n with
    | some b, some r => some (b + 2 * r)
    | _, _ => none

/-- The symbol whose code begins at position p, and its length; the first argument bounds the bits. -/
def readSymbol (codes : List (Nat × Nat × Nat)) (payload : List Byte) : Nat → Nat → Nat → Nat → Option (Nat × Nat)
  | 0, _, _, _ => none
  | k + 1, p, len, code =>
    match payloadBit payload p with
    | none => none
    | some b =>
      match codes.find? fun c => c.1 == len + 1 && c.2.1 == 2 * code + b with
      | some c => some (c.2.2, len + 1)
      | none => readSymbol codes payload k (p + 1) (len + 1) (2 * code + b)

/-- Base length and extra bits of a match symbol (R124). -/
def matchLength (sym : Nat) : Nat × Nat :=
  if sym ≤ 272 then (sym - 253, 0) else (16 + 2 ^ (sym - 273 + 2), sym - 273 + 2)

/-- Base distance and extra bits of a distance symbol (R125). -/
def matchDistance (c : Nat) : Nat × Nat :=
  if c ≤ 3 then (c + 1, 0) else ((2 + c % 2) * 2 ^ (c / 2 - 1) + 1, c / 2 - 1)

/-- L bytes copied one at a time from distance D; `rev` is the output with its history, newest first. -/
def copyMatch (d : Nat) : Nat → List Byte → List Byte
  | 0, rev => rev
  | n + 1, rev => copyMatch d n (rev.getD (d - 1) 0 :: rev)

/-- The tables of a CODED payload, its limits: IN_LEN and the highest distance symbol. -/
structure AbfTables where
  lits    : List (Nat × Nat × Nat)
  dists   : List (Nat × Nat × Nat)
  inLen   : Nat
  topDist : Nat
  deriving DecidableEq, Repr

/-- Tokens from bit p on, with n bytes put out: the output and the bit behind END. -/
def decodeTokens (t : AbfTables) (payload : List Byte) : Nat → Nat → Nat → List Byte → Option (List Byte × Nat)
  | 0, _, _, _ => none
  | k + 1, p, n, rev =>
    match readSymbol t.lits payload 15 p 0 0 with
    | none => none
    | some (sym, len) =>
      let p := p + len
      if sym = 256 then (if n = t.inLen then some (rev, p) else none)
      else if sym < 256 then (if t.inLen ≤ n then none else decodeTokens t payload k p (n + 1) (b8 sym :: rev))
      else if sym = 287 then none
      else
        match extraBits payload p (matchLength sym).2 with
        | none => none
        | some x =>
          let size := (matchLength sym).1 + x
          let p := p + (matchLength sym).2
          match readSymbol t.dists payload 15 p 0 0 with
          | none => none
          | some (c, dl) =>
            match extraBits payload (p + dl) (matchDistance c).2 with
            | none => none
            | some y =>
              let d := (matchDistance c).1 + y
              if t.topDist < c ∨ rev.length < d ∨ t.inLen < n + size then none
              else decodeTokens t payload k (p + dl + (matchDistance c).2) (n + size) (copyMatch d size rev)

/-- Positions from p to the next byte boundary hold zeros. -/
def padZero (payload : List Byte) (p : Nat) : Bool :=
  (List.range ((8 - p % 8) % 8)).all fun i => payloadBit payload (p + i) == some 0

/-- Decoded bytes of a CODED payload (R121-R126). -/
def decodeCoded (version inLen : Nat) (payload history : List Byte) : Option (List Byte) :=
  let ll := codeLengths payload 0 288
  let ds := codeLengths payload 144 40
  if !tableOk ll false || !tableOk ds true || ll.getD 256 0 == 0 || ll.getD 287 0 != 0 then none
  else
    let t : AbfTables := { lits := canonCodes ll, dists := canonCodes ds, inLen := inLen, topDist := if version = 1 then 35 else 39 }
    match decodeTokens t payload (inLen + 1) (164 * 8) 0 history.reverse with
    | none => none
    | some (rev, p) =>
      if padZero payload p && (p + 7) / 8 == payload.length then some ((rev.take inLen).reverse) else none

/-! ### Blocks (05 Table 5-1) -/

def blockIn (b : List Byte) : Nat := leNat (slice b 4 4)
def blockOut (b : List Byte) : Nat := leNat (slice b 8 4)
def blockHist (b : List Byte) : Bool := (b.getD 1 0).getLsbD 6

/-- The header of a block is one of Table 5-1. -/
def headerOk (b : List Byte) : Bool :=
  let f := (b.getD 1 0).toNat
  let type := f / 16 % 4
  16 ≤ b.length && b.getD 0 0 == 0xAD && (f % 16 == 1 || f % 16 == 2) && f / 128 == 0 && (b.getD 2 0).toNat < 16
    && b.getD 3 0 == 0 && 1 ≤ blockIn b && blockIn b ≤ 65536
    && (if type = 0 then blockOut b == blockIn b && !blockHist b
      else if type = 1 then 165 ≤ blockOut b && blockOut b < blockIn b
      else type == 2 && blockOut b == 1 && !blockHist b)

/-- The decoded bytes of a whole block, or none when it fails (R126, R127). -/
def abfDecode (b history : List Byte) : Option (List Byte) :=
  let type := (b.getD 1 0).toNat / 16 % 4
  let payload := (b.drop 16).take (blockOut b)
  let hist := if blockHist b then lastBytes 1048576 history else []
  if !headerOk b || payload.length != blockOut b then none
  else
    let l := if type = 0 then some payload
      else if type = 2 then some (List.replicate (blockIn b) (payload.getD 0 0))
      else decodeCoded ((b.getD 1 0).toNat % 16) (blockIn b) payload hist
    l.filter fun l => crc32c l == leNat (slice b 12 4)

/-! ### Tokens of an encoder (R124, R125, R131) -/

inductive Token where
  | literal (b : Byte)
  | copy (len dist : Nat)
  deriving DecidableEq, Repr

/-- Bytes that two texts have in common from their starts. -/
def commonPrefix : List Byte → List Byte → Nat
  | a :: s, b :: t => if a = b then 1 + commonPrefix s t else 0
  | _, _ => 0

/-- Earlier positions that a lane compares at position p of a text, nearest first: those of the window with the same 4-byte hash,
as many as the chain depth (R131); each with the length of its match. -/
def comparedAt (depth window : Nat) (text : List Byte) (p : Nat) : List (Nat × Nat) :=
  let h := fun (q : Nat) => Config.hash4 ((text.drop q).take 4)
  let back := ((List.range (min p window)).map (· + 1)).filter fun d => h (p - d) == h p
  (back.take depth).map fun d => (commonPrefix (text.drop (p - d)) (text.drop p), d)

/-- The match that the search takes at a position; which of those compared, how much of it, and whether any, is open. -/
def matchAt (p : LevelParams) (text : List Byte) (pos : Nat) : Option (Nat × Nat) :=
  let l := (comparedAt p.depth (2 ^ p.window) text pos).filter fun m => 4 ≤ m.1
  let c := Config.matchChoice p.depth text pos
  (l[c % (l.length + 1)]?).map fun m => (m.1 - c / (l.length + 1) % (m.1 - 3), m.2)

def matchLen (p : LevelParams) (text : List Byte) (pos : Nat) : Nat := (matchAt p text pos).elim 0 (·.1)

/-- A match is deferred when a longer one starts within the positions of the lazy evaluation (R131). -/
def deferred (p : LevelParams) (text : List Byte) (pos : Nat) : Bool :=
  (List.range p.lazyEval).any fun k => decide (matchLen p text pos < matchLen p text (pos + k + 1))

/-- The tokens of a text from a position to its end; the first argument bounds them. -/
def tokensFrom (p : LevelParams) (text : List Byte) : Nat → Nat → List Token
  | 0, _ => []
  | n + 1, pos =>
    match text[pos]? with
    | none => []
    | some b =>
      match matchAt p text pos with
      | some (l, d) =>
        if deferred p text pos then .literal b :: tokensFrom p text n (pos + 1) else .copy l d :: tokensFrom p text n (pos + l)
      | none => .literal b :: tokensFrom p text n (pos + 1)

/-- Symbol, extra bits and their number, of a match length (R124). -/
def lengthSymbol (l : Nat) : Nat × Nat × Nat :=
  if l < 20 then (l + 253, 0, 0)
  else
    let e := Nat.log2 (l - 16)
    (273 + (e - 2), l - 16 - 2 ^ e, e)

/-- Symbol, extra bits and their number, of a distance (R125). -/
def distanceSymbol (d : Nat) : Nat × Nat × Nat :=
  if d ≤ 4 then (d - 1, 0, 0)
  else
    let e := Nat.log2 (d - 1) - 1
    let c := 2 * (e + 1) + ((d - 1) / 2 ^ e) % 2
    (c, (d - 1) % 2 ^ e, e)

def literalSymbols (ts : List Token) : List Nat :=
  (ts.map fun
    | .literal b => b.toNat
    | .copy l _ => (lengthSymbol l).1) ++ [256]

def distanceSymbols (ts : List Token) : List Nat :=
  ts.filterMap fun
    | .literal _ => none
    | .copy _ d => some (distanceSymbol d).1

/-! ### Code lengths (R121-R123) -/

/-- Lengths that make a full code of the used symbols: all of two neighbouring lengths. -/
def evenLengths (n : Nat) (used : List Nat) : List Nat :=
  let k := used.length
  let top := Nat.log2 (k - 1) + 1
  let few := 2 ^ top - k
  (List.range n).map fun s =>
    match indexOf? (· == s) used with
    | none => 0
    | some i => if k = 1 then 1 else if i < few then top - 1 else top

/-- Every used symbol has a code, and the table is valid. -/
def lengthsFit (isDist : Bool) (n : Nat) (used lens : List Nat) : Bool :=
  lens.length == n && lens.all (decide <| · ≤ 15) && tableOk lens isDist && used.all fun s => lens.getD s 0 != 0

/-- The code lengths for symbols that occur: which the encoder gives is open among those of R123. -/
def chosenLengths (isDist : Bool) (n : Nat) (syms : List Nat) : List Nat :=
  let used := (List.range n).filter fun s => syms.contains s
  let c := Config.codeLengths n syms
  if lengthsFit isDist n used c then c else evenLengths n used

/-! ### The bit stream (R120, R134) -/

/-- Bits of a number, the lowest first. -/
def lowBits (x n : Nat) : List Bool := (List.range n).map x.testBit

/-- The code of a symbol, its most significant bit first. -/
def codeBits (codes : List (Nat × Nat × Nat)) (sym : Nat) : List Bool :=
  match codes.find? fun c => c.2.2 == sym with
  | some (n, code, _) => (lowBits code n).reverse
  | none => []

/-- A token as the token latch holds it. -/
def tokenBits (ll ds : List (Nat × Nat × Nat)) : Token → List Bool
  | .literal b => codeBits ll b.toNat
  | .copy l d =>
    let a := lengthSymbol l
    let b := distanceSymbol d
    codeBits ll a.1 ++ lowBits a.2.1 a.2.2 ++ codeBits ds b.1 ++ lowBits b.2.1 b.2.2

/-- Bits of an output buffer: how many is open, but a token latch of 128 bytes fits. -/
def outputRoom : Nat := 1024 + Config.outputBits

/-- A token latched whole moves into the output buffer where all of its bits fit, else whole into the next one (R134). The
buffers are newest first. -/
def moveToken (bufs : List (List Bool)) (tok : List Bool) : List (List Bool) :=
  match bufs with
  | [] => [tok]
  | b :: t => if b.length + tok.length ≤ outputRoom then (b ++ tok) :: t else tok :: b :: t

/-- The bits that the output buffers hold, in order. -/
def drainBuffers (bufs : List (List Bool)) : List Bool := bufs.reverse.flatten

/-- Bytes of bits, the last filled with zero bits; the first argument bounds them. -/
def packBits : Nat → List Bool → List Byte
  | 0, _ => []
  | n + 1, l =>
    if l.isEmpty then []
    else b8 ((l.take 8).foldr (fun b a => boolNat b + 2 * a) 0) :: packBits n (l.drop 8)

/-- Two lengths to a byte. -/
def packNibbles : List Nat → List Byte
  | a :: b :: t => b8 (a + 16 * b) :: packNibbles t
  | _ => []

/-- The CODED payload of tokens under code lengths (R120-R122). -/
def codedWith (ll ds : List Nat) (ts : List Token) : List Byte :=
  let lc := canonCodes ll
  let dc := canonCodes ds
  let all := drainBuffers ((ts.map (tokenBits lc dc) ++ [codeBits lc 256]).foldl moveToken [])
  packNibbles ll ++ packNibbles ds ++ packBits (all.length / 8 + 1) all

/-- The CODED payload of an input behind its history, under a level's parameters. -/
def codedPayload (p : LevelParams) (history input : List Byte) : List Byte :=
  let ts := tokensFrom p (history ++ input) input.length history.length
  codedWith (chosenLengths false 288 (literalSymbols ts)) (chosenLengths true 40 (distanceSymbols ts)) ts

/-! ### Encoded blocks (R119) -/

/-- Every byte is the first. -/
def allSame : List Byte → Bool
  | [] => true
  | b :: t => t.all (· == b)

/-- The block that R119 chooses. `coding`: a compression lane is in service. -/
def encodeBlock (level : Nat) (p : LevelParams) (coding hist : Bool) (history input : List Byte) (lane : Nat) : EncBlock :=
  let raw : EncBlock :=
    { type := 0, hist := false, level := level, input := input, payload := input, lane := lane, checked := true }
  if allSame input then { raw with type := 2, payload := input.take 1 }
  else if level = 0 || !coding then raw
  else
    let q := codedPayload p history input
    if q.length < input.length then { raw with type := 1, hist := hist, payload := q, checked := false } else raw

/-- The 16 bytes of a block's header (Table 5-1). -/
def blockHeader (b : EncBlock) : List Byte :=
  [0xAD, b8 (2 + 16 * b.type + 64 * boolNat b.hist), b8 b.level, 0] ++ leBytes 4 b.input.length ++ leBytes 4 b.payload.length
    ++ leBytes 4 (crc32c b.input)

/-- The bytes of an encoded block. -/
def blockBytes (b : EncBlock) : List Byte := blockHeader b ++ b.payload

end Sys2Proof.Machine
end

