-- ==== Sys2Proof/Machine/InnerCode.lean ====
section
/-! DEFINITION. C1, the row code: its parity-check matrix, its encoder, its layered offset min-sum decoder and the margin record
(08 R209, R210, R215, R216). -/

namespace Sys2Proof.Machine

/-! ### C1 (R209, R210) -/

/-- Shifts of block row 0 and block row 1 for block columns 0 to 29 (Table 8-1). -/
def c1Shifts : List ((Nat × Nat) × (Nat × Nat)) :=
  [((11, 150), (5, 201)), ((48, 239), (66, 26)), ((85, 40), (127, 139)), ((122, 129), (188, 252)), ((159, 218), (249, 77)),
    ((196, 19), (22, 190)), ((233, 108), (83, 15)), ((270, 197), (144, 128)), ((19, 286), (205, 241)), ((56, 87), (266, 66)),
    ((93, 176), (39, 179)), ((130, 265), (100, 4)), ((167, 66), (161, 117)), ((204, 155), (222, 230)), ((241, 244), (283, 55))]
  ++ [((278, 45), (56, 168)), ((27, 134), (117, 281)), ((64, 223), (178, 106)), ((101, 24), (239, 219)), ((138, 113), (12, 44)),
    ((175, 202), (73, 157)), ((212, 3), (134, 270)), ((249, 92), (195, 95)), ((286, 181), (256, 208)), ((35, 270), (29, 33)),
    ((72, 71), (90, 146)), ((109, 160), (151, 259)), ((146, 249), (212, 84)), ((183, 50), (273, 197)), ((220, 139), (46, 22))]

/-- Check i of a block row over the information bits, which u holds with bit b at place b. -/
def c1Check (sh : List (Nat × Nat)) (u i : Nat) : Bool :=
  sh.zipIdx.foldl (fun a p => (a ^^ u.testBit (288 * p.2 + (i + p.1.1) % 288)) ^^ u.testBit (288 * p.2 + (i + p.1.2) % 288)) false

/-- Parity bit i of 576: p0 then p1 (R210). -/
def c1Parity (u i : Nat) : Bool :=
  if i < 288 then c1Check (c1Shifts.map (·.1)) u i
  else c1Check (c1Shifts.map (·.2)) u (i - 288) ^^ c1Check (c1Shifts.map (·.1)) u ((i - 288 + 1) % 288)

/-- The 72 parity bytes of 1,080 information bytes (R235). -/
def c1Bytes (l : List Byte) : List Byte :=
  let u := leNat (slice l 0 1080)
  (List.range 72).map fun k => b8 ((List.range 8).foldl (fun a i => a + boolNat (c1Parity u (8 * k + i)) * 2 ^ i) 0)

/-! ### The parity-check matrix (R209) -/

/-- S(r, c), the shifts of base entry (r, c). -/
def c1Set (r c : Nat) : List Nat :=
  match c1Shifts[c]? with
  | some p => if r = 0 then [p.1.1, p.1.2] else [p.2.1, p.2.2]
  | none => if c = 30 then [r] else if c = 31 ∧ r = 1 then [0] else []

/-- Columns of the ones in a row of H. -/
def c1Row (k : Nat) : List Nat :=
  (List.range 32).flatMap fun c => (c1Set (k / 288) c).map fun s => 288 * c + (k % 288 + s) % 288

/-- A check of a word: the sum of its bits. -/
def c1Sum (x : Array Bool) (k : Nat) : Bool := (c1Row k).foldl (fun a b => a ^^ x.getD b false) false

/-- Checks that a word does not satisfy. -/
def c1Unsatisfied (x : Array Bool) : Nat := ((List.range 576).filter (c1Sum x)).length

/-- A word is a C1 codeword: H times it is 0. -/
def isCodeword (x : Array Bool) : Bool := c1Unsatisfied x == 0

/-- The codeword of 1,080 information bytes (07 R179). -/
def c1Codeword (info : List Byte) : List Bool :=
  (info.flatMap fun b => lowBits b.toNat 8) ++ (c1Bytes info).flatMap fun b => lowBits b.toNat 8

/-! ### Layered offset min-sum (R215; log entry 49) -/

/-- A message of 8 bits. -/
def satMessage (x : Int) : Int := clampI (-127) 127 x

/-- The messages of a check to its bits, from the messages of the bits to it: the sign of the others, their least magnitude, less
the offset of 1. -/
def checkMessages (q : List Int) : List Int :=
  let neg := q.foldl (fun a x => a ^^ decide (x < 0)) false
  let m := q.map Int.natAbs
  let least := m.foldl min 255
  let at_ := (indexOf? (· == least) m).getD 0
  let second := (m.eraseIdx at_).foldl min 255
  q.zipIdx.map fun p =>
    let v : Int := ((if p.2 = at_ then second else least) - 1 : Nat)
    if neg ^^ decide (p.1 < 0) then -v else v

/-- What a decoder holds: the value of each bit and the messages of each check. -/
structure MinSum where
  post : Array Int
  msgs : Array (List Int)
  deriving DecidableEq, Repr

/-- One block row: its checks from the values at its start, then the values with all their changes. -/
def minSumLayer (d : MinSum) (r : Nat) : MinSum :=
  let new := (List.range 288).map fun i =>
    let k := 288 * r + i
    let cols := c1Row k
    let old := d.msgs.getD k []
    let q := cols.zipWith (fun b m => satMessage (d.post.getD b 0 - m)) old
    (k, cols, old, checkMessages q)
  new.foldl (fun d e =>
    { post := (e.2.1.zip (e.2.2.1.zip e.2.2.2)).foldl
        (fun p x => p.modify x.1 fun v => satMessage (v + x.2.2 - x.2.1)) d.post
      msgs := d.msgs.set! e.1 e.2.2.2 }) d

def minSumStart (llr : List Int) : MinSum :=
  { post := llr.toArray, msgs := ((List.range 576).map fun k => (c1Row k).map fun _ => (0 : Int)).toArray }

/-- The hard decision: a value of 0 or more stands for bit 0. -/
def hardBits (v : Array Int) : Array Bool := v.map fun x => decide (x < 0)

/-- What a C1 decode leaves (Table 8-2): the word, whether every check holds, the checks that do not, the iterations run, and
the counts of the detector's decisions. -/
structure C1Result where
  word   : List Bool
  right  : Bool
  unsat  : Nat
  iter   : Nat
  unsat0 : Nat
  flips  : Nat
  weak   : Nat
  deriving DecidableEq, Repr

/-- Iterations until every check holds or the limit is reached; the first argument counts those left. -/
def minSumRun : Nat → Nat → MinSum → MinSum × Nat
  | 0, k, d => (d, k)
  | n + 1, k, d =>
    let d := minSumLayer (minSumLayer d 0) 1
    if isCodeword (hardBits d.post) then (d, k + 1) else minSumRun n (k + 1) d

/-- A C1 decode of the LLRs of a codeword under an iteration limit (R215, R216). -/
def c1Decode (limit : Nat) (llr : List Int) : C1Result :=
  let hard := hardBits llr.toArray
  match minSumRun limit 0 (minSumStart llr) with
  | (d, k) =>
    let x := hardBits d.post
    let u := c1Unsatisfied x
    { word := x.toList, right := decide (u = 0), unsat := u, iter := k, unsat0 := c1Unsatisfied hard
      flips := min 2047 ((hard.toList.zipWith xor x.toList).filter id).length
      weak := min 2047 (llr.filter fun v => v.natAbs ≤ 2).length }

/-- The margin record of a decode, which is valid or not (Table 8-2). -/
structure MarginRecord where
  valid  : Bool
  iter   : Nat
  unsat0 : Nat
  flips  : Nat
  weak   : Nat
  deriving DecidableEq, Repr

def marginRecord (valid : Bool) (limit : Nat) (r : C1Result) : MarginRecord :=
  { valid := valid, iter := if valid then r.iter else limit, unsat0 := r.unsat0
    flips := if valid then r.flips else 2047, weak := r.weak }

/-- The record as Table 8-2 packs it. -/
def marginWord (m : MarginRecord) : Nat :=
  boolNat m.valid + m.iter * 2 + m.unsat0 * 2 ^ 7 + m.flips * 2 ^ 17 + m.weak * 2 ^ 28

/-- The decode of LLRs that all say what was written. -/
def cleanResult (word : List Bool) : C1Result :=
  { word := word, right := true, unsat := 0, iter := 1, unsat0 := 0, flips := 0, weak := 0 }

end Sys2Proof.Machine
end

