-- ==== Sys2Proof/Machine/Detector.lean ====
section
/-! DEFINITION. The detector of a read channel (08 R214) with its adaptation, the randomiser (07 R185), and the noise and rate that
it measures (08 R225, R226). Its numbers are exact; what the spec leaves open is said in log entry 50. -/

namespace Sys2Proof.Machine

/-! ### Channel bits (07 R185) -/

/-- n outputs of the randomiser from a register. -/
def randomiser : Nat → Nat → List Bool
  | 0, _ => []
  | n + 1, a =>
    let o := (a / 2 ^ 14 + a / 2 ^ 13) % 2
    (o == 1) :: randomiser n ((a * 2 + o) % 2 ^ 15)

/-- Channel bits of a codeword in a slot: the SYNC field as it is, the rest randomised; and back. -/
def channelBits (cw : List Bool) : List Bool :=
  cw.take 16 ++ (cw.drop 16).zipWith xor (randomiser (cw.length - 16) 0x7FFF)

/-! ### Parts (R214) -/

/-- The detector as it stands before any adaptation: its numbers are open. -/
def detectorFresh : Detector :=
  { taps := (List.range 24).map Config.detectorDefault, g1 := Config.detectorDefault 24, g2 := Config.detectorDefault 25
    p1 := Config.detectorDefault 26, p2 := Config.detectorDefault 27, var := Config.detectorDefault 28 }

/-- The detector of a track in a wrap direction. -/
def detectorOf (track wrap : Nat) (s : State) : Detector :=
  ((s.tec.detectors.find? fun p => p.1 == 2 * track + wrap % 2).map (·.2)).getD detectorFresh

def setDetector (track wrap : Nat) (d : Detector) (s : State) : State :=
  { s with tec := { s.tec with
    detectors := s.tec.detectors.filter (fun p => p.1 != 2 * track + wrap % 2) ++ [(2 * track + wrap % 2, d)] } }

/-- A sample between two. -/
def sampleAt (r : Array Int) (x : Rat) : Rat :=
  let i := x.floor
  let v := fun (i : Int) => if i < 0 then (0 : Rat) else ((r.getD i.toNat 0 : Int) : Rat)
  v i + (x - i) * (v (i + 1) - v i)

/-- The samples under the taps at bit k: 1.25 to a channel bit, where the timing recovery finds it. -/
def windowAt (r : Array Int) (k : Nat) : List Rat :=
  (List.range 24).map fun i => sampleAt r ((5 * k : Rat) / 4 + Config.timing r.toList k + i - 12)

/-- The equalised sample of bit k. -/
def equalised (d : Detector) (r : Array Int) (k : Nat) : Rat :=
  ((windowAt r k).zipWith (· * ·) d.taps).foldl (· + ·) 0

/-- 1 for bit 0, -1 for bit 1. -/
def levelOf (b : Bool) : Rat := if b then -1 else 1

/-- The target's output for a bit and the two before it (R225). -/
def targetOut (d : Detector) (b b1 b2 : Bool) : Rat := levelOf b + d.g1 * levelOf b1 + d.g2 * levelOf b2

/-! ### The trellis: a state holds the four bits before, the latest in bit 0 -/

/-- The branch of input v from a state: minus half the squared prediction error, in units of the variance. -/
def branchMetric (d : Detector) (y y1 y2 : Rat) (state : Nat) (v : Bool) : Rat :=
  let b := state.testBit
  let e := y - targetOut d v (b 0) (b 1)
  let e1 := y1 - targetOut d (b 0) (b 1) (b 2)
  let e2 := y2 - targetOut d (b 1) (b 2) (b 3)
  let p := e - d.p1 * e1 - d.p2 * e2
  0 - p * p / (2 * d.var)

def nextState (state : Nat) (v : Bool) : Nat := (2 * state + boolNat v) % 16

def maxRat (l : List Rat) : Rat := l.foldl max (l.headD 0)

/-- The metrics of the states after a bit. -/
def forwardStep (d : Detector) (y y1 y2 : Rat) (a : List Rat) : List Rat :=
  (List.range 16).map fun t =>
    let v := t.testBit 0
    maxRat (([0, 8] : List Nat).map fun h => a.getD (t / 2 + h) 0 + branchMetric d y y1 y2 (t / 2 + h) v)

def backwardStep (d : Detector) (y y1 y2 : Rat) (b : List Rat) : List Rat :=
  (List.range 16).map fun s =>
    maxRat ([false, true].map fun v => b.getD (nextState s v) 0 + branchMetric d y y1 y2 s v)

/-- Three samples in a row at each bit. -/
def samplesInRow (ys : List Rat) : List (Rat × Rat × Rat) :=
  ys.zip ((0 :: ys).zip (0 :: 0 :: ys))

def forwardAll (d : Detector) : List (Rat × Rat × Rat) → List Rat → List (List Rat)
  | [], _ => []
  | y :: t, a => a :: forwardAll d t (forwardStep d y.1 y.2.1 y.2.2 a)

/-- Metrics of the states behind each bit, and before all of them. -/
def backwardAll (d : Detector) : List (Rat × Rat × Rat) → List Rat × List (List Rat)
  | [] => (List.replicate 16 0, [])
  | y :: t =>
    match backwardAll d t with
    | (b, l) => (backwardStep d y.1 y.2.1 y.2.2 b, b :: l)

/-- The LLR of a bit: best path with 0 less best path with 1, in units of 0.5, from -31 to 31. -/
def llrOf (d : Detector) (y : Rat × Rat × Rat) (a b : List Rat) : Int :=
  let best := fun (v : Bool) => maxRat ((List.range 16).map fun s =>
    a.getD s 0 + branchMetric d y.1 y.2.1 y.2.2 s v + b.getD (nextState s v) 0)
  clampI (-31) 31 ((2 * (best false - best true) + 1 / 2).floor)

/-- The LLRs of a codeword's channel bits (max-log-MAP). -/
def llrsOf (d : Detector) (ys : List Rat) : List Int :=
  let rows := samplesInRow ys
  let fw := forwardAll d rows (List.replicate 16 0)
  let bw := (backwardAll d rows).2
  (rows.zip (fw.zip bw)).map fun p => llrOf d p.1 p.2.1 p.2.2

/-- LLRs of the codeword: signs turned where the randomiser puts out 1. -/
def derandomised (llr : List Int) : List Int :=
  llr.take 16 ++ (llr.drop 16).zipWith (fun v r => if r then -v else v) (randomiser (llr.length - 16) 0x7FFF)

/-! ### What a slot reads as -/

/-- What the target puts out for channel bits. -/
def targetSeries (d : Detector) (bits : List Bool) : List Rat :=
  (bits.zip ((false :: bits).zip (false :: false :: bits))).map fun p => targetOut d p.1 p.2.1 p.2.2

/-- Equalised samples and LLRs of a slot that holds a codeword. -/
def readSlot (d : Detector) (written : List Bool) : Reading → List Rat × List Int
  | .clean => (targetSeries d (channelBits written), written.map fun b => if b then -31 else 31)
  | .samples _ r =>
    let a := r.toArray
    let ys := (List.range 9216).map (equalised d a)
    (ys, derandomised (llrsOf d ys))

/-- Its SYNC field was found where the slot was predicted. -/
def syncFound : Reading → Bool
  | .clean => true
  | .samples sync _ => sync

/-- A C1 decode of a slot. A reading that says what was written needs no search. -/
def decodeSlot (limit : Nat) (d : Detector) (written : List Bool) : Reading → C1Result
  | .clean => cleanResult written
  | r => c1Decode limit (readSlot d written r).2

/-! ### Noise, adaptation, rate (R214, R225, R226) -/

/-- The noise of each bit against the decoded word. -/
def noiseOf (d : Detector) (ys : List Rat) (word : List Bool) : List Rat :=
  ys.zipWith (· - ·) (targetSeries d (channelBits word))

/-- Energy of the target. -/
def targetEnergy (d : Detector) : Rat := 1 + d.g1 * d.g1 + d.g2 * d.g2

/-- Sum of the squared noise, the target at unit energy. -/
def noiseEnergy (d : Detector) (ns : List Rat) : Rat := ns.foldl (fun a n => a + n * n) 0 / targetEnergy d

/-- One bit's LMS step: the noises of it and of the two bits before, its window, the two bits before. -/
def adaptBit (mu : Rat) (d : Detector) (n n1 n2 : Rat) (win : List Rat) (x1 x2 : Rat) : Detector :=
  let e := n - d.p1 * n1 - d.p2 * n2
  { taps := d.taps.zipWith (fun w x => w - mu * n * x) win, g1 := d.g1 + mu * n * x1, g2 := d.g2 + mu * n * x2
    p1 := d.p1 + mu * e * n1, p2 := d.p2 + mu * e * n2, var := d.var + mu * (e * e - d.var) }

/-- The detector after the bits of a codeword that verified, with a step of 2^-STEP_LOG2. -/
def adapted (stepLog2 : Nat) (d : Detector) (word : List Bool) : Reading → Detector
  | .clean => d
  | .samples sync r =>
    let a := r.toArray
    let ns := (noiseOf d (readSlot d word (.samples sync r)).1 word).toArray
    let bits := (channelBits word).toArray
    (List.range 9216).foldl (fun d k =>
      let x := fun (j : Nat) => if k < j then 1 else levelOf (bits.getD (k - j) false)
      let n := fun (j : Nat) => if k < j then 0 else ns.getD (k - j) 0
      adaptBit (1 / 2 ^ stepLog2) d (n 0) (n 1) (n 2) (windowAt a k) (x 1) (x 2)) d

/-- Greatest e with 10^e not above a positive number. -/
def logTen (x : Rat) : Int :=
  if 1 ≤ x then Nat.log 10 (x.floor.toNat) else -(Nat.clog 10 ((1 / x).ceil.toNat) : Int)

/-- 10 log10 of a positive number in Q8.8, rounded to nearest (R228). -/
def decibels (x : Rat) : Int := (logTen (x ^ 5120) + 1) / 2

/-- sir_cw of a codeword in units of 2^-32: its real value is not an exact number (log entry 50). -/
def sirOf (d : Detector) (ys : List Rat) (word : List Bool) : Int :=
  Config.sirCw ([d.g1, d.g2, d.p1, d.p2, d.var]) (ys.drop 16) ((channelBits word).drop 16)

end Sys2Proof.Machine
end

