-- ==== Sys2Proof/Machine/OuterCode.lean ====
section
/-! DEFINITION. Reed-Solomon codes: C2 over GF(2^10), its encoder and its errors-and-erasures decoder (08 R211-R213, R236), and
C3 over GF(2^8) with its encoder and erasure decoder (08 R220, R223). -/

namespace Sys2Proof.Machine

/-! ### The fields (R211, R220) -/

/-- A field of characteristic 2: elements, polynomial, bits of an element. -/
structure Field2 where
  size : Nat
  poly : Nat
  deg  : Nat
  deriving DecidableEq, Repr

/-- GF(2^10) of C2 (R211). -/
def c2Field : Field2 := { size := 1024, poly := 0x409, deg := 10 }

/-- GF(2^8) of C3 (R220). -/
def c3Field : Field2 := { size := 256, poly := 0x11D, deg := 8 }

def Field2.mul (g : Field2) (a b : Nat) : Nat := fieldTimes g.size g.poly g.deg a b
def Field2.pow (g : Field2) (a e : Nat) : Nat := fieldPower g.size g.poly g.deg g.deg a e
/-- The inverse of a nonzero element. -/
def Field2.inv (g : Field2) (a : Nat) : Nat := g.pow a (g.size - 2)
/-- A power of the root of the field's polynomial. -/
def Field2.root (g : Field2) (e : Nat) : Nat := g.pow 2 (e % (g.size - 1))

/-! ### Polynomials, lowest coefficient first -/

def polyAdd : List Nat → List Nat → List Nat
  | [], b => b
  | a, [] => a
  | x :: a, y :: b => (x ^^^ y) :: polyAdd a b

def polyScale (g : Field2) (k : Nat) (a : List Nat) : List Nat := a.map (g.mul k)

def polyMul (g : Field2) : List Nat → List Nat → List Nat
  | [], _ => []
  | x :: a, b => polyAdd (polyScale g x b) (0 :: polyMul g a b)

/-- The value at a point. -/
def polyAt (g : Field2) (a : List Nat) (x : Nat) : Nat := a.foldr (fun c v => c ^^^ g.mul x v) 0

/-- The formal derivative. -/
def polyDeriv (a : List Nat) : List Nat := (a.drop 1).zipIdx.map fun p => if p.2 % 2 = 0 then p.1 else 0

/-- Degree, 0 of the zero polynomial. -/
def polyDeg (a : List Nat) : Nat := a.zipIdx.foldl (fun d p => if p.1 ≠ 0 then p.2 else d) 0

/-! ### Encoding (R212, R220, R236) -/

/-- The generator with roots the first n powers. -/
def rsGenerator (g : Field2) (n : Nat) : List Nat :=
  (List.range n).foldl (fun a i => polyMul g a [g.root i, 1]) [1]

/-- One step of the division by the generator: the remainder, highest coefficient first, takes a data symbol in. -/
def rsStep (g : Field2) (gen r : List Nat) (d : Nat) : List Nat :=
  let k := (r.headD 0) ^^^ d
  (r.drop 1 ++ [0]).zipWith (· ^^^ ·) (polyScale g k gen)

/-- The n parity symbols of data symbols, the coefficient of the highest power first. -/
def rsParity (g : Field2) (n : Nat) (data : List Nat) : List Nat :=
  let gen := ((rsGenerator g n).take n).reverse
  data.foldl (rsStep g gen) (List.replicate n 0)

/-! ### Errors and erasures (R213) -/

/-- The value of a received word at a power of the root. -/
def rsSyndrome (g : Field2) (word : List Nat) (i : Nat) : Nat :=
  word.foldl (fun v c => g.mul v (g.root i) ^^^ c) 0

def rsSyndromes (g : Field2) (n : Nat) (word : List Nat) : List Nat := (List.range n).map (rsSyndrome g word)

/-- The locator of a place of a word of so many symbols. -/
def rsLocator (g : Field2) (len r : Nat) : Nat := g.root (len - 1 - r)

/-- The polynomial with the inverses of the locators as roots. -/
def rsErasurePoly (g : Field2) (len : Nat) (erased : List Nat) : List Nat :=
  erased.foldl (fun a r => polyMul g a [1, rsLocator g len r]) [1]

/-- Discrepancy of a locator polynomial at a syndrome. -/
def rsDiscrepancy (g : Field2) (syn lam : List Nat) (r : Nat) : Nat :=
  lam.zipIdx.foldl (fun v p => if p.2 ≤ r then v ^^^ g.mul p.1 (syn.getD (r - p.2) 0) else v) 0

/-- The Berlekamp-Massey steps from the erasures' polynomial on; the first argument counts those left, r is the syndrome. -/
def rsLocate (g : Field2) (syn : List Nat) (f : Nat) : Nat → Nat → Nat → List Nat → List Nat → List Nat
  | 0, _, _, lam, _ => lam
  | k + 1, r, l, lam, b =>
    let d := rsDiscrepancy g syn lam r
    let next := polyAdd lam (polyScale g d (0 :: b))
    if d ≠ 0 ∧ 2 * l ≤ r + f then rsLocate g syn f k (r + 1) (r + 1 + f - l) next (polyScale g (g.inv d) lam)
    else rsLocate g syn f k (r + 1) l next (0 :: b)

/-- What is to be added at a place (Forney). -/
def rsValue (g : Field2) (omega lam : List Nat) (x : Nat) : Nat :=
  let y := g.inv x
  g.mul x (g.mul (polyAt g omega y) (g.inv (polyAt g (polyDeriv lam) y)))

/-- The codeword within the bound 2e + f ≤ n of a received word with erased places, if there is one: the word, with the places of
its errors (R213). -/
def rsDecode (g : Field2) (n : Nat) (word erased : List Nat) : Option (List Nat × List Nat) :=
  let len := word.length
  let f := erased.length
  let word := word.zipIdx.map fun p => if erased.contains p.2 then 0 else p.1
  let syn := rsSyndromes g n word
  if n < f then none
  else if syn.all (· == 0) then some (word, [])
  else
    let gam := rsErasurePoly g len erased
    let lam := rsLocate g syn f (n - f) f f gam gam
    let places := (List.range len).filter fun r => polyAt g lam (g.inv (rsLocator g len r)) == 0
    let errors := places.filter fun r => !erased.contains r
    if places.length ≠ polyDeg lam ∨ n < 2 * errors.length + f then none
    else
      let omega := (polyMul g syn lam).take n
      let fixed := word.zipIdx.map fun p =>
        if places.contains p.2 then p.1 ^^^ rsValue g omega lam (rsLocator g len p.2) else p.1
      if (rsSyndromes g n fixed).all (· == 0) then some (fixed, errors) else none

end Sys2Proof.Machine
end

