-- ==== Sys2Proof/Machine/Drover.lean ====
section
/-! DEFINITION. The Drover Control Engine: block-floating arithmetic (12 R303-R307), profiles (R320, R321), mode
transfers (R317-R319), missing inputs, overruns, following errors (R313-R316, R323), and its work in a tick
(R302, R309-R312). -/

namespace Sys2Proof.Machine

/-! ### Arithmetic (12 R303-R307) -/

/-- Saturation to a 24-bit two's-complement mantissa. -/
def sat24 (x : Int) : Int := clampI (-8388608) 8388607 x

/-- x × 2^-n, with one half added before rounding down when n is above 0 (R304). -/
def roundShift (x n : Int) : Int :=
  if 0 < n then (x + 2 ^ (n.toNat - 1)) / 2 ^ n.toNat else x * 2 ^ (-n).toNat

/-- The mantissa of an error in codes with 24 fraction bits, for IN_EXP, before saturation (R304). -/
def errorMantissa (e24 inExp : Int) : Int := roundShift e24 (inExp + 1)

/-- The accumulator of a section for an input mantissa (R305). -/
def sectionAcc (c : Section) (x0 : Int) : Int :=
  c.b0 * x0 + c.b1 * c.x1 + c.b2 * c.x2 - 2 * (c.a1 * c.y1 + c.a2 * c.y2)

/-- The output of a section before saturation. -/
def sectionRaw (c : Section) (x0 : Int) : Int := (sectionAcc c x0 + 4194304) / 8388608

/-- A section's states after a computation (R305). -/
def sectionStep (c : Section) (x0 : Int) : Section :=
  { c with x1 := x0, x2 := c.x1, y1 := sat24 (sectionRaw c x0), y2 := c.y1 }

/-- The cascade: sections after the computation, the output mantissa, and the sections that saturated, counted from
k (R305). -/
def cascade : Nat → List Section → Int → List Section × Int × List Nat
  | _, [], x => ([], x, [])
  | k, c :: t, x =>
    let c' := sectionStep c x
    match cascade (k + 1) t c'.y1 with
    | (l, y, sats) => (c' :: l, y, if sectionRaw c x = c'.y1 then sats else k :: sats)

/-- Sum of the exponents of the sections in use: S_N - S_0 (R303). -/
def expSum (l : List Section) : Int := l.foldl (fun a c => a + c.exp) 0

/-- The code of an output mantissa before saturation (R306). -/
def outputCode (m sN : Int) : Int := roundShift m (23 - sN)

/-- Sign-extended code as a parameter. -/
def codeParam (i : Int) : Nat := toTwos 64 i

/-! ### Loops -/

def getLoop (n : Nat) (s : State) : Loop := s.drv.loops.getD n .reset

def setLoop (n : Nat) (f : Loop → Loop) (s : State) : State :=
  { s with drv := { s.drv with loops := s.drv.loops.modify n f } }

/-- Servo-derived sources (12 Table 12-1). -/
def servoDerived (src : Nat) : Bool := 0x08 ≤ src && src ≤ 0x0D

/-- Codes that producing loops have at a loop's set-point (sinks 0x10 to 0x2F). -/
def sinkSum (n : Nat) (s : State) : Int :=
  s.drv.loops.foldl (fun a l => if l.cfg.sink = 0x10 + n ∧ l.mode ≠ 0 then a + l.code else a) 0

/-- The value of a source: none when it is missing (R302, R313). -/
def sourceOf (src : Nat) (inp : List (Nat × Int)) (s : State) : Option Int :=
  if src = 0 then some 0
  else if 0x20 ≤ src ∧ src ≤ 0x3F then some (getLoop (src - 0x20) s).code
  else (inp.find? (·.1 == src)).map (·.2)

/-- The error of a loop in codes with 24 fraction bits (R301), or the source that is missing. -/
def loopError (n : Nat) (inp : List (Nat × Int)) (s : State) : Sum Nat (Int × Int) :=
  let l := getLoop n s
  match sourceOf l.cfg.fbSrc inp s, sourceOf l.cfg.spSrc inp s with
  | some fb, some sp =>
    let fb := if l.cfg.fbNeg then -fb else fb
    .inr (l.sp + (sp + sinkSum n s - fb) * 2 ^ 24, fb)
  | none, _ => .inl l.cfg.fbSrc
  | some _, none => .inl l.cfg.spSrc

/-! ### Safe stop, its start (13 R342) -/

abbrev causeOverrun : Nat := 1
abbrev causeFollow : Nat := 2
abbrev causeEncoder : Nat := 3
abbrev causeTension : Nat := 4
abbrev causeUndecided : Nat := 5
abbrev causeDiag : Nat := 6
abbrev causeCold : Nat := 7

/-- A new TARGET for a loop's profile generator (R309, R321). -/
def takeTarget (t : Int) (l : Loop) : Loop := { l with target := t, targetNext := none, doneRaised := false }

/-- Loop 0 for the safe stop: limits and TARGET 0 past the shadow, or the open-loop form in MANUAL (R342). -/
def stopLoop (openLoop : Bool) (s : State) : State :=
  if openLoop then
    setLoop 0 (fun l => { l with mode := 1, modeReq := 1, manOut := Config.sledNumber s.freeCount }) (drawFree s)
  else setLoop 0 (fun l => takeTarget 0 { l with
    cfg := { l.cfg with amax := (4000, 0), jmax := (320000, 0) } }) s

/-- Current loops whose current ADC has failed run in MANUAL at 0 in the next safe stop (13 Table 13-4). -/
def stopCurrents (s : State) : State :=
  (List.range 2).foldl (fun s i =>
    if (s.mon.currents.getD i (0, false)).2 then setLoop (2 + i) (fun l => { l with mode := 1, modeReq := 1, manOut := 0 }) s
    else s) s

/-- The safe stop begins (13 R342): write inhibit, SAFE_STOP, the profile to rest. -/
def beginStop (cause : Nat) (s : State) : State :=
  let s := inhibitOn 3 s
  let s := stopCurrents (stopLoop (decide (cause = causeUndecided)) s)
  { s with drv := { s.drv with safeStop := true }
           mon := { s.mon with safeCause := cause, openLoop := decide (cause = causeUndecided), slowFrom := none } }

/-- An overrun or following-error stop that recurs from the same cause within 10 s is lasting: the Drover unit is
DEGRADED (13 R343). -/
def recurringStop (cause : Nat) (s : State) : State :=
  if cause ≠ causeOverrun ∧ cause ≠ causeFollow then s
  else
    let again := match s.mon.lastStop with
      | some (c, t) => c == cause && !passedMs t s.aon.time 10000
      | none => false
    let s := { s with mon := { s.mon with lastStop := some (cause, s.aon.time) } }
    if again then setUnit unDrover 2 0 s else s

/-- A safe stop from a cause, with DRV_SAFE_STOP; during one no other begins (R316). -/
def safeStop (loop cause : Nat) (s : State) : State :=
  if s.drv.safeStop then s else recurringStop cause (raise evDrvSafeStop loop cause (beginStop cause s))

/-! ### Following error (12 R323) -/

/-- A trip of a loop: the event, and what FE_ACTION adds. -/
def feTrip (n : Nat) (e24 : Int) (s : State) : State :=
  let l := getLoop n s
  let s := setLoop n (fun l => { l with feTripped := true }) s
  let s := { s with drv := { s.drv with feTrips := sat64 s.drv.feTrips 1 } }
  let s := raise evDrvFollowErr n (codeParam (roundShift e24 24)) s
  if l.cfg.feAction = 1 then inhibitOn 2 s
  else if l.cfg.feAction = 2 then safeStop n causeFollow s
  else s

def feCheck (n : Nat) (e24 : Int) (s : State) : State :=
  let l := getLoop n s
  if l.cfg.feTime = 0 then s
  else
    let out := decide ((l.cfg.feLimit : Int) * 2 ^ 24 < (e24.natAbs : Int))
    let c := if out then satAdd 65535 l.feCount 1 else l.feCount - 1
    let s := setLoop n (fun l => { l with feCount := c, feTripped := l.feTripped && decide (c ≠ 0) }) s
    if out && decide (l.cfg.feTime ≤ c) && !l.feTripped then feTrip n e24 s else s

/-! ### Presets (12 R318) -/

/-- 2^n as a rational number. -/
def pow2 (n : Int) : Rat := if 0 ≤ n then (2 : Rat) ^ n.toNat else 1 / (2 : Rat) ^ (-n).toNat

/-- A value as a mantissa of a signal exponent, rounded as R304 rounds and saturated (log entry 18). -/
def mantissaOf (v : Rat) (exp : Int) : Int := sat24 (v * pow2 (23 - exp) + 1 / 2).floor

/-- b0 + b1 + b2 and 1 + a1 + a2 as values. -/
def sumB (c : Section) : Rat := ((c.b0 + c.b1 + c.b2 : Int) : Rat) * pow2 (c.exp - 23)
def sumA (c : Section) : Rat := 1 + ((c.a1 + c.a2 : Int) : Rat) / 4194304

/-- The transfer happens with all states 0: a1 + a2 is not -1 in INT_SEC, or 1 + a1 + a2 is 0 in an earlier section. -/
def presetBumps (intSec : Nat) : Nat → List Section → Bool
  | _, [] => false
  | k, c :: t =>
    (if k = intSec then c.a1 + c.a2 != -4194304 else c.a1 + c.a2 == -4194304) || presetBumps intSec (k + 1) t

/-- Sections preset for an input value v of exponent exp and an output u. -/
def presetSections (intSec : Nat) (u : Rat) : Nat → Int → Rat → List Section → List Section
  | _, _, _, [] => []
  | k, exp, v, c :: t =>
    let y := if k = intSec then u - sumB c * v else sumB c * v / sumA c
    let x := mantissaOf v exp
    let ym := mantissaOf y (exp + c.exp)
    { c with x1 := x, x2 := x, y1 := ym, y2 := ym } :: presetSections intSec u (k + 1) (exp + c.exp) y t

def zeroStates (c : Section) : Section := { c with x1 := 0, x2 := 0, y1 := 0, y2 := 0 }

/-- The preset of a loop for the input mantissa of the transfer tick. -/
def presetLoop (m : Int) (l : Loop) : Loop :=
  let used := l.sections.take l.cfg.nsec
  let rest := l.sections.drop l.cfg.nsec
  let new := if presetBumps l.cfg.intSec 0 used then used.map zeroStates
    else presetSections l.cfg.intSec (l.output : Rat) 0 l.cfg.inExp ((m : Rat) * pow2 (l.cfg.inExp - 23)) used
  { l with sections := new ++ rest, presetDue := false }

/-! ### Output stage (12 R306, R307) -/

/-- The section held by R307 keeps its y states. -/
def holdSection (i : Nat) (old new : List Section) : List Section :=
  new.zipIdx.map fun p => if p.2 = i then { p.1 with y1 := (old.getD i .zero).y1, y2 := (old.getD i .zero).y2 } else p.1

/-- Did the clamp act while INT_SEC moved towards the limit? -/
def windsUp (l : Loop) (new : List Section) (code clamped : Int) : Bool :=
  let i := l.cfg.intSec
  let d := (new.getD i .zero).y1 - (l.sections.getD i .zero).y1
  i < l.cfg.nsec && ((decide (clamped < code) && decide (0 < d)) || (decide (code < clamped) && decide (d < 0)))

/-- A loop's computation in AUTO from its input mantissa: states, flags and code; the saturated sections. -/
def autoStep (m : Int) (msat : Bool) (l : Loop) : Loop × List Nat :=
  let used := l.sections.take l.cfg.nsec
  match cascade 0 used m with
  | (new, y, sats) =>
    let raw := outputCode y (l.cfg.inExp + expSum used)
    let code := sat24 raw
    let out := clampI l.cfg.outMin l.cfg.outMax code
    let new := if windsUp l new code out then holdSection l.cfg.intSec l.sections new else new
    ({ l with sections := new ++ l.sections.drop l.cfg.nsec, code := out
              sat := msat || !sats.isEmpty || decide (raw ≠ code), clamp := decide (out ≠ code) }, sats)

/-- A loop's output in MANUAL: MAN_OUT under the clamp. -/
def manualStep (msat : Bool) (l : Loop) : Loop :=
  let out := clampI l.cfg.outMin l.cfg.outMax l.manOut
  { l with code := out, sat := msat, clamp := decide (out ≠ l.manOut) }

/-! ### A loop's work in a tick -/

def addBusy (n : Nat) (s : State) : State := { s with drv := { s.drv with busyNow := s.drv.busyNow + n } }

/-- A missing input (R313). -/
def missingLoop (n src : Nat) (s : State) : State :=
  let s := setLoop n (fun l => { l with missing := true }) s
  let s := if (getLoop n s).cfg.eager then s
    else setLoop n (fun l => { l with nextOut := some l.output }) s
  raise evDrvInputMissing n src { s with drv := { s.drv with missingCnt := sat64 s.drv.missingCnt 1 } }

/-- Saturated sections are counted, and DRV_SAT is raised once with the first (R305). -/
def satEvents (n : Nat) (sats : List Nat) (s : State) : State :=
  match sats with
  | [] => s
  | k :: _ => raise evDrvSat n k { s with drv := { s.drv with sats := sat64 s.drv.sats sats.length } }

/-- The computed code goes where the class takes it: the next tick edge, or the DAC queue (R310, R311). -/
def deliver (n : Nat) (s : State) : State :=
  let l := getLoop n s
  if l.cfg.eager then
    if l.cfg.sink = 3 ∨ l.cfg.sink = 4 then { s with drv := { s.drv with dacQueue := s.drv.dacQueue ++ [(n, l.code)] } }
    else setLoop n (fun l => { l with output := l.code }) s
  else setLoop n (fun l => { l with nextOut := some l.code }) s

/-- Sections and output of a loop whose input stage has run. -/
def computeLoop (n : Nat) (e24 fb : Int) (s : State) : State :=
  let l := getLoop n s
  let raw := errorMantissa e24 l.cfg.inExp
  let m := sat24 raw
  let msat := decide (raw ≠ m)
  let s := setLoop n (fun l => { l with
    missing := false, fbLast := fb, err24 := e24, before := l.sections, codeBefore := l.code }) s
  let s := feCheck n e24 s
  let s := addBusy (48 + if l.mode = 2 then 14 * l.cfg.nsec else 0) s
  let s :=
    if (getLoop n s).mode = 2 then
      let l := getLoop n s
      let s := if l.presetDue then addBusy (60 * l.cfg.nsec) (setLoop n (presetLoop m) s) else s
      match autoStep m msat (getLoop n s) with
      | (l, sats) => satEvents n sats (setLoop n (fun _ => l) s)
    else setLoop n (manualStep msat) s
  deliver n s

/-- A loop that is not OFF runs in the tick (R301), or misses an input (R313). -/
def runLoop (inp : List (Nat × Int)) (n : Nat) (s : State) : State :=
  if (getLoop n s).mode = 0 then s
  else
    match loopError n inp s with
    | .inl src => missingLoop n src s
    | .inr (e, fb) => computeLoop n e fb s

/-! ### Profile generators (12 R320, R321) -/

/-- A limit MANT × 2^EXP. -/
def limitOf (p : Nat × Int) : Rat := (p.1 : Rat) * pow2 p.2

def clampQ (lo hi x : Rat) : Rat := max lo (min hi x)

/-- rate_step of R320: target, dt, rate and acceleration to rate and acceleration. -/
def rateStep (vmax amax jmax t dt r a : Rat) : Rat × Rat :=
  let t := clampQ (-vmax) vmax t
  let e := t - r
  if |e| ≤ jmax * dt * dt * dt ∧ |a| ≤ jmax * dt then (t, 0)
  else
    let brake := a * |a| / (2 * jmax)
    let acmd := if 0 < e - brake then amax else -amax
    let an := a + clampQ (-(jmax * dt)) (jmax * dt) (acmd - a)
    let rn := r + (a + an) / 2 * dt
    if (t - r) * (t - rn) < 0 then (t, 0) else (rn, an)

/-- A square root to 24 fraction bits, rounded down. -/
def sqrtQ (x : Rat) : Rat := ((Nat.sqrt (x * 2 ^ 48).floor.toNat : Nat) : Rat) / 2 ^ 24

def signQ (x : Rat) : Rat := if 0 < x then 1 else if x < 0 then -1 else 0

/-- position_step of R320: position, velocity, acceleration. -/
def positionStep (vmax amax jmax t dt p v a : Rat) : Rat × Rat × Rat :=
  let e := t - p
  let vt := signQ e * min vmax (sqrtQ (2 * amax * |e|))
  match rateStep vmax amax jmax vt dt v a with
  | (v', a') =>
    let pn := p + (v + v') / 2 * dt
    if (t - p) * (t - pn) ≤ 0 then (t, 0, 0) else (pn, v', a')

/-- A profile state as kept, with 24 fraction bits: how R320 rounds is open, so a free choice takes the value below or
the one above. -/
def keep24 (x : Rat) (s : State) : Int × State :=
  let f : Int := Rat.floor (x * 2 ^ 24)
  if (f : Rat) = x * 2 ^ 24 then (f, s)
  else (f + (if Config.freeBool s.freeCount then 1 else 0), drawFree s)

def fromQ24 (x : Int) : Rat := (x : Rat) / 2 ^ 24

/-- The tick period in seconds. -/
def periodQ (cycles : Nat) : Rat := (cycles : Rat) / 1600000000

/-- The set-point has reached TARGET with its rate terms at 0. -/
def atTarget (l : Loop) : Bool := l.sp == l.target * 2 ^ 24 && l.vel == 0 && l.acc == 0

/-- DRV_PROFILE_DONE, once for a TARGET. -/
def profileDone (n : Nat) (s : State) : State :=
  let l := getLoop n s
  if atTarget l && !l.doneRaised then raiseP evDrvProfileDone n (setLoop n (fun l => { l with doneRaised := true }) s)
  else s

/-- One step of a loop's profile generator for the period of the previous tick, in core cycles. -/
def profileStep (period n : Nat) (s : State) : State :=
  let l := getLoop n s
  if l.mode = 0 then s
  else
    let dt := periodQ period
    let v := limitOf l.cfg.vmax
    let a := limitOf l.cfg.amax
    let j := limitOf l.cfg.jmax
    let t : Rat := (l.target : Rat)
    let s :=
      if l.cfg.kind = 1 then
        match rateStep v a j t dt (fromQ24 l.sp) (fromQ24 l.acc) with
        | (r, a) =>
          match keep24 r s with
          | (r, s) => match keep24 a s with
            | (a, s) => addBusy 64 (setLoop n (fun l => { l with sp := r, vel := 0, acc := a }) s)
      else if l.cfg.kind = 2 then
        match positionStep v a j t dt (fromQ24 l.sp) (fromQ24 l.vel) (fromQ24 l.acc) with
        | (p, v, a) =>
          match keep24 p s with
          | (p, s) => match keep24 v s with
            | (v, s) => match keep24 a s with
              | (a, s) => addBusy 64 (setLoop n (fun l => { l with sp := p, vel := v, acc := a }) s)
      else setLoop n (fun l => { l with sp := l.target * 2 ^ 24, vel := 0, acc := 0 }) s
    profileDone n s

/-! ### Changes at Drover cycle 10 (12 R309, R317, R319, R329) -/

/-- A source code of Table 12-1. -/
def sourceCode (c : Nat) : Bool := c ≤ 0x0E || (0x20 ≤ c && c ≤ 0x3F)

def sinkCode (c : Nat) : Bool := c ≤ 4 || (0x10 ≤ c && c ≤ 0x2F)

def isHardSink (c : Nat) : Bool := 1 ≤ c && c ≤ 4

/-- A loop's shadow passes the checks of R329 that concern it alone. -/
def loopCfgOk (n : Nat) (c : LoopCfg) : Bool :=
  1 ≤ c.nsec && c.nsec ≤ 8 && (c.intSec == c.nsec - 1 || c.intSec == 0xF)
    && sourceCode c.fbSrc && sourceCode c.spSrc && sinkCode c.sink
    && !((c.sink == 1 || c.sink == 2) && c.eager) && !((c.sink == 3 || c.sink == 4) && !c.eager)
    && !(c.fbSrc == 0x20 + n || c.spSrc == 0x20 + n || c.sink == 0x10 + n)
    && (!c.eager || servoDerived c.fbSrc)
    && decide (c.outMin ≤ c.outMax)
    && (!isHardSink c.sink || (decide (-32768 ≤ c.outMin) && decide (c.outMax ≤ 32767)))
    && c.feAction != 3 && c.kind != 3 && (c.kind == 0 || (c.vmax.1 != 0 && c.amax.1 != 0 && c.jmax.1 != 0))

/-- Another loop's shadow names the same hardware sink. -/
def sinkTwice (n : Nat) (s : State) : Bool :=
  let c := (getLoop n s).shadow
  isHardSink c.sink && (s.drv.loops.zipIdx.any fun p => p.2 != n && p.1.shadow.sink == c.sink)

/-- The first loop at fault, or 0x3F for DRV_SPEED_LOOP. -/
def droverFault (s : State) : Option Nat :=
  match (List.range 32).find? fun n => !loopCfgOk n (getLoop n s).shadow || sinkTwice n s with
  | some n => some n
  | none => if s.drv.speedEnSh && (getLoop s.drv.speedLoopSh s).shadow.kind != 1 then some 0x3F else none

/-- A loop takes its shadow; a section that becomes active starts with states 0. -/
def takeShadow (l : Loop) : Loop :=
  { l with cfg := l.shadow
           sections := l.sections.zipIdx.map fun p => if l.cfg.nsec ≤ p.2 && p.2 < l.shadow.nsec then zeroStates p.1 else p.1 }

/-- The transfer of the Drover's commit group (R329). -/
def droverTransfer (s : State) : State :=
  if !s.drv.commit.pending then s
  else
    match droverFault s with
    | some n =>
      raiseP evDrvCfgErr n { s with drv := { s.drv with
        commit := { pending := false, err := true }, errLoop := n, speedLoopSh := s.drv.speedLoop
        speedEnSh := s.drv.speedEn, loops := s.drv.loops.map fun l => { l with shadow := l.cfg } } }
    | none =>
      { s with drv := { s.drv with
        commit := .none, speedLoop := s.drv.speedLoopSh, speedEn := s.drv.speedEnSh
        loops := s.drv.loops.map takeShadow } }

/-- A section loaded by DRV_SET_SECTION or by firmware: coefficients, E; the states stay. -/
def loadSection (old new : Section) : Section :=
  { new with x1 := old.x1, x2 := old.x2, y1 := old.y1, y2 := old.y2 }

def applyLoads (l : Loop) : Loop :=
  l.loads.foldl (fun l p => { l with sections := l.sections.modify p.1 fun c => loadSection c p.2 }) { l with loads := [] }

/-- One loop's requested mode takes effect; the count of MANUAL to AUTO transfers made in the tick goes along. -/
def modeChange (made n : Nat) (s : State) : Nat × State :=
  let l := getLoop n s
  if l.modeReq = l.mode then (made, s)
  else if l.modeReq = 0 then
    (made, setLoop n (fun l => { l with
      mode := 0, sections := l.sections.map zeroStates, presetDue := false, nextOut := none }) s)
  else if l.modeReq = 1 then
    (made, setLoop n (fun l => { l with mode := 1, presetDue := false
                                        manOut := if l.mode = 2 then l.output else l.manOut }) s)
  else if l.mode = 0 then (made, setLoop n (fun l => { l with mode := 2, bump := false }) s)
  else if 2 ≤ made then (made, s)
  else
    let bump := presetBumps l.cfg.intSec 0 (l.sections.take l.cfg.nsec)
    let s := setLoop n (fun l => { l with mode := 2, bump := bump, presetDue := true }) s
    let s := { s with drv := { s.drv with transfers := sat64 s.drv.transfers 1 } }
    (made + 1, if bump then raiseP evDrvTransferBump n s else s)

def modeChanges (s : State) : State := ((List.range 32).foldl (fun p n => modeChange p.1 n p.2) (0, s)).2

/-- New TARGET values are taken in. -/
def takeTargets (s : State) : State :=
  { s with drv := { s.drv with loops := s.drv.loops.map fun l => match l.targetNext with
      | some t => takeTarget t l
      | none => l } }

/-- The changes of R309, in order. -/
def droverChanges (s : State) : State :=
  let s := droverTransfer s
  let s := { s with drv := { s.drv with loops := s.drv.loops.map applyLoads } }
  takeTargets (modeChanges s)

/-! ### Outputs and overruns (12 R310, R314-R316) -/

/-- An output is applied at a sink. -/
def applyOut (n : Nat) (c : Int) (s : State) : State :=
  let l := getLoop n s
  let s := setLoop n (fun l => { l with output := c }) s
  if isHardSink l.cfg.sink then emit (.sink l.cfg.sink c) s else s

/-- The enable of a PWM sink, EN_A or EN_B (12 R317, 19 R467): the always-on domain's, while a loop with that sink is in MANUAL or
AUTO. -/
def reelEnable (sink : Nat) (s : State) : Bool := s.aon.reelEn && s.drv.loops.any fun l => l.cfg.sink == sink && l.mode != 0

/-- An overrun of a loop, or a tick without one (R316). -/
def overrunLoop (n : Nat) (late : Bool) (s : State) : State :=
  if !late then setLoop n (fun l => { l with overrun := false, ovrRun := 0 }) s
  else
    let s := setLoop n (fun l => { l with overrun := true, ovrRun := min 3 (l.ovrRun + 1) }) s
    let s := { s with drv := { s.drv with overruns := sat64 s.drv.overruns 1 } }
    let s := raise evDrvOverrun n (boolNat (getLoop n s).cfg.eager) s
    if (getLoop n s).ovrRun = 3 then safeStop n causeOverrun s else s

/-- A framed loop's computation is abandoned: its states and code are those of before (R314). -/
def abandon (n : Nat) (s : State) : State :=
  setLoop n (fun l => { l with
    sections := l.sections.zipIdx.map fun p => loadSection (l.before.getD p.2 .zero) p.1
    code := l.codeBefore, nextOut := some l.output }) s

/-- Does a loop overrun at this edge? A framed one that has not completed, an eager one whose output is not applied. -/
def overruns (unfinished : List Nat) (n : Nat) (s : State) : Bool :=
  let l := getLoop n s
  l.mode != 0 && (if l.cfg.eager then s.drv.dacQueue.any (·.1 == n) else unfinished.contains n)

/-- Overrun decisions, then framed outputs of the previous tick. -/
def edgeLoop (unfinished : List Nat) (n : Nat) (s : State) : State :=
  let late := overruns unfinished n s
  let s := overrunLoop n late s
  let s := if late && !(getLoop n s).cfg.eager then abandon n s else s
  match (getLoop n s).nextOut with
  | some c => applyOut n c (setLoop n (fun l => { l with nextOut := none }) s)
  | none => s

/-- Eager loops whose measurements were not posted by the tick edge miss their input (R313). -/
def unposted (s : State) : State :=
  if s.drv.posted then s
  else (List.range 32).foldl (fun s n =>
    let l := getLoop n s
    if l.cfg.eager && l.mode != 0 && servoDerived l.cfg.fbSrc then missingLoop n l.cfg.fbSrc s else s) s

/-- The Drover's busy count of the tick that ends. -/
def busyEdge (s : State) : State :=
  { s with drv := { s.drv with busyLast := s.drv.busyNow, busyMax := max s.drv.busyMax s.drv.busyNow, busyNow := 0 } }

/-- The Drover's part of a tick edge and the framed work after it (Table 12-2). -/
def droverTick (period : Nat) (unfinished : List Nat) (inp : List (Nat × Int)) (s : State) : State :=
  let s := busyEdge s
  let s := (List.range 32).foldl (fun s n => edgeLoop unfinished n s) s
  let s := droverChanges { s with drv := { s.drv with latched := inp, posted := false } }
  let s := (List.range 32).foldl (fun s n => profileStep period n s) s
  (List.range 32).foldl (fun s n => if (getLoop n s).cfg.eager then s else runLoop inp n s) s

/-! ### Eager loops (12 R311, R315) -/

/-- Inputs of an eager loop: the posted measurements, and the others as latched at the tick edge. -/
def eagerInputs (m : List (Nat × Int)) (s : State) : List (Nat × Int) :=
  m ++ s.drv.latched.filter fun p => !servoDerived p.1

/-- A posted input reaches an eager loop: it computes, or the input waits in place of an older one. -/
def postLoop (m : List (Nat × Int)) (n : Nat) (s : State) : State :=
  let l := getLoop n s
  if !l.cfg.eager || l.mode == 0 then s
  else if s.drv.dacQueue.any (·.1 == n) then
    { s with drv := { s.drv with waitPost := s.drv.waitPost.filter (·.1 != n) ++ [(n, m)] } }
  else runLoop (eagerInputs m s) n s

/-- All eager loops, in loop order. -/
def postAll (m : List (Nat × Int)) (s : State) : State :=
  (List.range 32).foldl (fun s n => postLoop m n s) { s with drv := { s.drv with posted := true } }

/-- The oldest DAC write completes; an input that waited for its loop is taken. -/
def dacDone (s : State) : State :=
  match s.drv.dacQueue with
  | [] => s
  | (n, c) :: t =>
    let s := applyOut n c { s with drv := { s.drv with dacQueue := t } }
    match s.drv.waitPost.find? (·.1 == n) with
    | none => s
    | some (_, m) => postLoop m n { s with drv := { s.drv with waitPost := s.drv.waitPost.filter (·.1 != n) } }

end Sys2Proof.Machine
end

