-- ==== Sys2Proof/Machine/Transport.lean ====
section
/-! DEFINITION. The transport: units and derived sources (13 R332-R335), the default loops (R338, R339), the checks of
the feedback sensors and their substitutes (R340, R341), write inhibit (R345), the speed decision (R347, R348). -/

namespace Sys2Proof.Machine

/-! ### Sections from values (12 R325, 13 R339) -/

/-- A value rounded to an integer, ties to even. -/
def roundEven (x : Rat) : Int :=
  let f := Rat.floor x
  let d := x - (f : Rat)
  if d < 1 / 2 then f else if 1 / 2 < d then f + 1 else if f % 2 = 0 then f else f + 1

/-- A mantissa of 2^23 becomes 2^23 - 1. -/
def mant24 (x : Rat) : Int := min 8388607 (roundEven x)

/-- The smallest E from -32 to 31 with every |b| below 2^E. -/
def expFor (m : Rat) : Int :=
  if m = 0 then -32
  else ((List.range 64).find? fun i => decide (m < pow2 ((i : Int) - 32))).elim 31 fun i => (i : Int) - 32

/-- A section from coefficient values (R325). -/
def sectionOf (b0 b1 b2 a1 a2 : Rat) : Section :=
  let e := expFor (max |b0| (max |b1| |b2|))
  let b := fun (x : Rat) => mant24 (x * pow2 (23 - e))
  { Section.zero with b0 := b b0, b1 := b b1, b2 := b b2, a1 := mant24 (a1 * 4194304), a2 := mant24 (a2 * 4194304), exp := e }

/-- A PI section (R339). -/
def piSection (kp ki dt : Rat) : Section := sectionOf (kp + ki * dt) (-kp) 0 (-1) 0

/-- Sections of loops 0 to 3 (13 Table 13-3) for a tick period. -/
def referenceSections (n : Nat) (dt : Rat) : List Section :=
  if n = 0 then [piSection (3 / 2) 60 dt]
  else if n = 1 then [sectionOf (1 / 4) 0 0 (-3 / 4) 0, piSection 2 1000 dt]
  else [piSection (4 / 5) 8000 dt]

/-- A section of the sled calibration record (loops 4 and 5): its numbers are the sled's. -/
def calibrated (n k : Nat) : Section :=
  let v := fun i => Config.sledNumber (1000 + 100 * n + 10 * k + i)
  { Section.zero with b0 := sat24 (v 0), b1 := sat24 (v 1), b2 := sat24 (v 2), a1 := sat24 (v 3), a2 := sat24 (v 4)
                      exp := clampI (-32) 31 (v 5) }

/-! ### Default configuration (13 R338) -/

/-- 13 Table 13-2, loop by loop. -/
def defaultCfg (n : Nat) : LoopCfg :=
  let z := LoopCfg.reset
  if n = 0 then { z with nsec := 1, intSec := 0, fbSrc := 0x0E, sink := 0x13, inExp := 14, kind := 1, vmax := (8000, 0)
                         amax := (8000, 0), jmax := (320000, 0), outMin := -12000, outMax := 12000, feLimit := 160
                         feTime := 800, feAction := 0 }
  else if n = 1 then { z with nsec := 2, intSec := 1, fbSrc := 0x05, sink := 0x12, inExp := 13, outMin := -12000
                              outMax := 12000, feLimit := 400, feTime := 400, feAction := 1 }
  else if n = 2 then { z with nsec := 1, intSec := 0, fbSrc := 0x06, sink := 0x01, inExp := 15, outMin := -32000
                              outMax := 32000 }
  else if n = 3 then { z with nsec := 1, intSec := 0, fbSrc := 0x07, sink := 0x02, inExp := 15, outMin := -32000
                              outMax := 32000 }
  else if n = 4 then { z with eager := true, nsec := 4, intSec := 3, fbSrc := 0x0C, sink := 0x03, inExp := 16, kind := 2
                              vmax := (2000000, 0), amax := (15625000, 8), jmax := (15258789, 18), outMin := -32767
                              outMax := 32767, feLimit := 500, feTime := 40, feAction := 0 }
  else if n = 5 then { z with eager := true, nsec := 2, intSec := 1, fbSrc := 0x0D, sink := 0x04, inExp := 13
                              outMin := -32767, outMax := 32767, feLimit := 300, feTime := 200, feAction := 1 }
  else z

def defaultTarget (n : Nat) : Int := if n = 1 then 1800 else 0

def defaultSections (n : Nat) (dt : Rat) : List Section :=
  if n ≤ 3 then referenceSections n dt
  else if n = 4 then (List.range 4).map (calibrated 4)
  else if n = 5 then (List.range 2).map (calibrated 5)
  else []

/-- A loop as firmware configures it: its states stay where it keeps running. -/
def defaultLoop (dt : Rat) (n : Nat) (l : Loop) : Loop :=
  if 5 < n then { l with modeReq := 0, cfg := .reset, shadow := .reset }
  else
    let new := defaultSections n dt
    { l with cfg := defaultCfg n, shadow := defaultCfg n, modeReq := 2, hostCoef := false
             sections := l.sections.zipIdx.map fun p => loadSection p.1 (new.getD p.2 .zero)
             targetNext := some (defaultTarget n) }

/-- The period that dt is taken from: LAST_PERIOD, or a synthetic tick before the first tick. -/
def tickPeriod (s : State) : Nat := if s.sys.lastPeriod = 0 then 160000 else s.sys.lastPeriod

/-- Firmware loads the default configuration of every loop (12 R330, 13 R338); modes change at the next tick. -/
def loadDefaults (s : State) : State :=
  { s with drv := { s.drv with
    loops := s.drv.loops.zipIdx.map fun p => defaultLoop (periodQ (tickPeriod s)) p.2 p.1
    speedLoop := 0, speedEn := true, speedLoopSh := 0, speedEnSh := true, secPeriod := tickPeriod s
    secStep := s.sys.step } }

/-- Firmware loads the sections anew when the period has moved by more than 1/16 or the step has changed (R339). -/
def reloadSections (s : State) : State :=
  let p := tickPeriod s
  if absDiff p s.drv.secPeriod * 16 ≤ s.drv.secPeriod ∧ s.sys.step = s.drv.secStep then s
  else
    { s with drv := { s.drv with
      secPeriod := p, secStep := s.sys.step
      loops := s.drv.loops.zipIdx.map fun q =>
        if 3 < q.2 || q.1.hostCoef then q.1
        else { q.1 with loads := q.1.loads ++ (referenceSections q.2 (periodQ p)).zipIdx.map fun c => (c.2, c.1) } } }

/-! ### Derived sources (13 R332-R335) -/

/-- Twice pi, as a rational number (log entry 18). -/
def twoPi : Rat := 6283185307179586 / 1000000000000000

def nearest (x : Rat) : Int := Rat.floor (x + 1 / 2)

/-- Radius of a reel in micrometres from the edges of a servo tick (R334). -/
def radiusOf (edges : Nat) : Nat := (nearest (200 * 16384 / (twoPi * (edges : Rat)))).toNat

/-- Radius of a substituted reel. -/
def otherRadius (r : Nat) (s : State) : Nat := Nat.sqrt (s.mon.kSquare - r * r)

/-- Speed in mm/s from edges of a reel of a radius in a tick of a period. -/
def reelSpeed (edges : Rat) (r period : Nat) : Rat :=
  edges * twoPi * (r : Rat) / 16384 / 1000 / periodQ period

/-- Speed in mm/s that a servo frame period gives. -/
def servoSpeed (period : Nat) : Rat := if period = 0 then 0 else 320000000 / (period : Rat)

def lookup (src : Nat) (l : List (Nat × Int)) : Option Int := (l.find? (·.1 == src)).map (·.2)

/-- A reading with a source's value replaced. -/
def put (src : Nat) (v : Int) (l : List (Nat × Int)) : List (Nat × Int) := (src, v) :: l.filter (·.1 != src)

def sensorState (n : Nat) (s : State) : Nat := (s.mon.sensors.getD n { Sensor.reset with state := 0 }).state

/-- Encoder values of a failed encoder taken from the other, scaled by the radii (Table 13-4). -/
def substEncoder (src other : Nat) (rOwn rOther : Nat) (l : List (Nat × Int)) : List (Nat × Int) :=
  let scale := fun (v : Int) => if rOwn = 0 then v else nearest ((v : Rat) * rOther / rOwn)
  let l := match lookup other l with
    | some v => put src (scale v) l
    | none => l.filter (·.1 != src)
  match lookup (other + 1) l with
  | some v => put (src + 1) (scale v) l
  | none => l.filter (·.1 != src + 1)

/-- Inputs with the substitutes of Table 13-4 in place. -/
def substituted (t : TickInput) (s : State) : List (Nat × Int) :=
  let l := t.sources
  let l := if sensorState 0 s = 1 ∨ sensorState 0 s = 2 then
      substEncoder 1 3 (otherRadius s.mon.radiusB s) s.mon.radiusB l else l
  let l := if sensorState 1 s = 1 ∨ sensorState 1 s = 2 then
      substEncoder 3 1 (otherRadius s.mon.radiusA s) s.mon.radiusA l else l
  if sensorState 2 s ≠ 0 then put 5 t.tensionEst l else l

/-- Source 0x0E (R333): by the servo frame period while locked, else by reel B. -/
def speedSource (period : Nat) (l : List (Nat × Int)) (s : State) : Option Int :=
  let v := lookup 4 l
  if s.mon.lock ∧ 0 < period then
    let m := nearest (servoSpeed period)
    some (if v.any (· < 0) then -m else m)
  else v.map fun v => nearest (reelSpeed ((v : Rat) / 256) s.mon.radiusB period)

/-- Servo channels in service with a position. -/
def channelsIn (ch : List (Option Int)) (from_ n : Nat) (s : State) : List Int :=
  (List.range n).filterMap fun i =>
    if sensorState (3 + from_ + i) s = 0 then (ch.getD (from_ + i) none) else none

def meanInt (l : List Int) : Option Int := if l.isEmpty then none else some (divRound (l.foldl (· + ·) 0) l.length)

/-- Sources 0x08 to 0x0D from the channels' positions (R335): combined over the channels in service. -/
def servoSources (ch : List (Option Int)) (s : State) : List (Nat × Int) :=
  let own := (List.range 4).filterMap fun i => (ch.getD i none).map fun v => (8 + i, v)
  let all := match meanInt (channelsIn ch 0 4 s) with
    | some v => [(0x0C, v)]
    | none => []
  let tilt := match meanInt (channelsIn ch 2 2 s), meanInt (channelsIn ch 0 2 s) with
    | some u, some l => [(0x0D, u - l)]
    | _, _ => []
  own ++ all ++ tilt

/-! ### Sensor checks (13 R340, R341) -/

def setSensor (n : Nat) (f : Sensor → Sensor) (s : State) : State :=
  { s with mon := { s.mon with sensors := s.mon.sensors.modify n f } }

/-- Unit of a sensor: encoder A, encoder B, tension, servo channels. -/
def sensorUnit (n : Nat) : Nat := if n = 0 then unEncA else if n = 1 then unEncB else if n = 2 then unTension else unServo

/-- A sensor's failure begins (R340, R341): DRV_SENSOR_FAIL; encoders and the tension transducer begin a safe stop. -/
def sensorFail (n : Nat) (s : State) : State :=
  if sensorState n s ≠ 0 then s
  else
    let s := raiseP evDrvSensorFail n (setSensor n (fun x => { x with state := 1, passes := 0 }) s)
    if n < 3 then safeStop 0x3F (if n = 2 then causeTension else causeEncoder) (setUnit (sensorUnit n) 1 0 s)
    else s

/-- A servo channel that fails within 2 s of its re-admission is lasting (R341). -/
def channelFail (n : Nat) (s : State) : State :=
  let again := match (s.mon.sensors.getD n .reset).readmitted with
    | some t => !passedMs t s.aon.time 2000
    | none => false
  let s := sensorFail n s
  if again then
    raiseP evDrvSensorLasting n (setUnit unServo 2 0 (setSensor n (fun x => { x with state := 2 }) s))
  else s

/-- Does a speed differ from a reference by more than a limit in 256ths? -/
def differs (v ref : Rat) (limit : Nat) : Bool := decide (|ref| * limit < |v - ref| * 256)

/-- Checks of one encoder in a tick: the new counters, and whether a check fails. -/
def encoderCheck (cfg : MonCfg) (illegal edges otherEdges : Nat) (wrong otherWrong : Bool) (x : Sensor) : Sensor × Bool :=
  let stuck := if edges = 0 ∧ 1 ≤ otherEdges then x.count + 1 else 0
  let off := if wrong && !otherWrong then x.count2 + 1 else 0
  ({ x with count := stuck, count2 := off }, decide (4 ≤ illegal) || decide (cfg.stuckTicks ≤ stuck) || decide (8 ≤ off))

/-- The two encoders in a tick (R334, R340). -/
def checkEncoders (t : TickInput) (s : State) : State :=
  let cfg := s.mon.cfg
  let va := reelSpeed (t.encA.2 : Rat) s.mon.radiusA t.period
  let vb := reelSpeed (t.encB.2 : Rat) s.mon.radiusB t.period
  let v := servoSpeed t.period
  let known := s.mon.kSquare != 0
  let wa := s.mon.lock && known && differs va v cfg.agree
  let wb := s.mon.lock && known && differs vb v cfg.agree
  match encoderCheck cfg t.encA.1 t.encA.2 t.encB.2 wa wb (s.mon.sensors.getD 0 .reset),
    encoderCheck cfg t.encB.1 t.encB.2 t.encA.2 wb wa (s.mon.sensors.getD 1 .reset) with
  | (xa, fa), (xb, fb) =>
    let s := setSensor 1 (fun _ => xb) (setSensor 0 (fun _ => xa) s)
    let apart := !s.mon.lock && known && differs va (max va vb) cfg.agree || !s.mon.lock && known && differs vb (max va vb) cfg.agree
    let s := setSensor 0 (fun x => { x with count3 := if apart then x.count3 + 1 else 0 }) s
    let s := if fa then sensorFail 0 s else s
    let s := if fb then sensorFail 1 s else s
    let both := decide (8 ≤ (s.mon.sensors.getD 0 .reset).count3) && sensorState 0 s == 0 && sensorState 1 s == 0
    let s := if both then
        safeStop 0x3F causeUndecided (setSensor 1 (fun x => { x with state := 3 }) (setSensor 0 (fun x => { x with state := 3 }) s))
      else s
    let pass := s.mon.lock && !fa && !fb && !wa && !wb && sensorState 0 s == 0 && sensorState 1 s == 0
      && 1 ≤ t.encA.2 && 1 ≤ t.encB.2
    if pass then
      let ra := radiusOf t.encA.2
      let rb := radiusOf t.encB.2
      { s with mon := { s.mon with
        radiusA := ra, radiusB := rb
        kSquare := if s.mon.kSquare = 0 ∧ s.cart.loaded then ra * ra + rb * rb else s.mon.kSquare } }
    else s

/-- The tension transducer in a tick. -/
def checkTension (t : TickInput) (s : State) : State :=
  match lookup 5 t.sources with
  | none => s
  | some v =>
    let x := s.mon.sensors.getD 2 .reset
    let cur := (lookup 6 t.sources).getD x.ref
    let rail := if v = 0 ∨ v = 0xFFFF then x.count + 1 else 0
    let still := decide ((v - x.last).natAbs ≤ 1)
    let run := if still then x.count2 + 1 else 0
    let ref := if still then x.ref else cur
    let moved := still && (x.moved || decide (200 < (cur - x.ref).natAbs))
    let est : Rat := (t.tensionEst : Rat)
    let off := if differs (v : Rat) est s.mon.cfg.tenAgree then x.count3 + 1 else 0
    let s := setSensor 2 (fun x => { x with
      count := rail, count2 := run, count3 := off, last := if still then x.last else v, ref := ref, moved := moved }) s
    if 2 ≤ rail ∨ (64 ≤ run ∧ moved = true) ∨ 32 ≤ off then sensorFail 2 s else s

/-- Median of a list of positions. -/
def medianInt (l : List Int) : Int :=
  let m := sortBy (· ≤ ·) l
  let n := m.length
  if n % 2 = 1 then m.getD (n / 2) 0 else divRound (m.getD (n / 2 - 1) 0 + m.getD (n / 2) 0) 2

/-- One servo channel in a tick (Table 13-4, R341). -/
def checkChannel (t : TickInput) (s : State) (i : Nat) : State :=
  let n := 3 + i
  let own := t.servoCh.getD i none
  let others := (List.range 4).filterMap fun j => if j = i then none else t.servoCh.getD j none
  let x := s.mon.sensors.getD n .reset
  let gone := if own.isNone && !others.isEmpty then x.count + 1 else if own.isSome then 0 else x.count
  let far := match own with
    | some v => !others.isEmpty && decide (1000 < (v - medianInt others).natAbs)
    | none => false
  let out := if far then x.count2 + 1 else 0
  let good := own.isSome && !far
  let s := setSensor n (fun x => { x with count := gone, count2 := out, passes := if good then x.passes + 1 else 0 }) s
  if 16 ≤ gone ∨ 4 ≤ out then channelFail n s
  else if sensorState n s = 1 ∧ 256 ≤ (s.mon.sensors.getD n .reset).passes then
    addTransient unServo (setSensor n (fun x => { x with state := 0, readmitted := some s.aon.time }) s)
  else s

/-- A motor current ADC at a rail for 2 ticks has failed (Table 13-4). -/
def checkCurrent (t : TickInput) (s : State) (i : Nat) : State :=
  match lookup (6 + i) t.sources with
  | none => s
  | some v =>
    let c := s.mon.currents.getD i (0, false)
    let n := if v = -32768 ∨ v = 32767 then c.1 + 1 else 0
    let fail := decide (2 ≤ n) && !c.2
    let s := { s with mon := { s.mon with currents := s.mon.currents.set i (n, c.2 || decide (2 ≤ n)) } }
    if fail then raiseP evDrvSensorFail (7 + i) s else s

/-- Span: with both channels of a band out, writing is inhibited until one returns (R341, Table 13-5). -/
def spanMissing (s : State) : Bool :=
  (sensorState 3 s != 0 && sensorState 4 s != 0) || (sensorState 5 s != 0 && sensorState 6 s != 0)

/-- All checks of a tick. -/
def checkSensors (t : TickInput) (s : State) : State :=
  let s := checkTension t (checkEncoders t s)
  let s := if s.mon.lock then (List.range 4).foldl (checkChannel t) s else s
  let s := (List.range 2).foldl (checkCurrent t) s
  if spanMissing s && !s.mon.inhSrc.getLsbD 4 then inhibitOn 4 s else s

/-- The sensor cap of R343. -/
def sensorCap (s : State) : Nat :=
  if sensorState 0 s = 3 then 0
  else
    let e := if sensorState 0 s ≠ 0 ∨ sensorState 1 s ≠ 0 then 12 else 24
    min e (if sensorState 2 s ≠ 0 then 8 else 24)

/-! ### Write inhibit (13 R345) -/

/-- |e| of loop 4 in codes exceeds a limit. -/
def lateralOver (limit : Nat) (half : Bool) (s : State) : Bool :=
  decide ((limit : Int) * 2 ^ 24 < ((getLoop 4 s).err24.natAbs : Int) * (if half then 2 else 1))

/-- The off-track check at the input stage of loop 4, and the count of good ticks. -/
def checkOfftrack (s : State) : State :=
  let l := getLoop 4 s
  if l.mode = 0 ∨ l.missing = true then s
  else
    let s := if lateralOver s.mon.cfg.offtrackNm false s then inhibitOn 1 s else s
    let good := !lateralOver s.mon.cfg.offtrackNm true s
    { s with mon := { s.mon with goodTicks := if good then s.mon.goodTicks + 1 else 0 } }

/-- Sources of Table 13-5 that last: servo loss, following error, safe stop, span. -/
def inhibitActive (s : State) : Bool :=
  !s.mon.lock || (s.drv.loops.any fun l => l.feTripped && l.cfg.feAction == 1)
    || s.mon.inhSrc.getLsbD 3 || spanMissing s

/-! ### Servo words (13 R336) -/

/-- REC_BEGIN and REC_END. -/
def recBegin : Nat := 100000
def recEnd : Nat := 6116250

/-- The check of a servo word over bits in frame order: the CRC x^4 + x + 1 with initial value 0. -/
def servoCrc (l : List Bool) : Nat :=
  l.foldl (fun c b => if xor b (decide (8 ≤ c)) then (c * 2 % 16) ^^^ 3 else c * 2 % 16) 0

/-- The bit that stripes of group R stand for. -/
def stripeBit : Option Nat → Option Bool
  | some 3 => some false
  | some 4 => some true
  | _ => none

/-- A number from bits, the lowest first. -/
def bitsNat (l : List Bool) : Nat := l.foldr (fun b v => boolNat b + 2 * v) 0

/-- SFN of frame 0 and the band number of 32 symbols in frame order; none: the word is not used. The check stands highest bit first. -/
def servoWord (l : List (Option Nat)) : Option (Nat × Nat) :=
  let v := (l.drop 1).filterMap stripeBit
  let band := bitsNat ((v.drop 24).take 3)
  if l.length = 32 ∧ l.head? = some (some 5) ∧ v.length = 31 ∧ band ≤ 4
      ∧ servoCrc (v.take 27) = bitsNat (v.drop 27).reverse then some (bitsNat (v.take 24), band)
  else none

/-- A servo frame has been read: a good word gives SFN and band; else SFN counts on. Odd wraps run back through the frames. -/
def readServoFrame (t : TickInput) (s : State) : State :=
  let back := decide (t.wrap % 2 = 1)
  let old := if t.passed = 1 then s.mon.symbols else []
  let l := (old ++ [t.stripes]).drop (old.length - 31)
  let counted := if back then s.mon.sfn - t.passed else (s.mon.sfn + t.passed) % 2 ^ 24
  match servoWord (if back then l.reverse else l) with
  | some (n, band) => { s with mon := { s.mon with symbols := l, sfn := if back then n else n + 31, band := band } }
  | none => { s with mon := { s.mon with symbols := l, sfn := counted } }

/-- The end of the recordable length is reached in the wrap (07 R178). -/
def recordableEnd (s : State) : Bool :=
  if s.cart.wrap.getD 0 % 2 = 1 then decide (s.mon.sfn ≤ recBegin) else decide (recEnd ≤ s.mon.sfn)

/-- The servo of a new data band is locked: loop 4 returns to AUTO (R337). -/
def bandLocked (s : State) : State :=
  if s.mon.bandWait then setLoop 4 (fun l => { l with modeReq := 2 }) { s with mon := { s.mon with bandWait := false } } else s

/-- Index of the next write bit (11 Table 11-2). -/
def nextBit (s : State) : Nat := (s.hlk.bitIndex + (s.hlk.unsent.headD []).length) % 2 ^ 24

/-- WRITE_GATE with ON (11 Table 11-4): the channel mask, the bit index. -/
def writeGate (on : Bool) (s : State) : State :=
  sendControl 0xA [BitVec.allOnes 64, wd (nextBit s + boolNat on * 2 ^ 24)] s

/-- Inhibit is released when the conditions of R345 hold. -/
def releaseInhibit (s : State) : State :=
  if !s.mon.inhibit || inhibitActive s || s.mon.goodTicks < s.mon.cfg.releaseTicks then s
  else writeGate true { s with mon := { s.mon with inhibit := false, inhSrc := 0 } }

/-! ### Speed (13 R347, R348) -/

/-- The read iteration cap: 12 while the limit exceeds 24 (08 R260). -/
def iterCap (s : State) : Nat := if 24 < s.tec.readIter then 12 else 24

/-- The head link cap in force. -/
def linkCap (s : State) : Nat := if s.spm.mode = 1 then s.hlk.capWrite else s.hlk.capRead

/-- The cap of R348. -/
def spmCap (s : State) : Nat :=
  min 24 (min s.spm.cfg.maxStep (min s.spm.commandCap (min (linkCap s) (min s.spm.thermalCap (min (iterCap s) (sensorCap s))))))

/-- Verified native rate of a step, in bytes per second (00 R4). -/
def nativeRate (step : Nat) : Nat := 800000000 + 100000000 * step

/-- The lowest step that keeps pace with a rate; the parity positions of C3 take one dataset in nine. -/
def stepFor (r headroom : Nat) (c3 : Bool) : Nat :=
  ((List.range 24).find? fun st =>
    decide (r * (16 + headroom) * (if c3 then 9 else 8) ≤ nativeRate st * 16 * 8)).getD 24

/-- decide of R347. -/
def decideStep (writing c3 : Bool) (cur f h : Nat) (s : State) : Nat :=
  let c := s.spm.cfg
  let cap := spmCap s
  let r := if writing then s.spm.rIn.getD 0 else s.spm.rOut.getD (nativeRate cap)
  let sr := stepFor r c.headroom (writing && c3)
  if cur = 0x1F then min sr cap
  else
    let up := if writing then decide (c.fHigh ≤ f) else decide (h ≤ c.hLow)
    let down := if writing then decide (f ≤ c.fLow) else decide (c.hHigh ≤ h)
    let st := if up then max sr (cur + 1) else if down then min sr (cur - 1)
      else if c.hyst < absDiff sr cur then sr else cur
    min st cap

/-- f: native bytes ready and not on tape, in sixteenths of a dataset of 7,864,320 bytes. -/
def fillOf (s : State) : Nat := s.spm.readyBytes / 491520

/-- An average with the new sample at weight 1/8. -/
def average (old : Option Nat) (sample : Nat) : Nat :=
  match old with
  | none => sample
  | some v => (7 * v + sample) / 8

/-- Bytes per second of a count of bytes since a device time. -/
def rateSince (bytes t0 t : Nat) : Nat := if t ≤ t0 then 0 else bytes * 1000000000 / ((t - t0) * 640)

/-- The speed loop's TARGET for a step (R322, R338), from the next tick edge. -/
def speedTarget (step wrap : Nat) : Int := (if wrap % 2 = 0 then 1 else -1) * (2000 + 250 * step)

/-- A step is chosen; a changed one counts. -/
def chooseStep (st : Nat) (s : State) : State :=
  let changed := decide (s.spm.chosen ≠ st) && s.sys.step != 0x1F
  { s with spm := { s.spm with
    chosen := st, stepChanges := if changed then sat64 s.spm.stepChanges 1 else s.spm.stepChanges } }

/-- A step chosen in the tick before takes effect: STEP, and TARGET of the speed loop (R322). -/
def applyStep (s : State) : State :=
  if s.spm.chosen = s.sys.step ∨ s.spm.mode = 0 then s
  else
    let s := { s with sys := { s.sys with step := s.spm.chosen } }
    if s.drv.speedEn then
      setLoop s.drv.speedLoop (fun l => { l with targetNext := some (speedTarget s.spm.chosen (s.cart.wrap.getD 0)) }) s
    else s

/-- The cap has fallen below the step in force: the tape is profiled down at once (R348). -/
def capDown (s : State) : State :=
  let s := { s with spm := { s.spm with sensorCap := sensorCap s } }
  let cap := spmCap s
  if s.sys.step = 0x1F ∨ s.spm.chosen = 0x1F ∨ s.spm.chosen ≤ cap then s
  else { s with spm := { s.spm with chosen := cap, capDowns := sat64 s.spm.capDowns 1 } }

end Sys2Proof.Machine
end

