-- ==== Sys2Proof/Machine/Format.lean ====
section
/-! DEFINITION. ATF-2: cartridge memory, the dataset header, the geometry of a dataset, the assembly of datasets, their
closing and forming (07). -/

namespace Sys2Proof.Machine

/-! ### Cartridge memory (07 Table 7-5) -/

/-- Bytes of cartridge memory; unlisted bytes read 0. -/
def cmSlice (c : Cartridge) (off n : Nat) : List Byte := (List.range n).map fun i => tabGet 0 c.cm (off + i)

def cmNat (c : Cartridge) (off n : Nat) : Nat := leNat (cmSlice c off n)

/-- A page of 256 bytes ends with a CRC-32C over its other bytes. -/
def pageValid (c : Cartridge) (off : Nat) : Bool := cmNat c (off + 252) 4 == crc32c (cmSlice c off 252)

def cmPut (off : Nat) (l : List Byte) (c : Cartridge) : Cartridge :=
  { c with cm := (l.zipIdx.foldl (fun m p => tabSet 0 (off + p.2) p.1 m) c.cm : Table Byte) }

/-- A page written with its CRC. -/
def cmPage (off : Nat) (l : List Byte) (c : Cartridge) : Cartridge :=
  let b := padTo 252 l
  cmPut off (b ++ leBytes 4 (crc32c b)) c

def modCart (f : Cartridge → Cartridge) (s : State) : State :=
  { s with cart := { s.cart with inDrive := s.cart.inDrive.map f } }

def cartSerial (c : Cartridge) : List Byte := cmSlice c 0 32
def mediaType (c : Cartridge) : Nat := cmNat c 32 1
def perWrap (c : Cartridge) : Nat := cmNat c 36 4
def cmFormat (c : Cartridge) : Nat := cmNat c 0x100 1
/-- A blank cartridge reads as one partition (R203). -/
def cmPartitions (c : Cartridge) : Nat := if cmFormat c = 0 then 1 else cmNat c 0x101 1
def cmC3 (c : Cartridge) (p : Nat) : Bool := decide (cmFormat c ≠ 0) && (cmNat c 0x102 1).testBit p
def firstWrap (c : Cartridge) (p : Nat) : Nat := cmNat c (0x110 + 4 * p) 2
def wrapsOf (c : Cartridge) (p : Nat) : Nat := if cmFormat c = 0 then 208 else cmNat c (0x112 + 4 * p) 2

/-- The cartridge while it is loaded with valid cartridge memory (R203). -/
def loadedCart (s : State) : Option Cartridge := if s.cart.loaded && s.cart.cm != 3 then s.cart.inDrive else none

/-- Offset of the status copy in force: valid, of the greater UPDATE_COUNT (R202). -/
def statusCopy (c : Cartridge) : Option Nat :=
  let a := pageValid c 0x200
  let b := pageValid c 0x300
  if a && (!b || cmNat c 0x300 4 ≤ cmNat c 0x200 4) then some 0x200 else if b then some 0x300 else none

/-! ### Chains (07 R194, R195) -/

/-- The datasets of a partition, in tape order, are followed while each has a greater SEQ than the one before it and lies in its
wrap or the next, within the partition (R194). -/
def walkChain (lastWrap : Nat) : Nat → Nat → List Dataset → List Dataset
  | _, _, [] => []
  | seq, wrap, d :: t =>
    if d.seq ≤ seq ∨ d.wrap < wrap ∨ wrap + 1 < d.wrap ∨ lastWrap < d.wrap then [] else d :: walkChain lastWrap d.seq d.wrap t

/-- The chain of a partition: from the first dataset of its first wrap to blank tape, older data or its end (R194). -/
def chainOf (c : Cartridge) (p : Nat) : List Dataset :=
  match c.chain.filter (·.partition == p) with
  | [] => []
  | d :: t =>
    if d.wrap = firstWrap c p then d :: walkChain (firstWrap c p + wrapsOf c p - 1) d.seq d.wrap t else []

/-- A dataset's place in the partition's dataset order: its origin's SEQ when it is a replacement. -/
def orderKey (d : Dataset) : Nat := if d.rewritten then d.originSeq else d.seq

/-- The dataset that stands last in the partition's dataset order. -/
def lastInOrder (l : List Dataset) : Option Dataset :=
  l.foldl (fun best d => match best with
    | none => some d
    | some b => if orderKey b ≤ orderKey d then some d else some b) none

/-- ITEMS of a dataset. -/
def itemCount (d : Dataset) : Nat := d.items.length

/-- End of data of a chain. -/
def chainEnd (l : List Dataset) : Nat := (lastInOrder l).elim 0 fun d => d.firstItem + itemCount d

/-- Items that lie before any later TRUNCATE dataset: the first superseded number (R195). -/
def truncLimit (l : List Dataset) (d : Dataset) : Nat :=
  (l.filter fun t => t.truncate && d.seq < t.seq).foldl (fun m t => min m t.firstItem) (2 ^ 64)

/-- A dataset is replaced by another of the chain. -/
def isReplaced (l : List Dataset) (d : Dataset) : Bool := l.any fun r => r.rewritten && r.originSeq == d.seq

/-- The dataset that R195 delivers an item from, and the item. -/
def findItem (l : List Dataset) (n : Nat) : Option (Dataset × TapeItem) :=
  let holds := l.filter fun d =>
    d.kind == 0 && d.firstItem ≤ n && n < d.firstItem + itemCount d && n < truncLimit l d && !isReplaced l d
  (holds.foldl (fun (best : Option Dataset) d => match best with
    | none => some d
    | some b => if b.seq < d.seq then some d else some b) none).bind fun d =>
      (d.items[n - d.firstItem]?).map fun i => (d, i)

/-- A dataset of the loaded cartridge reaches behind the durable end of its partition: a record runs on there (01 R29). -/
def reachesOn (p : Nat) (s : State) : Bool :=
  s.cart.loaded && (s.cart.inDrive).any fun c => decide (s.fmt.durableEnd.getD p 0 < chainEnd (chainOf c p))

/-! ### Header and bits on tape (07 R179-R186) -/

/-- FLAGS of Table 7-2. -/
def headerFlags (d : Dataset) : Nat :=
  boolNat d.closedEarly + boolNat d.rewritten * 2 + boolNat d.truncate * 4 + boolNat d.c3On * 8 + boolNat d.dirSpill * 16

/-- Bytes 4 to 123 of the header, those that both formats have (Table 7-2). -/
def headerFields (epoch serial : Nat) (c3 : List Byte) (d : Dataset) : List Byte :=
  padTo 120 ([0x01, b8 d.kind, b8 d.partition, b8 (headerFlags d)]
    ++ leBytes 6 d.seq ++ leBytes 2 d.wrap ++ leBytes 4 epoch ++ leBytes 4 d.sfn ++ leBytes 8 serial
    ++ leBytes 8 d.firstItem ++ leBytes 4 d.entries ++ leBytes 4 (itemCount d) ++ leBytes 4 d.userBytes
    ++ leBytes 4 d.contBytes ++ leBytes 4 (d.apOffset.getD 0xFFFFFFFF) ++ leBytes 4 d.apBlock ++ leBytes 8 d.apRecord
    ++ leBytes 8 d.apRecOffset ++ leBytes 6 (if d.rewritten then d.originSeq else 0) ++ leBytes 2 0 ++ c3)

/-- The 256 bytes of the header (Table 7-2). -/
def headerBytes (d : Dataset) : List Byte :=
  let h := [0x41, 0x54, 0x46, 0x32] ++ headerFields d.bootEpoch d.serial (leBytes 4 d.c3Group ++ [b8 d.c3Index, b8 d.c3Members]) d
  let b := padTo 252 h
  b ++ leBytes 4 (crc32c b)

/-- The 128 bytes of an ATF-1 header (Table 7-7). -/
def headerOne (d : Dataset) : List Byte :=
  let b := [0x41, 0x54, 0x46, 0x31] ++ headerFields 0 0 [] d
  b ++ leBytes 4 (crc32c b)

/-- The header as a format has it. -/
def headerOf (atf1 : Bool) (d : Dataset) : List Byte := if atf1 then headerOne d else headerBytes d

/-! ### Geometry of the two formats (R181-R183, Table 7-7) -/

structure Geometry where
  tracks   : Nat
  rows     : Nat
  dataRows : Nat
  /-- Body bytes of a sub-dataset; user area of a dataset whose directory is short. -/
  subBody  : Nat
  userMax  : Nat
  deriving DecidableEq, Repr

def geometry (atf1 : Bool) : Geometry :=
  if atf1 then { tracks := 32, rows := 240, dataRows := 232, subBody := 247984, userMax := 3932160 }
  else { tracks := 64, rows := 480, dataRows := 464, subBody := 496224, userMax := 7864320 }

def Geometry.body (g : Geometry) : Nat := 16 * g.subBody

/-- End of the user area for a count of directory entries (R182). -/
def Geometry.userEnd (g : Geometry) (entries : Nat) : Nat := min g.userMax (g.body - 16 * entries)

/-- Slot and track of row r of sub-dataset k (R183, Table 7-7). -/
def Geometry.slotOf (g : Geometry) (r k : Nat) : Nat × Nat :=
  let m := 16 * r + k
  (m / g.tracks, (m + m / g.tracks) % g.tracks)

/-- Row and sub-dataset at data slot p of track t. -/
def Geometry.rowAt (g : Geometry) (p t : Nat) : Nat × Nat :=
  let m := g.tracks * p + (t + g.tracks - p % g.tracks) % g.tracks
  (m / 16, m % 16)

/-- Sub-dataset, row and information byte of a body offset (R181). -/
def Geometry.bodyPlace (g : Geometry) (x : Nat) : Nat × Nat × Nat :=
  let y := 256 + x % g.subBody
  (x / g.subBody, y / 1070, 10 + y % 1070)

/-- Row and sub-dataset at data slot p of track t on ATF-2. -/
def rowAt (p t : Nat) : Nat × Nat := (geometry false).rowAt p t

/-- The ten bytes of the ID band (Table 7-1). -/
def idBand (seq subset row partition : Nat) : List Byte :=
  let w := 0xB38F + seq % 2 ^ 32 * 2 ^ 16 + subset * 2 ^ 48 + row * 2 ^ 52 + partition * 2 ^ 61
  leBytes 8 w ++ leBytes 2 (crc16 (leBytes 8 w))

/-! ### Frames and the directory as bytes (06 Table 6-1, 07 Table 7-3) -/

/-- The 12 bytes of a frame's IV (06 R151). -/
def frameIv (f : TapeFrame) : List Byte := leBytes 4 f.ivInst ++ leBytes 8 f.ivCount

/-- A frame's header (06 Table 6-1). -/
def frameHeader (part : Nat) (f : TapeFrame) : List Byte :=
  [0xC9, b8 f.alg, b8 (part % 4), b8 (boolNat f.limited)] ++ leBytes 4 f.ctLen ++ frameIv f ++ leBytes 8 f.label ++ leBytes 4 0

/-- The 48 bytes that a frame's tag binds beside its ciphertext (06 Table 6-2). -/
def frameAad (part : Nat) (f : TapeFrame) : List Byte := frameHeader part f ++ leBytes 8 f.record ++ leBytes 8 f.offset

/-- A frame as it stands in the user area. -/
def tapeFrameBytes (part : Nat) (f : TapeFrame) : List Byte := frameHeader part f ++ f.bytes ++ f.tag


/-- A frame takes its chunk in: encrypted under a key with its tag, or clear with a zero tag (06 R148, R149). -/
def sealFrame (part : Nat) (key chunk : List Byte) (f : TapeFrame) : TapeFrame :=
  let f := { f with ctLen := chunk.length }
  if f.alg = 0 then { f with bytes := chunk, tag := List.replicate 16 0 }
  else
    let ct := gcmText key (frameIv f) chunk
    { f with bytes := ct, tag := gcmTag key (frameIv f) (frameAad part f) ct }

/-- The user-area bytes in use: what continues a frame, then the frames that begin here (06 R147). -/
def userList (d : Dataset) : List Byte := (d.cont ++ d.frames.flatMap (tapeFrameBytes d.partition)).take d.userBytes

/-- Items of a directory by entry: the first of each, and how many (R189). -/
def entryRuns : List TapeItem → List (TapeItem × Nat)
  | [] => []
  | i :: t =>
    match entryRuns t with
    | (j, n) :: r => if j.starts then (i, 1) :: (j, n) :: r else (i, n + 1) :: r
    | [] => [(i, 1)]

/-- An entry of the directory (Table 7-3). -/
def tapeEntryBytes (e : TapeItem × Nat) : List Byte :=
  leBytes 4 e.1.length ++ leBytes 4 e.2 ++ leBytes 4 e.1.block ++ leBytes 2 e.1.offset ++ [b8 e.1.kind, b8 (boolNat e.1.stream)]

/-- The directory as it lies at the top of the body: entry 0 last (R182). -/
def directoryBytes (d : Dataset) : List Byte := ((entryRuns d.items).map tapeEntryBytes).reverse.flatten

/-! ### The open dataset (07 R182, R189-R192) -/

/-- Bytes of the user area of a full dataset, of the body. -/
abbrev userArea : Nat := 7864320
abbrev bodyBytes : Nat := 7939584

/-- The user area end for a count of directory entries (R182). -/
def userEnd (entries : Nat) : Nat := min userArea (bodyBytes - 16 * entries)

/-- An item enters the directory: a run is continued where R189 lets it. -/
def addItem (it : TapeItem) (stream : Nat) (o : OpenDataset) : OpenDataset :=
  let kind := it.kind
  let len := it.length
  let with_ := fun (b : Bool) => { o.ds with items := o.ds.items ++ [{ it with starts := b }] }
  match o.lastEntry with
  | some (k, l, st, run) =>
    if k = kind ∧ l = len ∧ (kind = 2 ∨ st = stream) ∧ run < 65536 then
      { o with ds := with_ false, lastEntry := some (k, l, st, run + 1) }
    else { o with ds := { with_ true with entries := o.ds.entries + 1 }, lastEntry := some (kind, len, stream, 1) }
  | none => { o with ds := { with_ true with entries := o.ds.entries + 1 }, lastEntry := some (kind, len, stream, 1) }

def addItems (stream : Nat) (its : List TapeItem) (o : OpenDataset) : OpenDataset :=
  its.foldl (fun o i => addItem i stream o) o

def roomLeft (o : OpenDataset) : Nat := userEnd o.ds.entries - o.ds.userBytes

/-- Frames queued or reserved on the tally queue leave 683 free (16 R410). -/
def tallyRoom (s : State) : Bool := s.mram.tallies.length + s.wh.reserved + 683 ≤ 8192

/-- R410 blocks the formation of data datasets, or blocks it no longer. -/
def noteBlocked (s : State) : State :=
  if tallyRoom s then { s with wh := { s.wh with blocked := false, blockedAt := none } }
  else if s.wh.blocked then s
  else raiseP evWhFormBlocked s.mram.tallies.length { s with wh := { s.wh with blocked := true, blockedAt := some s.aon.time } }

/-- Dataset positions of a partition that are used or spoken for. -/
def positionsUsed (p : Nat) (c : Cartridge) (s : State) : Nat :=
  let inP := fun (d : Dataset) => d.partition == p
  (chainOf c p).length + (s.fmt.active.filter fun w => inP w.ds && s.fmt.formed.contains w.ds.seq).length
    + (s.fmt.closed.filter fun o => inP o.ds).length + (if s.fmt.opened.any fun o => inP o.ds then 1 else 0)

/-- Positions that remain in a partition (R198). -/
def positionsLeft (p : Nat) (c : Cartridge) (s : State) : Nat := wrapsOf c p * perWrap c - positionsUsed p c s

/-- A data dataset of a partition may be opened now: an epoch (16 R418), tally room (R410). -/
def mayOpen (s : State) : Bool := s.wh.epochValid && tallyRoom s

def blankDataset (p : Nat) (s : State) : Dataset :=
  { seq := 0, kind := 0, partition := p, closedEarly := false, rewritten := false, truncate := false, c3On := false,
    dirSpill := false, wrap := 0, bootEpoch := s.wh.epoch, sfn := 0, serial := Config.serialNumber.toNat,
    firstItem := s.fmt.placeEnd.getD p 0, items := [], entries := 0, userBytes := 0, contBytes := 0, apOffset := none,
    apBlock := 0, apRecord := 0, apRecOffset := 0, originSeq := 0, c3Group := 0, c3Index := 0, c3Members := 0, frames := [],
    cont := [], copies := [], sources := [] }

/-- The truncation that a data dataset of a partition carries. One that stands while a run in it is ending goes out with that
run, in an EOD dataset (09 R248), unless it begins a run of its own (R197). -/
def wantedTruncate (p : Nat) (s : State) : Option Nat :=
  if (s.fmt.run.any fun r => r.partition == p && r.ending) && !s.fmt.truncRun.getD p false then none
  else s.fmt.truncate.getD p none

/-- The next item of a partition takes an earlier number than placement had reached: encoder histories that ended behind it no longer
continue (05 R130). -/
def cutEnd (p n : Nat) (s : State) : State :=
  { s with
    fmt := { s.fmt with placeEnd := s.fmt.placeEnd.set p n }
    pkr := { s.pkr with history := s.pkr.history.filter fun h => h.2.2.1 != p || decide (h.2.2.2 ≤ n) } }

/-- A dataset begins to be assembled: its buffer (01 R20) and its 683 tally frames (16 R410); a wanted TRUNCATE is set
on it (R197, R475, 09 R255). -/
def openDataset (p : Nat) (s : State) : Option State :=
  if !mayOpen s then none
  else
    match porterTry 6 8388608 s with
    | none => none
    | some (h, s) =>
      let t := wantedTruncate p s
      let o : OpenDataset :=
        { ds := { blankDataset p s with truncate := t.isSome }, frameOpen := false, frameBlocks := 0, frameHead := 0, frameJsn := 0, chunk := [], lastAt := s.aon.time
          tally := [], jsns := [], itemJsns := [], subs := [], marks := [], firstRec := none, lastEntry := none, reserved := 683
          buf := h }
      some { s with fmt := { s.fmt with opened := some o, truncate := if t.isSome then s.fmt.truncate.set p none else s.fmt.truncate }, wh := { s.wh with reserved := s.wh.reserved + 683 } }

/-- Tally frames that a dataset's tenants need (16 R409). -/
def framesNeeded (t : Table Nat) : Nat := max 1 ((t.length + 5) / 6)

/-- The open dataset takes its place in the queue of closed ones; its reservation falls to what it needs (R410). -/
def parkOpened (s : State) : State :=
  match s.fmt.opened with
  | none => s
  | some o =>
    let early := decide (0 < roomLeft o)
    let spill := decide (4704 < o.ds.entries)
    let n := framesNeeded o.tally
    let o' := { o with ds := { o.ds with closedEarly := early, dirSpill := spill }, reserved := n }
    { s with
      fmt := { s.fmt with
        opened := none, closed := s.fmt.closed ++ [o']
        earlyCloses := if early then sat64 s.fmt.earlyCloses 1 else s.fmt.earlyCloses }
      wh := { s.wh with reserved := s.wh.reserved - o.reserved + n } }

def modOpened (f : OpenDataset → OpenDataset) (s : State) : State :=
  { s with fmt := { s.fmt with opened := s.fmt.opened.map f } }

def findWrite (jsn : Nat) (s : State) : Option WriteRun := s.fmt.writes.find? (·.jsn == jsn)

def setWrite (jsn : Nat) (f : WriteRun → WriteRun) (s : State) : State :=
  { s with fmt := { s.fmt with writes := s.fmt.writes.map fun w => if w.jsn = jsn then f w else w } }

def setAssoc (k v : Nat) (l : List (Nat × Nat)) : List (Nat × Nat) :=
  if l.any (·.1 == k) then l.map fun p => if p.1 = k then (k, v) else p else l ++ [(k, v)]

/-- A command has a part in the open dataset. -/
def joinDataset (jsn done : Nat) (o : OpenDataset) : OpenDataset :=
  if o.jsns.contains jsn then o else { o with jsns := o.jsns ++ [jsn], marks := setAssoc jsn done o.marks }

/-- Bytes of a frame at the end of the open dataset's user area, metered to a tenant or not; what does not fit goes to
the next dataset as CONT_BYTES (05 R136, 06 R147). None: the next dataset cannot be opened yet. -/
def putFrameBytes (n : Nat) (meter : Option Nat) (w : WriteRun) (first : Nat) (s : State) : Option State :=
  match s.fmt.opened with
  | none => none
  | some o =>
    let here := min n (roomLeft o)
    let rest := n - here
    let add := fun (k : Nat) (o : OpenDataset) =>
      { joinDataset w.jsn w.done o with
        ds := { o.ds with userBytes := o.ds.userBytes + k }, lastAt := s.aon.time
        firstRec := match o.firstRec with
          | some r => some r
          | none => some first
        tally := match meter with
          | some t => if k = 0 then o.tally else tabUpd 0 t (· + k) o.tally
          | none => o.tally }
    let s := modOpened (add here) s
    if rest = 0 then some s
    else (openDataset o.ds.partition (parkOpened s)).map fun s =>
      modOpened (fun x => { add rest x with
        ds := { x.ds with userBytes := rest, contBytes := rest }, frameOpen := o.frameOpen, frameJsn := o.frameJsn, chunk := o.chunk
        frameBlocks := o.frameBlocks, frameHead := 0 }) s

/-- Leading items of a command whose bytes all lie below a stream offset, among the first n. -/
def itemsBelow : Nat → Nat → Nat → List Nat → Nat
  | _, _, 0, _ => 0
  | _, _, _, [] => 0
  | start, limit, n + 1, l :: t => if start + l ≤ limit then 1 + itemsBelow (start + l) limit n t else 0

/-- The command's items are complete up to a count: its run, and the open dataset's mark. -/
def noteDone (jsn : Nat) (s : State) : State :=
  match findWrite jsn s with
  | none => s
  | some w =>
    let d := if w.filemarks ≠ 0 then w.placedItems
      else w.base + itemsBelow 0 w.placedBytes (w.placedItems - w.base) (w.lens.drop w.base)
    modOpened (fun o => { o with marks := if o.jsns.contains jsn then setAssoc jsn d o.marks else o.marks })
      (setWrite jsn (fun w => { w with done := d }) s)

/-- The open frame gets its ciphertext and tag. Where it has run on into the open dataset it stands in the one closed before,
and its end is this one's CONT_BYTES. -/
def sealOpen (ctx : Nat) (s : State) : State :=
  match s.fmt.opened with
  | none => s
  | some o =>
    let part := o.ds.partition
    let sealed_ := sealFrame part (slotKey (false, ctx) s) o.chunk
    let last := fun (d : Dataset) => { d with frames := d.frames.modify (d.frames.length - 1) sealed_ }
    let o' := { o with frameOpen := false, chunk := [] }
    if !o.ds.frames.isEmpty then { s with fmt := { s.fmt with opened := some { o' with ds := last o.ds } } }
    else
      match s.fmt.closed.getLast? with
      | none => { s with fmt := { s.fmt with opened := some o' } }
      | some b =>
        let b' := { b with ds := last b.ds }
        let tail := (b'.ds.frames.getLast?).elim [] fun f => lastBytes o.ds.contBytes (tapeFrameBytes part f)
        { s with fmt := { s.fmt with
          closed := s.fmt.closed.dropLast ++ [b'], opened := some { o' with ds := { o.ds with cont := tail } } } }

/-- The open frame ends with its tag (06 R147). -/
def closeFrame (s : State) : Option State :=
  match s.fmt.opened with
  | none => some s
  | some o =>
    if !o.frameOpen then some s
    else
      let w := (findWrite o.frameJsn s)
      match w with
      | none => some (modOpened (fun o => { o with frameOpen := false }) s)
      | some w =>
        let first := (o.ds.frames.getLast?).elim ((o.firstRec).getD 0) (·.record)
        (putFrameBytes 16 none w first s).map fun s =>
          noteDone w.jsn (sealOpen w.ctx (modOpened (fun o => { o with ds := { o.ds with
            contBytes := if o.ds.contBytes = o.ds.userBytes - 16 ∧ o.ds.frames.isEmpty ∧ o.ds.contBytes ≠ 0
              then o.ds.userBytes else o.ds.contBytes } }) s))

/-- The open dataset is closed at the end of its frame (R109, R192). -/
def closeDataset (s : State) : Option State :=
  match closeFrame s with
  | none => none
  | some s => if s.fmt.opened.any fun o => o.jsns.isEmpty && o.ds.userBytes == 0 then some s else some (parkOpened s)

/-- The open dataset is closed where the buffers let it. -/
def closeOpen (s : State) : State := (closeDataset s).getD s

/-! ### Forming: SEQ and header (07 R193, R196; 08 R221) -/

def setAt {α : Type} (n : Nat) (x : α) (l : List α) : List α := l.set n x

/-- Commands with a part in a dataset note its SEQ and what is complete once it is released (09 R250). -/
def noteSeq (seq : Nat) (marks : List (Nat × Nat)) (s : State) : State :=
  marks.foldl (fun s m => setWrite m.1 (fun w => { w with marks := w.marks ++ [(seq, m.2)] }) s) s

/-- A header is formed: the next SEQ, the dataset joins those with a SEQ. -/
def formWith (ds : Dataset) (w : WrittenDataset) (s : State) : State :=
  let seq := s.fmt.nextSeq
  let ds := { ds with seq := seq, bootEpoch := s.wh.epoch, serial := Config.serialNumber.toNat }
  { s with fmt := { s.fmt with
    nextSeq := seq + 1, formed := s.fmt.formed ++ [seq], active := s.fmt.active ++ [{ w with ds := ds }] } }

def newWritten (ds : Dataset) (buf : Word) : WrittenDataset :=
  { ds := ds, tally := [], jsns := [], itemJsns := [], subs := [], firstRec := none, reserved := 0, buf := buf, written := false,
    seen := 0, ok := 0, failures := 0, trackFails := [], noSync := [], drvFault := 0, carriers := [], dead := none, due := false }

/-- The open C3 group of a partition. -/
def openGroup (p : Nat) (s : State) : Option C3Group := s.fmt.c3Groups.find? fun g => g.partition == p && !g.closed

def closeGroup (p : Nat) (s : State) : State :=
  { s with fmt := { s.fmt with c3Groups := s.fmt.c3Groups.map fun g => if g.partition = p then { g with closed := true } else g } }

/-- C3 of a partition is on. -/
def c3Of (p : Nat) (s : State) : Bool := match s.cart.inDrive with
  | some c => cmC3 c p
  | none => false

/-- A data member joins its group: its number and index; the 32nd closes the group (R221). -/
def joinGroup (p : Nat) (trunc : Bool) (s : State) : Nat × Nat × State :=
  let s := if trunc then closeGroup p s else s
  match openGroup p s with
  | some g =>
    (g.number, g.formed, { s with fmt := { s.fmt with c3Groups := s.fmt.c3Groups.map fun x =>
      if x = g then { g with formed := g.formed + 1, closed := decide (g.formed + 1 = 32) } else x } })
  | none =>
    let n := s.fmt.c3Next.getD p 0
    let g : C3Group := { partition := p, number := n, formed := 1, verified := 0, closed := false, taken := [] }
    (n, 0, { s with fmt := { s.fmt with c3Next := s.fmt.c3Next.set p (n + 1), c3Groups := s.fmt.c3Groups ++ [g] } })

/-- A third group would need an accumulator (R222): the next data dataset opens a group, as one with TRUNCATE = 1 does (R221). -/
def needsAccumulator (p : Nat) (trunc : Bool) (s : State) : Bool :=
  c3Of p s && (trunc || (openGroup p s).isNone) && decide (2 ≤ s.fmt.c3Groups.length)

/-- A closed dataset may take its SEQ now: an epoch, at most two ahead of tape, not ahead of the EOD datasets of a run
in progress, the run that it is for (R196, R197, 16 R418). -/
def mayForm (o : OpenDataset) (s : State) : Bool :=
  let p := o.ds.partition
  let own := o.ds.truncate && s.fmt.truncRun.getD p false
  s.wh.epochValid && decide (s.fmt.formed.length < 2) && !needsAccumulator p o.ds.truncate s
    && (match s.fmt.run with
      | some r => r.partition == p && !r.ending && !own
      | none => s.fmt.active.all fun w => !s.fmt.formed.contains w.ds.seq || (w.ds.partition == p && !own))

/-- A closed dataset takes its SEQ (R193). -/
def formData (o : OpenDataset) (s : State) : State :=
  let p := o.ds.partition
  let trunc := o.ds.truncate
  let c3 := c3Of p s
  let seq := s.fmt.nextSeq
  let base := { o.ds with c3On := c3 }
  let w := { newWritten base o.buf with
    tally := o.tally, jsns := o.jsns, itemJsns := o.itemJsns, subs := o.subs, firstRec := o.firstRec, reserved := o.reserved }
  let s := noteSeq seq o.marks s
  if c3 then
    match joinGroup p trunc s with
    | (g, i, s) => formWith { base with c3Group := g, c3Index := i } w s
  else formWith base w s

/-- A dataset without user bytes: EOD or parity (R187). -/
def bareDataset (kind p : Nat) (first : Nat) (trunc : Bool) (s : State) : Dataset :=
  { blankDataset p s with kind := kind, firstItem := first, truncate := trunc, c3On := c3Of p s }

/-- The partition's end of data as its formed datasets leave it (R187, R194). -/
def formedEnd (p : Nat) (s : State) : Nat :=
  match s.cart.inDrive with
  | some c => chainEnd (chainOf c p ++ (s.fmt.active.filter fun d =>
      d.ds.partition == p && d.dead.isNone && d.ds.kind == 0 && !d.written).map (·.ds))
  | none => 0

/-- An EOD or parity dataset takes its SEQ; it holds a buffer as every dataset does (01 R20). -/
def formBare (ds : Dataset) (s : State) : Option State :=
  if !s.wh.epochValid then none
  else (porterTry 6 8388608 s).map fun (h, s) => formWith ds (newWritten ds h) s

/-- The parity datasets of a closed group whose members are all verified (08 R222), one by one; the first argument
counts those still to form. -/
def formParity (g : C3Group) : Nat → State → Option State
  | 0, s => some { s with fmt := { s.fmt with c3Groups := s.fmt.c3Groups.erase g } }
  | n + 1, s =>
    let sources := (List.range g.formed).map fun i => ((g.taken.find? (·.1 == i)).map (·.2)).getD ([], [])
    let ds := { bareDataset 1 g.partition (formedEnd g.partition s) false s with
      c3Group := g.number, c3Index := 35 - n, c3Members := g.formed, sources := sources }
    match formBare ds s with
    | none => none
    | some s => formParity g n s

/-- A lasting failure or a cut leaves a truncation that no dataset carries yet (R475, 09 R248). -/
def truncPending (p : Nat) (s : State) : Bool := (s.fmt.truncate.getD p none).isSome && !s.fmt.truncRun.getD p false

/-- A closed group whose members are all verified; its parity datasets stand behind a truncation that is to come first (09 R248). -/
def readyGroup (s : State) : Option C3Group :=
  s.fmt.c3Groups.find? fun g => g.closed && g.verified == g.formed && !truncPending g.partition s

/-- The partition whose datasets are formed next: that of the run in progress, or of the datasets that a SEQ has been given to,
or of the dataset that has waited longest. Datasets of other partitions wait with their bodies assembled (R196). -/
def formPartition (s : State) : Option Nat :=
  match s.fmt.run with
  | some r => some r.partition
  | none => match s.fmt.active.find? (fun w => s.fmt.formed.contains w.ds.seq) with
    | some w => some w.ds.partition
    | none => s.fmt.closed.head?.map (·.ds.partition)

def isNext (p : Option Nat) (o : OpenDataset) : Bool := p == some o.ds.partition

/-- Datasets take their SEQ while they may: parity first; the first argument bounds how many. -/
def formNext : Nat → State → State
  | 0, s => s
  | n + 1, s =>
    match readyGroup s with
    | some g => match formParity g 4 s with
      | some s => formNext n s
      | none => s
    | none =>
      match s.fmt.closed.find? (isNext (formPartition s)) with
      | none => s
      | some o =>
        if mayForm o s then formNext n (formData o { s with fmt := { s.fmt with closed := s.fmt.closed.eraseP (isNext (formPartition s)) } })
        else s

/-- Everything that can be formed is. -/
def formAll (s : State) : State := formNext (s.fmt.closed.length + s.fmt.c3Groups.length) s

/-! ### Status page of cartridge memory (07 R202) -/

/-- LAST_SEQ: the last SEQ given. -/
def lastSeq (s : State) : Nat := s.fmt.nextSeq - 1

/-- A partition's entry of the status page: EOD_RECORD, EOD_SEQ, EOD_WRAP, EOD_SFN. -/
def statusEntry (c : Cartridge) (p : Nat) : List Byte :=
  let l := chainOf c p
  let d := l.getLast?
  leBytes 8 (chainEnd l) ++ leBytes 6 (d.elim 0 (·.seq)) ++ leBytes 2 (d.elim 0 (·.wrap)) ++ leBytes 4 (d.elim 0 (·.sfn))
    ++ List.replicate 12 0

/-- A history entry (Table 7-5). -/
def historyEntry (first last : Nat) (s : State) : List Byte :=
  let b := leBytes 8 Config.serialNumber.toNat ++ leBytes 4 s.wh.epoch ++ leBytes 6 first ++ leBytes 6 last ++ leBytes 4 0
  b ++ leBytes 4 (crc32c b)

/-- The write-history entry of this use takes the last SEQ, with each status write (R202). -/
def updateHistory (s : State) : State :=
  match s.cart.inDrive, s.cart.historyAt with
  | some c, some i => modCart (cmPut (0x400 + 32 * i) (historyEntry (cmNat c (0x400 + 32 * i + 12) 6) (lastSeq s) s)) s
  | _, _ => s

/-- The status page is written, to the copy not in force, with UPDATE_COUNT one greater; a blank cartridge has none in force
(R203). -/
def writeStatus (dirty : Bool) (s : State) : State :=
  match s.cart.inDrive with
  | none => s
  | some c =>
    let was := match s.cart.statusAt with
      | some w => some w
      | none => if cmFormat c = 0 then none else (statusCopy c).map fun o => (o, cmNat c o 4)
    let n := was.elim 1 (·.2 + 1)
    let off := if was.any (·.1 == 0x200) then 0x300 else 0x200
    let page := leBytes 4 n ++ [b8 (boolNat dirty), 0, 0, 0] ++ leBytes 6 (lastSeq s) ++ [0, 0]
      ++ (List.range 4).flatMap (statusEntry c)
    let s := updateHistory (modCart (cmPage off page) s)
    { s with cart := { s.cart with dirty := dirty, statusDue := false, statusAt := some (off, n) } }

/-- The history entry with the lowest FIRST_SEQ. -/
def oldestHistory (c : Cartridge) : Nat :=
  (List.range 64).foldl (fun best i =>
    if cmNat c (0x400 + 32 * i + 12) 6 < cmNat c (0x400 + 32 * best + 12) 6 then i else best) 0

/-- The history entry of this use: it begins with the next SEQ (R202). -/
def writeHistory (s : State) : State :=
  match s.cart.inDrive with
  | none => s
  | some c =>
    let i := oldestHistory c
    let s := modCart (cmPut (0x400 + 32 * i) (historyEntry s.fmt.nextSeq (lastSeq s) s)) s
    { s with cart := { s.cart with historyAt := some i } }

end Sys2Proof.Machine
end

