-- ==== Sys2Proof/Machine/Tape.lean ====
section
/-! DEFINITION. What a dataset is on tape: its body, its rows with C2 parity, its codewords, and the channel bits of its slots (07
R179-R187, 08 R212, R220). -/

namespace Sys2Proof.Machine

/-! ### The body (07 R181, R182, R192; 08 R220) -/

/-- Byte x of the body that user bytes and a directory make; all between is zero. -/
def bodyFrom (g : Geometry) (user dir : List Byte) (x : Nat) : Byte :=
  if x < user.length then user.getD x 0
  else if g.body ≤ x + dir.length then dir.getD (x + dir.length - g.body) 0
  else 0

/-- Byte x of a C3 parity body: parity symbol of the members' bytes there, absent members 0 (08 R220). -/
def parityByte (g : Geometry) (index : Nat) (sources : List (List Byte × List Byte)) (x : Nat) : Byte :=
  let data := (List.range 32).map fun i => (sources[i]?).elim 0 fun p => (bodyFrom g p.1 p.2 x).toNat
  b8 ((rsParity c3Field 4 data).getD (index - 32) 0)

/-- Byte x of a dataset's body. -/
def bodyByte (atf1 : Bool) (d : Dataset) (x : Nat) : Byte :=
  let g := geometry atf1
  if d.kind = 1 then parityByte g d.c3Index d.sources x else bodyFrom g (userList d) (directoryBytes d) x

/-! ### Rows (07 R180, R181; 08 R212) -/

/-- Payload byte y of sub-dataset k: the copy of the header in the first 256, then the body (R181). -/
def payloadByte (atf1 : Bool) (d : Dataset) (k y : Nat) : Byte :=
  if y < 256 then (headerOf atf1 d).getD y 0 else bodyByte atf1 d ((geometry atf1).subBody * k + (y - 256))

/-- The 1,070 payload bytes of data row r. -/
def dataRow (atf1 : Bool) (d : Dataset) (k r : Nat) : List Byte := (List.range 1070).map fun i => payloadByte atf1 d k (1070 * r + i)

/-- Symbols of columns 8 to 863 of a row payload (R179): the ID band's columns count as zero for C2 (R180). -/
def symbolsOf (payload : List Byte) : List Nat :=
  let n := leNat payload
  (List.range 856).map fun j => bitsN n (10 * j) 10

/-- The payload that symbols make. -/
def payloadOf (syms : List Nat) : List Byte := leBytes 1070 (syms.foldr (fun c v => c + 1024 * v) 0)

/-- The parity rows of data rows, column by column (08 R212, R236). -/
def parityRows (n : Nat) (rows : List (List Nat)) : List (List Nat) :=
  let cols := (List.range 856).map fun j => rsParity c2Field n (rows.map fun r => r.getD j 0)
  (List.range n).map fun i => cols.map fun c => c.getD i 0

/-- Payload of row r of sub-dataset k: dataset bytes in data rows, C2 parity in the others. -/
def rowPayload (atf1 : Bool) (d : Dataset) (k r : Nat) : List Byte :=
  let g := geometry atf1
  if r < g.dataRows then dataRow atf1 d k r
  else
    let rows := (List.range g.dataRows).map fun i => symbolsOf (dataRow atf1 d k i)
    payloadOf ((parityRows (g.rows - g.dataRows) rows).getD (r - g.dataRows) [])

/-! ### Codewords (07 R179, R184) -/

/-- The codeword of row r of sub-dataset k. -/
def rowCodeword (atf1 : Bool) (d : Dataset) (k r : Nat) : List Bool :=
  c1Codeword (idBand d.seq k r d.partition ++ rowPayload atf1 d k r)

/-- The fill codeword of a dataset's empty rewrite slots (R184). -/
def fillCodeword (d : Dataset) : List Bool := c1Codeword (idBand d.seq 0 0x1FF d.partition ++ List.replicate 1070 0)

/-- The codeword that a copy repeats, among the datasets of its chain. -/
def copyCodeword (atf1 : Bool) (l : List Dataset) (d : Dataset) (c : SlotCopy) : List Bool :=
  match l.find? fun o => o.seq == c.seq with
  | some o => rowCodeword atf1 o c.subset c.row
  | none => fillCodeword d

/-- The codeword in slot p of track t of a dataset: data slots 0 to 119, rewrite slots 120 to 127 (R183, R184). -/
def slotCodeword (atf1 : Bool) (l : List Dataset) (d : Dataset) (p t : Nat) : List Bool :=
  if p < 120 then
    let m := (geometry atf1).rowAt p t
    rowCodeword atf1 d m.2 m.1
  else
    match d.copies.find? fun c => c.slot == p && c.track == t with
    | some c => copyCodeword atf1 l d c
    | none => fillCodeword d

/-- Channel bit b of track t of a dataset: codeword bit 0 of slot 0 goes out first (R185). -/
def tapeBit (atf1 : Bool) (l : List Dataset) (d : Dataset) (t b : Nat) : Bool :=
  (channelBits (slotCodeword atf1 l d (b / 9216) t)).getD (b % 9216) false

/-- The pattern of run-in and run-out: 0b0011 again and again (R178). -/
def runPattern (b : Nat) : Bool := decide (2 ≤ b % 4)

/-! ### What a reader takes from a row (08 R215) -/

/-- The bytes that bits make, the lowest first. -/
def bytesFrom (bits : List Bool) : List Byte := packBits (bits.length / 8 + 1) bits

/-- The information bytes of a decoded word. -/
def infoOf (word : List Bool) : List Byte := bytesFrom (word.take 8640)

/-- The ID band of information bytes carries its CRC. -/
def idCrcOk (info : List Byte) : Bool := leNat (slice info 8 2) == crc16 (slice info 0 8)

/-- SEQ_LOW, SUBSET, ROW and PARTITION of an ID band (07 Table 7-1). -/
def idFields (info : List Byte) : Nat × Nat × Nat × Nat :=
  let w := leNat (slice info 0 8)
  (bitsN w 16 32, bitsN w 48 4, bitsN w 52 9, bitsN w 61 2)

/-- A word is the fill codeword's (07 R184): ROW 0x1FF, SUBSET 0, and nothing in its payload. -/
def isFill (info : List Byte) : Bool :=
  (idFields info).2.2.1 == 0x1FF && (idFields info).2.1 == 0 && (info.drop 10).all (· == 0)

/-- A decode is valid under C1 (08 R215). -/
def validC1 (r : C1Result) : Bool := r.right && (idCrcOk (infoOf r.word) || isFill (infoOf r.word))

/-- It satisfies every check and fails the ID CRC: counted in TEC_C1_MISCORRECT. -/
def miscorrected (r : C1Result) : Bool := r.right && !validC1 r

end Sys2Proof.Machine
end

