-- ==== Sys2Proof/Machine/WrapRecord.lean ====
section
/-! DEFINITION. The record of a wrap: slots and passes per track, achieved code rate, capacity ratio, log page 0x03,
SNR and SIR from the verify reads (08 R225-R229). -/

namespace Sys2Proof.Machine

/-- A data slot whose first writing passed verify with margin (R227). -/
def countPass (track : Nat) (s : State) : State :=
  { s with tec := { s.tec with live := { s.tec.live with passes := tabUpd 0 track (· + 1) s.tec.live.passes } } }

/-- A dataset of the wrap has been written: 120 data slots on every track (R229). -/
def countSlots (s : State) : State :=
  let l := s.tec.live
  let changed := l.datasets != 0 && l.step != s.sys.step
  { s with tec := { s.tec with live := { l with
    step := s.sys.step, mixed := l.mixed || changed, datasets := l.datasets + 1 } } }

/-- A verify read of a codeword that is valid under C1: its noise, and on one in every 16 of the track its rate (R225, R226). -/
def countNoise (track : Nat) (d : Detector) (ys : List Rat) (word : List Bool) (s : State) : State :=
  let l := s.tec.live
  let n := tabGet 0 l.valids track
  let sum := ((l.noise.find? (·.1 == track)).map (·.2)).getD 0 + noiseEnergy d (noiseOf d ys word)
  let l := { l with
    valids := tabUpd 0 track (· + 1) l.valids
    noise := l.noise.filter (·.1 != track) ++ [(track, sum)] }
  let l := if n % 16 ≠ 0 then l
    else { l with
      sampled := tabUpd 0 track (· + 1) l.sampled
      rates := l.rates.filter (·.1 != track) ++ [(track, ((l.rates.find? (·.1 == track)).map (·.2)).getD 0 + sirOf d ys word)] }
  { s with tec := { s.tec with live := l } }

/-- R_a of R227 in Q0.16, rounded to nearest. Of a track with no data slot written the spec states no R_a: 0 here (DESIGN CHOICE,
log entry 52). -/
def codeRate (pass slot : Nat) : Nat := if slot = 0 then 0 else min 0xFFFF ((2 * 29 * 65536 * pass + 32 * slot) / (64 * slot))

/-- RATIO of R228. Where the reported SIR is 0 the rule divides by zero: it saturates here (DESIGN CHOICE, log entry 52). -/
def ratioOf (ra sir : Nat) : Nat := if sir = 0 then 0xFFFF else min 0xFFFF (ra * 65536 / sir)

/-- SNR of a track in Q8.8 dB (R225, R228). Without a valid codeword, or without noise, it has no value: a free one. -/
def snrOf (l : LiveWrap) (free t : Nat) : Nat :=
  let bits := 9216 * tabGet 0 l.valids t
  let sum := ((l.noise.find? (·.1 == t)).map (·.2)).getD 0
  if bits = 0 ∨ sum = 0 then Config.freeNat (128 * free + 2 * t) % 65536
  else (clampI 0 65535 (decibels (bits / sum))).toNat

/-- SIR of a track in Q0.16: the mean of its samples, limited to 0 to 1 (R226, R228). Without a sample: a free value. -/
def sirMean (l : LiveWrap) (free t : Nat) : Nat :=
  let n := tabGet 0 l.sampled t
  let sum := ((l.rates.find? (·.1 == t)).map (·.2)).getD 0
  if n = 0 then Config.freeNat (128 * free + 2 * t + 1) % 65536
  else (clampI 0 65535 ((sum + 32768 * n) / (65536 * n))).toNat

/-- A track's values: SNR, SIR, R_A, RATIO, N_SLOT, N_PASS. -/
def trackRecord (l : LiveWrap) (free t : Nat) : Nat × Nat × Nat × Nat × Nat × Nat :=
  let sir := sirMean l free t
  let slot := 120 * l.datasets
  let pass := tabGet 0 l.passes t
  (snrOf l free t, sir, codeRate pass slot, ratioOf (codeRate pass slot) sir, slot, pass)

/-- The record of the wrap in progress. -/
def wrapRecord (valid : Bool) (s : State) : WrapRecord :=
  let l := s.tec.live
  let ts := (List.range 64).map (trackRecord l s.freeCount)
  { wrap := s.cart.wrap.getD 0xFFFF, step := l.step, valid := valid, mixed := l.mixed
    mean := ts.foldl (fun a t => a + t.2.2.2.1) 0 / 64, tracks := ts }

/-- TEC_RATIO_LOW (R228). -/
def ratioEvent (r : WrapRecord) (s : State) : State :=
  if s.tec.ratioLow ≠ 0 ∧ r.mean < s.tec.ratioLow then raise evTecRatioLow r.wrap r.mean s else s

/-- The head leaves its wrap: the record is complete when the wrap held 1,024 written datasets (R229). -/
def leaveWrap (s : State) : State :=
  let done := decide (1024 ≤ s.tec.live.datasets)
  let r := wrapRecord true s
  let s := { s with tec := { s.tec with live := .none, last := if done then r else s.tec.last } }
  if done then ratioEvent r (drawFree s) else s

/-- Log page 0x03 (Table 8-3). -/
def wrapPage (r : WrapRecord) : List Byte :=
  leBytes 2 r.wrap ++ [b8 r.step, b8 (boolNat r.valid + 2 * boolNat r.mixed)] ++ leBytes 2 r.mean ++ leBytes 10 0
    ++ (List.range 64).flatMap fun t =>
      match r.tracks.getD t (0, 0, 0, 0, 0, 0) with
      | (snr, sir, ra, ratio, slot, pass) =>
        leBytes 2 snr ++ leBytes 2 sir ++ leBytes 2 ra ++ leBytes 2 ratio ++ leBytes 4 slot ++ leBytes 4 pass

end Sys2Proof.Machine
end

