-- ==== Sys2Proof/Machine/Load.lean ====
section
/-! DEFINITION. Wraps and positions on tape, runs of EOD datasets, loading and formatting a cartridge (07 R176,
R194-R204, 09 R255, 13 R337, R338, 17 R435). -/

namespace Sys2Proof.Machine

/-! ### Wraps (07 R176, 13 R337) -/

/-- The lateral target of a wrap in nanometres (R337). -/
def wrapTarget (w : Nat) : Int := -20000 + ((w % 52 * 3125 / 4 : Nat) : Int)

/-- A MEDIA exclusion ends when the head leaves the wrap (09 R257). -/
def endMediaExclusions (s : State) : State :=
  let left := s.vfy.excluded.filter (·.2 != 3)
  { s with vfy := { s.vfy with excluded := left, disabled := s.vfy.disabled && decide (left = s.vfy.excluded) } }

/-- A change of data band (R337): loop 4 in MANUAL, at the calibrated code of the band, until the band's servo is locked. -/
def toBand (b : Nat) (s : State) : State :=
  let s := setLoop 4 (fun l => { l with mode := 1, modeReq := 1, manOut := Config.bandCode b }) s
  { s with mon := { s.mon with bandWait := true } }

/-- The head stands at a wrap: its data band (R176), loop 4's target in it, the wrap's record, and the exclusions that end. -/
def atWrap (w : Nat) (s : State) : State :=
  if s.cart.wrap = some w then s
  else
    let s := setLoop 4 (fun l => { l with targetNext := some (wrapTarget w) }) (endMediaExclusions (leaveWrap s))
    let s := if w / 52 = s.cart.band then s else toBand (w / 52) s
    { s with cart := { s.cart with wrap := some w, band := w / 52 } }

/-- The wrap of a partition's last dataset, and the datasets that stand in it. -/
def lastWrap (p : Nat) (c : Cartridge) : Nat × Nat :=
  let l := chainOf c p
  let w := (l.getLast?).elim (firstWrap c p) (·.wrap)
  (w, (l.filter (·.wrap == w)).length)

/-- The wrap of the next dataset position behind the chain. -/
def nextWrap (p : Nat) (c : Cartridge) : Nat :=
  let l := lastWrap p c
  if perWrap c ≤ l.2 then l.1 + 1 else l.1

/-- Positions at the end of a wrap that a run leaves to its closing EOD datasets (log entry 20). -/
def wrapSpare (c : Cartridge) : Nat := min 6 (perWrap c / 2)

/-- The wrap in which a run begins (R178): the next one when only the spare positions are left. -/
def runWrap (p : Nat) (c : Cartridge) : Nat :=
  let l := lastWrap p c
  if perWrap c ≤ l.2 + wrapSpare c then l.1 + 1 else l.1

/-- A run must end before the wrap does (R178). -/
def wrapEnds (p : Nat) (c : Cartridge) : Bool :=
  let l := lastWrap p c
  decide (perWrap c ≤ l.2 + 1 + wrapSpare c)

/-- The datasets held by the read path are released when another command uses the tape (10 R266). -/
def dropHeld (s : State) : State :=
  { s with tec := { s.tec with held := [], buffers := [], recovering := none, c3Active := false, rdActive := false, rdPass := 0 } }

/-! ### Datasets reach the tape -/

/-- A dataset goes onto the tape behind its partition's chain. -/
def putOnTape (d : Dataset) (s : State) : State :=
  match s.cart.inDrive with
  | none => s
  | some c =>
    let w := nextWrap d.partition c
    let s := atWrap w { s with cart := { s.cart with positioned := true } }
    modCart (fun c => { c with chain := c.chain ++ [{ d with wrap := w, sfn := s.mon.sfn }] }) s

/-- A dataset of a run goes onto the tape in the wrap of the run, with the copies in its rewrite slots and the servo frame number at
which its slot 0 began (R184, R186). -/
def putInRun (d : Dataset) (s : State) : State :=
  let w := s.cart.wrap.getD 0
  let sfn := (s.fmt.run.filter (·.seq == d.seq)).elim s.mon.sfn (·.startSfn)
  let copies := (s.fmt.run.filter (·.seq == d.seq)).elim [] (·.copies)
  modCart (fun c => { c with chain := c.chain ++ [{ d with wrap := w, sfn := sfn, copies := copies }] })
    { s with cart := { s.cart with positioned := true } }

/-- A run lies wholly within one wrap (R178): the head goes to the wrap where it is to begin. -/
def toRunWrap (p : Nat) (s : State) : State :=
  match s.cart.inDrive with
  | some c => atWrap (runWrap p c) s
  | none => s

/-- The dataset of a chain that holds an item, by the dataset order. -/
def holderSeq (l : List Dataset) (n : Nat) : Option Nat := (findItem l n).map (·.1.seq)

/-- A run placed by R197 begins: what lies beyond the fourth dataset after the one that holds item n - 1 is written
over; with n = 0 the whole partition is. -/
def cutChain (p n : Nat) (s : State) : State :=
  match s.cart.inDrive with
  | none => s
  | some c =>
    let l := chainOf c p
    let keep := if n = 0 then [] else
      match holderSeq l (n - 1) with
      | some q => (l.filter (·.seq ≤ q)) ++ ((l.filter (q < ·.seq)).take 4)
      | none => l
    modCart (fun c => { c with chain := c.chain.filter fun d => d.partition != p || keep.contains d }) s

/-- The base end of a partition is recorded before its first run since LOAD (09 R255). -/
def recordBase (p : Nat) (s : State) : State :=
  match s.cart.inDrive with
  | none => s
  | some c =>
    if s.fmt.based.getD p false then s
    else
      let n := if s.fmt.owed.getD p false then s.fmt.durableEnd.getD p 0 else chainEnd (chainOf c p)
      let e := (cartSerial c, p, n)
      { s with
        fmt := { s.fmt with based := s.fmt.based.set p true }
        mram := { s.mram with
          releases := s.mram.releases.filter fun r => !(r.serial == e.1 && r.partition == p)
          baseEnds := s.mram.baseEnds.filter (fun b => !(b.1 == e.1 && b.2.1 == p)) ++ [e] } }

/-- What comes before the first dataset of a run: the status page with DIRTY = 1 and a history entry at the first run
since LOAD (R202), and the base end. -/
def beforeRun (p : Nat) (s : State) : State :=
  let s := if s.cart.runMade then s
    else writeHistory (writeStatus true { s with cart := { s.cart with runMade := true } })
  recordBase p s

/-- A dataset holds a buffer of the Porter from its forming to its release (01 R20). -/
def withBuffer (f : State → State) (s : State) : State :=
  match porterTry 6 8388608 s with
  | some (h, s) => freeBuffer 6 h (f s)
  | none => f s

/-- One EOD dataset written and verified by itself, outside the pipeline of a run in progress: LOAD, UNLOAD, FORMAT and
the first tape command after a reset wait for such a run whole (log entry 1). -/
def writeEod (p first : Nat) (trunc : Bool) (s : State) : State :=
  withBuffer (fun s =>
    let d := { bareDataset 2 p first trunc s with seq := s.fmt.nextSeq, serial := Config.serialNumber.toNat }
    let s := { s with fmt := { s.fmt with
      nextSeq := s.fmt.nextSeq + 1, eodDatasets := sat64 s.fmt.eodDatasets 1, datasets := sat64 s.fmt.datasets 1
      fillSlots := sat64 s.fmt.fillSlots 512 } }
    putInRun d s) s

/-- A run that truncates a partition at an item (R197, 09 R255), of EOD datasets alone: the truncating one and one that
ends the run (R196); no dataset was ready, so the run counts under 13 R349 (log entry 20). -/
def truncateRun (p first : Nat) (s : State) : State :=
  let s := writeEod p first false (writeEod p first true (toRunWrap p (cutChain p first (beforeRun p s))))
  let s := raiseN evSpmRunStop { s with spm := { s.spm with runStops := sat64 s.spm.runStops 1 } }
  cutEnd p first { s with fmt := { s.fmt with
    owed := s.fmt.owed.set p false, truncate := s.fmt.truncate.set p none, truncRun := s.fmt.truncRun.set p false
    durableEnd := s.fmt.durableEnd.set p first } }

/-- The run of 09 R255 that a partition owes, or a truncation that no dataset has carried yet. -/
def payOwed (p : Nat) (s : State) : State :=
  if !s.wh.epochValid then s
  else if s.fmt.owed.getD p false then truncateRun p (s.fmt.durableEnd.getD p 0) s
  else match s.fmt.truncate.getD p none with
    | some n => truncateRun p n s
    | none => s

/-! ### FORMAT_PARTITIONS (R199, R200) -/

/-- Wrap pairs of the basic form (R199). -/
def evenPairs (n : Nat) : List Nat :=
  (List.range n).map fun p => if p + 1 = n then 104 - (n - 1) * (104 / n) else 104 / n

def sumNat (l : List Nat) : Nat := l.foldl (· + ·) 0

/-- The format page (Table 7-5). -/
def formatPage (pairs : List Nat) (c3 : Nat) (s : State) : List Byte :=
  [2, b8 pairs.length, b8 c3, 0] ++ leBytes 4 s.wh.epoch ++ leBytes 8 Config.serialNumber.toNat
    ++ (List.range pairs.length).flatMap fun p =>
      leBytes 2 (2 * sumNat (pairs.take p)) ++ leBytes 2 (2 * pairs.getD p 0)

/-- The cartridge is formatted: a run of EOD datasets at the start of each partition, then the pages. -/
def formatCart (pairs : List Nat) (c3 : Nat) (s : State) : State :=
  let s := (List.range pairs.length).foldl (fun s p => beforeRun p s) s
  let s := modCart (fun c => cmPage 0x100 (formatPage pairs c3 s) { c with chain := [] }) s
  let s := (List.range pairs.length).foldl (fun s p => writeEod p 0 false (toRunWrap p s)) s
  let z := List.replicate 4 0
  let s := { s with fmt := { s.fmt with
    placeEnd := z, durableEnd := z, truncate := List.replicate 4 none, truncRun := List.replicate 4 false
    owed := List.replicate 4 false, c3Next := z, c3Groups := [] } }
  let s := writeStatus true s
  { s with cart := { s.cart with cm := 1, statusDue := false }, pkr := { s.pkr with history := [] } }

/-- Step 3 of R200. -/
def formatContexts (count : Nat) (s : State) : State :=
  let f := fun (c : Context) => { c with position := 0, partition := if count ≤ c.partition then 0 else c.partition }
  { s with ctx := { s.ctx with
    records := (s.ctx.records.map fun r => (r.1, f r.2)).filter fun r => decide (r.2 ≠ Context.zero) } }

/-! ### LOAD (R203, R204) -/

/-- A cartridge is not taken (R203, R204). -/
inductive LoadResult where
  | ok
  /-- MEDIA_ERROR with RESULT1. -/
  | error (r1 : Nat)
  deriving DecidableEq, Repr

/-- A blank cartridge: FORMAT 0x00 in a valid page, or an all-zero page. -/
def formatPageOk (c : Cartridge) : Bool :=
  (cmSlice c 0x100 256).all (· == 0) || (pageValid c 0x100
    && (cmFormat c == 0 || (cmFormat c == 1 && mediaType c == 0x81) || (cmFormat c == 2 && mediaType c == 0x82)))

def isBlank (c : Cartridge) : Bool := cmFormat c == 0

/-- LAST_SEQ of the status copy in force; 0 of a blank cartridge and where no copy is valid. -/
def recordedSeq (c : Cartridge) : Nat :=
  if isBlank c then 0 else match statusCopy c with
    | some o => cmNat c (o + 8) 6
    | none => 0

/-- Greatest SEQ known of a cartridge (R203). -/
def knownSeq (c : Cartridge) : Nat :=
  let last := recordedSeq c
  let top := c.chain.foldl (fun m d => max m d.seq) last
  if isBlank c then last else top

/-- End of data of each partition. -/
def endsOf (c : Cartridge) : List Nat :=
  (List.range 4).map fun p => if isBlank c then 0 else chainEnd (chainOf c p)

/-- A loaded cartridge of valid memory takes its place: next SEQ, ends of data, a fresh start of what LOAD begins anew. -/
def takeCart (c : Cartridge) (s : State) : State :=
  let ends := endsOf c
  let g := (List.range 4).map fun p => (chainOf c p).foldl (fun m d => if d.c3On ∧ d.kind ≠ 2 then max m (d.c3Group + 1) else m) 0
  let s := { s with
    cart := { s.cart with loaded := true, unknown := false, threaded := true, runMade := false, statusDue := false, cm := 1
                          positioned := false, statusAt := none, historyAt := none }
    fmt := { s.fmt with
      nextSeq := knownSeq c + 1, placeEnd := ends, durableEnd := ends, truncate := List.replicate 4 none
      truncRun := List.replicate 4 false, owed := List.replicate 4 false, based := List.replicate 4 false
      firstReady := none, c3Next := g, c3Groups := [] }
    spm := { s.spm with rIn := none, rOut := none, inSince := 0, outSince := 0, readyBytes := 0, lastDecision := s.aon.time }
    mon := { s.mon with kSquare := 0 }
    pkr := { s.pkr with history := [] } }
  atWrap (firstWrap c 0) (loadDefaults s)

/-- A cartridge of invalid memory stays threaded (R203); nothing was read from its tape. -/
def takeInvalid (c : Cartridge) (s : State) : State :=
  let z := List.replicate 4 0
  { s with
    cart := { s.cart with loaded := true, threaded := true, cm := 3, positioned := false, statusAt := none, historyAt := none }
    fmt := { s.fmt with
      nextSeq := recordedSeq c + 1, placeEnd := z, durableEnd := z, truncate := List.replicate 4 none
      truncRun := List.replicate 4 false, owed := List.replicate 4 false, based := List.replicate 4 false
      firstReady := none, c3Next := z, c3Groups := [] } }

/-- DIRTY of the status copy in force. -/
def dirtyOf (c : Cartridge) : Bool :=
  if isBlank c then false else match statusCopy c with
    | some o => cmNat c (o + 4) 1 % 2 == 1
    | none => false

/-- The partition's durable end that MRAM holds for the cartridge (09 R255): the last release record's, else the base
end's. -/
def mramEnd (c : Cartridge) (p : Nat) (s : State) : Option Nat :=
  match (s.mram.releases.filter fun r => r.serial == cartSerial c && r.partition == p).getLast? with
  | some r => some r.whole
  | none => (s.mram.baseEnds.find? fun b => b.1 == cartSerial c && b.2.1 == p).map (·.2.2)

/-- The truncations that a cartridge has pending (17 R435) are made before LOAD ends. -/
def payPending (c : Cartridge) (s : State) : State :=
  let mine := s.mram.truncs.filter fun t => t.1 == cartSerial c
  let s := mine.foldl (fun s t => match mramEnd c t.2 s with
    | some n =>
      payOwed t.2 { s with fmt := { s.fmt with
        owed := s.fmt.owed.set t.2 true, durableEnd := s.fmt.durableEnd.set t.2 n, placeEnd := s.fmt.placeEnd.set t.2 n } }
    | none => s) s
  { s with mram := { s.mram with truncs := s.mram.truncs.filter fun t => t.1 != cartSerial c } }

/-- What is on the cartridge when its pending truncations need an epoch that is not there yet (16 R418). -/
def loadMustWait (s : State) : Bool :=
  match s.cart.inDrive with
  | some c => (s.mram.truncs.any fun t => t.1 == cartSerial c) && !s.wh.epochValid
  | none => false

/-- The steps of LOAD on the cartridge in the drive. -/
def loadCart (s : State) : LoadResult × State :=
  match s.cart.inDrive with
  | none => (.error 0xFFFFFFFFFFFFFFFF, s)
  | some c =>
    let known := mediaType c == 0x81 || mediaType c == 0x82
    if pageValid c 0 && !known then
      (.error 0xFFFFFFFFFFFFFFFB,
        raiseP evFmtMediaUnknown (mediaType c) { s with cart := { s.cart with unknown := true, threaded := false, cm := 3 } })
    else if !pageValid c 0 || !formatPageOk c || (!isBlank c && (statusCopy c).isNone) then
      (.error 0xFFFFFFFFFFFFFFFC, raiseN evFmtCmError (takeInvalid c s))
    else
      let s := takeCart c s
      let s := { s with cart := { s.cart with dirty := dirtyOf c } }
      let s := payPending c s
      if dirtyOf c then (.ok, raiseN evFmtCmStale (writeStatus false { s with cart := { s.cart with cm := 2 } }))
      else (.ok, s)

/-- After a cold start with a cartridge present, the steps of LOAD come before the first command that uses the tape
(17 R435). -/
def autoLoad (s : State) : State :=
  if s.cart.loaded || s.cart.unknown || !s.cart.threaded then s else (loadCart s).2

end Sys2Proof.Machine
end

