-- ==== Sys2Proof/Machine/Write.lean ====
section
/-! DEFINITION. Write commands: WRITE_RECORDS, WRITE_FILEMARKS, SYNC (04 R101-R109), the fetch of records (01 R28, 02
R43, R52), the Packer's blocks (05 R118, R119, R128-R135), the placement of frames (05 R136, 06 R146-R149, R169, 07
R190-R192), and how a write command ends (01 R27, R29; 07 R475). -/

namespace Sys2Proof.Machine

/-! ### Commands that use the tape -/

/-- The tape is being stopped or its retry is due: commands that need it wait (13 R342, R343, 15 R387). -/
def tapeHeld (s : State) : Bool := s.drv.safeStop || s.mon.stopped || s.thm.stopped || s.hlk.state < 2

/-- A unit without which the tape cannot be used is DEGRADED or OFFLINE (17 R439). -/
def tapeDown (s : State) : Bool :=
  unitDown unDrover s || unitDown unTransport s || unitState unHeadLink s == 3 || s.hlk.state == 4 || s.mem.degraded

/-- The cap of a command that moves the tape ends with it (13 R348). -/
def liftCap (s : State) : State := { s with spm := { s.spm with commandCap := 24 } }

/-- A command has had an automatic retry (17 R438). -/
def markRetried (jsn : Nat) (s : State) : State := setRun jsn (fun r => { r with retried := true }) s

/-- A command that uses the tape begins (04 R116), after the steps of LOAD where they are due (17 R435); LOAD makes them
itself. During a lane's retrain it reports OK_RETRIED (11 R295). -/
def onTape (op jsn : Nat) (s : State) (k : JournalEntry → RunInfo → State → State) : State :=
  onBegin op jsn s fun e r s =>
    if tapeDown s then endEarly e stUnitDegraded s
    else if tapeHeld s || loadMustWait s then waitRun jsn s
    else
      let s := if s.hlk.retraining.isSome then markRetried jsn s else s
      k e r (if op = opLoad then s else autoLoad s)

/-! ### Helpers -/

/-- A lane's transient count of log page 0x01: compression 0 to 7, decompression 8 to 15, cipher 16 to 23. -/
def laneTransient (k unit : Nat) (s : State) : State :=
  addTransient unit { s with sys := { s.sys with laneRetries := tabUpd 0 k (satAdd (2 ^ 32 - 1) 1) s.sys.laneRetries } }

/-- Lengths of the items of a command's stream. -/
def streamLens (w : WriteRun) : List Nat := w.lens.drop w.base

def streamTotal (w : WriteRun) : Nat := sumNat (streamLens w)

def itemTotal (w : WriteRun) : Nat := if w.filemarks ≠ 0 then w.filemarks else w.lens.length

/-- Every item and every byte is placed. -/
def allPlaced (w : WriteRun) : Bool := w.placedItems == itemTotal w && w.placedBytes == streamTotal w

/-- Every earlier accepted write command, in journal order, has placed its items (04 R102). -/
def placeTurn (jsn : Nat) (s : State) : Bool :=
  s.jrn.entries.all fun x => decide (jsn ≤ x.jsn) || !isWriteOp (entryOp x)
    || (match findRun s x.jsn with
      | none => true
      | some r => decide (r.phase = .unretired) || (match findWrite x.jsn s with
        | some w => w.ending.isSome || allPlaced w
        | none => false))

/-! ### The end of write commands -/

/-- A dataset that holds a part of a command is neither released nor retracted. -/
def holdsPart (jsn : Nat) (s : State) : Bool :=
  (s.fmt.active.any fun d => d.jsns.contains jsn) || (s.fmt.closed.any fun o => o.jsns.contains jsn)
    || (s.fmt.opened.any fun o => o.jsns.contains jsn)

/-- The write commands that a command waits for have all ended (04 R108). -/
def waitsDone (jsn : Nat) (s : State) : Bool :=
  match findEntry s jsn with
  | none => true
  | some e =>
    if entryOp e = opWriteRecords then true
    else if syncAll e then !writesOpen none jsn s
    else !writesOpen (some (entryCtx e)) jsn s

/-- Record number after a command's last item. -/
def afterLast (w : WriteRun) : Option Nat := w.firstItem.map (· + w.placedItems)

/-- A write command ends: its run is over, POSITION is one past its last item (04 R107), and DURABLE comes first (01 R27).
An item whose only copies were retracted or cut is not among those the command placed (09 R250; log entry 19). -/
def finishWrite (w : WriteRun) (st : Nat) (r1 : Nat) (s : State) : State :=
  let s := w.bufs.foldl (fun s h => freeBuffer 1 h s) { s with fmt := { s.fmt with writes := s.fmt.writes.filter (·.jsn != w.jsn) } }
  let s := match afterLast w with
    | some n => setCtx w.ctx (fun c => { c with position := n }) s
    | none => s
  endWith w.jsn st w.durable r1 (raise evDurable w.jsn w.durable s)

/-- RESULT1: the first item's number, or the end of data at the start (04 R107). -/
def firstResult (w : WriteRun) : Nat := w.firstItem.getD w.startEnd

/-- One write command ends when it may (01 R27, R29, 09 R250). -/
def settleWrite (s : State) (jsn : Nat) : State :=
  match findWrite jsn s with
  | none => s
  | some w =>
    match w.ending with
    | some (st, r1) => if holdsPart jsn s then s else finishWrite w st (r1.getD (firstResult w)) s
    | none =>
      if !(allPlaced w && w.durable == itemTotal w && waitsDone jsn s) then s
      else finishWrite w stOk (firstResult w) s

/-- Write commands end in journal order. -/
def settleWrites (s : State) : State := (sortBy (· ≤ ·) (s.fmt.writes.map (·.jsn))).foldl settleWrite s

/-- A command stops placing: a record that it left partly placed is cut (R475), and it ends once its datasets are
settled. `r1`: RESULT1 when the status states one; the item number of the cut when it is to be the first not placed. -/
def stopWrite (jsn st : Nat) (r1 : Option Nat) (s : State) : State :=
  match findWrite jsn s with
  | none => s
  | some w =>
    let s := if s.fmt.opened.any fun o => o.frameOpen && o.frameJsn == jsn then (closeFrame s).getD (sealOpen w.ctx s) else s
    let w := (findWrite jsn s).getD w
    let end_ := fun (n : Nat) (w : WriteRun) => { w with ending := some (st, r1), blocks := [], placedItems := n }
    if w.filemarks ≠ 0 ∨ w.placedItems ≤ w.done then setWrite jsn (end_ w.placedItems) s
    else
      let cut := w.firstItem.getD 0 + w.done
      let s := closeOpen s
      setWrite jsn (end_ w.done) (cutEnd w.partition cut { s with fmt := { s.fmt with
        truncate := s.fmt.truncate.set w.partition (some cut) } })

/-- Accepted write commands that have placed an item end once settled, and the others at once (09 R258). -/
def stopAllWrites (st : Nat) (s : State) : State :=
  let js := s.fmt.writes.filter (fun w => w.ending.isNone && itemTotal w != 0) |>.map (·.jsn)
  let s := js.foldl (fun s j => stopWrite j st none s) s
  let rest := s.jrn.entries.filter fun e => (findWrite e.jsn s).isNone && (match findRun s e.jsn with
    | some r => decide (r.phase ≠ .unretired) | none => false)
    && (entryOp e == opWriteRecords || (entryOp e == opWriteFilemarks && 1 ≤ bits (pktWord e 2) 0 32))
  settleWrites (rest.foldl (fun s e => endWrite e st s) s)

/-! ### Datasets that are closed for a waiting command (04 R109) -/

/-- A command waits on the durability of items: the commands whose items it waits for. A motion or read command needs the tape to
leave the end of data, behind every earlier write (R109, R116). -/
def waitedFor (jsn : Nat) (e : JournalEntry) (s : State) : List Nat :=
  (s.fmt.writes.filter fun w => w.jsn ≤ jsn && (isMotion e || syncAll e || w.ctx == entryCtx e)).map (·.jsn)

/-- Commands that wait for the durability of others: a filemark or SYNC command placed and not ended, or a command that waits for the
tape to leave the end of data (R109). -/
def flushers (s : State) : List (Nat × JournalEntry) :=
  s.jrn.entries.filterMap fun e => match findRun s e.jsn with
    | none => none
    | some r =>
      if (entryOp e == opWriteFilemarks || entryOp e == opSync)
          && (findWrite e.jsn s).any (fun w => w.ending.isNone && allPlaced w) then some (e.jsn, e)
      else if isMotion e && decide (r.phase = .waiting) then some (e.jsn, e) else none

/-- The open dataset is closed when a waiting command waits on items in it and those commands have placed all they have
(R109; log entry 19). -/
def flushOpen (s : State) : State :=
  match s.fmt.opened with
  | none => s
  | some o =>
    let wants := (flushers s).any fun f =>
      let js := waitedFor f.1 f.2 s
      o.jsns.any js.contains && (s.fmt.writes.all fun w => !js.contains w.jsn || w.ending.isSome || allPlaced w)
    if wants then closeOpen s else s

/-- Does a waiting command wait on ready bytes (13 R349)? -/
def flushWaits (s : State) : Bool :=
  let ready := s.fmt.closed.flatMap (·.jsns) ++ (s.fmt.active.filter fun d => s.fmt.formed.contains d.ds.seq).flatMap (·.jsns)
  s.jrn.entries.any fun e =>
    (entryOp e == opWriteFilemarks || entryOp e == opSync || entryOp e == opUnload) && (findRun s e.jsn).isSome
      && (waitedFor e.jsn e s).any ready.contains

/-- What follows any change of the write pipeline. -/
def afterWrites (s : State) : State := settleWrites (formAll (flushOpen s))

/-! ### The start of write commands -/

/-- Tenant, LEVEL, DICT_PERSIST and partition that a write command takes from its context. The commands before it in journal
order that name the context have then run (R95), so they are those in force at its place in that order; a command that a reset
met keeps what it took (04 R99, R104; DEDUCED, log entry 48). -/
def grantOf (e : JournalEntry) (r : RunInfo) (s : State) : Nat × Nat × Bool × Nat :=
  let c := getCtx (entryCtx e) s
  r.grant.getD (c.tenant, capLevel c.level s, c.persist, c.partition)

def newWrite (e : JournalEntry) (r : RunInfo) (fm : Nat) (lens : List Nat) (s : State) : WriteRun :=
  let g := grantOf e r s
  let b := min r.done (if fm ≠ 0 then fm else lens.length)
  { jsn := e.jsn, ctx := entryCtx e, partition := g.2.2.2, tenant := g.1, level := g.2.1
    persist := g.2.2.1, subscribe := entryOp e == opWriteRecords && subscribes e, filemarks := fm, lens := lens
    input := [], encoded := 0, blocks := [], nextBlock := 0, placedBytes := 0, placedItems := b
    firstItem := if b = 0 then none else some (r.first.getD (s.fmt.placeEnd.getD g.2.2.2 0 - b))
    startEnd := s.fmt.durableEnd.getD g.2.2.2 0, done := b, marks := [], durable := b, ending := none, carry := []
    histFrom := 0, base := b, badItem := none, bufs := [], spent := none }

/-- A write command's run begins. -/
def beginRun (w : WriteRun) (s : State) : State :=
  let s := setRun w.jsn (fun r => { r with grant := some (w.tenant, w.level, w.persist, w.partition) }) s
  afterWrites (startRun w.jsn { s with fmt := { s.fmt with writes := s.fmt.writes ++ [w] } })

/-- A command that gives its context a partition: OPEN_CONTEXT and LOCATE, by the packet. -/
def givesPartition (e : JournalEntry) : Bool := entryOp e == opOpenContext || entryOp e == opLocate

/-- The partition of a write command that has not started: the one that its context has once the earlier commands that name it
have run. -/
def comingPartition (x : JournalEntry) (s : State) : Nat :=
  match (s.jrn.entries.filter fun y =>
    y.jsn < x.jsn && givesPartition y && entryCtx y == entryCtx x && (findRun s y.jsn).isSome).getLast? with
  | some y => bits (pktWord y 1) 20 2
  | none => (getCtx (entryCtx x) s).partition

/-- An earlier write command to a partition has not ended (04 R103). -/
def partitionBusy (p jsn : Nat) (s : State) : Bool :=
  s.jrn.entries.any fun x => x.jsn < jsn && isWriteOp (entryOp x) && (match findRun s x.jsn with
    | some r => (match r.grant with
      | some g => g.2.2.2
      | none => comingPartition x s) == p
    | none => false)

/-- AT_POSITION (R103, R117, 07 R197): the end of data becomes POSITION. -/
def placeAt (pos p : Nat) (s : State) : State :=
  if pos < s.fmt.placeEnd.getD p 0 then
    cutEnd p pos { s with fmt := { s.fmt with
      durableEnd := s.fmt.durableEnd.set p pos
      truncate := s.fmt.truncate.set p (some pos), truncRun := s.fmt.truncRun.set p true } }
  else s

/-- R410 has blocked formation for 60 s while the Weighhouse is unavailable (16 R415). -/
def formBlockedLong (s : State) : Bool :=
  s.wh.avail != 1 && s.wh.blocked && s.wh.blockedAt.any fun t => passedMs t s.aon.time 60000

/-- A run of R255 that is still owed is made before the tape is used. -/
def truncateOwed (p : Nat) (s : State) : State :=
  if s.fmt.owed.getD p false then
    { s with fmt := { s.fmt with
      owed := s.fmt.owed.set p false, truncate := s.fmt.truncate.set p (some (s.fmt.durableEnd.getD p 0))
      truncRun := s.fmt.truncRun.set p true } }
  else s

/-- A command with items starts, or ends on what forbids it (R112, R207, 07 R203, 09 R258, 16 R410, R418). -/
def startItems (e : JournalEntry) (r : RunInfo) (fm : Nat) (lens : List Nat) (s : State) : State :=
  let c := getCtx (entryCtx e) s
  let p := (grantOf e r s).2.2.2
  let jsn := e.jsn
  if s.vfy.disabled || formBlockedLong s then endWrite e stUnitDegraded s
  else
    match loadedCart s with
    | none => endWriteAt e stMediaError 0xFFFFFFFFFFFFFFFF s
    | some cart =>
      if mediaType cart = 0x81 then endWriteAt e stMediaError 0xFFFFFFFFFFFFFFFE (raiseN evFmtNotWritable s)
      else if isBlank cart && !s.wh.epochValid then waitRun jsn s
      else if !isBlank cart && decide (cmPartitions cart ≤ p) then endWriteAt e stMediaError p s
      else
        let p := if isBlank cart then 0 else p
        let s := if isBlank cart then formatContexts 1 (formatCart (evenPairs 1) 0 s) else s
        let r := if isBlank cart then { r with grant := none } else r
        let s := dropHeld s
        let at_ := entryOp e == opWriteRecords && atPosition e && r.done == 0
          && (!s.cmd.compatActive || c.position == s.fmt.placeEnd.getD p 0)
        if at_ && partitionBusy p jsn s then waitRun jsn s
        else
          let s := truncateOwed p (if at_ then closeOpen (placeAt c.position p (closeOpen s)) else s)
          beginRun (newWrite e r fm lens s) s

/-- The buffer list of a command of before the start, fetched again (04 R106): a fetch that fails ends it (02 R46). -/
def refetched (e : JournalEntry) (r : RunInfo) (list : Option (List ListEntry)) : Option (List ListEntry) :=
  if !r.replayed then some r.list
  else list.filter fun l => l.length == bits (pktWord e 3) 0 17 && (recordLens 0 l).length == (recordLens 0 r.list).length

/-- WRITE_RECORDS (04 R102, R103). -/
def execWriteRecords (jsn : Nat) (list : Option (List ListEntry)) (s : State) : Out :=
  .next <| onTape opWriteRecords jsn s fun e r s =>
    if r.replayed && !hostReachable s then waitRun jsn s
    else
      let s := if r.replayed then fetchList e.words s else s
      match refetched e r list with
      | none => endWrite e stInternalFault s
      | some l => startItems e r 0 (recordLens 0 l) (setRun jsn (fun r => { r with list := l }) s)

/-- A command that only waits for others (04 R108). -/
def startWait (e : JournalEntry) (r : RunInfo) (s : State) : State := beginRun (newWrite e r 0 [] s) s

/-- WRITE_FILEMARKS (04 R108); with COUNT 0 it needs no tape of its own (07 R207). -/
def execWriteFilemarks (jsn : Nat) (s : State) : Out :=
  .next <| onBegin opWriteFilemarks jsn s fun e r s =>
    let n := bits (pktWord e 2) 0 32
    if n = 0 then startWait e r s
    else if tapeDown s then endWrite e stUnitDegraded s
    else if tapeHeld s || loadMustWait s then waitRun jsn s
    else startItems e r n [] (autoLoad s)

/-- SYNC (04 R108). -/
def execSync (jsn : Nat) (s : State) : Out := .next <| onBegin opSync jsn s fun e r s => startWait e r s

/-! ### Fetch of records (01 R28, 02 R40-R43, R52) -/

/-- The list entries of a stream that begins at an item. -/
def listFrom : Nat → List ListEntry → List ListEntry
  | 0, l => l
  | _, [] => []
  | n + 1, e :: t => if e.eor then listFrom n t else listFrom (n + 1) t

/-- The entry that holds a stream offset, and the offset in it. -/
def entryAt : Nat → List ListEntry → Option (ListEntry × Nat)
  | _, [] => none
  | off, e :: t => if off < e.length then some (e, off) else entryAt (off - e.length) t

/-- The item that holds a stream offset, counted from the stream's first. -/
def itemAt : Nat → Nat → List Nat → Nat
  | _, i, [] => i
  | off, i, l :: t => if off < l then i else itemAt (off - l) (i + 1) t

/-- The written, unreleased data datasets of a partition are retracted with a REASON, for their subscriptions (09 R252,
R254). -/
def retractEvent (jsn seq p reason : Nat) (repl : Bool) (s : State) : State :=
  raise evDatasetRetracted jsn (seq + p * 2 ^ 48 + boolNat repl * 2 ^ 50 + reason * 2 ^ 51)
    { s with mram := { s.mram with written := s.mram.written.filter fun w => !(w.jsn == jsn && w.seq == seq) } }

/-- A dataset is retracted: the events of those that were told of it (09 R253). -/
def retract (d : WrittenDataset) (reason : Nat) (s : State) : State :=
  (s.mram.written.filter (·.seq == d.ds.seq)).foldl
    (fun s w => retractEvent w.jsn w.seq w.partition reason w.replacement s) s

/-- A dataset leaves the pipeline: its buffer and its reservation go back (01 R20, 16 R410). -/
def dropDataset (d : WrittenDataset) (s : State) : State :=
  let s := freeBuffer 6 d.buf s
  { s with
    fmt := { s.fmt with
      active := s.fmt.active.filter (·.ds.seq != d.ds.seq), formed := s.fmt.formed.filter (· != d.ds.seq)
      writes := s.fmt.writes.map fun w => { w with marks := w.marks.filter (·.1 != d.ds.seq) } }
    wh := { s.wh with reserved := s.wh.reserved - d.reserved }
    vfy := { s.vfy with failedCws := s.vfy.failedCws.filter (·.seq != d.ds.seq) } }

/-- Frames of a dataset that drew an IV. -/
def ivCount (d : Dataset) : Nat := (d.frames.filter (·.alg != 0)).length

/-- Assembled datasets of a partition without a SEQ are given up: the IVs of their frames are burnt (06 R150). -/
def dropAssembled (p : Nat) (s : State) : State :=
  let give := fun (s : State) (o : OpenDataset) =>
    burnIv (ivCount o.ds) { freeBuffer 6 o.buf s with wh := { s.wh with reserved := s.wh.reserved - o.reserved } }
  let mine := (s.fmt.closed ++ s.fmt.opened.toList).filter (·.ds.partition == p)
  let s := mine.foldl give s
  { s with fmt := { s.fmt with
    closed := s.fmt.closed.filter (·.ds.partition != p), opened := s.fmt.opened.filter (·.ds.partition != p) } }

/-- A command's items that are not durable are to be fetched and placed again. -/
def replaceRun (w : WriteRun) : WriteRun :=
  { w with input := [], encoded := 0, blocks := [], nextBlock := 0, placedBytes := 0, placedItems := w.durable
           done := w.durable, marks := [], base := w.durable, carry := [], histFrom := 0
           firstItem := if w.durable = 0 then none else w.firstItem, spent := none }

/-- Bytes that a write run has fetched and not encoded lie in Porter buffers of 64 KiB: further ones are taken, or those left empty
go back (02 R52). -/
def fitBuffers (jsn : Nat) (s : State) : State :=
  match findWrite jsn s with
  | none => s
  | some w =>
    let need := (w.input.length - w.encoded + 65535) / 65536
    if need < w.bufs.length then
      (w.bufs.drop need).foldl (fun s h => freeBuffer 1 h s) (setWrite jsn (fun w => { w with bufs := w.bufs.take need }) s)
    else
      (List.range (need - w.bufs.length)).foldl (fun s _ => match porterTry 1 65536 s with
        | some (h, s) => setWrite jsn (fun w => { w with bufs := w.bufs ++ [h] }) s
        | none => s) s

/-- Every write run's. -/
def fitAll (s : State) : State := (s.fmt.writes.map (·.jsn)).foldl (fun s j => fitBuffers j s) s

/-- A write pipeline restart of a partition (14 R368). Its datasets with a SEQ that are not on tape yet are written as
formed and retracted with the others. -/
def restartPipeline (p : Nat) (s : State) : State :=
  let mine := s.fmt.active.filter fun d => d.ds.partition == p && d.ds.kind == 0
  let s := mine.foldl (fun s d =>
    let s := if d.written then s else putOnTape d.ds s
    dropDataset d (retract d 2 s)) (dropAssembled p s)
  let n := s.fmt.durableEnd.getD p 0
  let js := (s.fmt.writes.filter fun w => w.partition == p && w.ending.isNone).map (·.jsn)
  let s := js.foldl (fun s j => markRetried j s) s
  fitAll (cutEnd p n { s with fmt := { s.fmt with
    writes := s.fmt.writes.map fun w => if w.partition = p ∧ w.ending.isNone then replaceRun w else w
    truncate := s.fmt.truncate.set p (some n), truncRun := s.fmt.truncRun.set p true } })

/-- An uncorrectable byte of write input: the restart, or at the same item again the end of the command's items there
(14 R368). -/
def badInput (jsn : Nat) (w : WriteRun) (s : State) : State :=
  let i := w.base + itemAt w.input.length 0 (streamLens w)
  if w.badItem = some i then
    let lens := w.lens.take i
    let cut := { w with lens := lens, ending := none, input := w.input.take (sumNat (lens.drop w.base)) }
    if w.placedItems ≤ i ∧ cut.placedBytes = streamTotal cut then stopWrite jsn stInternalFault none (setWrite jsn (fun _ => cut) s)
    else setWrite jsn (fun _ => cut) s
  else setWrite jsn (fun w => { w with badItem := some i }) (restartPipeline w.partition s)

/-- Bytes that come next in the stream while they lie in HDM; the first argument bounds the entries. -/
def pullHdm : Nat → Nat → State → State
  | 0, _, s => s
  | n + 1, jsn, s =>
    match findWrite jsn s, findRun s jsn with
    | some w, some r =>
      match entryAt w.input.length (listFrom w.base r.list) with
      | some (e, off) =>
        if !e.hdm || w.ending.isSome || streamTotal w ≤ w.input.length then s
        else
          match readHdm (e.length / 32 + 2) (e.address + off) (e.length - off) s with
          | (l, bad, s) =>
            if bad then badInput jsn w s
            else pullHdm n jsn (setWrite jsn (fun w => { w with input := w.input ++ l }) s)
      | none => s
    | _, _ => s

/-- The host range that the stream's next byte lies in: address and length. -/
def nextHost (w : WriteRun) (list : List ListEntry) : Nat × Nat :=
  match entryAt w.input.length (listFrom w.base list) with
  | some (e, off) => if e.hdm then (0, 0) else (e.address + off, e.length - off)
  | none => (0, 0)

/-- HOST_RECORD_FETCH (02 R52): bytes whose MAC check fails are fetched again; a range that translates no more ends the command
(R46). -/
def execHostRecordFetch (jsn : Nat) (bytes : List Byte) (macOk : Bool) (s : State) : Out :=
  .next <|
    match findWrite jsn s, findRun s jsn with
    | some w, some r =>
      if w.ending.isSome || !hostReachable s then s
      else
        let s := pullHdm r.list.length jsn s
        match findWrite jsn s with
        | none => s
        | some w =>
          let h := nextHost w r.list
          if h.2 ≠ 0 ∧ !translates h.1 h.2 s then afterWrites (stopWrite jsn stInternalFault none s)
          else
            let s := if h.2 = 0 ∨ bytes.isEmpty then s else hostFetch h.1 (min bytes.length h.2) s
            let s := if macOk then
                setWrite jsn (fun w => { w with input := (w.input ++ bytes.take h.2).take (streamTotal w) }) s
              else s
            afterWrites (fitBuffers jsn (pullHdm r.list.length jsn s))
    | _, _ => s

/-! ### Encoding (05 R118, R119, R127-R135) -/

/-- The parameters in force of a level (R131, R144). -/
def levelParams (level : Nat) (s : State) : LevelParams := s.pkr.levels.getD level { depth := 0, window := 0, lazyEval := 0 }

/-- Greatest distance that a level uses. -/
def windowOf (level : Nat) (s : State) : Nat := 2 ^ (levelParams level s).window

/-- The history that a context's next write command continues (R130); none: it does not. -/
def carryOver (w : WriteRun) (s : State) : Option (List Byte) :=
  if (getCtx w.ctx s).dict = 0 then none
  else ((s.pkr.history.find? fun h => h.1 == w.ctx && h.2.2.1 == w.partition
    && h.2.2.2 == s.fmt.placeEnd.getD w.partition 0).map (·.2.1)).filter fun l => !l.isEmpty

/-- History behind the first n stream bytes: what lies between the latest block with HIST = 0 and there (R127). -/
def historyOf (w : WriteRun) (n : Nat) : List Byte := w.carry ++ (w.input.take n).drop w.histFrom

/-- History of the next block of a stream, within its level's window. -/
def blockHistory (w : WriteRun) (s : State) : List Byte := lastBytes (windowOf w.level s) (historyOf w w.encoded)

/-- The next block of a stream is complete: 65,536 bytes, or the last. -/
def blockReady (w : WriteRun) : Bool :=
  let left := w.input.length - w.encoded
  65536 ≤ left || (1 ≤ left && w.input.length == streamTotal w)

def addBlock (b : EncBlock) (w : WriteRun) : WriteRun :=
  { w with blocks := w.blocks ++ [b], encoded := w.encoded + b.input.length
           histFrom := if b.hist then w.histFrom else w.encoded
           carry := if b.hist then w.carry else [] }

/-- One block is encoded. -/
def encodeNext (lane : Nat) (w : WriteRun) (s : State) : State :=
  let first := w.encoded == 0
  if first && w.persist && (getCtx w.ctx s).dict != 0 && !placeTurn w.jsn s then s
  else
    let carry := if first then (carryOver w s).getD [] else w.carry
    let w := { w with carry := carry }
    let input := (w.input.drop w.encoded).take 65536
    let history := blockHistory w s
    let hist := !history.isEmpty
    let b := encodeBlock w.level (levelParams w.level s) (decide (s.pkr.cDegraded ≠ BitVec.allOnes 8)) hist history input lane
    let raw := decide (b.type = 0 ∧ w.level ≠ 0)
    let s := { s with pkr := { s.pkr with
      inBytes := sat64 s.pkr.inBytes input.length
      rawBlocks := if raw then sat64 s.pkr.rawBlocks 1 else s.pkr.rawBlocks } }
    fitBuffers w.jsn (setWrite w.jsn (fun _ => addBlock b w) s)

/-- A lane encodes: one in service, or any where none is and blocks are stored (R135). -/
def laneEncodes (lane : Nat) (s : State) : Bool := !s.pkr.cDegraded.getLsbD lane || decide (s.pkr.cDegraded = BitVec.allOnes 8)

/-- PKR_BLOCK_ENCODED (05 R119). -/
def execPkrBlockEncoded (jsn lane : Nat) (s : State) : Out :=
  .next <| match findWrite jsn s with
  | none => s
  | some w => if w.ending.isSome || !blockReady w || !laneEncodes lane s then s else encodeNext lane w s

/-- Blocks encoded behind one that has lost its history are encoded again. -/
def dropBehind (k : Nat) (w : WriteRun) : WriteRun :=
  let keep := w.blocks.take (k + 1)
  { w with blocks := keep, encoded := w.placedBytes + sumNat (keep.map (·.input.length))
           histFrom := w.placedBytes + sumNat ((keep.take k).map (·.input.length)), carry := [] }

/-- The k-th waiting block is stored RAW (R135). -/
def storeRaw (k : Nat) (w : WriteRun) : WriteRun :=
  let raw := fun (b : EncBlock) => { b with type := 0, hist := false, payload := b.input, checked := true }
  dropBehind k { w with blocks := w.blocks.modify k raw }

/-- PKR_SELFCHECK (05 R135) of the first block that has not been checked; the lane that checks has no effect of its own, and
the lane that encoded the block is the one marked. -/
def execPkrSelfcheck (jsn _lane : Nat) (pass retryPass : Bool) (s : State) : Out :=
  .next <| match findWrite jsn s with
  | none => s
  | some w =>
    match indexOf? (fun b : EncBlock => !b.checked) w.blocks with
    | none => s
    | some k =>
      let ok := setWrite jsn fun w => { w with blocks := w.blocks.modify k fun b => { b with checked := true } }
      if pass then ok s
      else
        let c := (w.blocks.map (·.lane)).getD k 0
        let s := raiseP evPkrSelfcheckFail c (markRetried jsn { s with pkr := { s.pkr with selfErrs := sat64 s.pkr.selfErrs 1 } })
        if retryPass then laneTransient c unPack (ok s)
        else
          let s := { s with pkr := { s.pkr with
            cDegraded := s.pkr.cDegraded ||| BitVec.ofNat 8 (2 ^ c), rawBlocks := sat64 s.pkr.rawBlocks 1 } }
          setWrite jsn (storeRaw k) (setUnit unPack 2 c (raiseP evPkrLaneDegraded c s))

/-! ### Placement (05 R136, 06 R146-R149, R169, 07 R190-R192, R198) -/

/-- Record and offset of a stream byte. -/
def recordAt (off : Nat) (w : WriteRun) (s : State) : Nat × Nat :=
  let i := itemAt off 0 (streamLens w)
  let first := w.firstItem.getD (s.fmt.placeEnd.getD w.partition 0 - w.base)
  (first + w.base + i, off - sumNat ((streamLens w).take i))

/-- A record as its directory entry gives it: BLOCK and OFFSET of its first byte, and whether it begins the stream (05 R118, 07
R189). -/
def recordItem (off len : Nat) (first : Bool) : TapeItem :=
  { kind := 1, length := len, starts := true, block := off / 65536, offset := off % 65536, stream := first }

/-- A record of 0 bytes behind the stream's last byte: BLOCK is the number of blocks (07 R189). -/
def trailingItem (total : Nat) (first : Bool) : TapeItem :=
  { kind := 1, length := 0, starts := true, block := (total + 65535) / 65536, offset := 0, stream := first }

def markItem : TapeItem := { kind := 2, length := 0, starts := true, block := 0xFFFFFFFF, offset := 0, stream := false }

/-- Items, of those behind a start, that begin below a stream offset. -/
def beginBelow : Nat → Nat → Bool → List Nat → List TapeItem
  | _, _, _, [] => []
  | st, hi, first, l :: t => if st < hi then recordItem st l first :: beginBelow (st + l) hi false t else []

/-- The next item is the first record of the stream. -/
def startsStream (w : WriteRun) : Bool := w.placedItems == w.base

/-- Items that begin in the next block (07 R190). -/
def blockItems (b : EncBlock) (w : WriteRun) : List TapeItem :=
  beginBelow (sumNat ((streamLens w).take (w.placedItems - w.base))) (w.placedBytes + b.input.length) (startsStream w)
    (w.lens.drop w.placedItems)

/-- Items behind the stream's last byte. -/
def trailingItems (w : WriteRun) : List TapeItem :=
  (w.lens.drop w.placedItems).zipIdx.map fun p => trailingItem (streamTotal w) (startsStream w && p.2 == 0)

/-- Bytes of the encoded block. -/
def blockLen (b : EncBlock) : Nat := 16 + b.payload.length

/-- A frame header and a byte fit below the user area end that counts the entries of items (07 R191). -/
def frameFits (jsn : Nat) (items : List TapeItem) (o : OpenDataset) : Bool :=
  let o' := addItems jsn items o
  o'.ds.userBytes + 33 ≤ userEnd o'.ds.entries

/-- A block joins the open frame: of the same command, of fewer than 16 blocks, begun in this dataset, and with room below the user
area end that counts its items too: that end then counts those of every block of the frame (06 R146, 07 R191). -/
def joinsFrame (jsn : Nat) (b : EncBlock) (items : List TapeItem) (o : OpenDataset) : Bool :=
  let o' := addItems jsn items o
  o.frameOpen && o.frameJsn == jsn && b.hist && decide (o.frameBlocks < 16) && o.ds.apOffset.isSome
    && decide (o'.ds.userBytes + 1 ≤ userEnd o'.ds.entries)

/-- The partition has too few positions for items: fewer than 6 would remain after the dataset that they would enter, the open one
or the next (07 R198). -/
def partitionFull (p : Nat) (s : State) : Bool :=
  match s.cart.inDrive with
  | some c => decide (positionsLeft p c s < if s.fmt.opened.any (·.ds.partition == p) then 6 else 7)
  | none => true

/-- An open dataset of a partition that items may enter: another partition's is closed first (04 R109). -/
def ensureOpen (p : Nat) (s : State) : Option State :=
  let fresh := fun (s : State) => if partitionFull p s then none else openDataset p s
  match s.fmt.opened with
  | none => fresh s
  | some o =>
    if o.ds.partition = p then (if partitionFull p s then none else some s)
    else
      match closeDataset s with
      | none => none
      | some s => if s.fmt.opened.isSome then fresh (dropAssembled o.ds.partition s) else fresh s

/-- The open frame is closed and a dataset found in which the next frame may begin. -/
def newFramePlace (p jsn : Nat) (items : List TapeItem) (s : State) : Option State :=
  match closeFrame s with
  | none => none
  | some s =>
    match s.fmt.opened with
    | none => ensureOpen p s
    | some o =>
      if o.ds.partition = p ∧ partitionFull p s then none
      else if o.ds.partition = p ∧ frameFits jsn items o then some s
      else if o.ds.partition = p ∧ o.jsns.isEmpty ∧ o.ds.userBytes = 0 then some s
      else
        match closeDataset s with
        | none => none
        | some s => ensureOpen p s

inductive FrameStart where
  | ready (iv : BitVec 96) (clear limited : Bool) (s : State)
  | waits (s : State)
  | ends (st : Nat) (s : State)

/-- A draw for a frame. -/
def drawFrame (ctx : Nat) (s : State) : FrameStart :=
  match drawIv (false, ctx) s with
  | (.drawn iv lim, s) => .ready iv false lim s
  | (.wait, s) => .waits s
  | (.refused _, s) => .ends stKeyLimitReached s

/-- The check of a frame has failed: its IV is burnt (06 R150, R169). CPH_SELFCHECK_FAIL has the first encrypting lane in PARAM0, which
the spec leaves open (DESIGN CHOICE, log entry 53). -/
def failCheck (jsn lane : Nat) (s : State) : State :=
  raiseP evCphSelfcheckFail lane
    (markRetried jsn (burnIv 1 { s with cph := { s.cph with selfErrs := sat64 s.cph.selfErrs 1 } }))

/-- The one retry of a frame: the third lane encrypts it anew and the fourth checks that. Its success is the first lane's transient
fault; its failure takes the first lane out (06 R169). A draw that waits for CEIL keeps the retry spent. PARAM0 and CAUSE are the lane
(DESIGN CHOICE, log entry 53). -/
def redrawFrame (jsn ctx lane : Nat) (retry : Bool) (s : State) : FrameStart :=
  match drawFrame ctx s with
  | .ready iv c l s =>
    let s := ((frameLanes lane s).drop 2).foldl (fun s n => runOnLane n s) (setWrite jsn (fun w => { w with spent := none }) s)
    if retry then .ready iv c l (laneTransient (16 + lane) unCipher s)
    else
      let s := burnIv 1 { s with cph := { s.cph with
        selfErrs := sat64 s.cph.selfErrs 1, degraded := s.cph.degraded ||| BitVec.ofNat 8 (2 ^ lane) } }
      .ends stUnitDegraded (setUnit unCipher 2 lane (raiseP evCphLaneDegraded lane s))
  | .waits s => .waits (setWrite jsn (fun w => { w with spent := some lane }) s)
  | r => r

/-- The cipher engine encrypts a frame on a lane and checks it on another, in class 1 (06 R149, R165-R169). -/
def startFrame (w : WriteRun) (lane : Nat) (check retry : Bool) (s : State) : FrameStart :=
  if (getSlot (false, w.ctx) s).use = .empty then .ready 0 true false s
  else if s.cph.degraded = BitVec.allOnes 8 then .ends stUnitDegraded s
  else
    match w.spent with
    | some first => redrawFrame w.jsn w.ctx first retry s
    | none =>
      if !framesOpen lane s then .waits s
      else
        match drawFrame w.ctx s with
        | .ready iv c l s =>
          let s := ((frameLanes lane s).take 2).foldl (fun s n => runOnLane n s) s
          if check then .ready iv c l s else redrawFrame w.jsn w.ctx lane retry (failCheck w.jsn lane s)
        | r => r

/-- Native bytes become ready for placement (13 R347, R349). -/
def addReady (n : Nat) (s : State) : State :=
  { s with
    spm := { s.spm with readyBytes := s.spm.readyBytes + n, inSince := s.spm.inSince + n }
    fmt := { s.fmt with firstReady := match s.fmt.firstReady with
      | some t => some t
      | none => some s.aon.time } }

def addOnce (n : Nat) (l : List Nat) : List Nat := if l.contains n then l else l ++ [n]

/-- Items take their numbers and enter the open dataset's directory (04 R102, R107, 07 R189). -/
def placeItems (jsn : Nat) (items : List TapeItem) (s : State) : State :=
  if items.isEmpty then s
  else
    match findWrite jsn s with
    | none => s
    | some w =>
      let n := items.length
      let at_ := s.fmt.placeEnd.getD w.partition 0
      let s := modOpened (fun o =>
        let o := addItems jsn items (joinDataset jsn w.done o)
        { o with
          lastAt := s.aon.time, itemJsns := addOnce jsn o.itemJsns
          subs := if w.subscribe then addOnce jsn o.subs else o.subs }) s
      let s := setWrite jsn (fun w => { w with
        placedItems := w.placedItems + n, firstItem := some (w.firstItem.getD (at_ - w.base)) }) s
      let s := { s with fmt := { s.fmt with placeEnd := s.fmt.placeEnd.set w.partition (at_ + n) } }
      setCtx w.ctx (fun c => { c with
        itemsWritten := (c.itemsWritten + n) % 2 ^ 64, bytesWritten := (c.bytesWritten + sumNat (items.map (·.length))) % 2 ^ 64 }) s

/-- The access point of a dataset is the first block that begins in it (07 Table 7-2). -/
def setAccess (at_ block record off : Nat) (o : OpenDataset) : OpenDataset :=
  if o.ds.apOffset.isSome then o
  else { o with ds := { o.ds with apOffset := some at_, apBlock := block, apRecord := record, apRecOffset := off } }

/-- A frame header stands in the open dataset. -/
def putHeader (w : WriteRun) (b : EncBlock) (iv : BitVec 96) (clear limited : Bool) (s : State) : Option State :=
  let rec_ := recordAt w.placedBytes w s
  let k := getSlot (false, w.ctx) s
  let f : TapeFrame :=
    { alg := if clear then 0 else 1, limited := limited, label := if clear then 0 else k.label
      ivInst := iv.toNat % 2 ^ 32, ivCount := iv.toNat / 2 ^ 32, tenant := w.tenant, record := rec_.1, offset := rec_.2
      access := !b.hist, ctLen := 0, bytes := [], tag := [], inLen := 0 }
  let s := modOpened (fun o =>
    let o := setAccess o.ds.userBytes w.nextBlock rec_.1 rec_.2 o
    { o with frameOpen := true, frameBlocks := 0, frameHead := o.ds.userBytes, frameJsn := w.jsn, chunk := []
             ds := { o.ds with frames := o.ds.frames ++ [f] } }) s
  putFrameBytes 32 none w rec_.1 s

/-- The last frame of the open dataset takes a block in. -/
def extendFrame (b : EncBlock) (o : OpenDataset) : OpenDataset :=
  let k := o.ds.frames.length - 1
  { o with frameBlocks := o.frameBlocks + 1, chunk := o.chunk ++ blockBytes b
           ds := { o.ds with frames := o.ds.frames.modify k fun f => { f with inLen := f.inLen + b.input.length } } }

/-- A context's encoder history is kept at the end of its write command (05 R130). -/
def saveHistory (w : WriteRun) (s : State) : State :=
  if !w.persist then s
  else
    let keep := fun (s : State) =>
      let l := lastBytes (windowOf w.level s) (historyOf w w.input.length)
      { s with pkr := { s.pkr with
        history := s.pkr.history.filter (·.1 != w.ctx) ++ [(w.ctx, l, w.partition, s.fmt.placeEnd.getD w.partition 0)] } }
    if (getCtx w.ctx s).dict ≠ 0 then keep s
    else
      match porterTry 3 1048576 s with
      | some (h, s) => keep (setCtx w.ctx (fun c => { c with dict := h }) s)
      | none => raiseP evPkrDictDropped w.ctx s

/-- A directory entry more still leaves room below the user area end (07 R182). -/
def entryFits (s : State) : Bool := !s.fmt.opened.any fun o => userEnd (o.ds.entries + 1) < o.ds.userBytes

/-- The history that a stream without bytes continues is kept with it (05 R130). -/
def takeCarry (jsn : Nat) (s : State) : State :=
  setWrite jsn (fun w => if streamTotal w = 0 then { w with carry := (carryOver w s).getD [] } else w) s

/-- Items of 0 bytes behind the stream's last byte enter the open dataset (log entry 19). -/
def placeTrailing (jsn : Nat) (s : State) : State :=
  match findWrite jsn s with
  | none => s
  | some w =>
    if w.placedBytes ≠ streamTotal w ∨ w.placedItems = w.lens.length then s
    else
      match closeFrame s with
      | none => s
      | some s =>
        match ensureOpen w.partition (if entryFits s then s else closeOpen s) with
        | none => s
        | some s =>
          let s := noteDone jsn (placeItems jsn (trailingItems w) (takeCarry jsn s))
          if streamTotal w = 0 then (findWrite jsn s).elim s fun w => saveHistory w s else s

/-- After the stream's last block: its frame ends, the trailing items follow, the history is kept. -/
def streamEnd (jsn : Nat) (s : State) : State :=
  match findWrite jsn s with
  | none => s
  | some w =>
    if w.placedBytes ≠ streamTotal w then s
    else
      let s := placeTrailing jsn ((closeFrame s).getD s)
      saveHistory ((findWrite jsn s).getD w) s

/-- A dataset with fewer than 33 bytes left is closed at a frame boundary (07 R192). -/
def closeFull (s : State) : State :=
  if s.fmt.opened.any fun o => !o.frameOpen && decide (roomLeft o < 33) then closeOpen s else s

/-- A frame of 16 blocks, or one that has run on into the next dataset, ends. -/
def endFrame (s : State) : State :=
  if s.fmt.opened.any fun o => o.frameOpen && (decide (16 ≤ o.frameBlocks) || o.ds.apOffset.isNone) then (closeFrame s).getD s
  else s

/-- The partition has no position left for the command's next item (07 R198): RESULT1 is that item's number. -/
def stopFull (w : WriteRun) (s : State) : State :=
  let s := stopWrite w.jsn stMediaError none s
  let n := s.fmt.placeEnd.getD w.partition 0
  raiseP evFmtPartitionFull w.partition (setWrite w.jsn (fun w => { w with ending := some (stMediaError, some n) }) s)

/-- The block's bytes are placed. -/
def putBlock (b : EncBlock) (w : WriteRun) (s : State) : State :=
  let jsn := w.jsn
  let r := (recordAt w.placedBytes w s).1
  let items := blockItems b w
  let s := placeItems jsn items s
  let s := modOpened (extendFrame b) s
  let w' := (findWrite jsn s).getD w
  match putFrameBytes (blockLen b) (some w.tenant) w' r s with
  | none => s
  | some s =>
    let s := setWrite jsn (fun w => { w with
      blocks := w.blocks.drop 1, nextBlock := w.nextBlock + 1, placedBytes := w.placedBytes + b.input.length }) s
    let s := { s with pkr := { s.pkr with outBytes := sat64 s.pkr.outBytes (blockLen b) } }
    closeFull (streamEnd jsn (endFrame (addReady (blockLen b) s)))

/-- A block that spans into a dataset that cannot be opened waits. -/
def spanBlocked (n : Nat) (s : State) : Bool :=
  match s.fmt.opened with
  | some o => decide (roomLeft o < n) && !(mayOpen s && (porterTry 6 8388608 s).isSome)
  | none => true

/-- The first block that begins in a dataset is encoded again without history (05 R128); a CODED one is checked before it leaves
(R135). -/
def reencode (b : EncBlock) (w : WriteRun) (s : State) : EncBlock × State :=
  let n := encodeBlock w.level (levelParams w.level s) (decide (s.pkr.cDegraded ≠ BitVec.allOnes 8)) false [] b.input b.lane
  let w' := dropBehind 0 { w with blocks := w.blocks.modify 0 fun _ => n }
  let s := { s with pkr := { s.pkr with reencoded := sat64 s.pkr.reencoded 1 } }
  (n, setWrite w.jsn (fun _ => w') s)

/-- The frame header, and the block after it. -/
def writeFrame (b : EncBlock) (w : WriteRun) : FrameStart → State
  | .waits s => s
  | .ends st s => stopWrite w.jsn st none s
  | .ready iv c l s =>
    match putHeader w b iv c l s with
    | none => if c then s else burnIv 1 s
    | some s => putBlock b w (addReady 48 s)

/-- A frame begins with a block (06 R146). -/
def placeInNewFrame (b : EncBlock) (w : WriteRun) (lane : Nat) (check retry : Bool) (s : State) : State :=
  match newFramePlace w.partition w.jsn (blockItems b w) s with
  | none => if mayOpen s && partitionFull w.partition s then
      stopFull w s
    else noteBlocked s
  | some s =>
    let first := s.fmt.opened.any fun o => o.ds.apOffset.isNone
    match (if first && b.hist then reencode b w s else (b, s)) with
    | (b, s) =>
      let w := (findWrite w.jsn s).getD w
      if !b.checked then s
      else if spanBlocked (48 + blockLen b) s then noteBlocked s
      else writeFrame b w (startFrame w lane check retry s)

/-- One block leaves the reorder stage. -/
def placeBlock (b : EncBlock) (w : WriteRun) (lane : Nat) (check retry : Bool) (s : State) : State :=
  if s.fmt.opened.any fun o => o.ds.partition == w.partition && joinsFrame w.jsn b (blockItems b w) o then
    if spanBlocked (16 + blockLen b) s then noteBlocked s else putBlock b w s
  else placeInNewFrame b w lane check retry s

/-- Filemarks are placed, at most 65,536 at a time. -/
def placeMarks (w : WriteRun) (s : State) : State :=
  match closeFrame s with
  | none => noteBlocked s
  | some s =>
    match ensureOpen w.partition (if entryFits s then s else closeOpen s) with
    | none =>
      if mayOpen s && partitionFull w.partition s then
        stopFull w s
      else noteBlocked s
    | some s => noteDone w.jsn (placeItems w.jsn (List.replicate (min 65536 (w.filemarks - w.placedItems)) markItem) s)

/-- FORMATTER_PLACE_BLOCK (07 R191): what the command in turn has to place next. -/
def execFormatterPlaceBlock (jsn lane : Nat) (check retry : Bool) (s : State) : Out :=
  .next <| match findWrite jsn s with
  | none => s
  | some w =>
    if w.ending.isSome || allPlaced w || !placeTurn jsn s || !s.cart.loaded then s
    else
      afterWrites <|
        if w.filemarks ≠ 0 then placeMarks w s
        else if w.placedBytes = streamTotal w then
          if mayOpen s && partitionFull w.partition s then stopFull w s else closeFull (placeTrailing jsn s)
        else match w.blocks with
          | [] => s
          | b :: _ => if b.checked then placeBlock b w lane check retry s else s

/-- DATASET_IDLE_CLOSE (04 R109): 100 ms since the latest item or byte. -/
def execDatasetIdleClose (at_ : Nat) (s : State) : Out :=
  .next <|
    let s := atTime at_ s
    if s.fmt.opened.any fun o => !o.itemJsns.isEmpty && passedMs o.lastAt s.aon.time 100 then
      afterWrites (closeOpen s)
    else s

end Sys2Proof.Machine
end

