-- ==== Sys2Proof/Machine/Verify.lean ====
section
/-! DEFINITION. Writing runs on tape (07 R178, R196, R198, 13 R347-R349), verify results, copies, whole-dataset
rewrite, lasting failures, suspect tracks, release (09). -/

namespace Sys2Proof.Machine

/-! ### Datasets with a SEQ -/

def findActive (seq : Nat) (s : State) : Option WrittenDataset := s.fmt.active.find? (·.ds.seq == seq)

def setActive (seq : Nat) (f : WrittenDataset → WrittenDataset) (s : State) : State :=
  { s with fmt := { s.fmt with active := s.fmt.active.map fun d => if d.ds.seq = seq then f d else d } }

/-- Every row has passed (09 R239). -/
def isVerified (d : WrittenDataset) : Bool := decide (d.ok = BitVec.allOnes 7680)

def isAlive (d : WrittenDataset) : Bool := d.dead.isNone

/-- Channel bits of a dataset, of a slot, of a tick (07 R180, 01 R5). -/
abbrev datasetBits : Nat := 1179648
abbrev slotBits : Nat := 9216
abbrev tickBits : Nat := 12000

def isExcluded (t : Nat) (s : State) : Bool := s.vfy.excluded.any (·.1 == t)

/-! ### Whole-dataset rewrite and lasting failure (09 R245-R248) -/

/-- The marks of a replaced dataset follow its replacement. -/
def renameMarks (old new : Nat) (s : State) : State :=
  { s with fmt := { s.fmt with writes := s.fmt.writes.map fun w =>
      { w with marks := w.marks.map fun m => if m.1 = old then (new, m.2) else m } } }

/-- A dataset under the head or in its queue is kept until its bits are out; one on tape leaves at once. -/
def layDown (d : WrittenDataset) (reason : Nat) (s : State) : State :=
  let s := { s with vfy := { s.vfy with failedCws := s.vfy.failedCws.filter (·.seq != d.ds.seq) } }
  if d.written then { s with fmt := { s.fmt with active := s.fmt.active.filter (·.ds.seq != d.ds.seq) } }
  else setActive d.ds.seq (fun d => { d with dead := some reason, jsns := [], tally := [], reserved := 0 }) s

/-- The replacement of a dataset (R246): the same body and buffer, the next SEQ. -/
def replaceDataset (d : WrittenDataset) (s : State) : State :=
  let seq := s.fmt.nextSeq
  let s := layDown d 0 (retract d 0 s)
  let s := { s with fmt := { s.fmt with nextSeq := seq + 1, formed := s.fmt.formed ++ [seq] } }
  let ds := { d.ds with seq := seq, rewritten := true, originSeq := d.ds.seq, bootEpoch := s.wh.epoch }
  let w := { newWritten ds d.buf with
    tally := d.tally, jsns := d.jsns, itemJsns := d.itemJsns, subs := d.subs, firstRec := d.firstRec, reserved := d.reserved }
  let s := { s with fmt := { s.fmt with active := s.fmt.active ++ [w] } }
  raise evVfyWholeRewrite d.ds.seq seq (renameMarks d.ds.seq seq s)

/-- A dataset truncated by a lasting failure (R248, R253). -/
def truncateAway (s : State) (d : WrittenDataset) : State :=
  let s := if d.written then retract d 3 s else s
  let s := layDown d 3 (freeBuffer 6 d.buf { s with wh := { s.wh with reserved := s.wh.reserved - d.reserved } })
  { s with fmt := { s.fmt with writes := s.fmt.writes.map fun w => { w with marks := w.marks.filter (·.1 != d.ds.seq) } } }

/-- The first item that a lasting failure puts out of reach (R248 step 2). -/
def truncItem (d : WrittenDataset) : Nat := min d.ds.firstItem (d.firstRec.getD d.ds.firstItem)

/-- Write commands with an item at or behind a number in a partition end with MEDIA_ERROR (R248 step 5). -/
def failFrom (p n : Nat) (s : State) : State :=
  { s with fmt := { s.fmt with writes := s.fmt.writes.map fun w =>
      if w.partition = p ∧ w.ending.isNone ∧ n < (afterLast w).getD 0 ∧ 0 < w.placedItems then
        { w with ending := some (stMediaError, some n), blocks := [] }
      else w } }

/-- The writing run is to take no further data dataset. -/
def endRunSoon (s : State) : State :=
  { s with fmt := { s.fmt with run := s.fmt.run.map fun r => { r with ending := true } } }

/-- A lasting failure of a replacement (R248). A C3 group with a member retracted by it gets no parity (08 R222). -/
def lastingFailure (d : WrittenDataset) (s : State) : State :=
  let p := d.ds.partition
  let n := truncItem d
  let s := raise evVfyWriteFailed (orderKey d.ds) p { s with vfy := { s.vfy with lasting := sat64 s.vfy.lasting 1 } }
  let s := layDown d 1 (freeBuffer 6 d.buf (retract d 1 s))
  let s := { s with wh := { s.wh with reserved := s.wh.reserved - d.reserved } }
  let later := s.fmt.active.filter fun x =>
    x.ds.partition == p && x.ds.kind != 2 && isAlive x && decide (orderKey d.ds < orderKey x.ds)
  let gone := fun (g : C3Group) => g.partition == p && (d :: later).any fun x => x.ds.kind == 0 && x.ds.c3Group == g.number
  let s := failFrom p n (later.foldl truncateAway (dropAssembled p s))
  endRunSoon (cutEnd p n { s with fmt := { s.fmt with
    truncate := s.fmt.truncate.set p (some n), c3Groups := s.fmt.c3Groups.filter (!gone ·) } })

/-- Its retraction has events that would be held back (03 R474). -/
def retractWaits (d : WrittenDataset) (s : State) : Bool := heldBack s && s.mram.written.any (·.seq == d.ds.seq)

/-- A dataset becomes subject to R245. An EOD dataset holds nothing to save and is not replaced (log entry 20). -/
def wholeRewrite (seq : Nat) (s : State) : State :=
  match findActive seq s with
  | none => s
  | some d =>
    if !isAlive d || d.ds.kind == 2 then s
    else if retractWaits d s then setActive seq (fun d => { d with due := true }) s
    else if d.ds.rewritten then lastingFailure d s else replaceDataset d s

/-- Rewrites that have waited for room in the event queue are made (03 R474). -/
def payDue (s : State) : State :=
  (s.fmt.active.filter (·.due)).foldl (fun s d =>
    if retractWaits d s then s else wholeRewrite d.ds.seq (setActive d.ds.seq (fun d => { d with due := false }) s)) s

/-! ### The verify decode (09 R237; 08 R214-R217, R225, R226) -/

/-- What the decode of a slot on verify tells: SYNC found, the codeword right and with its ID band, the margin record, and whether all
checks held under a wrong ID CRC. -/
structure VerifyDecode where
  sync    : Bool
  equal   : Bool
  idOk    : Bool
  record  : MarginRecord
  miscorrect : Bool
  deriving DecidableEq, Repr

/-- The row of a dataset as its codeword is sent to the head link. -/
def sentCodeword (d : Dataset) (subset row : Nat) : List Bool := if row = 0x1FF then fillCodeword d else rowCodeword false d subset row

/-- The wrap under the head. -/
def wrapNow (s : State) : Nat := s.cart.wrap.getD 0

/-- C1 alone, with the verify iteration limit, from the detector's LLRs of what the reader saw (08 R215-R217). -/
def verifyDecode (d : Dataset) (v : VerifyResult) (s : State) : VerifyDecode :=
  match v.reading with
  | .clean => { sync := true, equal := true, idOk := true, record := { valid := true, iter := 1, unsat0 := 0, flips := 0, weak := 0 }
                miscorrect := false }
  | r =>
    let sent := sentCodeword d v.subset v.row
    let c := decodeSlot s.tec.verifyIter (detectorOf v.track (wrapNow s) s) sent r
    { sync := syncFound r, equal := c.word == sent
      idOk := idFields (infoOf c.word) == (d.seq % 2 ^ 32, v.subset, v.row, d.partition)
      record := marginRecord (validC1 c) s.tec.verifyIter c, miscorrect := miscorrected c }

/-- TEC_C1_MISCORRECT: the count, and the event with SEQ, row and sub-dataset (08 Table 8-6). -/
def noteMiscorrect (seq subset row : Nat) (s : State) : State :=
  raise evTecC1Miscorrect seq (row + subset * 2 ^ 9) { s with tec := { s.tec with c1Miscorrect := sat64 s.tec.c1Miscorrect 1 } }

/-- A codeword that is valid on verify gives its noise and rate (R225, R226), and the detector adapts on its bits when they are the
ones sent (R214). -/
def learn (d : Dataset) (v : VerifyResult) (x : VerifyDecode) (s : State) : State :=
  if !x.record.valid then s
  else
    let det := detectorOf v.track (wrapNow s) s
    let sent := sentCodeword d v.subset v.row
    let word := if x.equal then sent else (decodeSlot s.tec.verifyIter det sent v.reading).word
    let s := countNoise v.track det (readSlot det sent v.reading).1 word s
    if s.tec.frozen || !x.equal || v.reading == .clean then s
    else setDetector v.track (wrapNow s) (adapted s.tec.stepLog2 det word v.reading) s

/-- Every decode on verify is counted. -/
def noteDecode (d : Dataset) (v : VerifyResult) (x : VerifyDecode) (s : State) : State :=
  let s := if x.record.valid then s else { s with tec := { s.tec with c1VerifyFail := sat64 s.tec.c1VerifyFail 1 } }
  learn d v x (if x.miscorrect then noteMiscorrect d.seq v.subset v.row s else s)

/-! ### Verify results (09 R237-R239, R245) -/

/-- Does the decoder's record stay within the margins in force? -/
def withinMargin (m : MarginRecord) (s : State) : Bool :=
  decide (m.iter ≤ s.vfy.margin.iterMax) && decide (m.flips ≤ s.vfy.margin.flipsMax) && decide (m.weak ≤ s.vfy.margin.weakMax)

/-- The first four conditions of R237. -/
def readRight (x : VerifyDecode) : Bool := x.sync && x.record.valid && x.equal && x.idOk

def rowBit (m : Nat) : BitVec 7680 := BitVec.ofNat 7680 (2 ^ m)

/-- Counts of a first writing that failed; margin fails are counted apart. -/
def countFail (margin : Bool) (track : Nat) (s : State) : State :=
  { s with vfy := { s.vfy with
    cwFail := if margin then s.vfy.cwFail else sat64 s.vfy.cwFail 1
    cwMargin := if margin then sat64 s.vfy.cwMargin 1 else s.vfy.cwMargin
    trackErrs := tabUpd 0 track (satAdd (2 ^ 32 - 1) 1) s.vfy.trackErrs } }

/-- A first writing has failed. -/
def failFirst (seq m track : Nat) (margin : Bool) (s : State) : State :=
  let ex := isExcluded track s
  let f : FailedCw := { seq := seq, subset := m % 16, row := m / 16, track := track, copies := [], flight := none }
  let s := countFail margin track { s with vfy := { s.vfy with failedCws := s.vfy.failedCws ++ [f] } }
  let s := setActive seq (fun d => { d with
    seen := d.seen ||| rowBit m, failures := if ex then d.failures else d.failures + 1
    trackFails := if ex then d.trackFails else tabUpd 0 track (· + 1) d.trackFails }) s
  if (findActive seq s).any fun d => decide (s.vfy.margin.wholeMin ≤ d.failures) then wholeRewrite seq s else s

/-- A first writing's result (R237, R238). -/
def firstResultOf (v : VerifyResult) (d : WrittenDataset) (s : State) : State :=
  let m := 16 * v.row + v.subset
  if d.seen.getLsbD m then s
  else
    let s := { s with vfy := { s.vfy with cwFirst := sat64 s.vfy.cwFirst 1 } }
    if isExcluded v.track s then failFirst v.seq m v.track false s
    else
      let x := verifyDecode d.ds v s
      let s := noteDecode d.ds v x s
      let s := if x.sync then s else setActive v.seq (fun d => { d with noSync := tabUpd 0 v.track (· + 1) d.noSync }) s
      if readRight x && withinMargin x.record s then
        setActive v.seq (fun d => { d with seen := d.seen ||| rowBit m, ok := d.ok ||| rowBit m }) (countPass v.track s)
      else failFirst v.seq m v.track (readRight x) s

/-- The last dataset that may carry copies of another is the carrier named. -/
def isLastCarrier (d : WrittenDataset) (c : Nat) : Bool := d.carriers.length == 4 && d.carriers.getLast? == some c

/-- A copy has failed (R245, third moment). -/
def failCopy (f : FailedCw) (c : Nat) (s : State) : State :=
  let s := { s with vfy := { s.vfy with
    copyFail := sat64 s.vfy.copyFail 1
    failedCws := s.vfy.failedCws.map fun x => if x = f then { x with flight := none } else x } }
  if (findActive f.seq s).any fun d => isLastCarrier d c then wholeRewrite f.seq s else s

/-- A copy's result. -/
def copyResult (v : VerifyResult) (d : WrittenDataset) (c : Nat) (s : State) : State :=
  match s.vfy.failedCws.find? fun f => f.seq == v.seq && f.subset == v.subset && f.row == v.row && f.flight == some c with
  | none => s
  | some f =>
    let x := verifyDecode d.ds v s
    let s := noteDecode d.ds v x s
    if readRight x && withinMargin x.record s && !isExcluded v.track s then
      setActive v.seq (fun d => { d with ok := d.ok ||| rowBit (16 * v.row + v.subset) })
        { s with vfy := { s.vfy with failedCws := s.vfy.failedCws.erase f } }
    else failCopy f c s

/-- The copies in the rewrite slots of a dataset: of the one under the head, or of one on tape. -/
def copiesIn (seq : Nat) (s : State) : List SlotCopy :=
  match s.fmt.run.filter (·.seq == seq) with
  | some r => r.copies
  | none => ((s.cart.inDrive.bind fun c => c.chain.find? (·.seq == seq)).map (·.copies)).getD []

/-- Channel bits from a dataset's first one to the write head, while it is under the head or the last one before; none: it is not of
the run in progress. -/
def bitsSince (seq : Nat) (s : State) : Option Nat :=
  s.fmt.run.bind fun r =>
    if r.runIn then none
    else if r.seq = seq then some r.bits
    else if r.prev = some seq then some (r.bits + datasetBits) else none

/-- The slot that a result speaks of: that of the row, or of its copy in a carrier. -/
def slotRead (v : VerifyResult) (s : State) : Nat :=
  match v.carrier with
  | none => if v.row = 0x1FF then 127 else ((geometry false).slotOf v.row v.subset).1
  | some c => ((copiesIn c s).find? fun x => x.seq == v.seq && x.subset == v.subset && x.row == v.row).elim 127 (·.slot)

/-- A result is known once the slot's last bit has passed the verify reader, 15 ticks behind the writers, and within 2 ticks; the
decisions of a tick take those of the tick before (01 R16, R19). Of a dataset of a run that has ended it may come when it comes. -/
def timely (v : VerifyResult) (s : State) : Bool :=
  match bitsSince (v.carrier.getD v.seq) s with
  | none => !s.fmt.formed.contains (v.carrier.getD v.seq)
  | some n =>
    let e := (slotRead v s + 1) * slotBits
    decide (e + 15 * tickBits ≤ n) && decide (n < e + 18 * tickBits)

def applyResult (s : State) (v : VerifyResult) : State :=
  match findActive v.seq s with
  | none => s
  | some d =>
    if !isAlive d || 64 ≤ v.track || 16 ≤ v.subset || !timely v s then s
    else if v.row = 0x1FF then noteDecode d.ds v (verifyDecode d.ds v s) s
    else if 480 ≤ v.row then s
    else
      match v.carrier with
      | none => firstResultOf v d s
      | some c => copyResult v d c s

/-- The rows of a slot: their m, with the track of each. -/
def slotRows (p : Nat) : List (Nat × Nat) :=
  (List.range 64).map fun t => (16 * (rowAt p t).1 + (rowAt p t).2, t)

/-- First writings of a dataset without a result fail, those of the slots that a test names. -/
def failSlots (seq : Nat) (p : Nat → Bool) (s : State) : State :=
  (((List.range 120).filter p).flatMap slotRows).foldl (fun s mt => match findActive seq s with
    | none => s
    | some d =>
      if !isAlive d || d.seen.getLsbD mt.1 then s
      else failFirst seq mt.1 mt.2 false { s with vfy := { s.vfy with cwFirst := sat64 s.vfy.cwFirst 1 } }) s

/-- Copies in flight in rewrite slots of a dataset fail, those of the slots that a test names. -/
def failCopies (seq : Nat) (p : Nat → Bool) (s : State) : State :=
  ((copiesIn seq s).filter fun x => p x.slot).foldl (fun s x =>
    match s.vfy.failedCws.find? fun f => f.seq == x.seq && f.subset == x.subset && f.row == x.row && f.flight == some seq with
    | some f => failCopy f seq s
    | none => s) s

/-- Codewords with a channel bit in a window of a dataset fail verify (R238, 01 R15, R18): first writings and copies in the slots
that the window overlaps. -/
def failWindow (seq lo hi : Nat) (s : State) : State :=
  let hit := fun (p : Nat) => decide (p * slotBits < hi) && decide (lo < (p + 1) * slotBits)
  failCopies seq hit (failSlots seq hit s)

/-- A window of channel bits behind the head, in the dataset under it and the one before. -/
def failBehind (back len : Nat) (s : State) : State :=
  match s.fmt.run with
  | none => s
  | some r =>
    let prev := fun (s : State) => match r.prev with
      | some q => if r.bits < back then failWindow q (r.bits + datasetBits - back) (min datasetBits (r.bits + datasetBits - back + len)) s
        else s
      | none => s
    let own := fun (s : State) => if back < r.bits + len then failWindow r.seq (r.bits - back) (r.bits + len - back) s else s
    own (prev s)

/-- A result that has not come within 2 ticks of the reader (01 R19) is none: the codeword has not passed (R237). -/
def lateResults (s : State) : State :=
  match s.fmt.run with
  | none => s
  | some r =>
    let late := fun (n : Nat) (p : Nat) =>
      decide ((p + 1) * slotBits + 17 * tickBits ≤ n) && decide (n < (p + 1) * slotBits + 19 * tickBits)
    let s := match r.prev with
      | some q => if r.bits < 20 * tickBits then
          failCopies q (late (r.bits + datasetBits)) (failSlots q (late (r.bits + datasetBits)) s) else s
      | none => s
    if r.runIn then s else failCopies r.seq (late r.bits) (failSlots r.seq (late r.bits) s)

/-! ### Suspect tracks (09 R256-R258) -/

/-- CAUSE that one dataset shows for a track (R257). -/
def causeIn (d : WrittenDataset) (t : Nat) (s : State) : Nat :=
  if d.drvFault.getLsbD t then 1
  else if s.tec.degradedChannels.contains t || s.vfy.margin.suspectMin ≤ tabGet 0 d.noSync t then 2 else 3

/-- A fourth track is lasting: writing is disabled (R258). -/
def disableWrites (s : State) : State :=
  stopAllWrites stUnitDegraded (endRunSoon (raiseN evVfyWriteDisabled { s with vfy := { s.vfy with disabled := true } }))

/-- A track is excluded from the next dataset on, for a cause. -/
def excludeTrack (t c : Nat) (s : State) : State :=
  if 3 ≤ s.vfy.excluded.length then disableWrites s
  else
    let s := raise evVfyTrackExcluded t c { s with vfy := { s.vfy with excluded := s.vfy.excluded ++ [(t, c)] } }
    if c = 1 then setUnit unWriteCh 2 1 s
    else if c = 2 then setUnit unReadCh 2 2 { s with tec := { s.tec with degradedChannels := insertNat t s.tec.degradedChannels } }
    else s

/-- Write commands with an item in a dataset report OK_RETRIED. -/
def retryItems (seq : Nat) (s : State) : State :=
  match findActive seq s with
  | some d => d.itemJsns.foldl (fun s j => markRetried j s) s
  | none => s

/-- A dataset whose first writings all have results is judged track by track; what either of the two datasets shows is the cause. -/
def judgeTrack (d : WrittenDataset) (s : State) (t : Nat) : State :=
  let bad := decide (s.vfy.margin.suspectMin ≤ tabGet 0 d.trackFails t) && !isExcluded t s
  match s.vfy.suspects.find? (·.1 == t) with
  | some (_, q, c) =>
    let s := retryItems q { s with vfy := { s.vfy with suspects := s.vfy.suspects.filter (·.1 != t) } }
    if bad then excludeTrack t (min c (causeIn d t s)) (retryItems d.ds.seq s)
    else { s with sys := { s.sys with trackRetries := tabUpd 0 t (satAdd 255 1) s.sys.trackRetries } }
  | none =>
    if bad then
      raiseP evVfyTrackSuspect t { s with vfy := { s.vfy with suspects := s.vfy.suspects ++ [(t, d.ds.seq, causeIn d t s)] } }
    else s

/-- Datasets whose first writings have all come in since the results before. -/
def judgeDatasets (before : List Nat) (s : State) : State :=
  let now := s.fmt.active.filter fun d => isAlive d && decide (d.seen = BitVec.allOnes 7680) && before.contains d.ds.seq
  now.foldl (fun s d => (List.range 64).foldl (judgeTrack d) s) s

/-- The verify results of a tick. -/
def takeResults (l : List VerifyResult) (s : State) : State :=
  let before := (s.fmt.active.filter fun d => decide (d.seen ≠ BitVec.allOnes 7680)).map (·.ds.seq)
  judgeDatasets before (lateResults (l.foldl applyResult (payDue s)))

/-! ### Copies (09 R240-R244) -/

/-- How many datasets after this one may still carry copies of a dataset. -/
def carriesLeft (d : WrittenDataset) (seq : Nat) : Nat := 3 - (indexOf? (· == seq) d.carriers).getD 3

/-- Candidates of R242 with their sort key. -/
def candidates (seq : Nat) (s : State) : List (Nat × FailedCw) :=
  let l := s.vfy.failedCws.filterMap fun f => match findActive f.seq s with
    | some d => if isAlive d && !d.due && f.flight.isNone && d.carriers.contains seq && decide (f.copies.length < 4)
        then some (((carriesLeft d seq * 2 ^ 48 + f.seq) * 16 + f.subset) * 512 + f.row, f) else none
    | none => none
  sortBy (fun a b => a.1 ≤ b.1) l

/-- The track of a copy (R243), given the free slots of each. -/
def copyTrack (f : FailedCw) (free : List Nat) (s : State) : Option Nat :=
  let pref := (f.track + 21 * (f.copies.length + 1)) % 64
  ((List.range 64).map fun j => (pref + j) % 64).find? fun t =>
    t != f.track && !f.copies.contains t && !isExcluded t s && decide (0 < free.getD t 0)

/-- One candidate is placed, or waits, or is out of time (R242); its slot is the track's next from 120 on (R243). -/
def placeCopy (seq : Nat) (p : List Nat × State) (f : FailedCw) : List Nat × State :=
  let (free, s) := p
  if !s.vfy.failedCws.contains f then (free, s)
  else
    match copyTrack f free s with
    | some t =>
      let c : SlotCopy := { track := t, slot := 128 - free.getD t 0, seq := f.seq, subset := f.subset, row := f.row }
      (free.modify t (· - 1), { s with
        vfy := { s.vfy with
          copies := sat64 s.vfy.copies 1
          failedCws := s.vfy.failedCws.map fun x => if x = f then { x with copies := x.copies ++ [t], flight := some seq } else x }
        fmt := { s.fmt with run := s.fmt.run.map fun r => { r with copies := r.copies ++ [c] } } })
    | none =>
      if (findActive f.seq s).any fun d => isLastCarrier d seq then (free, wholeRewrite f.seq s) else (free, s)

/-- The rewrite slots of a dataset are fixed (R241); those left empty hold fill codewords (R244). With core 0's task interrupted all
of them do (17 R441). -/
def fixCopies (seq : Nat) (s : State) : State :=
  if s.sys.faulted.getLsbD 0 then s
  else ((candidates seq s).foldl (fun p c => placeCopy seq p c.2) (List.replicate 64 8, s)).2

/-! ### Dataset starts and ends (09 R252, 13 R347) -/

/-- PARAM1 of the dataset events (Table 9-2). -/
def datasetParam (d : Dataset) : Nat := d.seq + d.partition * 2 ^ 48 + boolNat d.rewritten * 2 ^ 50

/-- DATASET_WRITTEN of a subscription, its MRAM record first (R254). -/
def writtenEvent (d : Dataset) (s : State) (jsn : Nat) : State :=
  let r : WrittenRecord := { jsn := jsn, seq := d.seq, partition := d.partition, replacement := d.rewritten, raised := true }
  raise evDatasetWritten jsn (datasetParam d) { s with mram := { s.mram with written := s.mram.written ++ [r] } }

/-- The last bit of a dataset's slot 127 has gone out. -/
def datasetWritten (seq : Nat) (s : State) : State :=
  match findActive seq s with
  | none => s
  | some d =>
    let s := countSlots (putInRun d.ds s)
    let s := { s with
      spm := { s.spm with readyBytes := s.spm.readyBytes - d.ds.userBytes }
      vfy := { s.vfy with whole := if d.ds.rewritten then sat64 s.vfy.whole 1 else s.vfy.whole }
      fmt := { s.fmt with
        datasets := sat64 s.fmt.datasets 1
        eodDatasets := if d.ds.kind = 2 then sat64 s.fmt.eodDatasets 1 else s.fmt.eodDatasets
        dirSpills := if d.ds.dirSpill then sat64 s.fmt.dirSpills 1 else s.fmt.dirSpills
        fillSlots := sat64 s.fmt.fillSlots (512 - (copiesIn seq s).length) } }
    let tell := fun (s : State) => d.subs.foldl (writtenEvent d.ds) s
    match d.dead with
    | none => tell (setActive seq (fun d => { d with written := true, drvFault := s.vfy.wdrvFault }) s)
    | some r =>
      let s := retract d r (tell s)
      { s with fmt := { s.fmt with active := s.fmt.active.filter (·.ds.seq != seq) } }

/-- The decision of R347 at a dataset start. -/
def decideAt (writing c3 : Bool) (s : State) : State :=
  let now := s.aon.time
  let t0 := if writing && s.spm.rIn.isNone then s.fmt.firstReady.getD now else s.spm.lastDecision
  let s := if writing then
      { s with spm := { s.spm with rIn := some (average s.spm.rIn (rateSince s.spm.inSince t0 now)), inSince := 0 } }
    else if s.spm.outSince = 0 ∧ s.spm.rOut.isNone then s
    else { s with spm := { s.spm with rOut := some (average s.spm.rOut (rateSince s.spm.outSince s.spm.lastDecision now)), outSince := 0 } }
  let s := { s with spm := { s.spm with lastDecision := now } }
  chooseStep (decideStep writing c3 s.sys.step (fillOf s) s.tec.buffers.length s) s

/-- FMT_EARLY_WARNING once per run (R198). -/
def earlyWarning (r : TapeRun) (s : State) : TapeRun × State :=
  match s.cart.inDrive with
  | some c =>
    if !r.warned && decide (positionsLeft r.partition c s < 1024) then ({ r with warned := true }, raiseP evFmtEarlyWarning r.partition s)
    else (r, s)
  | none => (r, s)

/-- An EOD dataset may be the last of its run; one that truncates is followed by EOD datasets under R196 (09 R248, R255; log
entry 20). -/
def closesRun (d : WrittenDataset) : Bool := d.ds.kind == 2 && !d.ds.truncate

/-- A dataset's first bit goes out: it may carry copies of those before it (R240), and the step is decided. -/
def startDataset (seq : Nat) (r : TapeRun) (bits : Nat) (s : State) : State :=
  let d := (findActive seq s)
  let s := { s with vfy := { s.vfy with wdrvFault := 0 }, fmt := { s.fmt with
    formed := s.fmt.formed.filter (· != seq)
    active := s.fmt.active.map fun x =>
      if x.ds.partition = r.partition ∧ x.ds.seq ≠ seq ∧ x.carriers.length < 4 ∧ ¬ (s.fmt.formed.contains x.ds.seq) then
        { x with carriers := x.carriers ++ [seq] }
      else x } }
  let prev := if r.runIn then none else some r.seq
  match earlyWarning { r with
      runIn := false, seq := seq, prev := prev, bits := bits, startSfn := s.mon.sfn, fixed := false, copies := []
      closing := d.any closesRun, further := false } s with
  | (r, s) =>
    let s := { s with fmt := { s.fmt with run := some r } }
    formAll (decideAt true (c3Of r.partition s) s)

/-! ### The end of a run (07 R196) -/

/-- A codeword that an excluded track took in an EOD dataset: its failure is certain and does not hold the run open, which
could otherwise never end (R196, 09 R238; log entry 20). -/
def excludedInEod (f : FailedCw) (s : State) : Bool :=
  isExcluded f.track s && (findActive f.seq s).any (·.ds.kind == 2)

/-- A data dataset that has its SEQ and is not under way: made ready after the EOD dataset last formed, it belongs to a later
run unless that one is not the last (R196). -/
def standsReady (d : WrittenDataset) (s : State) : Bool :=
  s.fmt.formed.contains d.ds.seq && d.ds.kind == 0 && !d.ds.rewritten

/-- A further EOD dataset is needed: something of the run is not settled (R196). -/
def needsEod (p seq : Nat) (s : State) : Bool :=
  (s.fmt.active.any fun d => d.ds.partition == p && d.ds.kind != 2 && isAlive d && (!isVerified d || d.due) && !standsReady d s)
    || (s.vfy.failedCws.any fun f => f.seq < seq && !excludedInEod f s && (findActive f.seq s).any fun d => isAlive d && d.ds.partition == p)

/-- The run is over: its EOD datasets count as released; the status page is due (R196, R202). -/
def finishRun (p : Nat) (s : State) : State :=
  let eods := s.fmt.active.filter fun d => d.ds.kind == 2 && d.ds.partition == p
  let s := eods.foldl (fun s d => dropDataset d s) s
  let s := writeGate false { s with
    fmt := { s.fmt with run := none, firstReady := if s.spm.readyBytes = 0 then none else some s.aon.time }
    cart := { s.cart with statusDue := true }
    sys := { s.sys with step := 0x1F }
    spm := { s.spm with mode := 0, chosen := 0x1F, runWait := decide (s.spm.readyBytes ≠ 0) } }
  afterWrites s

/-- An EOD dataset is formed at its own start (R196); a truncation that no data dataset carries stands in it (R475, 09
R248). -/
def startEod (r : TapeRun) (bits : Nat) (s : State) : Option State :=
  let p := r.partition
  let t := s.fmt.truncate.getD p none
  let own := s.fmt.truncRun.getD p false
  let first := t.getD (formedEnd p s)
  match formBare (bareDataset 2 p first (t.isSome && !own) s) s with
  | none => none
  | some s =>
    let s := if t.isSome && !own then { s with fmt := { s.fmt with truncate := s.fmt.truncate.set p none } } else s
    some (startDataset (s.fmt.nextSeq - 1) r bits s)

/-- A run that finds no ready dataset begins to end (13 R349): the C3 group closes, EOD datasets follow. -/
def beginClose (r : TapeRun) (bits : Nat) (s : State) : State :=
  let s := if r.ending || r.counted then s
    else raiseN evSpmRunStop { s with spm := { s.spm with runStops := sat64 s.spm.runStops 1 } }
  let s := if r.closing then s else closeGroup r.partition s
  match startEod { r with counted := true } bits s with
  | some s => s
  | none => finishRun r.partition s

/-- The end of a writing run closes the open dataset of its partition (R192), which may then still join the run (R196). One
that begins a run of its own (R197) stays open. -/
def closeAtEnd (r : TapeRun) (s : State) : State :=
  match s.fmt.opened with
  | none => s
  | some o =>
    if !s.fmt.formed.isEmpty || o.ds.partition != r.partition || (o.ds.truncate && s.fmt.truncRun.getD r.partition false) then s
    else if r.ending then closeOpen s
    else formAll (closeOpen s)

/-- The run-out begins: 12,000 channel bits of the pattern that no dataset holds (R178). -/
def beginRunOut (r : TapeRun) (s : State) : State :=
  { s with fmt := { s.fmt with run := some { r with runOut := true, fixed := true, prev := some r.seq, seq := 0 } } }

/-- What a run writes after a dataset: a formed one, an EOD dataset, or its run-out. -/
def nextInRun (r : TapeRun) (bits : Nat) (s : State) : State :=
  let s := formAll s
  let atEnd := recordableEnd s || (s.cart.inDrive).any fun c => wrapEnds r.partition c
  let r := if atEnd then { r with ending := true } else r
  if r.closing && !r.further then beginRunOut { r with bits := bits } s
  else
    let s := closeAtEnd r s
    match s.fmt.formed with
    | seq :: _ => startDataset seq r bits s
    | [] => beginClose r bits s

/-! ### A run's tick -/

/-- Write current is off in the tick: a short tick before it, or write inhibit (01 R15, 09 R238). -/
def currentOff (s : State) : Bool := s.sys.shortTick || s.mon.inhibit

/-- The edge of R241, when this tick begins it. `task`: core 0's tick task runs; without it the rewrite slots take fill codewords
(17 R441). -/
def fixEdge (task : Bool) (s : State) : State :=
  match s.fmt.run with
  | none => s
  | some r =>
    if r.runIn || r.fixed || r.bits < 84 * tickBits then s
    else
      let s := if task then fixCopies r.seq s else s
      let more := r.closing && needsEod r.partition r.seq s
      { s with fmt := { s.fmt with run := s.fmt.run.map fun r => { r with fixed := true, further := more } } }

/-- The tick's channel bits go out without write current: their codewords fail, up to the end of the dataset and in the next one
(R238, 01 R15, R18). -/
def failTick (off : Bool) (s : State) : State := if off then failBehind 0 tickBits s else s

/-- The run goes on by one tick of channel bits (R178, 01 R5). `writeLate`, `verifyLate`: the write datapath or the verify
datapath overran in the tick (01 R18, 09 R238). -/
def runTick (writeLate verifyLate task : Bool) (s : State) : State :=
  match s.fmt.run with
  | none => s
  | some r =>
    let off := writeLate || currentOff s
    if r.runIn then nextInRun r 0 s
    else
      let s := if verifyLate then failBehind (15 * tickBits) tickBits s else s
      let n := r.bits + tickBits
      if r.runOut then finishRun r.partition s
      else
        let s := failTick off s
        if n < datasetBits then
          fixEdge task { s with fmt := { s.fmt with run := s.fmt.run.map fun r => { r with bits := n } } }
        else
          let r := s.fmt.run.getD r
          let s := nextInRun r (n - datasetBits) (datasetWritten r.seq s)
          match s.fmt.run with
          | some x => if off && x.seq != r.seq then failWindow x.seq 0 x.bits s else s
          | none => s

/-- The run ends at the inhibit, without run-out: what was still to go out has failed (13 R344), and the C3 group closes (08
R221). -/
def interruptRun (s : State) : State :=
  match s.fmt.run with
  | none => s
  | some r =>
    let s := if r.runIn || r.runOut then s else failWindow r.seq r.bits datasetBits s
    let s := s.fmt.writes.foldl (fun s w => markRetried w.jsn s) s
    let s := match findActive r.seq s with
      | none => s
      | some d =>
        if r.runIn || r.runOut then s
        else if !isAlive d then { s with fmt := { s.fmt with active := s.fmt.active.filter (·.ds.seq != r.seq) } }
        else setActive r.seq (fun d => { d with written := true, drvFault := s.vfy.wdrvFault }) (putInRun d.ds s)
    finishRun r.partition (closeGroup r.partition s)

/-! ### WRITING_RUN_START (13 R349, R476) -/

/-- Something of an interrupted run waits to be written or settled (13 R344). -/
def resumes (s : State) : Bool :=
  s.fmt.active.any fun d => isAlive d && d.ds.kind != 2 && (d.written || d.ds.rewritten)

/-- A truncation waits in a partition that no data dataset is going to carry. -/
def bareTruncation (s : State) : Option Nat :=
  (List.range 4).find? fun p => truncPending p s && s.fmt.opened.isNone && s.fmt.closed.isEmpty

/-- The partition of the run that may begin now. -/
def runPartition (s : State) : Option Nat :=
  match s.fmt.formed with
  | seq :: _ => (findActive seq s).map (·.ds.partition)
  | [] =>
    match bareTruncation s with
    | some p => some p
    | none => (s.fmt.active.find? fun d => isAlive d && d.ds.kind != 2 && !isVerified d).map (·.ds.partition)

/-- A truncating dataset of a run of its own stands first (07 R197, 09 R255). -/
def ownRun (p : Nat) (s : State) : Bool :=
  s.fmt.truncRun.getD p false && (match s.fmt.formed with
    | seq :: _ => (findActive seq s).any fun d => d.ds.truncate
    | [] => false)

/-- R349: F_RESTART, a command that waits on ready bytes, or 100 ms since the first ready byte; the runs of R197's
truncations, R255 and R344 wait for none of them. -/
def mayStartRun (s : State) : Bool :=
  decide (s.spm.cfg.fRestart ≤ fillOf s) || flushWaits s || resumes s || (bareTruncation s).isSome
    || (match s.fmt.firstReady with
      | some t => passedMs t s.aon.time 100
      | none => !s.fmt.formed.isEmpty)

def beginWritingRun (p : Nat) (s : State) : State :=
  let own := ownRun p s
  let first := (s.fmt.formed.head?.bind fun q => findActive q s).elim 0 (·.ds.firstItem)
  let s := beforeRun p s
  let s := if own then cutChain p first s else s
  let s := match s.cart.inDrive with
    | some c => atWrap (runWrap p c) s
    | none => s
  let r : TapeRun :=
    { partition := p, runIn := true, seq := 0, bits := 0, prev := none, startSfn := 0, fixed := false, copies := []
      closing := false, further := false, ending := false, runOut := false, warned := false, counted := false }
  let s := { s with
    fmt := { s.fmt with run := some r, truncRun := if own then s.fmt.truncRun.set p false else s.fmt.truncRun }
    spm := { s.spm with mode := 1, runWait := false, chosen := 0x1F } }
  writeGate true (dropHeld { s with mon := { s.mon with inhSrc := s.mon.inhSrc &&& 0x17 } })

/-- The lock fails twice at a run's start, or the servo is lost twice at one place (13 R346, 07 R476): writes that still
place items end with MEDIA_ERROR. -/
def lastingServoLoss (s : State) : State :=
  let s := raiseP evDrvServoLost s.mon.sfn s
  let js := (s.fmt.writes.filter fun w => w.ending.isNone && !allPlaced w).map fun w => (w.jsn, w.partition)
  let s := js.foldl (fun s j =>
    let s := stopWrite j.1 stMediaError none s
    setWrite j.1 (fun w => { w with ending := some (stMediaError, some (s.fmt.placeEnd.getD j.2 0)) }) s) s
  afterWrites s

/-- The tape reaches a run's place: with the servo locked and the tape at the run's step the run begins; else nothing is written, and
the tape is repositioned for the one further approach, whose failure is lasting (R476). -/
def approach (p : Nat) (atStep : Bool) (s : State) : State :=
  let s' := { s with fmt := { s.fmt with approached := false } }
  if s.mon.lock && atStep then
    beginWritingRun p (if s.fmt.approached then s.fmt.writes.foldl (fun s w => markRetried w.jsn s) s' else s')
  else if s.fmt.approached then lastingServoLoss s'
  else { s with fmt := { s.fmt with approached := true } }

/-- WRITING_RUN_START (13 R349). `atStep`: the tape is at the run's speed step as it reaches the place. -/
def execWritingRunStart (at_ : Nat) (atStep : Bool) (s : State) : Out :=
  .next <|
    let s := formAll (atTime at_ s)
    if s.fmt.run.isSome || (loadedCart s).isNone || tapeHeld s || tapeDown s || !s.wh.epochValid || !firmwareRuns s
        || !mayStartRun s then s
    else
      match runPartition s with
      | none => s
      | some p => approach p atStep s

/-! ### Status page (07 R202) -/

/-- CM_STATUS_WRITE (07 R202). -/
def execCmStatusWrite (s : State) : Out :=
  .next <| if s.cart.statusDue && (loadedCart s).isSome && s.fmt.run.isNone then writeStatus s.cart.dirty s else s

/-! ### Release (09 R249-R252) -/

/-- The dataset of a partition that is to be released next: the first in its dataset order. -/
def releaseNext (p : Nat) (s : State) : Option WrittenDataset :=
  (s.fmt.active.filter fun d => d.ds.partition == p && isAlive d).foldl (fun best d => match best with
    | none => some d
    | some b => if orderKey d.ds < orderKey b.ds then some d else some b) none

def releasable (s : State) : Option WrittenDataset :=
  (List.range 4).findSome? fun p => (releaseNext p s).filter fun d => d.written && isVerified d && !d.due

/-- Tally frames of a dataset (16 Table 16-3): six entries each. -/
def tallyFrames (d : WrittenDataset) (epoch : Nat) : Nat → Nat → List (Nat × Nat) → List TallyFrame
  | 0, _, _ => []
  | n + 1, tsn, l =>
    { tsn := tsn, seq := d.ds.seq, partition := d.ds.partition, last := decide (n = 0), epoch := epoch
      entries := l.take 6, bad := false } :: tallyFrames d epoch n (tsn + 1) (l.drop 6)

/-- Frames of the queue go onto the link in TSN order, those with a TSN above one number. A frame whose copy fails its CRC
goes out with LOST, without entries (16 R411). -/
def sendFrames (after : Nat) (s : State) : State :=
  let fs := s.mram.tallies.filter fun f => after < f.tsn
  let out := fs.map fun f => if f.bad then { f with entries := [] } else f
  { s with wh := { s.wh with
    link := s.wh.link ++ out, sentTsn := max s.wh.sentTsn (fs.foldl (fun m f => max m f.tsn) 0)
    sent := sat64 s.wh.sent fs.length, lostFrames := sat64 s.wh.lostFrames (fs.filter (·.bad)).length } }

/-- While the Weighhouse is available, queued frames not sent yet are sent. -/
def pumpTally (s : State) : State := if s.wh.avail = 1 then sendFrames s.wh.sentTsn s else s

/-- The tally goes to the queue and onto the link (16 R409, R411). -/
def sendTally (d : WrittenDataset) (s : State) : State :=
  let n := framesNeeded d.tally
  let fs := tallyFrames d d.ds.bootEpoch n s.mram.nextTsn d.tally
  let rise := if s.mram.tallies.isEmpty then s.aon.time else s.wh.lastRise
  noteBlocked <| pumpTally { s with
    mram := { s.mram with tallies := s.mram.tallies ++ fs, nextTsn := s.mram.nextTsn + n }
    wh := { s.wh with reserved := s.wh.reserved - d.reserved, lastRise := rise } }

/-- C3 takes a member in (08 R222). -/
def c3Take (d : WrittenDataset) (s : State) : State :=
  if !d.ds.c3On || d.ds.kind != 0 then s
  else
    { s with fmt := { s.fmt with c3Groups := s.fmt.c3Groups.map fun g =>
      if g.partition = d.ds.partition ∧ g.number = d.ds.c3Group then 
        { g with verified := g.verified + 1, taken := g.taken ++ [(d.ds.c3Index, userList d.ds, directoryBytes d.ds)] }
      else g } }

/-- DATASET_VERIFIED of the subscriptions told of the dataset. -/
def verifiedEvents (d : WrittenDataset) (s : State) : State :=
  (s.mram.written.filter (·.seq == d.ds.seq)).foldl (fun s w =>
    raise evDatasetVerified w.jsn (datasetParam d.ds)
      { s with mram := { s.mram with written := s.mram.written.filter fun x => !(x.jsn == w.jsn && x.seq == w.seq) } }) s

/-- Commands count what the dataset completes (R250). -/
def countDurable (seq : Nat) (s : State) : State :=
  let f := fun (w : WriteRun) => match w.marks.find? (·.1 == seq) with
    | some m => { w with durable := max w.durable m.2, marks := w.marks.filter (·.1 != seq) }
    | none => w
  { s with fmt := { s.fmt with writes := s.fmt.writes.map f } }

/-- Leading durable items of a write command once a dataset is released (R250). -/
def durableWith (seq : Nat) (w : WriteRun) : Nat := ((w.marks.find? (·.1 == seq)).map (·.2)).elim w.durable (max w.durable)

/-- The number behind the last durable item of a partition once a dataset is released: FIRST_ITEM + ITEMS, short of a record that
runs on into a dataset not released (R250, R255, 01 R29; log entry 30). -/
def durableTo (d : WrittenDataset) (s : State) : Nat :=
  (s.fmt.writes.filter (·.partition == d.ds.partition)).foldl (fun n w => match w.firstItem with
    | some f =>
      let k := durableWith d.ds.seq w
      if w.ending.isNone then (if k < itemTotal w then min n (f + k) else n)
      else if k < w.placedItems then min n (f + k)
      else if d.jsns.contains w.jsn then min n (f + w.placedItems) else n
    | none => n) (d.ds.firstItem + itemCount d.ds)

/-- The release record (R249 step 1): the partition's last. -/
def recordRelease (d : WrittenDataset) (s : State) : State :=
  let ser := (s.cart.inDrive).elim [] cartSerial
  let r : ReleaseRecord :=
    { serial := ser, partition := d.ds.partition, seq := d.ds.seq, endItem := d.ds.firstItem + itemCount d.ds, whole := durableTo d s }
  { s with mram := { s.mram with
    releases := s.mram.releases.filter (fun x => !(x.serial == ser && x.partition == d.ds.partition)) ++ [r]
    releasing := s.mram.releasing ++ [d.ds.seq] } }

/-- A dataset is released (R249), in the order of that rule. -/
def releaseDataset (d : WrittenDataset) (s : State) : State :=
  let p := d.ds.partition
  let n := durableTo d s
  let s := if d.ds.kind = 0 then
      let s := sendTally d (recordRelease d s)
      { s with fmt := { s.fmt with durableEnd := s.fmt.durableEnd.set p n } }
    else { s with mram := { s.mram with releasing := s.mram.releasing ++ [d.ds.seq] } }
  let s := verifiedEvents d (c3Take d s)
  let s := if d.ds.rewritten then d.itemJsns.foldl (fun s j => markRetried j s) s else s
  let s := countDurable d.ds.seq { s with
    fmt := { s.fmt with
      active := s.fmt.active.filter (·.ds.seq != d.ds.seq), leaving := s.fmt.leaving ++ [(d.ds.seq, d.buf)]
      releasedCount := sat64 s.fmt.releasedCount 1 }
    vfy := { s.vfy with failedCws := s.vfy.failedCws.filter (·.seq != d.ds.seq) } }
  afterWrites s

/-- DATASET_RELEASE (09 R249); while the event queue is full there is none (03 R474). -/
def execDatasetRelease (s : State) : Out :=
  .next <| if heldBack s then s else match releasable s with
  | none => s
  | some d => releaseDataset d s

/-- RELEASE_RECORD_DURABLE (09 R249): the dataset's buffer returns to the Porter. -/
def execReleaseRecordDurable (seq : Nat) (s : State) : Out :=
  .next <| match s.fmt.leaving.find? (·.1 == seq) with
  | none => s
  | some (_, h) =>
    freeBuffer 6 h { s with
      fmt := { s.fmt with leaving := s.fmt.leaving.filter (·.1 != seq) }
      mram := { s.mram with releasing := s.mram.releasing.filter (· != seq) } }

end Sys2Proof.Machine
end

