-- ==== Sys2Proof/Machine/Motion.lean ====
section
/-! DEFINITION. Cartridge and positioning commands: LOAD, UNLOAD, REWIND, LOCATE, SPACE (04 R111-R115),
FORMAT_PARTITIONS (07 R199, R200), FMT_DATASET_INFO and FMT_CM_ACCESS (07 R205, R206). -/

namespace Sys2Proof.Machine

/-! ### Ends that several commands share -/

/-- No cartridge is loaded (04 R112). -/
def noCartridge (jsn : Nat) (s : State) : State := endR1 jsn stMediaError 0xFFFFFFFFFFFFFFFF s

/-- A command that needs a loaded cartridge of valid memory (04 R112) and a partition of it (R114) ends with MEDIA_ERROR without
them; SPACE has then moved over no item (R115). -/
def withPartition (e : JournalEntry) (p : Nat) (s : State) (k : Cartridge → State → State) : State :=
  let stop := fun (r1 : Nat) (s : State) =>
    if entryOp e = opSpace then endWith e.jsn stMediaError 0 r1 s else endR1 e.jsn stMediaError r1 s
  match loadedCart s with
  | none => stop 0xFFFFFFFFFFFFFFFF s
  | some c => if cmPartitions c ≤ p then stop p s else k c s

/-- End of data of a partition by release. -/
def eodOf (p : Nat) (s : State) : Nat := s.fmt.durableEnd.getD p 0

/-- The wrap in which an item stands, or the last one of the partition. -/
def itemWrap (p n : Nat) (c : Cartridge) : Nat := (findItem (chainOf c p) n).elim (lastWrap p c).1 (·.1.wrap)

/-- The tape is moved: datasets held for reading are released (10 R266), the head stands at a wrap, at the beginning of the
partition or not (03 R89). -/
def moveTo (w : Nat) (atStart : Bool) (s : State) : State :=
  let s := atWrap w (dropHeld s)
  { s with cart := { s.cart with positioned := !atStart } }

/-! ### A motion under way (04 R111, 13 R348; 03 Table 3-10a) -/

/-- The motion command begins: its MAX_STEP caps the speed step while it runs. -/
def beginMotion (e : JournalEntry) (s : State) : State :=
  startRun e.jsn { s with spm := { s.spm with commandCap := maxStepOf e } }

/-- A command that moves the tape: the row begins the motion, or brings it to its end. -/
def onMotion (op jsn : Nat) (done : Bool) (s : State) (k : JournalEntry → RunInfo → State → State) : State :=
  match started op jsn s with
  | some (e, r) =>
    if tapeDown s then endEarly e stUnitDegraded (liftCap s)
    else if !done || tapeHeld s then s
    else k e r (liftCap s)
  | none => onTape op jsn s fun e r s => if done then k e r s else beginMotion e s

/-! ### LOAD, UNLOAD (04 R112, R113) -/

/-- LOAD (04 R112, R113). A cartridge of invalid memory stays threaded and is not loaded for it, so its checks are made
again (07 R203; log entry 32). -/
def execLoad (jsn : Nat) (done : Bool) (s : State) : Out :=
  .next <| onMotion opLoad jsn done s fun _ _ s =>
    if s.cart.loaded && s.cart.cm != 3 then endWith jsn stOk 0 0 s
    else if s.cart.inDrive.isNone || !s.aon.cartPresent then noCartridge jsn s
    else
      let threads := boolNat (!s.cart.threaded)
      match loadCart (dropHeld s) with
      | (.ok, s) => endWith jsn stOk threads 0 s
      | (.error r, s) => endR1 jsn stMediaError r s

/-- A run of R255 or a truncation is still to be written. -/
def runsOwed (s : State) : Bool := s.fmt.owed.any id || s.fmt.truncate.any Option.isSome

/-- The cartridge leaves; its presence pin follows with a row of its own. -/
def eject (s : State) : State := { s with cart := .reset }

/-- Open contexts keep STATE and PARTITION and have POSITION 0 (R112). -/
def rewindContexts (s : State) : State :=
  let z := fun (c : Context) => if c.isOpen then { c with position := 0 } else c
  { s with ctx := { s.ctx with
    records := (s.ctx.records.map fun r => (r.1, z r.2)).filter fun r => decide (r.2 ≠ Context.zero) } }

/-- The steps of UNLOAD on a loaded cartridge (R112, 07 R202, 09 R255; 16 R418 without an epoch). -/
def unloadCart (s : State) : State :=
  let owed := runsOwed s
  let s := if s.cart.cm = 3 then s else (List.range 4).foldl (fun s p => payOwed p s) s
  let s := if s.cart.dirty && (s.wh.epochValid || !owed) && s.cart.cm != 3 then writeStatus false s else s
  let s := dropHeld (endMediaExclusions (rewindContexts s))
  eject { s with tec := { s.tec with live := .none } }

/-- UNLOAD (04 R112, R113). -/
def execUnload (jsn : Nat) (done : Bool) (s : State) : Out :=
  .next <| onMotion opUnload jsn done s fun _ _ s =>
    if !s.cart.loaded then
      endWith jsn stOk (Config.freeNat s.freeCount) 0 (drawFree (if s.cart.threaded then s else eject s))
    else if s.fmt.run.isSome then waitRun jsn s
    else endWith jsn stOk (Config.freeNat s.freeCount) 0 (drawFree (unloadCart s))

/-! ### REWIND, LOCATE, SPACE (04 R114, R115) -/

/-- REWIND (04 R114). -/
def execRewind (jsn : Nat) (done : Bool) (s : State) : Out :=
  .next <| onMotion opRewind jsn done s fun e _ s =>
    let p := (getCtx (entryCtx e) s).partition
    withPartition e p s fun c s =>
      endR1 jsn stOk 0 (setCtx (entryCtx e) (fun x => { x with position := 0 }) (moveTo (firstWrap c p) true s))

/-- LOCATE or SPACE, with the tape or without it (R111, R116). -/
def onMove (op jsn : Nat) (done : Bool) (s : State) (k : JournalEntry → Bool → State → State) : State :=
  match findEntry s jsn with
  | none => s
  | some e =>
    if noMotion e then onBegin op jsn s fun e _ s => k e false s else onMotion op jsn done s fun e _ s => k e true s

/-- LOCATE (04 R114). -/
def execLocate (jsn : Nat) (done : Bool) (s : State) : Out :=
  .next <| onMove opLocate jsn done s fun e move s =>
    let p := bits (pktWord e 1) 20 2
    let r := (pktWord e 2).toNat
    withPartition e p s fun c s =>
      let n := min r (eodOf p s)
      let s := setCtx (entryCtx e) (fun x => { x with partition := p, position := n }) s
      endR1 jsn (if eodOf p s < r then stEndOfData else stOk) n (if move then moveTo (itemWrap p n c) (n == 0) s else s)

/-- An item of a partition is a filemark. -/
def isMark (l : List Dataset) (n : Nat) : Bool := (findItem l n).any (·.2.kind == 2)

/-- Forward from an item over a count of items of UNIT: status, items of UNIT moved over, position. The first argument
bounds the steps. -/
def spaceForward (l : List Dataset) (eod : Nat) (marks : Bool) : Nat → Nat → Nat → Nat → Nat × Nat × Nat
  | 0, _, n, pos => (stOk, n, pos)
  | fuel + 1, count, n, pos =>
    if n = count then (stOk, n, pos)
    else if eod ≤ pos then (stEndOfData, n, pos)
    else if isMark l pos then
      if marks then spaceForward l eod marks fuel count (n + 1) (pos + 1) else (stFilemarkReached, n, pos + 1)
    else spaceForward l eod marks fuel count (if marks then n else n + 1) (pos + 1)

/-- Backward likewise. -/
def spaceBack (l : List Dataset) (marks : Bool) : Nat → Nat → Nat → Nat → Nat × Nat × Nat
  | 0, _, n, pos => (stOk, n, pos)
  | fuel + 1, count, n, pos =>
    if n = count ∨ pos = 0 then (stOk, n, pos)
    else if isMark l (pos - 1) then
      if marks then spaceBack l marks fuel count (n + 1) (pos - 1) else (stFilemarkReached, n, pos - 1)
    else spaceBack l marks fuel count (if marks then n else n + 1) (pos - 1)

/-- The walk of a SPACE packet over at most `fuel` items: status, items of UNIT moved over, position. -/
def spaceWalk (e : JournalEntry) (x : Context) (fuel : Nat) (l : List Dataset) (eod : Nat) : Nat × Nat × Nat :=
  let marks := bitAt (pktWord e 1) 20
  let count := bits (pktWord e 2) 0 32
  if bitAt (pktWord e 1) 21 then spaceBack l marks (min fuel (x.position + 1)) count 0 x.position
  else spaceForward l eod marks (min fuel (eod - x.position + 1)) count 0 x.position

/-- SPACE (04 R115). -/
def execSpace (jsn : Nat) (passed : Option Nat) (s : State) : Out :=
  let s := match passed with
    | some n => setRun jsn (fun r => { r with done := n }) s
    | none => s
  .next <| onMove opSpace jsn passed.isNone s fun e move s =>
    let x := getCtx (entryCtx e) s
    withPartition e x.partition s fun c s =>
      let eod := eodOf x.partition s
      match spaceWalk e x (x.position + eod + 1) (chainOf c x.partition) eod with
      | (st, n, pos) =>
        let s := setCtx (entryCtx e) (fun x => { x with position := pos }) s
        endWith jsn st n pos
          (if move && bits (pktWord e 2) 0 32 != 0 then moveTo (itemWrap x.partition pos c) (pos == 0) s else s)

/-! ### FORMAT_PARTITIONS (07 R199, R200, R207, 16 R418) -/

/-- FORMAT_PARTITIONS (07 R200). -/
def execFormatPartitions (jsn : Nat) (s : State) : Out :=
  .next <| onTape opFormat jsn s fun e _ s =>
    match (if s.cart.loaded then s.cart.inDrive else none) with
    | none => noCartridge jsn s
    | some c =>
      if mediaType c = 0x81 then endR1 jsn stMediaError 0xFFFFFFFFFFFFFFFE (raiseN evFmtNotWritable s)
      else if !s.wh.epochValid || s.fmt.run.isSome then waitRun jsn s
      else
        let n := bits (pktWord e 1) 0 3
        let pairs := if entryExpert e then (pairsOf (pktWord e 2)).take n else evenPairs n
        let c3 := if entryExpert e then bits (pktWord e 1) 4 4 else 0
        let s := formatContexts n (formatCart pairs c3 (dropHeld s))
        endWith jsn stOk n (2 * sumNat pairs) s

/-! ### FMT_DATASET_INFO, FMT_CM_ACCESS (07 R205, R206) -/

/-- The header of a member that was not found, as C3 rebuilds it (08 R224). -/
def rebuiltHeader (l : List Dataset) (d : Dataset) : Dataset :=
  let before := (l.filter (·.seq < d.seq)).getLast?
  { d with seq := before.elim d.seq (·.seq + 1), rewritten := false, truncate := false, originSeq := 0
           bootEpoch := 0xFFFFFFFF, serial := 0, sfn := 0 }

/-- The header that the read path has of a dataset. -/
def headerRead (l : List Dataset) (d : Dataset) (s : State) : Dataset :=
  if s.tec.held.any fun h => h.seq == d.seq && h.notFound && h.failed.isEmpty then rebuiltHeader l d else d

/-- FMT_DATASET_INFO (07 R205). -/
def execFmtDatasetInfo (jsn : Nat) (s : State) : Out :=
  .next <| onTape 0x78 jsn s fun e _ s =>
    let p := (getCtx (entryCtx e) s).partition
    withPartition e p s fun c s =>
      let r := (pktWord e 2).toNat
      let l := chainOf c p
      match (if eodOf p s ≤ r then none else findItem l r) with
      | none => endBare jsn stEndOfData s
      | some (d, _) =>
        let h := headerRead l d s
        let s := hostStore (pktWord e 3).toNat (headerBytes h) (moveTo d.wrap false s)
        endWith jsn stOk h.seq h.bootEpoch s

/-- FMT_CM_ACCESS (07 R206). -/
def execFmtCmAccess (jsn : Nat) (bytes : List Byte) (s : State) : Out :=
  .next <| onBegin 0x79 jsn s fun e _ s =>
    match (if s.cart.loaded || s.cart.unknown then s.cart.inDrive else none) with
    | none => noCartridge jsn s
    | some c =>
      let off := bits (pktWord e 1) 0 14
      let n := bits (pktWord e 1) 16 15
      let s := if n = 0 then s
        else if bitAt (pktWord e 1) 32 then modCart (cmPut off (slice bytes 0 n)) s
        else hostStore (pktWord e 2).toNat (cmSlice c off n) s
      endR0 jsn stOk n s

end Sys2Proof.Machine
end

