-- ==== Sys2Proof/Machine/ReadDecode.lean ====
section
/-! DEFINITION. Decoding on read: the rows of a sub-dataset with their copies (10 R261-R263, 08 R219), the C1-C2 schedule (08
R213, R218, R236), and what it leaves of a dataset (10 R270-R272). -/

namespace Sys2Proof.Machine

/-! ### A reading -/

/-- What a dataset is decoded from: the cartridge's format, its chain, the slots that do not read as written, and the settings in
force (08 R231; 10 Table 10-3). -/
structure Reread where
  atf1  : Bool
  chain : List Dataset
  slots : List SlotReading
  iter  : Nat
  outer : Nat
  /-- The stretch is read against its wrap's direction. -/
  turn  : Bool
  /-- The copies of a row enter as one input. -/
  sum   : Bool
  deriving DecidableEq, Repr

/-- The read channel of a track (10 R279). -/
def channelOf (atf1 : Bool) (t : Nat) : Nat := if atf1 then 2 * t else t

def readingAt (c : Reread) (seq p t : Nat) : Option SlotReading := c.slots.find? fun x => x.seq == seq && x.slot == p && x.track == t

/-- A slot that is not decoded: its channel is degraded (R263), or the read datapath overran there (01 R18). -/
def notRead (c : Reread) (seq p t : Nat) (s : State) : Bool :=
  s.tec.degradedChannels.contains (channelOf c.atf1 t) || (readingAt c seq p t).any (·.late)

/-! ### Inputs of a row (R219, R261) -/

/-- One codeword slot that a row may be decoded from: every bit as written, or the detector's LLRs; none of a slot not decoded. -/
structure RowInput where
  copy  : Bool
  clean : Bool
  word  : List Bool
  llr   : List Int
  deriving DecidableEq, Repr

def blankInput : RowInput := { copy := false, clean := false, word := [], llr := [] }

/-- What slot p of track t of a dataset gives. -/
def slotInput (c : Reread) (copy : Bool) (d : Dataset) (p t : Nat) (s : State) : RowInput :=
  if notRead c d.seq p t s then blankInput
  else
    let w := slotCodeword c.atf1 c.chain d p t
    let r := (readingAt c d.seq p t).elim .clean (·.reading)
    if r = .clean then { copy := copy, clean := true, word := w, llr := [] }
    else { copy := copy, clean := false, word := w
           llr := (readSlot (detectorOf (channelOf c.atf1 t) (d.wrap + boolNat c.turn) s) w r).2 }

/-- The four chain positions behind a dataset, or fewer at the chain's end. -/
def carriersOf (l : List Dataset) (d : Dataset) : List Dataset := ((l.dropWhile (·.seq != d.seq)).drop 1).take 4

/-- The ID band that names a row. -/
def rowId (d : Dataset) (k r : Nat) : Nat × Nat × Nat × Nat := (d.seq % 2 ^ 32, k, r, d.partition)

/-- A rewrite slot that does not read as written holds a copy of a row: by its decoded ID band, or where it is not valid by that of the
detector's hard decisions with its CRC right. -/
def isCopyOf (limit : Nat) (i : RowInput) (id : Nat × Nat × Nat × Nat) : Bool :=
  let r := c1Decode limit i.llr
  let hard := infoOf (hardBits i.llr.toArray).toList
  if validC1 r then !isFill (infoOf r.word) && idFields (infoOf r.word) == id
  else idCrcOk hard && idFields hard == id

/-- The copies of a row in the rewrite slots of a later dataset. -/
def copiesOf (c : Reread) (d : Dataset) (k r : Nat) (s : State) (e : Dataset) : List RowInput :=
  let noisy := fun (p t : Nat) => (readingAt c e.seq p t).any fun x => x.reading != .clean
  let asWritten := e.copies.filter fun x => x.seq == d.seq && x.subset == k && x.row == r && !noisy x.slot x.track
  let read := c.slots.filter fun x => x.seq == e.seq && decide (120 ≤ x.slot) && x.reading != .clean
  ((asWritten.map fun x => slotInput c true e x.slot x.track s).filter (·.clean))
    ++ (read.map fun x => slotInput c true e x.slot x.track s).filter fun i => !i.llr.isEmpty && isCopyOf c.iter i (rowId d k r)

/-- LLRs of an input; all 0 of a slot not decoded (R263). -/
def inputLlrs (i : RowInput) : List Int :=
  if i.clean then i.word.map fun b => if b then -31 else 31
  else if i.llr.isEmpty then List.replicate 9216 0 else i.llr

/-- Inputs summed into one, bit by bit, within ±31 (Table 10-3, pass 8). -/
def sumInputs (l : List RowInput) : List RowInput :=
  match l.filter fun i => i.clean || !i.llr.isEmpty with
  | [] => l
  | [i] => [i]
  | i :: t =>
    [{ copy := false, clean := false, word := []
       llr := (t.foldl (fun a x => a.zipWith (· + ·) (inputLlrs x)) (inputLlrs i)).map (clampI (-31) 31) }]

/-! ### Rows (R215, R219) -/

/-- A row under way: its inputs; on what it stands (a copy or its own slot, the information bytes, the margin record); else the
symbols of its hard decisions, its unsatisfied checks, and whether a decode satisfied every check under a wrong ID CRC. -/
structure RowNow where
  row    : Nat
  inputs : List RowInput
  stands : Option (Bool × List Byte × MarginRecord)
  hard   : List Nat
  unsat  : Nat
  slip   : Bool
  deriving DecidableEq, Repr

def newRow (r : Nat) (inputs : List RowInput) : RowNow :=
  { row := r, inputs := inputs, stands := none, hard := [], unsat := 576, slip := false }

/-- A row of a sub-dataset with its own slot alone. -/
def ownRow (c : Reread) (d : Dataset) (k : Nat) (s : State) (r : Nat) : RowNow :=
  let p := (geometry c.atf1).slotOf r k
  newRow r [slotInput c false d p.1 p.2 s]

/-- With its copies. -/
def fullRow (c : Reread) (d : Dataset) (k : Nat) (s : State) (r : Nat) : RowNow :=
  let l := (ownRow c d k s r).inputs ++ (carriersOf c.chain d).flatMap (copiesOf c d k r s)
  newRow r (if c.sum then sumInputs l else l)

/-- A row that an earlier reading has made valid stays so (R270). -/
def standingRow (c : Reread) (d : Dataset) (k r : Nat) : RowNow :=
  { newRow r [] with stands := some (false, idBand d.seq k r d.partition ++ rowPayload c.atf1 d k r,
      { valid := true, iter := 1, unsat0 := 0, flips := 0, weak := 0 }) }

/-- LLRs with the bits of decoded columns at their decoded value, magnitude 31 (R218 step 4). -/
def aidLlrs (cols : List (Option (List Nat))) (r : Nat) (l : List Int) : List Int :=
  l.zipIdx.map fun p =>
    if p.2 < 80 ∨ 8640 ≤ p.2 then p.1
    else match cols.getD (p.2 / 10 - 8) none with
      | some col => if (col.getD r 0).testBit (p.2 % 10) then -31 else 31
      | none => p.1

/-- The C1 decode of an input. A slot not decoded has none before columns are known. -/
def inputResult (limit : Nat) (cols : List (Option (List Nat))) (r : Nat) (i : RowInput) : Option C1Result :=
  if !cols.isEmpty then some (c1Decode limit (aidLlrs cols r (inputLlrs i)))
  else if i.clean then some (cleanResult i.word)
  else if i.llr.isEmpty then none
  else some (c1Decode limit i.llr)

def leastBy {α : Type} (f : α → Nat) : List α → Option α
  | [] => none
  | a :: t => some (t.foldl (fun b x => if f x < f b then x else b) a)

/-- Symbols of a decoded word's payload. -/
def wordSymbols (w : List Bool) : List Nat := symbolsOf ((infoOf w).drop 10)

/-- C1 on a row that is not valid yet: the copy valid after the fewest iterations stands for it, unless two valid ones differ
(R219; log entry 54). -/
def stepRow (limit : Nat) (cols : List (Option (List Nat))) (x : RowNow) : RowNow :=
  if x.stands.isSome then x
  else
    let rs := x.inputs.filterMap fun i => (inputResult limit cols x.row i).map fun r => (i.copy, r)
    let x := { x with slip := x.slip || rs.any fun p => miscorrected p.2 }
    let ok := rs.filter fun p => validC1 p.2
    match leastBy (fun p => p.2.iter) ok with
    | some b =>
      if ok.any fun p => infoOf p.2.word != infoOf b.2.word then { x with hard := wordSymbols b.2.word, unsat := 577 }
      else { x with stands := some (b.1, infoOf b.2.word, marginRecord true limit b.2) }
    | none =>
      match leastBy (fun p => p.2.unsat) rs with
      | some b => { x with hard := wordSymbols b.2.word, unsat := b.2.unsat }
      | none => x

def isInvalid (x : RowNow) : Bool := x.stands.isNone

/-- The symbols with which a row enters C2. -/
def rowSymbols (x : RowNow) : List Nat := x.stands.elim x.hard fun p => symbolsOf (p.2.1.drop 10)

/-! ### C2 and the schedule (R213, R218) -/

/-- Rows that C2 erases: the n with the most unsatisfied checks of those not valid, of equals the higher. -/
def erasedRows (n : Nat) (l : List RowNow) : List Nat :=
  ((sortBy (fun a b => decide (b.unsat * 1024 + b.row ≤ a.unsat * 1024 + a.row)) (l.filter isInvalid)).take n).map (·.row)

/-- C2 of columns 8 to 863: the codeword of each, with its error positions. -/
def decodeColumns (n : Nat) (l : List RowNow) : List (Option (List Nat × List Nat)) :=
  let syms := l.map rowSymbols
  let er := erasedRows n l
  (List.range 856).map fun j => rsDecode c2Field n (syms.map fun r => r.getD j 0) er

/-- Symbols that C2 has corrected, in decoded columns (log entry 54). -/
def correctedSymbols (l : List RowNow) (cols : List (Option (List Nat × List Nat))) : Nat :=
  let syms := l.map rowSymbols
  sumNat (cols.zipIdx.map fun p => p.1.elim 0 fun c =>
    ((syms.zip c.1).filter fun q => q.1.getD p.2 0 != q.2).length)

/-- Those among them that stood in rows valid under C1. -/
def overruledSymbols (l : List RowNow) (cols : List (Option (List Nat × List Nat))) : Nat :=
  let valid := (l.filter fun x => !isInvalid x).map (·.row)
  sumNat (cols.map fun p => p.elim 0 fun c => (c.2.filter fun r => valid.contains r).length)

/-- What the schedule of a sub-dataset came to. -/
structure Scheduled where
  ok       : Bool
  rows     : List RowNow
  symbols  : Nat
  overrule : Nat
  outer    : Nat
  deriving DecidableEq, Repr

/-- The schedule of R218 for n parity rows; the first argument counts the outer iterations left. -/
def schedule (limit n : Nat) : Nat → Nat → List (Option (List Nat)) → List RowNow → Scheduled
  | left, t, cols, rows =>
    let rows := rows.map (stepRow limit cols)
    if rows.all fun x => !isInvalid x then { ok := true, rows := rows, symbols := 0, overrule := 0, outer := t }
    else
      let l := decodeColumns n rows
      let r : Scheduled :=
        { ok := l.all (·.isSome), rows := rows, symbols := correctedSymbols rows l, overrule := overruledSymbols rows l, outer := t }
      if r.ok then r
      else match left with
        | 0 => r
        | m + 1 => schedule limit n m (t + 1) (l.map fun c => c.map (·.1)) rows

/-- C2 parity rows of the format. -/
def parityCount (atf1 : Bool) : Nat := if atf1 then 8 else 16

def rowRange (atf1 : Bool) : List Nat := List.range (geometry atf1).rows

def scheduleOf (c : Reread) (rows : List RowNow) : Scheduled := schedule c.iter (parityCount c.atf1) c.outer 0 [] rows

/-! ### The first reading of a sub-dataset (R262) -/

/-- Every row's own slot reads as written: the sub-dataset is decoded without a correction. -/
def cleanSubset (c : Reread) (d : Dataset) (k : Nat) (s : State) : Bool :=
  s.tec.degradedChannels.isEmpty && c.slots.all fun x =>
    x.seq != d.seq || decide (120 ≤ x.slot) || ((geometry c.atf1).rowAt x.slot x.track).2 != k || (x.reading == .clean && !x.late)

/-- The outcome of a first reading, with the rows not valid after the first C1 decode of their own slot. None: rows are not valid, and
the rewrite slots of the fourth position behind have not been read nor has the chain ended. `ahead`: positions behind that have been
read. -/
def readSubset (c : Reread) (d : Dataset) (k ahead : Nat) (s : State) : Option (Nat × Scheduled) :=
  if cleanSubset c d k s then some (0, { ok := true, rows := [], symbols := 0, overrule := 0, outer := 0 })
  else
    let own := (rowRange c.atf1).map fun r => stepRow c.iter [] (ownRow c d k s r)
    let inv := (own.filter isInvalid).length
    if inv = 0 then some (0, { ok := true, rows := own, symbols := 0, overrule := 0, outer := 0 })
    else if ahead < (carriersOf c.chain d).length then none
    else some (inv, scheduleOf c ((rowRange c.atf1).map (fullRow c d k s)))

/-- Its statistics (Table 10-7). -/
def statsOfRows (inv : Nat) (r : Scheduled) : DecodeStats :=
  let ms := r.rows.filterMap fun x => x.stands.map (·.2.2)
  { c1Invalid := inv, c1Left := (r.rows.filter isInvalid).length
    copiesUsed := (r.rows.filter fun x => x.stands.any (·.1)).length, c2Symbols := r.symbols, overrule := r.overrule, outer := r.outer
    maxIter := ms.foldl (fun m x => max m x.iter) 1, worstFlips := ms.foldl (fun m x => max m x.flips) 0
    worstWeak := ms.foldl (fun m x => max m x.weak) 0 }

def noStats : DecodeStats :=
  { c1Invalid := 0, c1Left := 0, copiesUsed := 0, c2Symbols := 0, overrule := 0, outer := 0, maxIter := 0, worstFlips := 0, worstWeak := 0 }

/-- The statistics of a dataset with one schedule more. -/
def mergeStats (a b : DecodeStats) : DecodeStats :=
  { c1Invalid := a.c1Invalid + b.c1Invalid, c1Left := a.c1Left + b.c1Left, copiesUsed := a.copiesUsed + b.copiesUsed
    c2Symbols := a.c2Symbols + b.c2Symbols, overrule := a.overrule + b.overrule, outer := max a.outer b.outer
    maxIter := max a.maxIter b.maxIter, worstFlips := max a.worstFlips b.worstFlips, worstWeak := max a.worstWeak b.worstWeak }

/-! ### What is held of a dataset -/

def heldOf (seq : Nat) (s : State) : Option HeldDataset := s.tec.held.find? (·.seq == seq)

def setHeld (seq : Nat) (f : HeldDataset → HeldDataset) (s : State) : State :=
  { s with tec := { s.tec with held := s.tec.held.map fun h => if h.seq = seq then f h else h } }

def freshHeld (seq : Nat) : HeldDataset :=
  { seq := seq, failed := [], bad := [], unsynced := [], notFound := false, retried := false, passes := 0, c3Used := false
    c3Tried := [], stats := noStats }

/-- The dataset has a record of its decoding. -/
def holdRecord (seq : Nat) (s : State) : State :=
  if (heldOf seq s).isSome then s else { s with tec := { s.tec with held := s.tec.held ++ [freshHeld seq] } }

/-- Counters and events of a schedule (08 Table 8-6, 10 Table 10-12). -/
def countDecode (seq k : Nat) (st : DecodeStats) (r : Scheduled) (s : State) : State :=
  let s := (r.rows.filter (·.slip)).foldl (fun s x => noteMiscorrect seq k x.row s) s
  { s with tec := { s.tec with
    c1ReadFail := sat64 s.tec.c1ReadFail st.c1Left, c2Symbols := sat64 s.tec.c2Symbols st.c2Symbols
    c2Overrule := sat64 s.tec.c2Overrule st.overrule, rdCopies := sat64 s.tec.rdCopies st.copiesUsed } }

/-- Codeword slots of a sub-dataset that show no SYNC field, by track. -/
def silentSlots (c : Reread) (seq : Nat) (p : Nat → Bool) : List Nat :=
  ((c.slots.filter fun x => x.seq == seq && decide (x.slot < 120) && p ((geometry c.atf1).rowAt x.slot x.track).2
    && !syncFound x.reading).map (·.track))

/-- A sub-dataset's first reading is recorded. -/
def noteSubset (c : Reread) (seq k : Nat) (st : DecodeStats) (r : Scheduled) (s : State) : State :=
  let lost := if r.ok then [] else [k]
  setHeld seq (fun h => { h with
    failed := (List.range 16).filter fun j => h.failed.contains j || lost.contains j
    bad := h.bad ++ (r.rows.filter isInvalid).map fun x => (k, x.row)
    unsynced := (silentSlots c seq (· == k)).foldl (fun u t => tabUpd 0 t (· + 1) u) h.unsynced
    stats := mergeStats h.stats st }) (holdRecord seq s)

/-- A dataset that is not found where the chain continues has no sub-dataset decoded (R267). -/
def noteMissing (seq : Nat) (s : State) : State :=
  setHeld seq (fun h => { h with failed := List.range 16, notFound := true }) (holdRecord seq s)

/-! ### A reading again (R270, R271) -/

/-- Rows of a sub-dataset that no reading has made valid. -/
def badRows (h : HeldDataset) (atf1 : Bool) (k : Nat) : List Nat :=
  if h.notFound then rowRange atf1 else (h.bad.filter (·.1 == k)).map (·.2)

/-- A sub-dataset read again: one that failed goes through the schedule on the union, of another only the rows are decoded. -/
def rereadSubset (c : Reread) (d : Dataset) (h : HeldDataset) (s : State) (k : Nat) : Scheduled :=
  let bad := badRows h c.atf1 k
  if h.failed.contains k then
    scheduleOf c ((rowRange c.atf1).map fun r => if bad.contains r then fullRow c d k s r else standingRow c d k r)
  else { ok := true, rows := bad.map fun r => stepRow c.iter [] (fullRow c d k s r), symbols := 0, overrule := 0, outer := 0 }

/-- The whole dataset read again. -/
def rereadDataset (c : Reread) (d : Dataset) (h : HeldDataset) (s : State) : State :=
  let ks := (List.range 16).filter fun k => h.failed.contains k || !(badRows h c.atf1 k).isEmpty
  let rs := ks.map fun k => (k, rereadSubset c d h s k)
  let s := rs.foldl (fun s p => countDecode d.seq p.1 (statsOfRows 0 p.2) p.2 s) s
  setHeld d.seq (fun h => { h with
    failed := h.failed.filter fun k => !(rs.any fun p => p.1 == k && p.2.ok)
    bad := rs.flatMap fun p => (p.2.rows.filter isInvalid).map fun x => (p.1, x.row)
    notFound := false, c3Tried := []
    stats := rs.foldl (fun a p => mergeStats a (statsOfRows 0 p.2)) h.stats }) s

/-- Data codeword slots of a track. -/
abbrev trackSlots : Nat := 120

/-- The read channel that R272 marks: 60 rows not valid in both readings lie on its track, and no SYNC field was found on it in
either. -/
def silentTrack (c : Reread) (old new : HeldDataset) : Option Nat :=
  let again := silentSlots c new.seq fun _ => true
  let on := fun (t : Nat) => (new.bad.filter fun p => ((geometry c.atf1).slotOf p.2 p.1).2 == t).length
  (List.range (geometry c.atf1).tracks).find? fun t =>
    decide (trackSlots ≤ tabGet 0 old.unsynced t) && decide (trackSlots ≤ (again.filter (· == t)).length) && decide (60 ≤ on t)

/-- Detectors adapt over the position before the failed dataset (Table 10-3, pass 2). -/
def adaptOver (c : Reread) (seq : Nat) (s : State) : State :=
  match c.chain.reverse.dropWhile (·.seq != seq) with
  | _ :: d :: _ =>
    (c.slots.filter fun x => x.seq == d.seq && !x.late && x.reading != .clean).foldl (fun s x =>
      let ch := channelOf c.atf1 x.track
      let det := detectorOf ch d.wrap s
      let r := decodeSlot c.iter det (slotCodeword c.atf1 c.chain d x.slot x.track) x.reading
      if validC1 r then setDetector ch d.wrap (adapted s.tec.stepLog2 det r.word x.reading) s else s) s
  | _ => s

end Sys2Proof.Machine
end

