-- ==== Sys2Proof/Machine/Read.lean ====
section
/-! DEFINITION. The read path (10): what an item needs of the tape, frames decrypted and blocks decoded, the order of recovery
(R269-R272), READ_RECORDS (04 R110, 05 R137-R141, 06 R163, R170-R174, 10 R264-R274), VERIFY_RANGE (10 R276-R278), and the rows of
decoding. -/

namespace Sys2Proof.Machine

/-! ### Frames in dataset order -/

/-- A frame where it stands: its dataset, its place and its offset in the user area. -/
structure FrameAt where
  ds    : Dataset
  index : Nat
  off   : Nat
  frame : TapeFrame
  deriving DecidableEq, Repr

/-- Bytes of a frame: header, ciphertext, tag (06 R147). -/
def frameSize (f : TapeFrame) : Nat := 48 + f.ctLen

def framesFrom (d : Dataset) : Nat → Nat → List TapeFrame → List FrameAt
  | _, _, [] => []
  | i, off, f :: t => { ds := d, index := i, off := off, frame := f } :: framesFrom d (i + 1) (off + frameSize f) t

/-- The frames that begin in a dataset. -/
def framesOf (d : Dataset) : List FrameAt := framesFrom d 0 d.contBytes d.frames

/-- The delivered data datasets of a chain in dataset order (07 R195, 10 R265). -/
def deliveredOf (l : List Dataset) : List Dataset :=
  sortBy (fun a b => orderKey a ≤ orderKey b) (l.filter fun d => d.kind == 0 && !isReplaced l d)

def allFrames (l : List Dataset) : List FrameAt := (deliveredOf l).flatMap framesOf

/-- Length of an item as its own dataset's directory has it, or as delivered. -/
def itemLen (l : List Dataset) (d : Dataset) (r : Nat) : Nat :=
  if d.firstItem ≤ r ∧ r < d.firstItem + itemCount d then (d.items[r - d.firstItem]?).elim 0 (·.length)
  else (findItem l r).elim 0 (·.2.length)

/-- Decoded bytes from a record and offset on, cut at the ends of records: (record, place among the bytes, bytes). -/
def cutSpans (len : Nat → Nat) : Nat → Nat → Nat → Nat → Nat → List (Nat × Nat × Nat)
  | 0, _, _, _, _ => []
  | n + 1, r, off, at_, k =>
    if k = 0 then []
    else
      let m := min (len r - off) k
      if m = 0 then cutSpans len n (r + 1) 0 at_ k
      else (r, at_, m) :: cutSpans len n (r + 1) 0 (at_ + m) (k - m)

/-- The spans of records that a frame holds and that its dataset still gives (R195). -/
def spansOf (l : List Dataset) (f : FrameAt) : List (Nat × Nat × Nat) :=
  (cutSpans (itemLen l f.ds) (f.frame.inLen + 65536) f.frame.record f.frame.offset 0 f.frame.inLen).filter
    fun p => p.1 < truncLimit l f.ds

def holdsRecord (l : List Dataset) (r : Nat) (f : FrameAt) : Bool := (spansOf l f).any (·.1 == r)

/-- Frames that a record is decoded from: from the access point of its dataset to its last one (R268). -/
def recordFrames (l : List Dataset) (d : Dataset) (r len : Nat) : List FrameAt :=
  if len = 0 then []
  else
    let from_ := (allFrames l).dropWhile fun f => !(f.ds.seq == d.seq && decide (d.apOffset.getD 0 ≤ f.off))
    (from_.reverse.dropWhile fun f => !holdsRecord l r f).reverse

/-! ### What an item needs (R273) -/

/-- Sub-datasets that n bytes of a body from a touch (07 R181). -/
def subsetsAt (g : Geometry) (a n : Nat) : List Nat :=
  if n = 0 then [] else (List.range 16).filter fun k => a / g.subBody ≤ k && k ≤ (a + n - 1) / g.subBody

/-- The dataset after one in dataset order. -/
def nextDelivered (l : List Dataset) (d : Dataset) : Option Dataset :=
  (deliveredOf l).find? fun x => orderKey d < orderKey x

/-- (SEQ, sub-dataset) that a frame's bytes stand in. -/
def frameNeeds (g : Geometry) (l : List Dataset) (f : FrameAt) : List (Nat × Nat) :=
  let here := min (frameSize f.frame) (f.ds.userBytes - f.off)
  let own := (subsetsAt g f.off here).map fun k => (f.ds.seq, k)
  match nextDelivered l f.ds with
  | some n => own ++ (subsetsAt g 0 (frameSize f.frame - here)).map fun k => (n.seq, k)
  | none => own

/-- Directory entries up to an item's, counted from the top of the body. -/
def entriesTo (d : Dataset) (r : Nat) : Nat := ((d.items.take (r - d.firstItem + 1)).filter (·.starts)).length

/-- Sub-datasets of an item's directory entry and of those nearer the top. -/
def entryNeeds (g : Geometry) (d : Dataset) (r : Nat) : List (Nat × Nat) :=
  (subsetsAt g (g.body - 16 * entriesTo d r) (16 * entriesTo d r)).map fun k => (d.seq, k)

/-- A sub-dataset is not decoded. -/
def isLost (s : State) (p : Nat × Nat) : Bool := (heldOf p.1 s).any fun h => h.failed.contains p.2

/-! ### Recovery (R269-R272) -/

/-- The dataset of the loaded cartridge with a SEQ. -/
def tapeDataset (seq : Nat) (s : State) : Option Dataset :=
  (loadedCart s).bind fun c => c.chain.find? (·.seq == seq)

/-- C3 takes part for a dataset (R223, R231, R275, R279). -/
def c3Applies (seq : Nat) (noC3 : Bool) (s : State) : Bool :=
  s.tec.c3Read && !noC3 && (tapeDataset seq s).any (·.c3On)
    && (match loadedCart s with
      | some c => mediaType c != 0x81
      | none => false)

/-- A sub-dataset of a dataset for which C3 has not been tried since the last reading. -/
def c3Next? (h : HeldDataset) : Option Nat := h.failed.find? fun k => !h.c3Tried.contains k

/-- The means of recovery that a dataset with a failure still has. -/
inductive Measure where
  | c3 (subset : Nat)
  | retry
  | pass (k : Nat)
  deriving DecidableEq, Repr

/-- The next measure of Table 10-2; none: all are spent. -/
def nextMeasure (h : HeldDataset) (passes : Nat) (noC3 : Bool) (s : State) : Option Measure :=
  match (if c3Applies h.seq noC3 s then c3Next? h else none) with
  | some k => some (.c3 k)
  | none => if !h.retried then some .retry else if h.passes < passes then some (.pass (h.passes + 1)) else none

/-- No measure is in progress. -/
def endMeasure (s : State) : State :=
  let s := { s with tec := { s.tec with recovering := none, rdPass := 0, c3Active := false } }
  if unitState unReadPath s = 1 then setUnit unReadPath 0 0 s else s

/-- A measure begins: what the registers and events show of it (R223, R270, R271, 17 R438). -/
def beginMeasure (seq : Nat) (m : Measure) (s : State) : State :=
  match m with
  | .c3 k => raise evTecC3Invoked seq k { s with tec := { s.tec with c3Active := true, rdPass := 0 } }
  | .retry =>
    setUnit unReadPath 1 0 { s with tec := { s.tec with
      c3Active := false, rdPass := 15, rdRetries := sat64 s.tec.rdRetries 1 } }
  | .pass k =>
    raise evTecReadPass seq k { s with tec := { s.tec with
      c3Active := false, rdPass := k, rdPasses := sat64 s.tec.rdPasses 1
      detectors := if k = 2 then [] else s.tec.detectors } }

/-- The next measure for a dataset begins, or recovery is over: all is decoded or spent. -/
def recover (seq passes : Nat) (noC3 : Bool) (s : State) : State :=
  let s := endMeasure s
  match heldOf seq s with
  | none => s
  | some h =>
    if h.failed.isEmpty then s
    else match nextMeasure h passes noC3 s with
      | none => s
      | some m => beginMeasure seq m { s with tec := { s.tec with recovering := some (seq, passes, noC3) } }

/-- The read or VERIFY_RANGE that waits for a recovery: the oldest that waits. -/
def waitingRead (s : State) : Option Nat :=
  (s.jrn.entries.filter fun e => (entryOp e == opReadRecords || entryOp e == opVerifyRange) && (match findRun s e.jsn with
    | some r => decide (r.phase = .waiting)
    | none => false)).foldl (fun best e => match best with
      | none => some e.jsn
      | some j => some (min j e.jsn)) none

/-- A dataset is decoded after its retry or a pass (R270, R271): the read reports OK_RETRIED; at the retry the fault was
transient. -/
def recovered (h : HeldDataset) (s : State) : State :=
  let s := match waitingRead s with
    | some j => markRetried j s
    | none => s
  if h.passes = 0 then
    raiseP evTecReadRetry h.seq (addTransient unReadPath { s with tec := { s.tec with rdRetryOk := sat64 s.tec.rdRetryOk 1 } })
  else s

/-- What follows a measure: the dataset is decoded, or the next one begins. -/
def afterMeasure (seq passes : Nat) (noC3 : Bool) (s : State) : State :=
  match heldOf seq s with
  | none => s
  | some h =>
    let s := if h.failed.isEmpty && h.retried then recovered h s else s
    recover seq passes noC3 s

/-- Members of a C3 group in a chain, as delivered. -/
def c3Members (d : Dataset) (l : List Dataset) : List Dataset :=
  l.filter fun x => x.kind != 2 && x.c3On && x.c3Group == d.c3Group && !isReplaced l x

/-- C3_DECODE (08 R223): sub-dataset k of every member of the group is recovered when at most four are erased. -/
def execC3Decode (seq subset : Nat) (s : State) : Out :=
  .next <| match s.tec.recovering, tapeDataset seq s, loadedCart s with
  | some (q, passes, noC3), some d, some c =>
    if q ≠ seq ∨ s.tec.c3Active = false ∨ !(heldOf seq s).any (fun h => c3Next? h == some subset) then s
    else
      let m := c3Members d (chainOf c d.partition)
      let lost := m.filter fun x => isLost s (x.seq, subset)
      let tried := setHeld seq fun h => { h with c3Tried := h.c3Tried ++ [subset] }
      let s :=
        if lost.length ≤ 4 then
          let s := lost.foldl (fun s x => setHeld x.seq (fun h => { h with failed := h.failed.filter (· != subset), c3Used := true }) s) s
          { s with tec := { s.tec with c3Recovered := sat64 s.tec.c3Recovered lost.length } }
        else
          raise evTecC3Unrecovered seq subset { s with tec := { s.tec with c3Fail := sat64 s.tec.c3Fail 1 } }
      afterMeasure seq passes noC3 (tried s)
  | _, _, _ => s

/-- How a dataset is read now, with the limits in force. -/
def rereadOf (c : Cartridge) (d : Dataset) (slots : List SlotReading) (s : State) : Reread :=
  { atf1 := mediaType c == 0x81, chain := chainOf c d.partition, slots := slots, iter := s.tec.readIter, outer := s.tec.outer
    turn := false, sum := false }

/-- In recovery pass k (10 R271, Table 10-3). -/
def passReading (k : Nat) (c : Reread) : Reread :=
  { c with iter := 48, outer := 4, turn := decide (5 ≤ k) && decide (k ≤ 7), sum := decide (k = 8) }

/-- The dataset in recovery is read again, unless it is not found again: what changes in what is held of it. -/
def readAgain (c : Reread) (d : Dataset) (found : Bool) (s : State) : State :=
  match heldOf d.seq s with
  | some h => if found then rereadDataset c d h s else setHeld d.seq (fun h => { h with c3Tried := [] }) s
  | none => s

/-- A read channel is degraded (R272). -/
def degradeChannel (t : Nat) (s : State) : State :=
  setUnit unReadCh 2 t (raiseP evTecReadChDegraded t { s with tec := { s.tec with degradedChannels := insertNat t s.tec.degradedChannels } })

/-- READ_AUTO_RETRY (10 R270, R272): the stretch read again, with the slots that do not read as written; `found`: the dataset is. -/
def execReadAutoRetry (seq : Nat) (found : Bool) (slots : List SlotReading) (s : State) : Out :=
  .next <| match s.tec.recovering, loadedCart s, tapeDataset seq s, heldOf seq s with
  | some (q, passes, noC3), some c, some d, some old =>
    if q ≠ seq ∨ s.tec.rdPass ≠ 15 ∨ s.sys.synth = true then s
    else
      let x := rereadOf c d slots s
      let s := setHeld seq (fun h => { h with retried := true }) (readAgain x d found s)
      let bad := (heldOf seq s).bind fun h => if h.failed.isEmpty || h.notFound then none else silentTrack x old h
      afterMeasure seq passes noC3 (match bad with
        | some t => degradeChannel (channelOf x.atf1 t) s
        | none => s)
  | _, _, _, _ => s

/-- RECOVERY_PASS (10 R271): the pass in progress ends. -/
def execRecoveryPass (seq : Nat) (found : Bool) (slots : List SlotReading) (s : State) : Out :=
  .next <| match s.tec.recovering, loadedCart s, tapeDataset seq s with
  | some (q, passes, noC3), some c, some d =>
    let k := s.tec.rdPass
    if q ≠ seq ∨ k = 0 ∨ k = 15 ∨ s.sys.synth = true then s
    else
      let x := passReading k (rereadOf c d slots s)
      let s := readAgain x d found (if k = 2 then adaptOver x seq s else s)
      afterMeasure seq passes noC3 (setHeld seq (fun h => { h with passes := h.passes + 1 }) s)
  | _, _, _ => s

/-! ### Decoding of sub-datasets (08 R215, R218; 10 R262) -/

/-- A sub-dataset has been read. -/
def decodeSubset (c : Reread) (d : Dataset) (k ahead : Nat) (s : State) : State :=
  match readSubset c d k ahead s with
  | none => s
  | some (inv, r) =>
    let st := statsOfRows inv r
    let s := noteSubset c d.seq k st r (countDecode d.seq k st r s)
    if r.ok then s else raise evTecSubsetFail d.seq k { s with tec := { s.tec with subsetFail := sat64 s.tec.subsetFail 1 } }

/-- SUBDATASET_DECODE (08 R218, 10 R262) for a dataset on the loaded cartridge, not during synthetic ticks (01 R14): `found` where the
chain continues, with `ahead` positions behind it read, and the slots that do not read as written. -/
def execSubdatasetDecode (seq subset : Nat) (found : Bool) (ahead : Nat) (slots : List SlotReading) (s : State) : Out :=
  .next <| match loadedCart s, tapeDataset seq s with
  | some c, some d =>
    if s.fmt.run.isSome || s.sys.synth || s.tec.recovering.isSome || 16 ≤ subset then s
    else if found then decodeSubset (rereadOf c d slots s) d subset ahead s
    else noteMissing seq s
  | _, _ => s

/-! ### Keys and tags on read (06 R163, R170, R171) -/

/-- An encrypted frame may be decrypted with the context's slot; ATF-1 frames carry no label. -/
def keyFits (ctx : Nat) (atf1 : Bool) (f : TapeFrame) (s : State) : Bool :=
  let k := getSlot (false, ctx) s
  f.alg == 0 || (decide (k.use ≠ .empty) && (atf1 || k.label == f.label))

/-- The encoded blocks of a frame, under the context's key (R148). -/
def frameText (ctx : Nat) (f : TapeFrame) (s : State) : List Byte :=
  if f.alg = 0 then f.bytes else gcmText (slotKey (false, ctx) s) (frameIv f) f.bytes

/-- Its tag is right under that key. -/
def tagRight (ctx : Nat) (f : FrameAt) (s : State) : Bool :=
  f.frame.alg == 0
    || gcmTag (slotKey (false, ctx) s) (frameIv f.frame) (frameAad f.ds.partition f.frame) f.frame.bytes == f.frame.tag

/-- What its tag check comes to: as the command tells of a lane or of the tape, and lasting where the tag is not that of the frame's
bytes under the key (R163, R170). -/
def tagOf (ctx : Nat) (tags : List TagFailure) (f : FrameAt) (s : State) : Option TagFailure :=
  if f.frame.alg = 0 then none
  else if !tagRight ctx f s then some { seq := f.ds.seq, frame := f.index, lane := 0, lasting := true }
  else tags.find? fun t => t.seq == f.ds.seq && t.frame == f.index

/-- Frames of a walk with whether their bytes are untrusted: the tag failed twice, or the history passes through such a
frame (R171). -/
def markUntrusted (ctx : Nat) (tags : List TagFailure) (s : State) : Bool → List FrameAt → List (FrameAt × Bool)
  | _, [] => []
  | bad, f :: t =>
    let b := (tagOf ctx tags f s).any (·.lasting) || (bad && !f.frame.access)
    (f, b) :: markUntrusted ctx tags s b t

/-! ### Blocks of frames (05 R126, R129, R136) -/

/-- Blocks decoded one after another behind a history: the output, the history behind it, and whether all decode; the first argument
bounds them. -/
def openBlocks : Nat → List Byte → List Byte → List Byte → List Byte × List Byte × Bool
  | 0, text, hist, out => (out, hist, text.isEmpty)
  | n + 1, text, hist, out =>
    if text.isEmpty then (out, hist, true)
    else match abfDecode text hist with
      | none => (out, hist, false)
      | some l => openBlocks n (text.drop (16 + blockOut text)) (if blockHist text then hist ++ l else l) (out ++ l)

/-- Frames with their output, up to one with a block that fails. -/
def openFrames (ctx : Nat) (s : State) : List Byte → List FrameAt → List (FrameAt × List Byte)
  | _, [] => []
  | hist, f :: t =>
    let text := frameText ctx f.frame s
    match openBlocks (text.length / 16 + 1) text hist [] with
    | (out, hist, true) => (f, out) :: openFrames ctx s hist t
    | (out, _, false) => [(f, out)]

/-- Bytes of a record in a frame's output. -/
def spanBytes (l : List Dataset) (r : Nat) (p : FrameAt × List Byte) : List Byte :=
  ((spansOf l p.1).filter (·.1 == r)).flatMap fun q => (p.2.drop q.2.1).take q.2.2

/-! ### The walk of a read -/

/-- Why the walk of a read stopped. -/
inductive ReadStop where
  | count
  | listFull
  | filemark
  | endOfData
  /-- A record that starts at a byte of the list does not fit: the bytes left over and their untrusted ranges. -/
  | overflow (start : Nat) (left : List Byte) (bad : List (Nat × Nat))
  /-- An item cannot be delivered: CAUSE of Table 10-10, SEQ and sub-dataset, and KEY_LABEL. -/
  | fault (item cause seq subset label : Nat)
  /-- A dataset still has means of recovery. -/
  | recover (seq : Nat)
  deriving DecidableEq, Repr

/-- What has been delivered: records, position, bytes, descriptors, untrusted ranges of the list, frames walked. -/
structure ReadAcc where
  n      : Nat
  pos    : Nat
  bytes  : List Byte
  descs  : List Byte
  bad    : List (Nat × Nat)
  frames : List FrameAt
  deriving DecidableEq, Repr

/-- What stays the same during a walk. -/
structure ReadJob where
  jsn    : Nat
  ctx    : Nat
  chain  : List Dataset
  atf1   : Bool
  eod    : Nat
  total  : Nat
  passes : Nat
  noC3   : Bool
  tags   : List TagFailure
  deriving DecidableEq, Repr

/-- A lost sub-dataset among those that an item needs: recovery, or the item's fault. -/
def lostStop (j : ReadJob) (item : Nat) (needs : List (Nat × Nat)) (s : State) : Option ReadStop :=
  match needs.find? (isLost s) with
  | none => none
  | some (seq, _) =>
    match heldOf seq s with
    | none => none
    | some h =>
      if (nextMeasure h j.passes j.noC3 s).isSome then some (.recover seq)
      else some (.fault item (if h.notFound then 1 else 0) seq (if h.notFound then 0 else h.failed.headD 0) 0)

/-- The item that a fault in a directory names: the dataset's FIRST_ITEM where no entry of it was recovered (R273). -/
def faultItem (g : Geometry) (d : Dataset) (r : Nat) (s : State) : Nat :=
  if (subsetsAt g (g.body - 16 * d.entries) (16 * d.entries)).all fun k => isLost s (d.seq, k) then d.firstItem else r

/-- Bytes of a record with their trust, in order. -/
def recordPieces (j : ReadJob) (r : Nat) (fs : List FrameAt) (s : State) : List (List Byte × Bool) :=
  ((openFrames j.ctx s [] fs).zip (markUntrusted j.ctx j.tags s false fs)).map fun p => (spanBytes j.chain r p.1, p.2.2)

/-- Its blocks all decode: every byte of it is there (05 R141). -/
def decodes (j : ReadJob) (r len : Nat) (fs : List FrameAt) (s : State) : Bool :=
  (openFrames j.ctx s [] fs).length == fs.length && (recordPieces j r fs s).foldl (fun n p => n + p.1.length) 0 == len

/-- A record's frames against the tape, the key and the blocks (R163, R273, 05 R141). -/
def recordStop (j : ReadJob) (r len : Nat) (d : Dataset) (fs : List FrameAt) (s : State) : Option ReadStop :=
  match lostStop j r (fs.flatMap (frameNeeds (geometry j.atf1) j.chain)) s with
  | some x => some x
  | none =>
    match fs.find? fun f => !keyFits j.ctx j.atf1 f.frame s with
    | some f => some (.fault r 3 f.ds.seq 0 f.frame.label)
    | none => if s.tec.badBlocks.contains (j.jsn, r) || !decodes j r len fs s then some (.fault r 2 d.seq 0 0) else none

/-- Frames that a stopped record leaves with a tag check to complete: those decrypted up to the block that failed (06 R174). -/
def stoppedFrames (j : ReadJob) (fs : List FrameAt) (s : State) : ReadStop → List FrameAt
  | .fault _ 2 _ _ _ => (openFrames j.ctx s [] fs).map (·.1)
  | _ => []

/-- Untrusted ranges from an offset on. -/
def badRanges : Nat → List (List Byte × Bool) → List (Nat × Nat)
  | _, [] => []
  | off, (b, u) :: t => (if u && !b.isEmpty then [(off, b.length)] else []) ++ badRanges (off + b.length) t

/-- A read descriptor (04 Table 4-7). -/
def descriptor (r len : Nat) (untrusted chained : Bool) : List Byte :=
  leBytes 8 r ++ leBytes 8 (len + boolNat untrusted * 2 ^ 32 + boolNat chained * 2 ^ 33)

/-- Records are delivered from a position (R110); the first argument bounds the records. -/
def readWalk (j : ReadJob) (s : State) : Nat → ReadAcc → ReadStop × ReadAcc
  | 0, a => (.count, a)
  | n + 1, a =>
    match (if j.eod ≤ a.pos then none else findItem j.chain a.pos) with
    | none => (.endOfData, a)
    | some (d, it) =>
      match lostStop j (faultItem (geometry j.atf1) d a.pos s) (entryNeeds (geometry j.atf1) d a.pos) s with
      | some x => (x, a)
      | none =>
        if it.kind = 2 then (.filemark, { a with pos := a.pos + 1 })
        else if j.total ≤ a.bytes.length ∧ 1 ≤ it.length then (.listFull, a)
        else
          let fs := recordFrames j.chain d a.pos it.length
          match recordStop j a.pos it.length d fs s with
          | some x => (x, { a with frames := a.frames ++ stoppedFrames j fs s x })
          | none =>
            let ps := recordPieces j a.pos fs s
            let bytes := ps.flatMap (·.1)
            let bad := badRanges a.bytes.length ps
            let room := j.total - a.bytes.length
            let big := decide (room < it.length)
            let a' := { a with n := a.n + 1, pos := a.pos + 1, bytes := a.bytes ++ bytes.take room, bad := a.bad ++ bad
                               descs := a.descs ++ descriptor a.pos it.length (!bad.isEmpty) big, frames := a.frames ++ fs }
            if big then (.overflow a.bytes.length (bytes.drop room) (shiftBad bad j.total), a') else readWalk j s n a'

/-! ### Delivery -/

/-- Bytes go to the list entries in order. -/
def scatter : List ListEntry → List Byte → State → State
  | [], _, s => s
  | _, [], s => s
  | e :: t, b :: l, s => scatter t ((b :: l).drop e.length) (hostStore e.address ((b :: l).take e.length) s)

/-- Adjacent ranges become one. -/
def mergeRuns : List (Nat × Nat) → List (Nat × Nat)
  | [] => []
  | (a, n) :: t =>
    match mergeRuns t with
    | (b, m) :: u => if a + n = b then (a, n + m) :: u else (a, n) :: (b, m) :: u
    | [] => [(a, n)]

/-- CPH_UNTRUSTED_RANGE for a run, in ranges of at most 2,097,152 bytes (06 R172); the first argument bounds them. -/
def untrustedRun (jsn : Nat) : Nat → Nat × Nat → State → State
  | 0, _, s => s
  | k + 1, (a, n), s =>
    if n = 0 then s
    else
      let m := min n 2097152
      untrustedRun jsn k (a + m, n - m) (raise evCphUntrustedRange jsn (a * 2 ^ 21 + (m - 1)) s)

/-- Tags that failed among the frames walked: counted once each; a repeat that passes was a transient fault of the first
lane (R170). -/
def countTag (jsn : Nat) (s : State) (t : TagFailure) : State :=
  let s := { s with cph := { s.cph with tagFails := sat64 s.cph.tagFails 1 } }
  if t.lasting then s else markRetried jsn (laneTransient (16 + t.lane) unCipher s)

def countTags (j : ReadJob) (fs : List FrameAt) (s : State) : State :=
  ((fs.eraseDups).filterMap fun f => tagOf j.ctx j.tags f s).foldl (countTag j.jsn) s

/-- The decryption of a read's frames runs on the engine's lanes in class 2 (06 R167). -/
def decryptLanes (fs : List FrameAt) (s : State) : State :=
  (fs.eraseDups.filter fun f => f.frame.alg != 0).foldl (fun s _ => match laneFor 2 s with
    | some n => runOnLane n s
    | none => s) s

/-- What a delivery writes and reports: list bytes, descriptors, untrusted ranges. -/
def deliverRead (j : ReadJob) (list : List ListEntry) (desc : Nat) (a : ReadAcc) (s : State) : State :=
  let s := scatter list a.bytes s
  let s := if a.descs.isEmpty then s else hostStore desc a.descs s
  let s := countTags j a.frames (decryptLanes a.frames s)
  let s := (mergeRuns a.bad).foldl (fun s r => untrustedRun j.jsn (r.2 / 2097152 + 1) r s) s
  if a.bad.isEmpty then s else setRun j.jsn (fun r => { r with untrusted := true }) s

/-- The status of a read that delivered untrusted bytes (R173). -/
def trustedStatus (st : Nat) (a : ReadAcc) : Nat := if st = stOk ∧ !a.bad.isEmpty then stUntrusted else st

/-! ### Datasets that a read touches (R264, R266, R268) -/

/-- Chain positions read for items r to the one before pos: from the position before the first holder to the end of the
last one's window. -/
def spanOf (l : List Dataset) (r pos : Nat) : List Dataset :=
  let holds := fun (n : Nat) (d : Dataset) => decide (d.firstItem ≤ n) && decide (n < d.firstItem + itemCount d)
  let i := (indexOf? (holds r) l).getD l.length
  let last := (findItem l (pos - 1)).elim i fun d => (indexOf? (·.seq == d.1.seq) l).getD i
  let hi := (max i last) + 17
  (l.take hi).drop (i - 1)

/-- The span is counted; datasets from the next position on stay held, at most 24. -/
def noteSpan (j : ReadJob) (start pos : Nat) (ended : Bool) (s : State) : State :=
  let span := spanOf j.chain start pos
  let new := span.filter fun d => !s.tec.buffers.contains d.seq
  let left := (new.map fun d => (heldOf d.seq s).elim 0 fun h => h.failed.length).foldl (· + ·) 0
  let next := (findItem j.chain pos).elim 0 (·.1.seq)
  let keep := ((span.filter fun d => !isReplaced j.chain d && next ≤ d.seq).map (·.seq)).take 24
  { s with tec := { s.tec with
    rdDatasets := sat64 s.tec.rdDatasets new.length
    rdSuperseded := sat64 s.tec.rdSuperseded (new.filter (isReplaced j.chain)).length
    rdUnneeded := if ended then s.tec.rdUnneeded else sat64 s.tec.rdUnneeded left
    buffers := keep } }

/-- User bytes delivered, and the step that speed matching decides for them (13 R347); the tape then stands. -/
def readSpeed (n : Nat) (s : State) : State :=
  let s := decideAt false false { s with spm := { s.spm with mode := 2, outSince := s.spm.outSince + n } }
  { s with spm := { s.spm with mode := 0, chosen := 0x1F, commandCap := 24 } }

/-- The tape is no longer in use by a read. -/
def endReading (jsn : Nat) (s : State) : State :=
  let s := endMeasure s
  { s with tec := { s.tec with rdActive := false, badBlocks := s.tec.badBlocks.filter (·.1 != jsn) } }

/-- TEC_READ_MEDIA_ERR, TEC_RD_FAULT and TEC_RD_FAULT_SFN (R274); what is held of the failed dataset is given up. -/
def readFault (jsn : Nat) (chain : List Dataset) (cause seq subset : Nat) (s : State) : State :=
  let d := chain.find? (·.seq == seq)
  let w := seq + (d.elim 0 (·.wrap)) * 2 ^ 48 + subset * 2 ^ 56 + (d.elim 0 (·.partition)) * 2 ^ 60 + cause * 2 ^ 62
  raise evTecReadMediaErr jsn w { s with tec := { s.tec with
    rdFault := wd w, rdFaultSfn := d.elim 0 (·.sfn)
    rdMediaErr := if cause ≤ 1 then sat64 s.tec.rdMediaErr 1 else s.tec.rdMediaErr
    held := s.tec.held.filter (·.failed.isEmpty) } }

/-! ### Chained buffers (05 R137-R139) -/

/-- Buffers of 1 MiB from the Porter, at most a count, until it has none. -/
def takeChain : Nat → State → List Word × State
  | 0, s => ([], s)
  | n + 1, s =>
    match porterTry 4 1048576 s with
    | none => ([], s)
    | some (h, s) => match takeChain n s with
      | (l, s) => (h :: l, s)

/-- The buffers hold the rest of a record. -/
def addChained (ctx : Nat) (left : List Byte) (bad : List (Nat × Nat)) (h : Word) (t : List Word) (s : State) : State :=
  let room := 1048576 * (t.length + 1)
  let c : Chained :=
    { handle := h, bufs := h :: t, ctx := ctx, bytes := left.take room, truncated := decide (room < left.length), bad := bad
      taken := 0, sound := none }
  { s with pkr := { s.pkr with chained := s.pkr.chained ++ [c] } }

/-- The rest of a record goes into a chained buffer; none: no first buffer. -/
def chainRest (ctx : Nat) (left : List Byte) (bad : List (Nat × Nat)) (s : State) : Option (Word × State) :=
  if 64 ≤ s.pkr.chained.length then none
  else
    match takeChain (min 64 ((left.length + 1048575) / 1048576)) s with
    | ([], _) => none
    | (h :: t, s) => some (h, addChained ctx left bad h t s)

/-! ### READ_RECORDS -/

/-- PASSES and NO_C3 of a read (R275, R280). -/
def readSettings (e : JournalEntry) (s : State) : Nat × Bool :=
  if !entryExpert e then (if s.cmd.compatActive then 2 else 4, false)
  else if entryOp e = opReadRecords then (bits (pktWord e 5) 0 4, bitAt (pktWord e 5) 4)
  else (bits (pktWord e 3) 32 4, bitAt (pktWord e 3) 36)

def readJob (e : JournalEntry) (total : Nat) (tags : List TagFailure) (c : Cartridge) (s : State) : ReadJob :=
  let p := (getCtx (entryCtx e) s).partition
  let set := readSettings e s
  { jsn := e.jsn, ctx := entryCtx e, chain := chainOf c p, atf1 := mediaType c == 0x81, eod := eodOf p s, total := total
    passes := set.1, noC3 := set.2, tags := tags }

/-- The read waits while a dataset is recovered (R269). -/
def waitRecovery (e : JournalEntry) (j : ReadJob) (seq : Nat) (s : State) : State :=
  let s := waitRun e.jsn { s with
    tec := { s.tec with rdActive := true }, spm := { s.spm with commandCap := maxStepOf e, mode := 2 } }
  if (s.tec.recovering.any (·.1 == seq)) then s else recover seq j.passes j.noC3 s

/-- A read has ended at a position: counts, speed, POSITION. -/
def settleRead (j : ReadJob) (start : Nat) (a : ReadAcc) (ended : Bool) (s : State) : State :=
  let s := readSpeed a.bytes.length (noteSpan j start a.pos ended (endReading j.jsn s))
  let s := if start = a.pos then s else atWrap ((findItem j.chain (a.pos - 1)).elim (s.cart.wrap.getD 0) (·.1.wrap)) s
  setCtx j.ctx (fun x => { x with position := a.pos }) s

/-- Bytes with no stated value. -/
def openBytes (n : Nat) (s : State) : List Byte := (List.range n).map fun i => Config.freeByte (65536 * s.freeCount + i)

/-- What NO_BUFFER leaves of a delivery: the record in part at the list's end is not delivered, and the list bytes behind the last
delivered one have no stated value (05 R138; log entry 54). -/
def withoutLast (start : Nat) (a : ReadAcc) (s : State) : ReadAcc :=
  { a with
    n := a.n - 1, pos := a.pos - 1, descs := a.descs.take (16 * (a.n - 1))
    bytes := a.bytes.take start ++ openBytes (a.bytes.length - start) s, bad := a.bad.filter fun p => decide (p.1 < start) }

/-- A block of a record has failed twice, and no lane's report of it has been counted: PKR_DECODE_ERR (05 R141). -/
def blockFault (jsn item cause : Nat) (s : State) : State :=
  if cause = 2 ∧ ¬ s.tec.badBlocks.contains (jsn, item) then
    raiseN evPkrDecodeErr { s with pkr := { s.pkr with decodeErrs := sat64 s.pkr.decodeErrs 1 } }
  else s

/-- The end of a read (04 Table 4-8, 10 R273). -/
def endRead (e : JournalEntry) (list : List ListEntry) (j : ReadJob) (start : Nat) (stop : ReadStop) (a : ReadAcc) (s : State) :
    State :=
  let desc := (pktWord e 4).toNat
  let plain := fun (st : Nat) (s : State) =>
    endWith e.jsn (trustedStatus st a) a.n a.pos (settleRead j start a false (deliverRead j list desc a s))
  match stop with
  | .recover seq => waitRecovery e j seq s
  | .count | .listFull => plain stOk s
  | .filemark => plain stFilemarkReached s
  | .endOfData => plain stEndOfData s
  | .overflow first left bad =>
    match chainRest j.ctx left bad s with
    | some (h, s) => endWith e.jsn stOverflowChained a.n h.toNat (settleRead j start a false (deliverRead j list desc a s))
    | none =>
      let a' := withoutLast first a s
      let s := if s.pkr.chained.length < 64 then noBuffer 4 1048576 s else s
      endR0 e.jsn stNoBuffer a'.n (settleRead j start a' false (deliverRead j list desc a' (drawFree s)))
  | .fault item cause seq subset label =>
    let s := settleRead j start { a with pos := item } true (deliverRead j list desc a (blockFault e.jsn item cause s))
    let s := if cause = 3 then raise evCphKeyMismatch (Config.freeNat s.freeCount) label (drawFree s) else s
    endWith e.jsn stMediaError a.n item (readFault e.jsn j.chain cause seq subset s)

/-- The length of the record at POSITION (R110, COUNT 0). -/
def peekLength (j : ReadJob) (pos : Nat) : Nat :=
  match (if j.eod ≤ pos then none else findItem j.chain pos) with
  | some (_, it) => if it.kind = 2 then 0xFFFFFFFFFFFFFFFF else it.length
  | none => 0xFFFFFFFFFFFFFFFF

def startAcc (pos : Nat) : ReadAcc := { n := 0, pos := pos, bytes := [], descs := [], bad := [], frames := [] }

/-- READ_RECORDS (04 R110). Untrusted bytes are not delivered while their events would be held back (03 R474; log entry 54). -/
def execReadRecords (jsn : Nat) (tags : List TagFailure) (s : State) : Out :=
  .next <| onTape opReadRecords jsn s fun e r s =>
    let x := getCtx (entryCtx e) s
    withPartition e x.partition s fun c s =>
      let list := r.list
      let j := readJob e (sumNat (list.map (·.length))) tags c s
      let count := bits (pktWord e 1) 32 32
      if count = 0 then endWith jsn stOk 0 (peekLength j x.position) s
      else
        match readWalk j s (min count (j.eod - x.position + 1)) (startAcc x.position) with
        | (stop, a) =>
          let stop := if stop = .count ∧ a.n < count then .endOfData else stop
          if heldBack s && !a.bad.isEmpty then waitRun jsn s else endRead e list j x.position stop a s

/-- A read whose abort is recorded while it waits: what lies before the dataset in recovery is delivered (03 R78). -/
def abortRead (e : JournalEntry) (r : RunInfo) (s : State) : State :=
  let x := getCtx (entryCtx e) s
  match loadedCart s with
  | none => endWith e.jsn stAbortedByHost 0 x.position s
  | some c =>
    let j := readJob e (sumNat (r.list.map (·.length))) [] c s
    if !s.tec.rdActive then endWith e.jsn stAbortedByHost 0 x.position s
    else
      match readWalk j s (min (bits (pktWord e 1) 32 32) (j.eod - x.position + 1)) (startAcc x.position) with
      | (_, a) =>
        endR0 e.jsn stAbortedByHost a.n (settleRead j x.position a true (deliverRead j r.list (pktWord e 4).toNat a s))

/-! ### VERIFY_RANGE (R276-R278) -/

/-- What a verify has gathered: items, position, datasets examined, frames with a byte of a record of the range. -/
structure VerifyAcc where
  n      : Nat
  pos    : Nat
  seqs   : List Nat
  frames : List FrameAt
  deriving DecidableEq, Repr

/-- Every sub-dataset of a dataset. -/
def wholeNeeds (d : Dataset) : List (Nat × Nat) := (List.range 16).map fun k => (d.seq, k)

/-- Items are checked from a position; the first argument bounds them. -/
def verifyWalk (j : ReadJob) (s : State) : Nat → VerifyAcc → ReadStop × VerifyAcc
  | 0, a => (.count, a)
  | n + 1, a =>
    match (if j.eod ≤ a.pos then none else findItem j.chain a.pos) with
    | none => (.endOfData, a)
    | some (d, it) =>
      let fs := if it.kind = 2 then [] else recordFrames j.chain d a.pos it.length
      let g := geometry j.atf1
      match lostStop j (faultItem g d a.pos s) (wholeNeeds d ++ fs.flatMap (frameNeeds g j.chain)) s with
      | some x => (x, { a with seqs := a.seqs ++ [d.seq] })
      | none =>
        let open_ := fs.all fun f => keyFits j.ctx j.atf1 f.frame s
        if s.tec.badBlocks.contains (j.jsn, a.pos) || (open_ && !decodes j a.pos (if it.kind = 2 then 0 else it.length) fs s) then
          (.fault a.pos 2 d.seq 0 0, { a with seqs := a.seqs ++ [d.seq] })
        else
          let own := fs.filter fun f => holdsRecord j.chain a.pos f
          verifyWalk j s n { n := a.n + 1, pos := a.pos + 1, seqs := a.seqs ++ d.seq :: fs.map (·.ds.seq), frames := a.frames ++ own }

/-- Frames whose tags a verify checks: the slot's label is the frame's (R276). -/
def checkedFrames (j : ReadJob) (fs : List FrameAt) (s : State) : List FrameAt :=
  fs.eraseDups.filter fun f => f.frame.alg != 0 && keyFits j.ctx j.atf1 f.frame s

def uncheckedFrames (j : ReadJob) (fs : List FrameAt) (s : State) : List FrameAt :=
  fs.eraseDups.filter fun f => f.frame.alg != 0 && !keyFits j.ctx j.atf1 f.frame s

/-- Statistics of a dataset; those of one of which nothing is recorded are open: free values. -/
def statsOf (seq : Nat) (s : State) : DecodeStats :=
  match heldOf seq s with
  | some h => h.stats
  | none =>
    let v := fun k => Config.freeNat (8 * (s.freeCount + seq) + k)
    { noStats with maxIter := 1 + v 0 % s.tec.readIter, worstFlips := v 1 % 2048, worstWeak := v 2 % 2048 }

/-- A report entry (Table 10-7). -/
def reportEntry (j : ReadJob) (fs : List FrameAt) (s : State) (d : Dataset) : List Byte :=
  let h := heldOf d.seq s
  let o := statsOf d.seq s
  let flags := boolNat d.rewritten + boolNat (h.any (·.c3Used)) * 2 + boolNat (h.any (·.retried)) * 4
    + boolNat (h.any fun h => !h.failed.isEmpty) * 8
    + boolNat ((uncheckedFrames j fs s).any fun f => f.ds.seq == d.seq) * 16
  let tags := ((checkedFrames j fs s).filter fun f => f.ds.seq == d.seq && (tagOf j.ctx j.tags f s).any (·.lasting)).length
  leBytes 6 d.seq ++ [b8 d.partition, b8 flags] ++ leBytes 8 d.firstItem ++ leBytes 2 o.c1Invalid ++ leBytes 2 o.copiesUsed
    ++ leBytes 4 o.c2Symbols ++ [b8 o.outer, b8 o.maxIter, b8 (h.elim 0 (·.passes)), b8 (min 255 tags)]
    ++ leBytes 2 o.worstFlips ++ leBytes 2 o.worstWeak

/-- The report of the expert form (R278): entries stop at REPORT_LEN. -/
def verifyReport (e : JournalEntry) (j : ReadJob) (a : VerifyAcc) (s : State) : State :=
  let len := bits (pktWord e 3) 0 32
  if !entryExpert e || len = 0 then s
  else
    let ds := (deliveredOf j.chain).filter fun d => a.seqs.contains d.seq
    let fit := ds.take ((len - 16) / 32)
    let body := leBytes 8 ds.length ++ leBytes 8 0 ++ fit.flatMap (reportEntry j a.frames s)
    hostStore (pktWord e 2).toNat body s

/-- The end of VERIFY_RANGE (Table 10-6). -/
def endVerify (e : JournalEntry) (j : ReadJob) (start : Nat) (stop : ReadStop) (a : VerifyAcc) (s : State) : State :=
  let acc : ReadAcc := { startAcc start with pos := a.pos }
  let checked := checkedFrames j a.frames s
  let tagBad := checked.any fun f => (tagOf j.ctx j.tags f s).any (·.lasting)
  let finish := fun (st : Nat) (s : State) =>
    let st := if tagBad then stUntrusted else st
    endWith e.jsn st a.n a.pos (settleRead j start acc false (countTags j checked (decryptLanes checked (verifyReport e j a s))))
  match stop with
  | .recover seq => waitRecovery e j seq s
  | .fault item cause seq subset _ =>
    let s := blockFault e.jsn item cause (decryptLanes checked (verifyReport e j a s))
    let s := settleRead j start { acc with pos := item } true (countTags j checked s)
    endWith e.jsn stMediaError a.n item (readFault e.jsn j.chain cause seq subset s)
  | .endOfData => finish stEndOfData s
  | _ => finish stOk s

/-- VERIFY_RANGE (10 R276, R277). -/
def execVerifyRange (jsn : Nat) (tags : List TagFailure) (s : State) : Out :=
  .next <| onTape opVerifyRange jsn s fun e _ s =>
    let x := getCtx (entryCtx e) s
    let count := bits (pktWord e 1) 32 32
    if count = 0 then endWith jsn stOk 0 x.position s
    else
      withPartition e x.partition s fun c s =>
        let j := readJob e 0 tags c s
        match verifyWalk j s (min count (j.eod - x.position + 1)) { n := 0, pos := x.position, seqs := [], frames := [] } with
        | (stop, a) =>
          let stop := if stop = .count ∧ a.n < count then .endOfData else stop
          endVerify e j x.position stop a s

/-- A VERIFY_RANGE whose abort is recorded while it waits ends at the dataset boundary before the one in recovery (03
Table 3-10a). -/
def abortVerify (e : JournalEntry) (s : State) : State :=
  let x := getCtx (entryCtx e) s
  match loadedCart s with
  | none => endR0 e.jsn stAbortedByHost 0 s
  | some c =>
    let j := readJob e 0 [] c s
    if !s.tec.rdActive then endR0 e.jsn stAbortedByHost 0 s
    else
      match verifyWalk j s (min (bits (pktWord e 1) 32 32) (j.eod - x.position + 1))
          { n := 0, pos := x.position, seqs := [], frames := [] } with
      | (_, a) => endR0 e.jsn stAbortedByHost a.n (settleRead j x.position { startAcc x.position with pos := a.pos } true s)

end Sys2Proof.Machine
end

