-- ==== Sys2Proof/Machine/DroverRows.lean ====
section
/-! DEFINITION. The Drover's expert commands (12 R324-R328), its registers that act when written (12 R308, R309, R317,
R329, R331), the safe stop and its retry (13 R342-R344), servo loss (13 R346), servo lock (01 R14), and the commit groups
of the transport monitor and of speed matching (13 R350). -/

namespace Sys2Proof.Machine

/-! ### Write commands that end at once (01 R29) -/

def giveUpDataset (s : State) (d : WrittenDataset) : State :=
  if isAlive d then dropDataset d (if d.written then retract d 3 s else s)
  else { s with fmt := { s.fmt with active := s.fmt.active.filter (·.ds.seq != d.ds.seq) } }

/-- What a partition has in the pipeline and not released is given up; a run of 09 R255 is owed when some of it is on
tape. -/
def giveUp (s : State) (p : Nat) : State :=
  let mine := s.fmt.active.filter (·.ds.partition == p)
  let owe := mine.any (·.written) || s.fmt.owed.getD p false || (s.fmt.truncate.getD p none).isSome || reachesOn p s
  let s := cutEnd p (s.fmt.durableEnd.getD p 0) (dropAssembled p (mine.foldl giveUpDataset s))
  { s with fmt := { s.fmt with
    owed := s.fmt.owed.set p owe, truncate := s.fmt.truncate.set p none, truncRun := s.fmt.truncRun.set p false
    c3Groups := s.fmt.c3Groups.filter (·.partition != p) } }

/-- Write commands end at once with a status and their durable counts: their other records are on tape in no copy that a
read delivers. Other commands of the partitions place their items that are not durable again. -/
def endWritesNow (js : List Nat) (st : Nat) (r1 : Option Nat) (s : State) : State :=
  let ps := (List.range 4).filter fun p => s.fmt.writes.any fun w => w.partition == p && js.contains w.jsn
  let s := ps.foldl giveUp s
  let again := fun (w : WriteRun) => if ps.contains w.partition && !js.contains w.jsn && w.ending.isNone then replaceRun w else w
  let s := fitAll { s with fmt := { s.fmt with writes := s.fmt.writes.map again } }
  let s := js.foldl (fun s j => match findWrite j s with
    | some w => finishWrite { w with placedItems := w.durable } st (r1.getD (firstResult w)) s
    | none => s) s
  settleWrites s

/-- Write commands that have items and no end yet. -/
def openWrites (s : State) : List Nat := (s.fmt.writes.filter fun w => w.ending.isNone && itemTotal w != 0).map (·.jsn)

/-- The tape can no longer be used: the run ends where it is, and write commands that have begun end. -/
def loseTape (st : Nat) (s : State) : State :=
  let s := interruptRun s
  endWritesNow (openWrites s) st none s

/-! ### Expert commands -/

/-- The value of a finite IEEE 754 binary64. -/
def doubleValue (w : Word) : Rat :=
  let e := bits w 52 11
  let m := bits w 0 52
  let v : Rat := if e = 0 then (m : Rat) * pow2 (-1074) else ((2 ^ 52 + m : Nat) : Rat) * pow2 ((e : Int) - 1075)
  if bitAt w 63 then -v else v

/-- LOOP of word 1. -/
def jobLoop (e : JournalEntry) : Nat := bits (pktWord e 1) 0 5

def mkJob (e : JournalEntry) (target : Int) (s : State) : DrvJob :=
  { jsn := e.jsn, loop := jobLoop e, start := s.sys.tickCount.toNat, at_ := s.aon.time, target := target }

/-- The section that DRV_SET_SECTION gives (R325). -/
def setSectionOf (e : JournalEntry) : Section :=
  let v := fun i => doubleValue (pktWord e i)
  sectionOf (v 2) (v 3) (v 4) (v 5) (v 6)

/-- DRV_SET_SECTION (12 R325, 13 R339): the section waits for Drover cycle 10 of the next tick. -/
def execDrvSetSection (jsn : Nat) (s : State) : Out :=
  .next <| onBegin 0x60 jsn s fun e _ s =>
    needUnits [unDrover] jsn s fun s =>
      let c := setSectionOf e
      let s := setLoop (jobLoop e) (fun l => { l with
        loads := l.loads ++ [(bits (pktWord e 1) 8 3, c)], hostCoef := true }) (startRun jsn s)
      { s with drv := { s.drv with sets := s.drv.sets ++ [mkJob e c.exp s] } }

/-- DRV_SET_MODE (12 R326): the request waits for Drover cycle 10; the job keeps the mode in force before. It runs with no
cartridge too (DESIGN CHOICE, log entry 56). -/
def execDrvSetMode (jsn : Nat) (s : State) : Out :=
  .next <| onTape 0x61 jsn s fun e _ s =>
    let m := bits (pktWord e 1) 8 2
    let old := (getLoop (jobLoop e) s).mode
    let s := setLoop (jobLoop e) (fun l => { l with modeReq := m }) (startRun jsn s)
    { s with drv := { s.drv with modes := s.drv.modes ++ [{ mkJob e m s with at_ := old }] } }

/-- TARGET of DRV_MOVE. -/
def moveTarget (e : JournalEntry) : Int := fromTwos 24 (bits (pktWord e 2) 0 24)

/-- DRV_MOVE (12 R327). It runs with no cartridge too (DESIGN CHOICE, log entry 56). -/
def execDrvMove (jsn at_ : Nat) (s : State) : Out :=
  .next <| onTape 0x62 jsn (atTime at_ s) fun e _ s =>
    let s := setLoop (jobLoop e) (fun l => { l with targetNext := some (moveTarget e) }) (startRun jsn s)
    { s with drv := { s.drv with moves := s.drv.moves ++ [mkJob e (moveTarget e) s] } }

def dropMove (jsn : Nat) (s : State) : State :=
  { s with drv := { s.drv with moves := s.drv.moves.filter (·.jsn != jsn) } }

/-- TIMEOUT of DRV_MOVE in milliseconds. -/
def moveTimeout (e : JournalEntry) : Nat := bits (pktWord e 1) 32 16

/-- DRV_MOVE_TIMEOUT (12 R327). -/
def execDrvMoveTimeout (jsn at_ : Nat) (s : State) : Out :=
  .next <|
    let s := atTime at_ s
    match started 0x62 jsn s with
    | some (e, r) =>
      if moveTimeout e ≠ 0 ∧ passedMs r.since s.aon.time (moveTimeout e) = true then endR1 jsn stOk 1 (dropMove jsn s) else s
    | none => s

/-- DRV_CAPTURE (12 R328): records begin with the next tick. -/
def execDrvCapture (jsn : Nat) (s : State) : Out :=
  .next <| onBegin 0x63 jsn s fun e _ s =>
    needUnits [unDrover] jsn s fun s =>
      if bits (pktWord e 3) 0 24 = 0 then endR0 jsn stOk 0 s
      else
        let s := setRun jsn (fun r => { r with done := 0 }) (startRun jsn s)
        { s with drv := { s.drv with captures := s.drv.captures ++ [mkJob e 0 s] } }

/-! ### The commands at a tick -/

/-- Sections that were loaded: RESULT0 holds E. -/
def endSets (s : State) : State :=
  s.drv.sets.foldl (fun s j => endWith j.jsn stOk (toTwos 6 j.target) 0 s) { s with drv := { s.drv with sets := [] } }

/-- A mode that is in force: RESULT0 holds the output code applied, RESULT1 a bump. -/
def endMode (s : State) (j : DrvJob) : State :=
  let l := getLoop j.loop s
  if (l.mode : Int) ≠ j.target then s
  else
    let bump := l.bump && l.mode == 2 && j.at_ == 1
    endWith j.jsn stOk (codeParam l.output) (boolNat bump)
      { s with drv := { s.drv with modes := s.drv.modes.filter (·.jsn != j.jsn) } }

/-- A move whose TARGET is replaced, taken in (TIMEOUT 0) or reached. -/
def endMove (s : State) (j : DrvJob) : State :=
  let l := getLoop j.loop s
  let wait0 := (findEntry s j.jsn).any fun e => moveTimeout e == 0
  if l.target ≠ j.target then endR1 j.jsn stOk 2 (dropMove j.jsn s)
  else if wait0 then endWith j.jsn stOk 0 0 (dropMove j.jsn s)
  else if l.doneRaised then endWith j.jsn stOk (s.sys.tickCount.toNat - j.start) 0 (dropMove j.jsn s)
  else s

/-- The Drover commands that the changes of a tick end. -/
def droverJobs (s : State) : State :=
  let s := s.drv.modes.foldl endMode (endSets s)
  s.drv.moves.foldl endMove s

/-- A capture record (12 R328). The cycles from input to output are not stated for a case: a free value. -/
def captureRecord (j : DrvJob) (late : Bool) (s : State) : List Byte :=
  let l := getLoop j.loop s
  let f := fun (i : Int) => leBytes 4 (toTwos 32 i)
  leBytes 4 (s.sys.tickCount.toNat % 2 ^ 32) ++ f (roundShift (l.err24 + l.fbLast * 2 ^ 24) 24) ++ f l.fbLast
    ++ f (sat24 (errorMantissa l.err24 l.cfg.inExp)) ++ f l.code
    ++ leBytes 4 (boolNat l.missing + 2 * boolNat late + 4 * boolNat l.sat + 8 * boolNat l.clamp + 16 * l.mode)
    ++ leBytes 4 (Config.freeNat s.freeCount) ++ leBytes 4 0

def dropCapture (jsn : Nat) (s : State) : State :=
  { s with drv := { s.drv with captures := s.drv.captures.filter (·.jsn != jsn) } }

/-- The record of the tick that ends at this edge. -/
def captureOne (unfinished : List Nat) (s : State) (j : DrvJob) : State :=
  match findEntry s j.jsn, findRun s j.jsn with
  | some e, some r =>
    if s.sys.tickCount.toNat ≤ j.start then s
    else
      let s := hostStore ((pktWord e 2).toNat + 32 * r.done) (captureRecord j (overruns unfinished j.loop s) s) s
      let s := setRun j.jsn (fun r => { r with done := r.done + 1 }) (addBusy 16 (drawFree s))
      if r.done + 1 < bits (pktWord e 3) 0 24 then s
      else
        endR0 j.jsn stOk (r.done + 1) (dropCapture j.jsn s)
  | _, _ => s

/-- Records of all captures, before the changes of the edge. -/
def captureTick (unfinished : List Nat) (s : State) : State := s.drv.captures.foldl (captureOne unfinished) s

/-! ### Registers that act when written -/

/-- DRV_COMMIT_WRITE (12 R329). -/
def execDrvCommitWrite (s : State) : Out :=
  .next <| onMmio s { s with drv := { s.drv with commit := { s.drv.commit with pending := true } } }

/-- A coefficient register of a section takes a value: B0, B1, B2, A1, A2, EXP. -/
def setCoef (reg : Nat) (value : Word) (c : Section) : Section :=
  let m := fromTwos 24 (bits value 0 24)
  if reg = 0 then { c with b0 := m }
  else if reg = 1 then { c with b1 := m }
  else if reg = 2 then { c with b2 := m }
  else if reg = 3 then { c with a1 := m }
  else if reg = 4 then { c with a2 := m }
  else { c with exp := fromTwos 6 (bits value 0 6) }

/-- Offset of a section register (12 Table 12-9). -/
def coefOffset (loop sec reg : Nat) : Nat := 0x00A01000 + loop * 0x400 + 0x100 + sec * 0x40 + reg * 8

/-- DRV_COEF_WRITE (12 R308, R331, 13 R339). -/
def execDrvCoefWrite (loop sec reg : Nat) (value : Word) (s : State) : Out :=
  .next <| onMmio s <|
    let l := getLoop loop s
    if 6 ≤ reg then s
    else if s.cmd.compatActive && (l.mode == 2 || l.modeReq == 2) then
      raise evDrvCoefRefused loop (coefOffset loop sec reg) s
    else setLoop loop (fun l => { l with hostCoef := true, sections := l.sections.modify sec (setCoef reg value) }) s

/-- DRV_MODE_WRITE (12 Table 12-8, R317): MODE 3 is ignored. -/
def execDrvModeWrite (loop : Nat) (value : Word) (s : State) : Out :=
  .next <| onMmio s <|
    let m := bits value 0 2
    setLoop loop (fun l => { l with modeReq := if m = 3 then l.modeReq else m, manOut := fromTwos 24 (bits value 8 24) }) s

/-- DRV_TARGET_WRITE (12 R309). -/
def execDrvTargetWrite (loop : Nat) (value : Word) (s : State) : Out :=
  .next <| onMmio s (setLoop loop (fun l => { l with targetNext := some (fromTwos 24 (bits value 0 24)) }) s)

/-- DRV_MON_COMMIT_WRITE (13 R350). -/
def execDrvMonCommitWrite (s : State) : Out :=
  .next <| onMmio s { s with mon := { s.mon with commit := { s.mon.commit with pending := true } } }

/-- SPM_COMMIT_WRITE (13 R350). -/
def execSpmCommitWrite (s : State) : Out :=
  .next <| onMmio s { s with spm := { s.spm with commit := { s.spm.commit with pending := true } } }

/-- Checks of DRV_MON_CFG (R350). -/
def monCfgOk (c : MonCfg) : Bool :=
  c.stuckTicks != 0 && c.agree != 0 && c.tenAgree != 0 && c.releaseTicks != 0 && c.offtrackNm != 0

/-- Transfer of DRV_MON_CFG at core cycle 16. -/
def monTransfer (s : State) : State :=
  if !s.mon.commit.pending then s
  else if monCfgOk s.mon.shadow then { s with mon := { s.mon with cfg := s.mon.shadow, commit := .none } }
  else raiseN evDrvMonCfgErr { s with mon := { s.mon with shadow := s.mon.cfg, commit := { pending := false, err := true } } }

/-- Checks of SPM_CFG (R350). -/
def spmCfgOk (c : SpmCfg) : Bool :=
  c.maxStep ≤ 24 && c.fLow < c.fHigh && c.fHigh ≤ c.fRestart && c.hLow < c.hHigh && c.hHigh ≤ 23 && c.hyst ≤ 4

/-- Transfer of SPM_CFG at core cycle 16. -/
def spmTransfer (s : State) : State :=
  if !s.spm.commit.pending then s
  else if spmCfgOk s.spm.shadow then { s with spm := { s.spm with cfg := s.spm.shadow, commit := .none } }
  else raiseN evSpmCfgErr { s with spm := { s.spm with shadow := s.spm.cfg, commit := { pending := false, err := true } } }

/-! ### Eager work -/

/-- A safe stop that has begun in a row ends the writing run (13 R344); a Drover that it marks degraded ends the writes
(R343). -/
def stopRunIfStopped (was : Bool) (s : State) : State :=
  if s.drv.safeStop && !was then
    let s := interruptRun s
    if tapeDown s then loseTape stUnitDegraded s else s
  else s

/-- The posted measurements, combined over the channels in service (R335). -/
def postedSources (m : List (Nat × Int)) (s : State) : List (Nat × Int) :=
  servoSources ((List.range 4).map fun i => lookup (8 + i) m) s

/-- SERVO_MEASUREMENT_POST (12 R311, R315; 13 R345). -/
def execServoMeasurementPost (m : List (Nat × Int)) (_cycle : Nat) (s : State) : Out :=
  .next <|
    if s.sys.phase = .off then s
    else stopRunIfStopped s.drv.safeStop (checkOfftrack (postAll (postedSources m s) s))

/-- DAC_WRITE_DONE (12 R311). -/
def execDacWriteDone (s : State) : Out := .next (stopRunIfStopped s.drv.safeStop (dacDone s))

/-! ### Safe stop (13 R342-R344) -/

/-- DIAG SAFE_STOP (17 R447). -/
def execDiagSafeStop (jsn : Nat) (s : State) : Out :=
  .next <|
    if !(findEntry s jsn).any fun e => diagFunction e.words == 1 then s
    else onTape opDiag jsn s fun _ _ s => stopRunIfStopped s.drv.safeStop (safeStop 0x3F causeDiag (startRun jsn s))

/-- DIAG SAFE_STOP commands that wait for the stop end with OK. -/
def endDiagStops (s : State) : State :=
  (s.jrn.entries.filter fun e => entryOp e == opDiag && diagFunction e.words == 1).foldl (fun s e =>
    match findRun s e.jsn with
    | some r => if r.phase = .started then endBare e.jsn stOk s else s
    | none => s) s

/-- The stop's end is reached: slower than 50 mm/s for 100 ms, or the computed time of the open-loop form. -/
def stopReached (s : State) : Bool :=
  s.mon.openLoop || (match s.mon.slowFrom with
    | some t => passedMs t s.aon.time 100
    | none => false)

/-- SAFE_STOP_END (13 R342): the retry follows. -/
def execSafeStopEnd (at_ : Nat) (s : State) : Out :=
  .next <|
    let s := atTime at_ s
    if !s.drv.safeStop || s.sys.phase != .running || !stopReached s then s
    else
      let s := { s with drv := { s.drv with safeStop := false }, mon := { s.mon with stopped := true } }
      let s := if unitState unTransport s = 0 then setUnit unTransport 1 0 s else s
      endDiagStops (raiseN evDrvSafeStopDone s)

/-- A sensor that was failed passes its checks again. -/
def sensorPass (n : Nat) (s : State) : State :=
  let s := setSensor n (fun x => { x with state := 0, count := 0, count2 := 0, count3 := 0 }) s
  if unitState (sensorUnit n) s = 1 then setUnit (sensorUnit n) 0 0 s else s

/-- A sensor that fails in the retry as well is lasting (R343); encoders that are both UNDECIDED stay so. -/
def sensorLasts (n : Nat) (both : Bool) (s : State) : State :=
  let s := setSensor n (fun x => { x with state := if both then 3 else 2 }) s
  raiseP evDrvSensorLasting n (setUnit (sensorUnit n) 2 0 s)

/-- The verdict on one of the encoders and the tension transducer. -/
def retrySensor (failed : List Nat) (both : Bool) (s : State) (n : Nat) : State :=
  let st := sensorState n s
  if st = 1 ∨ st = 3 then
    if failed.contains n then sensorLasts n (both && st == 3) s else sensorPass n s
  else s

/-- Loop 0 takes the limits of Table 13-2 again and runs in AUTO; a current loop that stood in MANUAL does too. -/
def restoreLoops (s : State) : State :=
  let d := defaultCfg 0
  let s := setLoop 0 (fun l => { l with cfg := { l.cfg with amax := d.amax, jmax := d.jmax }, modeReq := 2 }) s
  (List.range 2).foldl (fun s i =>
    if (s.mon.currents.getD i (0, false)).2 then setLoop (2 + i) (fun l => { l with modeReq := 2 }) s else s) s

/-- Commands that waited through the stop report OK_RETRIED (R344). -/
def markWaiters (s : State) : State :=
  (s.jrn.entries.filter usesTape).foldl (fun s e => match findRun s e.jsn with
    | some r => if r.phase = .started ∨ r.phase = .waiting then markRetried e.jsn s else s
    | none => s) s

/-- SAFE_STOP_RETRY (13 R343). `failed`: sensors that fail a check while the tape moves for 200 ms. -/
def execSafeStopRetry (failed : List Nat) (at_ : Nat) (s : State) : Out :=
  .next <|
    let s := atTime at_ s
    if !s.mon.stopped || s.sys.phase != .running then s
    else
      let before := (List.range 3).filter fun n => sensorState n s == 0
      let both := failed.contains 0 && failed.contains 1
      let s := markWaiters (restoreLoops s)
      let s := (List.range 3).foldl (retrySensor failed both) s
      let s := if unitState unTransport s = 1 then setUnit unTransport 0 0 s else s
      let s := if failed.isEmpty then addTransient unTransport s else s
      let s := { s with mon := { s.mon with stopped := false, safeCause := 0, openLoop := false } }
      before.foldl (fun s n => if failed.contains n then sensorFail n s else s) s

/-! ### Servo lock and loss (01 R14, 13 R345, R346) -/

/-- SERVO_FRAME_DETECTED (01 R14): 16 consecutive frames at 2.00 m/s or faster are the lock; the frame after them changes
the tick source to servo. -/
def execServoFrameDetected (fast : Bool) (s : State) : Out :=
  .next <|
    if !s.sys.synth || s.sys.phase = .off then s
    else if !fast then { s with mon := { s.mon with frames := 0 } }
    else
      let n := s.mon.frames + 1
      { s with
        mon := { s.mon with frames := n, lock := s.mon.lock || decide (16 ≤ n) }
        sys := { s.sys with synth := decide (n ≤ 16) } }

/-- SERVO_LOSS (13 R345, R346): write inhibit, ticks become synthetic. -/
def execServoLoss (at_ : Nat) (s : State) : Out :=
  .next <|
    let s := atTime at_ s
    if !s.mon.lock then s
    else
      inhibitOn 0 { s with
        mon := { s.mon with lock := false, frames := 0, lossAt := some s.aon.time, goodTicks := 0 }
        sys := { s.sys with synth := true } }

/-- Five dataset lengths in servo frames: 5 × 1,179,648 / 12,000. -/
abbrev fiveDatasets : Nat := 491

/-- SERVO_LOSS_TIMEOUT (13 R346): a writing run ends and is made again, once at one place. -/
def execServoLossTimeout (sfn at_ : Nat) (s : State) : Out :=
  .next <|
    let s := atTime at_ s
    match s.mon.lossAt with
    | none => s
    | some t =>
      if s.mon.lock || !passedMs t s.aon.time 200 then s
      else
        let again := match s.mon.lossSfn with
          | some q => decide (absDiff q sfn ≤ fiveDatasets)
          | none => false
        let s := { s with mon := { s.mon with lossAt := none } }
        if s.fmt.run.isNone then s
        else
          let s := interruptRun { s with mon := { s.mon with sfn := sfn, lossSfn := some sfn } }
          if again then lastingServoLoss s else s

end Sys2Proof.Machine
end

