-- ==== Sys2Proof/Machine/HeadLink.lean ====
section
/-! DEFINITION. The head link: frames that arrive (11 R285-R290), training (R292, R293), failing lanes, their retrain and
retirement (R294-R297), speed caps (R298, R299), registers (R300). -/

namespace Sys2Proof.Machine

/-! ### Lanes -/

/-- CAUSE of HLK_LANE_n (Table 11-13). -/
def causeCode : LaneFault → Nat
  | .none => 0
  | .crc => 1
  | .lock => 2
  | .training => 3
  | .wiring => 4
  | .host => 5

def inboundLane (n : Nat) : Bool := n < 12

/-- In the mask. -/
def maskOf (s : State) : Nat :=
  (s.hlk.lanes.zipIdx).foldl (fun a p => a + boolNat p.1.active * 2 ^ p.2) 0

/-- A lane that counts for the caps: in the mask or retraining (R298). -/
def countsFor (s : State) (n : Nat) : Bool := (getLane n s).active || s.hlk.retraining == some n || s.hlk.maskNext.contains (n, true)

def rxCount (s : State) : Nat := ((List.range 12).filter (countsFor s)).length
def txCount (s : State) : Nat := ((List.range 4).filter fun j => countsFor s (12 + j)).length

/-- Table 11-7. -/
def rxCap (n : Nat) : Nat := [0, 0, 0, 0, 3, 5, 8, 11, 14, 16, 19, 22, 24].getD n 24
def txCap (n : Nat) : Nat := if n = 0 then 0x1F else if n = 1 then 12 else 24

def linkUp (s : State) : Bool := s.hlk.state == 2 || s.hlk.state == 3

/-- The caps follow the lanes; HLK_STEP_CAP when the one in force falls below the step (R298, R299). -/
def updateCaps (s : State) : State :=
  let old := linkCap s
  let r := if linkUp s && 3 ≤ rxCount s then rxCap (rxCount s) else 0x1F
  let w := if r = 0x1F ∨ txCount s = 0 then 0x1F else min r (txCap (txCount s))
  let s := { s with hlk := { s.hlk with capRead := r, capWrite := w } }
  if s.sys.step ≠ 0x1F ∧ s.sys.step ≤ old ∧ linkCap s < s.sys.step then raise evHlkStepCap r w s else s

/-- The active lanes go out in LANE_MASK (Table 11-4). -/
def sendMask (s : State) : State := sendControl 0xC [wd (maskOf s)] s

/-! ### Failing lanes (R294-R296) -/

/-- A lane's fault recurs within RECUR ms of its retrain (R295). -/
def recurs (n : Nat) (s : State) : Bool :=
  match (getLane n s).retrainAt with
  | some t => !passedMs t s.aon.time s.hlk.cfg.recur
  | none => false

/-- A lane becomes failing: it is retrained from the next edge on, or retired at it. -/
def laneFailing (n : Nat) (c : LaneFault) (s : State) : State :=
  let l := getLane n s
  if l.retired || l.failing || s.hlk.retraining == some n || s.hlk.maskNext.any (·.1 == n) then s
  else if recurs n s then
    modLane n (fun l => { l with cause := c })
      { s with hlk := { s.hlk with maskNext := s.hlk.maskNext ++ [(n, false)] } }
  else modLane n (fun l => { l with failing := true, cause := c }) s

/-- HLK_LANE_ERR of a lane whose CRC_ERR or BLOCK_ERR has risen (18 Table 18-4). -/
def laneErrEvent (n : Nat) (s : State) : State :=
  let l := getLane n s
  raise (evLaneErr n) n (l.crcErr + l.blockErr * 2 ^ 16) s

/-- CRC errors of a lane in its window. -/
def windowErrors (l : HlkLane) (s : State) : List Nat := l.errorsAt.filter fun k => l.frames < k + 2 ^ s.hlk.cfg.windowLog2

/-- CRC errors are counted on a lane, which may become failing (R294). -/
def crcErrors (k n : Nat) (s : State) : State :=
  if k = 0 then s
  else
    let s := modLane n (fun l => { l with
      crcErr := satAdd 65535 l.crcErr k, errorsAt := windowErrors l s ++ List.replicate k l.frames }) s
    let s := laneErrEvent n s
    if s.hlk.cfg.crcLimit ≤ (windowErrors (getLane n s) s).length then laneFailing n .crc s else s

/-! ### Link failure (R297) -/

/-- Fewer than 3 inbound lanes or no outbound lane are active or retraining. -/
def tooFew (s : State) : Bool := rxCount s < 3 || txCount s == 0

/-- The link is FAILED: writes end with their durable counts. -/
def failLink (s : State) : State :=
  let s := setUnit unHeadLink 2 0 { s with hlk := { s.hlk with state := 4 } }
  loseTape stUnitDegraded (updateCaps s)

/-- Too few lanes remain: the whole link is retrained once, or is FAILED. -/
def linkFails (s : State) : State :=
  if s.hlk.wholeRetry then raiseN evHlkLinkFailed (failLink s)
  else updateCaps { s with hlk := { s.hlk with state := 1, wholeRetry := true, retraining := none, maskNext := [] } }

/-- A lane is retired (R295). -/
def retireLane (n : Nat) (s : State) : State :=
  let s := modLane n (fun l => { l with retired := true, active := false, failing := false }) s
  let s := { s with hlk := { s.hlk with state := if s.hlk.state = 2 then 3 else s.hlk.state } }
  let c := causeCode (getLane n s).cause
  raise evHlkLaneRetired n c (setUnit unHeadLink 2 c s)

/-- A return or a retirement takes effect. -/
def maskChange (s : State) (p : Nat × Bool) : State :=
  if p.2 then modLane p.1 (fun l => { l with active := true, locked := true, errorsAt := [], nextSeq := none }) s
  else retireLane p.1 s

/-- The next failing lane leaves the mask and retrains; the lowest lane index first. -/
def beginRetrain (s : State) : State :=
  if s.hlk.retraining.isSome then s
  else
    match indexOf? (fun l => l.failing && !l.retired) s.hlk.lanes with
    | none => s
    | some n =>
      let s := modLane n (fun l => { l with active := false, failing := false, retrains := min 15 (l.retrains + 1) }) s
      { s with hlk := { s.hlk with retraining := some n } }

/-- HLK_ERR_CFG ranges (Table 11-9). -/
def errCfgOk (c : HlkErrCfg) : Bool :=
  1 ≤ c.crcLimit && c.crcLimit ≤ 15 && 6 ≤ c.windowLog2 && c.windowLog2 ≤ 14 && 1 ≤ c.recur && c.recur ≤ 4095

/-- Transfer of HLK_ERR_CFG (R300). -/
def hlkTransfer (s : State) : State :=
  if !s.hlk.commit.pending then s
  else if errCfgOk s.hlk.shadow then { s with hlk := { s.hlk with cfg := s.hlk.shadow, commit := .none } }
  else raiseN evHlkCfgErr { s with hlk := { s.hlk with shadow := s.hlk.cfg, commit := { pending := false, err := true } } }

/-- Queues have drained and the tick's samples have been used by its end (R289, R298). -/
def drainTick (s : State) : State :=
  { s with hlk := { s.hlk with samples := [], lanes := s.hlk.lanes.map fun l => { l with queued := 0 } } }

/-- The link's part of a tick edge (R296). -/
def linkTick (s : State) : State :=
  if !linkUp s then s
  else
    let before := maskOf s
    let s := s.hlk.maskNext.foldl maskChange { s with hlk := { s.hlk with maskNext := [] } }
    let s := beginRetrain (drainTick s)
    let s := if maskOf s = before then s else sendMask s
    let s := updateCaps s
    if tooFew s then linkFails s else s

/-! ### Training (R292, R293) -/

/-- PART, write channels and readers of an IDENT. -/
def identOk (i : BitVec 40) : Bool :=
  bitsN i.toNat 0 16 == 0x4064 && bitsN i.toNat 24 8 == 64 && bitsN i.toNat 32 8 == 128

/-- HLK_H64_MISMATCH: the link is FAILED. -/
def mismatch (i : BitVec 40) (s : State) : State := raiseP evHlkH64Mismatch i.toNat (failLink s)

/-- How one lane's training ended. -/
def trainLane (t : TrainResult) (s : State) (n : Nat) : State :=
  let l := getLane n s
  let ok := if inboundLane n then t.rxOk.getLsbD n else t.txOk.getLsbD (n - 12)
  let wiring := t.wiring.getLsbD n
  if l.retired then s
  else if ok && !wiring then modLane n (fun l => { l with active := true, locked := true, failing := false, errorsAt := [], nextSeq := none }) s
  else
    let c : LaneFault := if wiring then .wiring else .training
    let s := if wiring then raise evHlkWiring n (causeCode .wiring) s else s
    laneFailing n c (modLane n (fun l => { l with active := false, locked := false }) s)

/-- The whole link has trained (Table 11-6). -/
def trainLink (t : TrainResult) (s : State) : State :=
  let s := { s with hlk := { s.hlk with
    retraining := none, maskNext := [], nextIndex := [], ahead := [], samples := [], h64Id := t.ident, h64RstN := true
    lanes := s.hlk.lanes.map fun l => { l with failing := false } } }
  let s := (List.range 16).foldl (trainLane t) s
  if !identOk t.ident then mismatch t.ident s
  else
    let up := if s.hlk.lanes.any (·.retired) then 3 else 2
    let tried := s.hlk.wholeRetry
    let s := sendMask { s with hlk := { s.hlk with state := up } }
    if tooFew s then linkFails s
    else
      let s := { s with hlk := { s.hlk with wholeRetry := false } }
      updateCaps (if tried then addTransient unHeadLink s else s)

/-- HLK_LINK_TRAINING (11 R292): of a link that is training. -/
def execHlkLinkTraining (t : TrainResult) (s : State) : Out :=
  .next <| if s.hlk.state = 1 ∧ s.sys.phase = .running then trainLink t s else s

/-! ### Frames that arrive (R286-R290) -/

/-- The lane can carry a frame: in the mask and locked. -/
def carries (n : Nat) (s : State) : Bool := (getLane n s).active && (getLane n s).locked

/-- FSEQ of a good frame: a gap counts the missing frames as lost (R286). -/
def frameSeq (f : HeadFrame) (l : HlkLane) : HlkLane :=
  let gap := match l.nextSeq with
    | some q => (f.fseq + 65536 - q) % 65536
    | none => 0
  { l with lost := satAdd 65535 l.lost gap, nextSeq := some ((f.fseq + 1) % 65536) }

/-- Block errors are counted on a lane (R284). -/
def countBlockErrors (k n : Nat) (s : State) : State :=
  if k = 0 then s else laneErrEvent n (modLane n (fun l => { l with blockErr := satAdd 65535 l.blockErr k }) s)

/-- The blocks of a frame arrive on a lane: block errors are counted, the frame is dropped and counted (R286), or it is taken; what
is not a frame of the row's FTYPE has no further effect. -/
def onFrame (ftype : Nat) (f : LinkFrame) (s : State) (k : HeadFrame → State → State) : State :=
  if !carries f.lane s then s
  else
    let l := rowItems f
    let s := countBlockErrors (blockErrors l) f.lane s
    if !beginsFrame l then s
    else
      let s := modLane f.lane (fun l => { l with frames := l.frames + 1 }) s
      match acceptedFrame l with
      | none => crcErrors 1 f.lane s
      | some h =>
        let s := modLane f.lane (frameSeq h) s
        if h.ftype = ftype then k h s else s

/-- Items of a source are taken, and the INDEX that follows them. -/
def takeItems (src next : Nat) (items : List (Option Int)) (s : State) : State :=
  { s with hlk := { s.hlk with
    nextIndex := tabSet 0 src (next % 2 ^ 24 + 1) s.hlk.nextIndex
    samples := tabSet [] src (tabGet [] s.hlk.samples src ++ items) s.hlk.samples } }

/-- Frames ahead of a gap that now follow are taken; the first argument bounds how many. -/
def drainAhead (src : Nat) : Nat → State → State
  | 0, s => s
  | n + 1, s =>
    let i := tabGet 0 s.hlk.nextIndex src - 1
    match s.hlk.ahead.find? fun p => p.1 == src && p.2.1 == i with
    | some p =>
      drainAhead src n (takeItems src (i + p.2.2.length) (p.2.2.map some)
        { s with hlk := { s.hlk with ahead := s.hlk.ahead.filter fun q => !(q.1 == src && q.2.1 == i) } })
    | none => s

/-- Order by SOURCE and INDEX is restored (R288); the frame's n items have w bits (R287). -/
def reorder (w n : Nat) (h : HeadFrame) (s : State) : State :=
  let items := itemsOf w n h.data
  let want := tabGet 0 s.hlk.nextIndex h.source
  if want = 0 ∨ want = h.index + 1 then
    drainAhead h.source s.hlk.ahead.length (takeItems h.source (h.index + n) (items.map some) s)
  else { s with hlk := { s.hlk with ahead := s.hlk.ahead ++ [(h.source, h.index, items)] } }

/-- SAMPLES (11 R287, R289). -/
def execSamples (f : LinkFrame) (s : State) : Out := .next (onFrame 1 f s (reorder 6 320))

/-- SERVO (11 R287, R289). -/
def execServo (f : LinkFrame) (s : State) : Out := .next (onFrame 2 f s (reorder 8 240))

/-- The masks that a STATUS carries, and outbound CRC errors (R290, Table 11-5). -/
def takeStatus (h : HeadFrame) (s : State) : State :=
  let w := h.data.getD 0 0
  let u := h.data.getD 3 0
  let e := h.data.getD 2 0
  let s := { s with vfy := { s.vfy with wdrvFault := s.vfy.wdrvFault ||| w }, hlk := { s.hlk with underrun := u } }
  let s := if w = 0 then s else raiseP evHlkWdrvFault w.toNat s
  let s := if u = 0 then s else raiseP evHlkWriteUnderrun u.toNat s
  (List.range 4).foldl (fun s j => if (getLane (12 + j) s).active then crcErrors (bits e (8 * j) 8) (12 + j) s else s) s

/-- STATUS (11 R290). -/
def execStatus (f : LinkFrame) (s : State) : Out := .next (onFrame 3 f s takeStatus)

/-- REPLY (11 R289): the register data of a REG_READ, and its tag. -/
def execReply (f : LinkFrame) (s : State) : Out :=
  .next (onFrame 4 f s fun h s => { s with hlk := { s.hlk with lastReply := h.data.getD 0 0, replyTag := h.index } })

/-- IDENT (11 R293). -/
def execIdent (f : LinkFrame) (s : State) : Out :=
  .next (onFrame 5 f s fun h s =>
    let i : BitVec 40 := BitVec.ofNat 40 (h.data.getD 0 0).toNat
    let s := { s with hlk := { s.hlk with h64Id := i } }
    if identOk i then s else mismatch i s)

/-- BLOCK_LOCK_LOSS (11 R284, R285): 16 invalid sync headers, each a block error. -/
def execBlockLockLoss (lane : Nat) (s : State) : Out :=
  .next <|
    if !carries lane s then s
    else
      let s := modLane lane (fun l => { l with
        lockLoss := satAdd 255 l.lockLoss 1, blockErr := satAdd 65535 l.blockErr 16, locked := false }) s
      laneFailing lane .lock (laneErrEvent lane s)

/-- REORDER_TIMEOUT (11 R288): the frames that a gap misses count as lost. -/
def execReorderTimeout (lane source missing : Nat) (s : State) : Out :=
  .next <|
    match (s.hlk.ahead.filter (·.1 == source)).map (·.2.1) with
    | [] => s
    | i :: t =>
      let want := tabGet 0 s.hlk.nextIndex source - 1
      let d := fun (x : Nat) => (x + 2 ^ 24 - want) % 2 ^ 24
      let first := t.foldl (fun m x => if d x < d m then x else m) i
      let s := modLane lane (fun l => { l with lost := satAdd 65535 l.lost missing }) s
      drainAhead source s.hlk.ahead.length (takeItems source first (List.replicate (d first) none) s)

/-! ### Retrains -/

/-- LANE_RETRAIN_DONE (11 R295, R296). -/
def execLaneRetrainDone (passed : Bool) (at_ : Nat) (s : State) : Out :=
  .next <|
    let s := atTime at_ s
    match s.hlk.retraining with
    | none => s
    | some n =>
      let s := { s with hlk := { s.hlk with retraining := none, maskNext := s.hlk.maskNext ++ [(n, passed)] } }
      if passed then
        let s := markWaiters (addTransient unHeadLink (modLane n (fun l => { l with retrainAt := some s.aon.time }) s))
        raise evHlkLaneRetrain n (causeCode (getLane n s).cause) s
      else s

/-! ### Registers (R300) -/

/-- HLK_COMMIT_WRITE (11 R300). -/
def execHlkCommitWrite (s : State) : Out :=
  .next <| onMmio s { s with hlk := { s.hlk with commit := { s.hlk.commit with pending := true } } }

/-- HLK_CTRL_REFUSED. -/
def ctrlRefused (lane : Nat) (s : State) : State := raiseP evHlkCtrlRefused lane s

/-- HLK_LANE_RETRAIN (11 R294, Table 11-11). -/
def execHlkLaneRetrain (lane : Nat) (s : State) : Out :=
  .next <| onMmio s <|
    if s.hlk.retraining.isSome || (getLane lane s).retired then ctrlRefused lane s
    else modLane lane (fun l => { l with failing := true }) s

/-- The link without a lane would meet R297. -/
def neededLane (n : Nat) (s : State) : Bool :=
  if inboundLane n then rxCount s - boolNat (countsFor s n) < 3 else txCount s - boolNat (countsFor s n) == 0

/-- HLK_LANE_RETIRE (11 R295, Table 11-11). -/
def execHlkLaneRetire (lane : Nat) (s : State) : Out :=
  .next <| onMmio s <|
    if s.hlk.retraining.isSome || (getLane lane s).retired || neededLane lane s then ctrlRefused lane s
    else
      let s := modLane lane (fun l => { l with cause := .host, failing := false }) s
      { s with hlk := { s.hlk with maskNext := s.hlk.maskNext.filter (·.1 != lane) ++ [(lane, false)] } }

/-! ### Register values -/

/-- HLK_STATUS (Table 11-8). -/
def hlkStatus (s : State) : Nat :=
  s.hlk.state + maskOf s * 2 ^ 4 + s.hlk.capRead * 2 ^ 20 + s.hlk.capWrite * 2 ^ 25 + s.hlk.retraining.getD 0x1F * 2 ^ 32

/-- HLK_LANE_n (Table 11-13). -/
def laneReg (l : HlkLane) : Nat :=
  l.crcErr + l.blockErr * 2 ^ 16 + l.lockLoss * 2 ^ 32 + l.retrains * 2 ^ 40 + boolNat l.retired * 2 ^ 44
    + causeCode l.cause * 2 ^ 45 + l.lost * 2 ^ 48

/-- Log page 0x04. -/
def linkPage (s : State) : List Byte :=
  leBytes 8 (hlkStatus s) ++ leBytes 8 0 ++ s.hlk.lanes.flatMap fun l => leBytes 8 (laneReg l)

end Sys2Proof.Machine
end

