-- ==== Sys2Proof/Machine/Thermal.lean ====
section
/-! DEFINITION. Thermal management: samples, failed sensors, rates (15 R377-R384), the thermal cap (R385, R386), the
critical state and the thermal stop (R387), the configuration (R381). Temperatures are eighths of a degree. -/

namespace Sys2Proof.Machine

/-! ### Sensors -/

/-- Class of a sensor: 0 junction, 1 HBM, 2 Weighhouse (Table 15-1). -/
def sensorClass (n : Nat) : Nat := if n < 28 then 0 else if n < 32 then 1 else 2

/-- Grid neighbours (Table 15-1). -/
def neighbours (n : Nat) : List Nat :=
  if n < 28 then
    (if 4 ≤ n then [n - 4] else []) ++ (if n % 4 = 0 then [] else [n - 1]) ++ (if n % 4 = 3 then [] else [n + 1])
      ++ (if n < 24 then [n + 4] else [])
  else if n < 32 then [28, 29, 30, 31].filter (· != n)
  else []

def getThm (n : Nat) (s : State) : ThmSensor := s.thm.sensors.getD n .reset

def modThm (n : Nat) (f : ThmSensor → ThmSensor) (s : State) : State :=
  { s with thm := { s.thm with sensors := s.thm.sensors.modify n f } }

def thmCfg (n : Nat) (s : State) : ThmCfg := s.thm.cfg.classes.getD (sensorClass n) { throttle := 0, crit := 0, hyst := 0, rate := 0 }

/-- Neighbours that have not failed. -/
def goodNeighbours (n : Nat) (s : State) : List Nat := (neighbours n).filter fun k => (getThm k s).state == 0

/-- Twice the median of a list. -/
def median2 (l : List Int) : Int :=
  let m := sortBy (· ≤ ·) l
  let n := m.length
  if n % 2 = 1 then 2 * m.getD (n / 2) 0 else m.getD (n / 2 - 1) 0 + m.getD (n / 2) 0

/-- Twice the consensus of a sensor, when it has one (R382). -/
def consensus2 (n : Nat) (s : State) : Option Int :=
  let l := (goodNeighbours n s).map fun k => (getThm k s).eff
  if l.isEmpty then none else some (median2 l)

/-- Within 12 degrees of the consensus. -/
def agrees (raw c2 : Int) : Bool := decide ((2 * raw - c2).natAbs ≤ 192)

def maxInt (l : List Int) : Option Int := l.foldl (fun m x => some (m.elim x (max x))) none

/-- The effective reading of a failed sensor (R383). -/
def replacement (n : Nat) (s : State) : Int :=
  let good := (goodNeighbours n s).map fun k => (getThm k s).raw
  let cls := fun (c : Nat) => maxInt (((List.range 33).filter fun k => sensorClass k == c && k != n).map fun k => (getThm k s).eff)
  match (if n = 32 then none else maxInt good) with
  | some v => v + 48
  | none => (cls (if n = 32 then 0 else sensorClass n)).getD (getThm n s).eff + 48

/-- Effective readings of failed sensors follow the others. -/
def refreshEff (s : State) : State :=
  (List.range 33).foldl (fun s n =>
    if (getThm n s).state = 0 then s else
      let v := replacement n s
      modThm n (fun x => { x with eff := v }) s) s

/-- The rate between two samples, in 1/64 degree per millisecond, to the nearest (R379; log entry 18). -/
def rateBetween (t0 : Nat) (v0 : Int) (t1 : Nat) (v1 : Int) : Int := if t1 ≤ t0 then 0 else divRound ((v1 - v0) * 12500) (t1 - t0)

/-- The latest sample taken 1 ms or more before a time. -/
def oldSample (t : Nat) (l : List (Nat × Int)) : Option (Nat × Int) := (l.filter fun p => passedMs p.1 t 1).getLast?

/-- Samples to keep: the latest that is 1 ms old or more, and those after it. -/
def keepSamples (t : Nat) (l : List (Nat × Int)) : List (Nat × Int) :=
  match oldSample t l with
  | some p => l.filter fun q => p.1 ≤ q.1
  | none => l

/-- Rates of failed sensors: the largest of their good neighbours; with none the value is open, a free value. -/
def refreshRates (s : State) : State :=
  (List.range 33).foldl (fun s n =>
    if (getThm n s).state = 0 then s else
      match maxInt ((goodNeighbours n s).map fun k => (getThm k s).rate) with
      | some v => modThm n (fun x => { x with rate := v }) s
      | none =>
        let v := fromTwos 12 (Config.freeNat s.freeCount)
        modThm n (fun x => { x with rate := v }) (drawFree s)) s

/-- A reading as a parameter or a register field: 12 bits. -/
def temp12 (v : Int) : Nat := toTwos 12 v

/-! ### Failure and re-admission (R382-R384) -/

/-- Two seconds in always-on cycles. -/
abbrev holdCycles : Nat := 3125000

/-- A sensor is lasting: it stays failed until cold reset. -/
def sensorStays (n : Nat) (s : State) : State :=
  raiseP evThmSensorLasting n (setUnit unThermal 2 0 (modThm n (fun x => { x with state := 2 }) s))

/-- A sensor fails (R382, R383, R386). -/
def failSensor (n : Nat) (c2 : Option Int) (s : State) : State :=
  let again := match (getThm n s).readmitAt with
    | some t => !passedMs t s.aon.time 60000
    | none => false
  let s := modThm n (fun x => { x with state := 1, failedAt := s.aon.time, diffs := 0, agreeFrom := none, samples := [] }) s
  let s := { s with thm := { s.thm with failures := sat64 s.thm.failures 1, holdEnd := s.aon.time + holdCycles } }
  let s := if unitState unThermal s = 0 then setUnit unThermal 1 0 s else s
  let s := match c2 with
    | some v => raise evThmSensorFail n (temp12 (v / 2)) s
    | none => raiseP evThmSensorFail n s
  if again then sensorStays n s else s

/-- A failed sensor is in service again: the fault was transient (R384). -/
def readmit (n : Nat) (raw : Int) (s : State) : State :=
  let s := modThm n (fun x => { x with state := 0, eff := raw, diffs := 0, readmitAt := some s.aon.time, samples := [], rate := 0 }) s
  let s := if unitState unThermal s = 1 && s.thm.sensors.all (fun x => x.state == 0) then setUnit unThermal 0 0 s else s
  addTransient unThermal s

/-- The checks of a junction or HBM sensor at a sample. -/
def checkGrid (n : Nat) (raw : Int) (s : State) : State :=
  let x := getThm n s
  match consensus2 n s with
  | none => s
  | some c2 =>
    let now := s.aon.time
    if x.state = 0 then
      if (goodNeighbours n s).length < 2 then s
      else
        let d := if agrees raw c2 then 0 else x.diffs + 1
        let s := modThm n (fun x => { x with diffs := d }) s
        if d = 3 then failSensor n (some c2) s else s
    else if x.state = 1 then
      let from_ := if agrees raw c2 then some (x.agreeFrom.getD now) else none
      let s := modThm n (fun x => { x with agreeFrom := from_ }) s
      match from_ with
      | some t => if passedMs t now 1000 && passedMs x.failedAt now 2000 then readmit n raw s else s
      | none => s
    else s

/-- The check of the Weighhouse sensor's range (R382). -/
def checkWeighhouse (raw : Int) (s : State) : State :=
  if (getThm 32 s).state = 0 ∧ (raw < -320 ∨ 1200 < raw) then failSensor 32 none s else s

/-! ### Levels and sampling (R378) -/

/-- THM_LEVEL for a crossing of one level. -/
def levelCross (n : Nat) (old new level : Int) (crit : Bool) (s : State) : State :=
  if decide (old < level) == decide (new < level) then s
  else wakeNow (raise (evThmLevel n) (temp12 new) (boolNat (decide (level ≤ new)) + 2 * boolNat crit) s)

/-- Crossings of a sensor since its effective reading of before. -/
def levelEvents (before : List Int) (s : State) : State :=
  (List.range 33).foldl (fun s n =>
    let c := thmCfg n s
    let old := before.getD n 0
    let new := (getThm n s).eff
    levelCross n old new c.crit true (levelCross n old new c.throttle false s)) s

/-- Some effective reading lies within a distance of a level threshold of its class. -/
def nearLevel (d : Nat) (s : State) : Bool :=
  (List.range 33).any fun n =>
    let c := thmCfg n s
    ([c.throttle, c.crit] ++ (if n < 28 then [960] else [])).any fun l => decide (((getThm n s).eff - l).natAbs ≤ d)

/-- FAST (R378). -/
def chooseRate (s : State) : State :=
  let now := s.aon.time
  let s := if nearLevel 96 s then { s with thm := { s.thm with coolSince := now } } else s
  if nearLevel 80 s then { s with thm := { s.thm with fast := true } }
  else if s.thm.fast && passedMs s.thm.coolSince now 100 then { s with thm := { s.thm with fast := false } }
  else s

/-- The latest effective readings are published at a tick, to the event logic too (15 R379, 01 Table 1-5). -/
def publishThermal (s : State) : State :=
  let before := s.thm.published
  levelEvents before { s with thm := { s.thm with published := s.thm.sensors.map (·.eff) } }

/-- A sensor's sample is taken in (15 R378, R379, R382-R384). -/
def sampleSensor (sensor : Nat) (raw : Int) (s : State) : State :=
  let now := s.aon.time
  let s := modThm sensor (fun x => { x with
    raw := raw, eff := if x.state = 0 then raw else x.eff, lastAt := some now
    samples := keepSamples now (x.samples ++ [(now, raw)]) }) s
  let s := if sensor = 32 then checkWeighhouse raw s else checkGrid sensor raw s
  let x := getThm sensor s
  let s := match oldSample now x.samples with
    | some (t, v) => if x.state = 0 then modThm sensor (fun x => { x with rate := rateBetween t v now raw }) s else s
    | none => s
  chooseRate (refreshRates (refreshEff s))

/-- THERMAL_SAMPLE (15 R378). -/
def execThermalSample (sensor : Nat) (raw : Int) (at_ : Nat) (s : State) : Out :=
  .next <|
    let s := atTime at_ s
    if s.sys.phase = .off then s else sampleSensor sensor raw s

/-- THM_SENSOR_LASTING (15 R384): 10 s have passed since the failure. -/
def execThmSensorLasting (sensor at_ : Nat) (s : State) : Out :=
  .next <|
    let s := atTime at_ s
    if (getThm sensor s).state = 1 ∧ passedMs (getThm sensor s).failedAt s.aon.time 10000 = true then sensorStays sensor s else s

/-! ### The thermal cap (R385-R387) -/

/-- The sensor with the highest effective reading, the lowest number first. -/
def hottest (s : State) : Nat :=
  (List.range 33).foldl (fun b n => if (getThm b s).eff < (getThm n s).eff then n else b) 0

def isHot (s : State) : Bool :=
  (List.range 33).any fun n =>
    decide ((thmCfg n s).throttle ≤ (getThm n s).eff) || decide (((thmCfg n s).rate : Int) ≤ (getThm n s).rate)

def isCool (s : State) : Bool :=
  (List.range 33).all fun n => decide ((getThm n s).eff ≤ (thmCfg n s).throttle - ((thmCfg n s).hyst : Int))

/-- The first sensor at or above CRIT. -/
def critSensor (s : State) : Option Nat := (List.range 33).find? fun n => decide ((thmCfg n s).crit ≤ (getThm n s).eff)

/-- The cap takes a value: THM_THROTTLE on a change. -/
def setCap (c : Nat) (s : State) : State :=
  let old := s.thm.cap
  let s := { s with thm := { s.thm with cap := c }, spm := { s.spm with thermalCap := c } }
  if c = old then s
  else
    let s := raise evThmThrottle c (hottest s) s
    if c < old then { s with thm := { s.thm with downs := sat64 s.thm.downs 1 } } else s

/-- The rule of R385. -/
def capRule (hot cool : Bool) (s : State) : State :=
  let now := s.aon.time
  let c := s.thm.cfg
  let s :=
    if hot then
      let s := { s with thm := { s.thm with tCool := now } }
      if !s.thm.wasHot || passedMs s.thm.tDown now c.downMs then setCap (s.thm.cap - c.downSteps) { s with thm := { s.thm with tDown := now } }
      else s
    else if !cool then { s with thm := { s.thm with tCool := now } }
    else if s.thm.holdEnd ≤ now ∧ passedMs s.thm.tCool now c.upMs = true ∧ passedMs s.thm.tUp now c.upMs = true ∧ s.thm.cap < 24 then
      setCap (s.thm.cap + 1) { s with thm := { s.thm with tUp := now } }
    else s
  { s with thm := { s.thm with wasHot := hot } }

/-- The tape runs at step 0 or stands. -/
def atStepZero (s : State) : Bool := s.sys.step == 0 || s.sys.step == 0x1F

/-- The critical state (R387). -/
def critRule (cool : Bool) (s : State) : State :=
  let s := if cool then { s with thm := { s.thm with crit := false, stopped := false } } else s
  match critSensor s with
  | none => if s.thm.stopped then s else { s with thm := { s.thm with critFrom := none } }
  | some n =>
    let was := s.thm.crit
    let s := setCap 0 { s with thm := { s.thm with crit := true } }
    let s := if was then s
      else raise evThmCrit n (temp12 (getThm n s).eff) { s with thm := { s.thm with critEntries := sat64 s.thm.critEntries 1 } }
    if s.thm.stopped then s
    else if atStepZero s then { s with thm := { s.thm with critFrom := some (s.thm.critFrom.getD s.aon.time) } }
    else { s with thm := { s.thm with critFrom := none } }

/-- The Weighhouse sensor fails when no reading has arrived for 10 ms (R382). -/
def weighhouseSilent (s : State) : State :=
  let x := getThm 32 s
  if x.state = 0 ∧ passedMs (x.lastAt.getD s.sys.readyAt) s.aon.time 10 = true then refreshEff (failSensor 32 none s) else s

/-- THROTTLE_EVALUATION (15 R385, R387). -/
def execThrottleEvaluation (at_ : Nat) (s : State) : Out :=
  .next <|
    let s := atTime at_ s
    if s.sys.phase ≠ .running then s
    else
      let s := weighhouseSilent s
      let cool := isCool s
      critRule cool (capRule (isHot s) cool s)

/-- THERMAL_STOP (15 R387): a reading has stayed at CRIT for 1 s at step 0. From then on `critFrom` holds the start of the
stop. -/
def execThermalStop (at_ : Nat) (s : State) : Out :=
  .next <|
    let s := atTime at_ s
    match s.thm.critFrom with
    | none => s
    | some t =>
      if s.thm.stopped || !passedMs t s.aon.time 1000 then s
      else endRunSoon { s with thm := { s.thm with stopped := true, critFrom := some s.aon.time } }

/-- THERMAL_LIMIT_TIMEOUT (15 R387): a command that needs the tape has waited 60 s. -/
def execThermalLimitTimeout (jsn at_ : Nat) (s : State) : Out :=
  .next <|
    let s := atTime at_ s
    match findEntry s jsn, findRun s jsn with
    | some e, some r =>
      let since := max r.since (s.thm.critFrom.getD 0)
      if !s.thm.stopped || !usesTape e || !passedMs since s.aon.time 60000 || r.phase == .unretired then s
      else
        match findWrite jsn s with
        | some w =>
          if itemTotal w ≠ 0 then endWritesNow [jsn] stThermalLimit none s
          else endWrite e stThermalLimit { s with fmt := { s.fmt with writes := s.fmt.writes.filter (·.jsn != jsn) } }
        | none => endEarly e stThermalLimit (if r.phase = .started then liftCap s else s)
    | _, _ => s

/-! ### Configuration (R381) -/

/-- THM_COMMIT_WRITE (15 R381). -/
def execThmCommitWrite (s : State) : Out :=
  .next <| onMmio s { s with thm := { s.thm with commit := { s.thm.commit with pending := true } } }

/-- Checks of the thermal group (R381). -/
def thmCfgOk (g : ThmGroup) : Bool :=
  (g.classes.all fun c => decide (c.throttle < c.crit) && c.hyst != 0 && c.rate != 0)
    && (g.classes.head?.all fun c => decide (c.crit < 920))
    && g.downSteps != 0 && g.downMs != 0 && g.upMs != 0 && g.downSteps ≤ 4 && 10 ≤ g.upMs

/-- Transfer of the thermal group. -/
def thmTransfer (s : State) : State :=
  if !s.thm.commit.pending then s
  else if thmCfgOk s.thm.shadow then { s with thm := { s.thm with cfg := s.thm.shadow, commit := .none } }
  else raiseN evThmCfgErr { s with thm := { s.thm with shadow := s.thm.cfg, commit := { pending := false, err := true } } }

/-! ### Register values -/

/-- THM_STATUS (Table 15-5). -/
def thmStatus (s : State) : Nat :=
  let h := hottest s
  h + boolNat s.thm.fast * 2 ^ 6 + boolNat (decide (s.thm.cap < 24)) * 2 ^ 7 + boolNat (decide (s.aon.time < s.thm.holdEnd)) * 2 ^ 8
    + boolNat s.thm.crit * 2 ^ 9 + boolNat s.thm.stopped * 2 ^ 10 + s.thm.cap * 2 ^ 11 + temp12 (getThm h s).eff * 2 ^ 16

end Sys2Proof.Machine
end

