-- ==== Sys2Proof/Machine/Weighhouse.lean ====
section
/-! DEFINITION. The Weighhouse (16): the state word and the meters (R408, R413), the tally link (R411, R412), its status
and availability (R414, R415), the Boot Ledger (R416-R422), statements (R423, R424), SPDM (R425-R427), the mailbox
(R403, Tables 16-10, 16-13). -/

namespace Sys2Proof.Machine

/-! ### The die -/

/-- WH_TIME (R407): periods of 1/32,768 s since `timeFrom`, by device time (log entry 24). -/
def whTime (s : State) : Nat := s.whd.time + (s.aon.time - s.whd.timeFrom) * 2097152 / 100000000

/-- The copy of the state word in force (R408). -/
def stateWord (s : State) : StateWord := if s.whd.copyA.seqNo < s.whd.copyB.seqNo then s.whd.copyB else s.whd.copyA

/-- The 64 bytes of a Weighhouse MRAM word: its content, zeros, and a CRC-32C over what stands before (R408). -/
def whImage (b : List Byte) : List Byte := padTo 60 b ++ leBytes 4 (crc32c (padTo 60 b))

/-- A copy of the state word (R408, in the rule's own order). -/
def stateImage (w : StateWord) : List Byte :=
  whImage (leBytes 8 w.lastTsn ++ leBytes 4 w.nextEpoch ++ leBytes 8 w.statementNo ++ leBytes 8 w.datasets ++ leBytes 8 w.lost
    ++ leBytes 8 w.timeCheck ++ leBytes 4 w.powerOns ++ leBytes 4 w.seqNo)

/-- A tenant's meter word (R413). -/
def meterImage (m : Meter) : List Byte :=
  whImage (leBytes 12 m.count ++ leBytes 8 m.tsn ++ leBytes 12 m.prevCount ++ leBytes 8 m.prevTsn)

/-- The other copy is written. -/
def putStateWord (f : StateWord → StateWord) (s : State) : State :=
  let w := f (stateWord s)
  let w := { w with seqNo := (stateWord s).seqNo + 1 }
  if s.whd.copyA.seqNo < s.whd.copyB.seqNo then { s with whd := { s.whd with copyA := w } }
  else { s with whd := { s.whd with copyB := w } }

/-- The formatter die sees what the Weighhouse publishes. -/
def dieUp (s : State) : Bool := decide (s.sys.phase = .stepOne) || decide (s.sys.phase = .running)

/-- The Weighhouse runs and is SEALED. -/
def whServes (s : State) : Bool := s.whd.powered && s.whd.lifecycle == 1

/-! ### Tally frames (Table 16-3) -/

/-- Bytes 0 to 59. -/
def frameBody (f : TallyFrame) : List Byte :=
  leBytes 8 f.tsn ++ leBytes 6 f.seq ++ [b8 (f.partition + boolNat f.last * 4 + boolNat f.bad * 8), b8 f.entries.length]
    ++ leBytes 4 f.epoch ++ padTo 40 (f.entries.flatMap fun e => leBytes 2 e.1 ++ leBytes 4 e.2)

def frameBytes (f : TallyFrame) : List Byte := frameBody f ++ leBytes 4 (crc32c (frameBody f))

def byteAt (l : List Byte) (i : Nat) : Nat := (l.getD i 0).toNat

def parseFrame (l : List Byte) : TallyFrame :=
  { tsn := leNat (slice l 0 8), seq := leNat (slice l 8 6), partition := byteAt l 14 % 4, last := (byteAt l 14).testBit 2
    epoch := leNat (slice l 16 4), bad := (byteAt l 14).testBit 3
    entries := (List.range (min 6 (byteAt l 15))).map fun i => (leNat (slice l (20 + 6 * i) 2), leNat (slice l (22 + 6 * i) 4)) }

def frameCrcOk (l : List Byte) : Bool := l.length == 64 && leNat (slice l 60 4) == crc32c (l.take 60)

/-- COUNT is 6 or less; tenants are distinct and below 4,096 (R412). -/
def frameFieldsOk (l : List Byte) : Bool :=
  let ts := (parseFrame l).entries.map (·.1)
  byteAt l 15 ≤ 6 && ts.all (· < 4096) && decide ts.Nodup

/-- The published LAST_TSN reaches the formatter: frames up to it are freed (R411). -/
def takeTsn (n : Nat) (s : State) : State :=
  if !dieUp s then s
  else
    let rise := if s.wh.lastTsn < n then s.aon.time else s.wh.lastRise
    noteBlocked { s with
      wh := { s.wh with lastTsn := n, lastRise := rise }
      mram := { s.mram with tallies := s.mram.tallies.filter fun f => n < f.tsn } }

/-- One entry of a frame is metered (R413 step 1). -/
def meterEntry (tsn : Nat) (m : Table Meter) (e : Nat × Nat) : Table Meter :=
  tabUpd .zero e.1 (fun x =>
    { count := (x.count + e.2) % 2 ^ 96, tsn := tsn, prevCount := x.count, prevTsn := x.tsn }) m

/-- An accepted frame is committed (R413). -/
def commitFrame (f : TallyFrame) (s : State) : State :=
  let s := { s with whd := { s.whd with meters := f.entries.foldl (meterEntry f.tsn) s.whd.meters } }
  let s := putStateWord (fun w => { w with
    lastTsn := f.tsn, datasets := w.datasets + boolNat f.last, lost := w.lost + boolNat f.bad }) s
  takeTsn f.tsn s

def countBad (s : State) : State := { s with whd := { s.whd with bad := satAdd 65535 s.whd.bad 1 } }
def countGap (s : State) : State := { s with whd := { s.whd with gap := satAdd 65535 s.whd.gap 1 } }
def countDup (s : State) : State := { s with whd := { s.whd with dup := satAdd 65535 s.whd.dup 1 } }

/-- The checks of R412 in order: CRC, TSN, fields. -/
def receiveFrame (bytes : List Byte) (s : State) : State :=
  let f := parseFrame bytes
  let last := (stateWord s).lastTsn
  if !frameCrcOk bytes then countBad s
  else if f.tsn ≤ last then countDup s
  else if last + 1 < f.tsn then countGap s
  else if frameFieldsOk bytes then commitFrame f s
  else countBad s

/-- TALLY_FRAME_RECEIVE (R412): the front frame of the link arrives as `bytes`. With nothing on the link only a frame cut off
by a reset arrives, whose CRC fails (R405). -/
def execTallyFrameReceive (bytes : List Byte) (s : State) : Out :=
  .next <|
    if s.wh.link.isEmpty && frameCrcOk bytes then s
    else
      let s := { s with wh := { s.wh with link := s.wh.link.tail } }
      if whServes s then receiveFrame bytes s else s

/-- Frames from LAST_TSN + 1 on are sent again (R411). -/
def resendTally (s : State) : State :=
  let n := (s.mram.tallies.filter fun f => s.wh.lastTsn < f.tsn).length
  sendFrames s.wh.lastTsn { s with wh := { s.wh with resent := sat64 s.wh.resent n, lastRise := s.aon.time } }

/-- TALLY_RESEND_TIMEOUT (R411). -/
def execTallyResendTimeout (at_ : Nat) (s : State) : Out :=
  .next <|
    let s := atTime at_ s
    if s.wh.avail = 1 && !s.mram.tallies.isEmpty && passedMs s.wh.lastRise s.aon.time 10 then resendTally s else s

/-! ### Boot Ledger -/

/-- A ledger entry (Table 16-5). -/
def entryBytes (e : LedgerEntry) : List Byte :=
  [0x42, 0x4C, 0x45, 0x44] ++ leBytes 4 e.epoch ++ leBytes 8 Config.serialNumber.toNat ++ leBytes 8 e.timeOpen
    ++ leBytes 8 e.timeClose ++ leBytes 8 e.timeEnd ++ [b8 e.state, b8 e.stages.length, b8 e.start, b8 e.endCause]
    ++ leBytes 4 Config.whVersion.toNat ++ padTo 48 e.prevHash ++ padTo 192 (e.stages.flatMap fun d => padTo 48 d)
    ++ padTo 96 e.signature

/-- Kinds of content that the Weighhouse signs or makes, for Config.signed. -/
abbrev signLedger : Nat := 0
abbrev signStatement : Nat := 1
abbrev spdmAnswer : Nat := 2
abbrev keyAnswer : Nat := 3

/-- An entry that has not ended. -/
def entryOpen (e : LedgerEntry) : Bool := e.state < 2

/-- The entry of the current boot. -/
def currentEntry (s : State) : Option LedgerEntry := s.whd.ledger.head?.filter entryOpen

def modCurrent (f : LedgerEntry → LedgerEntry) (s : State) : State :=
  match s.whd.ledger with
  | e :: t => if entryOpen e then { s with whd := { s.whd with ledger := f e :: t } } else s
  | [] => s

/-- The entry ends and is signed (R419). -/
def endEntry (cause : Nat) (s : State) : State :=
  let close := fun (e : LedgerEntry) =>
    let e := { e with state := if e.state = 0 then 3 else 2, endCause := cause, timeEnd := whTime s }
    { e with signature := padTo 96 (Config.signed signLedger ((entryBytes e).take 288)) }
  if whServes s then modCurrent close s else s

/-- The Weighhouse opens an entry as the boot ROM starts (R416): START is the cause that the boot ROM reports. -/
def openEntry (start : Nat) (s : State) : State :=
  if !whServes s then s
  else
    let e := (stateWord s).nextEpoch
    let prev := s.whd.ledger.head?.elim (List.replicate 48 0) fun p => Config.sha384 (entryBytes p)
    let new : LedgerEntry :=
      { epoch := e, timeOpen := whTime s, timeClose := 0, timeEnd := 0, state := 0, stages := [], start := start
        endCause := 0, prevHash := if e = 1 then List.replicate 48 0 else prev, signature := [] }
    let s := if e = 0xFFFFFFFF then s else putStateWord (fun w => { w with nextEpoch := e + 1 }) s
    let gone := (s.whd.ledger.drop 4095).map (·.epoch)
    let lost := gone.filter fun x => !s.whd.readEpochs.contains x
    { s with whd := { s.whd with
      ledger := new :: s.whd.ledger.take 4095, released := none, unread := s.whd.unread ++ lost
      readEpochs := s.whd.readEpochs.filter fun x => !gone.contains x } }

/-- The events of R421, once the mailbox is up. -/
def reportUnread (s : State) : State :=
  s.whd.unread.foldl (fun s e => raiseP evWhLedgerUnread e s) { s with whd := { s.whd with unread := [] } }

/-! ### Status and availability (R414) -/

/-- The formatter's copy of the status. -/
def takeWhStatus (s : State) : State :=
  let s := { s with wh := { s.wh with
    lifecycle := s.whd.lifecycle, time := whTime s, bad := s.whd.bad, gap := s.whd.gap, dup := s.whd.dup
    lastStatus := s.aon.time } }
  match s.whd.released with
  | some e => { s with wh := { s.wh with epochValid := true, epoch := e } }
  | none => s

/-- Statuses have resumed after an unavailability. -/
def whResumes (s : State) : State :=
  let s := if s.wh.avail = 2 then addTransient unWeighhouse s else s
  raiseN evWhAvailable (setUnit unWeighhouse 0 0 { s with wh := { s.wh with avail := 1 } })

/-- A status of a Weighhouse that is not in FAULT makes it available; at a start and after an unavailability the tallies
flow again. -/
def becomeAvailable (s : State) : State :=
  if s.whd.lifecycle = 2 ∨ s.wh.avail = 1 then s
  else if s.wh.avail = 0 then
    let s := { s with wh := { s.wh with avail := 1 } }
    let s := if unitState unWeighhouse s = 1 ∨ unitState unWeighhouse s = 2 then setUnit unWeighhouse 0 0 s else s
    let s := if s.mram.tallies.isEmpty then s else resendTally s
    reportUnread s
  else reportUnread (resendTally (whResumes s))

/-- WH_STATUS_PUBLISH (R414): the reading of sensor 32 comes with it. -/
def execWhStatusPublish (at_ : Nat) (temp : Int) (s : State) : Out :=
  .next <|
    let s := atTime at_ s
    if !s.whd.powered || !dieUp s then s
    else sampleSensor 32 temp (takeTsn (stateWord s).lastTsn (becomeAvailable (takeTsn (stateWord s).lastTsn (takeWhStatus s))))

/-- The formatter's side of both FIFOs is emptied. -/
def emptyFifos (s : State) : State := { s with wh := { s.wh with link := [], rx := none, rxRest := [] } }

/-- WH_UNAVAILABLE (R414): no status for 10 ms, or FAULT; the one automatic retry begins. -/
def execWhUnavailable (at_ : Nat) (s : State) : Out :=
  .next <|
    let s := atTime at_ s
    if 2 ≤ s.wh.avail || s.sys.phase ≠ .running || !(s.wh.lifecycle == 2 || passedMs s.wh.lastStatus s.aon.time 10) then s
    else
      let s := { emptyFifos s with wh := { (emptyFifos s).wh with
        avail := 2, failedAt := s.aon.time, unavailCnt := sat64 s.wh.unavailCnt 1 } }
      raiseN evWhUnavailable (setUnit unWeighhouse 1 0 s)

/-- WH_RETRY_EXPIRY (R414): statuses have not resumed within 1 s. -/
def execWhRetryExpiry (at_ : Nat) (s : State) : Out :=
  .next <|
    let s := atTime at_ s
    if s.wh.avail = 2 ∧ passedMs s.wh.failedAt s.aon.time 1000 = true then
      setUnit unWeighhouse 2 0 { s with wh := { s.wh with avail := 3 } }
    else s

/-- FORMATION_BLOCK_TIMEOUT (R415): writes that still place items place no further one. -/
def execFormationBlockTimeout (at_ : Nat) (s : State) : Out :=
  .next <|
    let s := atTime at_ s
    if !formBlockedLong s then s
    else
      let js := (s.fmt.writes.filter fun w => w.ending.isNone && !allPlaced w).map (·.jsn)
      afterWrites (js.foldl (fun s j => stopWrite j stUnitDegraded none s) s)

/-- EPOCH_WAIT_TIMEOUT (R418): a write command has waited 10 s after the end of start-up without an epoch. -/
def execEpochWaitTimeout (jsn at_ : Nat) (s : State) : Out :=
  .next <|
    let s := atTime at_ s
    match findEntry s jsn, findRun s jsn with
    | some e, some r =>
      if s.wh.epochValid || !isWriteOp (entryOp e) || !firmwareRuns s || !passedMs s.sys.readyAt s.aon.time 10000
          || r.phase == .unretired then s
      else if (findWrite jsn s).isSome then endWritesNow [jsn] stUnitDegraded none s
      else endWrite e stUnitDegraded s
    | _, _ => s

/-! ### The mailbox -/

/-- Message types (Table 16-10). -/
abbrev mbExtend : Nat := 1
abbrev mbClose : Nat := 2
abbrev mbLedgerGet : Nat := 3
abbrev mbStatement : Nat := 4
abbrev mbSpdm : Nat := 5
abbrev mbMarkRead : Nat := 6

def mbRefused (type : Nat) (s : State) : State := raiseP evWhMbRefused type s

/-- A message is served when its condition holds and refused otherwise; a Weighhouse in FAULT or without its supply answers
nothing (R403, R406). -/
def mbServe (type : Nat) (ok : Bool) (k : State → State) (s : State) : State :=
  if !s.whd.powered || s.whd.lifecycle = 2 then s
  else if ok && s.whd.lifecycle == 1 then k s
  else mbRefused type s

/-- A response in parts of at most 1,024 bytes: type, length, byte offset, bytes (log entry 22). -/
def mbParts (type : Nat) : Nat → Nat → List Byte → List Byte
  | 0, _, _ => []
  | n + 1, off, l =>
    let p := l.take 1016
    leBytes 2 type ++ leBytes 2 (4 + p.length) ++ leBytes 4 off ++ p
      ++ (if 1016 < l.length then mbParts type n (off + 1016) (l.drop 1016) else [])

/-- The part at the front of a stream of parts, and the rest. -/
def mbFront (l : List Byte) : Option (List Byte) × List Byte :=
  if l.isEmpty then (none, [])
  else
    let n := 4 + leNat (slice l 2 2)
    (some (l.take n), l.drop n)

/-- The parts of a response wait behind those that are held. -/
def mbRespond (type : Nat) (l : List Byte) (s : State) : State :=
  let all := s.wh.rx.getD [] ++ s.wh.rxRest ++ mbParts type (l.length / 1016 + 1) 0 l
  { s with wh := { s.wh with rx := (mbFront all).1, rxRest := (mbFront all).2 } }

/-- EXTEND's conditions (R417). -/
def extendOk (stage : Nat) (s : State) : Bool :=
  match currentEntry s with
  | none => false
  | some e => e.state == 0 && stage == e.stages.length && stage < 4 && (if stage ≤ 1 then s.wh.romPhase else !s.wh.romPhase)

def doExtend (stage : Nat) (digest : List Byte) (s : State) : State :=
  mbServe mbExtend (extendOk stage s) (modCurrent fun e => { e with stages := e.stages ++ [padTo 48 digest] }) s

/-- EXTEND (R417). -/
def execExtend (stage : Nat) (digest : List Byte) (s : State) : Out := .next (doExtend stage digest s)

/-- A CLOSE makes the entry RUNNING; its epoch, when it has one, is released (R416, R418). -/
def closeEntry (s : State) : State :=
  let s := modCurrent (fun e => { e with state := 1, timeClose := whTime s }) s
  match currentEntry s with
  | some e =>
    if e.epoch = 0xFFFFFFFF then s
    else
      let s := { s with whd := { s.whd with released := some e.epoch } }
      if dieUp s then { s with wh := { s.wh with epochValid := true, epoch := e.epoch } } else s
  | none => s

def doClose (s : State) : State :=
  mbServe mbClose ((currentEntry s).any fun e => e.state == 0 && e.stages.length == 4) closeEntry s

/-- CLOSE (R418). -/
def execClose (s : State) : Out := .next (doClose s)

/-- Retained entries of a range of epochs, in epoch order (R422). -/
def entriesFrom (first count : Nat) (s : State) : List LedgerEntry :=
  s.whd.ledger.reverse.filter fun e => first ≤ e.epoch && e.epoch < first + count

def doLedgerGet (first count : Nat) (s : State) : State :=
  mbServe mbLedgerGet true (fun s => mbRespond mbLedgerGet ((entriesFrom first count s).flatMap entryBytes) s) s

/-- LEDGER_GET (R422). -/
def execLedgerGet (firstEpoch count : Nat) (s : State) : Out := .next (doLedgerGet firstEpoch count s)

/-! ### Meter statements (R423, R424) -/

/-- Tenants listed: those of the range, or those of it with a count. -/
def statementTenants (r : StatementReq) (s : State) : List Nat :=
  ((List.range r.count).map (r.firstTenant + ·)).filter fun t => !r.nonzero || (tabGet .zero s.whd.meters t).count != 0

/-- The latest epoch that has been released. -/
def latestReleased (s : State) : Nat :=
  (s.whd.ledger.find? fun e => (e.state == 1 || e.state == 2) && e.epoch != 0xFFFFFFFF).elim 0xFFFFFFFF (·.epoch)

/-- A meter statement (Table 16-8) with the number that the state word holds. -/
def statementContent (r : StatementReq) (s : State) : List Byte :=
  let w := stateWord s
  let ts := statementTenants r s
  let body := [0x57, 0x48, 0x4D, 0x53] ++ leBytes 2 1 ++ leBytes 2 0 ++ leBytes 8 Config.serialNumber.toNat
    ++ leBytes 8 w.statementNo ++ leBytes 8 (whTime s) ++ leBytes 4 (latestReleased s) ++ leBytes 4 w.powerOns
    ++ leBytes 8 w.lastTsn ++ leBytes 8 w.datasets ++ leBytes 8 w.lost ++ padTo 16 r.nonce ++ leBytes 2 r.firstTenant
    ++ leBytes 2 ts.length ++ [b8 (boolNat r.nonzero), 0, 0, 0]
    ++ ts.flatMap fun t => leBytes 2 t ++ [0, 0] ++ leBytes 12 (tabGet .zero s.whd.meters t).count
  body ++ padTo 96 (Config.signed signStatement body)

/-- STATEMENT_NO rises and is durable before the statement leaves. -/
def nextStatement (s : State) : State := putStateWord (fun w => { w with statementNo := w.statementNo + 1 }) s

/-- The fields of a statement's packet words (Table 16-7). -/
def statementOf (w2 : Nat) (nonce : List Byte) : StatementReq :=
  { firstTenant := bitsN w2 0 12, count := bitsN w2 16 13, nonzero := w2.testBit 29, nonce := nonce }

def doStatement (r : StatementReq) (s : State) : State :=
  mbServe mbStatement (decide (r.firstTenant + r.count ≤ 4096)) (fun s =>
    let s := nextStatement s
    mbRespond mbStatement (statementContent r s) s) s

/-- STATEMENT (R424). -/
def execStatement (r : StatementReq) (s : State) : Out := .next (doStatement r s)

/-! ### SPDM (R425-R427; the framing of DSP0274 is PRESUMED, log entry 23) -/

/-- An SPDM ERROR response with an error code. -/
def spdmError (code : Nat) : List Byte := [0x12, 0x7F, b8 code, 0]

/-- Request codes of Table 16-9. -/
def spdmSupported (c : Nat) : Bool :=
  [0x84, 0xE1, 0xE3, 0x81, 0x82, 0x83, 0xE0, 0xE4, 0xE5, 0xE8, 0xE9, 0xEC].contains c

/-- The connection state after a request: 1 version, 2 capabilities, 3 algorithms; none: the request is out of turn. -/
def spdmNext (st c : Nat) : Option Nat :=
  if c = 0x84 then some 1
  else if c = 0xE1 then (if st = 1 then some 2 else none)
  else if c = 0xE3 then (if st = 2 then some 3 else none)
  else if st = 3 then some 3 else none

def setSpdm (mctp : Bool) (n : Nat) (s : State) : State :=
  if mctp then { s with whd := { s.whd with spdmMctp := n } } else { s with whd := { s.whd with spdmDoe := n } }

/-- A response leaves by the transport of its request. -/
def spdmReply (mctp : Bool) (l : List Byte) (s : State) : State :=
  if mctp then emit (.mctp l) { s with mgt := { s.mgt with txMsgs := sat64 s.mgt.txMsgs 1 } }
  else emit (.doeResponse l) { s with hif := { s.hif with doe := { s.hif.doe with response := some l, request := none } } }

/-- A DMTF measurement block: index, DMTF specification, sizes, value type, value. -/
def measureBlock (index vtype : Nat) (v : List Byte) : List Byte :=
  [b8 index, 1] ++ leBytes 2 (3 + v.length) ++ [b8 vtype] ++ leBytes 2 v.length ++ v

/-- The measurement blocks that exist, by index (R426). -/
def measureBlocks (s : State) : List (Nat × List Byte) :=
  let stages := (currentEntry s).elim [] (·.stages)
  let types := [0x00, 0x01, 0x01, 0x03]
  let w := stateWord s
  (stages.zipIdx.map fun p => (p.2 + 1, measureBlock (p.2 + 1) (types.getD p.2 0) (padTo 48 p.1)))
    ++ [(5, measureBlock 5 0x00 (padTo 48 Config.whRomDigest)),
      (6, measureBlock 6 0x80 (leBytes 4 (s.whd.released.getD 0xFFFFFFFF) ++ leBytes 4 0 ++ leBytes 8 w.lastTsn))]

/-- A MEASUREMENTS response: index 0 asks for their number, 0xFF for all. -/
def measurementsAnswer (index : Nat) (s : State) : List Byte :=
  let bs := measureBlocks s
  let chosen := if index = 0xFF then bs else bs.filter (·.1 == index)
  if index ≠ 0 ∧ chosen.isEmpty = true then spdmError 0x01
  else
    let body := chosen.flatMap (·.2)
    [0x12, 0x60, b8 (if index = 0 then bs.length else 0), 0, b8 chosen.length] ++ leBytes 3 body.length ++ body

/-- The sessions after a request (R425, Table 16-9), or the error code of one that has no room or no session: KEY_EXCHANGE begins
one, FINISH completes the oldest of its transport, END_SESSION ends it, GET_VERSION ends all of its transport. -/
def spdmSessions (mctp : Bool) (c : Nat) (l : List (Bool × Bool)) : Except Nat (List (Bool × Bool)) :=
  if c = 0x84 then .ok (l.filter (·.1 != mctp))
  else if c = 0xE4 then if l.length < 4 then .ok (l ++ [(mctp, false)]) else .error 0x0A
  else if c = 0xE5 then
    if l.contains (mctp, false) then .ok (l.replace (mctp, false) (mctp, true)) else .error 0x0B
  else if c = 0xE8 ∨ c = 0xE9 ∨ c = 0xEC then
    if !l.contains (mctp, true) then .error 0x0B else .ok (if c = 0xEC then l.erase (mctp, true) else l)
  else .ok l

/-- The answer to one SPDM message, the connection state after it and the sessions. -/
def spdmServe (mctp : Bool) (msg : List Byte) (s : State) : State :=
  let c := byteAt msg 1
  let st := if mctp then s.whd.spdmMctp else s.whd.spdmDoe
  if !spdmSupported c then spdmReply mctp (spdmError 0x07) s
  else
    match spdmNext st c with
    | none => spdmReply mctp (spdmError 0x04) s
    | some n =>
      match spdmSessions mctp c s.whd.sessions with
      | .error k => spdmReply mctp (spdmError k) s
      | .ok ss =>
        let l := if c = 0xE0 then measurementsAnswer (byteAt msg 3) s
          else Config.signed spdmAnswer (msg ++ (currentEntry s).elim [] entryBytes)
        let s := setSpdm mctp n s
        spdmReply mctp l { s with whd := { s.whd with sessions := ss } }

def doSpdm (mctp : Bool) (msg : List Byte) (s : State) : State := mbServe mbSpdm true (spdmServe mctp msg) s

/-- SPDM (R425). -/
def execSpdm (mctp : Bool) (msg : List Byte) (s : State) : Out := .next (doSpdm mctp msg s)

/-- GET_MEASUREMENTS (R426). -/
def execGetMeasurements (mctp : Bool) (index : Nat) (s : State) : Out :=
  .next (mbServe mbSpdm true (fun s => spdmReply mctp (measurementsAnswer index s) s) s)

/-- IDE_KM (R427): the decrypted request goes to the host interface's IDE key registers, and the response comes back
encrypted. -/
def execIdeKm (stream : IdeStream) (msg : List Byte) (s : State) : Out :=
  .next (mbServe mbSpdm true (fun s =>
    spdmReply false (Config.signed keyAnswer msg) (emit (.ideKey stream msg) s)) s)

def doMarkRead (epochs : List Nat) (s : State) : State :=
  mbServe mbMarkRead true (fun s =>
    let known := epochs.filter fun e => s.whd.ledger.any (·.epoch == e)
    { s with whd := { s.whd with readEpochs := known.foldl (fun l e => insertNat e l) s.whd.readEpochs } }) s

/-- MARK_READ (R421). -/
def execMarkRead (epochs : List Nat) (s : State) : Out := .next (doMarkRead epochs s)

/-! ### Firmware mailbox registers (Table 16-13) -/

/-- Consecutive 4-byte numbers of a list of bytes. -/
def nats4 (l : List Byte) : List Nat := (List.range (l.length / 4)).map fun i => leNat (slice l (4 * i) 4)

/-- A message with its type and content (Table 16-10; the widths of the fields are the model's, log entry 22). -/
def postMessage (type : Nat) (c : List Byte) (s : State) : State :=
  if type = mbExtend then doExtend (byteAt c 0) (slice c 1 48) s
  else if type = mbClose then doClose s
  else if type = mbLedgerGet then doLedgerGet (leNat (slice c 0 4)) (leNat (slice c 4 4)) s
  else if type = mbStatement then doStatement (statementOf (leNat (slice c 0 8)) (slice c 8 16)) s
  else if type = mbSpdm then doSpdm (byteAt c 0 == 1) (c.drop 1) s
  else if type = mbMarkRead then doMarkRead (nats4 c) s
  else mbServe type false id s

/-- SEND: the message in WH_MB_TX is posted. -/
def execSend (s : State) : Out :=
  .next <| postMessage (leNat (slice s.wh.tx 0 2)) ((padTo 1024 s.wh.tx).drop 4 |>.take (leNat (slice s.wh.tx 2 2))) s

/-- ROM_EXIT (R417): ROM_PHASE clears until reset. -/
def execRomExit (s : State) : Out := .next { s with wh := { s.wh with romPhase := false } }

/-- WH_MB_POP: the response held in WH_MB_RX is released; the next part, if any, takes its place. -/
def execWhMbPop (s : State) : Out :=
  .next <|
    let held := s.wh.rx.isSome
    emit (.mmioData (wd (boolNat held)))
      { s with wh := { s.wh with rx := (mbFront s.wh.rxRest).1, rxRest := (mbFront s.wh.rxRest).2 } }

/-! ### The Weighhouse's own reset and supply (R407, R465) -/

/-- What stops with the die. -/
def whStops (s : State) : State :=
  { s with whd := { s.whd with powered := false, spdmDoe := 0, spdmMctp := 0, sessions := [] }, wh := { s.wh with link := [] } }

/-- WH_RST_N (19 R465): the Weighhouse die alone is reset; its start follows. -/
def execWhRstN (s : State) : Out := .next (whStops s)

/-- WH_SUPPLY_LOSS (19 R465, 16 R408). -/
def execWhSupplyLoss (s : State) : Out :=
  .next <|
    let s := whStops s
    { s with whd := { s.whd with supplied := false } }

/-- Meter words of frames that were not committed are restored (R413). -/
def restoreMeters (last : Nat) (m : Table Meter) : Table Meter :=
  (m.map fun p => (p.1, if last < p.2.tsn then { p.2 with count := p.2.prevCount, tsn := p.2.prevTsn } else p.2)).filter
    fun p => p.2 ≠ .zero

/-- A power-on of the Weighhouse: WH_TIME resumes past its checkpoint, POWER_ONS rises, the reject counts restart. -/
def whPowerUp (s : State) : State :=
  let t := (stateWord s).timeCheck + 32768
  let s := putStateWord (fun w => { w with powerOns := w.powerOns + 1, timeCheck := t }) s
  { s with whd := { s.whd with supplied := true, time := t, timeFrom := s.aon.time, bad := 0, gap := 0, dup := 0 } }

/-- A start of the Weighhouse ends the entry of the formatter's boot: no epoch for the rest of it (19 R465). -/
def dropEpoch (s : State) : State :=
  { s with wh := { s.wh with epochValid := false, epoch := 0xFFFFFFFF }, whd := { s.whd with released := none } }

/-- WEIGHHOUSE_POWER_ON (R406, R407, R413, R419): the die starts, after a power-on or after WH_RST_N. -/
def execWeighhousePowerOn (selfTestOk : Bool) (s : State) : Out :=
  .next <|
    if s.whd.powered then s
    else
      let s := if s.whd.supplied then s else whPowerUp s
      let life := if s.whd.lifecycle = 0 then 0 else if selfTestOk then 1 else 2
      let s := { s with whd := { s.whd with
        powered := true, lifecycle := life, meters := restoreMeters (stateWord s).lastTsn s.whd.meters } }
      dropEpoch (endEntry 3 s)

/-- WH_TIME_CHECKPOINT (R407). -/
def execWhTimeCheckpoint (s : State) : Out :=
  .next <| if s.whd.powered then putStateWord (fun w => { w with timeCheck := whTime s }) s else s

/-! ### LEDGER_READ and METER_STATEMENT -/

/-- Epochs of the oldest retained entry and of the current one, as RESULT1 of LEDGER_READ. -/
def ledgerSpan (s : State) : Nat :=
  (s.whd.ledger.getLast?.elim 0 (·.epoch)) + (s.whd.ledger.head?.elim 0 (·.epoch)) * 2 ^ 32

/-- Entries that a LEDGER_READ writes (R422). -/
def ledgerChoice (e : JournalEntry) (s : State) : List LedgerEntry :=
  if entryExpert e then entriesFrom (bits (pktWord e 2) 0 32) (bits (pktWord e 3) 0 13) s
  else s.whd.ledger.take 1

/-- LEDGER_READ (R422, R415). -/
def execLedgerRead (jsn : Nat) (s : State) : Out :=
  .next <| onBegin opLedgerRead jsn s fun e _ s =>
    if s.wh.avail ≠ 1 then endBare jsn stUnitDegraded s
    else if !whServes s then waitRun jsn s
    else
      let l := ledgerChoice e s
      let s := if l.isEmpty then s else hostStore (pktWord e 1).toNat (l.flatMap entryBytes) s
      endWith jsn stOk l.length (ledgerSpan s) (doMarkRead (l.map (·.epoch)) s)

/-- The statement that a METER_STATEMENT asks for (R423). -/
def statementReq (e : JournalEntry) : StatementReq :=
  if entryExpert e then statementOf (pktWord e 2).toNat (wordBytes [pktWord e 3, pktWord e 4])
  else { firstTenant := 0, count := 4096, nonzero := false, nonce := List.replicate 16 0 }

/-- METER_STATEMENT (R424, R415): it waits for the tallies queued at its acceptance. -/
def execMeterStatement (jsn : Nat) (s : State) : Out :=
  .next <| onBegin opMeterStatement jsn s fun e r s =>
    if s.wh.avail ≠ 1 then endBare jsn stUnitDegraded s
    else if s.wh.lastTsn < r.done || !whServes s then waitRun jsn s
    else
      let s := nextStatement s
      let l := statementContent (statementReq e) s
      endWith jsn stOk l.length (stateWord s).statementNo (hostStore (pktWord e 1).toNat l s)

/-! ### Register values -/

/-- WH_STATUS (Table 16-11). -/
def whStatus (s : State) : Nat :=
  s.wh.avail + s.wh.lifecycle * 2 ^ 2 + boolNat s.wh.epochValid * 2 ^ 4 + boolNat s.wh.blocked * 2 ^ 5 + s.wh.epoch * 2 ^ 32

/-- WH_QUEUE (Table 16-12). -/
def whQueue (s : State) : Nat := s.mram.tallies.length + s.wh.reserved * 2 ^ 14

end Sys2Proof.Machine
end

