-- ==== Sys2Proof/Machine/Logs.lean ====
section
/-! DEFINITION. The commands of chapter 03: NOP (R87), IDENTIFY (R88), GET_STATUS (R89), GET_LOG and CLEAR_LOG with the log
pages (R90; Tables 9-9, 14-18, 17-6). -/

namespace Sys2Proof.Machine

/-! ### NOP -/

/-- DELAY of the expert form; 0 in the basic form. -/
def nopDelay (e : JournalEntry) : Nat := if entryExpert e then bits (pktWord e 2) 0 32 else 0

/-- A NOP ends with its cookie in RESULT0. -/
def endNop (e : JournalEntry) (s : State) : State := endR0 e.jsn stOk (pktWord e 1).toNat s

/-- NOP (R87): with a DELAY it runs from the tick at which it starts. -/
def execNop (jsn : Nat) (s : State) : Out :=
  .next <| onBegin opNop jsn s fun e _ s =>
    if nopDelay e = 0 then endNop e s else setRun jsn (fun r => { r with done := s.sys.tickCount.toNat }) (startRun jsn s)

/-- NOP_DELAY_EXPIRY (R87): DELAY ticks have passed. -/
def execNopDelayExpiry (jsn : Nat) (s : State) : Out :=
  .next <| match started opNop jsn s with
    | some (e, r) => if r.done + nopDelay e ≤ s.sys.tickCount.toNat then endNop e s else s
    | none => s

/-! ### IDENTIFY -/

/-- The structure of Table 3-14. -/
def identity (s : State) : List Byte :=
  padTo 4096 (leBytes 2 0x1F4B ++ leBytes 2 0x8160 ++ [0xB0, b8 (1 + 2 * boolNat s.cmd.compatActive), 0, 0]
    ++ leBytes 8 Config.serialNumber.toNat ++ (List.range 32).map Config.firmwareVersion ++ leBytes 4 s.wh.epoch
    ++ leBytes 4 262144 ++ leBytes 2 4096 ++ [64, 16] ++ leBytes 2 4096 ++ leBytes 2 1280 ++ leBytes 4 24576
    ++ [4, 25, 0, 0] ++ leBytes 8 (if s.hif.mode = 1 ∧ s.hif.committed then s.hif.hdmSize else 0))

/-- IDENTIFY (R88). -/
def execIdentify (jsn : Nat) (s : State) : Out :=
  .next <| onBegin opIdentify jsn s fun e _ s =>
    endBare jsn stOk (hostStore (pktWord e 1).toNat (identity s) s)

/-! ### GET_STATUS -/

/-- A command with one of some opcodes has begun and not ended. -/
def atWork (os : List Nat) (s : State) : Bool :=
  s.jrn.entries.any fun e => os.contains (entryOp e) && (findRun s e.jsn).any fun r => r.phase == .waiting || r.phase == .started

/-- DRIVE_STATE; a cartridge that is neither loaded nor being loaded has none of the codes: a free value. -/
def driveState (s : State) : Nat :=
  if s.drv.safeStop || s.mon.stopped then 7
  else if s.cart.inDrive.isNone then 0
  else if atWork [opUnload] s then 6
  else if !s.cart.loaded then (if atWork [opLoad] s then 1 else Config.freeNat s.freeCount % 16)
  else if s.fmt.run.isSome then 4
  else if s.tec.rdActive then 5
  else if s.cart.positioned then 3 else 2

/-- The partition that a wrap lies in. -/
def partitionAt (w : Nat) (c : Cartridge) : Nat :=
  ((List.range (cmPartitions c)).find? fun p => firstWrap c p ≤ w && w < firstWrap c p + wrapsOf c p).getD 0

/-- The partition under the head. -/
def currentPartition (s : State) : Nat :=
  match s.fmt.run, s.cart.inDrive, s.cart.wrap with
  | some r, _, _ => r.partition
  | none, some c, some w => partitionAt w c
  | _, _, _ => 0

/-- One bit per unit that is DEGRADED or OFFLINE. -/
def unitBits (s : State) : Nat := (List.range 32).foldl (fun n u => n + boolNat (unitDown u s) * 2 ^ u) 0

/-- Accepted commands not yet ended. -/
def unfinished (s : State) : Nat :=
  (s.jrn.entries.filter fun e => decide (e.slot = .valid) && (findRun s e.jsn).any fun r => decide (r.phase ≠ .unretired)).length

/-- RESULT0 of GET_STATUS. -/
def statusResult (s : State) : Nat :=
  driveState s + s.sys.step * 2 ^ 4 + boolNat s.cmd.compatActive * 2 ^ 9 + currentPartition s * 2 ^ 10 + unitBits s * 2 ^ 32

/-- GET_STATUS (R89). -/
def execGetStatus (jsn : Nat) (s : State) : Out :=
  .next <| onBegin opGetStatus jsn s fun _ _ s => drawFree (endWith jsn stOk (statusResult s) (unfinished s) s)

/-! ### Log pages -/

/-- CMD_CTR_STATUS (Table 3-7). -/
def ctrStatus (s : State) : Nat :=
  let c := s.cmd.counter
  let st := match c.state with
    | .idle => 0
    | .opened => 1
    | .dropping => 2
  ctrFree c + (ctrPackets c).length * 2 ^ 7 + st * 2 ^ 13 + c.dropped * 2 ^ 16 + c.discarded * 2 ^ 32 + c.flushed * 2 ^ 48

/-- CMD_JOURNAL_STATUS (Table 3-16). -/
def journalStatus (s : State) : Nat :=
  s.jrn.entries.length + boolNat (slotWaits s) * 2 ^ 15 + s.jrn.retire.length * 2 ^ 16

/-- Page 0x01 (Table 17-6). -/
def unitPage (s : State) : List Byte :=
  leBytes 4 (unitBits s) ++ leBytes 12 0
    ++ ((List.range 32).flatMap fun u =>
      let x := s.sys.units.getD u .zero
      leBytes 4 x.transient ++ [b8 x.state, b8 x.cause, 0, 0])
    ++ ((List.range 24).flatMap fun k => leBytes 4 (tabGet 0 s.sys.laneRetries k))
    ++ ((List.range 64).flatMap fun t => leBytes 4 (tabGet 0 s.sys.trackRetries t))

def errEntry (e : ErrEntry) : List Byte :=
  leBytes 8 e.address ++ [b8 e.position, b8 e.kind] ++ leBytes 2 e.repeats ++ leBytes 4 e.tick

/-- Page 0x02 (Table 14-18). -/
def memPage (s : State) : List Byte :=
  let m := s.mem
  ([m.sramCe, m.sramUe, m.hbmCe, m.hbmUe, m.poisonMerges].flatMap (leBytes 8)) ++ leBytes 4 m.sramOver ++ leBytes 4 m.hbmOver
    ++ leBytes 16 0 ++ ((List.range 32).flatMap fun p => leBytes 4 (tabGet 0 m.pcCounts p))
    ++ padTo 512 (m.sramTab.flatMap errEntry) ++ padTo 512 (m.hbmTab.flatMap errEntry)

/-- Page 0x05. -/
def queuePage (s : State) : List Byte := leBytes 8 (ctrStatus s) ++ leBytes 8 (journalStatus s) ++ leBytes 4 s.cmd.evt.highWater

/-- VFY_TRACK_EXCL. -/
def exclMask (s : State) : Nat := (List.range 64).foldl (fun n t => n + boolNat (s.vfy.excluded.any (·.1 == t)) * 2 ^ t) 0

def exclCause (t : Nat) (s : State) : Nat := (s.vfy.excluded.find? (·.1 == t)).elim 0 (·.2)

/-- Page 0x06 (Table 9-9). -/
def verifyPage (s : State) : List Byte :=
  let v := s.vfy
  ([v.cwFirst, v.cwFail, v.cwMargin, v.copies, v.copyFail, v.whole, v.lasting, s.fmt.releasedCount, exclMask s, 0].flatMap (leBytes 8))
    ++ (List.range 64).flatMap fun t =>
      leBytes 4 (tabGet 0 v.trackErrs t) ++ [b8 (exclCause t s), b8 (min 255 (tabGet 0 s.sys.trackRetries t)), 0, 0]

/-- Pages 0x01 to 0x06. -/
def logPages (s : State) : List (List Byte) :=
  [unitPage s, memPage s, wrapPage s.tec.last, linkPage s, queuePage s, verifyPage s]

/-- A log page (Table 3-15); page 0x00 lists the sizes, its own first. -/
def logPage (n : Nat) (s : State) : List Byte :=
  if n = 0 then leBytes 4 28 ++ (logPages s).flatMap fun p => leBytes 4 p.length else (logPages s).getD (n - 1) []

/-- GET_LOG (R90). -/
def execGetLog (jsn : Nat) (s : State) : Out :=
  .next <| onBegin opGetLog jsn s fun e _ s =>
    let p := logPage (bits (pktWord e 2) 0 8) s
    let l := (p.drop (pktWord e 3).toNat).take (bits (pktWord e 2) 8 24)
    let s := if l.isEmpty then s else hostStore (pktWord e 1).toNat l s
    endR0 jsn stOk p.length s

/-- The counters of a page are cleared. -/
def clearPage (n : Nat) (s : State) : State :=
  if n = 1 then { s with sys := { s.sys with
    units := s.sys.units.map fun u => { u with transient := 0 }, laneRetries := [], trackRetries := [] } }
  else if n = 2 then { s with mem := { s.mem with
    sramCe := 0, sramUe := 0, hbmCe := 0, hbmUe := 0, poisonMerges := 0, sramOver := 0, hbmOver := 0, pcCounts := []
    sramTab := [], hbmTab := [] } }
  else if n = 3 then { s with tec := { s.tec with last := { s.tec.last with
    tracks := s.tec.last.tracks.map fun t => (t.1, t.2.1, t.2.2.1, t.2.2.2.1, 0, 0) } } }
  else if n = 4 then { s with hlk := { s.hlk with
    lanes := s.hlk.lanes.map fun l => { l with crcErr := 0, blockErr := 0, lockLoss := 0, lost := 0 } } }
  else if n = 5 then { s with cmd := { s.cmd with
    counter := { s.cmd.counter with dropped := 0, discarded := 0, flushed := 0 }, evt := { s.cmd.evt with highWater := 0 } } }
  else { s with
    vfy := { s.vfy with cwFirst := 0, cwFail := 0, cwMargin := 0, copies := 0, copyFail := 0, whole := 0, lasting := 0, trackErrs := [] }
    fmt := { s.fmt with releasedCount := 0 }, sys := { s.sys with trackRetries := [] } }

/-- CLEAR_LOG (R90). -/
def execClearLog (jsn : Nat) (s : State) : Out :=
  .next <| onBegin opClearLog jsn s fun e _ s => endBare jsn stOk (clearPage (bits (pktWord e 1) 0 8) s)

end Sys2Proof.Machine
end

