-- ==== Sys2Proof/Machine/Power.lean ====
section
/-! DEFINITION. Power states (15 R392-R398), SET_WAKE_TOLERANCE (R394), cartridge presence and tape slack (R401, R402). -/

namespace Sys2Proof.Machine

/-! ### Idle states -/

/-- Wake time of a state in microseconds (Table 15-3). -/
def wakeMicros (st : Nat) : Nat := [0, 100, 5000, 450000, 2500000].getD st 0

/-- The deepest allowed state: by tolerance, STATE_MAX and, for L3, R44. -/
def deepest (s : State) : Nat :=
  let ok := fun (k : Nat) => decide (wakeMicros k ≤ s.pwr.tolerance) && decide (k ≤ s.pwr.allowedMax)
    && !(k == 4 && s.hif.committed && s.hif.memEn)
  ((List.range 5).filter fun k => k == 0 || ok k).foldl max 0

/-- A buffer of the SRAM pools is allocated. -/
def sramBuffers (s : State) : Bool := (List.range 2).any fun p => (getPool p s).bufs.any fun b => b.2.allocated

/-- The state that an entry reaches: L3 only without SRAM pool buffers. -/
def reachable (s : State) : Nat := if deepest s = 4 ∧ sramBuffers s = true then 3 else deepest s

/-- The tape is at rest. -/
def atRest (s : State) : Bool := s.fmt.run.isNone && s.sys.step == 0x1F && s.mon.speed == 0

/-- Idle conditions (R393). -/
def idleNow (s : State) : Bool :=
  decide (s.sys.phase = .running) && s.jrn.runs.isEmpty && atRest s && orderedWaiting s == 0 && s.cmd.evt.held.isEmpty
    && !s.drv.safeStop && !s.mon.stopped && !s.thm.stopped && !s.pwr.waking

/-- The head link goes to electrical idle (11 R293). -/
def linkIdle (s : State) : State :=
  { s with hlk := { s.hlk with
    state := if s.hlk.state = 4 then 4 else 0, capRead := 0x1F, capWrite := 0x1F, retraining := none, maskNext := []
    lanes := s.hlk.lanes.map fun l => { l with active := false, locked := false } } }

/-- What an entry into L3 saves (R398): pending returns are made, the context cache is written back; the clean-shutdown mark
(06 R157, 17 R432). -/
def saveForL3 (s : State) : State :=
  let s := (returns s).foldl returnBuf s
  let s := (List.range 4).foldl publishPool s
  { s with
    ctx := { s.ctx with lines := [] }, pwr := { s.pwr with saved := true }
    mram := { s.mram with cleanMark := s.jrn.runs.isEmpty } }

/-- A power state is entered: counted, and PWR_STATE_CHANGE. -/
def enterState (k : Nat) (s : State) : State :=
  let s := if s.pwr.state = 0 then { s with pwr := { s.pwr with idleFrom := s.aon.time } } else s
  let s := if 2 ≤ k then linkIdle s else s
  let s := if 3 ≤ k then { s with aon := { s.aon with reelEn := false } } else s
  let s := if k = 4 then saveForL3 s else s
  raiseP evPwrStateChange k { s with pwr := { s.pwr with
    state := k, entries := s.pwr.entries.modify (k - 1) (sat64 · 1) } }

/-- IDLE_ENTRY (15 R393): L0 at once, the deepest allowed state after IDLE_DELAY or under NOW. -/
def execIdleEntry (at_ : Nat) (s : State) : Out :=
  .next <|
    let s := atTime at_ s
    if !idleNow s || deepest s == 0 then s
    else
      let deep := s.pwr.now || s.pwr.idleDelay == 0
        || (s.pwr.state != 0 && passedMs s.pwr.idleFrom s.aon.time s.pwr.idleDelay)
      let k := if deep then reachable s else 1
      if k ≤ s.pwr.state then s else enterState k s

/-- Under NOW the core enters the deepest state at once (15 R394). -/
def enterIfNow (s : State) : State :=
  if s.pwr.now && idleNow s && decide (reachable s ≠ 0) then enterState (reachable s) s else s

/-- SET_WAKE_TOLERANCE (15 R394). -/
def execSetWakeTolerance (jsn : Nat) (s : State) : Out :=
  .next <| onBegin opSetWake jsn s fun e _ s =>
    let old := s.pwr.tolerance
    let ex := entryExpert e
    let s := { s with pwr := { s.pwr with
      tolerance := bits (pktWord e 1) 0 32, allowedMax := if ex then bits (pktWord e 2) 0 3 else 4
      now := ex && bitAt (pktWord e 2) 3 } }
    enterIfNow (endWith jsn stOk (deepest s) old s)

/-! ### Wakes -/

/-- WAKE_TRIGGER (15 R395): a CXL.mem request is one only in L3. -/
def execWakeTrigger (k : WakeKind) (s : State) : Out :=
  .next (if k = .cxlMem ∧ s.pwr.state ≠ 4 then s else wakeNow s)

/-- WAKE (15 R395). -/
def execWake (s : State) : Out := .next (wakeNow s)

/-- On the way out of L3 the SRAM is swept, and the saved state is back (15 R398). -/
def restoreL3 (s : State) : State :=
  { s with
    mem := { s.mem with sram := [], sramErr := [], sramPoison := [] }, pwr := { s.pwr with saved := false }
    mram := { s.mram with cleanMark := false } }

/-- The core is back in run (15 R397, R398; 11 R292): the head link trains after L1 to L3. -/
def awake (k : Nat) (t : TrainResult) (s : State) : State :=
  let s := if 3 ≤ k then { s with aon := { s.aon with reelEn := s.cart.inDrive.isSome } } else s
  let s := { s with pwr := { s.pwr with state := 0, waking := false } }
  let s := if 2 ≤ k ∧ s.hlk.state ≠ 4 then trainLink t s else s
  raiseP evPwrStateChange 0 s

/-- WAKE_COMPLETE (15 R397). -/
def execWakeComplete (t : TrainResult) (s : State) : Out :=
  .next <|
    if !s.pwr.waking || s.sys.phase ≠ .running then s
    else awake s.pwr.state t (if s.pwr.state = 4 then restoreL3 s else s)

/-! ### Cartridge presence and slack -/

/-- Serials that have a pending truncation, oldest first. -/
def pendingSerials (s : State) : List (List Byte) := (s.mram.truncs.map (·.1)).dedup

/-- A partition of the loaded cartridge has datasets written after its last released one (17 R435, 09 R255). A truncation
that AT_POSITION asked for, before the durable end, has written nothing yet. -/
def truncOwed (s : State) (p : Nat) : Bool :=
  let last := (s.cart.inDrive.bind fun c => mramEnd c p s).getD (s.fmt.durableEnd.getD p 0)
  s.fmt.owed.getD p false || (s.fmt.truncate.getD p none).any (fun n => decide (last ≤ n)) || reachesOn p s
    || s.fmt.active.any fun d => d.ds.partition == p && d.written && isAlive d

/-- Pending truncations are recorded for the cartridge; of more than 16 cartridges the oldest is displaced. -/
def recordTruncs (ser : List Byte) (ps : List Nat) (s : State) : State :=
  let l := s.mram.truncs.filter (·.1 != ser) ++ ps.map fun p => (ser, p)
  let names := (l.map (·.1)).dedup
  let keep := names.drop (names.length - 16)
  { s with mram := { s.mram with truncs := l.filter fun t => keep.contains t.1 } }

/-- A cartridge is removed (15 R401, 17 R435): the run ends without run-out, writes end without a cartridge. -/
def removeCart (s : State) : State :=
  match s.cart.inDrive with
  | none => s
  | some c =>
    let s := interruptRun s
    let ps := if s.cart.loaded then (List.range 4).filter (truncOwed s) else []
    let s := if s.cart.loaded then endWritesNow (openWrites s) stMediaError (some 0xFFFFFFFFFFFFFFFF) s else s
    let s := if ps.isEmpty then s
      else raiseP evSysTruncPending (leNat (cartSerial c) % 2 ^ 64) (recordTruncs (cartSerial c) ps s)
    let s := dropHeld (endMediaExclusions s)
    { s with cart := .reset, tec := { s.tec with live := .none } }

/-- CART_PRESENCE_CHANGE (15 R401). -/
def execCartPresenceChange (c : Option Cartridge) (s : State) : Out :=
  .next <|
    if c.isSome = s.aon.cartPresent then s
    else
      let s := { s with aon := { s.aon with cartPresent := c.isSome } }
      let s := match c with
        | some c => { s with cart := { Cart.reset with inDrive := some c } }
        | none => removeCart s
      wakeNow (raiseP evPwrCartChange (boolNat c.isSome) s)

/-- TAPE_SLACK (15 R402). -/
def execTapeSlack (asserted : Bool) (s : State) : Out :=
  .next <|
    let was := s.aon.slack
    let s := { s with aon := { s.aon with slack := asserted } }
    if asserted && !was then raiseN evPwrTapeSlack s else s

/-- An assertion that lasts 8 ticks under tension fails the tension transducer (R402). -/
def slackTick (tension : Option Int) (s : State) : State :=
  let hit := s.aon.slack && decide ((getLoop 1 s).mode = 2) && tension.any fun v => decide (400 < v)
  let n := if hit then s.mon.slackTicks + 1 else 0
  let s := { s with mon := { s.mon with slackTicks := n } }
  if n = 8 then sensorFail 2 s else s

/-! ### Register values -/

/-- PWR_STATUS (Table 15-11). -/
def pwrStatus (s : State) : Nat :=
  s.pwr.state + deepest s * 2 ^ 3 + boolNat s.pwr.waking * 2 ^ 6 + s.pwr.tolerance * 2 ^ 8

end Sys2Proof.Machine
end

