-- ==== Sys2Proof/Machine/Reset.lean ====
section
/-! DEFINITION. Starts of the formatter die (17 R428-R431, R473, 19 R462-R464), trips and supply loss (15 R389-R391, R400),
start-up (17 Table 17-3), the journal scan (R432), replay and its reports (R433-R437). -/

namespace Sys2Proof.Machine

/-! ### What an interruption leaves -/

/-- Data datasets of the partitions of the loaded cartridge that lie behind their last released one. -/
def owedPartitions (s : State) : List Nat := if s.cart.loaded then (List.range 4).filter (truncOwed s) else []

/-- The durable end of a partition: what MRAM holds once a run has been made since LOAD (09 R255). -/
def durableAt (s : State) (p : Nat) : Nat :=
  if s.fmt.based.getD p false then ((s.cart.inDrive.bind fun c => mramEnd c p s).getD (s.fmt.durableEnd.getD p 0))
  else s.fmt.durableEnd.getD p 0

/-- Leading durable items of a write command, from the release records (17 R434). -/
def durableCount (s : State) (r : RunInfo) : Nat :=
  match findWrite r.jsn s, r.final with
  | some w, _ => w.durable
  | none, some f => f.2.1.toNat
  | none, none => r.done

/-- Progress that a command keeps in MRAM: the durable count of a write, the TSN for which a METER_STATEMENT waits. -/
def keptDone (s : State) (r : RunInfo) : Nat :=
  match findEntry s r.jsn with
  | some e => if isWriteLike e then durableCount s r else if entryOp e = opMeterStatement then r.done else 0
  | none => 0

/-- RESULT1 of a write command that the interruption meets: its first item, or the end of its partition's data (04 R107). -/
def keptFirst (s : State) (r : RunInfo) : Option Nat :=
  match findWrite r.jsn s with
  | some w => some (w.firstItem.getD (durableAt s w.partition))
  | none => r.first

/-- The journal as the next scan finds it (R432): torn entries are gone, and with them their retire words; a slot whose freeing
was not durable is valid again (03 R76); open commands have a run to be made anew. -/
def scanJournal (s : State) : State :=
  let es := (s.jrn.entries.filter fun e => imageValid (entryImage e)).map fun e => { e with slot := .valid }
  let here := fun (j : Nat) => es.any (·.jsn == j)
  let rs := s.jrn.retire.filter fun w => here w.jsn && retireValid (retireImage w)
  let opened := fun (r : RunInfo) => here r.jsn && !(rs.any fun w => w.jsn == r.jsn && w.state == 2)
  let runs := (s.jrn.runs.filter opened).map fun r =>
    { newRun r.jsn r.list true with done := keptDone s r, grant := r.grant, first := keptFirst s r }
  { s with jrn := { s.jrn with entries := es, retire := rs, runs := runs } }

/-- What the interruption of the formatter die leaves on tape and in MRAM. -/
def strike (s : State) : State := { scanJournal (interruptRun s) with out := s.out }

/-- Pending truncations are recorded for the cartridge (R435). -/
def keepTruncs (s : State) : State :=
  match s.cart.inDrive with
  | some c => if (owedPartitions s).isEmpty then s else recordTruncs (cartSerial c) (owedPartitions s) s
  | none => s

/-! ### State after a warm reset (Table 17-2) -/

/-- A loop keeps running; its flags and waiting loads go. Loop 0 is profiled to rest. -/
def warmLoop (n : Nat) (l : Loop) : Loop :=
  { l with
    shadow := l.cfg, sat := false, clamp := false, missing := false, overrun := false, bump := false, loads := [],
    targetNext := if n = 0 then some 0 else l.targetNext }

def warmDrv (s : State) : Drv :=
  { Drv.reset with
    busyMax := s.drv.busyMax, speedLoop := s.drv.speedLoop, speedEn := s.drv.speedEn, speedLoopSh := s.drv.speedLoop,
    speedEnSh := s.drv.speedEn, loops := s.drv.loops.zipIdx.map fun p => warmLoop p.2 p.1, dacQueue := s.drv.dacQueue,
    latched := s.drv.latched, secPeriod := s.drv.secPeriod, secStep := s.drv.secStep, busyNow := s.drv.busyNow,
    s1ClrN := s.drv.s1ClrN }

/-- The transport's sensors stand as they are; a safe stop that the reset meets is followed by its retry. -/
def warmMon (s : State) : Mon :=
  { Mon.reset with
    sensors := s.mon.sensors, lock := s.mon.lock, radiusA := s.mon.radiusA, radiusB := s.mon.radiusB,
    kSquare := s.mon.kSquare, stopped := s.mon.stopped || s.drv.safeStop, safeCause := s.mon.safeCause,
    lastStop := s.mon.lastStop, sfn := s.mon.sfn, band := s.mon.band, bandWait := s.mon.bandWait, wrapNow := s.mon.wrapNow, speed := s.mon.speed,
    currents := s.mon.currents, slowFrom := s.mon.slowFrom }

/-- A lane keeps its retirement, and RETRAINS counts since the cold reset (11 Table 11-13). -/
def warmLane (l : HlkLane) : HlkLane := { HlkLane.reset with retired := l.retired, cause := l.cause, retrains := l.retrains }

/-- The internal part of HBM that is no Porter buffer stays; the HDM window and the buffers read zero. -/
def warmMem (s : State) : Mem :=
  let keepG := fun (g : Nat) => sysGranule g || mirrorGranule g
  let keepA := fun (a : Nat) => keepG (granuleOf a)
  { Mem.reset with
    hbm := s.mem.hbm.filter fun c => keepA c.1
    written := s.mem.written.filter keepG
    hbmErr := s.mem.hbmErr.filter fun c => keepA c.1
    hbmPoison := s.mem.hbmPoison.filter keepA
    retiredPc := s.mem.retiredPc, remapPc := s.mem.remapPc, retrainPc := s.mem.retrainPc, retrainAddr := s.mem.retrainAddr
    retrainAt := s.mem.retrainAt, degraded := s.mem.degraded }

def warmFmt (s : State) : Fmt :=
  let ends := (List.range 4).map (durableAt s)
  let ps := owedPartitions s
  { Fmt.reset with
    nextSeq := s.fmt.nextSeq, placeEnd := ends, durableEnd := ends, based := s.fmt.based, c3Next := s.fmt.c3Next
    owed := (List.range 4).map fun p => ps.contains p }

/-- A pending area whose command is gone is free. -/
def freeAreas (js : List Nat) (t : Table KeySlot) : Table KeySlot :=
  (t.map fun p => match pendingJsn p.2.pending with
    | some j => (p.1, if js.contains j then p.2 else { p.2 with pending := .none })
    | none => p).filter fun p => decide (p.2 ≠ KeySlot.none)

def warmCph (s : State) : Cph :=
  let js := s.jrn.entries.map (·.jsn)
  { Cph.reset with
    ctxSlots := freeAreas js s.cph.ctxSlots, devSlots := freeAreas js s.cph.devSlots, degraded := s.cph.degraded }

/-- Blocks that keep nothing but their failed units over a warm reset. -/
def warmBlocks (s : State) : State :=
  { s with
    ctx := { Ctx.reset with records := (s.ctx.records.map fun p => (p.1, { p.2 with dict := 0 })).filter fun p => decide (p.2 ≠ Context.zero) }
    pkr := { Pkr.reset with cDegraded := s.pkr.cDegraded, dDegraded := s.pkr.dDegraded }
    tec := { Tec.reset with degradedChannels := s.tec.degradedChannels }
    vfy := { Vfy.reset with excluded := s.vfy.excluded, disabled := s.vfy.disabled }
    hlk := { Hlk.reset with lanes := s.hlk.lanes.map warmLane, wholeRetry := s.hlk.wholeRetry }
    spm := .reset
    thm := { Thm.reset with sensors := s.thm.sensors, published := s.thm.published }
    pwr := .reset, prt := .reset, wh := .reset, mgt := .reset }

def warmSys (s : State) : Sys :=
  { Sys.reset with
    tickCount := s.sys.tickCount, tickStart := s.sys.tickStart
    units := s.sys.units.map fun u => { u with transient := 0 }
    lasting := s.sys.lasting, subsysId := s.sys.subsysId, cores := s.sys.cores }

/-- A link that stays up keeps its mode (02 Table 2-7). -/
def warmHif (linkDown : Bool) (s : State) : Hif :=
  if linkDown then .reset else { Hif.reset with mode := s.hif.mode, rate := s.hif.rate, width := s.hif.width }

/-- Every buffer is freed and PRT_EPOCH rises (14 R362). -/
def raiseEpoch (s : State) : State :=
  { s with mram := { s.mram with prtEpoch := (s.mram.prtEpoch + 1) % 65536, ceilNext := none, releasing := [] } }

/-- The RWS fields of command intake stay (R91). -/
def warmCmd (s : State) : Cmd := { Cmd.reset with compatT4 := s.cmd.compatT4, compatActive := s.cmd.compatActive }

/-- The state that a warm reset leaves. -/
def clearWarm (linkDown : Bool) (s : State) : State :=
  raiseEpoch { warmBlocks s with
    sys := warmSys s, hif := warmHif linkDown s, cmd := warmCmd s, cph := warmCph s, fmt := warmFmt s, drv := warmDrv s
    mon := warmMon s, mem := warmMem s }

/-! ### State after a cold reset, a power-on, a trip restart -/

/-- The cartridge in the drive is to be loaded again (R435). -/
def coldCart (s : State) : Cart := { Cart.reset with inDrive := s.cart.inDrive, threaded := s.cart.inDrive.isSome }

/-- The state that the other starts leave; device key slot 0 is drawn again. -/
def clearCold (s : State) : State :=
  let s := keepTruncs s
  raiseEpoch <| drawFree { s with
    sys := .reset, hif := .reset, cmd := .reset, ctx := .reset, pkr := .reset
    cph := { Cph.reset with devSlots := [(0, .drawn s.freeCount), (1, .rom)] }
    fmt := .reset, tec := .reset, vfy := .reset, hlk := .reset, drv := .reset, mon := .reset, spm := .reset, prt := .reset
    mem := { Mem.reset with retiredPc := s.mem.retiredPc }
    thm := .reset, pwr := .reset, wh := .reset, mgt := .reset, cart := coldCart s }

/-- KIND, SOURCE and UNCLEAN of SYS_RESET_CAUSE. -/
def setCause (kind source : Nat) (s : State) : State :=
  { s with sys := { s.sys with kind := kind, source := source, unclean := !s.mram.cleanMark } }

/-- Start-up step 1 may begin. -/
def toStepOne (s : State) : State := { s with sys := { s.sys with phase := .stepOne } }

/-! ### Warm and cold resets -/

/-- A warm reset of a running device (R428, R429). -/
def warmReset (linkDown : Bool) (source : Nat) (s : State) : State :=
  toStepOne (setCause 2 source (clearWarm linkDown (strike (endEntry 1 s))))

/-- The tape is moving. -/
def tapeMoves (s : State) : Bool := s.sys.step != 0x1F || s.mon.speed != 0

/-- Loop 0 is brought to rest while the rest of the die is in reset (R473): write inhibit, SAFE_CAUSE 7, no event. -/
def coldStop (old : State) (s : State) : State :=
  let s := { s with drv := old.drv, mon := { old.mon with
    inhibit := true, inhSrc := old.mon.inhSrc ||| 8, safeCause := causeCold, openLoop := false, slowFrom := none } }
  let s := stopCurrents (stopLoop false s)
  let s := if old.mon.inhibit then s else emit .inhibit s
  { s with
    drv := { s.drv with safeStop := true }
    sys := { s.sys with phase := .coldStop, stopBegan := s.aon.time, step := old.sys.step, lastPeriod := old.sys.lastPeriod } }

/-- A cold reset (R428, R473). -/
def coldReset (source : Nat) (s : State) : State :=
  let moves := tapeMoves s
  let n := setCause 1 source (clearCold (strike (endEntry 1 s)))
  if moves then coldStop s n else toStepOne { n with aon := { n.aon with reelEn := false, brake := true } }

/-- WARM_RESET (02 R57). -/
def execWarmReset (c : LinkReset) (s : State) : Out :=
  .next <|
    if s.sys.phase ≠ .running then s
    else match c with
      | .flr => warmReset false 4 s
      | .hotReset => warmReset true 5 s
      | .dlDown => warmReset true 6 s

/-- SYS_RESET_CTRL_WARM (R430): ignored while READY is 0. -/
def execSysResetCtrlWarm (s : State) : Out := .next <| onMmio s <| if s.sys.ready then warmReset false 2 s else s

/-- SYS_RESET_CTRL_COLD (R430). -/
def execSysResetCtrlCold (s : State) : Out := .next <| onMmio s <| if s.sys.ready then coldReset 2 s else s

/-- COLD_RST_N (R428, 19 R464): a start that waits keeps its kind; ignored while CORE_EN is low. -/
def execColdRstN (s : State) : Out := .next <| if s.aon.coreEn ∧ s.sys.phase = .running then coldReset 1 s else s

/-- COLD_RESET_STOP_END (R473). -/
def execColdResetStopEnd (at_ : Nat) (s : State) : Out :=
  .next <|
    let s := atTime at_ s
    let slow := match s.mon.slowFrom with
      | some t => passedMs t s.aon.time 100
      | none => false
    if s.sys.phase ≠ .coldStop || !(slow || passedMs s.sys.stopBegan s.aon.time 2200) then s
    else
      toStepOne { s with
        sys := { Sys.reset with kind := s.sys.kind, source := s.sys.source, unclean := s.sys.unclean }
        cmd := .reset, drv := .reset, mon := .reset, spm := .reset, aon := { s.aon with reelEn := false, brake := true } }

/-! ### Power-on, trips, supply loss (15 R388-R391, R400, 19 R462-R464) -/

/-- The core supplies are gone. -/
def powerDown (s : State) : State :=
  let s := clearCold (strike (endEntry 2 s))
  { s with sys := { s.sys with phase := .off }, aon := { s.aon with reelEn := false, brake := true } }

/-- Trips within the last 60 minutes. -/
def recentTrips (s : State) : List Nat := s.aon.tripTimes.filter fun t => !passedMs t s.aon.time 3600000

/-- THERMAL_TRIP (R388, R389, R391). -/
def execThermalTrip (at_ : Nat) (s : State) : Out :=
  .next <|
    let s := atTime at_ s
    if s.sys.phase = .off then s
    else
      let s := powerDown s
      let ts := recentTrips s ++ [s.aon.time]
      { s with aon := { s.aon with
        tripLatch := true, tripped := true, trips := sat64 s.aon.trips 1, tripTimes := ts, autoOff := decide (3 ≤ ts.length)
        coreEn := false, hbmEn := false, supplyOk := false } }

/-- SUPPLY_LOSS (R400). -/
def execSupplyLoss (s : State) : Out :=
  .next <|
    let s := if s.sys.phase = .off then s else powerDown s
    { s with aon := { s.aon with supplyLatch := true, supplyOk := false } }

/-- TRIP_RESTART (R390, R391): the sensors have cooled and CORE_PG is up. -/
def execTripRestart (at_ : Nat) (s : State) : Out :=
  .next <|
    let s := atTime at_ s
    if s.sys.phase ≠ .off || !s.aon.tripped || s.aon.autoOff then s
    else
      let s := { s with
        aon := { s.aon with tripped := false, coreEn := true, hbmEn := true, supplyOk := true }
        mram := { s.mram with cleanMark := false } }
      toStepOne (setCause 3 8 s)

/-- POWER_ON (R428, R399): PWR_TIME, PWR_TRIPS and the latches of a trip begin anew. A trip that waits for its restart is no
power-on unless AUTO_RESTART_OFF is set (R391, 19 R464). -/
def execPowerOn (s : State) : Out :=
  .next <|
    if s.sys.phase ≠ .off || (s.aon.tripped && !s.aon.autoOff) then s
    else
      let s := { s with
        whd := { s.whd with time := whTime s, timeFrom := 0 }
        aon := { s.aon with
          time := 0, tripLatch := false, autoOff := false, trips := 0, tripTimes := [], tripped := false, coreEn := true
          hbmEn := true, supplyOk := true } }
      toStepOne (setCause 0 0 s)

/-! ### Control cores at a start (R442, R443) -/

def coreBit (c : Nat) : BitVec 4 := BitVec.ofNat 4 (2 ^ c)

/-- A core is halted, offline or in retry. -/
def coreOut (c : Nat) (s : State) : Bool :=
  s.sys.lasting.getLsbD c || s.sys.faulted.getLsbD c || unitState (unCore0 + c) s == 3

/-- The cores in service, and the roles that Table 17-7 gives them: the role of core 0 goes to core 1, management to core
2. -/
def assignRoles (s : State) : State :=
  let up := (List.range 4).foldl (fun b c => if coreOut c s then b else b ||| coreBit c) (0 : BitVec 4)
  { s with sys := { s.sys with
    coresUp := up
    tickCore := if !coreOut 0 s then 0 else if !coreOut 1 s then 1 else 2
    mgtCore := if !coreOut 3 s then 3 else 2 } }

/-- A core's retry begins. -/
def coreRetry (c : Nat) (s : State) : State :=
  let s := { s with sys := { s.sys with faulted := s.sys.faulted ||| coreBit c } }
  raiseP evSysCoreFault c (setUnit (unCore0 + c) 1 0 s)

/-- The self-tests of a start; with fewer than two cores the device is FATAL. -/
def startCores (ok : BitVec 4) (s : State) : State :=
  let now := s.aon.time
  let s := { s with sys := { s.sys with faulted := 0, cores := s.sys.cores.map fun c => { c with lastKick := now } } }
  let s := (List.range 4).foldl (fun s c =>
    if s.sys.lasting.getLsbD c || unitState (unCore0 + c) s == 3 then s
    else if ok.getLsbD c then (if unitState (unCore0 + c) s = 1 then setUnit (unCore0 + c) 0 0 s else s)
    else coreRetry c s) s
  let s := assignRoles s
  let n := ((List.range 4).filter fun c => s.sys.coresUp.getLsbD c).length
  { s with sys := { s.sys with fatal := decide (n < 2) } }

/-! ### Start-up (R431) -/

/-- Lanes that fail the known-answer test at a start are out of service (06 R157, 17 R438). -/
def startLanes (ok : BitVec 8) (s : State) : State :=
  (List.range 8).foldl (fun s n =>
    if ok.getLsbD n || s.cph.degraded.getLsbD n then s
    else
      let s := { s with cph := { s.cph with degraded := s.cph.degraded ||| BitVec.ofNat 8 (2 ^ n) } }
      setUnit unCipher 2 n (raiseP evCphLaneDegraded n s)) s

/-- The known-answer test has passed on a lane in service (06 R157). -/
def noteKat (s : State) : State := { s with cph := { s.cph with katOk := decide (s.cph.degraded ≠ BitVec.allOnes 8) } }

/-- CEIL at a start (06 R154): the counters of ACTIVE slots take it and a raise begins; without a valid copy CEIL_ERR. -/
def startCeil (s : State) : State :=
  match ceilCopy s with
  | none => raiseN evCphCeilingErr { s with cph := { s.cph with ceilErr := true, starting := !s.cph.katOk } }
  | some c =>
    let f := fun (p : Nat × KeySlot) => (p.1, if p.2.use = .active then { p.2 with counter := c.ceil, random := none } else { p.2 with random := none })
    raiseCeil { s with cph := { s.cph with ctxSlots := s.cph.ctxSlots.map f, devSlots := s.cph.devSlots.map f } }

/-- Events told of and never settled are retracted (09 R254). -/
def startRetract (s : State) : State :=
  s.mram.written.foldl (fun s w => retractEvent w.jsn w.seq w.partition 2 w.replacement s) s

/-- Every command not freed is to be reported, and the open ones to be ended (R433, R436). -/
def startReplay (s : State) : State :=
  let n := s.jrn.runs.length
  let s := { s with
    sys := { s.sys with replaying := decide (n ≠ 0), replayLeft := n, toReport := s.jrn.entries.map (·.jsn), replayPosted := false }
    cph := { s.cph with recovery := s.sys.unclean && decide (n ≠ 0) } }
  if n = 0 then replayDone s else s

/-- POSITION that a retired command left, from its retire word and the POSITION it found (R436; 04 R107, R110, R114, R115, 10
R277, 03 R78, R79); none: it stands. -/
def leftPosition (e : JournalEntry) (w : RetireWord) (pos : Nat) : Option Nat :=
  let o := entryOp e
  let r0 := w.result0.toNat
  let r1 := w.result1.toNat
  let passed := w.status == stOk || w.status == stOkRetried || w.status == stEndOfData || w.status == stFilemarkReached
  if isWriteOp o then if r0 = 0 then none else some (if w.status = stMediaError then r1 else r1 + r0)
  else if o = opRewind then if w.status = stOk then some 0 else none
  else if o = opLocate then if passed then some r1 else none
  else if o = opSpace then if passed || (w.status = stAbortedByHost && r0 != 0) then some r1 else none
  else if !(o = opReadRecords || o = opVerifyRange) || bits (pktWord e 1) 32 32 = 0 then none
  else if passed || w.status = stUntrusted then some r1
  else if w.status = stMediaError then if r1 = 0xFFFFFFFFFFFFFFFF then none else some r1
  else if w.status = stOverflowChained || w.status = stNoBuffer || w.status = stAbortedByHost then some (pos + r0)
  else none

/-- What a retired command made of contexts as a whole. -/
def redoRecord (e : JournalEntry) (w : RetireWord) (s : State) : State :=
  let o := entryOp e
  if w.status ≠ stOk ∧ w.status ≠ stOkRetried then s
  else if o = opOpenContext then openCtx e s
  else if o = opCloseContext then closeCtx e s
  else if o = opUnload then rewindContexts s
  else if o = opFormat then formatContexts (bits (pktWord e 1) 0 3) s
  else if o = opSetProfile ∧ (getCtx (entryCtx e) s).isOpen then profileCtx e s
  else s

/-- POSITION of an open context. -/
def moveContext (c n : Nat) (s : State) : State :=
  if (getCtx c s).isOpen then setCtx c (fun x => { x with position := n }) s else s

/-- POSITION and, after LOCATE, PARTITION. -/
def redoPosition (e : JournalEntry) (w : RetireWord) (s : State) : State :=
  let c := entryCtx e
  match leftPosition e w (getCtx c s).position with
  | none => s
  | some n =>
    let s := moveContext c n s
    if entryOp e = opLocate ∧ (getCtx c s).isOpen then setCtx c (fun x => { x with partition := bits (pktWord e 1) 20 2 }) s else s

/-- Context changes of a retired command, made again where a cold start has closed every context (R436). -/
def redoContext (s : State) (e : JournalEntry) : State :=
  match s.jrn.retire.find? fun w => w.jsn == e.jsn && w.state == 2 with
  | none => s
  | some w => redoPosition e w (redoRecord e w s)

def redoContexts (s : State) : State := if s.sys.kind = 2 then s else s.jrn.entries.foldl redoContext s

/-- Steps 1 to 4: the ledger entry, the sweep, the remap, the first three measurements. -/
def startBoot (b : BootInput) (s : State) : State :=
  let s := openEntry s.sys.kind s
  let s := { s with
    sys := { s.sys with subsysId := b.subsysId }
    mem := { s.mem with ready := true, remapPc := if s.sys.kind = 2 then s.mem.remapPc else s.mem.retiredPc }
    wh := { s.wh with romPhase := true, lastStatus := s.aon.time, lastRise := s.aon.time } }
  let s := doExtend 1 b.digest1 (doExtend 0 b.digest0 s)
  doExtend 2 b.digest2 { s with wh := { s.wh with romPhase := false } }

/-- Step 5. -/
def startFirmware (b : BootInput) (s : State) : State :=
  let s := startCeil (noteKat (startLanes b.katOk (startCores b.coresOk s)))
  let s := if s.whd.powered then takeTsn (stateWord s).lastTsn s else s
  doClose (doExtend 3 b.digest3 s)

/-- Step 6: the head link, and after a cold start the Drover. -/
def startLink (t : TrainResult) (s : State) : State :=
  let s := { s with sys := { s.sys with phase := .running } }
  let s := trainLink t s
  if s.sys.kind = 2 then s
  else
    let s := loadDefaults s
    { s with
      drv := { s.drv with s1ClrN := true }
      aon := { s.aon with reelEn := s.cart.inDrive.isSome, brake := s.cart.inDrive.isNone } }

/-- Events of what came before the start. -/
def startEvents (s : State) : State :=
  let s := if s.sys.kind = 3 then raiseP evThmTripRestart (min 3 (recentTrips s).length) s else s
  if s.aon.supplyLatch ∧ s.sys.kind ≠ 1 ∧ s.sys.kind ≠ 2 then raiseN evPwrSupplyLoss s else s

/-- START_UP_SEQUENCE (R431): steps 1 to 6, then READY. -/
def execStartUpSequence (b : BootInput) (t : TrainResult) (s : State) : Out :=
  .next <|
    if s.sys.phase ≠ .stepOne then s
    else
      let s := startLink t (startFirmware b (startBoot b s))
      let s := startEvents { s with
        sys := { s.sys with ready := true, readyAt := s.aon.time }, mram := { s.mram with cleanMark := false }
        pwr := { s.pwr with idleFrom := s.aon.time } }
      startReplay (redoContexts (startRetract s))

/-! ### Replay (R433, R434) -/

/-- Commands that Table 17-4 ends with ABORTED_BY_RESET. -/
def endsByReset (e : JournalEntry) : Bool :=
  let o := entryOp e
  o == opReadRecords || o == opVerifyRange || o == opReadOverflow || o == opDiag || (0x60 ≤ o && o ≤ 0x77)
    || (0x7A ≤ o && o ≤ 0x7E)

/-- A command ends with a status of the reset: a write reports its durable count. -/
def endAtReset (e : JournalEntry) (st : Nat) (s : State) : State :=
  if isWriteLike e then
    match (findRun s e.jsn).bind (·.first) with
    | some n => endWriteAt e st n s
    | none => endWriteAt e st (Config.freeNat s.freeCount) (drawFree s)
  else if isReadLike e ∧ st = stAbortedByReset then endWith e.jsn st 0 (getCtx (entryCtx e) s).position s
  else endEarly e st s

/-- What replay does with one open command. -/
def replayOne (s : State) (j : Nat) : State :=
  match findEntry s j, findRun s j with
  | some e, some r =>
    if !r.replayed || r.phase ≠ .accepted then s
    else if abortRecordedFor s j then endAtReset e stAbortedByHost s
    else if s.sys.kind ≠ 2 || endsByReset e || (isWriteLike e && r.list.any (·.hdm)) then endAtReset e stAbortedByReset s
    else s
  | _, _ => s

/-- REPLAY_OPEN_COMMANDS (R433, R434): commands that end without running end, in journal order; the others run again by
their own rows, as commands of before the start. -/
def execReplayOpenCommands (s : State) : Out :=
  .next <| if !firmwareRuns s then s else (s.jrn.entries.map (·.jsn)).foldl replayOne s

/-! ### Reports (R436) -/

/-- The DURABLE event of a write comes first, with its completion (01 R27). -/
def reportDurable (e : JournalEntry) (w : RetireWord) (s : State) : State :=
  if isWriteLike e then raise evDurable e.jsn w.result0.toNat s else s

/-- The report of one command: to its completion ring once that is enabled, or over the management port. DESIGN CHOICE (log
entry 47): UNTRUSTED of a read's entry, which its retire word does not hold, is 0 in the report. -/
def reportOne (s : State) (j : Nat) : State :=
  match findEntry s j with
  | none => s
  | some e =>
    if e.source ≠ 65 && !(getCq (entryCq e) s).cfg.en then s
    else
      let s := { s with sys := { s.sys with toReport := s.sys.toReport.filter (· != j) } }
      match s.jrn.retire.find? fun w => w.jsn == j && w.state == 2 with
      | none => postAccepted e s
      | some w =>
        let s := postTo (entryCq e) (mkCpl e 3 w.status w.result0 w.result1 false) (reportDurable e w s)
        if e.source = 65 then beginFree j s else s

/-- Every report has reached host memory. -/
def reportsDone (s : State) : Bool :=
  s.sys.toReport.isEmpty && (s.cmd.cplRings.all fun r => r.waiting.isEmpty) && s.cmd.lateFinals.isEmpty

/-- REPLAY_REPORT_POSTED (R436): reports of rings that the host has enabled; after the last of all, SYS_REPLAY_POSTED. -/
def execReplayReportPosted (s : State) : Out :=
  .next <|
    if !firmwareRuns s || s.sys.replayPosted then s
    else
      let s := s.sys.toReport.foldl reportOne s
      if reportsDone s then raiseN evSysReplayPosted { s with sys := { s.sys with replayPosted := true } } else s

end Sys2Proof.Machine
end

