-- ==== Sys2Proof/Machine/Cores.lean ====
section
/-! DEFINITION. Aborts (03 R77-R79, Table 3-10a), control core faults (17 R440-R443) and the DIAG functions of R447 but for
SAFE_STOP. -/

namespace Sys2Proof.Machine

/-! ### Aborts -/

def setAbort (r : Nat) (s : State) : State := { s with cmd := { s.cmd with abortResult := r } }

/-- Commands that can still be aborted once they have started. -/
def abortsLate (e : JournalEntry) : Bool :=
  let o := entryOp e
  o == opNop || isWriteLike e || o == opRewind || o == opLocate || o == opSpace || o == opReadOverflow || o == 0x62
    || o == 0x63 || o == 0x70 || o == 0x72 || o == 0x7D

/-- The command has passed its last abort point. -/
def pastAbort (e : JournalEntry) (r : RunInfo) (s : State) : Bool :=
  match r.phase with
  | .accepted => false
  | .waiting => false
  | .unretired => true
  | .started => !abortsLate e || (findWrite e.jsn s).any fun w => w.ending.isSome

/-- A command that may be aborted: in flight, and before its last abort point. -/
def abortable (jsn : Nat) (s : State) : Option (JournalEntry × RunInfo) :=
  match findEntry s jsn, findRun s jsn with
  | some e, some r => if e.slot = .valid ∧ pastAbort e r s = false then some (e, r) else none
  | _, _ => none

/-- CMD_ABORT_WRITE (R77): ignored while an abort is pending. -/
def execCmdAbortWrite (jsn : Nat) (s : State) : Out :=
  .next <| onMmio s <|
    if s.cmd.abortResult = 1 then s
    else
      let s := { s with cmd := { s.cmd with abortJsn := jsn } }
      setAbort (if (abortable jsn s).isSome then 1 else 3) s

/-- A command that has not begun ends before it has any effect (R79). -/
def abortWaiting (e : JournalEntry) (s : State) : State :=
  if entryOp e = opNop then endR0 e.jsn stAbortedByHost (pktWord e 1).toNat s else endEarly e stAbortedByHost s

/-- A command no longer has a job on the Drover. -/
def dropJobs (jsn : Nat) (s : State) : State :=
  let f := fun (l : List DrvJob) => l.filter (·.jsn != jsn)
  { s with drv := { s.drv with moves := f s.drv.moves, modes := f s.drv.modes, captures := f s.drv.captures, sets := f s.drv.sets } }

/-- DRV_MOVE: at the next tick edge TARGET takes the set-point reached. -/
def abortMove (e : JournalEntry) (s : State) : State :=
  let n := bits (pktWord e 1) 0 5
  let l := getLoop n s
  endR1 e.jsn stAbortedByHost 2 (dropJobs e.jsn (setLoop n (fun x => { x with targetNext := some (roundShift l.sp 24) }) s))

/-- A motion is profiled to rest where it is; SPACE has moved over the items passed (Table 3-10a). -/
def abortMotion (e : JournalEntry) (r : RunInfo) (s : State) : State :=
  let s := liftCap s
  if entryOp e ≠ opSpace then endEarly e stAbortedByHost s
  else
    let x := getCtx (entryCtx e) s
    let p := spaceWalk e x r.done ((loadedCart s).elim [] fun c => chainOf c x.partition) (eodOf x.partition s)
    endWith e.jsn stAbortedByHost p.2.1 p.2.2 (setCtx (entryCtx e) (fun x => { x with position := p.2.2 }) s)

/-- A command that has started takes its abort (R78, Table 3-10a). -/
def abortStarted (e : JournalEntry) (r : RunInfo) (s : State) : State :=
  let o := entryOp e
  if o = opNop then endR0 e.jsn stAbortedByHost (pktWord e 1).toNat s
  else if o = opRewind ∨ o = opLocate ∨ o = opSpace then abortMotion e r s
  else if o = 0x70 ∨ o = 0x72 then
    match r.final with
    | some (_, r0, r1) => endCommand e.jsn stAbortedByHost r0 r1 s
    | none => endWith e.jsn stAbortedByHost 0 0 s
  else if o = opSync then
    endWrite e stAbortedByHost { s with fmt := { s.fmt with writes := s.fmt.writes.filter (·.jsn != e.jsn) } }
  else if isWriteOp o then afterWrites (stopWrite e.jsn stAbortedByHost none s)
  else if o = 0x62 then abortMove e s
  else endR0 e.jsn stAbortedByHost r.done (dropJobs e.jsn s)

/-- The effect of a recorded abort; a read that waits in its recovery delivers what lies before. -/
def abortNow (e : JournalEntry) (r : RunInfo) (s : State) : State :=
  if r.phase = .started then abortStarted e r s
  else if r.phase = .waiting ∧ mustWait e s = false ∧ entryOp e = opReadRecords then abortRead e r s
  else if r.phase = .waiting ∧ mustWait e s = false ∧ entryOp e = opVerifyRange then abortVerify e s
  else abortWaiting e s

/-- Retire words that hold abort records. -/
def abortWords (s : State) : Nat := (s.jrn.retire.filter (·.state == 1)).length

/-- ABORT_RECORDED (R76, R78): a word is free and fewer than 8,192 words hold abort records. -/
def execAbortRecorded (s : State) : Out :=
  .next <|
    if s.cmd.abortResult ≠ 1 then s
    else
      match abortable s.cmd.abortJsn s with
      | none => setAbort 3 s
      | some (e, r) =>
        if !retireFree s || 8192 ≤ abortWords s then s
        else
          let w : RetireWord := { jsn := e.jsn, state := 1, status := stAbortedByHost, result0 := 0, result1 := 0 }
          abortNow e r (setAbort 2 { s with jrn := { s.jrn with retire := s.jrn.retire ++ [w] } })

/-! ### Control cores -/

def setCore (c : Nat) (f : CoreState → CoreState) (s : State) : State :=
  { s with sys := { s.sys with cores := s.sys.cores.modify c f } }

/-- SYS_CORE_KICK (R440). -/
def execSysCoreKick (core at_ : Nat) (s : State) : Out :=
  .next <|
    let s := atTime at_ s
    setCore core (fun x => { x with lastKick := s.aon.time }) s

/-- Cores that interpret command packets (01, Table 17-7). -/
def interpreters (s : State) : List Nat :=
  (List.range 4).filter fun c => !coreOut c s && c != s.sys.tickCore && c != s.sys.mgtCore

/-- Commands at work that a faulted core was interpreting: with more than one interpreting core it is open which, so a free
value says it of each. -/
def interpretedBy (c : Nat) (s : State) : List Nat :=
  let ws := (s.jrn.runs.filter fun r => r.phase == .started).map (·.jsn)
  if !(interpreters s).contains c then []
  else if (interpreters s).length = 1 then ws
  else (ws.zipIdx.filter fun p => Config.freeBool (s.freeCount + p.2)).map (·.1)

/-- A surviving core ends one of them under Table 17-4. -/
def endInterpreted (s : State) (j : Nat) : State :=
  match findEntry s j, findRun s j with
  | some e, some r =>
    if isWriteOp (entryOp e) then
      if r.list.any (·.hdm) then endWritesNow [j] stAbortedByReset none s
      else
        match findWrite j s with
        | some w =>
          let s := giveUp s w.partition
          fitAll { s with fmt := { s.fmt with
            writes := s.fmt.writes.map fun x => if x.partition = w.partition ∧ x.ending.isNone then replaceRun x else x } }
        | none => s
    else if endsByReset e then
      let s := if diagFunction e.words == 2 && entryOp e == opDiag then endPhase { s with cph := { s.cph with testing := false } } else s
      endAtReset e stAbortedByReset (dropJobs j s)
    else if entryOp e = opSync then s
    else setRun j (fun r => { r with phase := .accepted, done := 0 }) s
  | _, _ => s

/-- A core that faults again within 60 s of its retry, or whose retry fails, is lasting (R442). -/
def coreLasting (c : Nat) (s : State) : State :=
  let s := { s with sys := { s.sys with
    faulted := s.sys.faulted &&& (15 ^^^ coreBit c), lasting := s.sys.lasting ||| coreBit c } }
  assignRoles (raiseP evSysCoreLasting c (setUnit (unCore0 + c) 2 0 s))

/-- Another core is in retry or lasting. -/
def otherFault (c : Nat) (s : State) : Bool :=
  (List.range 4).any fun k => k != c && (s.sys.faulted.getLsbD k || s.sys.lasting.getLsbD k)

/-- A fault of a control core (R440, R442, R443). -/
def coreFault (c : Nat) (s : State) : State :=
  if otherFault c s then warmReset false 7 (raiseP evSysCoreFault c s)
  else
    let js := interpretedBy c s
    let s := { s with freeCount := s.freeCount + js.length + s.jrn.runs.length }
    let again := ((s.sys.cores.getD c { lastKick := 0, lastRetry := none }).lastRetry).any fun t => !passedMs t s.aon.time 60000
    let s := if again then coreLasting c (raiseP evSysCoreFault c s) else assignRoles (coreRetry c s)
    js.foldl endInterpreted s

/-- CORE_WATCHDOG_EXPIRY (R440): 1 ms without a kick. -/
def execCoreWatchdogExpiry (core at_ : Nat) (s : State) : Out :=
  .next <|
    let s := atTime at_ s
    let last := (s.sys.cores.getD core { lastKick := 0, lastRetry := none }).lastKick
    if s.sys.phase ≠ .running || 4 ≤ core || coreOut core s || !passedMs last s.aon.time 1 then s
    else coreFault core s

/-- CORE_RETRY_DONE (R442). -/
def execCoreRetryDone (core : Nat) (ok : Bool) (at_ : Nat) (s : State) : Out :=
  .next <|
    let s := atTime at_ s
    if s.sys.phase ≠ .running || !s.sys.faulted.getLsbD core then s
    else if !ok then coreLasting core s
    else
      let s := { s with sys := { s.sys with faulted := s.sys.faulted &&& (15 ^^^ coreBit core) } }
      let s := setCore core (fun _ => { lastKick := s.aon.time, lastRetry := some s.aon.time }) s
      assignRoles (addTransient (unCore0 + core) (setUnit (unCore0 + core) 0 0 s))

/-! ### DIAG (R447) -/

/-- A DIAG command of a function begins. -/
def onDiag (f jsn : Nat) (s : State) (k : JournalEntry → RunInfo → State → State) : State :=
  if !(findEntry s jsn).any fun e => diagFunction e.words == f then s else onBegin opDiag jsn s k

/-- The self-test's end: `passed` holds the lanes that pass; its limited phase ends with it (06 R157). -/
def endSelftest (jsn : Nat) (passed : BitVec 8) (s : State) : State :=
  let up := ~~~s.cph.degraded
  let s := startLanes passed { s with cph := { s.cph with testing := false } }
  endR0 jsn stOk (passed &&& up).toNat (endStarting (endPhase (noteKat s)))

/-- DIAG CIPHER_SELFTEST: the test is under way, or over where `done`. -/
def execDiagCipherSelftest (jsn : Nat) (passed : BitVec 8) (done : Bool) (s : State) : Out :=
  .next <|
    match started opDiag jsn s with
    | some (e, _) => if diagFunction e.words == 2 && done then endSelftest jsn passed s else s
    | none => onDiag 2 jsn s fun _ _ s =>
      if done then endSelftest jsn passed s else startRun jsn { s with cph := { s.cph with testing := true } }

/-- A command needs a unit that the BMC may take offline. -/
def needsUnit (u : Nat) (e : JournalEntry) : Bool :=
  let o := entryOp e
  if u = unPack then o == opWriteRecords || o == 0x70
  else if u = unHeadLink then usesTape e || o == 0x7D
  else if u = unDrover then usesTape e || (0x60 ≤ o && o ≤ 0x63)
  else false

/-- An earlier accepted command that needs the unit has not ended. -/
def unitBusy (u jsn : Nat) (s : State) : Bool :=
  s.jrn.entries.any fun x => x.jsn < jsn && needsUnit u x && (findRun s x.jsn).any fun r => r.phase != .unretired

/-- Cores in service once a core is offline. -/
def coresAfter (c : Nat) (s : State) : Nat := ((List.range 4).filter fun k => k != c && !coreOut k s).length

/-- DIAG UNIT_OFFLINE. -/
def execDiagUnitOffline (jsn : Nat) (s : State) : Out :=
  .next <| onDiag 3 jsn s fun e _ s =>
    let u := diagUnit e.words
    if unitBusy u jsn s then waitRun jsn s
    else if (u = unHeadLink ∨ u = unDrover) ∧ s.fmt.run.isSome = true then waitRun jsn (endRunSoon s)
    else if unCore0 ≤ u ∧ u ≤ unCore0 + 3 then
      if coresAfter (u - unCore0) s < 3 then endBare jsn stUnitDegraded s
      else endBare jsn stOk (assignRoles (setUnit u 3 0xFE s))
    else endBare jsn stOk (setUnit u 3 0xFE s)

/-- DIAG UNIT_ONLINE. -/
def execDiagUnitOnline (jsn : Nat) (s : State) : Out :=
  .next <| onDiag 4 jsn s fun e _ s =>
    let u := diagUnit e.words
    if unitState u s = 3 then
      let s := setUnit u 0 0 s
      endBare jsn stOk (if unCore0 ≤ u ∧ u ≤ unCore0 + 3 then assignRoles s else s)
    else if unitState u s = 2 then endBare jsn stUnitDegraded s
    else endBare jsn stOk s

/-- DIAG CLEAR_RETIREMENT: the remap stays in force. -/
def execDiagClearRetirement (jsn : Nat) (s : State) : Out :=
  .next <| onDiag 5 jsn s fun _ _ s => endBare jsn stOk { s with mem := { s.mem with retiredPc := none } }

/-- DIAG RESET: the retire word with OK, then the reset of ARG. -/
def execDiagReset (jsn : Nat) (s : State) : Out :=
  .next <| onDiag 6 jsn s fun e _ s =>
    if !retireFree s then waitRun jsn s
    else
      let w : RetireWord :=
        { jsn := jsn, state := 2, status := stOk, result0 := wd (Config.freeNat s.freeCount)
          result1 := wd (Config.freeNat (s.freeCount + 1)) }
      let s := drawFree (drawFree { s with jrn := { s.jrn with retire := s.jrn.retire ++ [w] } })
      if diagArg e.words then coldReset 3 s else warmReset false 3 s

end Sys2Proof.Machine
end

