-- ==== Sys2Proof/Machine/HostIf.lean ====
section
/-! DEFINITION. The CXL host interface (02): link negotiation, Bus Master Enable, the HDM decoder, snoops, ATS invalidation,
the DOE mailbox, IDE streams, MSI-X unmasking; and SPDM requests of the management port (16 R425). -/

namespace Sys2Proof.Machine

def setHif (f : Hif → Hif) (s : State) : State := { s with hif := f s.hif }

/-- The host island has power (15 R396): every phase but off. -/
def hostUp (s : State) : Bool := decide (s.sys.phase ≠ .off)

/-! ### Link (R56, Table 2-7) -/

/-- HIF_LINK_STATUS bits 0 to 9: MODE, RATE, WIDTH. -/
def linkWord (h : Hif) : Nat := h.mode + h.rate * 2 ^ 2 + h.width * 2 ^ 5

/-- HIF_LINK_STATUS (Table 2-7). -/
def linkStatus (h : Hif) : Nat :=
  linkWord h + boolNat h.cacheEn * 2 ^ 10 + boolNat (h.memEn && h.committed) * 2 ^ 11 + boolNat h.atsEn * 2 ^ 12
    + boolNat (decide (h.ideIo.state = .secure)) * 2 ^ 13 + boolNat (decide (h.ideCm.state = .secure)) * 2 ^ 14
    + boolNat h.ideSkid * 2 ^ 15

/-- Widths of a CXL link (Table 2-1). -/
def cxlWidth (w : Nat) : Bool := w == 4 || w == 8 || w == 16

/-- CXL mode when the partner grants all three protocols at 8 GT/s or higher on a width of Table 2-1; PCIe-only mode
otherwise. -/
def offeredMode (o : LinkOffer) : Nat := if o.io && o.cache && o.mem && decide (3 ≤ o.rate) && cxlWidth o.width then 1 else 2

/-- In PCIe-only mode Mem_Enable and Cache_Enable read 0, and the decoder is uncommitted. -/
def enterMode (o : LinkOffer) (h : Hif) : Hif :=
  let h := { h with mode := offeredMode o, rate := o.rate, width := o.width }
  if h.mode = 1 then h
  else { h with memEn := false, cacheEn := false, committed := false, hdmBase := 0, hdmSize := 0 }

/-- LINK_NEGOTIATION (R56): HIF_LINK_CHANGE when MODE, RATE or WIDTH changes. -/
def execLinkNegotiation (o : LinkOffer) (s : State) : Out :=
  .next <|
    if !hostUp s then s
    else
      let old := linkWord s.hif
      let s := setHif (enterMode o) s
      if linkWord s.hif = old then s else raise evHifLinkChange (linkWord s.hif) old s

/-- Start-up step 1 has not run: configuration requests are answered with CRS (17 R431). -/
def configEarly (s : State) : Bool := decide (s.sys.phase ≠ .running)

/-- BUS_MASTER_ENABLE (R57). -/
def execBusMasterEnable (s : State) : Out :=
  .next <|
    if !hostUp s then s
    else if configEarly s then emit .configRetry s
    else setHif (fun h => { h with busMaster := true }) s

/-! ### HDM decoder (R38, R39) -/

def hdmUnit : Nat := 0x10000000

/-- The settings that a commit accepts. -/
def decoderOk (mode base size iw : Nat) : Bool :=
  mode == 1 && base % hdmUnit == 0 && size % hdmUnit == 0 && decide (hdmUnit ≤ size) && decide (size ≤ 0x400000000) && iw == 0

/-- HDM_DECODER_COMMIT: a locked decoder cannot be changed; any other setting than R38's leaves it uncommitted with Error Not
Committed. DESIGN CHOICE (log entry 44): Lock On Commit locks with a commit that succeeds; a commit that fails leaves the
decoder unlocked. -/
def execHdmDecoderCommit (base size iw : Nat) (lock : Bool) (s : State) : Out :=
  .next <| onMmio s <|
    if !hostUp s || s.hif.locked then s
    else if decoderOk s.hif.mode base size iw then
      setHif (fun h => { h with hdmBase := base, hdmSize := size, committed := true, notCommitted := false, locked := lock }) s
    else setHif (fun h => { h with hdmBase := 0, hdmSize := 0, committed := false, notCommitted := true }) s

/-! ### CXL.cache (R45, R47) -/

/-- CXL_SNOOP: no line is retained, so the answer is RspIHitI; an Insecure CXL.cachemem stream carries none (R53). -/
def execCxlSnoop (line : Nat) (s : State) : Out :=
  .next <| if hostUp s ∧ s.hif.mode = 1 ∧ s.hif.ideCm.state ≠ .insecure then emit (.snoopResponse line) s else s

/-- ATS_INVALIDATE: no request is in flight between commands, so the Invalidate Completion follows at once. An access that
needs the pages afterwards brings a new translation with it, or finds that there is none (R46; log entry 45). -/
def execAtsInvalidate (addr size : Nat) (gone : Bool) (s : State) : Out :=
  .next <|
    if !hostUp s then s
    else
      let keep := fun (p : Nat × Nat) => !overlaps addr size p.1 p.2
      emit (.atsComplete addr size) (setHif (fun h =>
        { h with atc := h.atc.filter keep, atcBad := (if gone then [(addr, size)] else []) ++ h.atcBad.filter keep }) s)

/-! ### DOE mailbox (R49, R50; the framing of objects is PRESUMED, log entry 23) -/

def setDoe (f : Doe → Doe) (s : State) : State := setHif (fun h => { h with doe := f h.doe }) s

/-- The header of a data object: vendor, type, length in 4-byte words. -/
def doeObject (vendor dtype : Nat) (l : List Byte) : List Byte :=
  leBytes 2 vendor ++ leBytes 2 dtype ++ leBytes 4 ((l.length + 3) / 4 + 2) ++ l

/-- The protocols of Table 2-4, in its order. -/
def doeProtocols : List (Nat × Nat) := [(1, 0), (1, 1), (1, 2), (0x1E98, 2)]

/-- A DOE Discovery answer: vendor, type and next index of one protocol. -/
def discoveryAnswer (index : Nat) : List Byte :=
  let p := doeProtocols.getD index (0xFFFF, 0)
  leBytes 2 p.1 ++ [b8 p.2, b8 (if index + 1 < doeProtocols.length then index + 1 else 0)]

/-- A DSLBIS structure: data type, base unit, entry. -/
def dslbis (dtype unit entry : Nat) : List Byte :=
  [1, 0] ++ leBytes 2 24 ++ [0, 0, b8 dtype, 0] ++ leBytes 8 unit ++ leBytes 2 entry ++ leBytes 2 0 ++ leBytes 2 0 ++ leBytes 2 0

/-- The CDAT entries of Table 2-5, in its order: latencies in picoseconds, bandwidths in MB/s. -/
def cdatEntries : List (List Byte) :=
  [[0, 0] ++ leBytes 2 24 ++ [0, 0, 0, 0] ++ leBytes 8 0 ++ leBytes 8 0x400000000,
    dslbis 1 1000 250, dslbis 2 1000 200, dslbis 4 1000 50, dslbis 5 1000 50,
    [4, 0] ++ leBytes 2 24 ++ [0, 1, 0, 0] ++ leBytes 8 0 ++ leBytes 8 0x400000000]

/-- A read-entry answer: the next handle, and the entry. DESIGN CHOICE (log entry 46): the answer to a handle above 5 is an
empty entry with next handle 0xFFFF. -/
def cdatAnswer (handle : Nat) : List Byte :=
  [0, 0] ++ leBytes 2 (if handle + 1 < cdatEntries.length then handle + 1 else 0xFFFF) ++ cdatEntries.getD handle []

/-- The host interface answers a request itself. DESIGN CHOICE (log entry 46): the response takes the place of an earlier one
that was not read. -/
def doeAnswer (l : List Byte) (s : State) : State :=
  emit (.doeResponse l) (setDoe (fun d => { d with response := some l, request := none }) s)

/-- A request that the Weighhouse serves: ErrorCode Busy while it is not available (16 R415). -/
def doeToWeighhouse (dtype : Nat) (payload : List Byte) (s : State) : State :=
  if s.wh.avail ≠ 1 then spdmReply false (spdmError 0x03) s
  else doSpdm false payload (setDoe (fun d => { d with request := some (1, dtype, payload) }) s)

/-- DOE_REQUEST (R49): an object longer than 64 KiB with its header is discarded with DOE Error set; while one is in progress it is not taken; a
protocol outside Table 2-4 is not answered. -/
def execDoeRequest (vendor dtype : Nat) (payload : List Byte) (s : State) : Out :=
  .next <|
    if !hostUp s then s
    else if configEarly s then emit .configRetry s
    else if 65536 < (doeObject vendor dtype payload).length then setDoe (fun d => { d with error := true }) s
    else if s.hif.doe.request.isSome then s
    else if (vendor, dtype) = (1, 0) then doeAnswer (doeObject 1 0 (discoveryAnswer (byteAt payload 0))) s
    else if (vendor, dtype) = (0x1E98, 2) then doeAnswer (doeObject 0x1E98 2 (cdatAnswer (leNat (slice payload 2 2)))) s
    else if (vendor, dtype) = (1, 1) ∨ (vendor, dtype) = (1, 2) then doeToWeighhouse dtype payload s
    else s

/-- DOE_ABORT (R49): request and unread response are discarded, DOE Error clears. -/
def execDoeAbort (s : State) : Out := .next (setDoe (fun _ => .reset) s)

/-! ### MSI-X (R55) -/

/-- The message of a pending vector that nothing holds back any longer is sent. -/
def msixRelease (v : Nat) (s : State) : State :=
  if tabGet false s.hif.pba v && tabGet false s.hif.unmasked v && !s.hif.funcMask && decide (s.hif.ideIo.state ≠ .insecure) then
    emit (.msix v) (setHif (fun h => { h with pba := tabSet false v false h.pba }) s)
  else s

/-- Every pending vector whose message may go out. -/
def msixPump (s : State) : State := (List.range 256).foldl (fun s k => msixRelease k s) s

/-! ### IDE (R51-R53) -/

def ideOf (st : IdeStream) (s : State) : Ide :=
  match st with
  | .io => s.hif.ideIo
  | .cachemem => s.hif.ideCm

def setIde (st : IdeStream) (f : Ide → Ide) (s : State) : State :=
  match st with
  | .io => setHif (fun h => { h with ideIo := f h.ideIo }) s
  | .cachemem => setHif (fun h => { h with ideCm := f h.ideCm }) s

/-- Both words of an HDM line are marked poisoned. -/
def poisonLine (s : State) (a : Nat) : State :=
  { s with mem := { s.mem with hbmPoison := insertNat (a + 32) (insertNat a s.mem.hbmPoison) } }

/-- IDE_INTEGRITY_FAIL (R53, 17 Table 17-8): the stream enters Insecure and its traffic stops; the HDM lines of the epoch that
fails are poisoned. Bytes of a failed epoch were never accepted by HOST_RECORD_FETCH, so none is held. -/
def execIdeIntegrityFail (st : IdeStream) (lines at_ : Nat) (s : State) : Out :=
  .next <|
    let s := atTime at_ s
    if (ideOf st s).state ≠ .secure then s
    else
      let failed := (ideOf st s).epoch.drop ((ideOf st s).epoch.length - lines)
      let s := setIde st (fun _ => { state := .insecure, failAt := s.aon.time, epoch := [] }) s
      raiseN evHifIdeFail (setUnit unHost 1 0 (failed.foldl poisonLine s))

/-- Open writes that still have bytes to fetch from host memory. -/
def hostFetching (s : State) : List Nat :=
  (s.fmt.writes.filter fun w =>
    w.ending.isNone && decide (w.input.length < streamTotal w) && (findRun s w.jsn).any fun r => r.list.any fun e => !e.hdm).map (·.jsn)

/-- IDE_KEYS_ESTABLISHED (R53): the stream is Secure; a recovery ends and the fetches are made again. -/
def execIdeKeysEstablished (st : IdeStream) (s : State) : Out :=
  .next <|
    if !hostUp s ∨ (st = .cachemem ∧ s.hif.mode ≠ 1) then s
    else
      let was := (ideOf st s).state
      let s := setIde st (fun d => { d with state := .secure, epoch := [] }) s
      if was ≠ .insecure then s
      else
        let s := pumpRings (msixPump s)
        let s := if s.hif.ideIo.state = .insecure ∨ s.hif.ideCm.state = .insecure then s else setUnit unHost 0 0 s
        (hostFetching s).foldl (fun s j => markRetried j s) (addTransient unHost s)

/-- The stream carries the device's host reads (R46). -/
def carriesFetches (st : IdeStream) (s : State) : Bool :=
  match st with
  | .io => !(s.hif.mode == 1 && s.hif.atsEn)
  | .cachemem => s.hif.mode == 1 && s.hif.atsEn

/-- IDE_KEY_TIMEOUT (R53): 60 s Insecure; writes that wait for their data end with INTERNAL_FAULT and the durable count. -/
def execIdeKeyTimeout (st : IdeStream) (at_ : Nat) (s : State) : Out :=
  .next <|
    let s := atTime at_ s
    let d := ideOf st s
    if d.state ≠ .insecure || !passedMs d.failAt s.aon.time 60000 then s
    else
      let s := setUnit unHost 2 0 s
      if carriesFetches st s then endWritesNow (hostFetching s) stInternalFault none s else s

/-! ### Vector controls (R55) -/

/-- MSIX_UNMASK. -/
def execMsixUnmask (vec : Nat) (s : State) : Out :=
  .next <| onMmio s <|
    if !hostUp s || 256 ≤ vec then s
    else msixRelease vec (setHif (fun h => { h with unmasked := tabSet false vec true h.unmasked }) s)

/-! ### SPDM over MCTP (16 R415, R425) -/

/-- MCTP_SPDM_REQUEST: types 0x05 and 0x06 go to the Weighhouse; the management port answers Busy while it is not available;
another type is dropped. -/
def execMctpSpdmRequest (mtype : Nat) (msg : List Byte) (s : State) : Out :=
  .next <|
    if !hostUp s then s
    else
      let s := mgtArrive s
      if mtype ≠ 5 ∧ mtype ≠ 6 then mgtDrop mtype (byteAt msg 0) s
      else if s.wh.avail ≠ 1 then spdmReply true (spdmError 0x03) s
      else doSpdm true msg s

end Sys2Proof.Machine
end

