-- ==== Sys2Proof/Machine/PackerCmd.lean ====
section
/-! DEFINITION. PKR_BLOCK_DECODED (05 R126, R141) and the expert commands of the Packer (R143-R145). -/

namespace Sys2Proof.Machine

/-! ### PKR_BLOCK_DECODED (R126, R141) -/

/-- The read of a JSN is accepted and has not ended. -/
def isReading (jsn : Nat) (s : State) : Bool :=
  (findEntry s jsn).any fun e => (entryOp e == opReadRecords || entryOp e == opVerifyRange)
    && (findRun s jsn).any fun r => decide (r.phase ≠ .unretired)

/-- PKR_BLOCK_DECODED (05 R141): a block of a record of a read decodes on a lane, or fails there and is decoded once
more. `glitch`: the first decode goes wrong although the block is sound. -/
def execPkrBlockDecoded (jsn lane record : Nat) (block history : List Byte) (glitch : Bool) (retryLane : Nat) (s : State) : Out :=
  .next <|
    let sound := (abfDecode block history).isSome
    if !isReading jsn s || (sound && !glitch) then s
    else
      let s := raiseN evPkrDecodeErr { s with pkr := { s.pkr with decodeErrs := sat64 s.pkr.decodeErrs 1 } }
      if !sound then { s with tec := { s.tec with badBlocks := s.tec.badBlocks ++ [(jsn, record)] } }
      else
        let s := markRetried jsn s
        if retryLane = lane then laneTransient (8 + lane) unUnpack s
        else
          let s := { s with pkr := { s.pkr with dDegraded := s.pkr.dDegraded ||| BitVec.ofNat 8 (2 ^ (lane % 8)) } }
          setUnit unUnpack 2 lane (raiseP evPkrLaneDegraded (8 + lane) s)

/-! ### PKR_ESTIMATE (R143) -/

/-- Sizes of the blocks of a stream: encoded bytes, blocks, RAW blocks; the first argument bounds the blocks. -/
def estimate (level : Nat) (p : LevelParams) (coding : Bool) (window : Nat) (input : List Byte) :
    Nat → Nat → Nat → Nat × Nat × Nat → Nat × Nat × Nat
  | 0, _, _, r => r
  | n + 1, at_, from_, (bytes, blocks, raws) =>
    if input.length ≤ at_ then (bytes, blocks, raws)
    else
      let hist := lastBytes window ((input.take at_).drop from_)
      let b := encodeBlock level p coding (!hist.isEmpty) hist ((input.drop at_).take 65536) 0
      estimate level p coding window input n (at_ + 65536) (if b.hist then from_ else at_)
        (bytes + 16 + b.payload.length, blocks + 1, if b.type = 0 then raws + 1 else raws)

/-- A command that works block by block and may be aborted between two of them (03 Table 3-10a). -/
def blockwise (op jsn : Nat) (s : State) (k : JournalEntry → State → State) : Out :=
  .next <| match started op jsn s with
    | some (e, _) => k e s
    | none => onBegin op jsn s fun e _ s => k e s

/-- Some blocks are done: what an abort would report of them is kept. -/
def keepPart (jsn r0 r1 : Nat) (s : State) : State := setRun jsn (fun r => { r with final := some (stOk, wd r0, wd r1) }) (startRun jsn s)

/-- PKR_ESTIMATE (05 R143). -/
def execPkrEstimate (jsn : Nat) (bytes : List Byte) (part : Option Nat) (s : State) : Out :=
  blockwise 0x70 jsn s fun e s =>
    let n := bits (pktWord e 2) 0 32
    let level := capLevel (bits (pktWord e 2) 32 4) s
    match estimate level (levelParams level s) (decide (s.pkr.cDegraded ≠ BitVec.allOnes 8)) (windowOf level s) (slice bytes 0 n)
        (part.getD (n / 65536 + 1)) 0 0 (0, 0, 0) with
    | (total, blocks, raws) =>
      if part.isSome then keepPart jsn total (blocks * 2 ^ 32 + raws) s else endWith jsn stOk total (blocks * 2 ^ 32 + raws) s

/-! ### PKR_SET_LEVEL (R144) -/

/-- PKR_SET_LEVEL (05 R144): the values wait for core cycle 16 of the next tick. -/
def execPkrSetLevel (jsn : Nat) (s : State) : Out :=
  .next <| onBegin 0x71 jsn s fun e _ s =>
    let w := pktWord e 1
    let n := bits w 0 4
    if s.cmd.compatActive && decide (6 < n) then endBare jsn stOk s
    else
      let p : LevelParams := if bitAt w 34 then levelDefaults.getD n { depth := 0, window := 0, lazyEval := 0 }
        else { depth := bits w 8 11, window := bits w 24 5, lazyEval := bits w 32 2 }
      endBare jsn stOk { s with pkr := { s.pkr with levelNext := s.pkr.levelNext ++ [(n, p)] } }

/-- The values take effect. -/
def levelTransfer (s : State) : State :=
  { s with pkr := { s.pkr with
    levels := s.pkr.levelNext.foldl (fun l p => l.set p.1 p.2) s.pkr.levels, levelNext := [] } }

/-! ### PKR_DECODE (R145) -/

/-- Blocks decoded from a source offset on: output, source bytes consumed, and whether the block there failed; the
first argument bounds the blocks. The first block has HIST = 0 (R145); of one that has HIST = 1 the spec says nothing, and here it is
decoded behind an empty history (DESIGN CHOICE, log entry 54). -/
def decodeBlocks (src : List Byte) (room : Nat) : Nat → Nat → List Byte → List Byte → List Byte × Nat × Bool
  | 0, at_, _, out => (out, at_, false)
  | n + 1, at_, hist, out =>
    let b := src.drop at_
    if b.length < 16 ∨ (headerOk b = true ∧ b.length < 16 + blockOut b) then (out, at_, false)
    else if headerOk b && decide (room < out.length + blockIn b) then (out, at_, false)
    else
      match abfDecode b hist with
      | none => (out, at_, true)
      | some l => decodeBlocks src room n (at_ + 16 + blockOut b) (if blockHist b then hist ++ l else l) (out ++ l)

/-- PKR_DECODE (05 R145). -/
def execPkrDecode (jsn : Nat) (bytes : List Byte) (part : Option Nat) (s : State) : Out :=
  blockwise 0x72 jsn s fun e s =>
    let n := bits (pktWord e 2) 0 32
    match decodeBlocks (slice bytes 0 n) (bits (pktWord e 4) 0 32) (part.getD (n / 17 + 1)) 0 [] [] with
    | (out, at_, bad) =>
      let s := if out.isEmpty then s else hostStore (pktWord e 3).toNat out s
      if part.isSome then keepPart jsn out.length at_ s
      else if bad then endR1 jsn stMediaError at_ s else endWith jsn stOk out.length at_ s

end Sys2Proof.Machine
end

