-- ==== Sys2Proof/Machine/ConfigSpace.lean ====
section
/-! DEFINITION. Configuration space (02 Table 2-2, R36), the component registers of BAR2 and the MSI-X structures of BAR4 (02
R37, Table 2-3), as 4-byte registers read and written. The items, values and BAR layout are the spec's; where in configuration
space a capability stands, and the bit places within it, are PRESUMED from PCI Express 5.0 and CXL 2.0 (log entry 25). In the
address space of the commands BAR2 stands at 0x400_0000, BAR4 at 0x402_0000, configuration space at 0x403_0000. -/

namespace Sys2Proof.Machine

/-! ### The header and the conventional capabilities -/

/-- Sizes of the three BARs (Table 2-3). -/
def barSize (pair : Nat) : Nat := [0x4000000, 0x20000, 0x4000].getD pair 0

/-- A base address register: the lower half of a pair with its type bits (memory, 64-bit, not prefetchable), or its upper half. -/
def barDword (i : Nat) (h : Hif) : Nat := if i % 2 = 0 then h.bars.getD i 0 + 4 else h.bars.getD i 0

/-- What a write leaves in a base address register: the bits below the BAR's size read 0. -/
def barWrite (i v : Nat) (h : Hif) : Hif :=
  { h with bars := h.bars.set i (if i % 2 = 0 then v / barSize (i / 2) * barSize (i / 2) else v) }

/-- The header (Table 2-2, R37): identity, Command and Status, BARs, subsystem, capability pointer. -/
def headerDword (a : Nat) (s : State) : Nat :=
  if a = 0x00 then 0x81601F4B
  else if a = 0x04 then boolNat s.hif.memSpace * 2 + boolNat s.hif.busMaster * 4 + 0x100000
  else if a = 0x08 then 0x018000B0
  else if 0x10 ≤ a ∧ a < 0x28 then barDword ((a - 0x10) / 4) s.hif
  else if a = 0x2C then s.sys.subsysId.toNat
  else if a = 0x34 then 0x40
  else 0

/-- RATE of Table 2-7 and the width, as the Link Status register holds them. -/
def linkStatusField (h : Hif) : Nat := h.rate + h.width * 2 ^ 4

/-- Power Management at 0x40, PCI Express at 0x50 (Function Level Reset, 32 GT/s, 16 lanes), MSI-X at 0x90 (256 entries, Function
Mask, MSI-X Enable; table and Pending Bit Array in BAR4). -/
def capabilityDword (a : Nat) (h : Hif) : Nat :=
  if a = 0x40 then 0x00035001
  else if a = 0x50 then 0x00029010
  else if a = 0x54 then 0x10008000
  else if a = 0x5C then 0x105
  else if a = 0x60 then linkStatusField h * 2 ^ 16
  else if a = 0x90 then 0x11 + 255 * 2 ^ 16 + boolNat h.funcMask * 2 ^ 30 + boolNat h.msixEn * 2 ^ 31
  else if a = 0x94 then 4
  else if a = 0x98 then 0x2004
  else 0

/-! ### The extended capabilities -/

/-- Header of an extended capability: ID, version, next. -/
def extHeader (id version next : Nat) : Nat := id + version * 2 ^ 16 + next * 2 ^ 20

/-- Header of a DVSEC of the CXL consortium: vendor, revision, length; and its ID. -/
def dvsecHeader (length : Nat) : Nat := 0x1E98 + 1 * 2 ^ 16 + length * 2 ^ 20

/-- The DOE mailbox: object ready, error, busy; the unread response is read by 4-byte words. -/
def doeDword (a : Nat) (d : Doe) : Nat :=
  if a = 0x16C then boolNat d.request.isSome + boolNat d.error * 4 + boolNat d.response.isSome * 2 ^ 31
  else if a = 0x174 then leNat (slice (d.response.getD []) 0 4)
  else 0

/-- AER, Device Serial Number, ATS, DOE, IDE. -/
def extendedDword (a : Nat) (h : Hif) : Nat :=
  if a = 0x100 then extHeader 0x0001 2 0x140
  else if a = 0x140 then extHeader 0x0003 1 0x150
  else if a = 0x144 then Config.serialNumber.toNat % 2 ^ 32
  else if a = 0x148 then Config.serialNumber.toNat / 2 ^ 32
  else if a = 0x150 then extHeader 0x000F 1 0x160
  else if a = 0x154 then 0x20 + boolNat h.atsEn * 2 ^ 31
  else if a = 0x160 then extHeader 0x002E 1 0x180
  else if a = 0x180 then extHeader 0x0030 1 0x200
  else if a = 0x184 then 1
  else doeDword a h.doe

/-! ### The DVSECs -/

/-- CXL Capability of the DVSEC for CXL Devices (R36): Cache_Capable, IO_Capable, Mem_Capable, Mem_HwInit_Mode, HDM_Count. -/
def cxlCapability : Nat := 1 + 1 * 2 + 1 * 2 ^ 2 + 0 * 2 ^ 3 + 1 * 2 ^ 4

/-- CXL Capability 2 (R36): Cache Size Unit of 64 KiB, Cache Size. -/
def cxlCapability2 : Nat := 1 + 1 * 2 ^ 8

/-- Range 1 size, lower half (R36): Memory_Info_Valid, Memory_Active, media type volatile, Memory_Class, Desired_Interleave; bits
31 to 28 of 16 GiB. -/
def rangeSizeLow (active : Bool) : Nat := 1 + boolNat active * 2 + 0 * 2 ^ 2 + 0 * 2 ^ 5 + 0 * 2 ^ 8

/-- DVSEC for CXL Devices: Cache_Enable and Mem_Enable read 0 in PCIe-only mode (R56); range 2 is absent. -/
def deviceDvsec (a : Nat) (s : State) : Nat :=
  if a = 0x200 then extHeader 0x0023 1 0x240
  else if a = 0x204 then dvsecHeader 0x3C
  else if a = 0x208 then 0x0000 + cxlCapability * 2 ^ 16
  else if a = 0x20C then boolNat s.hif.cacheEn + 2 + boolNat s.hif.memEn * 4
  else if a = 0x214 then cxlCapability2 * 2 ^ 16
  else if a = 0x218 then 0x400000000 / 2 ^ 32
  else if a = 0x21C then rangeSizeLow s.mem.ready
  else 0

/-- Register Locator (BAR2 offset 0 is the component register block) and Flex Bus Port. -/
def portDvsec (a : Nat) (h : Hif) : Nat :=
  if a = 0x240 then extHeader 0x0023 1 0x260
  else if a = 0x244 then dvsecHeader 0x14
  else if a = 0x248 then 0x0008
  else if a = 0x24C then 2 + 1 * 2 ^ 8
  else if a = 0x260 then extHeader 0x0023 1 0
  else if a = 0x264 then dvsecHeader 0x10
  else if a = 0x268 then 0x0007 + 7 * 2 ^ 16
  else if a = 0x26C then (if h.mode = 1 then 7 * 2 ^ 16 else 0)
  else 0

/-- A 4-byte register of configuration space. -/
def configDword (a : Nat) (s : State) : Nat :=
  if a < 0x40 then headerDword a s
  else if a < 0x100 then capabilityDword a s.hif
  else if a < 0x200 then extendedDword a s.hif
  else if a < 0x240 then deviceDvsec a s
  else portDvsec a s.hif

/-! ### BAR2 and BAR4 -/

/-- Control of the HDM decoder: IW, Lock On Commit, Committed, Error Not Committed. -/
def decoderControl (h : Hif) : Nat := boolNat h.locked * 2 ^ 8 + boolNat h.committed * 2 ^ 10 + boolNat h.notCommitted * 2 ^ 11

/-- BAR2: the CXL.cachemem primary range at 0x1000 with the capabilities RAS at 0x1100, HDM decoder at 0x1200, IDE at 0x1300. -/
def componentDword (a : Nat) (h : Hif) : Nat :=
  if a = 0x1000 then 0x03110001
  else if a = 0x1004 then 0x0002 + 1 * 2 ^ 16 + 0x100 * 2 ^ 20
  else if a = 0x1008 then 0x0005 + 1 * 2 ^ 16 + 0x200 * 2 ^ 20
  else if a = 0x100C then 0x0007 + 1 * 2 ^ 16 + 0x300 * 2 ^ 20
  else if a = 0x1200 then 1 * 2 ^ 4
  else if a = 0x1210 then h.hdmBase % 2 ^ 32
  else if a = 0x1214 then h.hdmBase / 2 ^ 32
  else if a = 0x1218 then h.hdmSize % 2 ^ 32
  else if a = 0x121C then h.hdmSize / 2 ^ 32
  else if a = 0x1220 then decoderControl h
  else if a = 0x1300 then 7
  else if a = 0x1304 then boolNat h.ideSkid
  else 0

/-- A word of the Pending Bit Array. -/
def pendingDword (k : Nat) (h : Hif) : Nat :=
  (List.range 32).foldl (fun n i => n + boolNat (tabGet false h.pba (32 * k + i)) * 2 ^ i) 0

/-- BAR4: entry v of the MSI-X table (address, data, Vector Control) and the Pending Bit Array. -/
def msixDword (a : Nat) (h : Hif) : Nat :=
  let m := tabGet (0, 0) h.messages (a / 16)
  if a < 0x1000 then
    (if a % 16 = 0 then m.1 % 2 ^ 32 else if a % 16 = 4 then m.1 / 2 ^ 32 else if a % 16 = 8 then m.2
      else boolNat !(tabGet false h.unmasked (a / 16)))
  else if 0x2000 ≤ a ∧ a < 0x2020 then pendingDword ((a - 0x2000) / 4) h
  else 0

/-- The message that a vector sends: its address and data (R54). -/
def msixMessage (v : Nat) (h : Hif) : Nat × Nat := tabGet (0, 0) h.messages v

/-! ### Reads -/

/-- A 4-byte register outside BAR0. -/
def outsideDword (a : Nat) (s : State) : Nat :=
  if a < 0x4020000 then componentDword (a - 0x4000000) s.hif
  else if a < 0x4030000 then msixDword (a - 0x4020000) s.hif
  else if a < 0x4031000 then configDword (a - 0x4030000) s
  else 0

/-- What a read outside BAR0 returns; none: a configuration request answered with CRS (17 R431). -/
def outsideRead (offset size : Nat) (s : State) : Option Word :=
  if configEarly s && decide (0x4030000 ≤ offset) then none
  else
    let a := offset / 4 * 4
    some (wd ((outsideDword a s + outsideDword (a + 4) s * 2 ^ 32) / 2 ^ (8 * (offset % 4)) % 2 ^ (8 * size)))

/-! ### Writes -/

/-- Vector v is masked or unmasked by Vector Control (R55). -/
def vectorControl (v : Nat) (masked : Bool) (s : State) : State :=
  msixRelease v (setHif (fun h => { h with unmasked := tabSet false v (!masked) h.unmasked }) s)

/-- A word of an MSI-X table entry. -/
def writeVector (v k x : Nat) (s : State) : State :=
  let m := msixMessage v s.hif
  if k = 12 then vectorControl v (decide (x % 2 = 1)) s
  else
    let m := if k = 0 then (m.1 / 2 ^ 32 * 2 ^ 32 + x / 4 * 4, m.2) else if k = 4 then (m.1 % 2 ^ 32 + x * 2 ^ 32, m.2) else (m.1, x)
    setHif (fun h => { h with messages := tabSet (0, 0) v m h.messages }) s

/-- Reading on in the DOE mailbox: a write of its read register takes the next word of the response. -/
def doeAdvance (d : Doe) : Doe :=
  { d with response := match d.response with
      | some l => if l.length ≤ 4 then none else some (l.drop 4)
      | none => none }

/-- A 4-byte register of configuration space is written: Command, BARs, MSI-X control, ATS Enable, DOE read mailbox, CXL Control
(ignored in PCIe-only mode, R56). -/
def writeConfig (a x : Nat) (s : State) : State :=
  if a = 0x04 then setHif (fun h => { h with memSpace := x.testBit 1, busMaster := x.testBit 2 }) s
  else if 0x10 ≤ a ∧ a < 0x28 then setHif (barWrite ((a - 0x10) / 4) x) s
  else if a = 0x90 then msixPump (setHif (fun h => { h with funcMask := x.testBit 30, msixEn := x.testBit 31 }) s)
  else if a = 0x154 then setHif (fun h => { h with atsEn := x.testBit 31 }) s
  else if a = 0x174 then setDoe doeAdvance s
  else if a = 0x20C then (if s.hif.mode = 2 then s else setHif (fun h => { h with cacheEn := x.testBit 0, memEn := x.testBit 2 }) s)
  else s

/-- A 4-byte register outside BAR0 is written. In BAR2 the IDE mode (R51); the decoder is set by HDM_DECODER_COMMIT. -/
def writeOutsideDword (a x : Nat) (s : State) : State :=
  if a < 0x4020000 then (if a = 0x4001304 then setHif (fun h => { h with ideSkid := x.testBit 0 }) s else s)
  else if a < 0x4030000 then
    (if a - 0x4020000 < 0x1000 then writeVector ((a - 0x4020000) / 16) ((a - 0x4020000) % 16) x s else s)
  else writeConfig (a - 0x4030000) x s

/-- The bytes of a 4-byte register that a write of some of them leaves. -/
def mergeDword (offset size : Nat) (value : Nat) (a old : Nat) : Nat :=
  leNat ((List.range 4).map fun i =>
    if offset ≤ a + i ∧ a + i < offset + size then BitVec.ofNat 8 (value / 2 ^ (8 * (a + i - offset)))
    else BitVec.ofNat 8 (old / 2 ^ (8 * i)))

/-- A write outside BAR0: the one or two 4-byte registers it reaches. -/
def writeOutside (offset size : Nat) (v : Word) (s : State) : State :=
  let a := offset / 4 * 4
  let one := fun (a : Nat) (s : State) => writeOutsideDword a (mergeDword offset size v.toNat a (outsideDword a s)) s
  let s := one a s
  if a + 4 < offset + size then one (a + 4) s else s

end Sys2Proof.Machine
end

