-- ==== Sys2Proof/Machine/Tec.lean ====
section
/-! DEFINITION. The tape ECC expert commands (08 R230-R235). -/

namespace Sys2Proof.Machine

/-! ### Commands -/

/-- The decode group as word 1 of TEC_SET_DECODE carries it. -/
def decodeWord (s : State) : Nat :=
  s.tec.verifyIter + s.tec.readIter * 2 ^ 4 + s.tec.outer * 2 ^ 10 + boolNat s.tec.c3Read * 2 ^ 13 + s.tec.ratioLow * 2 ^ 16

/-- TEC_SET_DECODE (08 R231): the group waits for core cycle 16 of the next tick. -/
def execTecSetDecode (jsn : Nat) (s : State) : Out :=
  .next <| onBegin 0x7A jsn s fun e _ s =>
    let w := pktWord e 1
    let g := if bitAt w 14 then (8, 24, 4, true, 0xDEB8)
      else (bits w 0 4, bits w 4 6, bits w 10 3, bitAt w 13, bits w 16 16)
    endR0 jsn stOk (decodeWord s) { s with tec := { s.tec with decodeNext := some g } }

/-- The decode group takes effect. -/
def decodeTransfer (s : State) : State :=
  match s.tec.decodeNext with
  | none => s
  | some (v, r, o, c, q) =>
    { s with tec := { s.tec with verifyIter := v, readIter := r, outer := o, c3Read := c, ratioLow := q, decodeNext := none } }

/-- TEC_TRACK_QUALITY (08 R232). -/
def execTecTrackQuality (jsn : Nat) (s : State) : Out :=
  .next <| onBegin 0x7B jsn s fun e _ s =>
    let page := wrapPage (if bitAt (pktWord e 2) 0 then wrapRecord false s else s.tec.last)
    endR0 jsn stOk 1040 (hostStore (pktWord e 1).toNat page (drawFree s))

/-- TEC_SET_DETECTOR (08 R233): FREEZE, RESET_TAPS and STEP_LOG2 wait for core cycle 16 of the next tick. -/
def execTecSetDetector (jsn : Nat) (s : State) : Out :=
  .next <| onBegin 0x7C jsn s fun e _ s =>
    let w := pktWord e 1
    endBare jsn stOk { s with tec := { s.tec with detectNext := some (bitAt w 0, bitAt w 1, bits w 4 4) } }

/-- The detector setting takes effect; RESET_TAPS puts every detector back to its state after reset. -/
def detectTransfer (s : State) : State :=
  match s.tec.detectNext with
  | none => s
  | some (f, r, n) =>
    { s with tec := { s.tec with
      frozen := f, tapsReset := s.tec.tapsReset || r, stepLog2 := n, detectNext := none
      detectors := if r then [] else s.tec.detectors } }

/-! ### TEC_CAPTURE (R234) -/

def captureSize (kind : Nat) : Nat := [11520, 9216, 8].getD kind 0

/-- What is recorded of a slot's samples: themselves, the channel's LLRs, or the margin record of their decode. -/
def captureBytes (kind channel : Nat) (samples : List Int) (s : State) : List Byte :=
  let llr := fun (_ : Unit) => (readSlot (detectorOf channel (wrapNow s) s) [] (.samples true samples)).2
  if kind = 0 then samples.map fun x => b8 (toTwos 6 x)
  else if kind = 1 then (llr ()).map fun x => b8 (toTwos 8 x)
  else
    let r := c1Decode s.tec.readIter (llr ())
    leBytes 8 (marginWord (marginRecord (validC1 r) s.tec.readIter r))

/-- Slots captured are written one after another. -/
def captureSlots (e : JournalEntry) (done : Nat) (slots : List (List Int)) (s : State) : State :=
  let kind := bits (pktWord e 1) 6 2
  let size := captureSize kind
  slots.zipIdx.foldl (fun s p => hostStore ((pktWord e 2).toNat + size * (done + p.2))
    (slice (captureBytes kind (bits (pktWord e 1) 0 6) p.1 s) 0 size) s) s

/-- TEC_CAPTURE (08 R234): the samples of slots that pass the reader are recorded until COUNT is reached. -/
def execTecCapture (jsn : Nat) (slots : List (List Int)) (s : State) : Out :=
  .next <|
    let go := fun (e : JournalEntry) (r : RunInfo) (s : State) =>
      let count := bits (pktWord e 3) 0 8
      let new := slots.take (count - r.done)
      let n := r.done + new.length
      let s := setRun jsn (fun r => { r with done := n }) (captureSlots e r.done new s)
      if n = count then endR0 jsn stOk n s else s
    match started 0x7D jsn s with
    | some (e, r) => go e r s
    | none => onBegin 0x7D jsn s fun e r s => go e { r with done := 0 } (setRun jsn (fun r => { r with done := 0 }) (startRun jsn s))

/-- TEC_CAPTURE_TIMEOUT (08 R234): 10 s after its start it ends with what it has. -/
def execTecCaptureTimeout (jsn at_ : Nat) (s : State) : Out :=
  .next <|
    let s := atTime at_ s
    match started 0x7D jsn s with
    | some (_, r) => if passedMs r.since s.aon.time 10000 then endR0 jsn stOk r.done s else s
    | none => s

/-- TEC_C1_ENCODE (08 R235). -/
def execTecC1Encode (jsn : Nat) (bytes : List Byte) (s : State) : Out :=
  .next <| onBegin 0x7E jsn s fun e _ s =>
    endBare jsn stOk (hostStore (pktWord e 2).toNat (c1Bytes bytes) s)

end Sys2Proof.Machine
end

