-- ==== Sys2Proof/Machine/Registers.lean ====
section
/-! DEFINITION. The register map of BAR0 (18 Table 18-1, R448, 00 R9): which accesses name a register, refused accesses (02
Table 2-8), and writes to fields with no behaviour of their own and to shadows (18 R449, R450, R452). Registers whose write is a
row of the command table have that row's meaning, and a REGISTER_WRITE that names one of them changes nothing. -/

namespace Sys2Proof.Machine

/-! ### Which offsets are registers (Table 18-1) -/

/-- Registers of one width at `count` places: `regs` consecutive ones at each of `count` places `stride` apart. -/
structure RegGroup where
  base   : Nat
  count  : Nat
  stride : Nat
  regs   : Nat
  bytes  : Nat
  /-- Reachable only from the control cores (FW in Table 18-1). -/
  fw     : Bool
  deriving DecidableEq, Repr

def regs8 (base regs : Nat) : RegGroup := { base := base, count := 1, stride := 8, regs := regs, bytes := 8, fw := false }
def regsAt (base count stride regs : Nat) : RegGroup :=
  { base := base, count := count, stride := stride, regs := regs, bytes := 8, fw := false }
def regsFw (base regs : Nat) : RegGroup := { base := base, count := 1, stride := 8, regs := regs, bytes := 8, fw := true }
def reg4 (base : Nat) : RegGroup := { base := base, count := 1, stride := 4, regs := 1, bytes := 4, fw := false }

/-- SYS to FMT. -/
def mapLow : List RegGroup :=
  [regs8 0x0 3, regs8 0x100 1, reg4 0x108, regs8 0x200 32, regs8 0x300 1, regsFw 0x308 1,
    reg4 0x100000, regs8 0x100010 1, regs8 0x100020 1,
    regsAt 0x200000 64 0x40 4, regsAt 0x201000 64 0x40 5, regs8 0x202000 5, regs8 0x202100 1, regs8 0x203000 4,
    regs8 0x203100 2, regs8 0x203200 1, regs8 0x203300 1, regsAt 0x204000 40 0x20 3, regs8 0x204800 1,
    regs8 0x300000 1, regs8 0x400000 1, regs8 0x400100 10, regs8 0x400200 6,
    regs8 0x500000 3, regs8 0x500100 5, regsFw 0x500200 11, regsFw 0x500260 4, regs8 0x600000 2, regs8 0x600100 5]

/-- TEC to MGT. -/
def mapHigh : List RegGroup :=
  [regs8 0x700000 1, regs8 0x700020 3, regs8 0x700100 8, regs8 0x700200 8, regs8 0x800000 4, regs8 0x800100 7,
    regs8 0x900000 5, regs8 0x900100 16, regs8 0xA00000 3, regs8 0xA00100 5, regs8 0xA00200 4, regsAt 0xA01000 32 0x400 11,
    regs8 0xB00000 5, regs8 0xB00100 3, regs8 0xC00000 1, regs8 0xC00010 4, regs8 0xC00100 4, regs8 0xC00200 16,
    regsFw 0xC00300 3, regs8 0xD00000 1, regs8 0xD00100 6, regs8 0xD00200 8, regs8 0xE00000 2, regs8 0xE00020 5,
    regs8 0xE00100 33, regs8 0xE00300 3, regs8 0xF00000 5, regs8 0xF00100 5, regs8 0x1000000 6, regsFw 0x1000100 3,
    regs8 0x1000200 4, regsFw 0x1001000 128, regsFw 0x1002000 128, regs8 0x1100000 1, regs8 0x1100100 3]

/-- The sections of the loops: eight registers each. -/
def mapSections : List RegGroup := (List.range 8).map fun k => regsAt (0xA01100 + 0x40 * k) 32 0x400 8

def regMap : List RegGroup := mapLow ++ mapHigh ++ mapSections

/-- The register of a group that holds a byte: its first byte. -/
def RegGroup.holding (g : RegGroup) (a : Nat) : Option Nat :=
  let o := a - g.base
  if a < g.base || g.count * g.stride ≤ o && g.count != 1 then none
  else
    let place := if g.count = 1 then 0 else o / g.stride
    let inner := o - place * g.stride
    if inner < g.regs * g.bytes then some (g.base + place * g.stride + inner / g.bytes * g.bytes) else none

/-- The register that holds a byte: its first byte, its width, and whether only the control cores reach it. -/
def registerAt (a : Nat) : Option (Nat × Nat × Bool) :=
  regMap.findSome? fun g => (g.holding a).map fun r => (r, g.bytes, g.fw)

/-- The access touches a byte of a register. -/
def touchesRegister (offset size : Nat) : Bool := (List.range size).any fun i => (registerAt (offset + i)).isSome

/-- The access is an aligned access of exactly a register's width (R9). -/
def exactAccess (offset size : Nat) : Bool := (registerAt offset).any fun r => r.1 == offset && r.2.1 == size

/-- Reachable from the control cores alone. -/
def firmwareOnly (offset : Nat) : Bool := (registerAt offset).any fun r => r.2.2

/-- Blocks of the host island (15 R396): HIF, CMD, PWR, the Weighhouse mailbox and the management port. -/
def islandBlock (offset : Nat) : Bool :=
  offset / 0x100000 == 1 || offset / 0x100000 == 2 || 0xF ≤ offset / 0x100000

/-- The offset cannot be reached: in L3 and until its wake ends (15 R396). -/
def unreachable (offset : Nat) (s : State) : Bool := s.pwr.state == 4 && !islandBlock offset

/-! ### Refused accesses (00 R9, 02 Table 2-8) -/

/-- HIF_ACCESS_ERR_LOG takes the first access; a further one sets OVERFLOW. -/
def logAccess (offset size : Nat) (write : Bool) (s : State) : State :=
  setHif (fun h =>
    if h.logValid then { h with logOverflow := true }
    else { h with logValid := true, logOffset := offset % 2 ^ 26, logSize := size % 16, logWrite := write }) s

/-- An access is refused: it is logged, HIF_ACCESS_ERROR is raised, a read gives all ones. -/
def refuseAccess (offset size : Nat) (write : Bool) (s : State) : State :=
  let s := raise evHifAccessError offset (size + 16 * boolNat write) (logAccess offset size write s)
  if write then s else emit .mmioOnes s

/-- MMIO_ACCESS_REFUSED (R9, R448): a host access to BAR0; one that R9 does not refuse changes nothing here. -/
def execMmioAccessRefused (offset size : Nat) (write : Bool) (s : State) : Out :=
  .next <| onMmio s <|
    if !hostUp s then s
    else if unreachable offset s then (if write then s else emit .mmioOnes s)
    else if touchesRegister offset size && (!exactAccess offset size || firmwareOnly offset) then refuseAccess offset size write s
    else s

/-! ### Command intake (03 Table 3-5, 18 Tables 18-5 to 18-8) -/

/-- BASE or CFG of a ring's shadow; BURST is reserved in completion and event rings (03 Table 3-5). -/
def ringShadow (burst : Bool) (k : Nat) (v : Word) (r : RingCfg) : RingCfg :=
  if k = 0 then { r with base := v }
  else if k = 1 then { r with en := bitAt v 0, sizeLog2 := bits v 4 5, burst := if burst then bits v 9 4 else 0 }
  else r

/-- Bits of a group's MASK that a write may set: those of STATUS sources (Table 18-7). -/
def maskable (g : Nat) : BitVec 32 :=
  BitVec.ofNat 32 ((List.range 32).foldl (fun a b => a + boolNat (!isOrdered (32 * g + b)) * 2 ^ b) 0)

/-- Submission ring n, register k. -/
def writeSq (n k : Nat) (v : Word) (s : State) : State :=
  { s with cmd := { s.cmd with subRings := s.cmd.subRings.modify n fun r => { r with shadow := ringShadow true k v r.shadow } } }

/-- Completion ring n, register k: CMD_CQ_VEC is register 4. -/
def writeCq (n k : Nat) (v : Word) (s : State) : State :=
  setCq n (fun r => if k = 4 then { r with vector := bits v 0 8, vecEn := bitAt v 8 } else { r with shadow := ringShadow false k v r.shadow }) s

def writeEvq (k : Nat) (v : Word) (s : State) : State :=
  let r := s.cmd.evt
  let r := if k = 4 then { r with vector := bits v 0 8, vecEn := bitAt v 8 } else { r with shadow := ringShadow false k v r.shadow }
  { s with cmd := { s.cmd with evt := r } }

/-- Event group g, register k: MASK and VEC. -/
def writeGroup (g k : Nat) (v : Word) (s : State) : State :=
  setGroup g (fun x =>
    if k = 1 then { x with mask := BitVec.ofNat 32 v.toNat &&& maskable g }
    else if k = 2 then { x with vector := bits v 0 8, vecEn := bitAt v 8 } else x) s

def writeCmd (o : Nat) (v : Word) (s : State) : State :=
  if o < 0x1000 then writeSq (o / 0x40) (o % 0x40 / 8) v s
  else if o < 0x2000 then writeCq ((o - 0x1000) / 0x40) (o % 0x40 / 8) v s
  else if o < 0x2040 then writeEvq ((o - 0x2000) / 8) v s
  else if o = 0x2100 then { s with cmd := { s.cmd with commitErr := s.cmd.commitErr && !bitAt v 10 } }
  else if 0x4000 ≤ o ∧ o < 0x4500 then writeGroup ((o - 0x4000) / 0x20) (o % 0x20 / 8) v s
  else s

/-! ### The other blocks -/

/-- Writing 1 to bit 2 clears ERR of a COMMIT register (18 R450). -/
def clearErr (v : Word) (c : Commit) : Commit := { c with err := c.err && !bitAt v 2 }

def writeHif (o : Nat) (v : Word) (s : State) : State :=
  if o = 0x10 ∧ bitAt v 63 then
    setHif (fun h => { h with logValid := false, logOverflow := false, logOffset := 0, logSize := 0, logWrite := false }) s
  else s

def writeVfy (o : Nat) (v : Word) (s : State) : State :=
  if o = 0x10 then
    { s with vfy := { s.vfy with shadow := { iterMax := bits v 0 4, flipsMax := bits v 4 11, weakMax := bits v 15 11, wholeMin := bits v 26 10, suspectMin := bits v 36 7 } } }
  else if o = 0x18 then { s with vfy := { s.vfy with commit := clearErr v s.vfy.commit } }
  else s

def writeHlk (o : Nat) (v : Word) (s : State) : State :=
  if o = 0x08 then
    { s with hlk := { s.hlk with shadow := { crcLimit := bits v 0 4, windowLog2 := bits v 8 4, recur := bits v 16 12 } } }
  else if o = 0x10 then { s with hlk := { s.hlk with commit := clearErr v s.hlk.commit } }
  else s

/-- A limit of a profile: mantissa and signed exponent. -/
def profLimit (v : Word) : Nat × Int := (bits v 0 24, fromTwos 6 (bits v 24 6))

/-- A paired register of a loop (12 Table 12-8). -/
def loopShadow (o : Nat) (v : Word) (c : LoopCfg) : LoopCfg :=
  if o = 0x00 then { c with
    eager := bitAt v 0, nsec := bits v 1 4, intSec := bits v 5 4, fbNeg := bitAt v 9, inExp := fromTwos 6 (bits v 10 6)
    fbSrc := bits v 16 8, sink := bits v 24 8, spSrc := bits v 32 8 }
  else if o = 0x10 then { c with outMin := fromTwos 24 (bits v 0 24), outMax := fromTwos 24 (bits v 24 24) }
  else if o = 0x18 then { c with feLimit := bits v 0 24, feTime := bits v 24 16, feAction := bits v 40 2 }
  else if o = 0x20 then { c with kind := bits v 0 2 }
  else if o = 0x28 then { c with vmax := profLimit v }
  else if o = 0x30 then { c with amax := profLimit v }
  else if o = 0x38 then { c with jmax := profLimit v }
  else c

def monShadow (v : Word) : MonCfg :=
  { stuckTicks := bits v 0 8, agree := bits v 8 8, tenAgree := bits v 16 8, releaseTicks := bits v 24 8, offtrackNm := bits v 32 16 }

def writeDrv (o : Nat) (v : Word) (s : State) : State :=
  if o = 0x08 then { s with drv := { s.drv with commit := clearErr v s.drv.commit } }
  else if o = 0x10 then { s with drv := { s.drv with speedLoopSh := bits v 0 5, speedEnSh := bitAt v 5 } }
  else if o = 0x210 then { s with mon := { s.mon with shadow := monShadow v } }
  else if o = 0x218 then { s with mon := { s.mon with commit := clearErr v s.mon.commit } }
  else if 0x1000 ≤ o then
    setLoop ((o - 0x1000) / 0x400) (fun l => { l with shadow := loopShadow (o % 0x400) v l.shadow }) s
  else s

def spmShadow (v : Word) : SpmCfg :=
  { maxStep := bits v 0 5, headroom := bits v 8 4, hyst := bits v 12 3, fLow := bits v 16 8, fHigh := bits v 24 8
    fRestart := bits v 32 8, hLow := bits v 40 5, hHigh := bits v 45 5 }

def writeSpm (o : Nat) (v : Word) (s : State) : State :=
  if o = 0x18 then { s with spm := { s.spm with shadow := spmShadow v } }
  else if o = 0x20 then { s with spm := { s.spm with commit := clearErr v s.spm.commit } }
  else s

def writePrt (o : Nat) (v : Word) (s : State) : State :=
  if 0x10 ≤ o ∧ o < 0x30 then
    { s with prt := { s.prt with pools := s.prt.pools.modify ((o - 0x10) / 8) fun p => { p with low := bits v 32 16 } } }
  else if 0x200 ≤ o ∧ o < 0x280 then
    { s with prt := { s.prt with
      refuseLog := s.prt.refuseLog.modify ((o - 0x200) / 8) fun e => { e with valid := e.valid && !bitAt v 63 } } }
  else if o = 0x308 then { s with prt := { s.prt with fwArg := v } }
  else s

/-- MEM_ECC_FLIP_CTRL without ARM, ADDR and MASK0 to MASK4 (14 R376). -/
def writeMem (o : Nat) (v : Word) (s : State) : State :=
  if o = 0x200 then (if bitAt v 0 then s else flipCtrlFields v s)
  else if o = 0x208 then { s with mem := { s.mem with flipSh := { s.mem.flipSh with addr := bits v 0 38 } } }
  else if 0x210 ≤ o ∧ o < 0x238 then
    { s with mem := { s.mem with flipSh := { s.mem.flipSh with masks := s.mem.flipSh.masks.set ((o - 0x210) / 8) v } } }
  else s

def thmClass (v : Word) : ThmCfg :=
  { throttle := fromTwos 12 (bits v 0 12), crit := fromTwos 12 (bits v 12 12), hyst := bits v 24 8, rate := bits v 32 12 }

def writeThm (o : Nat) (v : Word) (s : State) : State :=
  let g := s.thm.shadow
  if 0x20 ≤ o ∧ o < 0x38 then
    { s with thm := { s.thm with shadow := { g with classes := g.classes.set ((o - 0x20) / 8) (thmClass v) } } }
  else if o = 0x38 then
    { s with thm := { s.thm with shadow := { g with downSteps := bits v 0 3, downMs := bits v 8 8, upMs := bits v 16 16 } } }
  else if o = 0x40 then { s with thm := { s.thm with commit := clearErr v s.thm.commit } }
  else s

/-- PWR_CFG and the latches of PWR_AON (15 Tables 15-13, 15-15). -/
def writePwr (o : Nat) (v : Word) (s : State) : State :=
  if o = 0x10 then { s with pwr := { s.pwr with idleDelay := bits v 0 16 } }
  else if o = 0x20 then
    { s with aon := { s.aon with tripLatch := s.aon.tripLatch && !bitAt v 6, supplyLatch := s.aon.supplyLatch && !bitAt v 7 } }
  else s

/-- CPH_RQ_DESC0 to 7 (06 Table 6-9). -/
def writeCph (o : Nat) (v : Word) (s : State) : State :=
  if 0x200 ≤ o ∧ o < 0x240 then { s with cph := { s.cph with desc := s.cph.desc.set ((o - 0x200) / 8) v } } else s

/-- WH_MB_TX (16 Table 16-13). -/
def writeWh (o : Nat) (v : Word) (s : State) : State :=
  if 0x1000 ≤ o ∧ o < 0x1400 then
    let t := padTo 1024 s.wh.tx
    { s with wh := { s.wh with tx := t.take (o - 0x1000) ++ leBytes 8 v.toNat ++ t.drop (o - 0x1000 + 8) } }
  else s

/-- A write to a register of BAR0 by its block (Table 18-1). -/
def writeBlock (offset : Nat) (v : Word) (s : State) : State :=
  let o := offset % 0x100000
  match offset / 0x100000 with
  | 0x1 => writeHif o v s
  | 0x2 => writeCmd o v s
  | 0x5 => writeCph o v s
  | 0x8 => writeVfy o v s
  | 0x9 => writeHlk o v s
  | 0xA => writeDrv o v s
  | 0xB => writeSpm o v s
  | 0xC => writePrt o v s
  | 0xD => writeMem o v s
  | 0xE => writeThm o v s
  | 0xF => writePwr o v s
  | 0x10 => writeWh o v s
  | _ => s

/-- REGISTER_WRITE (R452, R449, R448, R9): by the host, or by a control core to a register that is theirs. -/
def execRegisterWrite (offset size : Nat) (value : Word) (s : State) : Out :=
  .next <| onMmio s <|
    if !hostUp s then s
    else if 0x4000000 ≤ offset then (if configEarly s ∧ 0x4030000 ≤ offset then emit .configRetry s else writeOutside offset size value s)
    else if unreachable offset s then s
    else if !touchesRegister offset size then s
    else if !exactAccess offset size then refuseAccess offset size true s
    else writeBlock offset value s

/-! ### VFY_MARGIN (09 R259) -/

/-- VFY_COMMIT_WRITE. -/
def execVfyCommitWrite (s : State) : Out :=
  .next <| onMmio s { s with vfy := { s.vfy with commit := { s.vfy.commit with pending := true } } }

end Sys2Proof.Machine
end

