-- ==== Sys2Proof/Machine/Tick.lean ====
section
/-! DEFINITION. The tick (01 R13-R18, Table 1-5): counting and timing, transfers at core cycle 16, the Porter settle, verify
decisions, the run's channel bits, the Drover, core 0's tick task. -/

namespace Sys2Proof.Machine

/-! ### VFY_MARGIN (09 R259) -/

def marginOk (m : Margin) : Bool :=
  m.iterMax != 0 && m.iterMax ≤ 8 && m.wholeMin != 0 && m.wholeMin ≤ 1023 && m.suspectMin != 0 && m.suspectMin ≤ 120

/-- The transfer of VFY_MARGIN at core cycle 16; a refused one reloads the shadow (18 R451). -/
def vfyTransfer (s : State) : State :=
  if !s.vfy.commit.pending then s
  else if marginOk s.vfy.shadow then { s with vfy := { s.vfy with margin := s.vfy.shadow, commit := .none } }
  else raiseN evVfyCfgErr { s with vfy := { s.vfy with shadow := s.vfy.margin, commit := { pending := false, err := true } } }

/-! ### Parts of a tick edge -/

/-- SYS_TICK_COUNT, the device time of the start, LAST_PERIOD (R13, Tables 1-2, 1-3). -/
def countTick (t : TickInput) (s : State) : State :=
  let s := atTime t.at_ s
  { s with sys := { s.sys with
    tickCount := s.sys.tickCount + 1, tickStart := s.aon.time, lastPeriod := t.period % 2 ^ 20 } }

/-- TICK_SHORT (R15): a servo tick shorter than 38,400 core cycles takes write current away for the tick that follows. -/
def shortCheck (t : TickInput) (s : State) : State :=
  let short := decide (t.period < 38400)
  let s := { s with sys := { s.sys with shortTick := short } }
  if short then raise evTickShort (s.sys.tickCount.toNat - 1) t.period s else s

/-- Budget of a datapath stage in core cycles (Table 1-4): 0 write, 1 read and verify, 2 verify decisions. -/
def stageBudget (n : Nat) : Nat := if n = 2 then 4000 else 36000

/-- A stage finished after its budget in the tick that ends. -/
def stageLate (t : TickInput) (n : Nat) : Bool := t.overruns.any fun p => p.1 == n && decide (stageBudget n < p.2)

/-- DATAPATH_OVERRUN for every stage that was late (R18). -/
def overrunEvents (t : TickInput) (s : State) : State :=
  t.overruns.foldl (fun s p =>
    if p.1 ≤ 2 ∧ stageBudget p.1 < p.2 then raise evDatapathOverrun p.1 p.2 s else s) s

/-- Servo frames that passed while ticks were synthetic. -/
def lostFrames (t : TickInput) : Nat := min 10000 (t.passed - 1)

/-- The run's channel bits pass in stretches with no write current, once per lost frame. -/
def runLost : Nat → State → State
  | 0, s => s
  | n + 1, s => runLost n (runTick true true true s)

/-- Channel bit b of a run's dataset on a track, or of the pattern around them (07 R178, R185). -/
def runBit (s : State) (r : TapeRun) (t b : Nat) : Bool :=
  match if r.runIn || r.runOut then none else findActive r.seq s with
  | some d =>
    let l := s.fmt.active.map (fun (a : WrittenDataset) => a.ds) ++ (s.cart.inDrive.elim [] fun c => c.chain)
    tapeBit false (l.filter fun o => o.partition == r.partition) d.ds t b
  | none => runPattern b

/-- Write bit j of a tick on a track: behind the end of a dataset the run goes on with what it came to. -/
def tickBit (s t : State) (r : TapeRun) (track j : Nat) : Bool :=
  if r.runIn || r.runOut || decide (r.bits + j < datasetBits) then runBit s r track (r.bits + j)
  else
    match t.fmt.run with
    | some x => runBit t x track (r.bits + j - datasetBits)
    | none => runPattern j

/-- WRITE_DATA: 1,920 bits of a channel in each frame, in the order of their first bits; what fills no frame waits for the next tick (11
R287). -/
def sendWriteData (lines : List (List Bool)) (s : State) : State :=
  let n := (lines.headD []).length / 1920
  let base := s.hlk.bitIndex
  let s := (List.range (n * 64)).foldl (fun s x =>
    let k := x / 64
    let line := lines.getD (x % 64) []
    sendFrame 0x8 (x % 64) ((base + 1920 * k) % 2 ^ 24) (wordsOf 30 ((line.drop (1920 * k)).take 1920)) s) s
  { s with hlk := { s.hlk with bitIndex := (base + 1920 * n) % 2 ^ 24, unsent := lines.map fun l => l.drop (1920 * n) } }

/-- The write bits of a tick go out (11 R287, R290). `s`, `t`: the states before and after the run's tick. A run ends with the pattern
filling its last frame. -/
def sendTickBits (s t : State) : State :=
  match s.fmt.run with
  | none => t
  | some r =>
    let old := fun (c : Nat) => if r.runIn then [] else t.hlk.unsent.getD c []
    let line := fun (c : Nat) => old c ++ (List.range tickBits).map (tickBit s t r c)
    let fill := fun (l : List Bool) => if t.fmt.run.isSome then l else l ++ (List.range ((1920 - l.length % 1920) % 1920)).map runPattern
    sendWriteData ((List.range 64).map fun c => fill (line c)) t

/-- The write side of a servo tick: 12,000 channel bits; behind synthetic ticks, in which no user data is written (R14), what passed unseen. -/
def writeTick (t : TickInput) (after : Bool) (s : State) : State :=
  let s := if after then (if s.fmt.run.isSome then runLost (lostFrames t + 1) s else s)
    else sendTickBits s (runTick (stageLate t 0) (stageLate t 1 || stageLate t 2) t.taskDone s)
  bandLocked (readServoFrame t { s with mon := { s.mon with wrapNow := some t.wrap } })

/-- Register groups transfer at core cycle 16 (18 Table 18-2, 03 R91, 05 R144, 08 R230). -/
def transfers (s : State) : State :=
  let s := hlkTransfer (vfyTransfer (armTransfer (ringTransfer s)))
  let s := thmTransfer (spmTransfer (monTransfer s))
  let s := detectTransfer (decodeTransfer (levelTransfer s))
  { s with cmd := { s.cmd with compatActive := s.cmd.compatT4 } }

/-- Inputs of the Drover: the readings with their substitutes, and the tape speed (12 Table 12-1, 13 R332-R335). -/
def droverInputs (t : TickInput) (s : State) : List (Nat × Int) :=
  let l := substituted t s
  match speedSource t.period l s with
  | some v => put 0x0E v l
  | none => l

/-- The tape speed of the tick, and since when the tape has been slower than 50 mm/s (13 R342). -/
def noteSpeed (inp : List (Nat × Int)) (s : State) : State :=
  match lookup 0x0E inp with
  | none => s
  | some v =>
    let slow := if v.natAbs < 50 then some (s.mon.slowFrom.getD s.aon.time) else none
    { s with mon := { s.mon with speed := v, slowFrom := slow } }

/-- The Drover's work of a tick: out of service in L2 and L3 (15 R392). -/
def droverPart (t : TickInput) (s : State) : State :=
  if 3 ≤ s.pwr.state then s
  else
    let inp := droverInputs t s
    let s := droverTick t.period t.unfinished inp (unposted s)
    slackTick (lookup 5 t.sources) (checkSensors t (noteSpeed inp s))

/-- SET_RATE (11 R290): RATE is the channel bit rate over 109.375 MHz in 2^-24; the bit index at which it applies is open. -/
def sendRate (s : State) : State :=
  if !linkUp s then s
  else
    let rate := s.mon.speed.natAbs * 60000 * 2 ^ 24 / 109375000
    sendControl 0x9 [wd (rate % 2 ^ 32 + Config.freeNat s.freeCount % 2 ^ 24 * 2 ^ 32)] (drawFree s)

/-- Core 0's tick task: the step in force, sections for the new period, release of write inhibit (17 R441). -/
def tickTask (t : TickInput) (s : State) : State :=
  if t.taskDone then releaseInhibit (reloadSections s) else s

/-- Two consecutive ticks without the tick task are a fault of the core that runs it (17 R440). -/
def taskCheck (t : TickInput) (s : State) : State :=
  let n := if t.taskDone then 0 else s.sys.taskMisses + 1
  let s := { s with sys := { s.sys with taskMisses := n } }
  if n < 2 || decide (s.sys.phase ≠ .running) || coreOut s.sys.tickCore s then s
  else coreFault s.sys.tickCore { s with sys := { s.sys with taskMisses := 0 } }

/-- Writes whose tape can no longer be used end (17 R439). -/
def tapeCheck (s : State) : State :=
  if tapeDown s && !(openWrites s).isEmpty then loseTape stUnitDegraded s else s

/-- Bytes of a chained buffer before its first word in a pseudo-channel; its buffers of 1 MiB begin at channel 0 (14 Table 14-3). -/
def soundBefore (pc : Nat) (c : Chained) : Option Nat :=
  let g := c.taken / 4096
  let d := (pc + 32 - g % 32) % 32
  let n := if d = 0 then 0 else (g + d) * 4096 - c.taken
  if n < c.bytes.length then some n else none

/-- The consumers of buffers in a retired pseudo-channel meet its poisoned words (14 Table 14-9): write pipelines restart, datasets held
for reads are let go to be read again, chained buffers and dictionaries are lost. Every buffer of an HBM pool has words in it. -/
def meetPoison (s : State) : State :=
  match s.mem.poolsLost with
  | none => s
  | some pc =>
    let s := { s with mem := { s.mem with poolsLost := none } }
    let mine := fun (p : Nat) => (s.fmt.active.any fun d => d.ds.partition == p && isAlive d)
      || ((s.fmt.closed ++ s.fmt.opened.toList).any fun o => o.ds.partition == p)
    let s := ((List.range 4).filter mine).foldl (fun s p => restartPipeline p s) s
    let s := { s with
      tec := { s.tec with held := [], buffers := [], recovering := none, c3Active := false, rdPass := 0 }
      pkr := { s.pkr with chained := s.pkr.chained.map fun (c : Chained) => { c with sound := soundBefore pc c } } }
    let l := s.ctx.records.filter fun p => decide (p.2.dict ≠ 0)
    l.foldl (fun s p => raiseP evPkrDictDropped p.1 (dropDict p.1 s)) s

/-- A tick of a running device. `after`: the tick before it was synthetic. -/
def fullTick (servo after : Bool) (t : TickInput) (s : State) : State :=
  let was := s.drv.safeStop
  let s := overrunEvents t (countTick t (captureTick t.unfinished s))
  let s := takeResults t.verify (meetPoison s)
  let s := if servo then writeTick t after s else s
  let s := if servo && !after then shortCheck t s else { s with sys := { s.sys with shortTick := false } }
  let s := if t.taskDone then applyStep (capDown s) else s
  let s := publishThermal (linkTick (transfers s))
  let s := droverPart t s
  let s := tickTask t (droverJobs (sendRate (porterSettle s)))
  taskCheck t (tapeCheck (stopRunIfStopped was s))

/-- Ticks run while the core domains have power: not in L3 (15 R396). -/
def ticking (s : State) : Bool := decide (s.sys.phase ≠ .off) && decide (s.pwr.state ≠ 4)

/-- A tick's work by the phase of the die: in a cold stop only loop 0 is brought to rest (17 R473). -/
def tickWork (servo after : Bool) (t : TickInput) (s : State) : State :=
  if s.sys.phase = .coldStop then droverPart t (countTick t s) else fullTick servo after t s

/-- SERVO_TICK (R13): a servo frame in lock, at 2.00 m/s or faster. -/
def execServoTick (t : TickInput) (s : State) : Out :=
  .next <|
    if !ticking s || s.sys.synth || !s.mon.lock || decide (160000 < t.period) then s
    else tickWork true (decide (s.mon.frames ≠ 0)) t { s with mon := { s.mon with frames := 0 } }

/-- SYNTHETIC_TICK (R14). -/
def execSyntheticTick (t : TickInput) (s : State) : Out :=
  .next <|
    if !ticking s then s
    else
      let s := if s.sys.synth then s else { s with sys := { s.sys with synth := true }, mon := { s.mon with frames := 0 } }
      tickWork false false t s

end Sys2Proof.Machine
end

