-- ==== Sys2Proof/Machine/Dispatch.lean ====
section
/-! DEFINITION. One arm per command: a direct call of its meaning. -/

namespace Sys2Proof.Machine

/-- The effect of a command on everything but the queue. -/
def exec (i : Instr) (s : State) : Host.Outcome State Fault Refusal :=
  match i with
  | .powerOn => Sys2Proof.Machine.execPowerOn s
  | .coldRstN => Sys2Proof.Machine.execColdRstN s
  | .sysResetCtrlWarm => Sys2Proof.Machine.execSysResetCtrlWarm s
  | .sysResetCtrlCold => Sys2Proof.Machine.execSysResetCtrlCold s
  | .warmReset c => Sys2Proof.Machine.execWarmReset c s
  | .coldResetStopEnd at_ => Sys2Proof.Machine.execColdResetStopEnd at_ s
  | .startUpSequence b t => Sys2Proof.Machine.execStartUpSequence b t s
  | .replayOpenCommands => Sys2Proof.Machine.execReplayOpenCommands s
  | .replayReportPosted => Sys2Proof.Machine.execReplayReportPosted s
  | .thermalTrip at_ => Sys2Proof.Machine.execThermalTrip at_ s
  | .tripRestart at_ => Sys2Proof.Machine.execTripRestart at_ s
  | .supplyLoss => Sys2Proof.Machine.execSupplyLoss s
  | .whRstN => Sys2Proof.Machine.execWhRstN s
  | .weighhousePowerOn selfTestOk => Sys2Proof.Machine.execWeighhousePowerOn selfTestOk s
  | .linkNegotiation o => Sys2Proof.Machine.execLinkNegotiation o s
  | .busMasterEnable => Sys2Proof.Machine.execBusMasterEnable s
  | .hdmDecoderCommit base size iw lock => Sys2Proof.Machine.execHdmDecoderCommit base size iw lock s
  | .cxlMemRead hpa => Sys2Proof.Machine.execCxlMemRead hpa s
  | .memWr hpa data => Sys2Proof.Machine.execMemWr hpa data s
  | .memWrPtl hpa data => Sys2Proof.Machine.execMemWrPtl hpa data s
  | .cxlSnoop line => Sys2Proof.Machine.execCxlSnoop line s
  | .atsInvalidate addr size gone => Sys2Proof.Machine.execAtsInvalidate addr size gone s
  | .doeRequest vendor dtype payload => Sys2Proof.Machine.execDoeRequest vendor dtype payload s
  | .doeAbort => Sys2Proof.Machine.execDoeAbort s
  | .ideIntegrityFail st lines at_ => Sys2Proof.Machine.execIdeIntegrityFail st lines at_ s
  | .ideKeysEstablished st => Sys2Proof.Machine.execIdeKeysEstablished st s
  | .ideKeyTimeout st at_ => Sys2Proof.Machine.execIdeKeyTimeout st at_ s
  | .msixUnmask vec => Sys2Proof.Machine.execMsixUnmask vec s
  | .mmioAccessRefused offset size write => Sys2Proof.Machine.execMmioAccessRefused offset size write s
  | .registerWrite offset size value => Sys2Proof.Machine.execRegisterWrite offset size value s
  | .cmdSqTailWrite ring value => Sys2Proof.Machine.execCmdSqTailWrite ring value s
  | .sqEntryFetch ring words => Sys2Proof.Machine.execSqEntryFetch ring words s
  | .cmdCqHeadWrite ring value => Sys2Proof.Machine.execCmdCqHeadWrite ring value s
  | .cmdEvqHeadWrite value => Sys2Proof.Machine.execCmdEvqHeadWrite value s
  | .cmdRingCommitWrite => Sys2Proof.Machine.execCmdRingCommitWrite s
  | .cmdCtrSopWrite w => Sys2Proof.Machine.execCmdCtrSopWrite w s
  | .cmdCtrDataWrite w => Sys2Proof.Machine.execCmdCtrDataWrite w s
  | .flush => Sys2Proof.Machine.execFlush s
  | .clrCounts => Sys2Proof.Machine.execClrCounts s
  | .journalTake t => Sys2Proof.Machine.execJournalTake t s
  | .journalEntryDurable jsn => Sys2Proof.Machine.execJournalEntryDurable jsn s
  | .journalSlotFreed jsn => Sys2Proof.Machine.execJournalSlotFreed jsn s
  | .cmdAbortWrite jsn => Sys2Proof.Machine.execCmdAbortWrite jsn s
  | .abortRecorded => Sys2Proof.Machine.execAbortRecorded s
  | .cmdCompatWrite value => Sys2Proof.Machine.execCmdCompatWrite value s
  | .evgStatusClear group value sameCycle => Sys2Proof.Machine.execEvgStatusClear group value sameCycle s
  | .managementPacket words => Sys2Proof.Machine.execManagementPacket words s
  | .unitReport unit state => Sys2Proof.Machine.execUnitReport unit state s
  | .mgtEidAssigned eid dynAddr => Sys2Proof.Machine.execMgtEidAssigned eid dynAddr s
  | .nop jsn => Sys2Proof.Machine.execNop jsn s
  | .nopDelayExpiry jsn => Sys2Proof.Machine.execNopDelayExpiry jsn s
  | .identify jsn => Sys2Proof.Machine.execIdentify jsn s
  | .getStatus jsn => Sys2Proof.Machine.execGetStatus jsn s
  | .setWakeTolerance jsn => Sys2Proof.Machine.execSetWakeTolerance jsn s
  | .load jsn done => Sys2Proof.Machine.execLoad jsn done s
  | .unload jsn done => Sys2Proof.Machine.execUnload jsn done s
  | .rewind jsn done => Sys2Proof.Machine.execRewind jsn done s
  | .locate jsn done => Sys2Proof.Machine.execLocate jsn done s
  | .space jsn passed => Sys2Proof.Machine.execSpace jsn passed s
  | .formatPartitions jsn => Sys2Proof.Machine.execFormatPartitions jsn s
  | .openContext jsn => Sys2Proof.Machine.execOpenContext jsn s
  | .closeContext jsn => Sys2Proof.Machine.execCloseContext jsn s
  | .setContextProfile jsn => Sys2Proof.Machine.execSetContextProfile jsn s
  | .setContextKey jsn => Sys2Proof.Machine.execSetContextKey jsn s
  | .writeRecords jsn list => Sys2Proof.Machine.execWriteRecords jsn list s
  | .writeFilemarks jsn => Sys2Proof.Machine.execWriteFilemarks jsn s
  | .sync jsn => Sys2Proof.Machine.execSync jsn s
  | .readRecords jsn tags => Sys2Proof.Machine.execReadRecords jsn tags s
  | .verifyRange jsn tags => Sys2Proof.Machine.execVerifyRange jsn tags s
  | .readOverflow jsn part => Sys2Proof.Machine.execReadOverflow jsn part s
  | .getLog jsn => Sys2Proof.Machine.execGetLog jsn s
  | .clearLog jsn => Sys2Proof.Machine.execClearLog jsn s
  | .ledgerRead jsn => Sys2Proof.Machine.execLedgerRead jsn s
  | .meterStatement jsn => Sys2Proof.Machine.execMeterStatement jsn s
  | .pkrEstimate jsn bytes part => Sys2Proof.Machine.execPkrEstimate jsn bytes part s
  | .pkrSetLevel jsn => Sys2Proof.Machine.execPkrSetLevel jsn s
  | .pkrDecode jsn bytes part => Sys2Proof.Machine.execPkrDecode jsn bytes part s
  | .fmtDatasetInfo jsn => Sys2Proof.Machine.execFmtDatasetInfo jsn s
  | .fmtCmAccess jsn bytes => Sys2Proof.Machine.execFmtCmAccess jsn bytes s
  | .tecSetDecode jsn => Sys2Proof.Machine.execTecSetDecode jsn s
  | .tecTrackQuality jsn => Sys2Proof.Machine.execTecTrackQuality jsn s
  | .tecSetDetector jsn => Sys2Proof.Machine.execTecSetDetector jsn s
  | .tecCapture jsn slots => Sys2Proof.Machine.execTecCapture jsn slots s
  | .tecCaptureTimeout jsn at_ => Sys2Proof.Machine.execTecCaptureTimeout jsn at_ s
  | .tecC1Encode jsn bytes => Sys2Proof.Machine.execTecC1Encode jsn bytes s
  | .drvSetSection jsn => Sys2Proof.Machine.execDrvSetSection jsn s
  | .drvSetMode jsn => Sys2Proof.Machine.execDrvSetMode jsn s
  | .drvMove jsn at_ => Sys2Proof.Machine.execDrvMove jsn at_ s
  | .drvMoveTimeout jsn at_ => Sys2Proof.Machine.execDrvMoveTimeout jsn at_ s
  | .drvCapture jsn => Sys2Proof.Machine.execDrvCapture jsn s
  | .diagSafeStop jsn => Sys2Proof.Machine.execDiagSafeStop jsn s
  | .diagCipherSelftest jsn passed done => Sys2Proof.Machine.execDiagCipherSelftest jsn passed done s
  | .diagUnitOffline jsn => Sys2Proof.Machine.execDiagUnitOffline jsn s
  | .diagUnitOnline jsn => Sys2Proof.Machine.execDiagUnitOnline jsn s
  | .diagClearRetirement jsn => Sys2Proof.Machine.execDiagClearRetirement jsn s
  | .diagReset jsn => Sys2Proof.Machine.execDiagReset jsn s
  | .thermalLimitTimeout jsn at_ => Sys2Proof.Machine.execThermalLimitTimeout jsn at_ s
  | .epochWaitTimeout jsn at_ => Sys2Proof.Machine.execEpochWaitTimeout jsn at_ s
  | .servoTick t => Sys2Proof.Machine.execServoTick t s
  | .syntheticTick t => Sys2Proof.Machine.execSyntheticTick t s
  | .servoMeasurementPost m cycle => Sys2Proof.Machine.execServoMeasurementPost m cycle s
  | .dacWriteDone => Sys2Proof.Machine.execDacWriteDone s
  | .safeStopEnd at_ => Sys2Proof.Machine.execSafeStopEnd at_ s
  | .safeStopRetry failed at_ => Sys2Proof.Machine.execSafeStopRetry failed at_ s
  | .servoLoss at_ => Sys2Proof.Machine.execServoLoss at_ s
  | .servoLossTimeout sfn at_ => Sys2Proof.Machine.execServoLossTimeout sfn at_ s
  | .drvCommitWrite => Sys2Proof.Machine.execDrvCommitWrite s
  | .drvCoefWrite loop sec reg value => Sys2Proof.Machine.execDrvCoefWrite loop sec reg value s
  | .drvModeWrite loop value => Sys2Proof.Machine.execDrvModeWrite loop value s
  | .drvTargetWrite loop value => Sys2Proof.Machine.execDrvTargetWrite loop value s
  | .drvMonCommitWrite => Sys2Proof.Machine.execDrvMonCommitWrite s
  | .spmCommitWrite => Sys2Proof.Machine.execSpmCommitWrite s
  | .vfyCommitWrite => Sys2Proof.Machine.execVfyCommitWrite s
  | .hlkCommitWrite => Sys2Proof.Machine.execHlkCommitWrite s
  | .thmCommitWrite => Sys2Proof.Machine.execThmCommitWrite s
  | .hlkLaneRetrain lane => Sys2Proof.Machine.execHlkLaneRetrain lane s
  | .hlkLaneRetire lane => Sys2Proof.Machine.execHlkLaneRetire lane s
  | .hlkLinkTraining t => Sys2Proof.Machine.execHlkLinkTraining t s
  | .samples f => Sys2Proof.Machine.execSamples f s
  | .servo f => Sys2Proof.Machine.execServo f s
  | .status f => Sys2Proof.Machine.execStatus f s
  | .reply f => Sys2Proof.Machine.execReply f s
  | .ident f => Sys2Proof.Machine.execIdent f s
  | .blockLockLoss lane => Sys2Proof.Machine.execBlockLockLoss lane s
  | .reorderTimeout lane source missing => Sys2Proof.Machine.execReorderTimeout lane source missing s
  | .laneRetrainDone passed at_ => Sys2Proof.Machine.execLaneRetrainDone passed at_ s
  | .pkrBlockEncoded jsn lane => Sys2Proof.Machine.execPkrBlockEncoded jsn lane s
  | .pkrSelfcheck jsn lane pass retryPass => Sys2Proof.Machine.execPkrSelfcheck jsn lane pass retryPass s
  | .pkrBlockDecoded jsn lane record block history glitch retryLane => Sys2Proof.Machine.execPkrBlockDecoded jsn lane record block history glitch retryLane s
  | .formatterPlaceBlock jsn lane check retry => Sys2Proof.Machine.execFormatterPlaceBlock jsn lane check retry s
  | .datasetIdleClose at_ => Sys2Proof.Machine.execDatasetIdleClose at_ s
  | .writingRunStart at_ atStep => Sys2Proof.Machine.execWritingRunStart at_ atStep s
  | .cmStatusWrite => Sys2Proof.Machine.execCmStatusWrite s
  | .datasetRelease => Sys2Proof.Machine.execDatasetRelease s
  | .releaseRecordDurable seq => Sys2Proof.Machine.execReleaseRecordDurable seq s
  | .cphRqPush desc => Sys2Proof.Machine.execCphRqPush desc s
  | .cphRqCancel cookie => Sys2Proof.Machine.execCphRqCancel cookie s
  | .cphCqPop => Sys2Proof.Machine.execCphCqPop s
  | .cphRequestComplete lane o => Sys2Proof.Machine.execCphRequestComplete lane o s
  | .ceilRaiseDurable => Sys2Proof.Machine.execCeilRaiseDurable s
  | .cphInstanceWrite value => Sys2Proof.Machine.execCphInstanceWrite value s
  | .subdatasetDecode seq subset found ahead slots => Sys2Proof.Machine.execSubdatasetDecode seq subset found ahead slots s
  | .c3Decode seq subset => Sys2Proof.Machine.execC3Decode seq subset s
  | .readAutoRetry seq found slots => Sys2Proof.Machine.execReadAutoRetry seq found slots s
  | .recoveryPass seq found slots => Sys2Proof.Machine.execRecoveryPass seq found slots s
  | .alloc owner size wait => Sys2Proof.Machine.execAlloc owner size wait s
  | .share owner handle new => Sys2Proof.Machine.execShare owner handle new s
  | .release owner handle => Sys2Proof.Machine.execRelease owner handle s
  | .transfer owner handle dest => Sys2Proof.Machine.execTransfer owner handle dest s
  | .free owner handle => Sys2Proof.Machine.execFree owner handle s
  | .patrolScrub hbm addr => Sys2Proof.Machine.execPatrolScrub hbm addr s
  | .pcRetrainDone passed at_ => Sys2Proof.Machine.execPcRetrainDone passed at_ s
  | .arm value => Sys2Proof.Machine.execArm value s
  | .thermalSample sensor raw at_ => Sys2Proof.Machine.execThermalSample sensor raw at_ s
  | .thmSensorLasting sensor at_ => Sys2Proof.Machine.execThmSensorLasting sensor at_ s
  | .throttleEvaluation at_ => Sys2Proof.Machine.execThrottleEvaluation at_ s
  | .thermalStop at_ => Sys2Proof.Machine.execThermalStop at_ s
  | .idleEntry at_ => Sys2Proof.Machine.execIdleEntry at_ s
  | .wakeTrigger k => Sys2Proof.Machine.execWakeTrigger k s
  | .wake => Sys2Proof.Machine.execWake s
  | .wakeComplete t => Sys2Proof.Machine.execWakeComplete t s
  | .cartPresenceChange c => Sys2Proof.Machine.execCartPresenceChange c s
  | .tapeSlack asserted => Sys2Proof.Machine.execTapeSlack asserted s
  | .tallyFrameReceive bytes => Sys2Proof.Machine.execTallyFrameReceive bytes s
  | .tallyResendTimeout at_ => Sys2Proof.Machine.execTallyResendTimeout at_ s
  | .whStatusPublish at_ temp => Sys2Proof.Machine.execWhStatusPublish at_ temp s
  | .whUnavailable at_ => Sys2Proof.Machine.execWhUnavailable at_ s
  | .whRetryExpiry at_ => Sys2Proof.Machine.execWhRetryExpiry at_ s
  | .formationBlockTimeout at_ => Sys2Proof.Machine.execFormationBlockTimeout at_ s
  | .extend stage digest => Sys2Proof.Machine.execExtend stage digest s
  | .close => Sys2Proof.Machine.execClose s
  | .ledgerGet firstEpoch count => Sys2Proof.Machine.execLedgerGet firstEpoch count s
  | .statement r => Sys2Proof.Machine.execStatement r s
  | .spdm mctp msg => Sys2Proof.Machine.execSpdm mctp msg s
  | .getMeasurements mctp index => Sys2Proof.Machine.execGetMeasurements mctp index s
  | .ideKm stream msg => Sys2Proof.Machine.execIdeKm stream msg s
  | .markRead epochs => Sys2Proof.Machine.execMarkRead epochs s
  | .send => Sys2Proof.Machine.execSend s
  | .romExit => Sys2Proof.Machine.execRomExit s
  | .whMbPop => Sys2Proof.Machine.execWhMbPop s
  | .sysCoreKick core at_ => Sys2Proof.Machine.execSysCoreKick core at_ s
  | .coreWatchdogExpiry core at_ => Sys2Proof.Machine.execCoreWatchdogExpiry core at_ s
  | .coreRetryDone core ok at_ => Sys2Proof.Machine.execCoreRetryDone core ok at_ s
  | .servoFrameDetected fast => Sys2Proof.Machine.execServoFrameDetected fast s
  | .whTimeCheckpoint => Sys2Proof.Machine.execWhTimeCheckpoint s
  | .whSupplyLoss => Sys2Proof.Machine.execWhSupplyLoss s
  | .mctpSpdmRequest mtype msg => Sys2Proof.Machine.execMctpSpdmRequest mtype msg s
  | .hostRecordFetch jsn bytes macOk => Sys2Proof.Machine.execHostRecordFetch jsn bytes macOk s

end Sys2Proof.Machine
end

