-- ==== Sys2Proof/Safety.lean ====
section
/-! DEFINITION. What counts as a safe state, and when and how a command packet ends, in the terms that the statements use:
memory in its canonical form (02, 14), the start of a command (03, 04), its retire word and final result (03 R76, R80). -/

namespace Sys2Proof.Machine

/-- What the end of a command packet leaves as it is: every block but the journal, the rings, the management port, the key
slots' bookkeeping, and the cache's lines and pins. -/
def State.device (s : State) :=
  (s.pkr, s.fmt, s.tec, s.vfy, s.hlk, s.drv, s.mon, s.spm, s.prt, s.mem, s.thm, s.pwr, s.aon, s.wh, s.whd, s.mram, s.cart,
    s.pending, s.ctx.records, s.sys.units, s.sys.phase, s.sys.tickCount, s.cph.lanes, s.cph.queue, s.cph.done, s.cph.degraded,
    s.jrn.nextJsn)

end Sys2Proof.Machine

namespace Sys2Proof.Safety

open Sys2Proof.Machine

/-- The memory of a state is in its canonical form. -/
def MemoryInv (s : State) : Prop := Memory.wf s.mem = true

/-- 06 R153: no counter of a key slot has passed the durable CEIL, and a raise that is being written raises it. -/
def CeilInv (s : State) : Prop :=
  (∀ p ∈ s.cph.ctxSlots ++ s.cph.devSlots, p.2.counter ≤ ceilNow s) ∧ ∀ c, s.mram.ceilNext = some c → ceilNow s ≤ c

/-- A command has been retired with a status (03 R76): its retire word is in the journal. -/
def RetiredWith (jsn status : Nat) (s : State) : Prop :=
  ∃ w ∈ s.jrn.retire, w.jsn = jsn ∧ w.state = 2 ∧ w.status = status

/-- The status with which a command that comes to OK ends: OK_RETRIED after an automatic retry (17 R438). -/
def okStatus (r : RunInfo) : Nat := if r.retried then stOkRetried else stOk

/-- From u to t only answers have gone out: the journal, the rings and what was sent may differ, no other block does. -/
def OnlyAnswers (u t : State) : Prop := t.device = u.device ∧ u.out <+: t.out

/-- A command ends in t with a status, its effect having made u. -/
def Ends (jsn status : Nat) (u t : State) : Prop :=
  RetiredWith jsn status t ∧ findRun t jsn = none ∧ OnlyAnswers u t

/-- A command has been retired with a status and both results. -/
def RetiredResults (jsn status r0 r1 : Nat) (s : State) : Prop :=
  { jsn := jsn, state := 2, status := status, result0 := wd r0, result1 := wd r1 : RetireWord } ∈ s.jrn.retire

/-- A command ends in t with a status and both results. -/
def EndsWith (jsn status r0 r1 : Nat) (u t : State) : Prop :=
  RetiredResults jsn status r0 r1 t ∧ findRun t jsn = none ∧ OnlyAnswers u t

/-- A command ends in t with a status and RESULT0, RESULT1 not being stated. -/
def EndsR0 (jsn status r0 : Nat) (u t : State) : Prop := ∃ r1, EndsWith jsn status r0 r1 u t

/-- A command ends in t with a status and RESULT1, RESULT0 not being stated. -/
def EndsR1 (jsn status r1 : Nat) (u t : State) : Prop := ∃ r0, EndsWith jsn status r0 r1 u t

/-- The command jsn of an opcode, with entry e and run r, may start now and has a retire word to end with: firmware runs, its
entry is durable, nothing before it holds it back (03 R76, 04 R94, R95, R116), host memory is within reach and its buffers
translate where it transfers data (02 R46, R53, R57), and its context is open where it needs it open (04 R100). -/
def ready (op jsn : Nat) (e : JournalEntry) (r : RunInfo) (s : State) : Bool :=
  decide (runnable op jsn s = some (e, r)) && !mustWait e s && !awaitsHost e r s
    && (hostRanges e r).all (fun p => translates p.1 p.2 s) && retireFree s
    && (!namesCtx e || ((pinCtx jsn (entryCtx e) s).isSome && (!needsOpen op || (getCtx (entryCtx e) s).isOpen)))

/-- The state in which the command's own effect begins: the line of the context it names is found and pinned (04 R93), and the
host buffers that it reads are fetched (02 R46). -/
def begun (jsn : Nat) (e : JournalEntry) (s : State) : State :=
  fetchHost e (if namesCtx e then (pinCtx jsn (entryCtx e) s).getD s else s)

/-- The tape may be used at once: no unit that it needs is out, it is not being stopped or trained, and no cartridge still has
to be loaded (04 R116, 13 R342, 17 R435, R439). -/
def tapeReady (s : State) : Bool :=
  !tapeDown s && !tapeHeld s && !loadMustWait s && s.hlk.retraining.isNone
    && (s.cart.loaded || s.cart.unknown || !s.cart.threaded)

/-- The CXL.io stream carries host accesses: it is not Insecure (02 R53). -/
def mmioOpen (s : State) : Prop := s.hif.ideIo.state ≠ .insecure

/-- Checks 1 of 14 Table 14-8: the handle names a buffer of the current epoch and generation. -/
def handleGood (h : Word) (s : State) : Prop :=
  hEpoch h = s.mram.prtEpoch % 65536 ∧ hIndex h < poolCount (hPool h) ∧ hGen h = (getBuf (hPool h) (hIndex h) s).gen

/-- From s to t the buffer of a handle takes a record and no other buffer changes (14 Table 14-7). -/
def BufferBecomes (h : Word) (b : BufRec) (s t : State) : Prop :=
  getBuf (hPool h) (hIndex h) t = b ∧ (∀ p i, (p, i) ≠ (hPool h, hIndex h) → getBuf p i t = getBuf p i s)
    ∧ t.prt.refusals = s.prt.refusals ∧ t.mem = s.mem ∧ t.mram = s.mram ∧ t.jrn = s.jrn

/-- From s to t an operation of the Porter was refused: nothing but the log, the count and the report changed (14 R356, R357). -/
def PorterRefused (caller op reason : Nat) (h : Word) (s t : State) : Prop :=
  t.prt.pools = s.prt.pools ∧ t.prt.waiting = s.prt.waiting ∧ t.prt.refusals = sat64 s.prt.refusals 1
    ∧ t.prt.refuseLog = s.prt.refuseLog.set s.prt.refusePtr
        { caller := caller, gen := hGen h, index := hIndex h, pool := hPool h, op := op, reason := reason, valid := true }
    ∧ t.prt.refusePtr = (s.prt.refusePtr + 1) % 16
    ∧ (isCore caller = true → t.prt.fwResult = wd (0x11 + if op = 0 then 0 else 2 ^ 8 + reason * 2 ^ 9))
    ∧ t.mem = s.mem ∧ t.mram = s.mram ∧ t.jrn = s.jrn

end Sys2Proof.Safety
end

