-- ==== Sys2Proof/Certificates/Slice0/Obligations.lean ====
section
/-! DEFINITION. The statements for the provers: the rules of spec/ about what the commands and the machine do. Where a statement
says that a command ends, `ready` is its condition on the state alone and the conclusion that exec answers a next state. -/

open Sys2Proof Sys2Proof.Machine Sys2Proof.Safety

/-! ### The machine as a whole -/

/-- The queue: a step runs the command at its front on the state with the queue's rest. -/
def Obligations.StepRunsFrontCommand : Prop :=
  ∀ (c : Instr) (rest : List Instr) (s : State), step { s with pending := c :: rest } = exec c { s with pending := rest }

/-- The empty queue: nothing but device time changes (the model's choice, log entry 1). -/
def Obligations.EmptyQueueOnlyTime : Prop :=
  ∀ s : State, s.pending = [] → step s = .next { s with aon := { s.aon with time := s.aon.time + 1 } }

/-- 09 Table 9-6, 08 Table 8-5, 13 Table 13-12, 15 Tables 15-11, 15-13, 03 R91, 16 R408: some of the reset values that
these tables give. -/
def Obligations.ResetValuesOfTables : Prop :=
  (State.reset.vfy.margin.iterMax = 4 ∧ State.reset.vfy.margin.flipsMax = 0x60 ∧ State.reset.vfy.margin.weakMax = 0x180
    ∧ State.reset.vfy.margin.wholeMin = 0x100 ∧ State.reset.vfy.margin.suspectMin = 0x18)
  ∧ (State.reset.tec.verifyIter = 8 ∧ State.reset.tec.readIter = 24 ∧ State.reset.tec.outer = 4
    ∧ State.reset.tec.ratioLow = 0xDEB8 ∧ State.reset.tec.stepLog2 = 12)
  ∧ (State.reset.mon.cfg.stuckTicks = 0x10 ∧ State.reset.mon.cfg.agree = 0x0D ∧ State.reset.mon.cfg.tenAgree = 0x4D
    ∧ State.reset.mon.cfg.releaseTicks = 8 ∧ State.reset.mon.cfg.offtrackNm = 0xC8)
  ∧ (State.reset.pwr.tolerance = 100 ∧ State.reset.pwr.idleDelay = 1000 ∧ State.reset.pwr.allowedMax = 4)
  ∧ State.reset.sys.tickCount = 0 ∧ State.reset.sys.synth = true ∧ State.reset.wh.epoch = 0xFFFFFFFF
  ∧ State.reset.cmd.compatT4 = false ∧ State.reset.pending = []

/-- The state after reset meets both invariants: memory is in the canonical form, and no counter of a key slot has passed CEIL (the
CEIL of a device that has never run is the model's, log entry 9). -/
def Obligations.ResetMeetsInvariants : Prop :=
  MemoryInv State.reset ∧ CeilInv State.reset

/-- Every step keeps the canonical form of memory: addresses strictly rising, nothing listed that an unlisted address
reads as. -/
def Obligations.StepKeepsMemoryCanonical : Prop :=
  ∀ s t : State, MemoryInv s → step s = .next t → MemoryInv t

/-- 16 R403, R404: nothing that the host, the formatter's firmware or the BMC commands changes a meter; a meter changes only
when the Weighhouse takes a tally frame, or puts its meters back to the last whole frame at its own start. -/
def Obligations.OnlyTalliesChangeMeters : Prop :=
  ∀ s t : State, step s = .next t → t.whd.meters ≠ s.whd.meters →
    ∃ c rest, s.pending = c :: rest ∧ ((∃ bytes, c = .tallyFrameReceive bytes) ∨ ∃ ok, c = .weighhousePowerOn ok)

/-- 03 R75: a JSN is one greater than the last, over every step and so across resets: the next JSN stays or rises by one, and it
rises only when a packet is journaled. -/
def Obligations.JsnsRiseByOne : Prop :=
  ∀ s t : State, step s = .next t →
    t.jrn.nextJsn = s.jrn.nextJsn
      ∨ (t.jrn.nextJsn = s.jrn.nextJsn + 1 ∧ ∃ i rest, s.pending = .journalTake i :: rest
          ∧ ∃ e ∈ t.jrn.entries, e.jsn = s.jrn.nextJsn ∧ e.slot = .writing)

/-- 06 R152: the INSTANCE in force changes only by a write to CPH_INSTANCE, and then only while no key slot is ACTIVE. -/
def Obligations.InstanceChangesOnlyByItsWrite : Prop :=
  ∀ s t : State, step s = .next t → t.mram.inst ≠ s.mram.inst →
    anyActive s = false ∧ ∃ v rest, s.pending = .cphInstanceWrite v :: rest ∧ t.mram.inst = BitVec.ofNat 32 v.toNat

/-! ### Commands of chapters 03 and 04: from the start to the final completion

`ready` says that the command may start now, `begun` is the state in which its effect begins, and `EndsWith` that its retire
word and final completion carry the status and results, nothing else of the device changing with them (`OnlyAnswers`). -/

/-- 03 R88, R89, R90: IDENTIFY writes its structure to ADDR; GET_STATUS answers in its results alone; GET_LOG writes LENGTH bytes
of the page from OFFSET, as far as the page goes, and RESULT0 is the page's size.

03 R87: NOP returns its cookie in RESULT0, at once in the basic form or with DELAY 0, else once DELAY ticks have passed.

03 R90: CLEAR_LOG clears the counters of its page and ends with OK; of page 0x02, every counter of memory. -/
def Obligations.ReportAndLogCommandsAnswer : Prop :=
  ((∀ jsn e r s, ready opIdentify jsn e r s = true →
      ∃ t, exec (.identify jsn) s = .next t
        ∧ Ends jsn (okStatus r) (hostStore (pktWord e 1).toNat (identity (begun jsn e s)) (begun jsn e s)) t)
    ∧ (∀ jsn e r s, ready opGetStatus jsn e r s = true →
      ∃ t, exec (.getStatus jsn) s = .next t
        ∧ EndsWith jsn (okStatus r) (statusResult (begun jsn e s)) (unfinished (begun jsn e s)) (begun jsn e s) t)
    ∧ (∀ jsn e r s, ready opGetLog jsn e r s = true →
      ∃ t, exec (.getLog jsn) s = .next t
        ∧ EndsR0 jsn (okStatus r) (logPage (bits (pktWord e 2) 0 8) (begun jsn e s)).length
            (let l := ((logPage (bits (pktWord e 2) 0 8) (begun jsn e s)).drop (pktWord e 3).toNat).take (bits (pktWord e 2) 8 24)
             if l = [] then begun jsn e s else hostStore (pktWord e 1).toNat l (begun jsn e s)) t))
  ∧ ((∀ jsn e r s, ready opNop jsn e r s = true → (entryExpert e = false ∨ bits (pktWord e 2) 0 32 = 0) →
      ∃ t, exec (.nop jsn) s = .next t ∧ EndsR0 jsn (okStatus r) (pktWord e 1).toNat (begun jsn e s) t)
    ∧ (∀ jsn e r s, ready opNop jsn e r s = true → entryExpert e = true → bits (pktWord e 2) 0 32 ≠ 0 →
      exec (.nop jsn) s
        = .next (setRun jsn (fun r => { r with done := s.sys.tickCount.toNat }) (startRun jsn (begun jsn e s))))
    ∧ (∀ jsn e r s, started opNop jsn s = some (e, r) → retireFree s = true → entryExpert e = true →
        r.done + bits (pktWord e 2) 0 32 ≤ s.sys.tickCount.toNat →
      ∃ t, exec (.nopDelayExpiry jsn) s = .next t ∧ EndsR0 jsn (okStatus r) (pktWord e 1).toNat s t))
  ∧ ((∀ jsn e r s, ready opClearLog jsn e r s = true →
      ∃ t, exec (.clearLog jsn) s = .next t
        ∧ Ends jsn (okStatus r) (clearPage (bits (pktWord e 1) 0 8) (begun jsn e s)) t)
    ∧ (∀ jsn e r s, ready opClearLog jsn e r s = true → bits (pktWord e 1) 0 8 = 2 →
      ∃ t, exec (.clearLog jsn) s = .next t ∧ t.mem.sramCe = 0 ∧ t.mem.sramUe = 0 ∧ t.mem.hbmCe = 0 ∧ t.mem.hbmUe = 0
        ∧ t.mem.poisonMerges = 0 ∧ t.mem.hbm = s.mem.hbm ∧ t.mem.sram = s.mem.sram ∧ t.mem.written = s.mem.written))

/-- 04 R96, R97: OPEN_CONTEXT, once no earlier write of the context is open, leaves the context open with TENANT and PARTITION
of the packet, POSITION 0, no items or bytes written, and LEVEL and DICT_PERSIST of the expert form or 3 and 0; RESULT0 says
whether it was open before. Every other context stays.

04 R98: CLOSE_CONTEXT, once no earlier write of the context is open, closes the context and releases DICT_HANDLE;
RESET_RECORD of the expert form also puts LEVEL to 3 and DICT_PERSIST, TENANT, PARTITION and POSITION to 0. On a closed context
it ends with OK and changes nothing. Every other context stays.

04 R99: SET_CONTEXT_PROFILE sets LEVEL of its open context, and DICT_PERSIST in the expert form; DICT_PERSIST = 0 there
releases DICT_HANDLE (05 R130). Every other field and context stays. -/
def Obligations.ContextCommandsSetTheRecord : Prop :=
  (∀ jsn e r s, ready opOpenContext jsn e r s = true →
      writesOpen (some (entryCtx e)) jsn (begun jsn e s) = false →
      ∃ t, exec (.openContext jsn) s = .next t
        ∧ EndsR0 jsn (okStatus r) (boolNat (getCtx (entryCtx e) s).isOpen)
            (openCtx e (if (getCtx (entryCtx e) s).isOpen then dropDict (entryCtx e) (dropChainedOf (entryCtx e) (begun jsn e s))
              else begun jsn e s)) t
        ∧ getCtx (entryCtx e) t =
            { getCtx (entryCtx e) s with
              isOpen := true, tenant := bits (pktWord e 1) 32 12, partition := bits (pktWord e 1) 20 2, position := 0
              itemsWritten := 0, bytesWritten := 0
              level := if entryExpert e then capLevel (bits (pktWord e 2) 0 4) s else 3
              persist := entryExpert e && bitAt (pktWord e 2) 4
              dict := if (getCtx (entryCtx e) s).isOpen then 0 else (getCtx (entryCtx e) s).dict }
        ∧ (∀ c, c ≠ entryCtx e → getCtx c t = getCtx c s)
        ∧ t.mem = s.mem ∧ t.cart = s.cart ∧ t.fmt = s.fmt ∧ t.mram = s.mram)
  ∧ ((∀ jsn e r s, ready opCloseContext jsn e r s = true → (getCtx (entryCtx e) s).isOpen = false →
        writesOpen (some (entryCtx e)) jsn (begun jsn e s) = false →
      ∃ t, exec (.closeContext jsn) s = .next t ∧ Ends jsn (okStatus r) (begun jsn e s) t)
    ∧ (∀ jsn e r s, ready opCloseContext jsn e r s = true → (getCtx (entryCtx e) s).isOpen = true →
        writesOpen (some (entryCtx e)) jsn (begun jsn e s) = false →
      ∃ t, exec (.closeContext jsn) s = .next t
        ∧ Ends jsn (okStatus r)
            (closeCtx e (dropDict (entryCtx e) (dropChainedOf (entryCtx e) (begun jsn e s)))) t
        ∧ getCtx (entryCtx e) t =
            (if (entryExpert e && bitAt (pktWord e 2) 0) = true then
              { getCtx (entryCtx e) s with
                isOpen := false, dict := 0, level := 3, persist := false, tenant := 0, partition := 0, position := 0 }
            else { getCtx (entryCtx e) s with isOpen := false, dict := 0 })
        ∧ (∀ c, c ≠ entryCtx e → getCtx c t = getCtx c s)
        ∧ t.cph.lanes = s.cph.lanes ∧ t.mem = s.mem ∧ t.cart = s.cart ∧ t.fmt = s.fmt ∧ t.mram = s.mram ∧ t.whd = s.whd))
  ∧ (∀ jsn e r s, ready opSetProfile jsn e r s = true →
      ∃ t, exec (.setContextProfile jsn) s = .next t ∧ RetiredWith jsn (okStatus r) t ∧ findRun t jsn = none
        ∧ getCtx (entryCtx e) t =
            (if entryExpert e = false then
              { getCtx (entryCtx e) s with level := capLevel (bits (pktWord e 1) 20 4) s }
            else if bitAt (pktWord e 2) 0 then
              { getCtx (entryCtx e) s with level := capLevel (bits (pktWord e 1) 20 4) s, persist := true }
            else { getCtx (entryCtx e) s with level := capLevel (bits (pktWord e 1) 20 4) s, persist := false, dict := 0 })
        ∧ (∀ c, c ≠ entryCtx e → getCtx c t = getCtx c s)
        ∧ t.mem = s.mem ∧ t.cart = s.cart ∧ t.fmt = s.fmt ∧ t.mram = s.mram)

/-! ### Keys, chained buffers and the tape's position -/

/-- 06 R154, R161, R162: SET_CONTEXT_KEY ends with OK and the slot's former state in RESULT0. A clear leaves the slot EMPTY; a key
makes it ACTIVE with its label, its counter at the CEIL in force (0 while CEIL_ERR is 1). A pending area that a cold reset has
emptied ends it with ABORTED_BY_RESET; a wrapped key is loaded when its tag is right under the transport slot, else it ends with
UNTRUSTED. -/
def Obligations.SetContextKeyLoads : Prop :=
  (∀ jsn e r s, ready opSetKey jsn e r s = true →
      ((keyTarget e.words).1 || !writesOpen (some (keyTarget e.words).2) jsn (begun jsn e s)) = true →
      (getSlot (keyTarget e.words) s).pending = .clear jsn →
    ∃ t, exec (.setContextKey jsn) s = .next t
      ∧ EndsWith jsn (okStatus r) (slotState (getSlot (keyTarget e.words) s)) 0 (clearKey (keyTarget e.words) (begun jsn e s)) t
      ∧ (r.replayed = false → (getSlot (keyTarget e.words) t).use = .empty ∧ (getSlot (keyTarget e.words) t).wrapped = List.replicate 40 0
          ∧ (getSlot (keyTarget e.words) t).label = 0 ∧ (getSlot (keyTarget e.words) t).pending = .none
          ∧ (getSlot (keyTarget e.words) t).counter = (getSlot (keyTarget e.words) s).counter))
  ∧ (∀ jsn e r s label key, ready opSetKey jsn e r s = true →
      ((keyTarget e.words).1 || !writesOpen (some (keyTarget e.words).2) jsn (begun jsn e s)) = true →
      (getSlot (keyTarget e.words) s).pending = .key jsn label key →
    ∃ t, exec (.setContextKey jsn) s = .next t
      ∧ EndsWith jsn (okStatus r) (slotState (getSlot (keyTarget e.words) s)) 0 (loadKey (keyTarget e.words) label key (begun jsn e s)) t
      ∧ (r.replayed = false → (getSlot (keyTarget e.words) t).use = .active ∧ (getSlot (keyTarget e.words) t).wrapped = key
          ∧ (getSlot (keyTarget e.words) t).label = label ∧ (getSlot (keyTarget e.words) t).limited = 0
          ∧ (getSlot (keyTarget e.words) t).pending = .none
          ∧ (getSlot (keyTarget e.words) t).counter = (if s.cph.ceilErr then 0 else ceilNow s)))
  ∧ (∀ jsn e r s label tr aad key tag iv k, ready opSetKey jsn e r s = true →
      ((keyTarget e.words).1 || !writesOpen (some (keyTarget e.words).2) jsn (begun jsn e s)) = true →
      (getSlot (keyTarget e.words) s).pending = .wrapped jsn label tr aad key tag iv →
      unwrapKey tr aad key tag iv s = some k →
    ∃ t, exec (.setContextKey jsn) s = .next t
      ∧ EndsWith jsn (okStatus r) (slotState (getSlot (keyTarget e.words) s)) 0 (loadKey (keyTarget e.words) label k (begun jsn e s)) t)
  ∧ (∀ jsn e r s label tr aad key tag iv, ready opSetKey jsn e r s = true →
      ((keyTarget e.words).1 || !writesOpen (some (keyTarget e.words).2) jsn (begun jsn e s)) = true →
      (getSlot (keyTarget e.words) s).pending = .wrapped jsn label tr aad key tag iv →
      unwrapKey tr aad key tag iv s = none →
    ∃ t, exec (.setContextKey jsn) s = .next t ∧ Ends jsn stUntrusted (begun jsn e s) t)
  ∧ (∀ jsn e r s, ready opSetKey jsn e r s = true →
      ((keyTarget e.words).1 || !writesOpen (some (keyTarget e.words).2) jsn (begun jsn e s)) = true →
      pendingJsn (getSlot (keyTarget e.words) s).pending ≠ some jsn →
    ∃ t, exec (.setContextKey jsn) s = .next t ∧ Ends jsn stAbortedByReset (begun jsn e s) t)

/-- 05 R140: READ_OVERFLOW of a chained buffer moves up to LENGTH bytes to ADDR; RESULT0 is how many, RESULT1 how many are left and
in bit 63 whether the chain was cut short. The bytes moved leave the buffer, and it is released when none is left or DROP is 1.
A handle that names no buffer ends with END_OF_DATA and moves nothing. -/
def Obligations.ReadOverflowMovesBytes : Prop :=
  (∀ jsn e r s c, ready opReadOverflow jsn e r s = true → (s.pkr.chained.find? fun c => c.handle == pktWord e 1) = some c →
      min (bits (pktWord e 3) 0 32) c.bytes.length ≤ soundBytes c →
    ∃ t, exec (.readOverflow jsn none) s = .next t
      ∧ (let n := min (bits (pktWord e 3) 0 32) c.bytes.length
         RetiredResults jsn (okStatus r) n (c.bytes.length - n + (if c.truncated then 2 ^ 63 else 0)) t
          ∧ (n ≠ 0 → (hostStore (pktWord e 2).toNat (c.bytes.take n) (begun jsn e s)).out <+: t.out)
          ∧ ((n = c.bytes.length ∨ bitAt (pktWord e 3) 32 = true) → (t.pkr.chained.find? fun c => c.handle == pktWord e 1) = none)
          ∧ (n < c.bytes.length → bitAt (pktWord e 3) 32 = false →
              ∃ c', (t.pkr.chained.find? fun c => c.handle == pktWord e 1) = some c' ∧ c'.bytes = c.bytes.drop n))
      ∧ t.ctx.records = s.ctx.records ∧ t.fmt = s.fmt ∧ t.mem = s.mem ∧ t.cart = s.cart)
  ∧ (∀ jsn e r s c, ready opReadOverflow jsn e r s = true → (s.pkr.chained.find? fun c => c.handle == pktWord e 1) = some c →
      soundBytes c < min (bits (pktWord e 3) 0 32) c.bytes.length →
    ∃ t, exec (.readOverflow jsn none) s = .next t
      ∧ EndsR0 jsn stInternalFault (soundBytes c) (dropChained c (overflowBytes e c 0 (soundBytes c) (begun jsn e s))) t)
  ∧ (∀ jsn e r s c part, ready opReadOverflow jsn e r s = true → (s.pkr.chained.find? fun c => c.handle == pktWord e 1) = some c →
      exec (.readOverflow jsn (some part)) s = .next (overflowPart e c 0 part (begun jsn e s)))
  ∧ (∀ jsn e r s c, started opReadOverflow jsn s = some (e, r) → (s.pkr.chained.find? fun c => c.handle == pktWord e 1) = some c →
      exec (.readOverflow jsn none) s = .next (readOverflow e c r.done s))
  ∧ (∀ jsn e r s part, ready opReadOverflow jsn e r s = true → (s.pkr.chained.find? fun c => c.handle == pktWord e 1) = none →
    ∃ t, exec (.readOverflow jsn part) s = .next t ∧ EndsWith jsn stEndOfData 0 0 (begun jsn e s) t)

/-- 04 R114: REWIND sets POSITION of its context to 0 and moves the tape to the start of the partition; LOCATE sets PARTITION and
POSITION from the packet, or to the end of data with END_OF_DATA for a RECORD beyond it; RESULT1 is the new POSITION. A partition
that the cartridge does not have ends with MEDIA_ERROR and RESULT1 naming it. With NO_MOTION the tape stays.

04 R115: SPACE moves POSITION over COUNT items. Backward it stops at item 0 and never reports END_OF_DATA; with COUNT 0 nothing
moves. RESULT1 is the new POSITION and RESULT0 how many items of UNIT were moved over: never more than COUNT.

04 R111: a command that moves the tape begins its motion, under the cap of its MAX_STEP, before it ends; the cap is lifted with
the end of the motion. -/
def Obligations.PositionCommandsMove : Prop :=
  ((∀ jsn e r s c, ready opRewind jsn e r s = true → tapeReady s = true → loadedCart s = some c →
        (getCtx (entryCtx e) s).partition < cmPartitions c →
      ∃ t, exec (.rewind jsn true) s = .next t
        ∧ EndsR1 jsn (okStatus r) 0 (setCtx (entryCtx e) (fun x => { x with position := 0 })
            (moveTo (firstWrap c (getCtx (entryCtx e) s).partition) true (begun jsn e s))) t
        ∧ (getCtx (entryCtx e) t).position = 0
        ∧ t.cart.wrap = some (firstWrap c (getCtx (entryCtx e) s).partition)
        ∧ (∀ x, x ≠ entryCtx e → getCtx x t = getCtx x s))
    ∧ (∀ jsn e r s c, ready opLocate jsn e r s = true → tapeReady s = true → noMotion e = false → loadedCart s = some c →
        bits (pktWord e 1) 20 2 < cmPartitions c → (pktWord e 2).toNat ≤ eodOf (bits (pktWord e 1) 20 2) s →
      ∃ t, exec (.locate jsn true) s = .next t ∧ (∃ r0, RetiredResults jsn (okStatus r) r0 ((pktWord e 2).toNat) t)
        ∧ (getCtx (entryCtx e) t).partition = bits (pktWord e 1) 20 2
        ∧ (getCtx (entryCtx e) t).position = (pktWord e 2).toNat
        ∧ t.cart.wrap = some (itemWrap (bits (pktWord e 1) 20 2) (pktWord e 2).toNat c)
        ∧ (∀ x, x ≠ entryCtx e → getCtx x t = getCtx x s))
    ∧ (∀ jsn e r s c, ready opLocate jsn e r s = true → tapeReady s = true → noMotion e = false → loadedCart s = some c →
        bits (pktWord e 1) 20 2 < cmPartitions c → eodOf (bits (pktWord e 1) 20 2) s < (pktWord e 2).toNat →
      ∃ t, exec (.locate jsn true) s = .next t ∧ RetiredWith jsn stEndOfData t
        ∧ (getCtx (entryCtx e) t).position = eodOf (bits (pktWord e 1) 20 2) s)
    ∧ (∀ jsn done e r s c, ready opLocate jsn e r s = true → noMotion e = true → loadedCart s = some c →
        bits (pktWord e 1) 20 2 < cmPartitions c → (pktWord e 2).toNat ≤ eodOf (bits (pktWord e 1) 20 2) s →
      ∃ t, exec (.locate jsn done) s = .next t ∧ RetiredWith jsn (okStatus r) t
        ∧ (getCtx (entryCtx e) t).position = (pktWord e 2).toNat ∧ t.cart = s.cart ∧ t.tec = s.tec)
    ∧ (∀ jsn e r s c, ready opLocate jsn e r s = true → tapeReady s = true → noMotion e = false → loadedCart s = some c →
        cmPartitions c ≤ bits (pktWord e 1) 20 2 →
      ∃ t, exec (.locate jsn true) s = .next t ∧ EndsR1 jsn stMediaError (bits (pktWord e 1) 20 2) (begun jsn e s) t))
  ∧ (∀ jsn e r s c, ready opSpace jsn e r s = true → (tapeReady s = true ∨ noMotion e = true) → loadedCart s = some c →
        (getCtx (entryCtx e) s).partition < cmPartitions c →
      ∃ t n st, exec (.space jsn none) s = .next t
        ∧ RetiredResults jsn (if st = stOk then okStatus r else st) n ((getCtx (entryCtx e) t).position) t
        ∧ findRun t jsn = none
        ∧ n ≤ bits (pktWord e 2) 0 32
        ∧ (bits (pktWord e 2) 0 32 = 0 → (getCtx (entryCtx e) t).position = (getCtx (entryCtx e) s).position ∧ t.cart = s.cart)
        ∧ (bitAt (pktWord e 1) 21 = true → st ≠ stEndOfData
            ∧ (getCtx (entryCtx e) t).position ≤ (getCtx (entryCtx e) s).position)
        ∧ (bitAt (pktWord e 1) 21 = false → (getCtx (entryCtx e) s).position ≤ (getCtx (entryCtx e) t).position)
        ∧ ({ getCtx (entryCtx e) t with position := 0 } = { getCtx (entryCtx e) s with position := 0 } : Prop)
        ∧ (∀ x, x ≠ entryCtx e → getCtx x t = getCtx x s)
        ∧ (noMotion e = true → t.cart = s.cart))
  ∧ ((∀ jsn e r s, ready opRewind jsn e r s = true → tapeReady s = true →
        exec (.rewind jsn false) s = .next (beginMotion e (begun jsn e s)))
    ∧ (∀ jsn e r s, ready opLocate jsn e r s = true → tapeReady s = true → noMotion e = false →
        exec (.locate jsn false) s = .next (beginMotion e (begun jsn e s)))
    ∧ (∀ jsn n e r s, ready opSpace jsn e r s = true → tapeReady s = true → noMotion e = false →
        exec (.space jsn (some n)) s
          = .next (beginMotion e (begun jsn e (setRun jsn (fun r => { r with done := n }) s))))
    ∧ (∀ jsn e r s c, started opRewind jsn s = some (e, r) → retireFree s = true → tapeDown s = false → tapeHeld s = false →
        loadedCart s = some c → (getCtx (entryCtx e) s).partition < cmPartitions c →
      ∃ t, exec (.rewind jsn true) s = .next t
        ∧ EndsR1 jsn (okStatus r) 0 (setCtx (entryCtx e) (fun x => { x with position := 0 })
            (moveTo (firstWrap c (getCtx (entryCtx e) s).partition) true (liftCap s))) t))

/-- 04 R112, R113, 07 R203: LOAD of a cartridge already loaded with valid memory ends with OK and RESULT0 0 and changes
nothing; with none in the drive it ends with MEDIA_ERROR and RESULT1 all ones; where it threads the cartridge it makes the steps
of 07 R203 and RESULT0 is 1. UNLOAD while no run is in progress makes the
steps of 04 R112 and lets the cartridge out; RESULT1 is 0.

07 R200: FORMAT_PARTITIONS of a writable cartridge with an epoch valid and no run in progress formats it: RESULT0 is the
number of partitions and RESULT1 the wraps; every context is at position 0 of a partition that exists. A cartridge that may not
be written ends it with MEDIA_ERROR. -/
def Obligations.LoadUnloadAndFormat : Prop :=
  ((∀ jsn e r s, ready opLoad jsn e r s = true → tapeReady s = true → s.cart.loaded = true →
        s.cart.cm ≠ 3 →
      ∃ t, exec (.load jsn true) s = .next t ∧ EndsWith jsn (okStatus r) 0 0 (begun jsn e s) t)
    ∧ (∀ jsn e r s, ready opLoad jsn e r s = true → tapeReady s = true → s.cart.loaded = false → s.cart.inDrive = none →
      ∃ t, exec (.load jsn true) s = .next t ∧ EndsR1 jsn stMediaError 0xFFFFFFFFFFFFFFFF (begun jsn e s) t)
    ∧ (∀ jsn e r s c u, ready opLoad jsn e r s = true → tapeReady s = true → s.cart.loaded = false → s.cart.inDrive = some c →
        s.aon.cartPresent = true → s.cart.threaded = false → loadCart (dropHeld (begun jsn e s)) = (.ok, u) →
      ∃ t, exec (.load jsn true) s = .next t ∧ EndsWith jsn (okStatus r) 1 0 u t ∧ t.cart.loaded = true
        ∧ (t.cart.cm = 1 ∨ t.cart.cm = 2))
    ∧ (∀ jsn e r s, ready opUnload jsn e r s = true → tapeReady s = true → s.cart.loaded = true → s.fmt.run = none →
      ∃ t, exec (.unload jsn true) s = .next t ∧ EndsR1 jsn (okStatus r) 0 (unloadCart (begun jsn e s)) t
        ∧ t.cart.loaded = false ∧ t.cart.inDrive = none
        ∧ (∀ c, (getCtx c s).isOpen = true → (getCtx c t).isOpen = true ∧ (getCtx c t).position = 0
            ∧ (getCtx c t).partition = (getCtx c s).partition))
    ∧ (∀ jsn e r s, ready opLoad jsn e r s = true → tapeReady s = true →
        exec (.load jsn false) s = .next (beginMotion e (begun jsn e s)))
    ∧ (∀ jsn e r s, ready opUnload jsn e r s = true → tapeReady s = true →
        exec (.unload jsn false) s = .next (beginMotion e (begun jsn e s))))
  ∧ ((∀ jsn e r s c, ready opFormat jsn e r s = true → tapeReady s = true → s.cart.loaded = true → s.cart.inDrive = some c →
        mediaType c ≠ 0x81 → s.wh.epochValid = true → s.fmt.run = none →
      ∃ t, exec (.formatPartitions jsn) s = .next t
        ∧ (let n := bits (pktWord e 1) 0 3
           let pairs := if entryExpert e then (pairsOf (pktWord e 2)).take n else evenPairs n
           EndsWith jsn (okStatus r) n (2 * sumNat pairs)
             (formatContexts n (formatCart pairs (if entryExpert e then bits (pktWord e 1) 4 4 else 0) (dropHeld (begun jsn e s)))) t
           ∧ (∀ x, (getCtx x t).position = 0 ∧ (0 < n → (getCtx x t).partition < n)))
        ∧ t.fmt.durableEnd = [0, 0, 0, 0] ∧ t.fmt.placeEnd = [0, 0, 0, 0] ∧ t.cart.cm = 1)
    ∧ (∀ jsn e r s c, ready opFormat jsn e r s = true → tapeReady s = true → s.cart.loaded = true → s.cart.inDrive = some c →
        mediaType c = 0x81 →
      ∃ t, exec (.formatPartitions jsn) s = .next t ∧ EndsR1 jsn stMediaError 0xFFFFFFFFFFFFFFFE (raiseN evFmtNotWritable (begun jsn e s)) t))

/-- 07 R205, R206: FMT_DATASET_INFO of an item that a dataset of the context's partition holds writes that dataset's header to
ADDR, RESULT0 its SEQ and RESULT1 its boot epoch; at or beyond the end of data it ends with END_OF_DATA. FMT_CM_ACCESS reads
LENGTH bytes of cartridge memory to ADDR, or writes them; RESULT0 is the number. -/
def Obligations.FormatReports : Prop :=
  (∀ jsn e r s c d i, ready 0x78 jsn e r s = true → tapeReady s = true → loadedCart s = some c →
      (getCtx (entryCtx e) s).partition < cmPartitions c → (pktWord e 2).toNat < eodOf (getCtx (entryCtx e) s).partition s →
      findItem (chainOf c (getCtx (entryCtx e) s).partition) (pktWord e 2).toNat = some (d, i) →
    ∃ t, exec (.fmtDatasetInfo jsn) s = .next t
      ∧ (let h := headerRead (chainOf c (getCtx (entryCtx e) s).partition) d s
         EndsWith jsn (okStatus r) h.seq h.bootEpoch
           (hostStore (pktWord e 3).toNat (headerBytes h) (moveTo d.wrap false (begun jsn e s))) t))
  ∧ (∀ jsn e r s c, ready 0x78 jsn e r s = true → tapeReady s = true → loadedCart s = some c →
      (getCtx (entryCtx e) s).partition < cmPartitions c → eodOf (getCtx (entryCtx e) s).partition s ≤ (pktWord e 2).toNat →
    ∃ t, exec (.fmtDatasetInfo jsn) s = .next t ∧ Ends jsn stEndOfData (begun jsn e s) t)
  ∧ (∀ jsn bytes e r s c, ready 0x79 jsn e r s = true → (s.cart.loaded || s.cart.unknown) = true → s.cart.inDrive = some c →
    ∃ t, exec (.fmtCmAccess jsn bytes) s = .next t
      ∧ EndsR0 jsn (okStatus r) (bits (pktWord e 1) 16 15)
          (if bits (pktWord e 1) 16 15 = 0 then begun jsn e s
           else if bitAt (pktWord e 1) 32 then
             modCart (cmPut (bits (pktWord e 1) 0 14) (slice bytes 0 (bits (pktWord e 1) 16 15))) (begun jsn e s)
           else hostStore (pktWord e 2).toNat (cmSlice c (bits (pktWord e 1) 0 14) (bits (pktWord e 1) 16 15)) (begun jsn e s)) t)

/-! ### Writing and reading -/

/-- 04 R102, R103, R104, 07 R207: WRITE_RECORDS starts on a loaded, writable cartridge that has its partition: the run of the
command begins with the lengths of its records, the tenant, profile and partition of its context, or those it took before a
reset; a blank cartridge is formatted first, and AT_POSITION makes POSITION the end of data. After a reset its list is fetched
again (R106); a list that differs ends it with INTERNAL_FAULT (02 R46).

04 R108: WRITE_FILEMARKS with COUNT 0, and SYNC, end at once with OK when every earlier write command they wait for has ended
and nothing is in the pipeline: RESULT0 is 0, RESULT1 the end of data of the context's partition, and nothing is placed. With
COUNT above 0, on a loaded, writable cartridge, the run of WRITE_FILEMARKS begins with COUNT filemarks to place. -/
def Obligations.WriteCommandsStart : Prop :=
  (∀ jsn list e r s c l, ready opWriteRecords jsn e r s = true → tapeReady s = true → s.vfy.disabled = false →
        formBlockedLong s = false → loadedCart s = some c → mediaType c ≠ 0x81 →
        (isBlank c = true ∨ (grantOf e r s).2.2.2 < cmPartitions c) → (isBlank c = false ∨ s.wh.epochValid = true) →
        (r.replayed = false ∨ hostReachable s = true) → refetched e r list = some l →
      let x := getCtx (entryCtx e) s
      let p := if isBlank c then 0 else (grantOf e r s).2.2.2
      let b := setRun jsn (fun r => { r with list := l })
        (if r.replayed then fetchList e.words (begun jsn e s) else begun jsn e s)
      let u := dropHeld (if isBlank c then formatContexts 1 (formatCart (evenPairs 1) 0 b) else b)
      let moves := atPosition e && r.done == 0 && (!s.cmd.compatActive || x.position == u.fmt.placeEnd.getD p 0)
      (moves = false ∨ partitionBusy p jsn u = false) →
      ∃ w, exec (.writeRecords jsn list) s
          = .next (beginRun w (truncateOwed p (if moves then closeOpen (placeAt x.position p (closeOpen u)) else u)))
        ∧ w.jsn = jsn ∧ w.ctx = entryCtx e ∧ w.lens = recordLens 0 l ∧ w.filemarks = 0
        ∧ (w.tenant, w.level, w.persist, w.partition)
            = (if isBlank c then (x.tenant, capLevel x.level s, x.persist, 0) else grantOf e r s)
        ∧ w.input = [] ∧ w.placedBytes = 0 ∧ w.ending = none ∧ w.placedItems ≤ r.done)
  ∧ (∀ jsn list e r s, ready opWriteRecords jsn e r s = true → tapeReady s = true → r.replayed = true → hostReachable s = true →
        refetched e r list = none →
      ∃ t, exec (.writeRecords jsn list) s = .next t ∧ RetiredWith jsn stInternalFault t ∧ findRun t jsn = none)
  ∧ ((∀ jsn e r s, ready opSync jsn e r s = true →
        writesOpen (if syncAll e then none else some (entryCtx e)) jsn s = false →
        s.fmt.writes = [] → s.fmt.opened = none → s.fmt.closed = [] → s.fmt.c3Groups = [] →
      ∃ t, exec (.sync jsn) s = .next t
        ∧ EndsWith jsn (okStatus r) 0 (s.fmt.durableEnd.getD (grantOf e r s).2.2.2 0) (begun jsn e s) t)
    ∧ (∀ jsn e r s, ready opWriteFilemarks jsn e r s = true → bits (pktWord e 2) 0 32 = 0 → syncAll e = false →
        writesOpen (some (entryCtx e)) jsn s = false →
        s.fmt.writes = [] → s.fmt.opened = none → s.fmt.closed = [] → s.fmt.c3Groups = [] →
      ∃ t, exec (.writeFilemarks jsn) s = .next t
        ∧ EndsWith jsn (okStatus r) 0 (s.fmt.durableEnd.getD (grantOf e r s).2.2.2 0) (begun jsn e s) t)
    ∧ (∀ jsn e r s c, ready opWriteFilemarks jsn e r s = true → bits (pktWord e 2) 0 32 ≠ 0 → tapeReady s = true →
        s.vfy.disabled = false → formBlockedLong s = false → loadedCart s = some c → mediaType c ≠ 0x81 →
        (isBlank c = true ∨ (grantOf e r s).2.2.2 < cmPartitions c) → (isBlank c = false ∨ s.wh.epochValid = true) →
      let p := if isBlank c then 0 else (grantOf e r s).2.2.2
      let u := dropHeld (if isBlank c then formatContexts 1 (formatCart (evenPairs 1) 0 (begun jsn e s)) else begun jsn e s)
      ∃ w, exec (.writeFilemarks jsn) s = .next (beginRun w (truncateOwed p u))
        ∧ w.jsn = jsn ∧ w.filemarks = bits (pktWord e 2) 0 32 ∧ w.lens = [] ∧ w.ctx = entryCtx e ∧ w.partition = p))

/-- 04 R110: READ_RECORDS with COUNT 0 delivers nothing and RESULT1 is the length of the record at POSITION; at the end of data
it ends with END_OF_DATA; a read of its whole COUNT, or of as much as its list holds, ends with RESULT0 the records delivered,
RESULT1 the new POSITION, and the status OK, OK_RETRIED, or UNTRUSTED when untrusted bytes were delivered. No other context
moves.

10 R276, R277: VERIFY_RANGE with COUNT 0 ends with OK at its POSITION; one that finds every item of its range ends with the
items checked, the new POSITION, and OK, OK_RETRIED, or UNTRUSTED when a tag fails; it delivers no record. -/
def Obligations.ReadsDeliverAndVerify : Prop :=
  ((∀ jsn tags e r s c, ready opReadRecords jsn e r s = true → tapeReady s = true → loadedCart s = some c →
        (getCtx (entryCtx e) s).partition < cmPartitions c → bits (pktWord e 1) 32 32 = 0 →
      ∃ t, exec (.readRecords jsn tags) s = .next t
        ∧ EndsWith jsn (okStatus r) 0
            (peekLength (readJob e (sumNat (r.list.map (·.length))) tags c (begun jsn e s)) (getCtx (entryCtx e) s).position) (begun jsn e s) t)
    ∧ (∀ jsn tags e r s c, ready opReadRecords jsn e r s = true → tapeReady s = true → loadedCart s = some c →
        (getCtx (entryCtx e) s).partition < cmPartitions c → bits (pktWord e 1) 32 32 ≠ 0 →
        eodOf (getCtx (entryCtx e) s).partition s ≤ (getCtx (entryCtx e) s).position →
      ∃ t, exec (.readRecords jsn tags) s = .next t
        ∧ RetiredResults jsn stEndOfData 0 (getCtx (entryCtx e) s).position t ∧ findRun t jsn = none
        ∧ (∀ x, getCtx x t = getCtx x s) ∧ t.mem = s.mem)
    ∧ (∀ jsn tags e r s c stop a, ready opReadRecords jsn e r s = true → tapeReady s = true → loadedCart s = some c →
        (getCtx (entryCtx e) s).partition < cmPartitions c → bits (pktWord e 1) 32 32 ≠ 0 →
        (let j := readJob e (sumNat (r.list.map (·.length))) tags c (begun jsn e s)
         readWalk j (begun jsn e s) (min (bits (pktWord e 1) 32 32) (j.eod - (getCtx (entryCtx e) s).position + 1))
           (startAcc (getCtx (entryCtx e) s).position)) = (stop, a) →
        (stop = .listFull ∨ (stop = .count ∧ a.n = bits (pktWord e 1) 32 32)) → (a.bad = [] ∨ heldBack s = false) →
      ∃ t st, exec (.readRecords jsn tags) s = .next t
        ∧ RetiredResults jsn st a.n a.pos t ∧ findRun t jsn = none
        ∧ (if a.bad = [] then st = stOk ∨ st = stOkRetried else st = stUntrusted)
        ∧ (getCtx (entryCtx e) t).position = a.pos
        ∧ (∀ x, x ≠ entryCtx e → getCtx x t = getCtx x s) ∧ t.mem = s.mem))
  ∧ ((∀ jsn tags e r s, ready opVerifyRange jsn e r s = true → tapeReady s = true → bits (pktWord e 1) 32 32 = 0 →
      ∃ t, exec (.verifyRange jsn tags) s = .next t
        ∧ EndsWith jsn (okStatus r) 0 (getCtx (entryCtx e) s).position (begun jsn e s) t)
    ∧ (∀ jsn tags e r s c a, ready opVerifyRange jsn e r s = true → tapeReady s = true → loadedCart s = some c →
        (getCtx (entryCtx e) s).partition < cmPartitions c → bits (pktWord e 1) 32 32 ≠ 0 →
        (let j := readJob e 0 tags c (begun jsn e s)
         verifyWalk j (begun jsn e s) (min (bits (pktWord e 1) 32 32) (j.eod - (getCtx (entryCtx e) s).position + 1))
           { n := 0, pos := (getCtx (entryCtx e) s).position, seqs := [], frames := [] }) = (.count, a) →
        a.n = bits (pktWord e 1) 32 32 →
      ∃ t st, exec (.verifyRange jsn tags) s = .next t
        ∧ RetiredResults jsn st a.n a.pos t ∧ findRun t jsn = none
        ∧ (st = stOk ∨ st = stOkRetried ∨ st = stUntrusted)
        ∧ (getCtx (entryCtx e) t).position = a.pos
        ∧ (∀ x, x ≠ entryCtx e → getCtx x t = getCtx x s) ∧ t.mem = s.mem))

/-- 16 R422, R424, R415: LEDGER_READ writes the entries it names, newest first as the ring holds them, marks them read, and answers
their number and the span of epochs held; METER_STATEMENT takes the next statement number and writes the statement once every
tally queued at its acceptance has been taken. With the Weighhouse unavailable both end with UNIT_DEGRADED. -/
def Obligations.LedgerAndStatementCommands : Prop :=
  (∀ jsn e r s, ready opLedgerRead jsn e r s = true → s.wh.avail = 1 → whServes s = true →
    ∃ t, exec (.ledgerRead jsn) s = .next t
      ∧ EndsWith jsn (okStatus r) (ledgerChoice e s).length (ledgerSpan s)
          (doMarkRead ((ledgerChoice e s).map (·.epoch))
            (if ledgerChoice e s = [] then begun jsn e s
             else hostStore (pktWord e 1).toNat ((ledgerChoice e s).flatMap entryBytes) (begun jsn e s))) t)
  ∧ (∀ jsn e r s, ready opMeterStatement jsn e r s = true → s.wh.avail = 1 → whServes s = true → r.done ≤ s.wh.lastTsn →
    ∃ t, exec (.meterStatement jsn) s = .next t
      ∧ (let u := nextStatement (begun jsn e s)
         EndsWith jsn (okStatus r) (statementContent (statementReq e) u).length ((stateWord s).statementNo + 1)
           (hostStore (pktWord e 1).toNat (statementContent (statementReq e) u) u) t)
      ∧ t.whd.meters = s.whd.meters)
  ∧ (∀ jsn e r s, ready opLedgerRead jsn e r s = true → s.wh.avail ≠ 1 →
    ∃ t, exec (.ledgerRead jsn) s = .next t ∧ Ends jsn stUnitDegraded (begun jsn e s) t)
  ∧ (∀ jsn e r s, ready opMeterStatement jsn e r s = true → s.wh.avail ≠ 1 →
    ∃ t, exec (.meterStatement jsn) s = .next t ∧ Ends jsn stUnitDegraded (begun jsn e s) t)

/-! ### Expert commands of the packer, the tape electronics and the Drover -/

/-- 05 R143, R144, R145: PKR_ESTIMATE answers the encoded bytes, blocks and raw blocks of LENGTH bytes and changes nothing;
PKR_SET_LEVEL gives a level its values, the table's with DEFAULT = 1, from the next tick on; PKR_DECODE writes the decoded bytes
to DST and answers how many, and how far the source was read. Between two blocks what is done so far is kept for an abort. -/
def Obligations.PackerCommandsAnswer : Prop :=
  (∀ jsn bytes e r s total blocks raws, ready 0x70 jsn e r s = true →
      (let n := bits (pktWord e 2) 0 32
       let level := capLevel (bits (pktWord e 2) 32 4) s
       estimate level (levelParams level s) (decide (s.pkr.cDegraded ≠ BitVec.allOnes 8)) (windowOf level s) (slice bytes 0 n) (n / 65536 + 1) 0 0 (0, 0, 0))
        = (total, blocks, raws) →
    ∃ t, exec (.pkrEstimate jsn bytes none) s = .next t
      ∧ EndsWith jsn (okStatus r) total (blocks * 2 ^ 32 + raws) (begun jsn e s) t)
  ∧ (∀ jsn e r s, ready 0x71 jsn e r s = true → (s.cmd.compatActive = false ∨ bits (pktWord e 1) 0 4 ≤ 6) →
    ∃ t, exec (.pkrSetLevel jsn) s = .next t ∧ RetiredWith jsn (okStatus r) t
      ∧ t.pkr = { s.pkr with levelNext := s.pkr.levelNext ++ [(bits (pktWord e 1) 0 4,
          if bitAt (pktWord e 1) 34 then levelDefaults.getD (bits (pktWord e 1) 0 4) { depth := 0, window := 0, lazyEval := 0 }
          else
            { depth := bits (pktWord e 1) 8 11, window := bits (pktWord e 1) 24 5, lazyEval := bits (pktWord e 1) 32 2 })] }
      ∧ t.ctx.records = s.ctx.records ∧ t.mem = s.mem ∧ t.fmt = s.fmt)
  ∧ (∀ jsn e r s, ready 0x71 jsn e r s = true → s.cmd.compatActive = true → 6 < bits (pktWord e 1) 0 4 →
    ∃ t, exec (.pkrSetLevel jsn) s = .next t ∧ Ends jsn (okStatus r) (begun jsn e s) t)
  ∧ (∀ jsn bytes e r s out at_ bad, ready 0x72 jsn e r s = true →
      decodeBlocks (slice bytes 0 (bits (pktWord e 2) 0 32)) (bits (pktWord e 4) 0 32) (bits (pktWord e 2) 0 32 / 17 + 1) 0 [] []
        = (out, at_, bad) →
    ∃ t, exec (.pkrDecode jsn bytes none) s = .next t
      ∧ (let u := if out = [] then begun jsn e s else hostStore (pktWord e 3).toNat out (begun jsn e s)
         if bad = true then EndsR1 jsn stMediaError at_ u t else EndsWith jsn (okStatus r) out.length at_ u t))
  ∧ (∀ jsn bytes n e r s out at_ bad, ready 0x72 jsn e r s = true →
      decodeBlocks (slice bytes 0 (bits (pktWord e 2) 0 32)) (bits (pktWord e 4) 0 32) n 0 [] [] = (out, at_, bad) →
    exec (.pkrDecode jsn bytes (some n)) s
      = .next (keepPart jsn out.length at_
          (if out = [] then begun jsn e s else hostStore (pktWord e 3).toNat out (begun jsn e s))))

/-- 08 R231, R232, R233, R235: TEC_SET_DECODE answers the values in force and sets those of the next tick; TEC_SET_DETECTOR sets
its three for the next tick; TEC_TRACK_QUALITY writes the record of the last wrap, or the one in progress, and answers 1040;
TEC_C1_ENCODE writes the encoded row. Nothing else of the device changes.

08 R234: TEC_CAPTURE writes slots to ADDR one behind the other and ends with COUNT in RESULT0 once it has COUNT of them; with
fewer it goes on, and 10 s after its start it ends with as many as it has. -/
def Obligations.TecCommandsAndCapture : Prop :=
  ((∀ jsn e r s, ready 0x7A jsn e r s = true →
      ∃ t, exec (.tecSetDecode jsn) s = .next t
        ∧ EndsR0 jsn (okStatus r) (decodeWord s)
            { begun jsn e s with tec := { s.tec with decodeNext := some (if bitAt (pktWord e 1) 14 then (8, 24, 4, true, 0xDEB8)
                else (bits (pktWord e 1) 0 4, bits (pktWord e 1) 4 6, bits (pktWord e 1) 10 3, bitAt (pktWord e 1) 13,
                  bits (pktWord e 1) 16 16)) } } t)
    ∧ (∀ jsn e r s, ready 0x7C jsn e r s = true →
      ∃ t, exec (.tecSetDetector jsn) s = .next t
        ∧ Ends jsn (okStatus r)
            { begun jsn e s with tec := { s.tec with
                detectNext := some (bitAt (pktWord e 1) 0, bitAt (pktWord e 1) 1, bits (pktWord e 1) 4 4) } } t)
    ∧ (∀ jsn e r s, ready 0x7B jsn e r s = true →
      ∃ t, exec (.tecTrackQuality jsn) s = .next t
        ∧ EndsR0 jsn (okStatus r) 1040
            (hostStore (pktWord e 1).toNat (wrapPage (if bitAt (pktWord e 2) 0 then wrapRecord false s else s.tec.last))
              (begun jsn e s)) t)
    ∧ (∀ jsn bytes e r s, ready 0x7E jsn e r s = true →
      ∃ t, exec (.tecC1Encode jsn bytes) s = .next t
        ∧ Ends jsn (okStatus r) (hostStore (pktWord e 2).toNat (c1Bytes bytes) (begun jsn e s)) t))
  ∧ ((∀ jsn slots e r s, ready 0x7D jsn e r s = true → bits (pktWord e 3) 0 8 ≤ slots.length →
      ∃ t, exec (.tecCapture jsn slots) s = .next t
        ∧ EndsR0 jsn (okStatus r) (bits (pktWord e 3) 0 8)
            (captureSlots e 0 (slots.take (bits (pktWord e 3) 0 8)) (begun jsn e s)) t)
    ∧ (∀ jsn slots e r s, ready 0x7D jsn e r s = true → slots.length < bits (pktWord e 3) 0 8 →
      ∃ t, exec (.tecCapture jsn slots) s = .next t ∧ OnlyAnswers (captureSlots e 0 slots (begun jsn e s)) t
        ∧ (findRun t jsn).any (fun x => x.done == slots.length && x.phase == .started) = true)
    ∧ (∀ jsn slots e r s, started 0x7D jsn s = some (e, r) → retireFree s = true → r.done + slots.length = bits (pktWord e 3) 0 8 →
      ∃ t, exec (.tecCapture jsn slots) s = .next t
        ∧ EndsR0 jsn (okStatus r) (bits (pktWord e 3) 0 8) (captureSlots e r.done slots s) t)
    ∧ (∀ jsn at_ e r s, started 0x7D jsn s = some (e, r) → retireFree s = true →
        passedMs r.since (max s.aon.time at_) 10000 = true →
      ∃ t, exec (.tecCaptureTimeout jsn at_) s = .next t ∧ EndsR0 jsn (okStatus r) r.done (atTime at_ s) t))

/-- 12 R325, R326, R327: DRV_SET_SECTION, DRV_SET_MODE and DRV_MOVE give their loop a section, a mode request and a target that take
effect with the next tick, and run on until then or until the move is done. Other loops stay.

12 R327, R328: a DRV_MOVE whose TIMEOUT, if it gives one, has passed ends with OK and RESULT1 1, and its move is forgotten.
DRV_CAPTURE of COUNT 0 ends with 0; any other begins, and its records follow tick by tick. -/
def Obligations.DroverCommands : Prop :=
  ((∀ jsn e r s, ready 0x60 jsn e r s = true → unitState unDrover s = 0 →
      ∃ t, exec (.drvSetSection jsn) s = .next t
        ∧ t.drv.loops = s.drv.loops.modify (bits (pktWord e 1) 0 5) (fun l => { l with
            loads := l.loads ++ [(bits (pktWord e 1) 8 3, setSectionOf e)], hostCoef := true })
        ∧ (findRun t jsn).any (fun x => x.phase == .started) = true ∧ (∃ j ∈ t.drv.sets, j.jsn = jsn ∧ j.loop = bits (pktWord e 1) 0 5)
        ∧ t.mem = s.mem ∧ t.mon = s.mon ∧ t.cart = s.cart ∧ t.ctx.records = s.ctx.records)
    ∧ (∀ jsn e r s, ready 0x61 jsn e r s = true → tapeReady s = true →
      ∃ t, exec (.drvSetMode jsn) s = .next t
        ∧ t.drv.loops = s.drv.loops.modify (bits (pktWord e 1) 0 5) (fun l => { l with modeReq := bits (pktWord e 1) 8 2 })
        ∧ (findRun t jsn).any (fun x => x.phase == .started) = true ∧ (∃ j ∈ t.drv.modes, j.jsn = jsn ∧ j.loop = bits (pktWord e 1) 0 5)
        ∧ t.mem = s.mem ∧ t.mon = s.mon ∧ t.cart = s.cart ∧ t.ctx.records = s.ctx.records)
    ∧ (∀ jsn at_ e r s, ready 0x62 jsn e r (atTime at_ s) = true → tapeReady (atTime at_ s) = true →
      ∃ t, exec (.drvMove jsn at_) s = .next t
        ∧ t.drv.loops = s.drv.loops.modify (bits (pktWord e 1) 0 5) (fun l => { l with targetNext := some (moveTarget e) })
        ∧ (findRun t jsn).any (fun x => x.phase == .started) = true ∧ (∃ j ∈ t.drv.moves, j.jsn = jsn ∧ j.target = moveTarget e)
        ∧ t.mem = s.mem ∧ t.mon = s.mon ∧ t.cart = s.cart ∧ t.ctx.records = s.ctx.records))
  ∧ ((∀ jsn at_ e r s, started 0x62 jsn (atTime at_ s) = some (e, r) → retireFree s = true → bits (pktWord e 1) 32 16 ≠ 0 →
        passedMs r.since (max s.aon.time at_) (bits (pktWord e 1) 32 16) = true →
      ∃ t, exec (.drvMoveTimeout jsn at_) s = .next t ∧ EndsR1 jsn (okStatus r) 1 (dropMove jsn (atTime at_ s)) t
        ∧ ∀ j ∈ t.drv.moves, j.jsn ≠ jsn)
    ∧ (∀ jsn e r s, ready 0x63 jsn e r s = true → unitState unDrover s = 0 → bits (pktWord e 3) 0 24 = 0 →
      ∃ t, exec (.drvCapture jsn) s = .next t ∧ EndsR0 jsn (okStatus r) 0 (begun jsn e s) t)
    ∧ (∀ jsn e r s, ready 0x63 jsn e r s = true → unitState unDrover s = 0 → bits (pktWord e 3) 0 24 ≠ 0 →
      ∃ t, exec (.drvCapture jsn) s = .next t
        ∧ (findRun t jsn).any (fun x => x.phase == .started && x.done == 0) = true
        ∧ (∃ j ∈ t.drv.captures, j.jsn = jsn ∧ j.loop = bits (pktWord e 1) 0 5)
        ∧ t.drv.loops = s.drv.loops ∧ t.mem = s.mem ∧ t.mon = s.mon ∧ t.out = s.out))

/-- 17 R447, Table 17-8: DIAG's functions. SAFE_STOP begins a safe stop of cause DIAG; CIPHER_SELFTEST has its interval, at the
end of which it answers the lanes in service that pass; UNIT_OFFLINE takes an idle unit offline and UNIT_ONLINE brings it
back, a DEGRADED one staying so with UNIT_DEGRADED; CLEAR_RETIREMENT forgets the retired pseudo-channel; RESET retires its
command with OK and makes the reset of ARG. -/
def Obligations.DiagFunctions : Prop :=
  (∀ jsn e r s, ready opDiag jsn e r s = true → tapeReady s = true → diagFunction e.words = 1 →
    ∃ t, exec (.diagSafeStop jsn) s = .next t ∧ t.drv.safeStop = true ∧ t.mon.safeCause = causeDiag ∧ t.mon.inhibit = true)
  ∧ (∀ jsn passed e r s, ready opDiag jsn e r s = true → diagFunction e.words = 2 →
    exec (.diagCipherSelftest jsn passed false) s
      = .next (startRun jsn { begun jsn e s with cph := { s.cph with testing := true } }))
  ∧ (∀ jsn passed e r s, (ready opDiag jsn e r s = true ∨ started opDiag jsn s = some (e, r)) → diagFunction e.words = 2 →
      retireFree s = true →
    ∃ t, exec (.diagCipherSelftest jsn passed true) s = .next t
      ∧ EndsR0 jsn (okStatus r) (passed &&& ~~~s.cph.degraded).toNat
          (endStarting (endPhase (noteKat (startLanes passed
            { (if r.phase = .started then s else begun jsn e s) with cph := { s.cph with testing := false } })))) t)
  ∧ (∀ jsn e r s, ready opDiag jsn e r s = true → diagFunction e.words = 3 → unitBusy (diagUnit e.words) jsn s = false →
      (s.fmt.run = none ∨ (diagUnit e.words ≠ unHeadLink ∧ diagUnit e.words ≠ unDrover)) →
      (diagUnit e.words < unCore0 ∨ unCore0 + 3 < diagUnit e.words) →
    ∃ t, exec (.diagUnitOffline jsn) s = .next t ∧ Ends jsn (okStatus r) (setUnit (diagUnit e.words) 3 0xFE (begun jsn e s)) t)
  ∧ (∀ jsn e r s, ready opDiag jsn e r s = true → diagFunction e.words = 3 → unitBusy (diagUnit e.words) jsn s = false →
      unCore0 ≤ diagUnit e.words → diagUnit e.words ≤ unCore0 + 3 →
    ∃ t, exec (.diagUnitOffline jsn) s = .next t
      ∧ (if coresAfter (diagUnit e.words - unCore0) s < 3 then Ends jsn stUnitDegraded (begun jsn e s) t
         else Ends jsn (okStatus r) (assignRoles (setUnit (diagUnit e.words) 3 0xFE (begun jsn e s))) t))
  ∧ (∀ jsn e r s, ready opDiag jsn e r s = true → diagFunction e.words = 4 →
    ∃ t, exec (.diagUnitOnline jsn) s = .next t
      ∧ (if unitState (diagUnit e.words) s = 3 then
           Ends jsn (okStatus r)
             (if unCore0 ≤ diagUnit e.words ∧ diagUnit e.words ≤ unCore0 + 3 then
                assignRoles (setUnit (diagUnit e.words) 0 0 (begun jsn e s))
              else setUnit (diagUnit e.words) 0 0 (begun jsn e s)) t
         else if unitState (diagUnit e.words) s = 2 then Ends jsn stUnitDegraded (begun jsn e s) t
         else Ends jsn (okStatus r) (begun jsn e s) t))
  ∧ (∀ jsn e r s, ready opDiag jsn e r s = true → diagFunction e.words = 5 →
    ∃ t, exec (.diagClearRetirement jsn) s = .next t
      ∧ Ends jsn (okStatus r) { begun jsn e s with mem := { s.mem with retiredPc := none } } t)
  ∧ (∀ jsn e r s, ready opDiag jsn e r s = true → diagFunction e.words = 6 →
    ∃ w u, exec (.diagReset jsn) s = .next (if diagArg e.words then coldReset 3 u else warmReset false 3 u)
      ∧ w ∈ u.jrn.retire ∧ w.jsn = jsn ∧ w.state = 2 ∧ w.status = stOk ∧ u.device = s.device)

/-- 15 R387, R394, 16 R418: SET_WAKE_TOLERANCE takes TOLERANCE, and the deepest state and NOW of the expert form (L3 and 0 in the
basic form), and answers the deepest state now allowed and the tolerance before; with NOW the device then enters that state. A
command that needs the tape and has waited 60 s in a thermal stop ends with THERMAL_LIMIT, and a write that has waited 10 s
for an epoch with UNIT_DEGRADED. -/
def Obligations.ToleranceAndTimeouts : Prop :=
  (∀ jsn e r s, ready opSetWake jsn e r s = true →
    ∃ v, exec (.setWakeTolerance jsn) s = .next (enterIfNow v)
      ∧ (let u := { begun jsn e s with pwr := { s.pwr with
           tolerance := bits (pktWord e 1) 0 32, allowedMax := if entryExpert e then bits (pktWord e 2) 0 3 else 4,
           now := entryExpert e && bitAt (pktWord e 2) 3 } }
         EndsWith jsn (okStatus r) (deepest u) s.pwr.tolerance u v))
  ∧ (∀ jsn at_ e r s, findEntry s jsn = some e → findRun s jsn = some r → retireFree s = true → r.phase ≠ .unretired →
      s.thm.stopped = true → usesTape e = true → isWriteLike e = false → findWrite jsn s = none →
      passedMs (max r.since (s.thm.critFrom.getD 0)) (max s.aon.time at_) 60000 = true →
    ∃ t, exec (.thermalLimitTimeout jsn at_) s = .next t
      ∧ Ends jsn stThermalLimit (if r.phase = .started then liftCap (atTime at_ s) else atTime at_ s) t)
  ∧ (∀ jsn at_ e r s, findEntry s jsn = some e → findRun s jsn = some r → retireFree s = true → r.phase ≠ .unretired →
      s.wh.epochValid = false → isWriteOp (entryOp e) = true → firmwareRuns s = true → findWrite jsn s = none →
      passedMs s.sys.readyAt (max s.aon.time at_) 10000 = true →
    ∃ t, exec (.epochWaitTimeout jsn at_) s = .next t ∧ EndsR0 jsn stUnitDegraded r.done (atTime at_ s) t)

/-! ### Registers that the host writes: commits, doorbells, the Counter, event groups -/

/-- 18 R450, 14 R376: a write to a COMMIT register, or 1 to ARM, makes the change pending for core cycle 16 of the next tick: of
the whole state nothing else changes (ARM's own write also takes CLASS and MATCH of the shadow and clears ERR by its bit 5),
so what is in force stays.

03 R91: a change of T4 is ignored and raises CMD_COMPAT_REFUSED while a cartridge is loaded or a context is open; else T4 is
taken, and ACTIVE stays until the next tick. Reserved bits have no effect.

02 R53: while the CXL.io stream is Insecure no host write of these registers has an effect. -/
def Obligations.CommitAndCompatWrites : Prop :=
  (∀ s : State, mmioOpen s →
      exec .cmdRingCommitWrite s = .next { s with cmd := { s.cmd with commitPending := true } }
      ∧ exec .drvCommitWrite s = .next { s with drv := { s.drv with commit := { s.drv.commit with pending := true } } }
      ∧ exec .drvMonCommitWrite s = .next { s with mon := { s.mon with commit := { s.mon.commit with pending := true } } }
      ∧ exec .spmCommitWrite s = .next { s with spm := { s.spm with commit := { s.spm.commit with pending := true } } }
      ∧ exec .vfyCommitWrite s = .next { s with vfy := { s.vfy with commit := { s.vfy.commit with pending := true } } }
      ∧ exec .hlkCommitWrite s = .next { s with hlk := { s.hlk with commit := { s.hlk.commit with pending := true } } }
      ∧ exec .thmCommitWrite s = .next { s with thm := { s.thm with commit := { s.thm.commit with pending := true } } }
      ∧ (∀ v : Word, exec (.arm v) s = .next { s with mem := { s.mem with
          armPending := v.getLsbD 0 || s.mem.armPending, armErr := s.mem.armErr && !v.getLsbD 5,
          flipSh := { s.mem.flipSh with cls := bits v 2 2, isMatch := v.getLsbD 4 } } }))
  ∧ ((∀ (v : Word) (s : State), mmioOpen s → v.getLsbD 0 ≠ s.cmd.compatT4 → s.cart.loaded = false → (∀ p ∈ s.ctx.records, p.2.isOpen = false) →
      exec (.cmdCompatWrite v) s = .next { s with cmd := { s.cmd with compatT4 := v.getLsbD 0 } })
    ∧ (∀ (v : Word) (s : State), mmioOpen s → v.getLsbD 0 ≠ s.cmd.compatT4 → (s.cart.loaded = true ∨ ∃ p ∈ s.ctx.records, p.2.isOpen = true) →
      ∃ t, exec (.cmdCompatWrite v) s = .next t ∧ t = raiseN evCmdCompatRefused s
        ∧ t.cmd.compatT4 = s.cmd.compatT4 ∧ t.cmd.compatActive = s.cmd.compatActive ∧ t.device = s.device)
    ∧ (∀ (v : Word) (s : State), v.getLsbD 0 = s.cmd.compatT4 → exec (.cmdCompatWrite v) s = .next s))
  ∧ (∀ s : State, ¬ mmioOpen s → ∀ c ∈ [Instr.cmdRingCommitWrite, .drvCommitWrite, .drvMonCommitWrite, .spmCommitWrite,
      .vfyCommitWrite, .hlkCommitWrite, .thmCommitWrite, .flush, .clrCounts], exec c s = .next s)
  ∧ (∀ (s : State) (v : Word) (n k : Nat), ¬ mmioOpen s →
      exec (.arm v) s = .next s ∧ exec (.cmdCompatWrite v) s = .next s ∧ exec (.cmdSqTailWrite n k) s = .next s
      ∧ exec (.cmdCqHeadWrite n k) s = .next s ∧ exec (.cmdEvqHeadWrite k) s = .next s ∧ exec (.cmdCtrSopWrite v) s = .next s
      ∧ exec (.cmdCtrDataWrite v) s = .next s ∧ exec (.cmdAbortWrite n) s = .next s ∧ exec (.registerWrite n k v) s = .next s
      ∧ exec (.sysResetCtrlWarm) s = .next s ∧ exec (.sysResetCtrlCold) s = .next s)

/-- 03 R65, R81, R83: a doorbell moves its index, or is ignored and raises CMD_DOORBELL_ERR. A tail below the ring's size is
taken; a head is taken unless it lies beyond the tail; a ring not enabled takes neither. After a refused write every ring is as
it was.

03 R65, R66: the next packet of an enabled ring is copied once all of its entries lie before the tail, and CMD_SQ_HEAD moves
past them; until then, and while host memory is out of reach, nothing changes. -/
def Obligations.DoorbellsAndFetch : Prop :=
  ((∀ ring v s r, mmioOpen s → s.cmd.subRings[ring]? = some r → r.cfg.en = true → v < 2 ^ r.cfg.sizeLog2 →
      ∃ t, exec (.cmdSqTailWrite ring v) s = .next t ∧ t.cmd.subRings[ring]? = some { r with tail := v }
        ∧ (∀ n, n ≠ ring → t.cmd.subRings[n]? = s.cmd.subRings[n]?) ∧ t.cmd.cplRings = s.cmd.cplRings ∧ t.cmd.evt = s.cmd.evt
        ∧ t.out = s.out ∧ t.jrn = s.jrn ∧ t.mem = s.mem)
    ∧ (∀ ring v s r, mmioOpen s → s.cmd.subRings[ring]? = some r → (r.cfg.en = false ∨ 2 ^ r.cfg.sizeLog2 ≤ v) →
      exec (.cmdSqTailWrite ring v) s = .next (raise evCmdDoorbellErr ring v (wakeNow s)))
    ∧ (∀ ring v s r, mmioOpen s → s.cmd.cplRings[ring]? = some r → r.cfg.en = true → v < 2 ^ r.cfg.sizeLog2 →
        ringSpan (2 ^ r.cfg.sizeLog2) r.head v ≤ ringSpan (2 ^ r.cfg.sizeLog2) r.head r.tail →
      ∃ t, exec (.cmdCqHeadWrite ring v) s = .next t ∧ (∃ r', t.cmd.cplRings[ring]? = some r' ∧ r'.head = v ∧ r'.cfg = r.cfg)
        ∧ t.jrn = (releaseLive (r.live.take (ringSpan (2 ^ r.cfg.sizeLog2) r.head v)) s).jrn
        ∧ (∀ n, n ≠ ring → t.cmd.cplRings[n]? = s.cmd.cplRings[n]?) ∧ t.cmd.subRings = s.cmd.subRings
        ∧ t.cmd.evt = s.cmd.evt ∧ t.mem = s.mem)
    ∧ (∀ ring v s r, mmioOpen s → s.cmd.cplRings[ring]? = some r → (r.cfg.en = false ∨ 2 ^ r.cfg.sizeLog2 ≤ v ∨
        ringSpan (2 ^ r.cfg.sizeLog2) r.head r.tail < ringSpan (2 ^ r.cfg.sizeLog2) r.head v) →
      ∃ t, exec (.cmdCqHeadWrite ring v) s = .next t ∧ t = raise evCmdDoorbellErr (64 + ring) v s
        ∧ t.cmd.cplRings = s.cmd.cplRings ∧ t.jrn = s.jrn)
    ∧ (∀ v s, mmioOpen s → s.cmd.evt.cfg.en = true → v < 2 ^ s.cmd.evt.cfg.sizeLog2 →
        ringSpan (2 ^ s.cmd.evt.cfg.sizeLog2) s.cmd.evt.head v ≤ ringSpan (2 ^ s.cmd.evt.cfg.sizeLog2) s.cmd.evt.head s.cmd.evt.tail →
      ∃ t, exec (.cmdEvqHeadWrite v) s = .next t ∧ t.cmd.evt.head = v ∧ t.cmd.evt.cfg = s.cmd.evt.cfg
        ∧ t.cmd.subRings = s.cmd.subRings ∧ t.jrn = s.jrn ∧ t.mem = s.mem)
    ∧ (∀ v s, mmioOpen s → (s.cmd.evt.cfg.en = false ∨ 2 ^ s.cmd.evt.cfg.sizeLog2 ≤ v ∨
        ringSpan (2 ^ s.cmd.evt.cfg.sizeLog2) s.cmd.evt.head s.cmd.evt.tail < ringSpan (2 ^ s.cmd.evt.cfg.sizeLog2) s.cmd.evt.head v) →
      ∃ t, exec (.cmdEvqHeadWrite v) s = .next t ∧ t = raise evCmdDoorbellErr 128 v s ∧ t.cmd.evt.head = s.cmd.evt.head))
  ∧ ((∀ ring words s r, s.cmd.subRings[ring]? = some r → firmwareRuns s = true → s.hif.busMaster = true → pathOpen s = true →
        r.cfg.en = true → hostRangeOk (r.cfg.base.toNat + 64 * r.head) 64 = true →
        (if pktLen (words.getD 0 0) ≤ 8 then 1 else 2) ≤ ringSpan (2 ^ r.cfg.sizeLog2) r.head r.tail →
      ∃ t, exec (.sqEntryFetch ring words) s = .next t
        ∧ t.cmd.subRings[ring]? = some { r with
            head := (r.head + if pktLen (words.getD 0 0) ≤ 8 then 1 else 2) % 2 ^ r.cfg.sizeLog2
            copied := r.copied ++ [{ words := words.take (max 1 (min 16 (pktLen (words.getD 0 0)))), index := r.head }] }
        ∧ (∀ n, n ≠ ring → t.cmd.subRings[n]? = s.cmd.subRings[n]?) ∧ t.jrn = s.jrn ∧ t.mem = s.mem ∧ s.out <+: t.out)
    ∧ (∀ ring words s r, s.cmd.subRings[ring]? = some r →
        (firmwareRuns s = false ∨ s.hif.busMaster = false ∨ pathOpen s = false ∨ r.cfg.en = false
          ∨ hostRangeOk (r.cfg.base.toNat + 64 * r.head) 64 = false
          ∨ ringSpan (2 ^ r.cfg.sizeLog2) r.head r.tail < if pktLen (words.getD 0 0) ≤ 8 then 1 else 2) →
      exec (.sqEntryFetch ring words) s = .next s))

/-- 03 Table 3-6, R70, Table 3-8: the words of the Counter. An SOP word of LEN 2 to 16 opens a packet where a stage is free, and
drops an open packet first; a bad LEN, or no free stage, drops and raises. A data word joins the open packet and commits it
with its last word; with no packet open it counts in DROPPED. FLUSH empties every stage; CLR_COUNTS clears the three counts. -/
def Obligations.CounterFollowsItsTable : Prop :=
  (∀ w s, mmioOpen s → s.cmd.counter.state ≠ .opened → 2 ≤ pktLen w → pktLen w ≤ 16 → s.cmd.counter.stages.length < 64 →
    exec (.cmdCtrSopWrite w) s = .next (setCounter (fun c =>
      { c with stages := c.stages ++ [w], openWords := 1, state := .opened }) (wakeNow s)))
  ∧ (∀ w s, mmioOpen s → s.cmd.counter.state ≠ .opened → 2 ≤ pktLen w → pktLen w ≤ 16 → 64 ≤ s.cmd.counter.stages.length →
    ∃ t, exec (.cmdCtrSopWrite w) s = .next t ∧ t.cmd.counter.state = .dropping
      ∧ t.cmd.counter.discarded = min 65535 (s.cmd.counter.discarded + 1) ∧ t.cmd.counter.stages = s.cmd.counter.stages)
  ∧ (∀ w s, mmioOpen s → (pktLen w < 2 ∨ 16 < pktLen w) →
    ∃ t, exec (.cmdCtrSopWrite w) s = .next t ∧ t.cmd.counter.state = .dropping
      ∧ (s.cmd.counter.state ≠ .opened → t.cmd.counter.stages = s.cmd.counter.stages)
      ∧ (s.cmd.counter.state = .opened → t.cmd.counter.stages = committedWords s.cmd.counter
          ∧ t.cmd.counter.discarded = min 65535 (s.cmd.counter.discarded + 1)))
  ∧ (∀ w s, mmioOpen s → s.cmd.counter.state = .opened → 2 ≤ pktLen w → pktLen w ≤ 16 → (committedWords s.cmd.counter).length < 64 →
    ∃ t, exec (.cmdCtrSopWrite w) s = .next t ∧ t.cmd.counter.state = .opened ∧ t.cmd.counter.openWords = 1
      ∧ t.cmd.counter.stages = committedWords s.cmd.counter ++ [w]
      ∧ t.cmd.counter.discarded = min 65535 (s.cmd.counter.discarded + 1))
  ∧ (∀ w s, mmioOpen s → s.cmd.counter.state = .opened → s.cmd.counter.stages.length < 64 →
    exec (.cmdCtrDataWrite w) s = .next (setCounter (fun c =>
      { c with stages := c.stages ++ [w]
               openWords := if openLen c ≤ c.openWords + 1 then 0 else c.openWords + 1
               state := if openLen c ≤ c.openWords + 1 then .idle else .opened }) (wakeNow s)))
  ∧ (∀ w s, mmioOpen s → s.cmd.counter.state = .opened → 64 ≤ s.cmd.counter.stages.length →
    ∃ t, exec (.cmdCtrDataWrite w) s = .next t ∧ t.cmd.counter.state = .dropping
      ∧ t.cmd.counter.stages = committedWords s.cmd.counter ∧ t.jrn = s.jrn)
  ∧ (∀ w s, mmioOpen s → s.cmd.counter.state ≠ .opened →
    exec (.cmdCtrDataWrite w) s = .next (setCounter (fun c => { c with dropped := min 65535 (c.dropped + 1) }) (wakeNow s)))
  ∧ (∀ s, mmioOpen s → ∃ t, exec .flush s = .next t ∧ t.cmd.counter.stages = [] ∧ t.cmd.counter.openWords = 0
      ∧ t.cmd.counter.state = (if s.cmd.counter.state = .opened then .dropping else .idle)
      ∧ { t with cmd := s.cmd } = s)
  ∧ (∀ s, mmioOpen s → exec .clrCounts s = .next (setCounter (fun c => { c with dropped := 0, discarded := 0, flushed := 0 }) s))

/-- 18 R455: where an RW1C write clears a status bit in the core cycle in which its source sets it, the bit ends as 1, and the
occurrence, which counts as a change from 0, triggers the vector: a message when nothing masks the vector, else its pending bit. -/
def Obligations.StatusBitSetInClearingCycle : Prop :=
  ∀ (k : Nat) (value same : BitVec 32) (g : EventGroup) (s : State), mmioOpen s → s.cmd.groups[k]? = some g →
    ∃ t g', exec (.evgStatusClear k value same) s = .next t ∧ t.cmd.groups[k]? = some g'
      ∧ (∀ b, b < 32 → g'.status.getLsbD b
          = (g.status.getLsbD b && (!value.getLsbD b || same.getLsbD b)))
      ∧ g'.mask = g.mask ∧ g'.vector = g.vector ∧ g'.vecEn = g.vecEn
      ∧ (∀ b, b < 32 → g.status.getLsbD b = true → value.getLsbD b = true → same.getLsbD b = true → g.mask.getLsbD b = false →
          g.vecEn = true →
          if s.hif.funcMask || !tabGet false s.hif.unmasked g.vector then tabGet false t.hif.pba g.vector = true
          else t.out = s.out ++ [.msix g.vector])
      ∧ ((∀ b, b < 32 → value.getLsbD b = true → same.getLsbD b = false) → t.out = s.out ∧ t.hif = s.hif)
      ∧ t.device = s.device

/-! ### The journal, aborts and the management port -/

/-- 03 R60, R72-R75, 06 R162: JOURNAL_TAKE takes one packet. One that passes the checks gets a slot whose write begins, the next
JSN, and its words, those of key material as zeros; nothing else of the device changes and no completion is posted. One that
fails a check gets no slot; one whose completion ring is not enabled only raises CMD_NO_CQ. With nothing to take nothing but
waiting sources is noted. -/
def Obligations.JournalTakeEntersPackets : Prop :=
  (∀ i s u src p, firmwareRuns s = true → s.sys.toReport = [] → takePacket s = (u, some (src, p)) →
      (src = 65 ∨ (getCq (pktCq (p.words.getD 0 0)) u).cfg.en = true) → rejectStatus src p.words i u = none →
    ∃ t, exec (.journalTake i) s = .next t
      ∧ t.jrn.entries = s.jrn.entries ++ [{
          jsn := s.jrn.nextJsn, source := src, sqIndex := p.index, words := journalWords p.words
          reserved := decide (64 ≤ src) && decide (reservedSlots s < 256), slot := .writing }]
      ∧ t.jrn.nextJsn = s.jrn.nextJsn + 1 ∧ t.jrn.retire = s.jrn.retire ∧ t.out = (fetchList p.words u).out ∧ t.ctx = s.ctx ∧ t.fmt = s.fmt
      ∧ t.mem = s.mem ∧ t.cart = s.cart ∧ t.mram = s.mram ∧ t.sys = s.sys)
  ∧ (∀ (ws : List Word) k, pktOp (ws.getD 0 0) = opSetKey →
      (if pktExpert (ws.getD 0 0) = false ∧ pktLen (ws.getD 0 0) = 6 then 2 ≤ k ∧ k ≤ 5 else 3 ≤ k ∧ k ≤ 10) →
    (journalWords ws).getD k 0 = 0)
  ∧ (∀ i s u src p st, firmwareRuns s = true → s.sys.toReport = [] → takePacket s = (u, some (src, p)) →
      (src = 65 ∨ (getCq (pktCq (p.words.getD 0 0)) u).cfg.en = true) → rejectStatus src p.words i u = some st →
    ∃ t, exec (.journalTake i) s = .next t ∧ t = rejectPacket src p.words st u ∧ t.jrn = s.jrn ∧ t.device = s.device)
  ∧ (∀ i s u src p, firmwareRuns s = true → s.sys.toReport = [] → takePacket s = (u, some (src, p)) →
      src ≠ 65 → (getCq (pktCq (p.words.getD 0 0)) u).cfg.en = false →
    ∃ t, exec (.journalTake i) s = .next t ∧ t = raise evCmdNoCq src (pktCid (p.words.getD 0 0)) u ∧ t.jrn = s.jrn
      ∧ t.device = s.device)
  ∧ (∀ i s u, firmwareRuns s = true → s.sys.toReport = [] → takePacket s = (u, none) →
    exec (.journalTake i) s = .next u ∧ u.jrn = s.jrn ∧ u.device = s.device)

/-- 03 R75, R76, R80: an entry whose writes are durable becomes valid, and its acceptance is announced; a slot being freed leaves
the journal with its retire words. -/
def Obligations.JournalSlotsFollowMram : Prop :=
  (∀ jsn s e, findEntry s jsn = some e → e.slot = .writing →
    ∃ t, exec (.journalEntryDurable jsn) s = .next t ∧ findEntry t jsn = some { e with slot := .valid }
      ∧ (∀ r, findRun t jsn = some r → r.announced = true) ∧ (findRun t jsn).isSome = (findRun s jsn).isSome
      ∧ t.jrn.retire = s.jrn.retire ∧ t.device = s.device)
  ∧ (∀ jsn s e, findEntry s jsn = some e → e.slot = .freeing →
    ∃ t, exec (.journalSlotFreed jsn) s = .next t ∧ findEntry t jsn = none ∧ (∀ w ∈ t.jrn.retire, w.jsn ≠ jsn)
      ∧ (∀ j, j ≠ jsn → (findEntry t j).isSome = (findEntry s j).isSome) ∧ t.device = s.device)
  ∧ (∀ jsn s, (∀ e, findEntry s jsn = some e → e.slot = .valid) →
    exec (.journalEntryDurable jsn) s = .next s ∧ exec (.journalSlotFreed jsn) s = .next s)

/-- 03 R77-R79: CMD_ABORT takes a JSN unless an abort is pending; RESULT is 0b01 for a command that may still be aborted and 0b11
for another. The abort is recorded in the retire log before RESULT becomes 0b10, and a command that has not begun then ends with
ABORTED_BY_HOST, having changed nothing. -/
def Obligations.AbortIsRecordedFirst : Prop :=
  (∀ jsn s, s.cmd.abortResult = 1 → exec (.cmdAbortWrite jsn) s = .next s)
  ∧ (∀ jsn s, mmioOpen s → s.cmd.abortResult ≠ 1 →
    exec (.cmdAbortWrite jsn) s = .next { s with cmd := { s.cmd with
      abortJsn := jsn, abortResult := if (abortable jsn s).isSome then 1 else 3 } })
  ∧ (∀ s e r, s.cmd.abortResult = 1 → abortable s.cmd.abortJsn s = some (e, r) → r.phase = .accepted →
      s.jrn.retire.length < 16383 → (s.jrn.retire.filter fun w => w.state == 1).length < 8192 →
    ∃ t, exec .abortRecorded s = .next t ∧ t.cmd.abortResult = 2 ∧ (∃ w ∈ t.jrn.retire, w.jsn = s.cmd.abortJsn ∧ w.state = 1)
      ∧ RetiredWith s.cmd.abortJsn stAbortedByHost t ∧ findRun t s.cmd.abortJsn = none ∧ t.device = s.device)
  ∧ (∀ s, s.cmd.abortResult = 1 → abortable s.cmd.abortJsn s = none →
    exec .abortRecorded s = .next { s with cmd := { s.cmd with abortResult := 3 } })

/-- 17 R445, R446, 18 Table 18-4, 16 R415, R425: over the management port a packet joins the queue; a report that differs from
the unit's state raises UNIT_STATE_CONFLICT and changes no unit; an assigned EID is held; an SPDM request of another type is
dropped, gets Busy while the Weighhouse is not available, and is served as a request of the host's mailbox otherwise. -/
def Obligations.ManagementPortMessages : Prop :=
  (∀ words s, words ≠ [] →
    ∃ t, exec (.managementPacket words) s = .next t ∧ t.cmd.mgtQueue = s.cmd.mgtQueue ++ [words.take 16]
      ∧ t.mgt.rxMsgs = sat64 s.mgt.rxMsgs 1 ∧ t.mgt.dropped = s.mgt.dropped ∧ t.jrn = s.jrn ∧ t.out = s.out)
  ∧ (∀ s, ∃ t, exec (.managementPacket []) s = .next t ∧ t = mgtDrop 0x7E 0x10 (mgtArrive s)
      ∧ t.cmd.mgtQueue = s.cmd.mgtQueue ∧ t.mgt.dropped = sat64 s.mgt.dropped 1)
  ∧ (∀ u st s, unitState u s = st % 4 → exec (.unitReport u st) s = .next (mgtArrive s))
  ∧ (∀ u st s, unitState u s ≠ st % 4 →
    ∃ t, exec (.unitReport u st) s = .next t
      ∧ t = raise evUnitStateConflict u (unitState u s + st % 4 * 4) (mgtArrive s) ∧ t.sys = s.sys)
  ∧ (∀ eid addr s, ∃ t, exec (.mgtEidAssigned eid addr) s = .next t ∧ t.mgt.eid = some eid ∧ t.mgt.dynAddr = some addr
      ∧ t.jrn = s.jrn ∧ t.device = s.device)
  ∧ (∀ ty msg s, hostUp s = true → ty ≠ 5 → ty ≠ 6 →
    ∃ t, exec (.mctpSpdmRequest ty msg) s = .next t ∧ t.mgt.dropped = sat64 s.mgt.dropped 1 ∧ t.device = s.device)
  ∧ (∀ ty msg s, hostUp s = true → (ty = 5 ∨ ty = 6) → s.wh.avail ≠ 1 →
    ∃ t, exec (.mctpSpdmRequest ty msg) s = .next t ∧ t = spdmReply true (spdmError 0x03) (mgtArrive s) ∧ t.whd = s.whd)
  ∧ (∀ ty msg s, hostUp s = true → (ty = 5 ∨ ty = 6) → s.wh.avail = 1 →
    ∃ t, exec (.mctpSpdmRequest ty msg) s = .next t ∧ exec (.spdm true msg) (mgtArrive s) = .next t)

/-! ### The Weighhouse -/

/-- 16 R412, R413: a tally frame is metered once and only in the order of its TSN. A whole frame whose TSN follows the last is
added tenant by tenant and moves LAST_TSN on; a frame with a bad CRC, an old TSN or a TSN ahead changes no meter and counts as
bad, duplicate or gap. -/
def Obligations.TallyFramesMeteredOnceInOrder : Prop :=
  (∀ bytes s, whServes s = true → s.wh.link ≠ [] → frameCrcOk bytes = true → frameFieldsOk bytes = true →
      (parseFrame bytes).tsn = (stateWord s).lastTsn + 1 →
    ∃ t, exec (.tallyFrameReceive bytes) s = .next t
      ∧ (∀ e ∈ (parseFrame bytes).entries,
          (tabGet .zero t.whd.meters e.1).count = ((tabGet .zero s.whd.meters e.1).count + e.2) % 2 ^ 96)
      ∧ (∀ x, x ∉ (parseFrame bytes).entries.map (·.1) → tabGet .zero t.whd.meters x = tabGet .zero s.whd.meters x)
      ∧ (stateWord t).lastTsn = (stateWord s).lastTsn + 1
      ∧ (stateWord t).statementNo = (stateWord s).statementNo ∧ t.whd.ledger = s.whd.ledger ∧ t.wh.link = s.wh.link.tail)
  ∧ (∀ bytes s, whServes s = true → s.wh.link ≠ [] → frameCrcOk bytes = true → (parseFrame bytes).tsn ≤ (stateWord s).lastTsn →
    exec (.tallyFrameReceive bytes) s
      = .next { s with wh := { s.wh with link := s.wh.link.tail }, whd := { s.whd with dup := min 65535 (s.whd.dup + 1) } })
  ∧ (∀ bytes s, whServes s = true → s.wh.link ≠ [] → frameCrcOk bytes = true → (stateWord s).lastTsn + 1 < (parseFrame bytes).tsn →
    exec (.tallyFrameReceive bytes) s
      = .next { s with wh := { s.wh with link := s.wh.link.tail }, whd := { s.whd with gap := min 65535 (s.whd.gap + 1) } })
  ∧ (∀ bytes s, whServes s = true → frameCrcOk bytes = false →
    exec (.tallyFrameReceive bytes) s
      = .next { s with wh := { s.wh with link := s.wh.link.tail }, whd := { s.whd with bad := min 65535 (s.whd.bad + 1) } })

/-- 16 R417, R418, R420-R422, R424: the mailbox of a Weighhouse that runs SEALED. EXTEND appends a digest to the entry still being
measured, in the order of the stages; CLOSE with all four makes the entry RUNNING and releases its epoch; LEDGER_GET and
STATEMENT answer through WH_MB_RX, a statement with the next number and with no meter changed; MARK_READ notes retained
entries. A message out of turn raises WH_MB_REFUSED and changes nothing. -/
def Obligations.MailboxServesLedgerAndMeters : Prop :=
  (∀ stage digest s e, whServes s = true → currentEntry s = some e → e.state = 0 → stage = e.stages.length → stage < 4 →
      s.wh.romPhase = decide (stage ≤ 1) →
    ∃ t, exec (.extend stage digest) s = .next t ∧ currentEntry t = some { e with stages := e.stages ++ [padTo 48 digest] }
      ∧ t.whd.ledger.tail = s.whd.ledger.tail ∧ t.whd.meters = s.whd.meters ∧ t.wh = s.wh ∧ t.out = s.out)
  ∧ (∀ stage digest s e, whServes s = true → currentEntry s = some e →
      (e.state ≠ 0 ∨ stage ≠ e.stages.length ∨ 4 ≤ stage ∨ s.wh.romPhase ≠ decide (stage ≤ 1)) →
    ∃ t, exec (.extend stage digest) s = .next t ∧ t = raiseP evWhMbRefused 1 s ∧ t.whd = s.whd)
  ∧ (∀ s e, whServes s = true → currentEntry s = some e → e.state = 0 → e.stages.length = 4 → e.epoch ≠ 0xFFFFFFFF →
    ∃ t, exec .close s = .next t ∧ currentEntry t = some { e with state := 1, timeClose := whTime s }
      ∧ t.whd.released = some e.epoch ∧ (dieUp s = true → t.wh.epochValid = true ∧ t.wh.epoch = e.epoch)
      ∧ t.whd.ledger.tail = s.whd.ledger.tail ∧ t.whd.meters = s.whd.meters)
  ∧ (∀ s e, whServes s = true → currentEntry s = some e → (e.state ≠ 0 ∨ e.stages.length ≠ 4) →
    ∃ t, exec .close s = .next t ∧ t = raiseP evWhMbRefused 2 s ∧ t.whd = s.whd)
  ∧ (∀ first count s, whServes s = true →
    ∃ t, exec (.ledgerGet first count) s = .next t ∧ t.whd = s.whd
      ∧ (let l := (entriesFrom first count s).flatMap entryBytes
         t.wh.rx.getD [] ++ t.wh.rxRest = s.wh.rx.getD [] ++ s.wh.rxRest ++ mbParts 3 (l.length / 1016 + 1) 0 l))
  ∧ (∀ r s, whServes s = true → r.firstTenant + r.count ≤ 4096 →
    ∃ t, exec (.statement r) s = .next t ∧ (stateWord t).statementNo = (stateWord s).statementNo + 1
      ∧ t.whd.meters = s.whd.meters ∧ t.whd.ledger = s.whd.ledger
      ∧ (let l := statementContent r (nextStatement s)
         t.wh.rx.getD [] ++ t.wh.rxRest = s.wh.rx.getD [] ++ s.wh.rxRest ++ mbParts 4 (l.length / 1016 + 1) 0 l))
  ∧ (∀ r s, whServes s = true → 4096 < r.firstTenant + r.count →
    ∃ t, exec (.statement r) s = .next t ∧ t = raiseP evWhMbRefused 4 s ∧ t.whd = s.whd)
  ∧ (∀ epochs s, whServes s = true →
    ∃ t, exec (.markRead epochs) s = .next t
      ∧ (∀ x, x ∈ t.whd.readEpochs ↔ x ∈ s.whd.readEpochs ∨ (x ∈ epochs ∧ ∃ e ∈ s.whd.ledger, e.epoch = x))
      ∧ { t with whd := s.whd } = s)

/-- 16 R403, R425-R427, Tables 16-10, 16-13: SPDM over both transports, a measurement request, a key message of an IDE stream, and
the registers of the mailbox. A request outside Table 16-9 gets the error 0x07, one out of turn 0x04, and neither moves the
connection; GET_VERSION begins one. SEND posts the message in WH_MB_TX as its type says; WH_MB_POP brings the next part; a
Weighhouse in FAULT answers nothing. -/
def Obligations.MailboxSpdmAndRegisters : Prop :=
  (∀ mctp msg s, whServes s = true → spdmSupported (byteAt msg 1) = false →
    ∃ t, exec (.spdm mctp msg) s = .next t ∧ t = spdmReply mctp [0x12, 0x7F, 0x07, 0] s ∧ t.whd = s.whd)
  ∧ (∀ mctp msg s, whServes s = true → byteAt msg 1 = 0x84 →
    ∃ t l, exec (.spdm mctp msg) s = .next t ∧ (if mctp then t.whd.spdmMctp = 1 else t.whd.spdmDoe = 1)
      ∧ (if mctp then t.whd.spdmDoe = s.whd.spdmDoe else t.whd.spdmMctp = s.whd.spdmMctp)
      ∧ t.out = s.out ++ [if mctp then .mctp l else .doeResponse l] ∧ t.whd.ledger = s.whd.ledger ∧ t.whd.meters = s.whd.meters)
  ∧ (∀ mctp msg s, whServes s = true → byteAt msg 1 = 0xE3 → (if mctp then s.whd.spdmMctp else s.whd.spdmDoe) ≠ 2 →
    ∃ t, exec (.spdm mctp msg) s = .next t ∧ t = spdmReply mctp [0x12, 0x7F, 0x04, 0] s ∧ t.whd = s.whd)
  ∧ (∀ mctp index s, whServes s = true →
    ∃ t, exec (.getMeasurements mctp index) s = .next t ∧ t = spdmReply mctp (measurementsAnswer index s) s ∧ t.whd = s.whd)
  ∧ (∀ st msg s, whServes s = true →
    ∃ t l, exec (.ideKm st msg) s = .next t ∧ t.out = s.out ++ [.ideKey st msg, .doeResponse l]
      ∧ t.hif.doe.response = some l ∧ t.hif.doe.request = none ∧ t.whd = s.whd)
  ∧ (∀ s, exec .romExit s = .next { s with wh := { s.wh with romPhase := false } })
  ∧ (∀ s, ∃ t, exec .whMbPop s = .next t ∧ t.whd = s.whd
      ∧ (s.wh.rxRest = [] → t.wh.rx = none ∧ t.wh.rxRest = [])
      ∧ t.wh.rx.getD [] ++ t.wh.rxRest = s.wh.rxRest)
  ∧ (∀ s, let c := ((padTo 1024 s.wh.tx).drop 4).take (leNat (slice s.wh.tx 2 2))
      (leNat (slice s.wh.tx 0 2) = 1 → exec .send s = exec (.extend (byteAt c 0) (slice c 1 48)) s)
      ∧ (leNat (slice s.wh.tx 0 2) = 2 → exec .send s = exec .close s)
      ∧ (leNat (slice s.wh.tx 0 2) = 3 → exec .send s = exec (.ledgerGet (leNat (slice c 0 4)) (leNat (slice c 4 4))) s)
      ∧ (leNat (slice s.wh.tx 0 2) = 4 → exec .send s = exec (.statement (statementOf (leNat (slice c 0 8)) (slice c 8 16))) s)
      ∧ (leNat (slice s.wh.tx 0 2) = 5 → exec .send s = exec (.spdm (byteAt c 0 == 1) (c.drop 1)) s)
      ∧ (leNat (slice s.wh.tx 0 2) = 6 → exec .send s = exec (.markRead (nats4 c)) s))
  ∧ (∀ s, whServes s = true → let c := ((padTo 1024 s.wh.tx).drop 4).take (leNat (slice s.wh.tx 2 2))
      (∀ e, leNat (slice s.wh.tx 0 2) = 1 → currentEntry s = some e → e.state = 0 → byteAt c 0 = e.stages.length →
          byteAt c 0 < 4 → s.wh.romPhase = decide (byteAt c 0 ≤ 1) →
        ∃ t, exec .send s = .next t ∧ currentEntry t = some { e with stages := e.stages ++ [padTo 48 (slice c 1 48)] }
          ∧ t.whd.meters = s.whd.meters ∧ t.wh = s.wh ∧ t.out = s.out)
      ∧ (∀ e, leNat (slice s.wh.tx 0 2) = 2 → currentEntry s = some e → e.state = 0 → e.stages.length = 4 → e.epoch ≠ 0xFFFFFFFF →
        ∃ t, exec .send s = .next t ∧ currentEntry t = some { e with state := 1, timeClose := whTime s }
          ∧ t.whd.released = some e.epoch ∧ t.whd.meters = s.whd.meters)
      ∧ (leNat (slice s.wh.tx 0 2) = 3 → ∃ t, exec .send s = .next t ∧ t.whd = s.whd
          ∧ (let l := (entriesFrom (leNat (slice c 0 4)) (leNat (slice c 4 4)) s).flatMap entryBytes
             t.wh.rx.getD [] ++ t.wh.rxRest = s.wh.rx.getD [] ++ s.wh.rxRest ++ mbParts 3 (l.length / 1016 + 1) 0 l))
      ∧ (leNat (slice s.wh.tx 0 2) = 4 →
          (statementOf (leNat (slice c 0 8)) (slice c 8 16)).firstTenant + (statementOf (leNat (slice c 0 8)) (slice c 8 16)).count ≤ 4096 →
        ∃ t, exec .send s = .next t ∧ (stateWord t).statementNo = (stateWord s).statementNo + 1
          ∧ t.whd.meters = s.whd.meters ∧ t.whd.ledger = s.whd.ledger)
      ∧ (leNat (slice s.wh.tx 0 2) = 5 → ∃ t l, exec .send s = .next t
          ∧ t.out = s.out ++ [if byteAt c 0 == 1 then .mctp l else .doeResponse l]
          ∧ t.whd.ledger = s.whd.ledger ∧ t.whd.meters = s.whd.meters)
      ∧ (leNat (slice s.wh.tx 0 2) = 6 → ∃ t, exec .send s = .next t
          ∧ (∀ x, x ∈ t.whd.readEpochs ↔ x ∈ s.whd.readEpochs ∨ (x ∈ nats4 c ∧ ∃ e ∈ s.whd.ledger, e.epoch = x))
          ∧ { t with whd := s.whd } = s))
  ∧ (∀ s, whServes s = true → (leNat (slice s.wh.tx 0 2) = 0 ∨ 7 ≤ leNat (slice s.wh.tx 0 2)) →
    ∃ t, exec .send s = .next t ∧ t.whd = s.whd ∧ t.wh = s.wh)
  ∧ (∀ stage d m r mctp msg i st es s, (s.whd.powered = false ∨ s.whd.lifecycle = 2) →
    exec (.extend stage d) s = .next s ∧ exec .close s = .next s ∧ exec (.ledgerGet i m) s = .next s
      ∧ exec (.statement r) s = .next s ∧ exec (.spdm mctp msg) s = .next s ∧ exec (.getMeasurements mctp i) s = .next s
      ∧ exec (.ideKm st msg) s = .next s ∧ exec (.markRead es) s = .next s)

/-- 16 R406-R408, R411, R413-R415, 19 R465: the Weighhouse's own start, reset and supply touch no statement number, LAST_TSN or
ledger length, and no meter but words of frames that were never committed; its status makes it available and frees the tallies
it has taken; without status it is unavailable after 10 ms and given up after 1 s more; frames not taken for 10 ms are sent
again; a write that may form nothing for 60 s then ends with UNIT_DEGRADED. -/
def Obligations.WeighhouseStartsAndIsWatched : Prop :=
  (∀ s, ∃ t, exec .whRstN s = .next t ∧ t.whd.powered = false ∧ t.whd.meters = s.whd.meters ∧ t.whd.copyA = s.whd.copyA
      ∧ t.whd.copyB = s.whd.copyB ∧ t.whd.ledger = s.whd.ledger ∧ t.whd.supplied = s.whd.supplied ∧ t.sys = s.sys ∧ t.mram = s.mram)
  ∧ (∀ s, ∃ t, exec .whSupplyLoss s = .next t ∧ t.whd.powered = false ∧ t.whd.supplied = false ∧ t.whd.meters = s.whd.meters
      ∧ t.whd.copyA = s.whd.copyA ∧ t.whd.copyB = s.whd.copyB ∧ t.whd.ledger = s.whd.ledger ∧ t.sys = s.sys ∧ t.mram = s.mram)
  ∧ (∀ ok s, s.whd.powered = false →
    ∃ t, exec (.weighhousePowerOn ok) s = .next t ∧ t.whd.powered = true ∧ t.whd.supplied = true
      ∧ t.whd.lifecycle = (if s.whd.lifecycle = 0 then 0 else if ok then 1 else 2)
      ∧ t.wh.epochValid = false ∧ t.whd.released = none
      ∧ (stateWord t).lastTsn = (stateWord s).lastTsn ∧ (stateWord t).statementNo = (stateWord s).statementNo
      ∧ (stateWord t).powerOns = (stateWord s).powerOns + (if s.whd.supplied then 0 else 1)
      ∧ ((∀ p ∈ s.whd.meters, p.2.tsn ≤ (stateWord s).lastTsn ∧ p.2 ≠ .zero) → t.whd.meters = s.whd.meters)
      ∧ t.whd.ledger.length = s.whd.ledger.length)
  ∧ (∀ s, s.whd.powered = true →
    ∃ t, exec .whTimeCheckpoint s = .next t ∧ (stateWord t).timeCheck = whTime s ∧ (stateWord t).lastTsn = (stateWord s).lastTsn
      ∧ (stateWord t).statementNo = (stateWord s).statementNo ∧ t.whd.meters = s.whd.meters ∧ t.whd.ledger = s.whd.ledger)
  ∧ (∀ at_ temp s, s.whd.powered = true → dieUp s = true →
    ∃ t, exec (.whStatusPublish at_ temp) s = .next t ∧ t.wh.lastTsn = (stateWord s).lastTsn ∧ t.wh.lifecycle = s.whd.lifecycle
      ∧ (s.whd.lifecycle ≠ 2 → t.wh.avail = 1) ∧ t.wh.lastStatus = max s.aon.time at_
      ∧ t.mram.tallies = s.mram.tallies.filter (fun f => (stateWord s).lastTsn < f.tsn) ∧ t.whd.meters = s.whd.meters)
  ∧ (∀ at_ s, s.wh.avail < 2 → s.sys.phase = .running →
      (s.wh.lifecycle = 2 ∨ passedMs s.wh.lastStatus (max s.aon.time at_) 10 = true) →
    ∃ t, exec (.whUnavailable at_) s = .next t ∧ t.wh.avail = 2 ∧ t.wh.failedAt = max s.aon.time at_ ∧ t.wh.link = []
      ∧ t.wh.rx = none ∧ t.whd = s.whd ∧ t.mram = s.mram)
  ∧ (∀ at_ s, s.wh.avail = 2 → passedMs s.wh.failedAt (max s.aon.time at_) 1000 = true →
    ∃ t, exec (.whRetryExpiry at_) s = .next t ∧ t.wh.avail = 3 ∧ t.whd = s.whd ∧ t.mram = s.mram)
  ∧ (∀ at_ s, s.wh.avail = 1 → s.mram.tallies ≠ [] → passedMs s.wh.lastRise (max s.aon.time at_) 10 = true →
    ∃ t, exec (.tallyResendTimeout at_) s = .next t
      ∧ t.wh.link.length = s.wh.link.length + (s.mram.tallies.filter fun f => s.wh.lastTsn < f.tsn).length
      ∧ t.whd = s.whd ∧ t.mram = s.mram)
  ∧ (∀ at_ s w e r, formBlockedLong (atTime at_ s) = true → s.fmt.writes = [w] → w.ending = none → w.placedItems = 0 →
      allPlaced w = false → w.done = 0 → w.durable = 0 → w.firstItem = none → s.fmt.opened = none → s.fmt.closed = [] →
      s.fmt.c3Groups = [] → (∀ d ∈ s.fmt.active, w.jsn ∉ d.jsns) → findEntry s w.jsn = some e → findRun s w.jsn = some r →
      retireFree s = true →
    ∃ t, exec (.formationBlockTimeout at_) s = .next t ∧ RetiredResults w.jsn stUnitDegraded 0 w.startEnd t ∧ t.fmt.writes = [])

/-! ### Power, trips and resets -/

/-- 15 R391: a third trip within 60 min of the first of three sets AUTO_RESTART_OFF, and the always-on domain does not
restart the formatter die; only a power-on starts it. -/
def Obligations.ThirdTripWaitsForPowerOn : Prop :=
  ∀ (at_ a b : Nat) (s : State), s.sys.phase ≠ .off → a ∈ s.aon.tripTimes → b ∈ s.aon.tripTimes → a < b → b < max s.aon.time at_ →
      (max s.aon.time at_ - a) * 640 < 3600000000000 →
    ∃ t, exec (.thermalTrip at_) s = .next t ∧ t.aon.autoOff = true ∧ t.sys.phase = .off
      ∧ (∀ later, exec (.tripRestart later) t = .next { t with aon := { t.aon with time := max t.aon.time later } })
      ∧ (∃ u, exec .powerOn t = .next u ∧ u.sys.phase = .stepOne ∧ u.aon.autoOff = false ∧ u.aon.coreEn = true)

/-- 15 R388-R390, R399, R400, 17 R428: a trip or a loss of the core supply leaves the formatter die off with its latch set, reels
off and brake on; a trip restart starts it with KIND 3 and counts as unclean; a power-on starts it with KIND 0, device time 0
and the latches and counts of trips cleared. -/
def Obligations.PowerEventsAndStarts : Prop :=
  (∀ at_ s, s.sys.phase ≠ .off →
    ∃ t, exec (.thermalTrip at_) s = .next t ∧ t.sys.phase = .off ∧ t.aon.tripLatch = true ∧ t.aon.tripped = true
      ∧ t.aon.trips = sat64 s.aon.trips 1 ∧ t.aon.coreEn = false ∧ t.aon.hbmEn = false ∧ t.aon.reelEn = false ∧ t.aon.brake = true
      ∧ t.aon.time = max s.aon.time at_ ∧ t.whd.meters = s.whd.meters)
  ∧ (∀ s, ∃ t, exec .supplyLoss s = .next t ∧ t.sys.phase = .off ∧ t.aon.supplyLatch = true ∧ t.aon.supplyOk = false
      ∧ t.aon.time = s.aon.time ∧ t.whd.meters = s.whd.meters
      ∧ (s.sys.phase ≠ .off → t.aon.reelEn = false ∧ t.aon.brake = true))
  ∧ (∀ at_ s, s.sys.phase = .off → s.aon.tripped = true → s.aon.autoOff = false →
    ∃ t, exec (.tripRestart at_) s = .next t ∧ t.sys.phase = .stepOne ∧ t.sys.kind = 3 ∧ t.sys.source = 8 ∧ t.sys.unclean = true
      ∧ t.aon.tripped = false ∧ t.aon.coreEn = true ∧ t.aon.hbmEn = true ∧ t.aon.tripLatch = s.aon.tripLatch
      ∧ t.aon.time = max s.aon.time at_ ∧ t.jrn = s.jrn ∧ t.cart = s.cart)
  ∧ (∀ s, s.sys.phase = .off → (s.aon.tripped = false ∨ s.aon.autoOff = true) →
    ∃ t, exec .powerOn s = .next t ∧ t.sys.phase = .stepOne ∧ t.sys.kind = 0 ∧ t.sys.unclean = !s.mram.cleanMark ∧ t.aon.time = 0
      ∧ t.aon.tripLatch = false ∧ t.aon.autoOff = false ∧ t.aon.trips = 0 ∧ t.aon.coreEn = true ∧ t.aon.hbmEn = true
      ∧ whTime t = whTime s ∧ t.jrn = s.jrn ∧ t.mram = s.mram ∧ t.cart = s.cart)

/-- 02 R57, 17 R428-R430, R473, 14 R362: a warm reset of a running device, from the link or SYS_RESET_CTRL, and a cold one, from
SYS_RESET_CTRL or COLD_RST_N. Each frees every buffer and raises PRT_EPOCH; the device is not READY. Over a warm reset open contexts
stay open, without a history; over a cold one none does, and the tape is brought to rest first when it moves. A write to
SYS_RESET_CTRL while READY is 0 is ignored. -/
def Obligations.ResetsLeaveStateOfTables : Prop :=
  (∀ c s, s.sys.phase = .running →
    ∃ t, exec (.warmReset c) s = .next t ∧ t.sys.phase = .stepOne ∧ t.sys.kind = 2 ∧ t.sys.ready = false
      ∧ t.sys.source = (match c with | .flr => 4 | .hotReset => 5 | .dlDown => 6)
      ∧ t.hif = (match c with
          | .flr => { Hif.reset with mode := s.hif.mode, rate := s.hif.rate, width := s.hif.width }
          | _ => .reset)
      ∧ t.cmd = { Cmd.reset with compatT4 := s.cmd.compatT4, compatActive := s.cmd.compatActive }
      ∧ t.prt = .reset ∧ t.mram.prtEpoch = (s.mram.prtEpoch + 1) % 65536 ∧ t.pwr = .reset ∧ t.aon = s.aon
      ∧ (∀ p ∈ t.ctx.records, p.2.dict = 0) ∧ t.ctx.pins = []
      ∧ (s.fmt.run = none → ∀ x, (getCtx x s).isOpen = true → getCtx x t = { getCtx x s with dict := 0 }))
  ∧ (∀ s, mmioOpen s → s.sys.ready = true → s.sys.phase = .running →
    ∃ t, exec .sysResetCtrlWarm s = .next t ∧ t.sys.phase = .stepOne ∧ t.sys.kind = 2 ∧ t.sys.source = 2 ∧ t.sys.ready = false
      ∧ t.prt = .reset ∧ t.mram.prtEpoch = (s.mram.prtEpoch + 1) % 65536 ∧ t.aon = s.aon)
  ∧ (∀ s, s.sys.ready = false → exec .sysResetCtrlWarm s = .next s ∧ exec .sysResetCtrlCold s = .next s)
  ∧ (∀ s, mmioOpen s → s.sys.ready = true → s.sys.step = 0x1F → s.mon.speed = 0 →
    ∃ t, exec .sysResetCtrlCold s = .next t ∧ t.sys.phase = .stepOne ∧ t.sys.kind = 1 ∧ t.sys.source = 2 ∧ t.sys.ready = false
      ∧ t.hif = .reset ∧ t.cmd = .reset ∧ t.ctx = .reset ∧ t.prt = .reset ∧ t.mram.prtEpoch = (s.mram.prtEpoch + 1) % 65536
      ∧ t.aon.reelEn = false ∧ t.aon.brake = true ∧ t.aon.time = s.aon.time ∧ t.cart.loaded = false)
  ∧ (∀ s, mmioOpen s → s.sys.ready = true → (s.sys.step ≠ 0x1F ∨ s.mon.speed ≠ 0) →
    ∃ t, exec .sysResetCtrlCold s = .next t ∧ t.sys.phase = .coldStop ∧ t.sys.kind = 1 ∧ t.sys.source = 2 ∧ t.sys.ready = false
      ∧ t.mon.inhibit = true ∧ t.drv.safeStop = true ∧ t.ctx = .reset ∧ t.prt = .reset
      ∧ t.mram.prtEpoch = (s.mram.prtEpoch + 1) % 65536)
  ∧ (∀ s, s.aon.coreEn = true → s.sys.phase = .running → s.sys.step = 0x1F → s.mon.speed = 0 →
    ∃ t, exec .coldRstN s = .next t ∧ t.sys.phase = .stepOne ∧ t.sys.kind = 1 ∧ t.sys.source = 1 ∧ t.sys.ready = false
      ∧ t.cmd = .reset ∧ t.ctx = .reset ∧ t.prt = .reset ∧ t.cart.loaded = false)
  ∧ (∀ s, s.aon.coreEn = false → exec .coldRstN s = .next s)
  ∧ (∀ at_ s, s.sys.phase = .coldStop →
      ((∃ x, s.mon.slowFrom = some x ∧ passedMs x (max s.aon.time at_) 100 = true)
        ∨ passedMs s.sys.stopBegan (max s.aon.time at_) 2200 = true) →
    ∃ t, exec (.coldResetStopEnd at_) s = .next t ∧ t.sys.phase = .stepOne ∧ t.sys.kind = s.sys.kind ∧ t.sys.source = s.sys.source
      ∧ t.drv = .reset ∧ t.mon = .reset ∧ t.aon.reelEn = false ∧ t.aon.brake = true ∧ t.ctx = s.ctx ∧ t.jrn = s.jrn ∧ t.mem = s.mem)

/-- 17 R431, 16 R416-R418: the start-up sequence makes the device READY; with a Weighhouse that runs SEALED the boot's ledger
entry holds the four digests in order, is RUNNING, has the next epoch, and the epoch is released to the formatter.

17 R433, R434, R436: after a start that is not a warm reset every command left open is ended, with ABORTED_BY_HOST where its
abort was recorded and ABORTED_BY_RESET otherwise; after a warm reset a command that Table 17-4 does not end stays to be run
again. Then each command is reported once its completion ring is enabled, changing nothing else. -/
def Obligations.StartUpAndReplay : Prop :=
  ((∀ b i s, s.sys.phase = .stepOne →
      ∃ t, exec (.startUpSequence b i) s = .next t ∧ t.sys.phase = .running ∧ t.sys.ready = true ∧ t.sys.readyAt = s.aon.time
        ∧ t.mram.cleanMark = false ∧ t.wh.romPhase = false ∧ t.sys.kind = s.sys.kind ∧ t.sys.subsysId = b.subsysId
        ∧ t.whd.meters = s.whd.meters)
    ∧ (∀ b i s, s.sys.phase = .stepOne → whServes s = true → (stateWord s).nextEpoch ≠ 0xFFFFFFFF →
      ∃ t e, exec (.startUpSequence b i) s = .next t ∧ currentEntry t = some e ∧ e.state = 1 ∧ e.epoch = (stateWord s).nextEpoch
        ∧ e.stages = [padTo 48 b.digest0, padTo 48 b.digest1, padTo 48 b.digest2, padTo 48 b.digest3] ∧ e.start = s.sys.kind
        ∧ (stateWord t).nextEpoch = (stateWord s).nextEpoch + 1 ∧ t.whd.released = some e.epoch
        ∧ t.wh.epochValid = true ∧ t.wh.epoch = e.epoch ∧ t.whd.ledger.tail = s.whd.ledger.take 4095))
  ∧ ((∀ j e r s, firmwareRuns s = true → findEntry s j = some e → findRun s j = some r → r.replayed = true → r.phase = .accepted →
        s.jrn.retire.length + s.jrn.entries.length ≤ 16384 → s.sys.kind ≠ 2 →
      ∃ t, exec .replayOpenCommands s = .next t
        ∧ RetiredWith j (if abortRecordedFor s j then stAbortedByHost else stAbortedByReset) t ∧ findRun t j = none
        ∧ t.device = s.device)
    ∧ (∀ j e r s, firmwareRuns s = true → findEntry s j = some e → findRun s j = some r → abortRecordedFor s j = false →
        s.sys.kind = 2 → endsByReset e = false → (∀ x ∈ r.list, x.hdm = false) →
      ∃ t, exec .replayOpenCommands s = .next t ∧ findRun t j = some r ∧ t.device = s.device)
    ∧ (∀ s, firmwareRuns s = true → s.sys.replayPosted = false →
      ∃ t, exec .replayReportPosted s = .next t
        ∧ (∀ j e, findEntry s j = some e → (e.source = 65 ∨ (getCq (entryCq e) s).cfg.en = true) → j ∉ t.sys.toReport)
        ∧ (∀ j, j ∈ t.sys.toReport → j ∈ s.sys.toReport) ∧ t.device = s.device))

/-! ### The CXL host interface -/

/-- 02 R38: the HDM decoder commits a base and a size that are multiples of 256 MiB, a size of 256 MiB to 16 GiB and IW = 0, and
then maps Base + d to DPA d for every d below Size (by lines of 64 bytes); a commit with any other setting fails, sets Error
Not Committed and leaves the decoder uncommitted. -/
def Obligations.HdmDecoderCommits : Prop :=
  ∀ (base size iw : Nat) (lock : Bool) (s : State), hostUp s = true → mmioOpen s → s.hif.locked = false → s.hif.mode = 1 →
    (base % 2 ^ 28 = 0 → size % 2 ^ 28 = 0 → 2 ^ 28 ≤ size → size ≤ 2 ^ 34 → iw = 0 →
      ∃ t, exec (.hdmDecoderCommit base size iw lock) s = .next t ∧ t.hif.committed = true ∧ t.hif.notCommitted = false
        ∧ t.hif.hdmBase = base ∧ t.hif.hdmSize = size ∧ t.hif.locked = lock
        ∧ (∀ d, d < size → s.hif.memEn = true → s.hif.ideCm.state ≠ .insecure → s.mem.ready = true →
            hdmMap (base + d) t = some (d / 64 * 64))
        ∧ { t with hif := s.hif } = s)
    ∧ ((base % 2 ^ 28 ≠ 0 ∨ size % 2 ^ 28 ≠ 0 ∨ size < 2 ^ 28 ∨ 2 ^ 34 < size ∨ iw ≠ 0) →
      ∃ t, exec (.hdmDecoderCommit base size iw lock) s = .next t ∧ t.hif.committed = false ∧ t.hif.notCommitted = true
        ∧ (∀ h, hdmMap h t = none) ∧ { t with hif := s.hif } = s)

/-- 02 R45, R47, R55-R57: link negotiation enters CXL mode when all three protocols are granted at 8 GT/s or more on 4, 8 or 16
lanes, else PCIe-only mode with the decoder uncommitted; Bus Master Enable is taken, or retried before start-up; a snoop
misses with RspIHitI; an ATS invalidation drops the overlapping translations and completes; a vector unmasked with its message
pending sends it once; a locked decoder changes no more. -/
def Obligations.HostLinkCommands : Prop :=
  (∀ o s, hostUp s = true →
    ∃ t, exec (.linkNegotiation o) s = .next t ∧ t.hif.rate = o.rate ∧ t.hif.width = o.width
      ∧ (o.io = true ∧ o.cache = true ∧ o.mem = true ∧ 3 ≤ o.rate ∧ (o.width = 4 ∨ o.width = 8 ∨ o.width = 16) → t.hif.mode = 1 ∧ t.hif.memEn = s.hif.memEn
          ∧ t.hif.committed = s.hif.committed)
      ∧ (o.io = false ∨ o.cache = false ∨ o.mem = false ∨ o.rate < 3 ∨ (o.width ≠ 4 ∧ o.width ≠ 8 ∧ o.width ≠ 16) → t.hif.mode = 2 ∧ t.hif.memEn = false
          ∧ t.hif.cacheEn = false ∧ t.hif.committed = false ∧ (∀ h, hdmMap h t = none))
      ∧ t.device = s.device ∧ t.jrn = s.jrn)
  ∧ (∀ s, s.sys.phase = .running → exec .busMasterEnable s = .next { s with hif := { s.hif with busMaster := true } })
  ∧ (∀ s, hostUp s = true → s.sys.phase ≠ .running → exec .busMasterEnable s = .next { s with out := s.out ++ [.configRetry] })
  ∧ (∀ base size iw lock s, s.hif.locked = true → exec (.hdmDecoderCommit base size iw lock) s = .next s)
  ∧ (∀ line s, hostUp s = true → s.hif.mode = 1 → s.hif.ideCm.state ≠ .insecure →
    exec (.cxlSnoop line) s = .next { s with out := s.out ++ [.snoopResponse line] })
  ∧ (∀ addr size gone s, hostUp s = true →
    ∃ t, exec (.atsInvalidate addr size gone) s = .next t ∧ t.out = s.out ++ [.atsComplete addr size]
      ∧ (∀ p, p ∈ t.hif.atc ↔ p ∈ s.hif.atc ∧ (p.1 + p.2 ≤ addr ∨ addr + size ≤ p.1))
      ∧ (gone = true → ∀ a n, addr < a + n → a < addr + size → translates a n t = true → t.hif.atsEn = false) ∧ { t with hif := s.hif, out := s.out } = s)
  ∧ (∀ v s, hostUp s = true → mmioOpen s → v < 256 → tabGet false s.hif.pba v = true → s.hif.funcMask = false →
    ∃ t, exec (.msixUnmask v) s = .next t ∧ t.out = s.out ++ [.msix v] ∧ tabGet false t.hif.pba v = false
      ∧ tabGet false t.hif.unmasked v = true ∧ (∀ k, k ≠ v → tabGet false t.hif.pba k = tabGet false s.hif.pba k)
      ∧ t.device = s.device)
  ∧ (∀ v s, hostUp s = true → mmioOpen s → v < 256 → (tabGet false s.hif.pba v = false ∨ s.hif.funcMask = true) →
    ∃ t, exec (.msixUnmask v) s = .next t ∧ t.out = s.out ∧ tabGet false t.hif.unmasked v = true ∧ t.hif.pba = s.hif.pba
      ∧ (∀ k, k ≠ v → tabGet false t.hif.unmasked k = tabGet false s.hif.unmasked k) ∧ t.device = s.device)

/-- 02 R49, R51-R53, 16 R415: the DOE mailbox and IDE. An object over 64 KiB, its 8-byte header among it, is discarded with DOE
Error; one while another is in progress is not taken; a discovery is answered at once (its framing is the model's, log entry
23); an SPDM request is served by the Weighhouse or gets Busy, and a response takes the place of one not read (the model's,
log entry 46); an abort clears all. A MAC failure of a secure stream makes it Insecure and poisons the lines of its epoch;
keys make a stream secure; after 60 s without keys the writes that wait for host data end with INTERNAL_FAULT. -/
def Obligations.DoeAndIde : Prop :=
  (∀ v ty l s, s.sys.phase = .running → 65528 < l.length →
    exec (.doeRequest v ty l) s = .next { s with hif := { s.hif with doe := { s.hif.doe with error := true } } })
  ∧ (∀ v ty l s, s.sys.phase = .running → l.length ≤ 65528 → s.hif.doe.request.isSome = true →
    exec (.doeRequest v ty l) s = .next s)
  ∧ (∀ l s, s.sys.phase = .running → l.length ≤ 65528 → s.hif.doe.request = none →
    ∃ t r, exec (.doeRequest 1 0 l) s = .next t ∧ t.out = s.out ++ [.doeResponse r] ∧ t.hif.doe.response = some r
      ∧ t.hif.doe.request = none ∧ t.device = s.device)
  ∧ (∀ l s, s.sys.phase = .running → l.length ≤ 65528 → s.hif.doe.request = none → s.wh.avail ≠ 1 →
    ∃ t, exec (.doeRequest 1 1 l) s = .next t ∧ t.out = s.out ++ [.doeResponse [0x12, 0x7F, 0x03, 0]] ∧ t.whd = s.whd)
  ∧ (∀ l s, s.sys.phase = .running → l.length ≤ 65528 → s.hif.doe.request = none → s.wh.avail = 1 →
    exec (.doeRequest 1 1 l) s
      = exec (.spdm false l) { s with hif := { s.hif with doe := { s.hif.doe with request := some (1, 1, l) } } })
  ∧ (∀ s, exec .doeAbort s = .next { s with hif := { s.hif with doe := .reset } })
  ∧ (∀ st n at_ s, (ideOf st s).state = .secure →
      let lines := (ideOf st s).epoch.drop ((ideOf st s).epoch.length - n)
    ∃ t, exec (.ideIntegrityFail st n at_) s = .next t ∧ (ideOf st t).state = .insecure ∧ (ideOf st t).epoch = []
      ∧ (ideOf st t).failAt = max s.aon.time at_
      ∧ (∀ a ∈ lines, a ∈ t.mem.hbmPoison ∧ a + 32 ∈ t.mem.hbmPoison)
      ∧ (∀ a ∈ t.mem.hbmPoison, a ∈ s.mem.hbmPoison ∨ a ∈ lines ∨ ∃ b ∈ lines, a = b + 32)
      ∧ t.mem.hbm = s.mem.hbm ∧ t.jrn = s.jrn ∧ t.fmt = s.fmt)
  ∧ (∀ st s, hostUp s = true → (st = .io ∨ s.hif.mode = 1) →
    ∃ t, exec (.ideKeysEstablished st) s = .next t ∧ (ideOf st t).state = .secure ∧ (ideOf st t).epoch = []
      ∧ t.mem = s.mem ∧ t.fmt = s.fmt ∧ t.jrn.entries.map (·.jsn) = s.jrn.entries.map (·.jsn) ∧ t.cart = s.cart)
  ∧ (∀ st at_ s, (ideOf st s).state = .insecure → passedMs (ideOf st s).failAt (max s.aon.time at_) 60000 = true →
      carriesFetches st s = false →
    ∃ t, exec (.ideKeyTimeout st at_) s = .next t ∧ t = setUnit unHost 2 0 (atTime at_ s) ∧ t.fmt = s.fmt ∧ t.jrn = s.jrn)
  ∧ (∀ st at_ s w e r, (ideOf st s).state = .insecure → passedMs (ideOf st s).failAt (max s.aon.time at_) 60000 = true →
      carriesFetches st s = true → s.fmt.writes = [w] → hostFetching s = [w.jsn] → s.fmt.active = [] → s.fmt.opened = none →
      s.fmt.closed = [] → s.fmt.c3Groups = [] → findEntry s w.jsn = some e → findRun s w.jsn = some r → retireFree s = true →
    ∃ t, exec (.ideKeyTimeout st at_) s = .next t ∧ RetiredWith w.jsn stInternalFault t ∧ findRun t w.jsn = none
      ∧ t.fmt.writes = [] ∧ t.mem = s.mem)

/-- 00 R9, 02 Table 2-8, 18 R448-R452: an access that touches a register of the host's map but is no aligned access of its width, or
reaches a register of the control cores, is refused: logged while the log is free, else OVERFLOW; a read gives all ones. A
write to a register that is no command of its own changes shadows and fields only: nothing in force, no memory, no command, no
meter. -/
def Obligations.RegisterAccesses : Prop :=
  (∀ offset size write s, mmioOpen s → hostUp s = true → unreachable offset s = false → touchesRegister offset size = true →
      (exactAccess offset size = false ∨ firmwareOnly offset = true) →
    ∃ t, exec (.mmioAccessRefused offset size write) s = .next t
      ∧ t = refuseAccess offset size write s
      ∧ (s.hif.logValid = false → t.hif.logValid = true ∧ t.hif.logOffset = offset % 2 ^ 26 ∧ t.hif.logSize = size % 16
          ∧ t.hif.logWrite = write ∧ t.hif.logOverflow = s.hif.logOverflow)
      ∧ (s.hif.logValid = true → t.hif.logOverflow = true ∧ t.hif.logOffset = s.hif.logOffset ∧ t.hif.logWrite = s.hif.logWrite)
      ∧ (write = false → .mmioOnes ∈ t.out) ∧ t.device = s.device ∧ t.jrn = s.jrn)
  ∧ (∀ offset size write s, mmioOpen s → hostUp s = true → unreachable offset s = false → exactAccess offset size = true →
      firmwareOnly offset = false →
    exec (.mmioAccessRefused offset size write) s = .next s)
  ∧ (∀ offset size v s, offset < 0x4000000 → mmioOpen s → hostUp s = true → unreachable offset s = false → touchesRegister offset size = true →
      exactAccess offset size = false →
    ∃ t, exec (.registerWrite offset size v) s = .next t ∧ t = refuseAccess offset size true s ∧ t.device = s.device)
  ∧ (∀ offset size v s, ∃ t, exec (.registerWrite offset size v) s = .next t
      ∧ t.vfy.margin = s.vfy.margin ∧ t.hlk.cfg = s.hlk.cfg ∧ t.mon.cfg = s.mon.cfg ∧ t.spm.cfg = s.spm.cfg ∧ t.thm.cfg = s.thm.cfg
      ∧ t.drv.loops.map (·.cfg) = s.drv.loops.map (·.cfg) ∧ t.cmd.subRings.map (·.cfg) = s.cmd.subRings.map (·.cfg)
      ∧ t.cmd.cplRings.map (·.cfg) = s.cmd.cplRings.map (·.cfg) ∧ t.cmd.evt.cfg = s.cmd.evt.cfg
      ∧ t.mem.hbm = s.mem.hbm ∧ t.mem.armed = s.mem.armed ∧ t.mem.flip = s.mem.flip ∧ t.jrn = s.jrn ∧ t.fmt = s.fmt ∧ t.ctx = s.ctx
      ∧ t.mram = s.mram ∧ t.cart = s.cart ∧ t.whd = s.whd ∧ t.sys = s.sys)
  ∧ (∀ v s, mmioOpen s → hostUp s = true → s.pwr.state ≠ 4 →
    exec (.registerWrite 0x800010 8 v) s = .next { s with vfy := { s.vfy with shadow :=
      { iterMax := bits v 0 4, flipsMax := bits v 4 11, weakMax := bits v 15 11, wholeMin := bits v 26 10, suspectMin := bits v 36 7 } } })

/-! ### Memory -/

/-- 02 R39, 14 R374: a whole line written to the HDM window reads back, by the read command, as it was written, and every byte of
HBM outside the line stays. A line of a granule never written reads zeros; a poisoned line answers with poison and raises
HIF_HDM_POISON; a line that the decoder does not map is not answered, and nothing changes.

14 R366: a write of part of a line changes the bytes it carries and no other byte of HBM; a word that was poisoned and is
written in part stays poisoned, with one more poison merge counted. -/
def Obligations.HdmLinesAndPartialWrites : Prop :=
  ((∀ hpa a (data : List Byte) s, hdmMap hpa s = some a → a < 2 ^ 34 → data.length = 64 → s.mem.armed = false →
      ∃ t u, exec (.memWr hpa data) s = .next t ∧ .memCmp ∈ t.out
        ∧ (∀ i, i < 64 → tabGet 0 t.mem.hbm (a + i) = data.getD i 0)
        ∧ (∀ x, (x < a ∨ a + 64 ≤ x) → tabGet 0 t.mem.hbm x = tabGet 0 s.mem.hbm x)
        ∧ t.mem.sram = s.mem.sram ∧ t.jrn = s.jrn ∧ t.fmt = s.fmt
        ∧ exec (.cxlMemRead hpa) t = .next u ∧ u.out = t.out ++ [.memData data false] ∧ u.mem = t.mem)
    ∧ (∀ hpa a s, hdmMap hpa s = some a → a < 2 ^ 34 → a / 4096 ∉ s.mem.written →
      exec (.cxlMemRead hpa) s = .next { s with out := s.out ++ [.memData (List.replicate 64 0) false] })
    ∧ (∀ hpa a s, hdmMap hpa s = some a → a < 2 ^ 34 → a / 4096 ∈ s.mem.written → tabGet 0 s.mem.hbmErr a = 0 →
        tabGet 0 s.mem.hbmErr (a + 32) = 0 → (a ∈ s.mem.hbmPoison ∨ a + 32 ∈ s.mem.hbmPoison) →
      ∃ t l, exec (.cxlMemRead hpa) s = .next t ∧ .memData l true ∈ t.out ∧ t.hif.poison = min 0x7FFF (s.hif.poison + 1)
        ∧ t.mem = s.mem ∧ t.jrn = s.jrn)
    ∧ (∀ hpa data part s, hdmMap hpa s = none →
      exec (.cxlMemRead hpa) s = .next s ∧ exec (.memWr hpa data) s = .next s ∧ exec (.memWrPtl hpa part) s = .next s))
  ∧ ((∀ hpa a (data : List (Option Byte)) s, hdmMap hpa s = some a → a < 2 ^ 34 → s.mem.armed = false →
        tabGet 0 s.mem.hbmErr a = 0 → tabGet 0 s.mem.hbmErr (a + 32) = 0 → a ∉ s.mem.hbmPoison → a + 32 ∉ s.mem.hbmPoison →
      ∃ t, exec (.memWrPtl hpa data) s = .next t ∧ .memCmp ∈ t.out
        ∧ (a / 4096 ∈ s.mem.written → ∀ i, i < 64 → tabGet 0 t.mem.hbm (a + i) = (data.getD i none).getD (tabGet 0 s.mem.hbm (a + i)))
        ∧ (∀ x, (x < a ∨ a + 64 ≤ x) → tabGet 0 t.mem.hbm x = tabGet 0 s.mem.hbm x)
        ∧ t.mem.sram = s.mem.sram ∧ t.jrn = s.jrn ∧ t.fmt = s.fmt)
    ∧ (∀ hpa a (data : List (Option Byte)) s i j x, hdmMap hpa s = some a → a < 2 ^ 34 → s.mem.armed = false → a / 4096 ∈ s.mem.written →
        tabGet 0 s.mem.hbmErr a = 0 → a ∈ s.mem.hbmPoison → i < 32 → j < 32 → data.getD i none = some x → data.getD j none = none →
        (∀ k, 32 ≤ k → data.getD k none = none) →
      ∃ t, exec (.memWrPtl hpa data) s = .next t ∧ a ∈ t.mem.hbmPoison ∧ t.mem.poisonMerges = sat64 s.mem.poisonMerges 1
        ∧ tabGet 0 t.mem.hbm (a + i) = x ∧ t.jrn = s.jrn))

/-- 14 R363, R365, R369: the patrol scrub writes a correctable word back corrected, with its data as they were, counts it, and
leaves a clean word alone.

14 R370-R372: a retrain that passes puts the pseudo-channel back into service; one that fails retires it, with every word of
its written granules below the system region poisoned; where one is already retired, the memory is degraded and every open
write is to end with UNIT_DEGRADED. -/
def Obligations.PatrolAndPseudoChannels : Prop :=
  ((∀ addr i v s, s.mem.ready = true → s.mem.armed = false → addr < 2 ^ 34 → addr / 4096 ∈ s.mem.written →
        hbmDecode (tabGet 0 s.mem.hbmErr (addr / 32 * 32)) = .corrected i v →
        tabGet 0 s.mem.hbmErr (addr / 32 * 32) = BitVec.ofNat 288 (v * 2 ^ (8 * i)) → addr / 32 * 32 ∉ s.mem.hbmPoison →
      ∃ t, exec (.patrolScrub true addr) s = .next t ∧ tabGet 0 t.mem.hbmErr (addr / 32 * 32) = 0
        ∧ (∀ x, tabGet 0 t.mem.hbm x = tabGet 0 s.mem.hbm x) ∧ t.mem.hbmCe = sat64 s.mem.hbmCe 1
        ∧ t.mem.scrubFixes = sat64 s.mem.scrubFixes 1 ∧ t.mem.sram = s.mem.sram ∧ t.jrn = s.jrn)
    ∧ (∀ addr s, s.mem.ready = true → addr < 2 ^ 34 → tabGet 0 s.mem.hbmErr (addr / 32 * 32) = 0 →
      exec (.patrolScrub true addr) s = .next s)
    ∧ (∀ addr i s, s.mem.ready = true → s.mem.armed = false → addr < 0x4000000 → i < 72 →
        tabGet 0 s.mem.sramErr (addr / 8 * 8) = BitVec.ofNat 72 (2 ^ i) → addr / 8 * 8 ∉ s.mem.sramPoison →
      ∃ t, exec (.patrolScrub false addr) s = .next t ∧ tabGet 0 t.mem.sramErr (addr / 8 * 8) = 0
        ∧ (∀ x, tabGet 0 t.mem.sram x = tabGet 0 s.mem.sram x) ∧ t.mem.sramCe = sat64 s.mem.sramCe 1
        ∧ t.mem.scrubFixes = sat64 s.mem.scrubFixes 1 ∧ t.mem.hbm = s.mem.hbm ∧ t.jrn = s.jrn)
    ∧ (∀ addr s, s.mem.ready = true → addr < 0x4000000 → tabGet 0 s.mem.sramErr (addr / 8 * 8) = 0 →
        addr / 8 * 8 ∉ s.mem.sramPoison →
      exec (.patrolScrub false addr) s = .next s))
  ∧ ((∀ at_ pc s, s.mem.retrainPc = some pc →
      ∃ t, exec (.pcRetrainDone true at_) s = .next t ∧ t.mem.retrainPc = none
        ∧ tabGet 0 t.mem.retrainAt pc = max s.aon.time at_ + 1 ∧ t.mem.hbm = s.mem.hbm ∧ t.mem.hbmPoison = s.mem.hbmPoison
        ∧ t.mem.retiredPc = s.mem.retiredPc ∧ t.jrn = s.jrn ∧ t.fmt = s.fmt)
    ∧ (∀ at_ pc s, s.mem.retrainPc = some pc → s.mem.retiredPc = none → s.mem.remapPc = none →
      ∃ t, exec (.pcRetrainDone false at_) s = .next t ∧ t.mem.retrainPc = none ∧ t.mem.retiredPc = some pc ∧ t.mem.remapPc = some pc
        ∧ (∀ g ∈ s.mem.written, g % 32 = pc → g < 0x400000 → ∀ i, i < 128 → g * 4096 + 32 * i ∈ t.mem.hbmPoison)
        ∧ (∀ a ∈ s.mem.hbmPoison, a ∈ t.mem.hbmPoison) ∧ t.mem.hbm = s.mem.hbm ∧ t.mem.degraded = s.mem.degraded ∧ t.fmt = s.fmt)
    ∧ (∀ at_ pc s, s.mem.retrainPc = some pc → s.mem.retiredPc.isSome = true →
      ∃ t, exec (.pcRetrainDone false at_) s = .next t ∧ t.mem.degraded = true ∧ t.mem.retiredPc = s.mem.retiredPc
        ∧ (∀ w ∈ t.fmt.writes, w.ending.isSome = true) ∧ t.fmt.writes.map (·.jsn) = s.fmt.writes.map (·.jsn)
        ∧ t.mem.hbm = s.mem.hbm ∧ t.jrn = s.jrn))

/-! ### Ticks, servo lock, the Drover's registers, the safe stop -/

/-- 01 R13-R15, 09 R259, 18 R450, R451, 03 R91: a servo tick counts, holds its start and the length of the tick before it, and
carries out what was committed; a servo tick shorter than 38,400 core cycles is marked short unless the tick before it was
synthetic. Without servo lock, under synthetic ticks or beyond 160,000 cycles no servo tick happens; a synthetic tick counts
too and makes the tick source synthetic. No tick changes a meter, a ledger entry or the INSTANCE. -/
def Obligations.TicksCountAndTransfer : Prop :=
  (∀ (i : TickInput) s, s.sys.phase = .running → s.pwr.state ≠ 4 → s.sys.synth = false → s.mon.lock = true → i.period ≤ 160000 →
      (i.taskDone = true ∨ s.sys.taskMisses = 0) →
    ∃ t, exec (.servoTick i) s = .next t ∧ t.sys.tickCount = s.sys.tickCount + 1 ∧ t.sys.tickStart = max s.aon.time i.at_
      ∧ t.sys.lastPeriod = i.period % 2 ^ 20 ∧ t.sys.shortTick = (decide (i.period < 38400) && decide (s.mon.frames = 0))
      ∧ t.cmd.compatActive = s.cmd.compatT4 ∧ t.vfy.commit.pending = false
      ∧ t.vfy.margin = (if s.vfy.commit.pending && marginOk s.vfy.shadow then s.vfy.shadow else s.vfy.margin)
      ∧ t.whd = s.whd ∧ t.mram.inst = s.mram.inst)
  ∧ (∀ (i : TickInput) s, (s.sys.phase = .off ∨ s.pwr.state = 4 ∨ s.sys.synth = true ∨ s.mon.lock = false ∨ 160000 < i.period) →
    exec (.servoTick i) s = .next s)
  ∧ (∀ (i : TickInput) s, s.sys.phase = .running → s.pwr.state ≠ 4 → (i.taskDone = true ∨ s.sys.taskMisses = 0) →
    ∃ t, exec (.syntheticTick i) s = .next t ∧ t.sys.tickCount = s.sys.tickCount + 1 ∧ t.sys.synth = true
      ∧ t.sys.tickStart = max s.aon.time i.at_ ∧ t.sys.shortTick = false ∧ t.cmd.compatActive = s.cmd.compatT4
      ∧ t.vfy.margin = (if s.vfy.commit.pending && marginOk s.vfy.shadow then s.vfy.shadow else s.vfy.margin)
      ∧ t.whd = s.whd ∧ t.mram.inst = s.mram.inst)
  ∧ (∀ (i : TickInput) s, s.sys.phase = .coldStop → s.pwr.state ≠ 4 →
    ∃ t, exec (.syntheticTick i) s = .next t ∧ t.sys.tickCount = s.sys.tickCount + 1 ∧ t.sys.phase = .coldStop
      ∧ t.jrn = s.jrn ∧ t.fmt = s.fmt ∧ t.mem = s.mem ∧ t.whd = s.whd)

/-- 01 R14, 13 R345, R346: sixteen servo frames in a row at speed are the lock and the frame after them ends synthetic ticks; a
slow one starts the count again. A servo loss asserts write inhibit and makes ticks synthetic; after 200 ms without lock a run
ends.

13 R342, R343: a safe stop ends when the tape has come to rest, and the retry follows; a retry in which no sensor fails gives
loop 0 its limits and AUTO again and ends the stop. Before that nothing but time changes. -/
def Obligations.ServoLockLossAndSafeStop : Prop :=
  ((∀ s, s.sys.synth = true → s.sys.phase ≠ .off →
      exec (.servoFrameDetected true) s = .next { s with
        mon := { s.mon with frames := s.mon.frames + 1, lock := s.mon.lock || decide (16 ≤ s.mon.frames + 1) }
        sys := { s.sys with synth := decide (s.mon.frames + 1 ≤ 16) } })
    ∧ (∀ s, s.sys.synth = true → s.sys.phase ≠ .off →
      exec (.servoFrameDetected false) s = .next { s with mon := { s.mon with frames := 0 } })
    ∧ (∀ fast s, s.sys.synth = false → exec (.servoFrameDetected fast) s = .next s)
    ∧ (∀ at_ s, s.mon.lock = true →
      ∃ t, exec (.servoLoss at_) s = .next t ∧ t.mon.lock = false ∧ t.mon.inhibit = true ∧ t.mon.inhSrc.getLsbD 0 = true
        ∧ t.sys.synth = true ∧ t.mon.lossAt = some (max s.aon.time at_) ∧ (s.mon.inhibit = false → .inhibit ∈ t.out)
        ∧ t.fmt = s.fmt ∧ t.jrn = s.jrn ∧ t.mem = s.mem ∧ t.drv = s.drv)
    ∧ (∀ at_ s, s.mon.lock = false → exec (.servoLoss at_) s = .next (atTime at_ s))
    ∧ (∀ sfn at_ s x, s.mon.lossAt = some x → s.mon.lock = false → passedMs x (max s.aon.time at_) 200 = true → s.fmt.run = none →
      ∃ t, exec (.servoLossTimeout sfn at_) s = .next t ∧ t.mon = { s.mon with lossAt := none } ∧ t.fmt = s.fmt ∧ t.jrn = s.jrn)
    ∧ (∀ sfn at_ s x, s.mon.lossAt = some x → s.mon.lock = false → passedMs x (max s.aon.time at_) 200 = true →
        s.fmt.run.isSome = true →
      ∃ t, exec (.servoLossTimeout sfn at_) s = .next t ∧ t.fmt.run = none ∧ t.mon.lossAt = none ∧ t.mon.lossSfn = some sfn
        ∧ t.sys.step = 0x1F ∧ t.whd = s.whd))
  ∧ ((∀ at_ s, s.drv.safeStop = true → s.sys.phase = .running →
        (s.mon.openLoop = true ∨ ∃ x, s.mon.slowFrom = some x ∧ passedMs x (max s.aon.time at_) 100 = true) →
      ∃ t, exec (.safeStopEnd at_) s = .next t ∧ t.drv.safeStop = false ∧ t.mon.stopped = true ∧ t.drv.loops = s.drv.loops
        ∧ t.mon.inhibit = s.mon.inhibit ∧ t.mem = s.mem ∧ t.fmt = s.fmt ∧ t.whd = s.whd)
    ∧ (∀ at_ s, (s.drv.safeStop = false ∨ s.sys.phase ≠ .running
        ∨ (s.mon.openLoop = false ∧ ∀ x, s.mon.slowFrom = some x → passedMs x (max s.aon.time at_) 100 = false)) →
      exec (.safeStopEnd at_) s = .next (atTime at_ s))
    ∧ (∀ at_ s, s.mon.stopped = true → s.sys.phase = .running →
      ∃ t, exec (.safeStopRetry [] at_) s = .next t ∧ t.mon.stopped = false ∧ t.mon.safeCause = 0 ∧ t.mon.openLoop = false
        ∧ t.drv.safeStop = s.drv.safeStop
        ∧ t.drv.loops[0]? = (s.drv.loops[0]?).map (fun l =>
            { l with cfg := { l.cfg with amax := (8000, 0), jmax := (320000, 0) }, modeReq := 2 })
        ∧ t.mem = s.mem ∧ t.fmt = s.fmt ∧ t.whd = s.whd)
    ∧ (∀ failed at_ s, s.mon.stopped = true → s.sys.phase = .running →
      ∃ t, exec (.safeStopRetry failed at_) s = .next t ∧ t.mon.stopped = false ∧ t.aon.time = max s.aon.time at_ ∧ t.whd = s.whd)
    ∧ (∀ failed at_ s, s.mon.stopped = false → exec (.safeStopRetry failed at_) s = .next (atTime at_ s)))

/-- 12 R308, R309, R311, R317, R331: writes to a loop's coefficient, mode and target registers reach that loop alone and take effect
as the Drover's work does; a coefficient write is refused in compatibility mode while the loop is in AUTO. A post starts the
eager loops, whose codes wait for the DAC; a DAC write that completes applies the oldest of them. -/
def Obligations.DroverRegistersAndEagerLoops : Prop :=
  (∀ loop sec reg v s, mmioOpen s → reg < 6 →
      (s.cmd.compatActive = false ∨ ((getLoop loop s).mode ≠ 2 ∧ (getLoop loop s).modeReq ≠ 2)) →
    exec (.drvCoefWrite loop sec reg v) s = .next { s with drv := { s.drv with loops := s.drv.loops.modify loop fun l =>
      { l with hostCoef := true, sections := l.sections.modify sec (setCoef reg v) } } })
  ∧ (∀ loop sec reg v s, mmioOpen s → reg < 6 → s.cmd.compatActive = true → (getLoop loop s).mode = 2 →
    ∃ t, exec (.drvCoefWrite loop sec reg v) s = .next t
      ∧ t = raise evDrvCoefRefused loop (0x00A01000 + loop * 0x400 + 0x100 + sec * 0x40 + reg * 8) s ∧ t.drv = s.drv)
  ∧ (∀ loop v s, mmioOpen s → exec (.drvModeWrite loop v) s = .next { s with drv := { s.drv with loops := s.drv.loops.modify loop fun l =>
      { l with modeReq := if bits v 0 2 = 3 then l.modeReq else bits v 0 2, manOut := fromTwos 24 (bits v 8 24) } } })
  ∧ (∀ loop v s, mmioOpen s → exec (.drvTargetWrite loop v) s = .next { s with drv := { s.drv with loops := s.drv.loops.modify loop fun l =>
      { l with targetNext := some (fromTwos 24 (bits v 0 24)) } } })
  ∧ (∀ m c s, s.sys.phase ≠ .off →
    ∃ t, exec (.servoMeasurementPost m c) s = .next t ∧ t.drv.posted = true ∧ t.sys.tickCount = s.sys.tickCount
      ∧ (∀ n l, s.drv.loops[n]? = some l → l.cfg.eager = false → n ≠ 0 → n ≠ 2 → n ≠ 3 → t.drv.loops[n]? = some l)
      ∧ t.whd = s.whd ∧ t.aon = s.aon)
  ∧ (∀ m c s n l, s.sys.phase ≠ .off → n < 32 → s.drv.loops[n]? = some l → l.cfg.eager = true → l.mode = 1 → l.cfg.fbSrc = 0 →
      l.cfg.spSrc = 0 → l.cfg.feTime = 0 → (l.cfg.sink = 3 ∨ l.cfg.sink = 4) → s.drv.dacQueue = [] →
      (∀ k x, s.drv.loops[k]? = some x → k ≠ n → x.cfg.eager = false ∨ x.mode = 0) →
    ∃ t, exec (.servoMeasurementPost m c) s = .next t
      ∧ t.drv.dacQueue = [(n, clampI l.cfg.outMin l.cfg.outMax l.manOut)] ∧ t.jrn = s.jrn ∧ t.mem = s.mem ∧ t.fmt = s.fmt)
  ∧ (∀ s, s.drv.dacQueue = [] → exec .dacWriteDone s = .next s)
  ∧ (∀ s n c q, s.drv.dacQueue = (n, c) :: q → (∀ p ∈ s.drv.waitPost, p.1 ≠ n) →
    ∃ t, exec .dacWriteDone s = .next t ∧ t.drv.dacQueue = q
      ∧ t.drv.loops = s.drv.loops.modify n (fun l => { l with output := c })
      ∧ t.out = s.out ++ (if isHardSink (getLoop n s).cfg.sink then [.sink (getLoop n s).cfg.sink c] else [])
      ∧ t.jrn = s.jrn ∧ t.mem = s.mem ∧ t.fmt = s.fmt)

/-! ### The head link -/

/-- 11 R283-R290, R293: the blocks of a frame that arrive on a lane in the mask and locked are descrambled and read; block errors
count; a frame with a bad CRC, length or control block is dropped and counted as an error of the lane alone; a good one is
taken, its FSEQ gap counted as lost, and its items in the order of its SOURCE and INDEX. Nothing arrives on another lane.
Sixteen invalid headers take the block lock; a gap that times out is passed over. A frame built and scrambled as R283 and R286
say is accepted as it was sent.

11 R292-R297, Table 11-11: a retrain or retirement that the host asks for is refused during another retrain and of a retired
lane, a retirement also where the link would have too few lanes left; else it waits for the tick edge. A retrain that ends
waits for the edge with its verdict. A whole link that trains on every lane is UP; one whose IDENT does not match is FAILED. -/
def Obligations.HeadLinkFramesAndLanes : Prop :=
  ((∀ (f : LinkFrame) s, carries f.lane s = false → exec (.samples f) s = .next s ∧ exec (.servo f) s = .next s
        ∧ exec (.status f) s = .next s ∧ exec (.reply f) s = .next s ∧ exec (.ident f) s = .next s
        ∧ exec (.blockLockLoss f.lane) s = .next s)
    ∧ (∀ (f : LinkFrame) s, carries f.lane s = true → beginsFrame (rowItems f) = false →
      ∀ c, (c = .samples f ∨ c = .servo f ∨ c = .status f ∨ c = .reply f ∨ c = .ident f) →
      ∃ t, exec c s = .next t
        ∧ t.hlk = { s.hlk with lanes := s.hlk.lanes.modify f.lane fun l =>
            { l with blockErr := min 65535 (l.blockErr + blockErrors (rowItems f)) } }
        ∧ t.device = { s with hlk := t.hlk }.device)
    ∧ (∀ (f : LinkFrame) s l, s.hlk.lanes[f.lane]? = some l → carries f.lane s = true → beginsFrame (rowItems f) = true →
        acceptedFrame (rowItems f) = none →
      ∀ c, (c = .samples f ∨ c = .servo f ∨ c = .status f ∨ c = .reply f ∨ c = .ident f) →
      ∃ t l', exec c s = .next t ∧ t.hlk.lanes[f.lane]? = some l' ∧ l'.crcErr = min 65535 (l.crcErr + 1) ∧ l'.frames = l.frames + 1
        ∧ l'.blockErr = min 65535 (l.blockErr + blockErrors (rowItems f))
        ∧ l'.nextSeq = l.nextSeq ∧ l'.lost = l.lost ∧ (∀ n, n ≠ f.lane → t.hlk.lanes[n]? = s.hlk.lanes[n]?)
        ∧ t.hlk.nextIndex = s.hlk.nextIndex ∧ t.hlk.ahead = s.hlk.ahead ∧ t.hlk.lastReply = s.hlk.lastReply ∧ t.hlk.h64Id = s.hlk.h64Id
        ∧ t.hlk.samples = s.hlk.samples ∧ t.device = { s with hlk := t.hlk }.device)
    ∧ (∀ (f : LinkFrame) s h, carries f.lane s = true → acceptedFrame (rowItems f) = some h →
      let got := modLane f.lane (fun l => frameSeq h { l with frames := l.frames + 1 }) s
      (h.ftype ≠ 1 → exec (.samples f) s = .next got) ∧ (h.ftype ≠ 2 → exec (.servo f) s = .next got)
      ∧ (h.ftype ≠ 3 → exec (.status f) s = .next got) ∧ (h.ftype ≠ 4 → exec (.reply f) s = .next got)
      ∧ (h.ftype ≠ 5 → exec (.ident f) s = .next got)
      ∧ (h.ftype = 1 → s.hlk.ahead = [] →
          (tabGet 0 s.hlk.nextIndex h.source = 0 ∨ tabGet 0 s.hlk.nextIndex h.source = h.index + 1) →
        ∃ t, exec (.samples f) s = .next t ∧ tabGet 0 t.hlk.nextIndex h.source = (h.index + 320) % 2 ^ 24 + 1
          ∧ (∀ x, x ≠ h.source → tabGet 0 t.hlk.nextIndex x = tabGet 0 s.hlk.nextIndex x
              ∧ tabGet [] t.hlk.samples x = tabGet [] s.hlk.samples x)
          ∧ tabGet [] t.hlk.samples h.source = tabGet [] s.hlk.samples h.source ++ (itemsOf 6 320 h.data).map some
          ∧ t.hlk.lanes = got.hlk.lanes ∧ { t with hlk := s.hlk } = s)
      ∧ (h.ftype = 2 → s.hlk.ahead = [] →
          (tabGet 0 s.hlk.nextIndex h.source = 0 ∨ tabGet 0 s.hlk.nextIndex h.source = h.index + 1) →
        ∃ t, exec (.servo f) s = .next t ∧ tabGet 0 t.hlk.nextIndex h.source = (h.index + 240) % 2 ^ 24 + 1
          ∧ tabGet [] t.hlk.samples h.source = tabGet [] s.hlk.samples h.source ++ (itemsOf 8 240 h.data).map some
          ∧ t.hlk.lanes = got.hlk.lanes ∧ { t with hlk := s.hlk } = s)
      ∧ (tabGet 0 s.hlk.nextIndex h.source ≠ 0 → tabGet 0 s.hlk.nextIndex h.source ≠ h.index + 1 →
          (h.ftype = 1 → exec (.samples f) s
            = .next { got with hlk := { got.hlk with ahead := s.hlk.ahead ++ [(h.source, h.index, itemsOf 6 320 h.data)] } })
          ∧ (h.ftype = 2 → exec (.servo f) s
            = .next { got with hlk := { got.hlk with ahead := s.hlk.ahead ++ [(h.source, h.index, itemsOf 8 240 h.data)] } }))
      ∧ (h.ftype = 3 → h.data.getD 2 0 = 0 →
        ∃ t, exec (.status f) s = .next t ∧ t.vfy.wdrvFault = s.vfy.wdrvFault ||| h.data.getD 0 0
          ∧ t.hlk.underrun = h.data.getD 3 0 ∧ t.hlk.lanes = got.hlk.lanes ∧ t.jrn = s.jrn ∧ t.fmt = s.fmt ∧ t.mem = s.mem)
      ∧ (h.ftype = 4 → exec (.reply f) s
          = .next { got with hlk := { got.hlk with lastReply := h.data.getD 0 0, replyTag := h.index } })
      ∧ (h.ftype = 5 →
        ∃ t, exec (.ident f) s = .next t ∧ t.hlk.h64Id = BitVec.ofNat 40 (h.data.getD 0 0).toNat
          ∧ (identOk t.hlk.h64Id = true → { t with hlk := s.hlk } = s) ∧ (identOk t.hlk.h64Id = false → t.hlk.state = 4)))
    ∧ (∀ lane before ftype source fseq index (data : List Word), 1 ≤ ftype → ftype ≤ 5 → dblkOf ftype = some data.length →
        source < 128 → fseq < 2 ^ 16 → index < 2 ^ 24 →
      acceptedFrame (rowItems { lane := lane, before := before
                                blocks := (scrambleAll before (frameBlocks ftype source fseq index data)).1 })
        = some { ftype := ftype, source := source, index := index, fseq := fseq, data := data })
    ∧ (∀ lane s l, s.hlk.lanes[lane]? = some l → carries lane s = true →
      ∃ t l', exec (.blockLockLoss lane) s = .next t ∧ t.hlk.lanes[lane]? = some l' ∧ l'.locked = false
        ∧ l'.lockLoss = min 255 (l.lockLoss + 1) ∧ l'.blockErr = min 65535 (l.blockErr + 16)
        ∧ (∀ n, n ≠ lane → t.hlk.lanes[n]? = s.hlk.lanes[n]?) ∧ t.jrn = s.jrn ∧ t.fmt = s.fmt ∧ t.mem = s.mem)
    ∧ (∀ lane source missing s, (∀ p ∈ s.hlk.ahead, p.1 ≠ source) → exec (.reorderTimeout lane source missing) s = .next s)
    ∧ (∀ lane source missing i items s, s.hlk.ahead = [(source, i, items)] → i < 2 ^ 24 →
      ∃ t, exec (.reorderTimeout lane source missing) s = .next t ∧ t.hlk.ahead = []
        ∧ tabGet 0 t.hlk.nextIndex source = (i + items.length) % 2 ^ 24 + 1
        ∧ (∃ gap, tabGet [] t.hlk.samples source
            = tabGet [] s.hlk.samples source ++ List.replicate gap none ++ items.map some)
        ∧ t.hlk.lanes = s.hlk.lanes.modify lane (fun l => { l with lost := min 65535 (l.lost + missing) })
        ∧ { t with hlk := s.hlk } = s))
  ∧ ((∀ n s, mmioOpen s → s.hlk.retraining = none → (getLane n s).retired = false →
      exec (.hlkLaneRetrain n) s = .next { s with hlk := { s.hlk with lanes := s.hlk.lanes.modify n fun l => { l with failing := true } } })
    ∧ (∀ n s, mmioOpen s → (s.hlk.retraining.isSome = true ∨ (getLane n s).retired = true) →
      ∃ t, exec (.hlkLaneRetrain n) s = .next t ∧ exec (.hlkLaneRetire n) s = .next t ∧ t = raiseP evHlkCtrlRefused n s
        ∧ t.hlk = s.hlk ∧ t.device = s.device)
    ∧ (∀ n s, mmioOpen s → s.hlk.retraining = none → (getLane n s).retired = false → neededLane n s = false →
      exec (.hlkLaneRetire n) s = .next { s with hlk := { s.hlk with
        lanes := s.hlk.lanes.modify n fun l => { l with cause := .host, failing := false },
        maskNext := s.hlk.maskNext.filter (·.1 != n) ++ [(n, false)] } })
    ∧ (∀ n s, mmioOpen s → s.hlk.retraining = none → (getLane n s).retired = false → neededLane n s = true →
      ∃ t, exec (.hlkLaneRetire n) s = .next t ∧ t = raiseP evHlkCtrlRefused n s ∧ t.hlk = s.hlk)
    ∧ (∀ passed at_ s n, s.hlk.retraining = some n →
      ∃ t, exec (.laneRetrainDone passed at_) s = .next t ∧ t.hlk.retraining = none
        ∧ t.hlk.maskNext = s.hlk.maskNext ++ [(n, passed)]
        ∧ (passed = true → t.hlk.lanes = s.hlk.lanes.modify n (fun l => { l with retrainAt := some (max s.aon.time at_) }))
        ∧ (passed = false → t.hlk.lanes = s.hlk.lanes) ∧ t.fmt = s.fmt ∧ t.mem = s.mem)
    ∧ (∀ passed at_ s, s.hlk.retraining = none → exec (.laneRetrainDone passed at_) s = .next (atTime at_ s))
    ∧ (∀ i s, s.hlk.state = 1 → s.sys.phase = .running → s.hlk.lanes.length = 16 → (∀ l ∈ s.hlk.lanes, l.retired = false) →
        i.rxOk = BitVec.allOnes 12 → i.txOk = BitVec.allOnes 4 → i.wiring = 0 → identOk i.ident = true →
      ∃ t, exec (.hlkLinkTraining i) s = .next t ∧ t.hlk.state = 2 ∧ t.hlk.h64Id = i.ident ∧ t.hlk.h64RstN = true
        ∧ (∀ l ∈ t.hlk.lanes, l.active = true ∧ l.locked = true ∧ l.failing = false) ∧ t.hlk.lanes.length = 16
        ∧ t.hlk.capRead = 24 ∧ t.hlk.capWrite = 24 ∧ t.fmt = s.fmt ∧ t.jrn = s.jrn ∧ t.mem = s.mem)
    ∧ (∀ i s, s.hlk.state = 1 → s.sys.phase = .running → identOk i.ident = false →
      ∃ t, exec (.hlkLinkTraining i) s = .next t ∧ t.hlk.state = 4 ∧ t.hlk.h64Id = i.ident ∧ t.fmt.run = none)
    ∧ (∀ i s, (s.hlk.state ≠ 1 ∨ s.sys.phase ≠ .running) → exec (.hlkLinkTraining i) s = .next s))

/-! ### The cipher engine -/

/-- 06 R153, R154, R157: every step, starts and restarts included, keeps every counter at or below the durable CEIL, so that no IV
drawn below one CEIL is drawn again after a power loss. -/
def Obligations.StepKeepsCeiling : Prop :=
  ∀ s t : State, CeilInv s → step s = .next t → CeilInv t

/-- 06 R151-R153, R155, R164, R168: a posted ENCRYPT on an idle lane draws INSTANCE and COUNTER as its IV and moves COUNTER on;
a counter at CEIL waits, CEIL being raised by 2^20; a counter at 2^63 makes the slot EXHAUSTED and ends the request. A request
that ends or is cancelled gives a completion; a read of the completion takes the oldest. -/
def Obligations.CipherRequests : Prop :=
  (∀ desc s, (let q := decodeRequest desc; q.op = 1 ∧ (getSlot (q.dev, q.slot) s).use = .active ∧ limitedPhase s = false
      ∧ (getSlot (q.dev, q.slot) s).counter < ceilNow s ∧ (getSlot (q.dev, q.slot) s).counter < 2 ^ 63
      ∧ (q.dst.toNat + 20 ≤ 0x400000000 ∨ 0x440000000 ≤ q.dst.toNat)
      ∧ s.cph.lanes.length = 8 ∧ s.cph.queue = [] ∧ (∀ l ∈ s.cph.lanes, l.job = none → l.saved = []) ∧ idleLanes s ≠ []) →
    ∃ t n, exec (.cphRqPush desc) s = .next t ∧ n ∈ idleLanes s
      ∧ laneOf n t = { job := some { req := decodeRequest desc, drawn := true, limited := false, suspends := 0, order := s.cph.nextOrder
                                     posted := s.cph.nextPost, iv := mkIv s.mram.inst (getSlot ((decodeRequest desc).dev, (decodeRequest desc).slot) s).counter }
                       saved := [] }
      ∧ getSlot ((decodeRequest desc).dev, (decodeRequest desc).slot) t =
          { getSlot ((decodeRequest desc).dev, (decodeRequest desc).slot) s with
            counter := (getSlot ((decodeRequest desc).dev, (decodeRequest desc).slot) s).counter + 1 }
      ∧ (∀ x, x ≠ ((decodeRequest desc).dev, (decodeRequest desc).slot) → getSlot x t = getSlot x s)
      ∧ (∀ m, m ≠ n → laneOf m t = laneOf m s) ∧ t.cph.done = s.cph.done ∧ t.mram = s.mram ∧ t.jrn = s.jrn ∧ t.cart = s.cart)
  ∧ (∀ desc s, (let q := decodeRequest desc; q.op = 1 ∧ (getSlot (q.dev, q.slot) s).use = .active ∧ limitedPhase s = false
      ∧ ceilNow s ≤ (getSlot (q.dev, q.slot) s).counter ∧ (getSlot (q.dev, q.slot) s).counter < 2 ^ 63
      ∧ s.cph.lanes.length = 8 ∧ s.cph.queue = [] ∧ (∀ l ∈ s.cph.lanes, l.job = none → l.saved = []) ∧ idleLanes s ≠ []) →
    ∃ t, exec (.cphRqPush desc) s = .next t ∧ (∀ x, getSlot x t = getSlot x s) ∧ t.cph.lanes = s.cph.lanes
      ∧ t.cph.ceilWait = s.cph.ceilWait
          ++ [{ req := decodeRequest desc, drawn := false, iv := 0, limited := false, suspends := 0, order := 0
                posted := s.cph.nextPost }]
      ∧ (t.mram.ceilNext = some (s.mram.ceilNext.getD (ceilNow s + 2 ^ 20))) ∧ ceilNow t = ceilNow s ∧ t.cph.done = s.cph.done)
  ∧ (∀ desc s, (let q := decodeRequest desc; q.op = 1 ∧ (getSlot (q.dev, q.slot) s).use = .active ∧ limitedPhase s = false
      ∧ 2 ^ 63 ≤ (getSlot (q.dev, q.slot) s).counter
      ∧ s.cph.lanes.length = 8 ∧ s.cph.queue = [] ∧ (∀ l ∈ s.cph.lanes, l.job = none → l.saved = []) ∧ idleLanes s ≠ []) →
    ∃ t d, exec (.cphRqPush desc) s = .next t ∧ t.cph.done = s.cph.done ++ [d] ∧ d.result = 4 ∧ d.cookie = desc.getD 7 0
      ∧ (getSlot ((decodeRequest desc).dev, (decodeRequest desc).slot) t).use = .exhausted ∧ t.cph.lanes = s.cph.lanes)
  ∧ (∀ c j s, s.cph.queue.find? (·.req.cookie == c) = some j →
    ∃ t d rest, exec (.cphRqCancel c) s = .next t ∧ t.cph.done = s.cph.done ++ d :: rest ∧ d.result = 6 ∧ d.cookie = c)
  ∧ (∀ s d rest, s.cph.done = d :: rest →
    exec .cphCqPop s = .next (emit (.mmioData 1) { s with cph := { s.cph with done := rest, popped := some d } }))
  ∧ (∀ s, s.cph.done = [] → exec .cphCqPop s = .next (emit (.mmioData 0) s))
  ∧ (∀ n o s j, (laneOf n s).job = some j →
    ∃ t d rest, exec (.cphRequestComplete n o) s = .next t ∧ t.cph.done = s.cph.done ++ d :: rest
      ∧ d.result = (jobDone j o s).1 ∧ (j.req.op = 1 → d.result = 0) ∧ (j.req.op = 2 → o.tagOk = false → d.result = 1)
      ∧ (s.cph.queue = [] → (laneOf n s).saved = [] → t.mem = (jobDone j o s).2.mem) ∧ d.lane = n ∧ d.iv = j.iv ∧ d.cookie = j.req.cookie
      ∧ (s.cph.queue = [] → inService n s = true →
          laneOf n t = { job := (laneOf n s).saved.getLast?.map (·.job), saved := (laneOf n s).saved.dropLast }))
  ∧ (∀ n o s, (laneOf n s).job = none → exec (.cphRequestComplete n o) s = .next s)

/-- 06 R152, R153, R156: a durable raise puts the new CEIL in force; INSTANCE is refused while a key slot that the host loads is
ACTIVE (which slots count: the model's reading, log entry 17), else taken, and a changed INSTANCE ends CEIL_ERR with fresh
copies and every counter 0. -/
def Obligations.CeilingAndInstance : Prop :=
  (∀ s c, s.mram.ceilNext = some c → (ceilCopy s).all (fun k => decide (k.seqNo + 1 < 2 ^ 32)) = true →
    ∃ t, exec .ceilRaiseDurable s = .next t ∧ ceilNow t = c)
  ∧ (∀ s, s.mram.ceilNext = none → exec .ceilRaiseDurable s = .next s)
  ∧ (∀ v s, mmioOpen s → anyActive s = true →
    ∃ t, exec (.cphInstanceWrite v) s = .next t ∧ t = raise evCphInstanceRefused (v.toNat % 2 ^ 32) 0 s ∧ t.device = s.device)
  ∧ (∀ v s, mmioOpen s → anyActive s = false → (s.cph.ceilErr = false ∨ s.mram.inst.toNat = v.toNat % 2 ^ 32) →
    exec (.cphInstanceWrite v) s = .next { s with mram := { s.mram with inst := BitVec.ofNat 32 v.toNat } })
  ∧ (∀ v s, mmioOpen s → anyActive s = false → s.cph.ceilErr = true → s.mram.inst.toNat ≠ v.toNat % 2 ^ 32 →
    ∃ t, exec (.cphInstanceWrite v) s = .next t ∧ t.mram.inst.toNat = v.toNat % 2 ^ 32 ∧ t.cph.ceilErr = false ∧ ceilNow t = 2 ^ 20
      ∧ (∀ p ∈ t.cph.ctxSlots ++ t.cph.devSlots, p.2.counter = 0) ∧ t.cph.lanes = s.cph.lanes ∧ t.jrn = s.jrn)

/-! ### The Porter -/

/-- 14 R354-R357, R359, Tables 14-7, 14-8: ALLOC hands a free buffer of a pool that is large enough to its caller, waits, or answers
NO_BUFFER; SHARE, RELEASE, TRANSFER and FREE change the buffer's record as Table 14-7 says; an operation that a check of Table 14-8
refuses leaves every record and pool as it is, and is counted and logged. A second FREE is always refused. -/
def Obligations.PorterOperations : Prop :=
  (∀ owner size wait s p, sizeOk size = true → s.prt.pools.length = 4 → grantPool owner (poolFor size) s = some p →
    ∃ t i, exec (.alloc owner size wait) s = .next t ∧ size ≤ bufBytes p ∧ i < poolCount p ∧ busyBuf (getBuf p i s) = false
      ∧ getBuf p i t = { allocated := true, gen := nextGen (getBuf p i s).gen, owners := [owner], final := 0, returning := false }
      ∧ (∀ q j, (q, j) ≠ (p, i) → getBuf q j t = getBuf q j s) ∧ t.prt.allocs = sat64 s.prt.allocs 1
      ∧ (isCore owner = true →
          t.prt.fwArg = mkHandle (nextGen (getBuf p i s).gen) i p s.mram.prtEpoch ∧ t.prt.fwResult = 0)
      ∧ t.mem = s.mem ∧ t.prt.refusals = s.prt.refusals ∧ t.prt.waiting = s.prt.waiting)
  ∧ (∀ owner size s, sizeOk size = true → grantPool owner (poolFor size) s = none →
    exec (.alloc owner size true) s = .next { s with prt := { s.prt with waiting := s.prt.waiting ++ [(owner, size)] } })
  ∧ (∀ owner size s, sizeOk size = true → grantPool owner (poolFor size) s = none →
    ∃ t, exec (.alloc owner size false) s = .next t ∧ t.prt.noBuffer = sat64 s.prt.noBuffer 1 ∧ t.prt.pools = s.prt.pools
      ∧ (isCore owner = true → t.prt.fwResult = 0x30) ∧ t.prt.waiting = s.prt.waiting ∧ t.mem = s.mem)
  ∧ (∀ owner size wait s, (size = 0 ∨ 8388608 < size) →
    ∃ t, exec (.alloc owner size wait) s = .next t ∧ PorterRefused owner 0 0 (wd size) s t)
  ∧ (∀ owner h new s, s.prt.pools.length = 4 →
    let b := getBuf (hPool h) (hIndex h) s
    (handleGood h s ∧ b.allocated = true ∧ owner ∈ b.owners ∧ new ∉ b.owners ∧ b.owners.length < 8 →
      ∃ t, exec (.share owner h new) s = .next t ∧ BufferBecomes h { b with owners := b.owners ++ [new] } s t)
    ∧ (handleGood h s ∧ b.allocated = true ∧ owner ∈ b.owners ∧ finalOwner b ≠ owner →
      ∃ t c, exec (.release owner h) s = .next t ∧ BufferBecomes h c s t ∧ c.owners = b.owners.filter (· != owner)
        ∧ c.allocated = true ∧ c.gen = b.gen ∧ (finalOwner b ∈ b.owners → finalOwner c = finalOwner b))
    ∧ (handleGood h s ∧ b.allocated = true ∧ owner ∈ b.owners ∧ new ∈ b.owners ∧ finalOwner b = owner ∧ new ≠ owner →
      ∃ t c, exec (.transfer owner h new) s = .next t ∧ BufferBecomes h c s t ∧ c.owners = b.owners.filter (· != owner)
        ∧ c.allocated = true ∧ c.gen = b.gen ∧ finalOwner c = new)
    ∧ (handleGood h s ∧ b.allocated = true ∧ owner ∈ b.owners ∧ finalOwner b = owner ∧ b.owners.length ≤ 1 →
      ∃ t, exec (.free owner h) s = .next t
        ∧ BufferBecomes h { allocated := false, gen := b.gen, owners := [], final := 0, returning := true } s t
        ∧ ∀ other, ∃ u, exec (.free other h) t = .next u ∧ PorterRefused other 4 2 h t u))
  ∧ (∀ owner h new s r,
    (refuseReason 1 owner h new s = some r → ∃ t, exec (.share owner h new) s = .next t ∧ PorterRefused owner 1 r h s t)
    ∧ (refuseReason 2 owner h 0 s = some r → ∃ t, exec (.release owner h) s = .next t ∧ PorterRefused owner 2 r h s t)
    ∧ (refuseReason 3 owner h new s = some r → ∃ t, exec (.transfer owner h new) s = .next t ∧ PorterRefused owner 3 r h s t)
    ∧ (refuseReason 4 owner h 0 s = some r → ∃ t, exec (.free owner h) s = .next t ∧ PorterRefused owner 4 r h s t))
  ∧ (∀ op owner h new s, 1 ≤ op → op ≤ 4 →
    let b := getBuf (hPool h) (hIndex h) s
    (¬ handleGood h s → refuseReason op owner h new s = some 1)
    ∧ (handleGood h s → b.allocated = false → refuseReason op owner h new s = some 2)
    ∧ (handleGood h s → b.allocated = true → owner ∉ b.owners → refuseReason op owner h new s = some 3)
    ∧ (handleGood h s → b.allocated = true → owner ∈ b.owners → finalOwner b = owner → 1 < b.owners.length →
        refuseReason 2 owner h new s = some 4 ∧ refuseReason 4 owner h new s = some 5)
    ∧ (handleGood h s → b.allocated = true → owner ∈ b.owners → finalOwner b ≠ owner →
        refuseReason 4 owner h new s = some 4 ∧ (new ∈ b.owners → refuseReason 3 owner h new s = some 4))
    ∧ (handleGood h s → b.allocated = true → owner ∈ b.owners → new ∈ b.owners → refuseReason 1 owner h new s = some 6)
    ∧ (handleGood h s → b.allocated = true → owner ∈ b.owners → new ∉ b.owners → 8 ≤ b.owners.length →
        refuseReason 1 owner h new s = some 7))

/-! ### Thermal and power -/

/-- 15 R378, R382, R384-R387: a sample sets its sensor's readings; a junction or HBM sensor fails at its third sample over 12
degrees from its consensus, the Weighhouse's outside its range; 10 s after its failure it is lasting. The evaluation lowers
the cap by DOWN_STEPS when a sensor becomes hot, raises it by 1 when all have been cool, and makes it 0 at CRIT; 1 s at CRIT
at step 0 stops the tape. -/
def Obligations.ThermalSamplesAndCap : Prop :=
  (∀ n raw at_ s, s.sys.phase ≠ .off → s.thm.sensors.length = 33 → n < 32 → (getThm n s).state = 0 → (getThm n s).diffs < 2 →
    ∃ t, exec (.thermalSample n raw at_) s = .next t ∧ (getThm n t).raw = raw ∧ (getThm n t).eff = raw ∧ (getThm n t).state = 0
      ∧ (∀ k, k ≠ n → (getThm k t).raw = (getThm k s).raw ∧ (getThm k t).state = (getThm k s).state)
      ∧ t.thm.failures = s.thm.failures ∧ t.thm.cap = s.thm.cap ∧ t.jrn = s.jrn ∧ t.mem = s.mem)
  ∧ (∀ n raw at_ s c2, s.sys.phase ≠ .off → s.thm.sensors.length = 33 → n < 32 → (getThm n s).state = 0 → (getThm n s).diffs = 2 →
      2 ≤ (goodNeighbours n s).length → consensus2 n s = some c2 → agrees raw c2 = false →
    ∃ t, exec (.thermalSample n raw at_) s = .next t ∧ (getThm n t).raw = raw ∧ (getThm n t).state ≠ 0
      ∧ t.thm.failures = sat64 s.thm.failures 1 ∧ t.thm.holdEnd = max s.aon.time at_ + holdCycles ∧ t.jrn = s.jrn ∧ t.mem = s.mem)
  ∧ (∀ raw at_ s, s.sys.phase ≠ .off → s.thm.sensors.length = 33 → (getThm 32 s).state = 0 →
    ∃ t, exec (.thermalSample 32 raw at_) s = .next t ∧ ((getThm 32 t).state = 0 ↔ -320 ≤ raw ∧ raw ≤ 1200)
      ∧ (getThm 32 t).raw = raw ∧ t.jrn = s.jrn ∧ t.mem = s.mem)
  ∧ (∀ n raw at_ s, s.sys.phase = .off → exec (.thermalSample n raw at_) s = .next (atTime at_ s))
  ∧ (∀ n at_ s, (getThm n s).state = 1 → passedMs (getThm n s).failedAt (max s.aon.time at_) 10000 = true →
    ∃ t, exec (.thmSensorLasting n at_) s = .next t ∧ (getThm n t).state = 2 ∧ (∀ k, k ≠ n → getThm k t = getThm k s)
      ∧ t.jrn = s.jrn ∧ t.mem = s.mem)
  ∧ (∀ n at_ s, ((getThm n s).state ≠ 1 ∨ passedMs (getThm n s).failedAt (max s.aon.time at_) 10000 = false) →
    exec (.thmSensorLasting n at_) s = .next (atTime at_ s))
  ∧ (∀ at_ s, s.sys.phase = .running → ((getThm 32 s).state ≠ 0
      ∨ passedMs ((getThm 32 s).lastAt.getD s.sys.readyAt) (max s.aon.time at_) 10 = false) →
    ∃ t, exec (.throttleEvaluation at_) s = .next t ∧ (s.spm.thermalCap = s.thm.cap → t.spm.thermalCap = t.thm.cap)
      ∧ ((critSensor s).isSome = true → t.thm.cap = 0 ∧ t.spm.thermalCap = 0 ∧ t.thm.crit = true)
      ∧ (critSensor s = none → isHot s = true → s.thm.wasHot = false → t.thm.cap = s.thm.cap - s.thm.cfg.downSteps)
      ∧ (critSensor s = none → isHot s = false → isCool s = false → t.thm.cap = s.thm.cap)
      ∧ (critSensor s = none → isHot s = false → isCool s = true → s.thm.holdEnd ≤ max s.aon.time at_ → s.thm.cap < 24 →
          passedMs s.thm.tCool (max s.aon.time at_) s.thm.cfg.upMs = true →
          passedMs s.thm.tUp (max s.aon.time at_) s.thm.cfg.upMs = true → t.thm.cap = s.thm.cap + 1)
      ∧ t.thm.sensors = s.thm.sensors ∧ t.jrn = s.jrn ∧ t.mem = s.mem ∧ t.fmt = s.fmt)
  ∧ (∀ at_ s, s.sys.phase ≠ .running → exec (.throttleEvaluation at_) s = .next (atTime at_ s))
  ∧ (∀ at_ s t0, s.thm.critFrom = some t0 → s.thm.stopped = false → passedMs t0 (max s.aon.time at_) 1000 = true →
    ∃ t, exec (.thermalStop at_) s = .next t ∧ t.thm.stopped = true ∧ t.thm.cap = s.thm.cap ∧ t.thm.sensors = s.thm.sensors
      ∧ t.mem = s.mem)
  ∧ (∀ at_ s, (s.thm.critFrom = none ∨ s.thm.stopped = true) → exec (.thermalStop at_) s = .next (atTime at_ s))

/-- 15 R393-R398, R401, R402: an idle core enters L0 at once and the deepest state that its wake tolerance allows after IDLE_DELAY;
a trigger wakes it, CXL.mem only from L3, and it comes back to run; the cartridge's presence and the slack switch take their new
value. -/
def Obligations.PowerStatesAndPins : Prop :=
  (∀ at_ s, idleNow s = true → deepest s ≠ 0 →
    let k := if s.pwr.now = true ∨ s.pwr.idleDelay = 0
        ∨ (s.pwr.state ≠ 0 ∧ passedMs s.pwr.idleFrom (max s.aon.time at_) s.pwr.idleDelay = true) then reachable s else 1
    (s.pwr.state < k → ∃ t, exec (.idleEntry at_) s = .next t ∧ t.pwr.state = k ∧ wakeMicros k ≤ s.pwr.tolerance
        ∧ k ≤ s.pwr.allowedMax ∧ (k = 4 → s.hif.committed = true → s.hif.memEn = false)
        ∧ (2 ≤ k → ∀ l ∈ t.hlk.lanes, l.active = false) ∧ (k = 1 → t.hlk = s.hlk) ∧ (3 ≤ k → t.aon.reelEn = false)
        ∧ (k = 4 → t.ctx.lines = [] ∧ t.pwr.saved = true) ∧ (k ≠ 4 → t.mem = s.mem ∧ t.ctx = s.ctx) ∧ t.ctx.records = s.ctx.records
        ∧ t.jrn = s.jrn ∧ t.mem.sram = s.mem.sram)
      ∧ (k ≤ s.pwr.state → exec (.idleEntry at_) s = .next (atTime at_ s)))
  ∧ (∀ at_ s, (idleNow s = false ∨ deepest s = 0) → exec (.idleEntry at_) s = .next (atTime at_ s))
  ∧ (∀ k s, (k ≠ .cxlMem ∨ s.pwr.state = 4) → s.pwr.state ≠ 0 →
    exec (.wakeTrigger k) s = .next { s with pwr := { s.pwr with waking := true } })
  ∧ (∀ k s, (s.pwr.state = 0 ∨ (k = .cxlMem ∧ s.pwr.state ≠ 4)) → exec (.wakeTrigger k) s = .next s)
  ∧ (∀ s, s.pwr.state ≠ 0 → exec .wake s = .next { s with pwr := { s.pwr with waking := true } })
  ∧ (∀ s, s.pwr.state = 0 → exec .wake s = .next s)
  ∧ (∀ tr s, s.pwr.waking = true → s.sys.phase = .running →
    ∃ t, exec (.wakeComplete tr) s = .next t ∧ (s.pwr.state ≤ 1 → t.hlk = s.hlk)
      ∧ (s.pwr.state ≤ 1 ∨ s.hlk.state = 4 ∨ (identOk tr.ident = true ∧ s.hlk.wholeRetry = false) →
          t.pwr.state = 0 ∧ t.pwr.waking = false ∧ t.jrn = s.jrn ∧ t.mem.hbm = s.mem.hbm
          ∧ (s.pwr.state ≠ 4 → t.mem.sram = s.mem.sram ∧ t.mram = s.mram)
          ∧ (s.pwr.state = 4 → t.mem.sram = [] ∧ t.mram.cleanMark = false)
          ∧ (3 ≤ s.pwr.state → t.aon.reelEn = s.cart.inDrive.isSome)))
  ∧ (∀ tr s, (s.pwr.waking = false ∨ s.sys.phase ≠ .running) → exec (.wakeComplete tr) s = .next s)
  ∧ (∀ c s, s.aon.cartPresent = false →
    ∃ t, exec (.cartPresenceChange (some c)) s = .next t ∧ t.aon.cartPresent = true ∧ t.cart = { Cart.reset with inDrive := some c }
      ∧ t.fmt = s.fmt ∧ t.jrn = s.jrn ∧ t.mem = s.mem ∧ (s.pwr.state ≠ 0 → t.pwr.waking = true))
  ∧ (∀ s, s.aon.cartPresent = true →
    ∃ t, exec (.cartPresenceChange none) s = .next t ∧ t.aon.cartPresent = false ∧ t.cart.inDrive = none
      ∧ (s.cart.inDrive.isSome = true → t.cart = Cart.reset) ∧ (s.pwr.state ≠ 0 → t.pwr.waking = true))
  ∧ (∀ c s, s.aon.cartPresent = c.isSome → exec (.cartPresenceChange c) s = .next s)
  ∧ (∀ a s, ∃ t, exec (.tapeSlack a) s = .next t ∧ t.aon = { s.aon with slack := a } ∧ t.jrn = s.jrn ∧ t.mem = s.mem
      ∧ ((a = false ∨ s.aon.slack = true) → t.out = s.out ∧ t.hif = s.hif ∧ t.cmd = s.cmd)
      ∧ (a = true → s.aon.slack = false → t = raiseN evPwrTapeSlack { s with aon := { s.aon with slack := a } }))

/-! ### The control cores -/

/-- 17 R440-R443: a kick notes its time; a core that has not kicked for 1 ms is put out of service and retried, and its role goes to
another; with another core out too the device warm-resets; a retry that passes brings the core back, one that fails makes it
lasting. -/
def Obligations.ControlCores : Prop :=
  (∀ c at_ s, c < 4 → s.sys.cores.length = 4 →
    ∃ t, exec (.sysCoreKick c at_) s = .next t ∧ (t.sys.cores[c]?.map (·.lastKick)) = some (max s.aon.time at_)
      ∧ (∀ k, k ≠ c → t.sys.cores[k]? = s.sys.cores[k]?) ∧ t.sys.faulted = s.sys.faulted ∧ t.sys.coresUp = s.sys.coresUp
      ∧ t.jrn = s.jrn ∧ t.mem = s.mem)
  ∧ (∀ c at_ s x, s.sys.cores[c]? = some x →
      (s.sys.phase ≠ .running ∨ 4 ≤ c ∨ coreOut c s = true ∨ passedMs x.lastKick (max s.aon.time at_) 1 = false) →
    exec (.coreWatchdogExpiry c at_) s = .next (atTime at_ s))
  ∧ (∀ c at_ s x, s.sys.cores[c]? = some x → s.sys.phase = .running → c < 4 → coreOut c s = false →
      passedMs x.lastKick (max s.aon.time at_) 1 = true → otherFault c s = true →
    exec (.coreWatchdogExpiry c at_) s = .next (warmReset false 7 (raiseP evSysCoreFault c (atTime at_ s))))
  ∧ (∀ c at_ s x, s.sys.cores[c]? = some x → s.sys.phase = .running → c < 4 → coreOut c s = false →
      passedMs x.lastKick (max s.aon.time at_) 1 = true → otherFault c s = false → interpretedBy c s = [] → x.lastRetry = none →
    ∃ t, exec (.coreWatchdogExpiry c at_) s = .next t ∧ t.sys.faulted.getLsbD c = true ∧ t.sys.coresUp.getLsbD c = false
      ∧ (c = 0 → coreOut 1 s = false → t.sys.tickCore = 1) ∧ (c = 3 → t.sys.mgtCore = 2)
      ∧ t.jrn = s.jrn ∧ t.mem = s.mem ∧ t.fmt = s.fmt)
  ∧ (∀ c at_ s x t1, s.sys.cores[c]? = some x → s.sys.phase = .running → c < 4 → coreOut c s = false →
      passedMs x.lastKick (max s.aon.time at_) 1 = true → otherFault c s = false → interpretedBy c s = [] → x.lastRetry = some t1 →
      passedMs t1 (max s.aon.time at_) 60000 = false →
    ∃ t, exec (.coreWatchdogExpiry c at_) s = .next t ∧ t.sys.lasting.getLsbD c = true ∧ t.sys.coresUp.getLsbD c = false
      ∧ t.jrn = s.jrn ∧ t.mem = s.mem ∧ t.fmt = s.fmt)
  ∧ (∀ c at_ s, s.sys.phase = .running → c < 4 → s.sys.faulted.getLsbD c = true → s.sys.lasting.getLsbD c = false →
    ∃ t, exec (.coreRetryDone c true at_) s = .next t ∧ t.sys.faulted.getLsbD c = false ∧ t.sys.coresUp.getLsbD c = true
      ∧ (∀ k, k ≠ c → t.sys.faulted.getLsbD k = s.sys.faulted.getLsbD k) ∧ t.sys.lasting = s.sys.lasting
      ∧ t.jrn = s.jrn ∧ t.mem = s.mem ∧ t.fmt = s.fmt)
  ∧ (∀ c at_ s, s.sys.phase = .running → c < 4 → s.sys.faulted.getLsbD c = true →
    ∃ t, exec (.coreRetryDone c false at_) s = .next t ∧ t.sys.faulted.getLsbD c = false ∧ t.sys.lasting.getLsbD c = true
      ∧ t.sys.coresUp.getLsbD c = false ∧ t.jrn = s.jrn ∧ t.mem = s.mem ∧ t.fmt = s.fmt)
  ∧ (∀ c ok at_ s, (s.sys.phase ≠ .running ∨ s.sys.faulted.getLsbD c = false) →
    exec (.coreRetryDone c ok at_) s = .next (atTime at_ s))

/-! ### The write path -/

/-- 02 R46, R52, 05 R118, R119, R135: bytes fetched from host memory join the stream of their command, and bytes whose MAC check
failed do not; a range that translates no more ends the command; the next block of the stream is its next 65,536 bytes, FILL
when they are all one byte, RAW at level 0, CODED only when that is shorter, and no lane out of service encodes; a block whose
self-check fails is tried once more and then stored RAW, its lane taken out. -/
def Obligations.BlocksAreEncodedAndChecked : Prop :=
  (∀ jsn bytes macOk s w r e off, s.fmt.writes = [w] → w.jsn = jsn → findRun s jsn = some r → w.ending = none → hostReachable s = true →
      entryAt w.input.length (listFrom w.base r.list) = some (e, off) → e.hdm = false → bytes ≠ [] → bytes.length ≤ e.length - off →
      (entryAt (w.input.length + bytes.length) (listFrom w.base r.list)).all (fun p => !p.1.hdm) = true →
      w.input.length + bytes.length ≤ streamTotal w → w.placedBytes < streamTotal w →
      s.fmt.opened = none → s.fmt.closed = [] → s.fmt.c3Groups = [] →
    (translates (e.address + off) (e.length - off) s = true →
      ∃ t w', exec (.hostRecordFetch jsn bytes macOk) s = .next t ∧ t.fmt.writes = [w']
        ∧ w'.input = (if macOk then w.input ++ bytes else w.input) ∧ w'.encoded = w.encoded ∧ w'.blocks = w.blocks
        ∧ w'.placedBytes = w.placedBytes ∧ w'.ending = none ∧ t.out = s.out ++ [.hostRead (e.address + off) bytes.length]
        ∧ t.jrn = s.jrn ∧ t.mem = s.mem)
    ∧ (translates (e.address + off) (e.length - off) s = false →
      ∃ t, exec (.hostRecordFetch jsn bytes macOk) s = .next t ∧ t.mem = s.mem
        ∧ ∀ w', findWrite jsn t = some w' → w'.ending = some (stInternalFault, none)))
  ∧ (∀ jsn bytes macOk s, (findRun s jsn = none ∨ hostReachable s = false ∨
      ∀ w, findWrite jsn s = some w → w.ending.isSome = true) →
    exec (.hostRecordFetch jsn bytes macOk) s = .next s)
  ∧ (∀ jsn lane s w, findWrite jsn s = some w → w.ending = none → blockReady w = true → laneEncodes lane s = true →
      (w.encoded = 0 → w.persist = true → (getCtx w.ctx s).dict ≠ 0 → placeTurn jsn s = true) →
    ∃ t w' b, exec (.pkrBlockEncoded jsn lane) s = .next t ∧ findWrite jsn t = some w' ∧ w'.blocks = w.blocks ++ [b]
      ∧ b.input = (w.input.drop w.encoded).take 65536 ∧ w'.encoded = w.encoded + b.input.length ∧ b.lane = lane
      ∧ (allSame b.input = true → b.type = 2 ∧ b.payload = b.input.take 1)
      ∧ (allSame b.input = false → w.level = 0 → b.type = 0 ∧ b.payload = b.input)
      ∧ (allSame b.input = false → s.pkr.cDegraded = BitVec.allOnes 8 → b.type = 0 ∧ b.payload = b.input)
      ∧ (b.type = 1 → b.payload.length < b.input.length ∧ 165 ≤ b.payload.length ∧ b.checked = false)
      ∧ w'.input = w.input ∧ w'.placedBytes = w.placedBytes ∧ w'.durable = w.durable ∧ t.jrn = s.jrn ∧ t.mem = s.mem
      ∧ t.pkr.inBytes = sat64 s.pkr.inBytes b.input.length)
  ∧ (∀ jsn lane s, (laneEncodes lane s = false ∨ ∀ w, findWrite jsn s = some w → w.ending.isSome = true ∨ blockReady w = false) →
    exec (.pkrBlockEncoded jsn lane) s = .next s)
  ∧ (∀ jsn lane pass retry s w k b, findWrite jsn s = some w → indexOf? (fun b : EncBlock => !b.checked) w.blocks = some k →
      w.blocks[k]? = some b →
    ∃ t w', exec (.pkrSelfcheck jsn lane pass retry) s = .next t ∧ findWrite jsn t = some w' ∧ t.mem = s.mem ∧ t.fmt.opened = s.fmt.opened
      ∧ (pass = true ∨ retry = true → w'.blocks = w.blocks.modify k (fun b => { b with checked := true }) ∧ w'.encoded = w.encoded
          ∧ t.pkr.cDegraded = s.pkr.cDegraded)
      ∧ (pass = true → t.pkr.selfErrs = s.pkr.selfErrs) ∧ (pass = false → t.pkr.selfErrs = sat64 s.pkr.selfErrs 1)
      ∧ (pass = false → retry = false →
          w'.blocks = w.blocks.take k ++ [{ b with type := 0, hist := false, payload := b.input, checked := true }]
          ∧ t.pkr.cDegraded = s.pkr.cDegraded ||| BitVec.ofNat 8 (2 ^ b.lane)))
  ∧ (∀ jsn lane pass retry s, (∀ w, findWrite jsn s = some w → ∀ b ∈ w.blocks, b.checked = true) →
    exec (.pkrSelfcheck jsn lane pass retry) s = .next s)

/-- 05 R136, 06 R146-R151, 07 R191, 16 R405: a checked block in its turn joins the open frame, or begins a frame whose header
carries the IV drawn for it, the slot's label and the context's tenant; its bytes join those that the frame is to encrypt; the
tenant is metered the block's bytes and not the header's. -/
def Obligations.BlocksArePlacedInFrames : Prop :=
  ∀ jsn lane retry s w o b rest, s.fmt.writes = [w] → w.jsn = jsn → s.fmt.opened = some o → s.fmt.closed = [] → s.fmt.c3Groups = [] →
      w.ending = none → w.filemarks = 0 → placeTurn jsn s = true → s.cart.loaded = true → w.blocks = b :: rest → b.checked = true →
      w.placedBytes + b.input.length < streamTotal w → blockItems b w = [] → o.ds.partition = w.partition → o.ds.apOffset.isSome = true →
      64 + blockLen b ≤ roomLeft o →
    (joinsFrame jsn b [] o = true → o.frameBlocks < 15 →
      ∃ t w' o', exec (.formatterPlaceBlock jsn lane true retry) s = .next t ∧ t.fmt.writes = [w'] ∧ w'.blocks = rest
        ∧ w'.placedBytes = w.placedBytes + b.input.length ∧ w'.nextBlock = w.nextBlock + 1 ∧ w'.durable = w.durable
        ∧ t.fmt.opened = some o' ∧ o'.ds.userBytes = o.ds.userBytes + blockLen b ∧ o'.ds.frames.length = o.ds.frames.length
        ∧ o'.chunk = o.chunk ++ blockBytes b ∧ o'.frameBlocks = o.frameBlocks + 1
        ∧ tabGet 0 o'.tally w.tenant = tabGet 0 o.tally w.tenant + blockLen b
        ∧ (∀ x, x ≠ w.tenant → tabGet 0 o'.tally x = tabGet 0 o.tally x)
        ∧ t.spm.readyBytes = s.spm.readyBytes + blockLen b ∧ t.cph = s.cph ∧ t.jrn = s.jrn ∧ t.mem = s.mem)
    ∧ (o.frameOpen = false → frameFits jsn [] o = true → partitionFull w.partition s = false → w.spent = none →
        framesOpen lane s = true → (getSlot (false, w.ctx) s).use = .active → limitedPhase s = false →
        s.cph.degraded ≠ BitVec.allOnes 8 → (getSlot (false, w.ctx) s).counter < ceilNow s →
        (getSlot (false, w.ctx) s).counter < 2 ^ 63 →
      ∃ t w' o' f, exec (.formatterPlaceBlock jsn lane true retry) s = .next t ∧ t.fmt.writes = [w'] ∧ w'.blocks = rest
        ∧ t.fmt.opened = some o' ∧ o'.frameOpen = true ∧ o'.ds.userBytes = o.ds.userBytes + 32 + blockLen b
        ∧ o'.ds.frames = o.ds.frames ++ [f] ∧ f.alg = 1 ∧ o'.chunk = blockBytes b ∧ f.inLen = b.input.length ∧ f.tenant = w.tenant
        ∧ f.label = (getSlot (false, w.ctx) s).label ∧ f.access = !b.hist
        ∧ f.ivInst + f.ivCount * 2 ^ 32 = (mkIv s.mram.inst (getSlot (false, w.ctx) s).counter).toNat
        ∧ (getSlot (false, w.ctx) t).counter = (getSlot (false, w.ctx) s).counter + 1
        ∧ tabGet 0 o'.tally w.tenant = tabGet 0 o.tally w.tenant + blockLen b ∧ t.jrn = s.jrn ∧ t.mem = s.mem)

/-- 03 R474, 04 R109, 06 R148, 07 R202, R476, 09 R249, R250, 13 R349: the open dataset is closed 100 ms after its latest byte, its
last frame encrypted under the context's key and tagged; a writing run begins when it may with the servo locked and the tape
at the run's step, after one further approach at most; a released data dataset leaves its record and its tally frames and
moves the durable end, unless events are held back; its buffer is free once the record is durable; the status page is written
when it is due. -/
def Obligations.DatasetsCloseRunAndRelease : Prop :=
  (∀ at_ s o, s.fmt.opened = some o → o.itemJsns ≠ [] → o.jsns ≠ [] → o.frameOpen = false →
      passedMs o.lastAt (max s.aon.time at_) 100 = true → s.fmt.writes = [] → s.fmt.c3Groups = [] → s.wh.epochValid = false →
    ∃ t o', exec (.datasetIdleClose at_) s = .next t ∧ t.fmt.opened = none ∧ t.fmt.closed = s.fmt.closed ++ [o']
      ∧ o'.ds.closedEarly = decide (0 < roomLeft o) ∧ o'.ds.userBytes = o.ds.userBytes ∧ o'.ds.items = o.ds.items ∧ o'.tally = o.tally
      ∧ t.jrn = s.jrn ∧ t.mem = s.mem)
  ∧ (∀ at_ s o w f fs, s.fmt.opened = some o → o.itemJsns ≠ [] → o.jsns ≠ [] → o.frameOpen = true → o.ds.frames = fs ++ [f] →
      s.fmt.writes = [w] → o.frameJsn = w.jsn → w.ending = none → allPlaced w = false → 16 ≤ roomLeft o →
      passedMs o.lastAt (max s.aon.time at_) 100 = true → s.fmt.c3Groups = [] → s.wh.epochValid = false →
    ∃ t o', exec (.datasetIdleClose at_) s = .next t ∧ t.fmt.opened = none ∧ t.fmt.closed = s.fmt.closed ++ [o']
      ∧ o'.ds.frames = fs ++ [sealFrame o.ds.partition (slotKey (false, w.ctx) s) o.chunk f]
      ∧ o'.ds.userBytes = o.ds.userBytes + 16 ∧ o'.tally = o.tally ∧ t.jrn = s.jrn ∧ t.mem = s.mem)
  ∧ (∀ at_ s, (∀ o, s.fmt.opened = some o → o.itemJsns = [] ∨ passedMs o.lastAt (max s.aon.time at_) 100 = false) →
    exec (.datasetIdleClose at_) s = .next (atTime at_ s))
  ∧ (∀ at_ s p, s.fmt.closed = [] → s.fmt.c3Groups = [] → s.fmt.run = none → (loadedCart s).isSome = true → tapeHeld s = false →
      tapeDown s = false → s.wh.epochValid = true → firmwareRuns s = true → mayStartRun (atTime at_ s) = true →
      runPartition s = some p → s.mon.lock = true →
    ∃ t r, exec (.writingRunStart at_ true) s = .next t ∧ t.fmt.run = some r ∧ r.partition = p ∧ r.runIn = true ∧ r.ending = false
      ∧ t.spm.mode = 1 ∧ t.mem = s.mem ∧ t.fmt.placeEnd = s.fmt.placeEnd)
  ∧ (∀ at_ atStep s p w, s.fmt.closed = [] → s.fmt.c3Groups = [] → s.fmt.opened = none → s.fmt.run = none →
      (loadedCart s).isSome = true → tapeHeld s = false → tapeDown s = false → s.wh.epochValid = true → firmwareRuns s = true →
      mayStartRun (atTime at_ s) = true → runPartition s = some p → (s.mon.lock = false ∨ atStep = false) →
    (s.fmt.approached = false → exec (.writingRunStart at_ atStep) s
      = .next { atTime at_ s with fmt := { s.fmt with approached := true } })
    ∧ (s.fmt.approached = true → s.fmt.writes = [w] → w.ending = none → allPlaced w = false →
      ∃ t, exec (.writingRunStart at_ atStep) s = .next t ∧ t.fmt.run = none ∧ t.fmt.approached = false ∧ t.mem = s.mem
        ∧ ∀ w' ∈ t.fmt.writes, ∃ n, w'.ending = some (stMediaError, some n)))
  ∧ (∀ at_ atStep s, s.fmt.closed = [] → s.fmt.c3Groups = [] →
      (s.fmt.run.isSome = true ∨ (loadedCart s).isNone = true ∨ tapeHeld s = true ∨ s.wh.epochValid = false) →
    exec (.writingRunStart at_ atStep) s = .next (atTime at_ s))
  ∧ (∀ s, s.cart.statusDue = true → (loadedCart s).isSome = true → s.fmt.run = none →
    ∃ t, exec .cmStatusWrite s = .next t ∧ t.cart.statusDue = false ∧ t.cart.loaded = true ∧ t.fmt = s.fmt ∧ t.jrn = s.jrn ∧ t.mem = s.mem)
  ∧ (∀ s, (s.cart.statusDue = false ∨ loadedCart s = none ∨ s.fmt.run.isSome = true) → exec .cmStatusWrite s = .next s)
  ∧ (∀ s d x, heldBack s = false → releasable s = some d → d.ds.kind = 0 → s.fmt.durableEnd[d.ds.partition]? = some x → s.fmt.writes = [] →
      s.fmt.closed = [] → s.fmt.opened = none → s.fmt.c3Groups = [] →
    ∃ t, exec .datasetRelease s = .next t
      ∧ t.fmt.durableEnd.getD d.ds.partition 0 = d.ds.firstItem + itemCount d.ds
      ∧ (∃ r ∈ t.mram.releases, r.partition = d.ds.partition ∧ r.seq = d.ds.seq ∧ r.endItem = d.ds.firstItem + itemCount d.ds)
      ∧ (∃ fs, t.mram.tallies = s.mram.tallies ++ fs ∧ fs.length = framesNeeded d.tally ∧ (∀ f ∈ fs, f.seq = d.ds.seq))
      ∧ t.mram.nextTsn = s.mram.nextTsn + framesNeeded d.tally ∧ (∀ a ∈ t.fmt.active, a.ds.seq ≠ d.ds.seq)
      ∧ (d.ds.seq, d.buf) ∈ t.fmt.leaving ∧ d.ds.seq ∈ t.mram.releasing ∧ t.fmt.releasedCount = sat64 s.fmt.releasedCount 1
      ∧ t.mem = s.mem)
  ∧ (∀ s, (heldBack s = true ∨ releasable s = none) → exec .datasetRelease s = .next s)
  ∧ (∀ s seq h, s.fmt.leaving.find? (·.1 == seq) = some (seq, h) →
    ∃ t, exec (.releaseRecordDurable seq) s = .next t ∧ t.fmt.leaving = s.fmt.leaving.filter (·.1 != seq)
      ∧ t.mram.releasing = s.mram.releasing.filter (· != seq) ∧ t.mram.releases = s.mram.releases ∧ t.mem = s.mem ∧ t.jrn = s.jrn)
  ∧ (∀ s seq, s.fmt.leaving.find? (·.1 == seq) = none → exec (.releaseRecordDurable seq) s = .next s)

/-! ### The read path -/

/-- 01 R14, 05 R126, R141, 08 R218, R223, 10 R262, R267, R270-R272: a sub-dataset is decoded from its rows and their copies, once
the positions behind have been read where rows are not valid, and one that fails is held as failed; a dataset that is not
found has none; C3 recovers it for every member of the group when at most four are erased; the retry and each pass keep what
they decode, and recovery ends when all is decoded or every means is spent; none of it in synthetic ticks; a block that
decodes on another lane takes its lane out, and one that never decodes is marked. -/
def Obligations.ReadRecoveryOrder : Prop :=
  (∀ q k ahead slots s c d inv r, loadedCart s = some c → tapeDataset q s = some d → s.fmt.run = none → s.sys.synth = false →
      s.tec.recovering = none → k < 16 → readSubset (rereadOf c d slots s) d k ahead s = some (inv, r) →
    ∃ t h, exec (.subdatasetDecode q k true ahead slots) s = .next t ∧ heldOf q t = some h
      ∧ (∀ i, i ∈ h.failed ↔ i < 16 ∧ (isLost s (q, i) = true ∨ (r.ok = false ∧ i = k)))
      ∧ (∀ x, x ≠ q → heldOf x t = heldOf x s)
      ∧ t.tec.subsetFail = (if r.ok then s.tec.subsetFail else sat64 s.tec.subsetFail 1)
      ∧ t.tec.c2Symbols = sat64 s.tec.c2Symbols r.symbols ∧ t.jrn = s.jrn ∧ t.cart = s.cart ∧ t.mem = s.mem)
  ∧ (∀ q k ahead slots s c d, loadedCart s = some c → tapeDataset q s = some d →
      readSubset (rereadOf c d slots s) d k ahead s = none →
    exec (.subdatasetDecode q k true ahead slots) s = .next s)
  ∧ (∀ q k ahead slots s, (tapeDataset q s).isSome = true → s.fmt.run = none → s.sys.synth = false → s.tec.recovering = none → k < 16 →
    ∃ t h, exec (.subdatasetDecode q k false ahead slots) s = .next t ∧ heldOf q t = some h ∧ h.failed = List.range 16
      ∧ h.notFound = true ∧ (∀ x, x ≠ q → heldOf x t = heldOf x s) ∧ t.jrn = s.jrn ∧ t.cart = s.cart ∧ t.mem = s.mem)
  ∧ (∀ q k found ahead slots s, ((tapeDataset q s).isNone = true ∨ s.fmt.run.isSome = true ∨ s.sys.synth = true ∨
      s.tec.recovering.isSome = true ∨ 16 ≤ k) →
    exec (.subdatasetDecode q k found ahead slots) s = .next s)
  ∧ (∀ q k s passes noC3 d c h, s.tec.recovering = some (q, passes, noC3) → tapeDataset q s = some d → loadedCart s = some c →
      s.tec.c3Active = true → heldOf q s = some h → c3Next? h = some k →
    let m := c3Members d (chainOf c d.partition)
    let lost := m.filter fun x => isLost s (x.seq, k)
    ∃ t, exec (.c3Decode q k) s = .next t ∧ t.cart = s.cart ∧ t.mem = s.mem
      ∧ (lost.length ≤ 4 → (∀ x ∈ m, isLost t (x.seq, k) = false) ∧ t.tec.c3Recovered = sat64 s.tec.c3Recovered lost.length
          ∧ t.tec.c3Fail = s.tec.c3Fail ∧ (∀ x i, i ≠ k → isLost t (x, i) = isLost s (x, i)))
      ∧ (4 < lost.length → (∀ x i, isLost t (x, i) = isLost s (x, i)) ∧ t.tec.c3Fail = sat64 s.tec.c3Fail 1
          ∧ t.tec.c3Recovered = s.tec.c3Recovered))
  ∧ (∀ q k s, (s.tec.recovering = none ∨ s.tec.c3Active = false) → exec (.c3Decode q k) s = .next s)
  ∧ (∀ q found slots s passes noC3 c d h, s.tec.recovering = some (q, passes, noC3) → s.tec.rdPass = 15 → s.sys.synth = false →
      loadedCart s = some c → tapeDataset q s = some d → heldOf q s = some h →
    ∃ t h', exec (.readAutoRetry q found slots) s = .next t ∧ heldOf q t = some h' ∧ h'.retried = true ∧ h'.passes = h.passes
      ∧ h'.failed = (if found then h.failed.filter fun k => !(decide (k < 16) && (rereadSubset (rereadOf c d slots s) d h s k).ok)
          else h.failed)
      ∧ (∀ x, x ≠ q → heldOf x t = heldOf x s)
      ∧ (h'.failed = [] → t.tec.recovering = none ∧ (h.passes = 0 → t.tec.rdRetryOk = sat64 s.tec.rdRetryOk 1))
      ∧ (h'.failed ≠ [] → c3Applies q noC3 s = false → h.passes < passes → t.tec.rdPass = h.passes + 1)
      ∧ (h'.failed ≠ [] → c3Applies q noC3 s = false → passes ≤ h.passes → t.tec.recovering = none)
      ∧ t.cart = s.cart ∧ t.mem = s.mem)
  ∧ (∀ q found slots s, (s.tec.recovering = none ∨ s.tec.rdPass ≠ 15 ∨ s.sys.synth = true) →
    exec (.readAutoRetry q found slots) s = .next s)
  ∧ (∀ q found slots s passes noC3 c d h, s.tec.recovering = some (q, passes, noC3) → s.tec.rdPass ≠ 0 → s.tec.rdPass ≠ 15 →
      s.sys.synth = false → loadedCart s = some c → tapeDataset q s = some d → heldOf q s = some h → h.retried = true →
    let x := passReading s.tec.rdPass (rereadOf c d slots s)
    let s2 := if s.tec.rdPass = 2 then adaptOver x q s else s
    ∃ t h', exec (.recoveryPass q found slots) s = .next t ∧ heldOf q t = some h' ∧ h'.passes = h.passes + 1
      ∧ h'.failed = (if found then h.failed.filter fun k => !(decide (k < 16) && (rereadSubset x d h s2 k).ok) else h.failed)
      ∧ (∀ x, x ≠ q → heldOf x t = heldOf x s)
      ∧ (h'.failed = [] → t.tec.recovering = none)
      ∧ (h'.failed ≠ [] → c3Applies q noC3 s = false → h'.passes < passes → t.tec.rdPass = h'.passes + 1)
      ∧ (h'.failed ≠ [] → c3Applies q noC3 s = false → passes ≤ h'.passes → t.tec.recovering = none)
      ∧ t.cart = s.cart ∧ t.mem = s.mem)
  ∧ (∀ q found slots s, (s.tec.recovering = none ∨ s.tec.rdPass = 0 ∨ s.tec.rdPass = 15 ∨ s.sys.synth = true) →
    exec (.recoveryPass q found slots) s = .next s)
  ∧ (∀ jsn lane rec_ block hist glitch lane2 s, isReading jsn s = true → abfDecode block hist = none →
    ∃ t, exec (.pkrBlockDecoded jsn lane rec_ block hist glitch lane2) s = .next t
      ∧ t.tec.badBlocks = s.tec.badBlocks ++ [(jsn, rec_)] ∧ t.pkr.decodeErrs = sat64 s.pkr.decodeErrs 1
      ∧ t.pkr.dDegraded = s.pkr.dDegraded ∧ t.jrn = s.jrn ∧ t.mem = s.mem)
  ∧ (∀ jsn lane rec_ block hist lane2 s, isReading jsn s = true → (abfDecode block hist).isSome = true →
    ∃ t, exec (.pkrBlockDecoded jsn lane rec_ block hist true lane2) s = .next t
      ∧ t.tec.badBlocks = s.tec.badBlocks ∧ t.pkr.decodeErrs = sat64 s.pkr.decodeErrs 1
      ∧ (lane2 = lane → t.pkr.dDegraded = s.pkr.dDegraded)
      ∧ (lane2 ≠ lane → t.pkr.dDegraded = s.pkr.dDegraded ||| BitVec.ofNat 8 (2 ^ (lane % 8))) ∧ t.mem = s.mem)
  ∧ (∀ jsn lane rec_ block hist glitch lane2 s,
      (isReading jsn s = false ∨ ((abfDecode block hist).isSome = true ∧ glitch = false)) →
    exec (.pkrBlockDecoded jsn lane rec_ block hist glitch lane2) s = .next s)
end

