-- ==== Sys2Proof/Laws/Bytes.lean ====
section
/-! SUPPORT. Bytes and the numbers that they hold (00 R8): each of `leBytes` and `leNat` undoes the other. -/

namespace Sys2Proof.Machine

@[simp] theorem leBytes_length (k x : Nat) : (leBytes k x).length = k := by
  induction k generalizing x with
  | zero => rfl
  | succ k ih => simp [leBytes, ih]

theorem leNat_lt (l : List Byte) : leNat l < 256 ^ l.length := by
  induction l with
  | nil => simp [leNat]
  | cons b t ih =>
    have := b.isLt
    simp only [leNat, List.length_cons, Nat.pow_succ]
    omega

theorem leBytes_leNat (l : List Byte) : leBytes l.length (leNat l) = l := by
  induction l with
  | nil => rfl
  | cons b t ih =>
    have h := b.isLt
    simp only [List.length_cons, leBytes, leNat, List.cons.injEq]
    refine ⟨BitVec.eq_of_toNat_eq ?_, ?_⟩
    · rw [BitVec.toNat_ofNat]; omega
    · rw [show (b.toNat + 256 * leNat t) / 256 = leNat t by omega, ih]

theorem leNat_leBytes (k x : Nat) (h : x < 256 ^ k) : leNat (leBytes k x) = x := by
  induction k generalizing x with
  | zero => simp at h; simp [leBytes, leNat, h]
  | succ k ih =>
    rw [Nat.pow_succ] at h
    simp only [leBytes, leNat, BitVec.toNat_ofNat]
    rw [ih (x / 256) (by omega)]
    omega

end Sys2Proof.Machine
end

