-- ==== Sys2Proof/Laws/Tables.lean ====
section
/-! SUPPORT. Laws of sparse tables, of rising lists, and of the canonical form of memory; folds, choices and options that keep
a field. -/

namespace Sys2Proof.Machine

/-- The state in which the start of a frame leaves the machine. -/
def FrameStart.left : FrameStart → State
  | .ready _ _ _ s => s
  | .waits s => s
  | .ends _ s => s

/-- What few commands change: the tenant meters, the next JSN and INSTANCE. -/
def State.kept (s : State) : Table Meter × Nat × BitVec 32 := (s.whd.meters, s.jrn.nextJsn, s.mram.inst)

end Sys2Proof.Machine

namespace Sys2Proof.Laws

open Sys2Proof.Machine

theorem tabWfFrom_mono {α : Type} [DecidableEq α] {d : α} {lo lo' : Nat} {t : Table α} (hl : lo' ≤ lo)
    (h : tabWfFrom d lo t = true) : tabWfFrom d lo' t = true := by
  cases t with
  | nil => rfl
  | cons p t =>
    simp only [tabWfFrom, Bool.and_eq_true, decide_eq_true_eq] at h ⊢
    exact ⟨⟨by omega, h.1.2⟩, h.2⟩

theorem tabWfFrom_filter {α : Type} [DecidableEq α] {d : α} (p : Nat × α → Bool) {lo : Nat} {t : Table α}
    (h : tabWfFrom d lo t = true) : tabWfFrom d lo (t.filter p) = true := by
  induction t generalizing lo with
  | nil => rfl
  | cons q t ih =>
    simp only [tabWfFrom, Bool.and_eq_true, decide_eq_true_eq] at h
    obtain ⟨⟨h1, h2⟩, h3⟩ := h
    rw [List.filter_cons]
    split
    · simp [tabWfFrom, h1, h2, ih h3]
    · exact tabWfFrom_mono (by omega) (ih h3)

theorem tabPut_wfFrom {α : Type} [DecidableEq α] {d : α} {lo a : Nat} {x : α} (hx : x ≠ d) {t : Table α} (hl : lo ≤ a)
    (h : tabWfFrom d lo t = true) : tabWfFrom d lo (tabPut a x t) = true := by
  induction t generalizing lo with
  | nil => simp [tabPut, tabWfFrom, hl, hx]
  | cons p t ih =>
    obtain ⟨k, v⟩ := p
    simp only [tabWfFrom, Bool.and_eq_true, decide_eq_true_eq] at h
    obtain ⟨⟨h1, h2⟩, h3⟩ := h
    unfold tabPut
    split
    · simp [tabWfFrom, hl, hx, h2, h3]; omega
    · split
      · subst_vars; simp [tabWfFrom, *]
      · simp [tabWfFrom, h1, h2]; exact ih (by omega) h3

theorem tabSet_wfFrom {α : Type} [DecidableEq α] {d : α} {lo a : Nat} (x : α) {t : Table α} (hl : lo ≤ a)
    (h : tabWfFrom d lo t = true) : tabWfFrom d lo (tabSet d a x t) = true := by
  unfold tabSet; split
  · exact tabWfFrom_filter _ h
  · rename_i hx; exact tabPut_wfFrom hx hl h

theorem tabSet_wf {α : Type} [DecidableEq α] {d : α} (a : Nat) (x : α) {t : Table α} (h : tabWf d t = true) :
    tabWf d (tabSet d a x t) = true := tabSet_wfFrom x (Nat.zero_le a) h

theorem tabWf_filter {α : Type} [DecidableEq α] {d : α} (p : Nat × α → Bool) {t : Table α} (h : tabWf d t = true) :
    tabWf d (t.filter p) = true := tabWfFrom_filter p h

theorem risingFrom_mono {lo lo' : Nat} {t : List Nat} (hl : lo' ≤ lo) (h : risingFrom lo t = true) :
    risingFrom lo' t = true := by
  cases t with
  | nil => rfl
  | cons p t =>
    simp only [risingFrom, Bool.and_eq_true, decide_eq_true_eq] at h ⊢
    exact ⟨by omega, h.2⟩

theorem insertNat_risingFrom {lo a : Nat} {t : List Nat} (hl : lo ≤ a) (h : risingFrom lo t = true) :
    risingFrom lo (insertNat a t) = true := by
  induction t generalizing lo with
  | nil => simp [insertNat, risingFrom, hl]
  | cons k t ih =>
    simp only [risingFrom, Bool.and_eq_true, decide_eq_true_eq] at h
    unfold insertNat
    split
    · simp [risingFrom, hl, h.2]; omega
    · split
      · simp [risingFrom, h]
      · simp [risingFrom, h.1]; exact ih (by omega) h.2

theorem insertNat_rising (a : Nat) {t : List Nat} (h : risingFrom 0 t = true) : risingFrom 0 (insertNat a t) = true :=
  insertNat_risingFrom (Nat.zero_le a) h

theorem risingFrom_filter (p : Nat → Bool) {lo : Nat} {t : List Nat} (h : risingFrom lo t = true) :
    risingFrom lo (t.filter p) = true := by
  induction t generalizing lo with
  | nil => rfl
  | cons k t ih =>
    simp only [risingFrom, Bool.and_eq_true, decide_eq_true_eq] at h
    rw [List.filter_cons]
    split
    · simp [risingFrom, h.1, ih h.2]
    · exact risingFrom_mono (by omega) (ih h.2)

theorem insertNats_rising (l : List Nat) {t : List Nat} (h : risingFrom 0 t = true) :
    risingFrom 0 (l.foldl (fun l a => insertNat a l) t) = true := by
  induction l generalizing t with
  | nil => exact h
  | cons a l ih => exact ih (insertNat_rising a h)

theorem putBytes_wf (a : Nat) (l : List Byte) {m : List Host.Cell} (h : tabWf 0 m = true) :
    tabWf 0 (putBytes a l m) = true := by
  unfold putBytes
  generalize l.zipIdx = z
  induction z generalizing m with
  | nil => exact h
  | cons p z ih => exact ih (tabSet_wf (a + p.2) p.1 h)

/-- The canonical form, part by part. -/

theorem memoryWf_parts (m : Mem) : Memory.wf m = true ↔
    tabWf 0 m.hbm = true ∧ tabWf 0 m.sram = true ∧ risingFrom 0 m.written = true ∧ risingFrom 0 m.hbmPoison = true
      ∧ risingFrom 0 m.sramPoison = true ∧ tabWf 0 m.hbmErr = true ∧ tabWf 0 m.sramErr = true := by
  simp [Memory.wf, and_assoc]

@[simp] theorem foldl_mem {α : Type} {f : State → α → State} (hf : ∀ s x, (f s x).mem = s.mem) (l : List α) (s : State) :
    (l.foldl f s).mem = s.mem := by
  induction l generalizing s with
  | nil => rfl
  | cons a t ih => rw [List.foldl_cons, ih, hf]

@[simp] theorem ite_mem (c : Prop) [Decidable c] (a b : State) : (if c then a else b).mem = if c then a.mem else b.mem := by
  split <;> rfl

@[simp] theorem foldl_wf {α : Type} {f : State → α → State}
    (hf : ∀ s x, Memory.wf s.mem = true → Memory.wf (f s x).mem = true) (l : List α) (s : State)
    (h : Memory.wf s.mem = true) : Memory.wf (l.foldl f s).mem = true := by
  induction l generalizing s with
  | nil => exact h
  | cons a t ih => exact ih _ (hf s a h)

theorem ite_wf (c : Prop) [Decidable c] (a b : Mem) (ha : Memory.wf a = true) (hb : Memory.wf b = true) :
    Memory.wf (if c then a else b) = true := by
  split <;> assumption

theorem optMap_mem {f : State → State} (hf : ∀ s, (f s).mem = s.mem) {o : Option State} {m : Mem}
    (ho : ∀ r, o = some r → r.mem = m) (r : State) (h : o.map f = some r) : r.mem = m := by
  cases o with
  | none => cases h
  | some u => cases h; rw [hf, ho u rfl]

theorem getD_mem {o : Option State} {m : Mem} (ho : ∀ r, o = some r → r.mem = m) (s : State) (hs : s.mem = m) :
    (o.getD s).mem = m := by
  cases o with
  | none => exact hs
  | some u => exact ho u rfl

/-- The memory of a reset device is in its canonical form. -/
theorem reset_memory : Memory.wf State.reset.mem = true := rfl

end Sys2Proof.Laws
end

