-- ==== Sys2Proof/Laws/State.lean ====
section
/-! SUPPORT. What each named update of the state leaves as it is, field by field, and what sparse
tables hold after a write. -/

namespace Sys2Proof.Laws

open Sys2Proof.Machine

/-! ### The fields that each update leaves -/

@[simp] theorem emit_sys (o : Output) (s : State) : (emit o s).sys = s.sys := rfl
@[simp] theorem emit_hif (o : Output) (s : State) : (emit o s).hif = s.hif := rfl
@[simp] theorem emit_cmd (o : Output) (s : State) : (emit o s).cmd = s.cmd := rfl
@[simp] theorem emit_jrn (o : Output) (s : State) : (emit o s).jrn = s.jrn := rfl
@[simp] theorem emit_ctx (o : Output) (s : State) : (emit o s).ctx = s.ctx := rfl
@[simp] theorem emit_pkr (o : Output) (s : State) : (emit o s).pkr = s.pkr := rfl
@[simp] theorem emit_cph (o : Output) (s : State) : (emit o s).cph = s.cph := rfl
@[simp] theorem emit_fmt (o : Output) (s : State) : (emit o s).fmt = s.fmt := rfl
@[simp] theorem emit_tec (o : Output) (s : State) : (emit o s).tec = s.tec := rfl
@[simp] theorem emit_vfy (o : Output) (s : State) : (emit o s).vfy = s.vfy := rfl
@[simp] theorem emit_hlk (o : Output) (s : State) : (emit o s).hlk = s.hlk := rfl
@[simp] theorem emit_drv (o : Output) (s : State) : (emit o s).drv = s.drv := rfl
@[simp] theorem emit_mon (o : Output) (s : State) : (emit o s).mon = s.mon := rfl
@[simp] theorem emit_spm (o : Output) (s : State) : (emit o s).spm = s.spm := rfl
@[simp] theorem emit_prt (o : Output) (s : State) : (emit o s).prt = s.prt := rfl
@[simp] theorem emit_mem (o : Output) (s : State) : (emit o s).mem = s.mem := rfl
@[simp] theorem emit_thm (o : Output) (s : State) : (emit o s).thm = s.thm := rfl
@[simp] theorem emit_pwr (o : Output) (s : State) : (emit o s).pwr = s.pwr := rfl
@[simp] theorem emit_aon (o : Output) (s : State) : (emit o s).aon = s.aon := rfl
@[simp] theorem emit_wh (o : Output) (s : State) : (emit o s).wh = s.wh := rfl
@[simp] theorem emit_whd (o : Output) (s : State) : (emit o s).whd = s.whd := rfl
@[simp] theorem emit_mram (o : Output) (s : State) : (emit o s).mram = s.mram := rfl
@[simp] theorem emit_cart (o : Output) (s : State) : (emit o s).cart = s.cart := rfl
@[simp] theorem emit_mgt (o : Output) (s : State) : (emit o s).mgt = s.mgt := rfl
@[simp] theorem emit_pending (o : Output) (s : State) : (emit o s).pending = s.pending := rfl
@[simp] theorem emit_freeCount (o : Output) (s : State) : (emit o s).freeCount = s.freeCount := rfl
@[simp] theorem hostFetch_sys (addr len : Nat) (s : State) : (hostFetch addr len s).sys = s.sys := rfl
@[simp] theorem hostFetch_cmd (addr len : Nat) (s : State) : (hostFetch addr len s).cmd = s.cmd := rfl
@[simp] theorem hostFetch_jrn (addr len : Nat) (s : State) : (hostFetch addr len s).jrn = s.jrn := rfl
@[simp] theorem hostFetch_ctx (addr len : Nat) (s : State) : (hostFetch addr len s).ctx = s.ctx := rfl
@[simp] theorem hostFetch_pkr (addr len : Nat) (s : State) : (hostFetch addr len s).pkr = s.pkr := rfl
@[simp] theorem hostFetch_cph (addr len : Nat) (s : State) : (hostFetch addr len s).cph = s.cph := rfl
@[simp] theorem hostFetch_fmt (addr len : Nat) (s : State) : (hostFetch addr len s).fmt = s.fmt := rfl
@[simp] theorem hostFetch_tec (addr len : Nat) (s : State) : (hostFetch addr len s).tec = s.tec := rfl
@[simp] theorem hostFetch_vfy (addr len : Nat) (s : State) : (hostFetch addr len s).vfy = s.vfy := rfl
@[simp] theorem hostFetch_hlk (addr len : Nat) (s : State) : (hostFetch addr len s).hlk = s.hlk := rfl
@[simp] theorem hostFetch_drv (addr len : Nat) (s : State) : (hostFetch addr len s).drv = s.drv := rfl
@[simp] theorem hostFetch_mon (addr len : Nat) (s : State) : (hostFetch addr len s).mon = s.mon := rfl
@[simp] theorem hostFetch_spm (addr len : Nat) (s : State) : (hostFetch addr len s).spm = s.spm := rfl
@[simp] theorem hostFetch_prt (addr len : Nat) (s : State) : (hostFetch addr len s).prt = s.prt := rfl
@[simp] theorem hostFetch_mem (addr len : Nat) (s : State) : (hostFetch addr len s).mem = s.mem := rfl
@[simp] theorem hostFetch_thm (addr len : Nat) (s : State) : (hostFetch addr len s).thm = s.thm := rfl
@[simp] theorem hostFetch_pwr (addr len : Nat) (s : State) : (hostFetch addr len s).pwr = s.pwr := rfl
@[simp] theorem hostFetch_aon (addr len : Nat) (s : State) : (hostFetch addr len s).aon = s.aon := rfl
@[simp] theorem hostFetch_wh (addr len : Nat) (s : State) : (hostFetch addr len s).wh = s.wh := rfl
@[simp] theorem hostFetch_whd (addr len : Nat) (s : State) : (hostFetch addr len s).whd = s.whd := rfl
@[simp] theorem hostFetch_mram (addr len : Nat) (s : State) : (hostFetch addr len s).mram = s.mram := rfl
@[simp] theorem hostFetch_cart (addr len : Nat) (s : State) : (hostFetch addr len s).cart = s.cart := rfl
@[simp] theorem hostFetch_mgt (addr len : Nat) (s : State) : (hostFetch addr len s).mgt = s.mgt := rfl
@[simp] theorem hostFetch_pending (addr len : Nat) (s : State) : (hostFetch addr len s).pending = s.pending := rfl
@[simp] theorem hostFetch_freeCount (addr len : Nat) (s : State) : (hostFetch addr len s).freeCount = s.freeCount := rfl
@[simp] theorem hostStore_sys (addr : Nat) (l : List Byte) (s : State) : (hostStore addr l s).sys = s.sys := rfl
@[simp] theorem hostStore_cmd (addr : Nat) (l : List Byte) (s : State) : (hostStore addr l s).cmd = s.cmd := rfl
@[simp] theorem hostStore_jrn (addr : Nat) (l : List Byte) (s : State) : (hostStore addr l s).jrn = s.jrn := rfl
@[simp] theorem hostStore_ctx (addr : Nat) (l : List Byte) (s : State) : (hostStore addr l s).ctx = s.ctx := rfl
@[simp] theorem hostStore_pkr (addr : Nat) (l : List Byte) (s : State) : (hostStore addr l s).pkr = s.pkr := rfl
@[simp] theorem hostStore_cph (addr : Nat) (l : List Byte) (s : State) : (hostStore addr l s).cph = s.cph := rfl
@[simp] theorem hostStore_fmt (addr : Nat) (l : List Byte) (s : State) : (hostStore addr l s).fmt = s.fmt := rfl
@[simp] theorem hostStore_tec (addr : Nat) (l : List Byte) (s : State) : (hostStore addr l s).tec = s.tec := rfl
@[simp] theorem hostStore_vfy (addr : Nat) (l : List Byte) (s : State) : (hostStore addr l s).vfy = s.vfy := rfl
@[simp] theorem hostStore_hlk (addr : Nat) (l : List Byte) (s : State) : (hostStore addr l s).hlk = s.hlk := rfl
@[simp] theorem hostStore_drv (addr : Nat) (l : List Byte) (s : State) : (hostStore addr l s).drv = s.drv := rfl
@[simp] theorem hostStore_mon (addr : Nat) (l : List Byte) (s : State) : (hostStore addr l s).mon = s.mon := rfl
@[simp] theorem hostStore_spm (addr : Nat) (l : List Byte) (s : State) : (hostStore addr l s).spm = s.spm := rfl
@[simp] theorem hostStore_prt (addr : Nat) (l : List Byte) (s : State) : (hostStore addr l s).prt = s.prt := rfl
@[simp] theorem hostStore_mem (addr : Nat) (l : List Byte) (s : State) : (hostStore addr l s).mem = s.mem := rfl
@[simp] theorem hostStore_thm (addr : Nat) (l : List Byte) (s : State) : (hostStore addr l s).thm = s.thm := rfl
@[simp] theorem hostStore_pwr (addr : Nat) (l : List Byte) (s : State) : (hostStore addr l s).pwr = s.pwr := rfl
@[simp] theorem hostStore_aon (addr : Nat) (l : List Byte) (s : State) : (hostStore addr l s).aon = s.aon := rfl
@[simp] theorem hostStore_wh (addr : Nat) (l : List Byte) (s : State) : (hostStore addr l s).wh = s.wh := rfl
@[simp] theorem hostStore_whd (addr : Nat) (l : List Byte) (s : State) : (hostStore addr l s).whd = s.whd := rfl
@[simp] theorem hostStore_mram (addr : Nat) (l : List Byte) (s : State) : (hostStore addr l s).mram = s.mram := rfl
@[simp] theorem hostStore_cart (addr : Nat) (l : List Byte) (s : State) : (hostStore addr l s).cart = s.cart := rfl
@[simp] theorem hostStore_mgt (addr : Nat) (l : List Byte) (s : State) : (hostStore addr l s).mgt = s.mgt := rfl
@[simp] theorem hostStore_pending (addr : Nat) (l : List Byte) (s : State) : (hostStore addr l s).pending = s.pending := rfl
@[simp] theorem hostStore_freeCount (addr : Nat) (l : List Byte) (s : State) : (hostStore addr l s).freeCount = s.freeCount := rfl
@[simp] theorem drawFree_sys (s : State) : (drawFree s).sys = s.sys := rfl
@[simp] theorem drawFree_hif (s : State) : (drawFree s).hif = s.hif := rfl
@[simp] theorem drawFree_cmd (s : State) : (drawFree s).cmd = s.cmd := rfl
@[simp] theorem drawFree_jrn (s : State) : (drawFree s).jrn = s.jrn := rfl
@[simp] theorem drawFree_ctx (s : State) : (drawFree s).ctx = s.ctx := rfl
@[simp] theorem drawFree_pkr (s : State) : (drawFree s).pkr = s.pkr := rfl
@[simp] theorem drawFree_cph (s : State) : (drawFree s).cph = s.cph := rfl
@[simp] theorem drawFree_fmt (s : State) : (drawFree s).fmt = s.fmt := rfl
@[simp] theorem drawFree_tec (s : State) : (drawFree s).tec = s.tec := rfl
@[simp] theorem drawFree_vfy (s : State) : (drawFree s).vfy = s.vfy := rfl
@[simp] theorem drawFree_hlk (s : State) : (drawFree s).hlk = s.hlk := rfl
@[simp] theorem drawFree_drv (s : State) : (drawFree s).drv = s.drv := rfl
@[simp] theorem drawFree_mon (s : State) : (drawFree s).mon = s.mon := rfl
@[simp] theorem drawFree_spm (s : State) : (drawFree s).spm = s.spm := rfl
@[simp] theorem drawFree_prt (s : State) : (drawFree s).prt = s.prt := rfl
@[simp] theorem drawFree_mem (s : State) : (drawFree s).mem = s.mem := rfl
@[simp] theorem drawFree_thm (s : State) : (drawFree s).thm = s.thm := rfl
@[simp] theorem drawFree_pwr (s : State) : (drawFree s).pwr = s.pwr := rfl
@[simp] theorem drawFree_aon (s : State) : (drawFree s).aon = s.aon := rfl
@[simp] theorem drawFree_wh (s : State) : (drawFree s).wh = s.wh := rfl
@[simp] theorem drawFree_whd (s : State) : (drawFree s).whd = s.whd := rfl
@[simp] theorem drawFree_mram (s : State) : (drawFree s).mram = s.mram := rfl
@[simp] theorem drawFree_cart (s : State) : (drawFree s).cart = s.cart := rfl
@[simp] theorem drawFree_mgt (s : State) : (drawFree s).mgt = s.mgt := rfl
@[simp] theorem drawFree_pending (s : State) : (drawFree s).pending = s.pending := rfl
@[simp] theorem drawFree_out (s : State) : (drawFree s).out = s.out := rfl
@[simp] theorem atTime_sys (t : Nat) (s : State) : (atTime t s).sys = s.sys := rfl
@[simp] theorem atTime_hif (t : Nat) (s : State) : (atTime t s).hif = s.hif := rfl
@[simp] theorem atTime_cmd (t : Nat) (s : State) : (atTime t s).cmd = s.cmd := rfl
@[simp] theorem atTime_jrn (t : Nat) (s : State) : (atTime t s).jrn = s.jrn := rfl
@[simp] theorem atTime_ctx (t : Nat) (s : State) : (atTime t s).ctx = s.ctx := rfl
@[simp] theorem atTime_pkr (t : Nat) (s : State) : (atTime t s).pkr = s.pkr := rfl
@[simp] theorem atTime_cph (t : Nat) (s : State) : (atTime t s).cph = s.cph := rfl
@[simp] theorem atTime_fmt (t : Nat) (s : State) : (atTime t s).fmt = s.fmt := rfl
@[simp] theorem atTime_tec (t : Nat) (s : State) : (atTime t s).tec = s.tec := rfl
@[simp] theorem atTime_vfy (t : Nat) (s : State) : (atTime t s).vfy = s.vfy := rfl
@[simp] theorem atTime_hlk (t : Nat) (s : State) : (atTime t s).hlk = s.hlk := rfl
@[simp] theorem atTime_drv (t : Nat) (s : State) : (atTime t s).drv = s.drv := rfl
@[simp] theorem atTime_mon (t : Nat) (s : State) : (atTime t s).mon = s.mon := rfl
@[simp] theorem atTime_spm (t : Nat) (s : State) : (atTime t s).spm = s.spm := rfl
@[simp] theorem atTime_prt (t : Nat) (s : State) : (atTime t s).prt = s.prt := rfl
@[simp] theorem atTime_mem (t : Nat) (s : State) : (atTime t s).mem = s.mem := rfl
@[simp] theorem atTime_thm (t : Nat) (s : State) : (atTime t s).thm = s.thm := rfl
@[simp] theorem atTime_pwr (t : Nat) (s : State) : (atTime t s).pwr = s.pwr := rfl
@[simp] theorem atTime_wh (t : Nat) (s : State) : (atTime t s).wh = s.wh := rfl
@[simp] theorem atTime_whd (t : Nat) (s : State) : (atTime t s).whd = s.whd := rfl
@[simp] theorem atTime_mram (t : Nat) (s : State) : (atTime t s).mram = s.mram := rfl
@[simp] theorem atTime_cart (t : Nat) (s : State) : (atTime t s).cart = s.cart := rfl
@[simp] theorem atTime_mgt (t : Nat) (s : State) : (atTime t s).mgt = s.mgt := rfl
@[simp] theorem atTime_pending (t : Nat) (s : State) : (atTime t s).pending = s.pending := rfl
@[simp] theorem atTime_out (t : Nat) (s : State) : (atTime t s).out = s.out := rfl
@[simp] theorem atTime_freeCount (t : Nat) (s : State) : (atTime t s).freeCount = s.freeCount := rfl
@[simp] theorem setRun_sys (j : Nat) (f : RunInfo → RunInfo) (s : State) : (setRun j f s).sys = s.sys := rfl
@[simp] theorem setRun_hif (j : Nat) (f : RunInfo → RunInfo) (s : State) : (setRun j f s).hif = s.hif := rfl
@[simp] theorem setRun_cmd (j : Nat) (f : RunInfo → RunInfo) (s : State) : (setRun j f s).cmd = s.cmd := rfl
@[simp] theorem setRun_ctx (j : Nat) (f : RunInfo → RunInfo) (s : State) : (setRun j f s).ctx = s.ctx := rfl
@[simp] theorem setRun_pkr (j : Nat) (f : RunInfo → RunInfo) (s : State) : (setRun j f s).pkr = s.pkr := rfl
@[simp] theorem setRun_cph (j : Nat) (f : RunInfo → RunInfo) (s : State) : (setRun j f s).cph = s.cph := rfl
@[simp] theorem setRun_fmt (j : Nat) (f : RunInfo → RunInfo) (s : State) : (setRun j f s).fmt = s.fmt := rfl
@[simp] theorem setRun_tec (j : Nat) (f : RunInfo → RunInfo) (s : State) : (setRun j f s).tec = s.tec := rfl
@[simp] theorem setRun_vfy (j : Nat) (f : RunInfo → RunInfo) (s : State) : (setRun j f s).vfy = s.vfy := rfl
@[simp] theorem setRun_hlk (j : Nat) (f : RunInfo → RunInfo) (s : State) : (setRun j f s).hlk = s.hlk := rfl
@[simp] theorem setRun_drv (j : Nat) (f : RunInfo → RunInfo) (s : State) : (setRun j f s).drv = s.drv := rfl
@[simp] theorem setRun_mon (j : Nat) (f : RunInfo → RunInfo) (s : State) : (setRun j f s).mon = s.mon := rfl
@[simp] theorem setRun_spm (j : Nat) (f : RunInfo → RunInfo) (s : State) : (setRun j f s).spm = s.spm := rfl
@[simp] theorem setRun_prt (j : Nat) (f : RunInfo → RunInfo) (s : State) : (setRun j f s).prt = s.prt := rfl
@[simp] theorem setRun_mem (j : Nat) (f : RunInfo → RunInfo) (s : State) : (setRun j f s).mem = s.mem := rfl
@[simp] theorem setRun_thm (j : Nat) (f : RunInfo → RunInfo) (s : State) : (setRun j f s).thm = s.thm := rfl
@[simp] theorem setRun_pwr (j : Nat) (f : RunInfo → RunInfo) (s : State) : (setRun j f s).pwr = s.pwr := rfl
@[simp] theorem setRun_aon (j : Nat) (f : RunInfo → RunInfo) (s : State) : (setRun j f s).aon = s.aon := rfl
@[simp] theorem setRun_wh (j : Nat) (f : RunInfo → RunInfo) (s : State) : (setRun j f s).wh = s.wh := rfl
@[simp] theorem setRun_whd (j : Nat) (f : RunInfo → RunInfo) (s : State) : (setRun j f s).whd = s.whd := rfl
@[simp] theorem setRun_mram (j : Nat) (f : RunInfo → RunInfo) (s : State) : (setRun j f s).mram = s.mram := rfl
@[simp] theorem setRun_cart (j : Nat) (f : RunInfo → RunInfo) (s : State) : (setRun j f s).cart = s.cart := rfl
@[simp] theorem setRun_mgt (j : Nat) (f : RunInfo → RunInfo) (s : State) : (setRun j f s).mgt = s.mgt := rfl
@[simp] theorem setRun_pending (j : Nat) (f : RunInfo → RunInfo) (s : State) : (setRun j f s).pending = s.pending := rfl
@[simp] theorem setRun_out (j : Nat) (f : RunInfo → RunInfo) (s : State) : (setRun j f s).out = s.out := rfl
@[simp] theorem setRun_freeCount (j : Nat) (f : RunInfo → RunInfo) (s : State) : (setRun j f s).freeCount = s.freeCount := rfl
@[simp] theorem setEntry_sys (j : Nat) (f : JournalEntry → JournalEntry) (s : State) : (setEntry j f s).sys = s.sys := rfl
@[simp] theorem setEntry_hif (j : Nat) (f : JournalEntry → JournalEntry) (s : State) : (setEntry j f s).hif = s.hif := rfl
@[simp] theorem setEntry_cmd (j : Nat) (f : JournalEntry → JournalEntry) (s : State) : (setEntry j f s).cmd = s.cmd := rfl
@[simp] theorem setEntry_ctx (j : Nat) (f : JournalEntry → JournalEntry) (s : State) : (setEntry j f s).ctx = s.ctx := rfl
@[simp] theorem setEntry_pkr (j : Nat) (f : JournalEntry → JournalEntry) (s : State) : (setEntry j f s).pkr = s.pkr := rfl
@[simp] theorem setEntry_cph (j : Nat) (f : JournalEntry → JournalEntry) (s : State) : (setEntry j f s).cph = s.cph := rfl
@[simp] theorem setEntry_fmt (j : Nat) (f : JournalEntry → JournalEntry) (s : State) : (setEntry j f s).fmt = s.fmt := rfl
@[simp] theorem setEntry_tec (j : Nat) (f : JournalEntry → JournalEntry) (s : State) : (setEntry j f s).tec = s.tec := rfl
@[simp] theorem setEntry_vfy (j : Nat) (f : JournalEntry → JournalEntry) (s : State) : (setEntry j f s).vfy = s.vfy := rfl
@[simp] theorem setEntry_hlk (j : Nat) (f : JournalEntry → JournalEntry) (s : State) : (setEntry j f s).hlk = s.hlk := rfl
@[simp] theorem setEntry_drv (j : Nat) (f : JournalEntry → JournalEntry) (s : State) : (setEntry j f s).drv = s.drv := rfl
@[simp] theorem setEntry_mon (j : Nat) (f : JournalEntry → JournalEntry) (s : State) : (setEntry j f s).mon = s.mon := rfl
@[simp] theorem setEntry_spm (j : Nat) (f : JournalEntry → JournalEntry) (s : State) : (setEntry j f s).spm = s.spm := rfl
@[simp] theorem setEntry_prt (j : Nat) (f : JournalEntry → JournalEntry) (s : State) : (setEntry j f s).prt = s.prt := rfl
@[simp] theorem setEntry_mem (j : Nat) (f : JournalEntry → JournalEntry) (s : State) : (setEntry j f s).mem = s.mem := rfl
@[simp] theorem setEntry_thm (j : Nat) (f : JournalEntry → JournalEntry) (s : State) : (setEntry j f s).thm = s.thm := rfl
@[simp] theorem setEntry_pwr (j : Nat) (f : JournalEntry → JournalEntry) (s : State) : (setEntry j f s).pwr = s.pwr := rfl
@[simp] theorem setEntry_aon (j : Nat) (f : JournalEntry → JournalEntry) (s : State) : (setEntry j f s).aon = s.aon := rfl
@[simp] theorem setEntry_wh (j : Nat) (f : JournalEntry → JournalEntry) (s : State) : (setEntry j f s).wh = s.wh := rfl
@[simp] theorem setEntry_whd (j : Nat) (f : JournalEntry → JournalEntry) (s : State) : (setEntry j f s).whd = s.whd := rfl
@[simp] theorem setEntry_mram (j : Nat) (f : JournalEntry → JournalEntry) (s : State) : (setEntry j f s).mram = s.mram := rfl
@[simp] theorem setEntry_cart (j : Nat) (f : JournalEntry → JournalEntry) (s : State) : (setEntry j f s).cart = s.cart := rfl
@[simp] theorem setEntry_mgt (j : Nat) (f : JournalEntry → JournalEntry) (s : State) : (setEntry j f s).mgt = s.mgt := rfl
@[simp] theorem setEntry_pending (j : Nat) (f : JournalEntry → JournalEntry) (s : State) : (setEntry j f s).pending = s.pending := rfl
@[simp] theorem setEntry_out (j : Nat) (f : JournalEntry → JournalEntry) (s : State) : (setEntry j f s).out = s.out := rfl
@[simp] theorem setEntry_freeCount (j : Nat) (f : JournalEntry → JournalEntry) (s : State) : (setEntry j f s).freeCount = s.freeCount := rfl
@[simp] theorem setCtx_sys (c : Nat) (f : Context → Context) (s : State) : (setCtx c f s).sys = s.sys := rfl
@[simp] theorem setCtx_hif (c : Nat) (f : Context → Context) (s : State) : (setCtx c f s).hif = s.hif := rfl
@[simp] theorem setCtx_cmd (c : Nat) (f : Context → Context) (s : State) : (setCtx c f s).cmd = s.cmd := rfl
@[simp] theorem setCtx_jrn (c : Nat) (f : Context → Context) (s : State) : (setCtx c f s).jrn = s.jrn := rfl
@[simp] theorem setCtx_pkr (c : Nat) (f : Context → Context) (s : State) : (setCtx c f s).pkr = s.pkr := rfl
@[simp] theorem setCtx_cph (c : Nat) (f : Context → Context) (s : State) : (setCtx c f s).cph = s.cph := rfl
@[simp] theorem setCtx_fmt (c : Nat) (f : Context → Context) (s : State) : (setCtx c f s).fmt = s.fmt := rfl
@[simp] theorem setCtx_tec (c : Nat) (f : Context → Context) (s : State) : (setCtx c f s).tec = s.tec := rfl
@[simp] theorem setCtx_vfy (c : Nat) (f : Context → Context) (s : State) : (setCtx c f s).vfy = s.vfy := rfl
@[simp] theorem setCtx_hlk (c : Nat) (f : Context → Context) (s : State) : (setCtx c f s).hlk = s.hlk := rfl
@[simp] theorem setCtx_drv (c : Nat) (f : Context → Context) (s : State) : (setCtx c f s).drv = s.drv := rfl
@[simp] theorem setCtx_mon (c : Nat) (f : Context → Context) (s : State) : (setCtx c f s).mon = s.mon := rfl
@[simp] theorem setCtx_spm (c : Nat) (f : Context → Context) (s : State) : (setCtx c f s).spm = s.spm := rfl
@[simp] theorem setCtx_prt (c : Nat) (f : Context → Context) (s : State) : (setCtx c f s).prt = s.prt := rfl
@[simp] theorem setCtx_mem (c : Nat) (f : Context → Context) (s : State) : (setCtx c f s).mem = s.mem := rfl
@[simp] theorem setCtx_thm (c : Nat) (f : Context → Context) (s : State) : (setCtx c f s).thm = s.thm := rfl
@[simp] theorem setCtx_pwr (c : Nat) (f : Context → Context) (s : State) : (setCtx c f s).pwr = s.pwr := rfl
@[simp] theorem setCtx_aon (c : Nat) (f : Context → Context) (s : State) : (setCtx c f s).aon = s.aon := rfl
@[simp] theorem setCtx_wh (c : Nat) (f : Context → Context) (s : State) : (setCtx c f s).wh = s.wh := rfl
@[simp] theorem setCtx_whd (c : Nat) (f : Context → Context) (s : State) : (setCtx c f s).whd = s.whd := rfl
@[simp] theorem setCtx_mram (c : Nat) (f : Context → Context) (s : State) : (setCtx c f s).mram = s.mram := rfl
@[simp] theorem setCtx_cart (c : Nat) (f : Context → Context) (s : State) : (setCtx c f s).cart = s.cart := rfl
@[simp] theorem setCtx_mgt (c : Nat) (f : Context → Context) (s : State) : (setCtx c f s).mgt = s.mgt := rfl
@[simp] theorem setCtx_pending (c : Nat) (f : Context → Context) (s : State) : (setCtx c f s).pending = s.pending := rfl
@[simp] theorem setCtx_out (c : Nat) (f : Context → Context) (s : State) : (setCtx c f s).out = s.out := rfl
@[simp] theorem setCtx_freeCount (c : Nat) (f : Context → Context) (s : State) : (setCtx c f s).freeCount = s.freeCount := rfl
@[simp] theorem setCq_sys (n : Nat) (f : CplRing → CplRing) (s : State) : (setCq n f s).sys = s.sys := rfl
@[simp] theorem setCq_hif (n : Nat) (f : CplRing → CplRing) (s : State) : (setCq n f s).hif = s.hif := rfl
@[simp] theorem setCq_jrn (n : Nat) (f : CplRing → CplRing) (s : State) : (setCq n f s).jrn = s.jrn := rfl
@[simp] theorem setCq_ctx (n : Nat) (f : CplRing → CplRing) (s : State) : (setCq n f s).ctx = s.ctx := rfl
@[simp] theorem setCq_pkr (n : Nat) (f : CplRing → CplRing) (s : State) : (setCq n f s).pkr = s.pkr := rfl
@[simp] theorem setCq_cph (n : Nat) (f : CplRing → CplRing) (s : State) : (setCq n f s).cph = s.cph := rfl
@[simp] theorem setCq_fmt (n : Nat) (f : CplRing → CplRing) (s : State) : (setCq n f s).fmt = s.fmt := rfl
@[simp] theorem setCq_tec (n : Nat) (f : CplRing → CplRing) (s : State) : (setCq n f s).tec = s.tec := rfl
@[simp] theorem setCq_vfy (n : Nat) (f : CplRing → CplRing) (s : State) : (setCq n f s).vfy = s.vfy := rfl
@[simp] theorem setCq_hlk (n : Nat) (f : CplRing → CplRing) (s : State) : (setCq n f s).hlk = s.hlk := rfl
@[simp] theorem setCq_drv (n : Nat) (f : CplRing → CplRing) (s : State) : (setCq n f s).drv = s.drv := rfl
@[simp] theorem setCq_mon (n : Nat) (f : CplRing → CplRing) (s : State) : (setCq n f s).mon = s.mon := rfl
@[simp] theorem setCq_spm (n : Nat) (f : CplRing → CplRing) (s : State) : (setCq n f s).spm = s.spm := rfl
@[simp] theorem setCq_prt (n : Nat) (f : CplRing → CplRing) (s : State) : (setCq n f s).prt = s.prt := rfl
@[simp] theorem setCq_mem (n : Nat) (f : CplRing → CplRing) (s : State) : (setCq n f s).mem = s.mem := rfl
@[simp] theorem setCq_thm (n : Nat) (f : CplRing → CplRing) (s : State) : (setCq n f s).thm = s.thm := rfl
@[simp] theorem setCq_pwr (n : Nat) (f : CplRing → CplRing) (s : State) : (setCq n f s).pwr = s.pwr := rfl
@[simp] theorem setCq_aon (n : Nat) (f : CplRing → CplRing) (s : State) : (setCq n f s).aon = s.aon := rfl
@[simp] theorem setCq_wh (n : Nat) (f : CplRing → CplRing) (s : State) : (setCq n f s).wh = s.wh := rfl
@[simp] theorem setCq_whd (n : Nat) (f : CplRing → CplRing) (s : State) : (setCq n f s).whd = s.whd := rfl
@[simp] theorem setCq_mram (n : Nat) (f : CplRing → CplRing) (s : State) : (setCq n f s).mram = s.mram := rfl
@[simp] theorem setCq_cart (n : Nat) (f : CplRing → CplRing) (s : State) : (setCq n f s).cart = s.cart := rfl
@[simp] theorem setCq_mgt (n : Nat) (f : CplRing → CplRing) (s : State) : (setCq n f s).mgt = s.mgt := rfl
@[simp] theorem setCq_pending (n : Nat) (f : CplRing → CplRing) (s : State) : (setCq n f s).pending = s.pending := rfl
@[simp] theorem setCq_out (n : Nat) (f : CplRing → CplRing) (s : State) : (setCq n f s).out = s.out := rfl
@[simp] theorem setCq_freeCount (n : Nat) (f : CplRing → CplRing) (s : State) : (setCq n f s).freeCount = s.freeCount := rfl
@[simp] theorem setCounter_sys (f : Counter → Counter) (s : State) : (setCounter f s).sys = s.sys := rfl
@[simp] theorem setCounter_hif (f : Counter → Counter) (s : State) : (setCounter f s).hif = s.hif := rfl
@[simp] theorem setCounter_jrn (f : Counter → Counter) (s : State) : (setCounter f s).jrn = s.jrn := rfl
@[simp] theorem setCounter_ctx (f : Counter → Counter) (s : State) : (setCounter f s).ctx = s.ctx := rfl
@[simp] theorem setCounter_pkr (f : Counter → Counter) (s : State) : (setCounter f s).pkr = s.pkr := rfl
@[simp] theorem setCounter_cph (f : Counter → Counter) (s : State) : (setCounter f s).cph = s.cph := rfl
@[simp] theorem setCounter_fmt (f : Counter → Counter) (s : State) : (setCounter f s).fmt = s.fmt := rfl
@[simp] theorem setCounter_tec (f : Counter → Counter) (s : State) : (setCounter f s).tec = s.tec := rfl
@[simp] theorem setCounter_vfy (f : Counter → Counter) (s : State) : (setCounter f s).vfy = s.vfy := rfl
@[simp] theorem setCounter_hlk (f : Counter → Counter) (s : State) : (setCounter f s).hlk = s.hlk := rfl
@[simp] theorem setCounter_drv (f : Counter → Counter) (s : State) : (setCounter f s).drv = s.drv := rfl
@[simp] theorem setCounter_mon (f : Counter → Counter) (s : State) : (setCounter f s).mon = s.mon := rfl
@[simp] theorem setCounter_spm (f : Counter → Counter) (s : State) : (setCounter f s).spm = s.spm := rfl
@[simp] theorem setCounter_prt (f : Counter → Counter) (s : State) : (setCounter f s).prt = s.prt := rfl
@[simp] theorem setCounter_mem (f : Counter → Counter) (s : State) : (setCounter f s).mem = s.mem := rfl
@[simp] theorem setCounter_thm (f : Counter → Counter) (s : State) : (setCounter f s).thm = s.thm := rfl
@[simp] theorem setCounter_pwr (f : Counter → Counter) (s : State) : (setCounter f s).pwr = s.pwr := rfl
@[simp] theorem setCounter_aon (f : Counter → Counter) (s : State) : (setCounter f s).aon = s.aon := rfl
@[simp] theorem setCounter_wh (f : Counter → Counter) (s : State) : (setCounter f s).wh = s.wh := rfl
@[simp] theorem setCounter_whd (f : Counter → Counter) (s : State) : (setCounter f s).whd = s.whd := rfl
@[simp] theorem setCounter_mram (f : Counter → Counter) (s : State) : (setCounter f s).mram = s.mram := rfl
@[simp] theorem setCounter_cart (f : Counter → Counter) (s : State) : (setCounter f s).cart = s.cart := rfl
@[simp] theorem setCounter_mgt (f : Counter → Counter) (s : State) : (setCounter f s).mgt = s.mgt := rfl
@[simp] theorem setCounter_pending (f : Counter → Counter) (s : State) : (setCounter f s).pending = s.pending := rfl
@[simp] theorem setCounter_out (f : Counter → Counter) (s : State) : (setCounter f s).out = s.out := rfl
@[simp] theorem setCounter_freeCount (f : Counter → Counter) (s : State) : (setCounter f s).freeCount = s.freeCount := rfl
@[simp] theorem setGroup_sys (g : Nat) (f : EventGroup → EventGroup) (s : State) : (setGroup g f s).sys = s.sys := rfl
@[simp] theorem setGroup_hif (g : Nat) (f : EventGroup → EventGroup) (s : State) : (setGroup g f s).hif = s.hif := rfl
@[simp] theorem setGroup_jrn (g : Nat) (f : EventGroup → EventGroup) (s : State) : (setGroup g f s).jrn = s.jrn := rfl
@[simp] theorem setGroup_ctx (g : Nat) (f : EventGroup → EventGroup) (s : State) : (setGroup g f s).ctx = s.ctx := rfl
@[simp] theorem setGroup_pkr (g : Nat) (f : EventGroup → EventGroup) (s : State) : (setGroup g f s).pkr = s.pkr := rfl
@[simp] theorem setGroup_cph (g : Nat) (f : EventGroup → EventGroup) (s : State) : (setGroup g f s).cph = s.cph := rfl
@[simp] theorem setGroup_fmt (g : Nat) (f : EventGroup → EventGroup) (s : State) : (setGroup g f s).fmt = s.fmt := rfl
@[simp] theorem setGroup_tec (g : Nat) (f : EventGroup → EventGroup) (s : State) : (setGroup g f s).tec = s.tec := rfl
@[simp] theorem setGroup_vfy (g : Nat) (f : EventGroup → EventGroup) (s : State) : (setGroup g f s).vfy = s.vfy := rfl
@[simp] theorem setGroup_hlk (g : Nat) (f : EventGroup → EventGroup) (s : State) : (setGroup g f s).hlk = s.hlk := rfl
@[simp] theorem setGroup_drv (g : Nat) (f : EventGroup → EventGroup) (s : State) : (setGroup g f s).drv = s.drv := rfl
@[simp] theorem setGroup_mon (g : Nat) (f : EventGroup → EventGroup) (s : State) : (setGroup g f s).mon = s.mon := rfl
@[simp] theorem setGroup_spm (g : Nat) (f : EventGroup → EventGroup) (s : State) : (setGroup g f s).spm = s.spm := rfl
@[simp] theorem setGroup_prt (g : Nat) (f : EventGroup → EventGroup) (s : State) : (setGroup g f s).prt = s.prt := rfl
@[simp] theorem setGroup_mem (g : Nat) (f : EventGroup → EventGroup) (s : State) : (setGroup g f s).mem = s.mem := rfl
@[simp] theorem setGroup_thm (g : Nat) (f : EventGroup → EventGroup) (s : State) : (setGroup g f s).thm = s.thm := rfl
@[simp] theorem setGroup_pwr (g : Nat) (f : EventGroup → EventGroup) (s : State) : (setGroup g f s).pwr = s.pwr := rfl
@[simp] theorem setGroup_aon (g : Nat) (f : EventGroup → EventGroup) (s : State) : (setGroup g f s).aon = s.aon := rfl
@[simp] theorem setGroup_wh (g : Nat) (f : EventGroup → EventGroup) (s : State) : (setGroup g f s).wh = s.wh := rfl
@[simp] theorem setGroup_whd (g : Nat) (f : EventGroup → EventGroup) (s : State) : (setGroup g f s).whd = s.whd := rfl
@[simp] theorem setGroup_mram (g : Nat) (f : EventGroup → EventGroup) (s : State) : (setGroup g f s).mram = s.mram := rfl
@[simp] theorem setGroup_cart (g : Nat) (f : EventGroup → EventGroup) (s : State) : (setGroup g f s).cart = s.cart := rfl
@[simp] theorem setGroup_mgt (g : Nat) (f : EventGroup → EventGroup) (s : State) : (setGroup g f s).mgt = s.mgt := rfl
@[simp] theorem setGroup_pending (g : Nat) (f : EventGroup → EventGroup) (s : State) : (setGroup g f s).pending = s.pending := rfl
@[simp] theorem setGroup_out (g : Nat) (f : EventGroup → EventGroup) (s : State) : (setGroup g f s).out = s.out := rfl
@[simp] theorem setGroup_freeCount (g : Nat) (f : EventGroup → EventGroup) (s : State) : (setGroup g f s).freeCount = s.freeCount := rfl
@[simp] theorem setWrite_sys (j : Nat) (f : WriteRun → WriteRun) (s : State) : (setWrite j f s).sys = s.sys := rfl
@[simp] theorem setWrite_hif (j : Nat) (f : WriteRun → WriteRun) (s : State) : (setWrite j f s).hif = s.hif := rfl
@[simp] theorem setWrite_cmd (j : Nat) (f : WriteRun → WriteRun) (s : State) : (setWrite j f s).cmd = s.cmd := rfl
@[simp] theorem setWrite_jrn (j : Nat) (f : WriteRun → WriteRun) (s : State) : (setWrite j f s).jrn = s.jrn := rfl
@[simp] theorem setWrite_ctx (j : Nat) (f : WriteRun → WriteRun) (s : State) : (setWrite j f s).ctx = s.ctx := rfl
@[simp] theorem setWrite_pkr (j : Nat) (f : WriteRun → WriteRun) (s : State) : (setWrite j f s).pkr = s.pkr := rfl
@[simp] theorem setWrite_cph (j : Nat) (f : WriteRun → WriteRun) (s : State) : (setWrite j f s).cph = s.cph := rfl
@[simp] theorem setWrite_tec (j : Nat) (f : WriteRun → WriteRun) (s : State) : (setWrite j f s).tec = s.tec := rfl
@[simp] theorem setWrite_vfy (j : Nat) (f : WriteRun → WriteRun) (s : State) : (setWrite j f s).vfy = s.vfy := rfl
@[simp] theorem setWrite_hlk (j : Nat) (f : WriteRun → WriteRun) (s : State) : (setWrite j f s).hlk = s.hlk := rfl
@[simp] theorem setWrite_drv (j : Nat) (f : WriteRun → WriteRun) (s : State) : (setWrite j f s).drv = s.drv := rfl
@[simp] theorem setWrite_mon (j : Nat) (f : WriteRun → WriteRun) (s : State) : (setWrite j f s).mon = s.mon := rfl
@[simp] theorem setWrite_spm (j : Nat) (f : WriteRun → WriteRun) (s : State) : (setWrite j f s).spm = s.spm := rfl
@[simp] theorem setWrite_prt (j : Nat) (f : WriteRun → WriteRun) (s : State) : (setWrite j f s).prt = s.prt := rfl
@[simp] theorem setWrite_mem (j : Nat) (f : WriteRun → WriteRun) (s : State) : (setWrite j f s).mem = s.mem := rfl
@[simp] theorem setWrite_thm (j : Nat) (f : WriteRun → WriteRun) (s : State) : (setWrite j f s).thm = s.thm := rfl
@[simp] theorem setWrite_pwr (j : Nat) (f : WriteRun → WriteRun) (s : State) : (setWrite j f s).pwr = s.pwr := rfl
@[simp] theorem setWrite_aon (j : Nat) (f : WriteRun → WriteRun) (s : State) : (setWrite j f s).aon = s.aon := rfl
@[simp] theorem setWrite_wh (j : Nat) (f : WriteRun → WriteRun) (s : State) : (setWrite j f s).wh = s.wh := rfl
@[simp] theorem setWrite_whd (j : Nat) (f : WriteRun → WriteRun) (s : State) : (setWrite j f s).whd = s.whd := rfl
@[simp] theorem setWrite_mram (j : Nat) (f : WriteRun → WriteRun) (s : State) : (setWrite j f s).mram = s.mram := rfl
@[simp] theorem setWrite_cart (j : Nat) (f : WriteRun → WriteRun) (s : State) : (setWrite j f s).cart = s.cart := rfl
@[simp] theorem setWrite_mgt (j : Nat) (f : WriteRun → WriteRun) (s : State) : (setWrite j f s).mgt = s.mgt := rfl
@[simp] theorem setWrite_pending (j : Nat) (f : WriteRun → WriteRun) (s : State) : (setWrite j f s).pending = s.pending := rfl
@[simp] theorem setWrite_out (j : Nat) (f : WriteRun → WriteRun) (s : State) : (setWrite j f s).out = s.out := rfl
@[simp] theorem setWrite_freeCount (j : Nat) (f : WriteRun → WriteRun) (s : State) : (setWrite j f s).freeCount = s.freeCount := rfl
@[simp] theorem modUnit_hif (u : Nat) (f : SysUnit → SysUnit) (s : State) : (modUnit u f s).hif = s.hif := rfl
@[simp] theorem modUnit_cmd (u : Nat) (f : SysUnit → SysUnit) (s : State) : (modUnit u f s).cmd = s.cmd := rfl
@[simp] theorem modUnit_jrn (u : Nat) (f : SysUnit → SysUnit) (s : State) : (modUnit u f s).jrn = s.jrn := rfl
@[simp] theorem modUnit_ctx (u : Nat) (f : SysUnit → SysUnit) (s : State) : (modUnit u f s).ctx = s.ctx := rfl
@[simp] theorem modUnit_pkr (u : Nat) (f : SysUnit → SysUnit) (s : State) : (modUnit u f s).pkr = s.pkr := rfl
@[simp] theorem modUnit_cph (u : Nat) (f : SysUnit → SysUnit) (s : State) : (modUnit u f s).cph = s.cph := rfl
@[simp] theorem modUnit_fmt (u : Nat) (f : SysUnit → SysUnit) (s : State) : (modUnit u f s).fmt = s.fmt := rfl
@[simp] theorem modUnit_tec (u : Nat) (f : SysUnit → SysUnit) (s : State) : (modUnit u f s).tec = s.tec := rfl
@[simp] theorem modUnit_vfy (u : Nat) (f : SysUnit → SysUnit) (s : State) : (modUnit u f s).vfy = s.vfy := rfl
@[simp] theorem modUnit_hlk (u : Nat) (f : SysUnit → SysUnit) (s : State) : (modUnit u f s).hlk = s.hlk := rfl
@[simp] theorem modUnit_drv (u : Nat) (f : SysUnit → SysUnit) (s : State) : (modUnit u f s).drv = s.drv := rfl
@[simp] theorem modUnit_mon (u : Nat) (f : SysUnit → SysUnit) (s : State) : (modUnit u f s).mon = s.mon := rfl
@[simp] theorem modUnit_spm (u : Nat) (f : SysUnit → SysUnit) (s : State) : (modUnit u f s).spm = s.spm := rfl
@[simp] theorem modUnit_prt (u : Nat) (f : SysUnit → SysUnit) (s : State) : (modUnit u f s).prt = s.prt := rfl
@[simp] theorem modUnit_mem (u : Nat) (f : SysUnit → SysUnit) (s : State) : (modUnit u f s).mem = s.mem := rfl
@[simp] theorem modUnit_thm (u : Nat) (f : SysUnit → SysUnit) (s : State) : (modUnit u f s).thm = s.thm := rfl
@[simp] theorem modUnit_pwr (u : Nat) (f : SysUnit → SysUnit) (s : State) : (modUnit u f s).pwr = s.pwr := rfl
@[simp] theorem modUnit_aon (u : Nat) (f : SysUnit → SysUnit) (s : State) : (modUnit u f s).aon = s.aon := rfl
@[simp] theorem modUnit_wh (u : Nat) (f : SysUnit → SysUnit) (s : State) : (modUnit u f s).wh = s.wh := rfl
@[simp] theorem modUnit_whd (u : Nat) (f : SysUnit → SysUnit) (s : State) : (modUnit u f s).whd = s.whd := rfl
@[simp] theorem modUnit_mram (u : Nat) (f : SysUnit → SysUnit) (s : State) : (modUnit u f s).mram = s.mram := rfl
@[simp] theorem modUnit_cart (u : Nat) (f : SysUnit → SysUnit) (s : State) : (modUnit u f s).cart = s.cart := rfl
@[simp] theorem modUnit_mgt (u : Nat) (f : SysUnit → SysUnit) (s : State) : (modUnit u f s).mgt = s.mgt := rfl
@[simp] theorem modUnit_pending (u : Nat) (f : SysUnit → SysUnit) (s : State) : (modUnit u f s).pending = s.pending := rfl
@[simp] theorem modUnit_out (u : Nat) (f : SysUnit → SysUnit) (s : State) : (modUnit u f s).out = s.out := rfl
@[simp] theorem modUnit_freeCount (u : Nat) (f : SysUnit → SysUnit) (s : State) : (modUnit u f s).freeCount = s.freeCount := rfl
@[simp] theorem setLoop_sys (n : Nat) (f : Loop → Loop) (s : State) : (setLoop n f s).sys = s.sys := rfl
@[simp] theorem setLoop_hif (n : Nat) (f : Loop → Loop) (s : State) : (setLoop n f s).hif = s.hif := rfl
@[simp] theorem setLoop_cmd (n : Nat) (f : Loop → Loop) (s : State) : (setLoop n f s).cmd = s.cmd := rfl
@[simp] theorem setLoop_jrn (n : Nat) (f : Loop → Loop) (s : State) : (setLoop n f s).jrn = s.jrn := rfl
@[simp] theorem setLoop_ctx (n : Nat) (f : Loop → Loop) (s : State) : (setLoop n f s).ctx = s.ctx := rfl
@[simp] theorem setLoop_pkr (n : Nat) (f : Loop → Loop) (s : State) : (setLoop n f s).pkr = s.pkr := rfl
@[simp] theorem setLoop_cph (n : Nat) (f : Loop → Loop) (s : State) : (setLoop n f s).cph = s.cph := rfl
@[simp] theorem setLoop_fmt (n : Nat) (f : Loop → Loop) (s : State) : (setLoop n f s).fmt = s.fmt := rfl
@[simp] theorem setLoop_tec (n : Nat) (f : Loop → Loop) (s : State) : (setLoop n f s).tec = s.tec := rfl
@[simp] theorem setLoop_vfy (n : Nat) (f : Loop → Loop) (s : State) : (setLoop n f s).vfy = s.vfy := rfl
@[simp] theorem setLoop_hlk (n : Nat) (f : Loop → Loop) (s : State) : (setLoop n f s).hlk = s.hlk := rfl
@[simp] theorem setLoop_mon (n : Nat) (f : Loop → Loop) (s : State) : (setLoop n f s).mon = s.mon := rfl
@[simp] theorem setLoop_spm (n : Nat) (f : Loop → Loop) (s : State) : (setLoop n f s).spm = s.spm := rfl
@[simp] theorem setLoop_prt (n : Nat) (f : Loop → Loop) (s : State) : (setLoop n f s).prt = s.prt := rfl
@[simp] theorem setLoop_mem (n : Nat) (f : Loop → Loop) (s : State) : (setLoop n f s).mem = s.mem := rfl
@[simp] theorem setLoop_thm (n : Nat) (f : Loop → Loop) (s : State) : (setLoop n f s).thm = s.thm := rfl
@[simp] theorem setLoop_pwr (n : Nat) (f : Loop → Loop) (s : State) : (setLoop n f s).pwr = s.pwr := rfl
@[simp] theorem setLoop_aon (n : Nat) (f : Loop → Loop) (s : State) : (setLoop n f s).aon = s.aon := rfl
@[simp] theorem setLoop_wh (n : Nat) (f : Loop → Loop) (s : State) : (setLoop n f s).wh = s.wh := rfl
@[simp] theorem setLoop_whd (n : Nat) (f : Loop → Loop) (s : State) : (setLoop n f s).whd = s.whd := rfl
@[simp] theorem setLoop_mram (n : Nat) (f : Loop → Loop) (s : State) : (setLoop n f s).mram = s.mram := rfl
@[simp] theorem setLoop_cart (n : Nat) (f : Loop → Loop) (s : State) : (setLoop n f s).cart = s.cart := rfl
@[simp] theorem setLoop_mgt (n : Nat) (f : Loop → Loop) (s : State) : (setLoop n f s).mgt = s.mgt := rfl
@[simp] theorem setLoop_pending (n : Nat) (f : Loop → Loop) (s : State) : (setLoop n f s).pending = s.pending := rfl
@[simp] theorem setLoop_out (n : Nat) (f : Loop → Loop) (s : State) : (setLoop n f s).out = s.out := rfl
@[simp] theorem setLoop_freeCount (n : Nat) (f : Loop → Loop) (s : State) : (setLoop n f s).freeCount = s.freeCount := rfl
@[simp] theorem setLane_sys (n : Nat) (f : Lane → Lane) (s : State) : (setLane n f s).sys = s.sys := rfl
@[simp] theorem setLane_hif (n : Nat) (f : Lane → Lane) (s : State) : (setLane n f s).hif = s.hif := rfl
@[simp] theorem setLane_cmd (n : Nat) (f : Lane → Lane) (s : State) : (setLane n f s).cmd = s.cmd := rfl
@[simp] theorem setLane_jrn (n : Nat) (f : Lane → Lane) (s : State) : (setLane n f s).jrn = s.jrn := rfl
@[simp] theorem setLane_ctx (n : Nat) (f : Lane → Lane) (s : State) : (setLane n f s).ctx = s.ctx := rfl
@[simp] theorem setLane_pkr (n : Nat) (f : Lane → Lane) (s : State) : (setLane n f s).pkr = s.pkr := rfl
@[simp] theorem setLane_fmt (n : Nat) (f : Lane → Lane) (s : State) : (setLane n f s).fmt = s.fmt := rfl
@[simp] theorem setLane_tec (n : Nat) (f : Lane → Lane) (s : State) : (setLane n f s).tec = s.tec := rfl
@[simp] theorem setLane_vfy (n : Nat) (f : Lane → Lane) (s : State) : (setLane n f s).vfy = s.vfy := rfl
@[simp] theorem setLane_hlk (n : Nat) (f : Lane → Lane) (s : State) : (setLane n f s).hlk = s.hlk := rfl
@[simp] theorem setLane_drv (n : Nat) (f : Lane → Lane) (s : State) : (setLane n f s).drv = s.drv := rfl
@[simp] theorem setLane_mon (n : Nat) (f : Lane → Lane) (s : State) : (setLane n f s).mon = s.mon := rfl
@[simp] theorem setLane_spm (n : Nat) (f : Lane → Lane) (s : State) : (setLane n f s).spm = s.spm := rfl
@[simp] theorem setLane_prt (n : Nat) (f : Lane → Lane) (s : State) : (setLane n f s).prt = s.prt := rfl
@[simp] theorem setLane_mem (n : Nat) (f : Lane → Lane) (s : State) : (setLane n f s).mem = s.mem := rfl
@[simp] theorem setLane_thm (n : Nat) (f : Lane → Lane) (s : State) : (setLane n f s).thm = s.thm := rfl
@[simp] theorem setLane_pwr (n : Nat) (f : Lane → Lane) (s : State) : (setLane n f s).pwr = s.pwr := rfl
@[simp] theorem setLane_aon (n : Nat) (f : Lane → Lane) (s : State) : (setLane n f s).aon = s.aon := rfl
@[simp] theorem setLane_wh (n : Nat) (f : Lane → Lane) (s : State) : (setLane n f s).wh = s.wh := rfl
@[simp] theorem setLane_whd (n : Nat) (f : Lane → Lane) (s : State) : (setLane n f s).whd = s.whd := rfl
@[simp] theorem setLane_mram (n : Nat) (f : Lane → Lane) (s : State) : (setLane n f s).mram = s.mram := rfl
@[simp] theorem setLane_cart (n : Nat) (f : Lane → Lane) (s : State) : (setLane n f s).cart = s.cart := rfl
@[simp] theorem setLane_mgt (n : Nat) (f : Lane → Lane) (s : State) : (setLane n f s).mgt = s.mgt := rfl
@[simp] theorem setLane_pending (n : Nat) (f : Lane → Lane) (s : State) : (setLane n f s).pending = s.pending := rfl
@[simp] theorem setLane_out (n : Nat) (f : Lane → Lane) (s : State) : (setLane n f s).out = s.out := rfl
@[simp] theorem setLane_freeCount (n : Nat) (f : Lane → Lane) (s : State) : (setLane n f s).freeCount = s.freeCount := rfl
@[simp] theorem modLane_sys (n : Nat) (f : HlkLane → HlkLane) (s : State) : (modLane n f s).sys = s.sys := rfl
@[simp] theorem modLane_hif (n : Nat) (f : HlkLane → HlkLane) (s : State) : (modLane n f s).hif = s.hif := rfl
@[simp] theorem modLane_cmd (n : Nat) (f : HlkLane → HlkLane) (s : State) : (modLane n f s).cmd = s.cmd := rfl
@[simp] theorem modLane_jrn (n : Nat) (f : HlkLane → HlkLane) (s : State) : (modLane n f s).jrn = s.jrn := rfl
@[simp] theorem modLane_ctx (n : Nat) (f : HlkLane → HlkLane) (s : State) : (modLane n f s).ctx = s.ctx := rfl
@[simp] theorem modLane_pkr (n : Nat) (f : HlkLane → HlkLane) (s : State) : (modLane n f s).pkr = s.pkr := rfl
@[simp] theorem modLane_cph (n : Nat) (f : HlkLane → HlkLane) (s : State) : (modLane n f s).cph = s.cph := rfl
@[simp] theorem modLane_fmt (n : Nat) (f : HlkLane → HlkLane) (s : State) : (modLane n f s).fmt = s.fmt := rfl
@[simp] theorem modLane_tec (n : Nat) (f : HlkLane → HlkLane) (s : State) : (modLane n f s).tec = s.tec := rfl
@[simp] theorem modLane_vfy (n : Nat) (f : HlkLane → HlkLane) (s : State) : (modLane n f s).vfy = s.vfy := rfl
@[simp] theorem modLane_drv (n : Nat) (f : HlkLane → HlkLane) (s : State) : (modLane n f s).drv = s.drv := rfl
@[simp] theorem modLane_mon (n : Nat) (f : HlkLane → HlkLane) (s : State) : (modLane n f s).mon = s.mon := rfl
@[simp] theorem modLane_spm (n : Nat) (f : HlkLane → HlkLane) (s : State) : (modLane n f s).spm = s.spm := rfl
@[simp] theorem modLane_prt (n : Nat) (f : HlkLane → HlkLane) (s : State) : (modLane n f s).prt = s.prt := rfl
@[simp] theorem modLane_mem (n : Nat) (f : HlkLane → HlkLane) (s : State) : (modLane n f s).mem = s.mem := rfl
@[simp] theorem modLane_thm (n : Nat) (f : HlkLane → HlkLane) (s : State) : (modLane n f s).thm = s.thm := rfl
@[simp] theorem modLane_pwr (n : Nat) (f : HlkLane → HlkLane) (s : State) : (modLane n f s).pwr = s.pwr := rfl
@[simp] theorem modLane_aon (n : Nat) (f : HlkLane → HlkLane) (s : State) : (modLane n f s).aon = s.aon := rfl
@[simp] theorem modLane_wh (n : Nat) (f : HlkLane → HlkLane) (s : State) : (modLane n f s).wh = s.wh := rfl
@[simp] theorem modLane_whd (n : Nat) (f : HlkLane → HlkLane) (s : State) : (modLane n f s).whd = s.whd := rfl
@[simp] theorem modLane_mram (n : Nat) (f : HlkLane → HlkLane) (s : State) : (modLane n f s).mram = s.mram := rfl
@[simp] theorem modLane_cart (n : Nat) (f : HlkLane → HlkLane) (s : State) : (modLane n f s).cart = s.cart := rfl
@[simp] theorem modLane_mgt (n : Nat) (f : HlkLane → HlkLane) (s : State) : (modLane n f s).mgt = s.mgt := rfl
@[simp] theorem modLane_pending (n : Nat) (f : HlkLane → HlkLane) (s : State) : (modLane n f s).pending = s.pending := rfl
@[simp] theorem modLane_out (n : Nat) (f : HlkLane → HlkLane) (s : State) : (modLane n f s).out = s.out := rfl
@[simp] theorem modLane_freeCount (n : Nat) (f : HlkLane → HlkLane) (s : State) : (modLane n f s).freeCount = s.freeCount := rfl
@[simp] theorem setHif_sys (f : Hif → Hif) (s : State) : (setHif f s).sys = s.sys := rfl
@[simp] theorem setHif_cmd (f : Hif → Hif) (s : State) : (setHif f s).cmd = s.cmd := rfl
@[simp] theorem setHif_jrn (f : Hif → Hif) (s : State) : (setHif f s).jrn = s.jrn := rfl
@[simp] theorem setHif_ctx (f : Hif → Hif) (s : State) : (setHif f s).ctx = s.ctx := rfl
@[simp] theorem setHif_pkr (f : Hif → Hif) (s : State) : (setHif f s).pkr = s.pkr := rfl
@[simp] theorem setHif_cph (f : Hif → Hif) (s : State) : (setHif f s).cph = s.cph := rfl
@[simp] theorem setHif_fmt (f : Hif → Hif) (s : State) : (setHif f s).fmt = s.fmt := rfl
@[simp] theorem setHif_tec (f : Hif → Hif) (s : State) : (setHif f s).tec = s.tec := rfl
@[simp] theorem setHif_vfy (f : Hif → Hif) (s : State) : (setHif f s).vfy = s.vfy := rfl
@[simp] theorem setHif_hlk (f : Hif → Hif) (s : State) : (setHif f s).hlk = s.hlk := rfl
@[simp] theorem setHif_drv (f : Hif → Hif) (s : State) : (setHif f s).drv = s.drv := rfl
@[simp] theorem setHif_mon (f : Hif → Hif) (s : State) : (setHif f s).mon = s.mon := rfl
@[simp] theorem setHif_spm (f : Hif → Hif) (s : State) : (setHif f s).spm = s.spm := rfl
@[simp] theorem setHif_prt (f : Hif → Hif) (s : State) : (setHif f s).prt = s.prt := rfl
@[simp] theorem setHif_mem (f : Hif → Hif) (s : State) : (setHif f s).mem = s.mem := rfl
@[simp] theorem setHif_thm (f : Hif → Hif) (s : State) : (setHif f s).thm = s.thm := rfl
@[simp] theorem setHif_pwr (f : Hif → Hif) (s : State) : (setHif f s).pwr = s.pwr := rfl
@[simp] theorem setHif_aon (f : Hif → Hif) (s : State) : (setHif f s).aon = s.aon := rfl
@[simp] theorem setHif_wh (f : Hif → Hif) (s : State) : (setHif f s).wh = s.wh := rfl
@[simp] theorem setHif_whd (f : Hif → Hif) (s : State) : (setHif f s).whd = s.whd := rfl
@[simp] theorem setHif_mram (f : Hif → Hif) (s : State) : (setHif f s).mram = s.mram := rfl
@[simp] theorem setHif_cart (f : Hif → Hif) (s : State) : (setHif f s).cart = s.cart := rfl
@[simp] theorem setHif_mgt (f : Hif → Hif) (s : State) : (setHif f s).mgt = s.mgt := rfl
@[simp] theorem setHif_pending (f : Hif → Hif) (s : State) : (setHif f s).pending = s.pending := rfl
@[simp] theorem setHif_out (f : Hif → Hif) (s : State) : (setHif f s).out = s.out := rfl
@[simp] theorem setHif_freeCount (f : Hif → Hif) (s : State) : (setHif f s).freeCount = s.freeCount := rfl
@[simp] theorem setCore_hif (c : Nat) (f : CoreState → CoreState) (s : State) : (setCore c f s).hif = s.hif := rfl
@[simp] theorem setCore_cmd (c : Nat) (f : CoreState → CoreState) (s : State) : (setCore c f s).cmd = s.cmd := rfl
@[simp] theorem setCore_jrn (c : Nat) (f : CoreState → CoreState) (s : State) : (setCore c f s).jrn = s.jrn := rfl
@[simp] theorem setCore_ctx (c : Nat) (f : CoreState → CoreState) (s : State) : (setCore c f s).ctx = s.ctx := rfl
@[simp] theorem setCore_pkr (c : Nat) (f : CoreState → CoreState) (s : State) : (setCore c f s).pkr = s.pkr := rfl
@[simp] theorem setCore_cph (c : Nat) (f : CoreState → CoreState) (s : State) : (setCore c f s).cph = s.cph := rfl
@[simp] theorem setCore_fmt (c : Nat) (f : CoreState → CoreState) (s : State) : (setCore c f s).fmt = s.fmt := rfl
@[simp] theorem setCore_tec (c : Nat) (f : CoreState → CoreState) (s : State) : (setCore c f s).tec = s.tec := rfl
@[simp] theorem setCore_vfy (c : Nat) (f : CoreState → CoreState) (s : State) : (setCore c f s).vfy = s.vfy := rfl
@[simp] theorem setCore_hlk (c : Nat) (f : CoreState → CoreState) (s : State) : (setCore c f s).hlk = s.hlk := rfl
@[simp] theorem setCore_drv (c : Nat) (f : CoreState → CoreState) (s : State) : (setCore c f s).drv = s.drv := rfl
@[simp] theorem setCore_mon (c : Nat) (f : CoreState → CoreState) (s : State) : (setCore c f s).mon = s.mon := rfl
@[simp] theorem setCore_spm (c : Nat) (f : CoreState → CoreState) (s : State) : (setCore c f s).spm = s.spm := rfl
@[simp] theorem setCore_prt (c : Nat) (f : CoreState → CoreState) (s : State) : (setCore c f s).prt = s.prt := rfl
@[simp] theorem setCore_mem (c : Nat) (f : CoreState → CoreState) (s : State) : (setCore c f s).mem = s.mem := rfl
@[simp] theorem setCore_thm (c : Nat) (f : CoreState → CoreState) (s : State) : (setCore c f s).thm = s.thm := rfl
@[simp] theorem setCore_pwr (c : Nat) (f : CoreState → CoreState) (s : State) : (setCore c f s).pwr = s.pwr := rfl
@[simp] theorem setCore_aon (c : Nat) (f : CoreState → CoreState) (s : State) : (setCore c f s).aon = s.aon := rfl
@[simp] theorem setCore_wh (c : Nat) (f : CoreState → CoreState) (s : State) : (setCore c f s).wh = s.wh := rfl
@[simp] theorem setCore_whd (c : Nat) (f : CoreState → CoreState) (s : State) : (setCore c f s).whd = s.whd := rfl
@[simp] theorem setCore_mram (c : Nat) (f : CoreState → CoreState) (s : State) : (setCore c f s).mram = s.mram := rfl
@[simp] theorem setCore_cart (c : Nat) (f : CoreState → CoreState) (s : State) : (setCore c f s).cart = s.cart := rfl
@[simp] theorem setCore_mgt (c : Nat) (f : CoreState → CoreState) (s : State) : (setCore c f s).mgt = s.mgt := rfl
@[simp] theorem setCore_pending (c : Nat) (f : CoreState → CoreState) (s : State) : (setCore c f s).pending = s.pending := rfl
@[simp] theorem setCore_out (c : Nat) (f : CoreState → CoreState) (s : State) : (setCore c f s).out = s.out := rfl
@[simp] theorem setCore_freeCount (c : Nat) (f : CoreState → CoreState) (s : State) : (setCore c f s).freeCount = s.freeCount := rfl
@[simp] theorem setAbort_sys (r : Nat) (s : State) : (setAbort r s).sys = s.sys := rfl
@[simp] theorem setAbort_hif (r : Nat) (s : State) : (setAbort r s).hif = s.hif := rfl
@[simp] theorem setAbort_jrn (r : Nat) (s : State) : (setAbort r s).jrn = s.jrn := rfl
@[simp] theorem setAbort_ctx (r : Nat) (s : State) : (setAbort r s).ctx = s.ctx := rfl
@[simp] theorem setAbort_pkr (r : Nat) (s : State) : (setAbort r s).pkr = s.pkr := rfl
@[simp] theorem setAbort_cph (r : Nat) (s : State) : (setAbort r s).cph = s.cph := rfl
@[simp] theorem setAbort_fmt (r : Nat) (s : State) : (setAbort r s).fmt = s.fmt := rfl
@[simp] theorem setAbort_tec (r : Nat) (s : State) : (setAbort r s).tec = s.tec := rfl
@[simp] theorem setAbort_vfy (r : Nat) (s : State) : (setAbort r s).vfy = s.vfy := rfl
@[simp] theorem setAbort_hlk (r : Nat) (s : State) : (setAbort r s).hlk = s.hlk := rfl
@[simp] theorem setAbort_drv (r : Nat) (s : State) : (setAbort r s).drv = s.drv := rfl
@[simp] theorem setAbort_mon (r : Nat) (s : State) : (setAbort r s).mon = s.mon := rfl
@[simp] theorem setAbort_spm (r : Nat) (s : State) : (setAbort r s).spm = s.spm := rfl
@[simp] theorem setAbort_prt (r : Nat) (s : State) : (setAbort r s).prt = s.prt := rfl
@[simp] theorem setAbort_mem (r : Nat) (s : State) : (setAbort r s).mem = s.mem := rfl
@[simp] theorem setAbort_thm (r : Nat) (s : State) : (setAbort r s).thm = s.thm := rfl
@[simp] theorem setAbort_pwr (r : Nat) (s : State) : (setAbort r s).pwr = s.pwr := rfl
@[simp] theorem setAbort_aon (r : Nat) (s : State) : (setAbort r s).aon = s.aon := rfl
@[simp] theorem setAbort_wh (r : Nat) (s : State) : (setAbort r s).wh = s.wh := rfl
@[simp] theorem setAbort_whd (r : Nat) (s : State) : (setAbort r s).whd = s.whd := rfl
@[simp] theorem setAbort_mram (r : Nat) (s : State) : (setAbort r s).mram = s.mram := rfl
@[simp] theorem setAbort_cart (r : Nat) (s : State) : (setAbort r s).cart = s.cart := rfl
@[simp] theorem setAbort_mgt (r : Nat) (s : State) : (setAbort r s).mgt = s.mgt := rfl
@[simp] theorem setAbort_pending (r : Nat) (s : State) : (setAbort r s).pending = s.pending := rfl
@[simp] theorem setAbort_out (r : Nat) (s : State) : (setAbort r s).out = s.out := rfl
@[simp] theorem setAbort_freeCount (r : Nat) (s : State) : (setAbort r s).freeCount = s.freeCount := rfl
@[simp] theorem setHeld_sys (q : Nat) (f : HeldDataset → HeldDataset) (s : State) : (setHeld q f s).sys = s.sys := rfl
@[simp] theorem setHeld_hif (q : Nat) (f : HeldDataset → HeldDataset) (s : State) : (setHeld q f s).hif = s.hif := rfl
@[simp] theorem setHeld_cmd (q : Nat) (f : HeldDataset → HeldDataset) (s : State) : (setHeld q f s).cmd = s.cmd := rfl
@[simp] theorem setHeld_jrn (q : Nat) (f : HeldDataset → HeldDataset) (s : State) : (setHeld q f s).jrn = s.jrn := rfl
@[simp] theorem setHeld_ctx (q : Nat) (f : HeldDataset → HeldDataset) (s : State) : (setHeld q f s).ctx = s.ctx := rfl
@[simp] theorem setHeld_pkr (q : Nat) (f : HeldDataset → HeldDataset) (s : State) : (setHeld q f s).pkr = s.pkr := rfl
@[simp] theorem setHeld_cph (q : Nat) (f : HeldDataset → HeldDataset) (s : State) : (setHeld q f s).cph = s.cph := rfl
@[simp] theorem setHeld_fmt (q : Nat) (f : HeldDataset → HeldDataset) (s : State) : (setHeld q f s).fmt = s.fmt := rfl
@[simp] theorem setHeld_vfy (q : Nat) (f : HeldDataset → HeldDataset) (s : State) : (setHeld q f s).vfy = s.vfy := rfl
@[simp] theorem setHeld_hlk (q : Nat) (f : HeldDataset → HeldDataset) (s : State) : (setHeld q f s).hlk = s.hlk := rfl
@[simp] theorem setHeld_drv (q : Nat) (f : HeldDataset → HeldDataset) (s : State) : (setHeld q f s).drv = s.drv := rfl
@[simp] theorem setHeld_mon (q : Nat) (f : HeldDataset → HeldDataset) (s : State) : (setHeld q f s).mon = s.mon := rfl
@[simp] theorem setHeld_spm (q : Nat) (f : HeldDataset → HeldDataset) (s : State) : (setHeld q f s).spm = s.spm := rfl
@[simp] theorem setHeld_prt (q : Nat) (f : HeldDataset → HeldDataset) (s : State) : (setHeld q f s).prt = s.prt := rfl
@[simp] theorem setHeld_mem (q : Nat) (f : HeldDataset → HeldDataset) (s : State) : (setHeld q f s).mem = s.mem := rfl
@[simp] theorem setHeld_thm (q : Nat) (f : HeldDataset → HeldDataset) (s : State) : (setHeld q f s).thm = s.thm := rfl
@[simp] theorem setHeld_pwr (q : Nat) (f : HeldDataset → HeldDataset) (s : State) : (setHeld q f s).pwr = s.pwr := rfl
@[simp] theorem setHeld_aon (q : Nat) (f : HeldDataset → HeldDataset) (s : State) : (setHeld q f s).aon = s.aon := rfl
@[simp] theorem setHeld_wh (q : Nat) (f : HeldDataset → HeldDataset) (s : State) : (setHeld q f s).wh = s.wh := rfl
@[simp] theorem setHeld_whd (q : Nat) (f : HeldDataset → HeldDataset) (s : State) : (setHeld q f s).whd = s.whd := rfl
@[simp] theorem setHeld_mram (q : Nat) (f : HeldDataset → HeldDataset) (s : State) : (setHeld q f s).mram = s.mram := rfl
@[simp] theorem setHeld_cart (q : Nat) (f : HeldDataset → HeldDataset) (s : State) : (setHeld q f s).cart = s.cart := rfl
@[simp] theorem setHeld_mgt (q : Nat) (f : HeldDataset → HeldDataset) (s : State) : (setHeld q f s).mgt = s.mgt := rfl
@[simp] theorem setHeld_pending (q : Nat) (f : HeldDataset → HeldDataset) (s : State) : (setHeld q f s).pending = s.pending := rfl
@[simp] theorem setHeld_out (q : Nat) (f : HeldDataset → HeldDataset) (s : State) : (setHeld q f s).out = s.out := rfl
@[simp] theorem setHeld_freeCount (q : Nat) (f : HeldDataset → HeldDataset) (s : State) : (setHeld q f s).freeCount = s.freeCount := rfl

/-! ### The field that each update changes -/

@[simp] theorem emit_sent (o : Output) (s : State) : (emit o s).out = s.out ++ [o] := rfl
@[simp] theorem drawFree_count (s : State) : (drawFree s).freeCount = s.freeCount + 1 := rfl
@[simp] theorem atTime_time (t : Nat) (s : State) : (atTime t s).aon.time = max s.aon.time t := rfl
@[simp] theorem setRun_entries (j : Nat) (f : RunInfo → RunInfo) (s : State) : (setRun j f s).jrn.entries = s.jrn.entries := rfl
@[simp] theorem setRun_retire (j : Nat) (f : RunInfo → RunInfo) (s : State) : (setRun j f s).jrn.retire = s.jrn.retire := rfl
@[simp] theorem setEntry_runs (j : Nat) (f : JournalEntry → JournalEntry) (s : State) :
    (setEntry j f s).jrn.runs = s.jrn.runs := rfl
@[simp] theorem setCtx_records (c : Nat) (f : Context → Context) (s : State) :
    (setCtx c f s).ctx.records = tabUpd .zero c f s.ctx.records := rfl
@[simp] theorem setHif_self (f : Hif → Hif) (s : State) : (setHif f s).hif = f s.hif := rfl
@[simp] theorem setCounter_self (f : Counter → Counter) (s : State) : (setCounter f s).cmd.counter = f s.cmd.counter := rfl

/-- A table's key holds what was written to it. -/
theorem tabGet_tabPut {α : Type} (d : α) (a : Nat) (x : α) (t : Table α) : tabGet d (tabPut a x t) a = x := by
  induction t with
  | nil => simp [tabPut, tabGet]
  | cons p t ih =>
    unfold tabPut; split
    · simp [tabGet]
    · split
      · simp [tabGet]
      · unfold tabGet; rw [if_neg ‹_›]; exact ih

theorem tabGet_tabPut_ne {α : Type} (d : α) {a b : Nat} (x : α) (t : Table α) (hb : b ≠ a) :
    tabGet d (tabPut a x t) b = tabGet d t b := by
  induction t with
  | nil => simp [tabPut, tabGet, hb]
  | cons p t ih =>
    unfold tabPut; split
    · show (if b = a then x else tabGet d (p :: t) b) = _; rw [if_neg hb]
    · split
      · subst_vars; simp [tabGet, hb]
      · unfold tabGet; split
        · rfl
        · exact ih

theorem tabGet_filter {α : Type} (d : α) {a b : Nat} (t : Table α) :
    tabGet d (t.filter fun p => p.1 != a) b = if b = a then d else tabGet d t b := by
  induction t with
  | nil => simp [tabGet]
  | cons p t ih =>
    rw [List.filter_cons]; split
    · rename_i hp
      have hp' : p.1 ≠ a := by simpa using hp
      unfold tabGet; split
      · rename_i hb; rw [if_neg (by omega)]
      · exact ih
    · rename_i hp
      have hp' : p.1 = a := by simpa using hp
      rw [ih]; split
      · rfl
      · show _ = tabGet d (p :: t) b; rw [show tabGet d (p :: t) b = if b = p.1 then p.2 else tabGet d t b from rfl, if_neg (by omega)]

@[simp] theorem tabGet_tabSet {α : Type} [DecidableEq α] (d : α) (a : Nat) (x : α) (t : Table α) :
    tabGet d (tabSet d a x t) a = x := by
  unfold tabSet; split
  · rw [tabGet_filter]; simp [*]
  · exact tabGet_tabPut ..

theorem tabGet_tabSet_ne {α : Type} [DecidableEq α] (d : α) {a b : Nat} (x : α) (t : Table α) (hb : b ≠ a) :
    tabGet d (tabSet d a x t) b = tabGet d t b := by
  unfold tabSet; split
  · rw [tabGet_filter, if_neg hb]
  · exact tabGet_tabPut_ne d x t hb

end Sys2Proof.Laws
end

