-- ==== Sys2Proof/Laws/Kept.lean ====
section
/-! SUPPORT. Shared operations that leave the tenant meters (16), the next JSN (03) and INSTANCE (06) as they are. -/

namespace Sys2Proof.Laws

open Sys2Proof.Machine

@[simp] theorem kept_mk sys hif cmd jrn ctx pkr cph fmt tec vfy hlk drv mon spm prt mem thm pwr aon wh whd mram cart mgt pending out freeCount :
    (State.mk sys hif cmd jrn ctx pkr cph fmt tec vfy hlk drv mon spm prt mem thm pwr aon wh whd mram cart mgt pending out freeCount).kept = (whd.meters, jrn.nextJsn, mram.inst) := rfl

@[simp] theorem kept_fold (s : State) : (s.whd.meters, s.jrn.nextJsn, s.mram.inst) = s.kept := rfl

@[simp] theorem foldl_kept {α : Type} {f : State → α → State} (hf : ∀ s x, (f s x).kept = s.kept) (l : List α) (s : State) :
    (l.foldl f s).kept = s.kept := by
  induction l generalizing s with
  | nil => rfl
  | cons a t ih => rw [List.foldl_cons, ih, hf]

@[simp] theorem ite_kept (c : Prop) [Decidable c] (a b : State) : (if c then a else b).kept = if c then a.kept else b.kept := by
  split <;> rfl

theorem optMap_kept {f : State → State} (hf : ∀ s, (f s).kept = s.kept) {o : Option State}
    {m : Table Meter × Nat × BitVec 32} (ho : ∀ r, o = some r → r.kept = m) (r : State) (h : o.map f = some r) :
    r.kept = m := by
  cases o with
  | none => cases h
  | some u => cases h; rw [hf, ho u rfl]

theorem getD_kept {o : Option State} {m : Table Meter × Nat × BitVec 32} (ho : ∀ r, o = some r → r.kept = m) (s : State)
    (hs : s.kept = m) : (o.getD s).kept = m := by
  cases o with
  | none => exact hs
  | some u => exact ho u rfl

/-! ### Machine/Ops -/
@[simp] theorem emit_kept (o : Output) (s : State) : (emit o s).kept = s.kept := by
  unfold emit; simp
@[simp] theorem atTime_kept (t : Nat) (s : State) : (atTime t s).kept = s.kept := by
  unfold atTime; simp
@[simp] theorem drawFree_kept (s : State) : (drawFree s).kept = s.kept := by
  unfold drawFree; simp
@[simp] theorem msixTrigger_kept (v : Nat) (en : Bool) (s : State) : (msixTrigger v en s).kept = s.kept := by
  unfold msixTrigger; simp
@[simp] theorem onMmio_kept (s t : State) (h : t.kept = s.kept) : (onMmio s t).kept = s.kept := by
  unfold onMmio; split <;> simp [h]
@[simp] theorem hostFetch_kept (addr len : Nat) (s : State) : (hostFetch addr len s).kept = s.kept := by
  unfold hostFetch; (repeat' split) <;> simp
@[simp] theorem hostStore_kept (addr : Nat) (l : List Byte) (s : State) : (hostStore addr l s).kept = s.kept := by
  unfold hostStore; (repeat' split) <;> simp
@[simp] theorem evtWrite_kept (e : EventEntry) (s : State) : (evtWrite e s).kept = s.kept := by
  unfold evtWrite; simp
@[simp] theorem setWaiting_kept (w : List EventEntry) (s : State) : (setWaiting w s).kept = s.kept := by
  unfold setWaiting; simp
@[simp] theorem setGroup_kept (g : Nat) (f : EventGroup → EventGroup) (s : State) : (setGroup g f s).kept = s.kept
    := by
  unfold setGroup; simp
@[simp] theorem setStatusBit_kept (src : Nat) (s : State) : (setStatusBit src s).kept = s.kept := by
  unfold setStatusBit; simp
@[simp] theorem groupVector_kept (src : Nat) (was : Bool) (s : State) : (groupVector src was s).kept = s.kept := by
  unfold groupVector; simp
@[simp] theorem raiseStatus_kept (src p0 p1 : Nat) (s : State) : (raiseStatus src p0 p1 s).kept = s.kept := by
  unfold raiseStatus; simp
@[simp] theorem orderedWait_kept (e : EventEntry) (s : State) : (orderedWait e s).kept = s.kept := by
  unfold orderedWait; simp
@[simp] theorem raiseOrdered_kept (src p0 p1 : Nat) (s : State) : (raiseOrdered src p0 p1 s).kept = s.kept := by
  unfold raiseOrdered; simp
@[simp] theorem raise_kept (src p0 p1 : Nat) (s : State) : (raise src p0 p1 s).kept = s.kept := by
  unfold raise; simp
@[simp] theorem raiseP_kept (src p0 : Nat) (s : State) : (raiseP src p0 s).kept = s.kept := by
  unfold raiseP; simp
@[simp] theorem raiseN_kept (src : Nat) (s : State) : (raiseN src s).kept = s.kept := by
  unfold raiseN; simp
@[simp] theorem setCq_kept (n : Nat) (f : CplRing → CplRing) (s : State) : (setCq n f s).kept = s.kept := by
  unfold setCq; simp
@[simp] theorem cplWrite_kept (n : Nat) (c : Completion) (s : State) : (cplWrite n c s).kept = s.kept := by
  unfold cplWrite; simp
@[simp] theorem cplPost_kept (n : Nat) (c : Completion) (s : State) : (cplPost n c s).kept = s.kept := by
  unfold cplPost; simp
@[simp] theorem cplPump_kept (n : Nat) (y0 : Nat) (s : State) : (cplPump n y0 s).kept = s.kept := by
  induction y0 generalizing s with
  | zero => rfl
  | succ n ih => unfold cplPump; (repeat' split) <;> simp [ih]
@[simp] theorem mgtReturn_kept (c : Completion) (s : State) : (mgtReturn c s).kept = s.kept := by
  unfold mgtReturn; simp
@[simp] theorem postTo_kept (ring : Nat) (c : Completion) (s : State) : (postTo ring c s).kept = s.kept := by
  unfold postTo; simp
@[simp] theorem releaseLate_kept (jsn : Nat) (s : State) : (releaseLate jsn s).kept = s.kept := by
  unfold releaseLate; simp
@[simp] theorem evtRefill_kept (s : State) : (evtRefill s).kept = s.kept := by
  unfold evtRefill; (repeat' split) <;> simp
@[simp] theorem evtDrain_kept (y0 : Nat) (s : State) : (evtDrain y0 s).kept = s.kept := by
  induction y0 generalizing s with
  | zero => rfl
  | succ n ih => unfold evtDrain; (repeat' split) <;> simp [ih]
@[simp] theorem evtPump_kept (s : State) : (evtPump s).kept = s.kept := by
  unfold evtPump; simp
@[simp] theorem setRun_kept (jsn : Nat) (f : RunInfo → RunInfo) (s : State) : (setRun jsn f s).kept = s.kept := by
  unfold setRun; simp
@[simp] theorem setEntry_kept (jsn : Nat) (f : JournalEntry → JournalEntry) (s : State) : (setEntry jsn f s).kept =
    s.kept := by
  unfold setEntry; simp
@[simp] theorem waitRun_kept (jsn : Nat) (s : State) : (waitRun jsn s).kept = s.kept := by
  unfold waitRun; simp
@[simp] theorem startRun_kept (jsn : Nat) (s : State) : (startRun jsn s).kept = s.kept := by
  unfold startRun; simp
@[simp] theorem postAccepted_kept (e : JournalEntry) (s : State) : (postAccepted e s).kept = s.kept := by
  unfold postAccepted; simp
@[simp] theorem beginFree_kept (jsn : Nat) (s : State) : (beginFree jsn s).kept = s.kept := by
  unfold beginFree; simp
@[simp] theorem setSlot_kept (t : Bool × Nat) (k : KeySlot) (s : State) : (setSlot t k s).kept = s.kept := by
  unfold setSlot; simp
@[simp] theorem freePending_kept (e : JournalEntry) (s : State) : (freePending e s).kept = s.kept := by
  unfold freePending; simp
@[simp] theorem endPhase_kept (s : State) : (endPhase s).kept = s.kept := by
  unfold endPhase; simp
@[simp] theorem replayDone_kept (s : State) : (replayDone s).kept = s.kept := by
  unfold replayDone; simp
@[simp] theorem replayEnded_kept (wasReplayed : Bool) (s : State) : (replayEnded wasReplayed s).kept = s.kept := by
  unfold replayEnded; simp
@[simp] theorem abortMissed_kept (jsn : Nat) (s : State) : (abortMissed jsn s).kept = s.kept := by
  unfold abortMissed; simp
@[simp] theorem reportFirst_kept (e : JournalEntry) (s : State) : (reportFirst e s).kept = s.kept := by
  unfold reportFirst; simp
@[simp] theorem unpin_kept (e : JournalEntry) (s : State) : (unpin e s).kept = s.kept := by
  unfold unpin; simp
@[simp] theorem retireNow_kept (e : JournalEntry) (r : RunInfo) (status : Nat) (r0 r1 : Word) (s : State) :
    (retireNow e r status r0 r1 s).kept = s.kept := by
  unfold retireNow; simp
@[simp] theorem endCommand_kept (jsn status : Nat) (r0 r1 : Word) (s : State) : (endCommand jsn status r0 r1
    s).kept = s.kept := by
  unfold endCommand; (repeat' split) <;> simp
@[simp] theorem endWith_kept (jsn status r0 r1 : Nat) (s : State) : (endWith jsn status r0 r1 s).kept = s.kept := by
  unfold endWith; simp
@[simp] theorem endBare_kept (jsn st : Nat) (s : State) : (endBare jsn st s).kept = s.kept := by
  unfold endBare; simp
@[simp] theorem endR0_kept (jsn st r0 : Nat) (s : State) : (endR0 jsn st r0 s).kept = s.kept := by
  unfold endR0; simp
@[simp] theorem endR1_kept (jsn st r1 : Nat) (s : State) : (endR1 jsn st r1 s).kept = s.kept := by
  unfold endR1; simp
@[simp] theorem retireWaiting_kept (y0 : List Nat) (s : State) : (retireWaiting y0 s).kept = s.kept := by
  induction y0 generalizing s with
  | nil => rfl
  | cons j t ih => unfold retireWaiting; (repeat' split) <;> simp [ih]
@[simp] theorem onCommand_kept (op jsn : Nat) (s : State) (k : JournalEntry → RunInfo → State → State) (hk : ∀ (x0
    : JournalEntry) (x1 : RunInfo) (s : State), (k x0 x1 s).kept = s.kept) : (onCommand op jsn s k).kept = s.kept
    := by
  unfold onCommand; (repeat' split) <;> simp_all
@[simp] theorem modUnit_kept (u : Nat) (f : SysUnit → SysUnit) (s : State) : (modUnit u f s).kept = s.kept := by
  unfold modUnit; simp
@[simp] theorem setUnit_kept (u st cause : Nat) (s : State) : (setUnit u st cause s).kept = s.kept := by
  unfold setUnit; simp
@[simp] theorem addTransient_kept (u : Nat) (s : State) : (addTransient u s).kept = s.kept := by
  unfold addTransient; simp
@[simp] theorem needUnits_kept (us : List Nat) (jsn : Nat) (s : State) (k : State → State) (hk : ∀ (s : State), (k
    s).kept = s.kept) : (needUnits us jsn s k).kept = s.kept := by
  unfold needUnits; (repeat' split) <;> simp_all
@[simp] theorem wakeNow_kept (s : State) : (wakeNow s).kept = s.kept := by
  unfold wakeNow; simp
@[simp] theorem modLane_kept (n : Nat) (f : HlkLane → HlkLane) (s : State) : (modLane n f s).kept = s.kept := by
  unfold modLane; simp
@[simp] theorem sendBlocks_kept (lane : Nat) (l : List (BitVec 2 × Word)) (s : State) : (sendBlocks lane l s).kept = s.kept := by
  unfold sendBlocks; simp
@[simp] theorem sendFrame_kept (ftype source index : Nat) (data : List Word) (s : State) : (sendFrame ftype source index data s).kept = s.kept := by
  unfold sendFrame; (repeat' split) <;> simp
@[simp] theorem sendControl_kept (ftype : Nat) (data : List Word) (s : State) : (sendControl ftype data s).kept = s.kept := by
  unfold sendControl; (repeat' split) <;> simp
@[simp] theorem sendInhibit_kept (s : State) : (sendInhibit s).kept = s.kept := by
  unfold sendInhibit; rw [emit_kept, foldl_kept (fun s n => by split <;> simp)]
@[simp] theorem inhibitOn_kept (src : Nat) (s : State) : (inhibitOn src s).kept = s.kept := by
  unfold inhibitOn; dsimp only; split <;> simp

/-! ### Machine/Detector -/
@[simp] theorem setDetector_kept (track wrap : Nat) (d : Detector) (s : State) : (setDetector track wrap d s).kept = s.kept := by
  unfold setDetector; (repeat' split) <;> simp

/-! ### Machine/Porter -/
@[simp] theorem setPool_kept (p : Nat) (f : Pool → Pool) (s : State) : (setPool p f s).kept = s.kept := by
  unfold setPool; simp
@[simp] theorem setBuf_kept (p i : Nat) (b : BufRec) (s : State) : (setBuf p i b s).kept = s.kept := by
  unfold setBuf; simp
@[simp] theorem takeBuf_kept (p owner : Nat) (s : State) : (takeBuf p owner s).2.kept = s.kept := by
  unfold takeBuf; simp
theorem porterTry_kept (owner size : Nat) (s : State) (q : (Word × State)) (hr : porterTry owner size s = some q) :
    q.2.kept = s.kept := by
  unfold porterTry at hr; dsimp only at hr; split at hr
  · cases hr; rw [takeBuf_kept]; split <;> rfl
  · cases hr
@[simp] theorem noBuffer_kept (owner size : Nat) (s : State) : (noBuffer owner size s).kept = s.kept := by
  unfold noBuffer; simp
@[simp] theorem refuse_kept (caller oper reason : Nat) (h : Word) (s : State) : (refuse caller oper reason h
    s).kept = s.kept := by
  unfold refuse; simp
@[simp] theorem fwResult_kept (o : Nat) (w : Nat) (s : State) : (fwResult o w s).kept = s.kept := by
  unfold fwResult; simp
@[simp] theorem fwHandle_kept (o : Nat) (h : Word) (s : State) : (fwHandle o h s).kept = s.kept := by
  unfold fwHandle; simp
@[simp] theorem applyOwner_kept (op owner : Nat) (h : Word) (other : Nat) (s : State) : (applyOwner op owner h
    other s).kept = s.kept := by
  unfold applyOwner; simp
@[simp] theorem ownerOp_kept (op owner : Nat) (h : Word) (other : Nat) (s : State) : (ownerOp op owner h other
    s).kept = s.kept := by
  unfold ownerOp; (repeat' split) <;> simp
@[simp] theorem allocOp_kept (owner size : Nat) (wait : Bool) (s : State) : (allocOp owner size wait s).kept =
    s.kept := by
  unfold allocOp; split
  · simp
  · split
    · rename_i heq
      have h := porterTry_kept _ _ _ _ heq
      simpa using h
    · split <;> simp
@[simp] theorem clearBuffer_kept (p i : Nat) (s : State) : (clearBuffer p i s).kept = s.kept := by
  unfold clearBuffer; simp
@[simp] theorem returnBuf_kept (s : State) (pi : Nat × Nat) : (returnBuf s pi).kept = s.kept := by
  unfold returnBuf; simp
@[simp] theorem serveOne_kept (s : State) : (serveOne s).kept = s.kept := by
  unfold serveOne; (repeat' split) <;> simp
@[simp] theorem serveWaiting_kept (y0 : Nat) (s : State) : (serveWaiting y0 s).kept = s.kept := by
  induction y0 generalizing s with
  | zero => rfl
  | succ n ih => unfold serveWaiting; rw [ih, serveOne_kept]
@[simp] theorem publishPool_kept (s : State) (p : Nat) : (publishPool s p).kept = s.kept := by
  unfold publishPool; simp
@[simp] theorem porterSettle_kept (s : State) : (porterSettle s).kept = s.kept := by
  unfold porterSettle; simp

/-! ### Machine/Memory -/
@[simp] theorem setTable_kept (cls : Nat) (t : List ErrEntry) (s : State) : (setTable cls t s).kept = s.kept := by
  unfold setTable; simp
@[simp] theorem overTable_kept (cls : Nat) (s : State) : (overTable cls s).kept = s.kept := by
  unfold overTable; simp
@[simp] theorem logError_kept (cls addr pos kind : Nat) (s : State) : (logError cls addr pos kind s).kept = s.kept
    := by
  unfold logError; simp
@[simp] theorem failWrites_kept (st : Nat) (s : State) : (failWrites st s).kept = s.kept := by
  unfold failWrites; simp
@[simp] theorem flipDone_kept (cls addr : Nat) (s : State) : (flipDone cls addr s).kept = s.kept := by
  unfold flipDone; simp
@[simp] theorem hbmPut_kept (a : Nat) (l : List Byte) (poison : Bool) (s : State) : (hbmPut a l poison s).kept =
    s.kept := by
  unfold hbmPut; simp
@[simp] theorem fillGranule_kept (a : Nat) (s : State) : (fillGranule a s).kept = s.kept := by
  unfold fillGranule; simp
@[simp] theorem hbmWrite_kept (a : Nat) (l : List Byte) (s : State) : (hbmWrite a l s).kept = s.kept := by
  unfold hbmWrite; simp
@[simp] theorem pcCorrected_kept (pc : Nat) (s : State) : (pcCorrected pc s).kept = s.kept := by
  unfold pcCorrected; simp
@[simp] theorem pcRetire_kept (pc : Nat) (s : State) : (pcRetire pc s).kept = s.kept := by
  unfold pcRetire; simp
@[simp] theorem memDegraded_kept (addr : Nat) (s : State) : (memDegraded addr s).kept = s.kept := by
  unfold memDegraded; simp
@[simp] theorem pcLasting_kept (pc addr : Nat) (s : State) : (pcLasting pc addr s).kept = s.kept := by
  unfold pcLasting; simp
@[simp] theorem pcFailing_kept (a : Nat) (s : State) : (pcFailing a s).kept = s.kept := by
  unfold pcFailing; simp
@[simp] theorem lostWord_kept (a : Nat) (l : List Byte) (poison : Bool) (s : State) : (lostWord a l poison s).kept
    = s.kept := by
  unfold lostWord; simp
@[simp] theorem fixedWord_kept (a i : Nat) (s : State) : (fixedWord a i s).kept = s.kept := by
  unfold fixedWord; simp
@[simp] theorem hbmReadCopy_kept (a : Nat) (s : State) : (hbmReadCopy a s).2.2.kept = s.kept := by
  unfold hbmReadCopy; dsimp only; (repeat' split) <;> simp
@[simp] theorem mirrorLost_kept (a : Nat) (s : State) : (mirrorLost a s).kept = s.kept := by
  unfold mirrorLost; simp
@[simp] theorem hbmRead_kept (a : Nat) (s : State) : (hbmRead a s).2.2.kept = s.kept := by
  have h := fun a u => hbmReadCopy_kept a u
  unfold hbmRead; split
  · rename_i heq; exact (congrArg (fun p => p.2.2.kept) heq).symm.trans (h _ _)
  · rename_i heq
    have h1 := (congrArg (fun p => p.2.2.kept) heq).symm.trans (h _ _)
    split
    · split
      · rename_i heq2; exact (hbmPut_kept _ _ _ _).trans (((congrArg (fun p => p.2.2.kept) heq2).symm.trans (h _ _)).trans h1)
      · rename_i heq2; exact (mirrorLost_kept _ _).trans (((congrArg (fun p => p.2.2.kept) heq2).symm.trans (h _ _)).trans h1)
    · exact h1
@[simp] theorem hbmMerge_kept (a : Nat) (l : List (Option Byte)) (s : State) : (hbmMerge a l s).kept = s.kept := by
  have h := (hbmReadCopy_kept a (fillGranule a s)).trans (fillGranule_kept a s)
  unfold hbmMerge; dsimp only; split
  · rename_i heq; exact (hbmPut_kept _ _ _ _).trans ((congrArg (fun p => p.2.2.kept) heq).symm.trans h)
  · rename_i heq
    have h1 := (congrArg (fun p => p.2.2.kept) heq).symm.trans h
    simpa using h1
@[simp] theorem readHdm_kept (y0 : Nat) (y1 : Nat) (y2 : Nat) (s : State) : (readHdm y0 y1 y2 s).2.2.kept = s.kept
    := by
  induction y0 generalizing s y1 y2 with
  | zero => rfl
  | succ n ih =>
    unfold readHdm; split
    · rfl
    · exact (ih _ _ _).trans (hbmRead_kept (y1 / 32 * 32) s)
@[simp] theorem storeHbm_kept (y0 : Nat) (a : Nat) (l : List Byte) (s : State) : (storeHbm y0 a l s).kept = s.kept := by
  induction y0 generalizing a l s with
  | zero => rfl
  | succ n ih => unfold storeHbm; (repeat' split) <;> simp [ih]
@[simp] theorem noteEpoch_kept (dpa : Nat) (s : State) : (noteEpoch dpa s).kept = s.kept := by
  unfold noteEpoch; simp
@[simp] theorem ptlWord_kept (a : Nat) (l : List (Option Byte)) (s : State) : (ptlWord a l s).kept = s.kept := by
  unfold ptlWord; simp
@[simp] theorem scrubHbm_kept (a : Nat) (s : State) : (scrubHbm a s).kept = s.kept := by
  unfold scrubHbm; dsimp only; (repeat' split) <;> simp
@[simp] theorem sramPut_kept (a : Nat) (l : List Byte) (poison : Bool) (s : State) : (sramPut a l poison s).kept =
    s.kept := by
  unfold sramPut; simp
@[simp] theorem scrubSram_kept (a : Nat) (s : State) : (scrubSram a s).kept = s.kept := by
  unfold scrubSram; dsimp only; (repeat' split) <;> simp
@[simp] theorem flipCtrlFields_kept (value : Word) (s : State) : (flipCtrlFields value s).kept = s.kept := by
  unfold flipCtrlFields; simp
@[simp] theorem armTransfer_kept (s : State) : (armTransfer s).kept = s.kept := by
  unfold armTransfer; simp

/-! ### Machine/Intake -/
@[simp] theorem releaseLive_kept (l : List (Nat × Bool)) (s : State) : (releaseLive l s).kept = s.kept := by
  unfold releaseLive; simp
@[simp] theorem pumpRings_kept (s : State) : (pumpRings s).kept = s.kept := by
  unfold pumpRings; simp
@[simp] theorem ringTransfer_kept (s : State) : (ringTransfer s).kept = s.kept := by
  unfold ringTransfer; dsimp only; (repeat' split) <;> simp
@[simp] theorem doorbellErr_kept (ring value : Nat) (s : State) : (doorbellErr ring value s).kept = s.kept := by
  unfold doorbellErr; simp
@[simp] theorem setCounter_kept (f : Counter → Counter) (s : State) : (setCounter f s).kept = s.kept := by
  unfold setCounter; simp
@[simp] theorem sopWord_kept (w : Word) (s : State) : (sopWord w s).kept = s.kept := by
  unfold sopWord; simp

/-! ### Machine/JournalRows -/
@[simp] theorem noteFull_kept (src : Nat) (s : State) : (noteFull src s).kept = s.kept := by
  unfold noteFull; (repeat' split) <;> simp
@[simp] theorem nextTurn_kept (s : State) : (nextTurn s).kept = s.kept := by
  unfold nextTurn; simp
@[simp] theorem ringTurn_kept (y0 : Nat) (s : State) : (ringTurn y0 s).1.kept = s.kept := by
  induction y0 generalizing s with
  | zero => rfl
  | succ n ih => unfold ringTurn; dsimp only; (repeat' split) <;> simp [ih]
@[simp] theorem takePacket_kept (s : State) : (takePacket s).1.kept = s.kept := by
  unfold takePacket; dsimp only; (repeat' split) <;> simp
@[simp] theorem rejectPacket_kept (src : Nat) (ws : List Word) (st : Nat) (s : State) : (rejectPacket src ws st
    s).kept = s.kept := by
  unfold rejectPacket; simp
@[simp] theorem fetchList_kept (ws : List Word) (s : State) : (fetchList ws s).kept = s.kept := by
  unfold fetchList; (repeat' split) <;> simp
@[simp] theorem mgtArrive_kept (s : State) : (mgtArrive s).kept = s.kept := by
  unfold mgtArrive; simp
@[simp] theorem mgtDrop_kept (mtype code : Nat) (s : State) : (mgtDrop mtype code s).kept = s.kept := by
  unfold mgtDrop; simp

/-! ### Machine/Context -/
@[simp] theorem setCtx_kept (n : Nat) (f : Context → Context) (s : State) : (setCtx n f s).kept = s.kept := by
  unfold setCtx; simp
@[simp] theorem endWriteAt_kept (e : JournalEntry) (st r1 : Nat) (s : State) : (endWriteAt e st r1 s).kept = s.kept := by
  unfold endWriteAt; simp
@[simp] theorem endWrite_kept (e : JournalEntry) (st : Nat) (s : State) : (endWrite e st s).kept = s.kept := by
  unfold endWrite; simp
@[simp] theorem touchLine_kept (c : Nat) (s : State) : (touchLine c s).kept = s.kept := by
  unfold touchLine; simp
@[simp] theorem addPin_kept (jsn c : Nat) (s : State) : (addPin jsn c s).kept = s.kept := by
  unfold addPin; simp
theorem pinCtx_kept (jsn c : Nat) (s : State) (q : State) (hr : pinCtx jsn c s = some q) : q.kept = s.kept := by
  unfold pinCtx at hr; (repeat' split at hr) <;> cases hr <;> simp
@[simp] theorem cacheWait_kept (jsn c : Nat) (s : State) : (cacheWait jsn c s).kept = s.kept := by
  unfold cacheWait; simp
@[simp] theorem endEarly_kept (e : JournalEntry) (st : Nat) (s : State) : (endEarly e st s).kept = s.kept := by
  unfold endEarly; dsimp only; (repeat' split) <;> simp
@[simp] theorem notOpen_kept (e : JournalEntry) (s : State) : (notOpen e s).kept = s.kept := by
  unfold notOpen; simp
@[simp] theorem fetchHost_kept (e : JournalEntry) (s : State) : (fetchHost e s).kept = s.kept := by
  unfold fetchHost; (repeat' split) <;> simp
@[simp] theorem withHost_kept (e : JournalEntry) (r : RunInfo) (s : State) (k : JournalEntry → RunInfo → State → State)
    (hk : ∀ (x0 : JournalEntry) (x1 : RunInfo) (s : State), (k x0 x1 s).kept = s.kept) : (withHost e r s k).kept = s.kept := by
  unfold withHost; split <;> simp [hk]
@[simp] theorem onBegin_kept (op jsn : Nat) (s : State) (k : JournalEntry → RunInfo → State → State) (hk : ∀ (x0 :
    JournalEntry) (x1 : RunInfo) (s : State), (k x0 x1 s).kept = s.kept) : (onBegin op jsn s k).kept = s.kept := by
  unfold onBegin; refine onCommand_kept _ _ _ _ (fun e r s => ?_); split
  · simp
  · split
    · exact withHost_kept e r s k hk
    · split
      · simp
      · rename_i heq
        have := pinCtx_kept _ _ _ _ heq
        split <;> simp [hk, this]
@[simp] theorem freeBuffer_kept (owner : Nat) (h : Word) (s : State) : (freeBuffer owner h s).kept = s.kept := by
  unfold freeBuffer; simp
@[simp] theorem dropChained_kept (c : Chained) (s : State) : (dropChained c s).kept = s.kept := by
  unfold dropChained; simp
@[simp] theorem dropChainedOf_kept (ctx : Nat) (s : State) : (dropChainedOf ctx s).kept = s.kept := by
  unfold dropChainedOf; simp
@[simp] theorem dropDict_kept (ctx : Nat) (s : State) : (dropDict ctx s).kept = s.kept := by
  unfold dropDict; simp
@[simp] theorem openCtx_kept (e : JournalEntry) (s : State) : (openCtx e s).kept = s.kept := by
  unfold openCtx; simp
@[simp] theorem closeCtx_kept (e : JournalEntry) (s : State) : (closeCtx e s).kept = s.kept := by
  unfold closeCtx; simp
@[simp] theorem profileCtx_kept (e : JournalEntry) (s : State) : (profileCtx e s).kept = s.kept := by
  unfold profileCtx; (repeat' split) <;> simp
@[simp] theorem overflowBytes_kept (e : JournalEntry) (c : Chained) (done n : Nat) (s : State) : (overflowBytes e c done n s).kept = s.kept := by
  unfold overflowBytes; (repeat' split) <;> simp
@[simp] theorem readOverflow_kept (e : JournalEntry) (c : Chained) (done : Nat) (s : State) : (readOverflow e c done s).kept = s.kept := by
  unfold readOverflow; simp
@[simp] theorem overflowPart_kept (e : JournalEntry) (c : Chained) (done part : Nat) (s : State) : (overflowPart e c done part s).kept = s.kept := by
  unfold overflowPart; (repeat' split) <;> simp

/-! ### Machine/Cipher -/
@[simp] theorem raiseCeil_kept (s : State) : (raiseCeil s).kept = s.kept := by
  unfold raiseCeil; simp
@[simp] theorem writeCeil_kept (c : Nat) (s : State) : (writeCeil c s).kept = s.kept := by
  unfold writeCeil; simp
@[simp] theorem exhaust_kept (t : Bool × Nat) (which : Nat) (s : State) : (exhaust t which s).kept = s.kept := by
  unfold exhaust; simp
@[simp] theorem countDraw_kept (s : State) : (countDraw s).kept = s.kept := by
  unfold countDraw; simp
@[simp] theorem drawLimited_kept (t : Bool × Nat) (s : State) : (drawLimited t s).2.kept = s.kept := by
  unfold drawLimited; dsimp only; (repeat' split) <;> simp
@[simp] theorem drawNormal_kept (t : Bool × Nat) (s : State) : (drawNormal t s).2.kept = s.kept := by
  unfold drawNormal; dsimp only; (repeat' split) <;> simp
@[simp] theorem drawIv_kept (t : Bool × Nat) (s : State) : (drawIv t s).2.kept = s.kept := by
  unfold drawIv; (repeat' split) <;> simp
@[simp] theorem burnIv_kept (n : Nat) (s : State) : (burnIv n s).kept = s.kept := by
  unfold burnIv; simp
@[simp] theorem loadKey_kept (t : Bool × Nat) (label : Nat) (wrapped : List Byte) (s : State) : (loadKey t label wrapped s).kept = s.kept := by
  unfold loadKey; simp
@[simp] theorem clearKey_kept (t : Bool × Nat) (s : State) : (clearKey t s).kept = s.kept := by
  unfold clearKey; simp
@[simp] theorem ceilRepair_kept (s : State) : (ceilRepair s).kept = s.kept := by
  unfold ceilRepair; simp
@[simp] theorem finishJob_kept (j : CipherJob) (lane result : Nat) (s : State) : (finishJob j lane result s).kept =
    s.kept := by
  unfold finishJob; simp
@[simp] theorem setLane_kept (n : Nat) (f : Lane → Lane) (s : State) : (setLane n f s).kept = s.kept := by
  unfold setLane; simp
@[simp] theorem jobOutput_kept (addr : Nat) (l : List Byte) (s : State) : (jobOutput addr l s).kept = s.kept := by
  unfold jobOutput; simp
@[simp] theorem stampHeader_kept (j : CipherJob) (s : State) : (stampHeader j s).kept = s.kept := by
  unfold stampHeader; (repeat' split) <;> simp
@[simp] theorem runEncrypt_kept (j : CipherJob) (s : State) : (runEncrypt j s).kept = s.kept := by
  unfold runEncrypt jobInput
  have h := readHdm_kept (j.req.len / 32 + 2) j.req.src.toNat j.req.len s
  split; rename_i heq; simp at heq; simp [← heq.2, h]
@[simp] theorem startJob_kept (n : Nat) (j : CipherJob) (s : State) : (startJob n j s).kept = s.kept := by
  unfold startJob; dsimp only; split
  · have h := drawIv_kept (j.req.dev, j.req.slot) s
    split <;> (rename_i heq; rw [heq] at h; simpa using h)
  · split <;> simp
@[simp] theorem unqueue_kept (j : CipherJob) (s : State) : (unqueue j s).kept = s.kept := by
  unfold unqueue; simp
@[simp] theorem resumeJob_kept (n : Nat) (a : SaveArea) (s : State) : (resumeJob n a s).kept = s.kept := by
  unfold resumeJob; (repeat' split) <;> simp
@[simp] theorem laneFill_kept (y0 n : Nat) (s : State) : (laneFill y0 n s).kept = s.kept := by
  induction y0 generalizing s with
  | zero => rfl
  | succ k ih => unfold laneFill; (repeat' split) <;> simp [ih]
@[simp] theorem laneNext_kept (n : Nat) (s : State) : (laneNext n s).kept = s.kept := laneFill_kept _ n s
@[simp] theorem suspend_kept (n : Nat) (j : CipherJob) (s : State) : (suspend n j s).kept = s.kept := by
  unfold suspend; simp
@[simp] theorem placeJob_kept (j : CipherJob) (s : State) : (placeJob j s).kept = s.kept := by
  unfold placeJob; (repeat' split) <;> simp
@[simp] theorem postJob_kept (q : CipherRequest) (s : State) : (postJob q s).kept = s.kept := by
  unfold postJob; simp
@[simp] theorem pumpLanes_kept (s : State) : (pumpLanes s).kept = s.kept := by
  unfold pumpLanes; simp
@[simp] theorem runOnLane_kept (n : Nat) (s : State) : (runOnLane n s).kept = s.kept := by
  unfold runOnLane; (repeat' split) <;> simp
@[simp] theorem burnJob_kept (j : CipherJob) (s : State) : (burnJob j s).kept = s.kept := by
  unfold burnJob; simp
@[simp] theorem cancelJob_kept (c : Word) (s : State) : (cancelJob c s).kept = s.kept := by
  unfold cancelJob; (repeat' split) <;> simp
@[simp] theorem endStarting_kept (s : State) : (endStarting s).kept = s.kept := by
  unfold endStarting; (repeat' split) <;> simp

/-! ### Machine/Drover -/
@[simp] theorem setLoop_kept (n : Nat) (f : Loop → Loop) (s : State) : (setLoop n f s).kept = s.kept := by
  unfold setLoop; simp
@[simp] theorem stopLoop_kept (openLoop : Bool) (s : State) : (stopLoop openLoop s).kept = s.kept := by
  unfold stopLoop; simp
@[simp] theorem stopCurrents_kept (s : State) : (stopCurrents s).kept = s.kept := by
  unfold stopCurrents; simp
@[simp] theorem beginStop_kept (cause : Nat) (s : State) : (beginStop cause s).kept = s.kept := by
  unfold beginStop; simp
@[simp] theorem recurringStop_kept (cause : Nat) (s : State) : (recurringStop cause s).kept = s.kept := by
  unfold recurringStop; simp
@[simp] theorem safeStop_kept (loop cause : Nat) (s : State) : (safeStop loop cause s).kept = s.kept := by
  unfold safeStop; simp
@[simp] theorem feTrip_kept (n : Nat) (e24 : Int) (s : State) : (feTrip n e24 s).kept = s.kept := by
  unfold feTrip; simp
@[simp] theorem feCheck_kept (n : Nat) (e24 : Int) (s : State) : (feCheck n e24 s).kept = s.kept := by
  unfold feCheck; simp
@[simp] theorem addBusy_kept (n : Nat) (s : State) : (addBusy n s).kept = s.kept := by
  unfold addBusy; simp
@[simp] theorem missingLoop_kept (n src : Nat) (s : State) : (missingLoop n src s).kept = s.kept := by
  unfold missingLoop; simp
@[simp] theorem satEvents_kept (n : Nat) (sats : List Nat) (s : State) : (satEvents n sats s).kept = s.kept := by
  unfold satEvents; (repeat' split) <;> simp
@[simp] theorem deliver_kept (n : Nat) (s : State) : (deliver n s).kept = s.kept := by
  unfold deliver; simp
@[simp] theorem computeLoop_kept (n : Nat) (e24 fb : Int) (s : State) : (computeLoop n e24 fb s).kept = s.kept := by
  unfold computeLoop; simp
@[simp] theorem runLoop_kept (inp : List (Nat × Int)) (n : Nat) (s : State) : (runLoop inp n s).kept = s.kept := by
  unfold runLoop; (repeat' split) <;> simp
@[simp] theorem keep24_kept (x : Rat) (s : State) : (keep24 x s).2.kept = s.kept := by
  unfold keep24; dsimp only; (repeat' split) <;> simp
@[simp] theorem profileDone_kept (n : Nat) (s : State) : (profileDone n s).kept = s.kept := by
  unfold profileDone; simp
@[simp] theorem profileStep_kept (period n : Nat) (s : State) : (profileStep period n s).kept = s.kept := by
  unfold profileStep; simp
@[simp] theorem droverTransfer_kept (s : State) : (droverTransfer s).kept = s.kept := by
  unfold droverTransfer; (repeat' split) <;> simp
@[simp] theorem modeChange_kept (made n : Nat) (s : State) : (modeChange made n s).2.kept = s.kept := by
  unfold modeChange; dsimp only; (repeat' split) <;> simp
@[simp] theorem modeChanges_kept (s : State) : (modeChanges s).kept = s.kept := by
  unfold modeChanges; generalize (0 : Nat) = m; generalize List.range 32 = l
  induction l generalizing m s with
  | nil => rfl
  | cons a t ih => exact (ih _ _).trans (modeChange_kept _ _ _)
@[simp] theorem takeTargets_kept (s : State) : (takeTargets s).kept = s.kept := by
  unfold takeTargets; simp
@[simp] theorem droverChanges_kept (s : State) : (droverChanges s).kept = s.kept := by
  unfold droverChanges; simp
@[simp] theorem applyOut_kept (n : Nat) (c : Int) (s : State) : (applyOut n c s).kept = s.kept := by
  unfold applyOut; simp
@[simp] theorem overrunLoop_kept (n : Nat) (late : Bool) (s : State) : (overrunLoop n late s).kept = s.kept := by
  unfold overrunLoop; dsimp only; (repeat' split) <;> simp
@[simp] theorem abandon_kept (n : Nat) (s : State) : (abandon n s).kept = s.kept := by
  unfold abandon; simp
@[simp] theorem edgeLoop_kept (unfinished : List Nat) (n : Nat) (s : State) : (edgeLoop unfinished n s).kept =
    s.kept := by
  unfold edgeLoop; dsimp only; (repeat' split) <;> simp
@[simp] theorem unposted_kept (s : State) : (unposted s).kept = s.kept := by
  unfold unposted; simp
@[simp] theorem busyEdge_kept (s : State) : (busyEdge s).kept = s.kept := by
  unfold busyEdge; simp
@[simp] theorem droverTick_kept (period : Nat) (unfinished : List Nat) (inp : List (Nat × Int)) (s : State) :
    (droverTick period unfinished inp s).kept = s.kept := by
  unfold droverTick; simp
@[simp] theorem postLoop_kept (m : List (Nat × Int)) (n : Nat) (s : State) : (postLoop m n s).kept = s.kept := by
  unfold postLoop; simp
@[simp] theorem postAll_kept (m : List (Nat × Int)) (s : State) : (postAll m s).kept = s.kept := by
  unfold postAll; simp
@[simp] theorem dacDone_kept (s : State) : (dacDone s).kept = s.kept := by
  unfold dacDone; dsimp only; (repeat' split) <;> simp

/-! ### Machine/Transport -/
@[simp] theorem loadDefaults_kept (s : State) : (loadDefaults s).kept = s.kept := by
  unfold loadDefaults; simp
@[simp] theorem reloadSections_kept (s : State) : (reloadSections s).kept = s.kept := by
  unfold reloadSections; simp
@[simp] theorem setSensor_kept (n : Nat) (f : Sensor → Sensor) (s : State) : (setSensor n f s).kept = s.kept := by
  unfold setSensor; simp
@[simp] theorem sensorFail_kept (n : Nat) (s : State) : (sensorFail n s).kept = s.kept := by
  unfold sensorFail; simp
@[simp] theorem channelFail_kept (n : Nat) (s : State) : (channelFail n s).kept = s.kept := by
  unfold channelFail; simp
@[simp] theorem checkEncoders_kept (t : TickInput) (s : State) : (checkEncoders t s).kept = s.kept := by
  unfold checkEncoders; simp
@[simp] theorem checkTension_kept (t : TickInput) (s : State) : (checkTension t s).kept = s.kept := by
  unfold checkTension; (repeat' split) <;> simp
@[simp] theorem checkChannel_kept (t : TickInput) (s : State) (i : Nat) : (checkChannel t s i).kept = s.kept := by
  unfold checkChannel; simp
@[simp] theorem checkCurrent_kept (t : TickInput) (s : State) (i : Nat) : (checkCurrent t s i).kept = s.kept := by
  unfold checkCurrent; (repeat' split) <;> simp
@[simp] theorem checkSensors_kept (t : TickInput) (s : State) : (checkSensors t s).kept = s.kept := by
  unfold checkSensors; simp
@[simp] theorem checkOfftrack_kept (s : State) : (checkOfftrack s).kept = s.kept := by
  have k : ∀ (u : State) x, ({ u with mon := x } : State).kept = u.kept := fun _ _ => rfl
  unfold checkOfftrack; dsimp only; split
  · rfl
  · rw [k]; split
    · exact inhibitOn_kept _ _
    · rfl
@[simp] theorem readServoFrame_kept (t : TickInput) (s : State) : (readServoFrame t s).kept = s.kept := by
  unfold readServoFrame; dsimp only; (repeat' split) <;> simp
@[simp] theorem bandLocked_kept (s : State) : (bandLocked s).kept = s.kept := by
  unfold bandLocked; (repeat' split) <;> simp
@[simp] theorem writeGate_kept (on : Bool) (s : State) : (writeGate on s).kept = s.kept := by
  unfold writeGate; simp
@[simp] theorem releaseInhibit_kept (s : State) : (releaseInhibit s).kept = s.kept := by
  unfold releaseInhibit; simp
@[simp] theorem chooseStep_kept (st : Nat) (s : State) : (chooseStep st s).kept = s.kept := by
  unfold chooseStep; simp
@[simp] theorem applyStep_kept (s : State) : (applyStep s).kept = s.kept := by
  unfold applyStep; simp
@[simp] theorem capDown_kept (s : State) : (capDown s).kept = s.kept := by
  unfold capDown; simp

/-! ### Machine/Format -/
@[simp] theorem modCart_kept (f : Cartridge → Cartridge) (s : State) : (modCart f s).kept = s.kept := by
  unfold modCart; simp
@[simp] theorem noteBlocked_kept (s : State) : (noteBlocked s).kept = s.kept := by
  unfold noteBlocked; simp
@[simp] theorem cutEnd_kept (p n : Nat) (s : State) : (cutEnd p n s).kept = s.kept := by
  unfold cutEnd; (repeat' split) <;> simp
theorem openDataset_kept (p : Nat) (s : State) (q : State) (hr : openDataset p s = some q) : q.kept = s.kept := by
  unfold openDataset at hr; split at hr
  · cases hr
  · split at hr
    · cases hr
    · rename_i heq
      have := porterTry_kept _ _ _ _ heq
      cases hr; simpa using this
@[simp] theorem parkOpened_kept (s : State) : (parkOpened s).kept = s.kept := by
  unfold parkOpened; (repeat' split) <;> simp
@[simp] theorem modOpened_kept (f : OpenDataset → OpenDataset) (s : State) : (modOpened f s).kept = s.kept := by
  unfold modOpened; simp
@[simp] theorem setWrite_kept (jsn : Nat) (f : WriteRun → WriteRun) (s : State) : (setWrite jsn f s).kept = s.kept
    := by
  unfold setWrite; simp
theorem putFrameBytes_kept (n : Nat) (meter : Option Nat) (w : WriteRun) (first : Nat) (s : State) (q : State) (hr
    : putFrameBytes n meter w first s = some q) : q.kept = s.kept := by
  unfold putFrameBytes at hr; split at hr
  · cases hr
  · dsimp only at hr; split at hr
    · cases hr; simp
    · refine optMap_kept (fun _ => by simp) (fun r h => ?_) q hr
      have := openDataset_kept _ _ _ h; simpa using this
@[simp] theorem noteDone_kept (jsn : Nat) (s : State) : (noteDone jsn s).kept = s.kept := by
  unfold noteDone; (repeat' split) <;> simp
@[simp] theorem sealOpen_kept (ctx : Nat) (s : State) : (sealOpen ctx s).kept = s.kept := by
  unfold sealOpen; (repeat' split) <;> simp
theorem closeFrame_kept (s : State) (q : State) (hr : closeFrame s = some q) : q.kept = s.kept := by
  unfold closeFrame at hr; split at hr
  · cases hr; rfl
  · split at hr
    · cases hr; rfl
    · dsimp only at hr; split at hr
      · cases hr; simp
      · exact optMap_kept (fun _ => by simp) (fun r h => putFrameBytes_kept _ _ _ _ _ _ h) q hr
theorem closeDataset_kept (s : State) (q : State) (hr : closeDataset s = some q) : q.kept = s.kept := by
  unfold closeDataset at hr; split at hr
  · cases hr
  · rename_i heq
    have := closeFrame_kept _ _ heq
    split at hr <;> cases hr <;> simp [this]
@[simp] theorem closeOpen_kept (s : State) : (closeOpen s).kept = s.kept := getD_kept (fun r h => closeDataset_kept
    _ _ h) _ rfl
@[simp] theorem noteSeq_kept (seq : Nat) (marks : List (Nat × Nat)) (s : State) : (noteSeq seq marks s).kept =
    s.kept := by
  unfold noteSeq; simp
@[simp] theorem formWith_kept (ds : Dataset) (w : WrittenDataset) (s : State) : (formWith ds w s).kept = s.kept := by
  unfold formWith; simp
@[simp] theorem closeGroup_kept (p : Nat) (s : State) : (closeGroup p s).kept = s.kept := by
  unfold closeGroup; simp
@[simp] theorem joinGroup_kept (p : Nat) (trunc : Bool) (s : State) : (joinGroup p trunc s).2.2.kept = s.kept := by
  unfold joinGroup; dsimp only; (repeat' split) <;> simp
@[simp] theorem formData_kept (o : OpenDataset) (s : State) : (formData o s).kept = s.kept := by
  unfold formData; simp
theorem formBare_kept (ds : Dataset) (s : State) (q : State) (hr : formBare ds s = some q) : q.kept = s.kept := by
  unfold formBare at hr; split at hr
  · cases hr
  · cases hp : porterTry 6 8388608 s with
    | none => rw [hp] at hr; cases hr
    | some p => rw [hp] at hr; cases hr; exact porterTry_kept _ _ _ _ hp
theorem formParity_kept (g : C3Group) (y0 : Nat) (s : State) (q : State) (hr : formParity g y0 s = some q) : q.kept
    = s.kept := by
  induction y0 generalizing s with
  | zero => unfold formParity at hr; cases hr; rfl
  | succ n ih =>
    unfold formParity at hr; dsimp only at hr; split at hr
    · cases hr
    · rename_i heq; rw [ih _ hr, formBare_kept _ _ _ heq]
@[simp] theorem formNext_kept (y0 : Nat) (s : State) : (formNext y0 s).kept = s.kept := by
  induction y0 generalizing s with
  | zero => rfl
  | succ n ih =>
    unfold formNext; split
    · split
      · rename_i heq; rw [ih, formParity_kept _ _ _ _ heq]
      · rfl
    · split
      · rfl
      · split
        · rw [ih]; simp
        · rfl
@[simp] theorem formAll_kept (s : State) : (formAll s).kept = s.kept := by
  unfold formAll; simp
@[simp] theorem updateHistory_kept (s : State) : (updateHistory s).kept = s.kept := by
  unfold updateHistory; (repeat' split) <;> simp
@[simp] theorem writeStatus_kept (dirty : Bool) (s : State) : (writeStatus dirty s).kept = s.kept := by
  unfold writeStatus; split <;> simp
@[simp] theorem writeHistory_kept (s : State) : (writeHistory s).kept = s.kept := by
  unfold writeHistory; (repeat' split) <;> simp

/-! ### Machine/WrapRecord -/
@[simp] theorem countPass_kept (track : Nat) (s : State) : (countPass track s).kept = s.kept := by
  unfold countPass; simp
@[simp] theorem countSlots_kept (s : State) : (countSlots s).kept = s.kept := by
  unfold countSlots; simp
@[simp] theorem countNoise_kept (track : Nat) (d : Detector) (ys : List Rat) (word : List Bool) (s : State) : (countNoise track d ys word s).kept = s.kept := by
  unfold countNoise; (repeat' split) <;> simp
@[simp] theorem ratioEvent_kept (r : WrapRecord) (s : State) : (ratioEvent r s).kept = s.kept := by
  unfold ratioEvent; simp
@[simp] theorem leaveWrap_kept (s : State) : (leaveWrap s).kept = s.kept := by
  unfold leaveWrap; simp

/-! ### Machine/Load -/
@[simp] theorem endMediaExclusions_kept (s : State) : (endMediaExclusions s).kept = s.kept := by
  unfold endMediaExclusions; simp
@[simp] theorem toBand_kept (b : Nat) (s : State) : (toBand b s).kept = s.kept := by
  unfold toBand; (repeat' split) <;> simp
@[simp] theorem atWrap_kept (w : Nat) (s : State) : (atWrap w s).kept = s.kept := by
  unfold atWrap; dsimp only; (repeat' split) <;> simp
@[simp] theorem dropHeld_kept (s : State) : (dropHeld s).kept = s.kept := by
  unfold dropHeld; simp
@[simp] theorem putOnTape_kept (d : Dataset) (s : State) : (putOnTape d s).kept = s.kept := by
  unfold putOnTape; (repeat' split) <;> simp
@[simp] theorem putInRun_kept (d : Dataset) (s : State) : (putInRun d s).kept = s.kept := by
  unfold putInRun; simp
@[simp] theorem toRunWrap_kept (p : Nat) (s : State) : (toRunWrap p s).kept = s.kept := by
  unfold toRunWrap; (repeat' split) <;> simp
@[simp] theorem cutChain_kept (p n : Nat) (s : State) : (cutChain p n s).kept = s.kept := by
  unfold cutChain; (repeat' split) <;> simp
@[simp] theorem recordBase_kept (p : Nat) (s : State) : (recordBase p s).kept = s.kept := by
  unfold recordBase; (repeat' split) <;> simp
@[simp] theorem beforeRun_kept (p : Nat) (s : State) : (beforeRun p s).kept = s.kept := by
  unfold beforeRun; simp
@[simp] theorem withBuffer_kept (f : State → State) (hf : ∀ s, (f s).kept = s.kept) (s : State) :
    (withBuffer f s).kept = s.kept := by
  unfold withBuffer; split
  · rename_i heq; rw [freeBuffer_kept, hf, porterTry_kept _ _ _ _ heq]
  · exact hf s
@[simp] theorem writeEod_kept (p first : Nat) (trunc : Bool) (s : State) : (writeEod p first trunc s).kept = s.kept := by
  unfold writeEod; exact withBuffer_kept _ (fun s => by simp) s
@[simp] theorem truncateRun_kept (p first : Nat) (s : State) : (truncateRun p first s).kept = s.kept := by
  unfold truncateRun; simp
@[simp] theorem payOwed_kept (p : Nat) (s : State) : (payOwed p s).kept = s.kept := by
  unfold payOwed; (repeat' split) <;> simp
@[simp] theorem formatCart_kept (pairs : List Nat) (c3 : Nat) (s : State) : (formatCart pairs c3 s).kept = s.kept
    := by
  unfold formatCart; simp
@[simp] theorem formatContexts_kept (count : Nat) (s : State) : (formatContexts count s).kept = s.kept := by
  unfold formatContexts; simp
@[simp] theorem takeCart_kept (c : Cartridge) (s : State) : (takeCart c s).kept = s.kept := by
  unfold takeCart; simp
@[simp] theorem takeInvalid_kept (c : Cartridge) (s : State) : (takeInvalid c s).kept = s.kept := rfl
@[simp] theorem payPending_kept (c : Cartridge) (s : State) : (payPending c s).kept = s.kept := by
  unfold payPending; dsimp only; refine foldl_kept (fun s x => ?_) _ _; (repeat' split) <;> simp
@[simp] theorem loadCart_kept (s : State) : (loadCart s).2.kept = s.kept := by
  unfold loadCart; dsimp only; (repeat' split) <;> simp
@[simp] theorem autoLoad_kept (s : State) : (autoLoad s).kept = s.kept := by
  unfold autoLoad; simp

/-! ### Machine/Write -/
@[simp] theorem liftCap_kept (s : State) : (liftCap s).kept = s.kept := by
  unfold liftCap; (repeat' split) <;> simp
@[simp] theorem markRetried_kept (jsn : Nat) (s : State) : (markRetried jsn s).kept = s.kept := by
  unfold markRetried; simp
@[simp] theorem onTape_kept (op jsn : Nat) (s : State) (k : JournalEntry → RunInfo → State → State) (hk : ∀ (x0 :
    JournalEntry) (x1 : RunInfo) (s : State), (k x0 x1 s).kept = s.kept) : (onTape op jsn s k).kept = s.kept := by
  unfold onTape; simp_all
@[simp] theorem laneTransient_kept (k unit : Nat) (s : State) : (laneTransient k unit s).kept = s.kept := by
  unfold laneTransient; simp
@[simp] theorem finishWrite_kept (w : WriteRun) (st : Nat) (r1 : Nat) (s : State) : (finishWrite w st r1 s).kept =
    s.kept := by
  unfold finishWrite; (repeat' split) <;> simp
@[simp] theorem settleWrite_kept (s : State) (jsn : Nat) : (settleWrite s jsn).kept = s.kept := by
  unfold settleWrite; (repeat' split) <;> simp
@[simp] theorem settleWrites_kept (s : State) : (settleWrites s).kept = s.kept := by
  unfold settleWrites; simp
@[simp] theorem stopWrite_kept (jsn st : Nat) (r1 : Option Nat) (s : State) : (stopWrite jsn st r1 s).kept = s.kept := by
  have hs : ∀ (c : Nat) (u : State), ((closeFrame u).getD (sealOpen c u)).kept = u.kept :=
    fun c u => getD_kept (fun r h => closeFrame_kept _ _ h) _ (by simp)
  unfold stopWrite; dsimp only; (repeat' split) <;> simp [hs]
@[simp] theorem stopAllWrites_kept (st : Nat) (s : State) : (stopAllWrites st s).kept = s.kept := by
  unfold stopAllWrites; simp
@[simp] theorem flushOpen_kept (s : State) : (flushOpen s).kept = s.kept := by
  unfold flushOpen; dsimp only; (repeat' split) <;> simp
@[simp] theorem afterWrites_kept (s : State) : (afterWrites s).kept = s.kept := by
  unfold afterWrites; simp
@[simp] theorem beginRun_kept (w : WriteRun) (s : State) : (beginRun w s).kept = s.kept := by
  have h := setRun_kept w.jsn (fun r => { r with grant := some (w.tenant, w.level, w.persist, w.partition) }) s
  unfold beginRun; dsimp only; rw [afterWrites_kept, startRun_kept]; exact h
@[simp] theorem placeAt_kept (pos p : Nat) (s : State) : (placeAt pos p s).kept = s.kept := by
  unfold placeAt; simp
@[simp] theorem truncateOwed_kept (p : Nat) (s : State) : (truncateOwed p s).kept = s.kept := by
  unfold truncateOwed; simp
@[simp] theorem startItems_kept (e : JournalEntry) (r : RunInfo) (fm : Nat) (lens : List Nat) (s : State) :
    (startItems e r fm lens s).kept = s.kept := by
  unfold startItems; dsimp only; (repeat' split) <;> simp
@[simp] theorem startWait_kept (e : JournalEntry) (r : RunInfo) (s : State) : (startWait e r s).kept = s.kept := by
  unfold startWait; simp
@[simp] theorem retractEvent_kept (jsn seq p reason : Nat) (repl : Bool) (s : State) : (retractEvent jsn seq p
    reason repl s).kept = s.kept := by
  unfold retractEvent; simp
@[simp] theorem retract_kept (d : WrittenDataset) (reason : Nat) (s : State) : (retract d reason s).kept = s.kept
    := by
  unfold retract; simp
@[simp] theorem dropDataset_kept (d : WrittenDataset) (s : State) : (dropDataset d s).kept = s.kept := by
  unfold dropDataset; simp
@[simp] theorem dropAssembled_kept (p : Nat) (s : State) : (dropAssembled p s).kept = s.kept := by
  unfold dropAssembled; simp
@[simp] theorem fitBuffers_kept (jsn : Nat) (s : State) : (fitBuffers jsn s).kept = s.kept := by
  unfold fitBuffers; split
  · rfl
  · dsimp only; split
    · rw [foldl_kept (fun s h => freeBuffer_kept _ _ _)]; simp
    · refine foldl_kept (fun s _ => ?_) _ _; split
      · rename_i heq; rw [setWrite_kept, porterTry_kept _ _ _ _ heq]
      · rfl
@[simp] theorem fitAll_kept (s : State) : (fitAll s).kept = s.kept := by
  unfold fitAll; (repeat' split) <;> simp
@[simp] theorem restartPipeline_kept (p : Nat) (s : State) : (restartPipeline p s).kept = s.kept := by
  unfold restartPipeline; simp
@[simp] theorem badInput_kept (jsn : Nat) (w : WriteRun) (s : State) : (badInput jsn w s).kept = s.kept := by
  unfold badInput; simp
@[simp] theorem pullHdm_kept (y0 : Nat) (y1 : Nat) (s : State) : (pullHdm y0 y1 s).kept = s.kept := by
  induction y0 generalizing s with
  | zero => rfl
  | succ n ih =>
    unfold pullHdm; split
    · split
      · split
        · rfl
        · have hr := fun a b c => readHdm_kept a b c s
          dsimp only; split
          · rw [badInput_kept]; exact hr _ _ _
          · exact (ih _).trans ((setWrite_kept _ _ _).trans (hr _ _ _))
      · rfl
    · rfl
@[simp] theorem encodeNext_kept (lane : Nat) (w : WriteRun) (s : State) : (encodeNext lane w s).kept = s.kept := by
  unfold encodeNext; simp
theorem ensureOpen_kept (p : Nat) (s : State) (q : State) (hr : ensureOpen p s = some q) : q.kept = s.kept := by
  have hf : ∀ (u r : State), (if partitionFull p u then none else openDataset p u) = some r → r.kept = u.kept := by
    intro u r h; split at h
    · cases h
    · exact openDataset_kept _ _ _ h
  unfold ensureOpen at hr; dsimp only at hr; split at hr
  · exact hf _ _ hr
  · split at hr
    · split at hr
      · cases hr
      · cases hr; rfl
    · split at hr
      · cases hr
      · rename_i heq
        have hc := closeDataset_kept _ _ heq
        split at hr
        · rw [hf _ _ hr, dropAssembled_kept, hc]
        · rw [hf _ _ hr, hc]
theorem newFramePlace_kept (p jsn : Nat) (items : List TapeItem) (s : State) (q : State) (hr : newFramePlace p jsn items
    s = some q) : q.kept = s.kept := by
  unfold newFramePlace at hr; split at hr
  · cases hr
  · rename_i heq
    have hc := closeFrame_kept _ _ heq
    split at hr
    · rw [ensureOpen_kept _ _ _ hr, hc]
    · split at hr
      · cases hr
      · split at hr
        · cases hr; exact hc
        · split at hr
          · cases hr; exact hc
          · split at hr
            · cases hr
            · rename_i heq2
              rw [ensureOpen_kept _ _ _ hr, closeDataset_kept _ _ heq2, hc]
theorem drawFrame_kept (ctx : Nat) (s : State) : (drawFrame ctx s).left.kept = s.kept := by
  have h := drawIv_kept (false, ctx) s
  unfold drawFrame; split <;> (rename_i heq; rw [heq] at h; exact h)
@[simp] theorem failCheck_kept (jsn lane : Nat) (s : State) : (failCheck jsn lane s).kept = s.kept := by
  unfold failCheck; (repeat' split) <;> simp
theorem redrawFrame_kept (jsn ctx lane : Nat) (retry : Bool) (s : State) :
    (redrawFrame jsn ctx lane retry s).left.kept = s.kept := by
  have h := drawFrame_kept ctx s
  unfold redrawFrame; split
  · rename_i heq
    rw [heq] at h
    dsimp only; split
    · simp only [FrameStart.left, laneTransient_kept]
      rw [foldl_kept (fun s n => runOnLane_kept n s), setWrite_kept]; exact h
    · simp only [FrameStart.left, setUnit_kept, raiseP_kept, burnIv_kept]
      refine Eq.trans ?_ h
      exact (foldl_kept (fun s n => runOnLane_kept n s) _ _).trans (setWrite_kept _ _ _)
  · rename_i heq; rw [heq] at h; simp only [FrameStart.left, setWrite_kept]; exact h
  · exact h
theorem startFrame_kept (w : WriteRun) (lane : Nat) (check retry : Bool) (s : State) :
    (startFrame w lane check retry s).left.kept = s.kept := by
  have h := drawFrame_kept w.ctx s
  unfold startFrame; split
  · rfl
  · split
    · rfl
    · split
      · exact redrawFrame_kept _ _ _ _ _
      · split
        · rfl
        · split
          · rename_i heq; rw [heq] at h
            dsimp only; split
            · simp only [FrameStart.left]; rw [foldl_kept (fun s n => runOnLane_kept n s)]; exact h
            · rw [redrawFrame_kept, failCheck_kept, foldl_kept (fun s n => runOnLane_kept n s)]; exact h
          · exact h
@[simp] theorem addReady_kept (n : Nat) (s : State) : (addReady n s).kept = s.kept := by
  unfold addReady; simp
@[simp] theorem placeItems_kept (jsn : Nat) (items : List TapeItem) (s : State) : (placeItems jsn items s).kept = s.kept := by
  unfold placeItems; (repeat' split) <;> simp
theorem putHeader_kept (w : WriteRun) (b : EncBlock) (iv : BitVec 96) (clear limited : Bool) (s : State) (q :
    State) (hr : putHeader w b iv clear limited s = some q) : q.kept = s.kept := by
  unfold putHeader at hr; rw [putFrameBytes_kept _ _ _ _ _ _ hr]; simp
@[simp] theorem saveHistory_kept (w : WriteRun) (s : State) : (saveHistory w s).kept = s.kept := by
  unfold saveHistory; dsimp only; (repeat' split)
  · rfl
  · rfl
  · rename_i heq; have := porterTry_kept _ _ _ _ heq; simpa using this
  · simp
@[simp] theorem takeCarry_kept (jsn : Nat) (s : State) : (takeCarry jsn s).kept = s.kept := by
  unfold takeCarry; (repeat' split) <;> simp
@[simp] theorem placeTrailing_kept (jsn : Nat) (s : State) : (placeTrailing jsn s).kept = s.kept := by
  unfold placeTrailing; split
  · rfl
  · split
    · rfl
    · split
      · rfl
      · rename_i u heq
        have hc := closeFrame_kept _ _ heq
        split
        · exact hc
        · rename_i v heq2
          have h2 : v.kept = s.kept := by
            rw [ensureOpen_kept _ _ _ heq2]; split <;> simp [hc]
          have he : ∀ (o : Option WriteRun) (u : State), (o.elim u fun w => saveHistory w u).kept = u.kept := by
            intro o u; cases o <;> simp
          dsimp only; split <;> simp [h2, he]
@[simp] theorem streamEnd_kept (jsn : Nat) (s : State) : (streamEnd jsn s).kept = s.kept := by
  have hd : ∀ u : State, ((closeFrame u).getD u).kept = u.kept := fun u => getD_kept (fun r h => closeFrame_kept _ _ h) _ rfl
  unfold streamEnd; dsimp only; (repeat' split) <;> simp [hd]
@[simp] theorem closeFull_kept (s : State) : (closeFull s).kept = s.kept := by
  unfold closeFull; split
  · exact getD_kept (fun r h => closeDataset_kept _ _ h) _ rfl
  · rfl
@[simp] theorem endFrame_kept (s : State) : (endFrame s).kept = s.kept := by
  unfold endFrame; split
  · exact getD_kept (fun r h => closeFrame_kept _ _ h) _ rfl
  · rfl
@[simp] theorem stopFull_kept (w : WriteRun) (s : State) : (stopFull w s).kept = s.kept := by
  unfold stopFull; simp
@[simp] theorem putBlock_kept (b : EncBlock) (w : WriteRun) (s : State) : (putBlock b w s).kept = s.kept := by
  unfold putBlock; dsimp only; split
  · simp
  · rename_i heq; simp [putFrameBytes_kept _ _ _ _ _ _ heq]
@[simp] theorem reencode_kept (b : EncBlock) (w : WriteRun) (s : State) : (reencode b w s).2.kept = s.kept := by
  unfold reencode; simp
theorem writeFrame_kept (b : EncBlock) (w : WriteRun) (f : FrameStart) : (writeFrame b w f).kept = f.left.kept := by
  cases f with
  | waits s => rfl
  | ends st s => exact stopWrite_kept _ _ _ _
  | ready iv c l s =>
    unfold writeFrame; dsimp only; split
    · split
      · rfl
      · rw [burnIv_kept]; rfl
    · rename_i h; rw [putBlock_kept, addReady_kept, putHeader_kept _ _ _ _ _ _ _ h]; rfl
@[simp] theorem placeInNewFrame_kept (b : EncBlock) (w : WriteRun) (lane : Nat) (check retry : Bool) (s : State) :
    (placeInNewFrame b w lane check retry s).kept = s.kept := by
  have k : ∀ (v : State) (b : EncBlock), v.kept = s.kept → (if !b.checked then v else
      if spanBlocked (48 + blockLen b) v then noteBlocked v
      else writeFrame b ((findWrite w.jsn v).getD w) (startFrame ((findWrite w.jsn v).getD w) lane check retry v)).kept = s.kept := by
    intro v b h; (repeat' split)
    · exact h
    · rw [noteBlocked_kept, h]
    · rw [writeFrame_kept, startFrame_kept, h]
  unfold placeInNewFrame; split
  · split <;> simp
  · rename_i heq
    have hn := newFramePlace_kept _ _ _ _ _ heq
    dsimp only; split
    · exact k _ _ ((reencode_kept b w _).trans hn)
    · exact k _ _ hn
@[simp] theorem placeBlock_kept (b : EncBlock) (w : WriteRun) (lane : Nat) (check retry : Bool) (s : State) :
    (placeBlock b w lane check retry s).kept = s.kept := by
  unfold placeBlock; simp
@[simp] theorem placeMarks_kept (w : WriteRun) (s : State) : (placeMarks w s).kept = s.kept := by
  unfold placeMarks; split
  · simp
  · rename_i heq
    have hc := closeFrame_kept _ _ heq
    split
    · split <;> simp [hc]
    · rename_i heq2
      have h2 := ensureOpen_kept _ _ _ heq2
      rw [noteDone_kept, placeItems_kept, h2]; split <;> simp [hc]

/-! ### Machine/Verify -/
@[simp] theorem setActive_kept (seq : Nat) (f : WrittenDataset → WrittenDataset) (s : State) : (setActive seq f
    s).kept = s.kept := by
  unfold setActive; simp
@[simp] theorem renameMarks_kept (old new : Nat) (s : State) : (renameMarks old new s).kept = s.kept := by
  unfold renameMarks; simp
@[simp] theorem layDown_kept (d : WrittenDataset) (reason : Nat) (s : State) : (layDown d reason s).kept = s.kept
    := by
  unfold layDown; simp
@[simp] theorem replaceDataset_kept (d : WrittenDataset) (s : State) : (replaceDataset d s).kept = s.kept := by
  unfold replaceDataset; simp
@[simp] theorem truncateAway_kept (s : State) (d : WrittenDataset) : (truncateAway s d).kept = s.kept := by
  unfold truncateAway; simp
@[simp] theorem failFrom_kept (p n : Nat) (s : State) : (failFrom p n s).kept = s.kept := by
  unfold failFrom; simp
@[simp] theorem endRunSoon_kept (s : State) : (endRunSoon s).kept = s.kept := by
  unfold endRunSoon; simp
@[simp] theorem lastingFailure_kept (d : WrittenDataset) (s : State) : (lastingFailure d s).kept = s.kept := by
  unfold lastingFailure; simp
@[simp] theorem wholeRewrite_kept (seq : Nat) (s : State) : (wholeRewrite seq s).kept = s.kept := by
  unfold wholeRewrite; (repeat' split) <;> simp
@[simp] theorem payDue_kept (s : State) : (payDue s).kept = s.kept := by
  unfold payDue; (repeat' split) <;> simp
@[simp] theorem noteMiscorrect_kept (seq subset row : Nat) (s : State) : (noteMiscorrect seq subset row s).kept = s.kept := by
  unfold noteMiscorrect; (repeat' split) <;> simp
@[simp] theorem learn_kept (d : Dataset) (v : VerifyResult) (x : VerifyDecode) (s : State) : (learn d v x s).kept = s.kept := by
  unfold learn; (repeat' split) <;> simp
@[simp] theorem noteDecode_kept (d : Dataset) (v : VerifyResult) (x : VerifyDecode) (s : State) : (noteDecode d v x s).kept = s.kept := by
  unfold noteDecode; (repeat' split) <;> simp
@[simp] theorem countFail_kept (margin : Bool) (track : Nat) (s : State) : (countFail margin track s).kept = s.kept
    := by
  unfold countFail; simp
@[simp] theorem failFirst_kept (seq m track : Nat) (margin : Bool) (s : State) : (failFirst seq m track margin
    s).kept = s.kept := by
  unfold failFirst; simp
@[simp] theorem firstResultOf_kept (v : VerifyResult) (d : WrittenDataset) (s : State) : (firstResultOf v d s).kept
    = s.kept := by
  unfold firstResultOf; simp
@[simp] theorem failCopy_kept (f : FailedCw) (c : Nat) (s : State) : (failCopy f c s).kept = s.kept := by
  unfold failCopy; simp
@[simp] theorem copyResult_kept (v : VerifyResult) (d : WrittenDataset) (c : Nat) (s : State) : (copyResult v d c s).kept = s.kept := by
  unfold copyResult; (repeat' split) <;> simp
@[simp] theorem applyResult_kept (s : State) (v : VerifyResult) : (applyResult s v).kept = s.kept := by
  unfold applyResult; (repeat' split) <;> simp
@[simp] theorem failSlots_kept (seq : Nat) (p : Nat → Bool) (s : State) : (failSlots seq p s).kept = s.kept := by
  unfold failSlots; refine foldl_kept (fun s x => ?_) _ _; split
  · rfl
  · split <;> simp
@[simp] theorem failCopies_kept (seq : Nat) (p : Nat → Bool) (s : State) : (failCopies seq p s).kept = s.kept := by
  unfold failCopies; refine foldl_kept (fun s x => ?_) _ _; split <;> simp
@[simp] theorem failWindow_kept (seq lo hi : Nat) (s : State) : (failWindow seq lo hi s).kept = s.kept := by
  unfold failWindow; simp
@[simp] theorem failBehind_kept (back len : Nat) (s : State) : (failBehind back len s).kept = s.kept := by
  unfold failBehind; (repeat' split) <;> simp
@[simp] theorem lateResults_kept (s : State) : (lateResults s).kept = s.kept := by
  unfold lateResults; split
  · rfl
  · dsimp only; (repeat' split) <;> simp
@[simp] theorem disableWrites_kept (s : State) : (disableWrites s).kept = s.kept := by
  unfold disableWrites; simp
@[simp] theorem excludeTrack_kept (t c : Nat) (s : State) : (excludeTrack t c s).kept = s.kept := by
  unfold excludeTrack; simp
@[simp] theorem retryItems_kept (seq : Nat) (s : State) : (retryItems seq s).kept = s.kept := by
  unfold retryItems; (repeat' split) <;> simp
@[simp] theorem judgeTrack_kept (d : WrittenDataset) (s : State) (t : Nat) : (judgeTrack d s t).kept = s.kept := by
  unfold judgeTrack; (repeat' split) <;> simp
@[simp] theorem judgeDatasets_kept (before : List Nat) (s : State) : (judgeDatasets before s).kept = s.kept := by
  unfold judgeDatasets; simp
@[simp] theorem takeResults_kept (l : List VerifyResult) (s : State) : (takeResults l s).kept = s.kept := by
  unfold takeResults; simp
@[simp] theorem placeCopy_kept (seq : Nat) (p : List Nat × State) (f : FailedCw) : (placeCopy seq p f).2.kept =
    p.2.kept := by
  obtain ⟨free, s⟩ := p
  unfold placeCopy; dsimp only; (repeat' split) <;> simp
@[simp] theorem fixCopies_kept (seq : Nat) (s : State) : (fixCopies seq s).kept = s.kept := by
  unfold fixCopies; split
  · rfl
  · generalize candidates seq s = l; generalize List.replicate 64 8 = f
    have h : ∀ (p : List Nat × State), (l.foldl (fun p c => placeCopy seq p c.2) p).2.kept = p.2.kept := by
      induction l with
      | nil => exact fun _ => rfl
      | cons a t ih => intro p; rw [List.foldl_cons, ih, placeCopy_kept]
    exact h (f, s)
@[simp] theorem writtenEvent_kept (d : Dataset) (s : State) (jsn : Nat) : (writtenEvent d s jsn).kept = s.kept := by
  unfold writtenEvent; simp
@[simp] theorem datasetWritten_kept (seq : Nat) (s : State) : (datasetWritten seq s).kept = s.kept := by
  unfold datasetWritten; (repeat' split) <;> simp
@[simp] theorem decideAt_kept (writing c3 : Bool) (s : State) : (decideAt writing c3 s).kept = s.kept := by
  unfold decideAt; simp
@[simp] theorem earlyWarning_kept (r : TapeRun) (s : State) : (earlyWarning r s).2.kept = s.kept := by
  unfold earlyWarning; (repeat' split) <;> simp
@[simp] theorem startDataset_kept (seq : Nat) (r : TapeRun) (bits : Nat) (s : State) : (startDataset seq r bits
    s).kept = s.kept := by
  unfold startDataset; simp
@[simp] theorem finishRun_kept (p : Nat) (s : State) : (finishRun p s).kept = s.kept := by
  unfold finishRun; simp
theorem startEod_kept (r : TapeRun) (bits : Nat) (s : State) (q : State) (hr : startEod r bits s = some q) : q.kept
    = s.kept := by
  unfold startEod at hr; dsimp only at hr; split at hr
  · cases hr
  · rename_i heq; have := formBare_kept _ _ _ heq
    cases hr; rw [startDataset_kept]; split <;> exact this
@[simp] theorem beginClose_kept (r : TapeRun) (bits : Nat) (s : State) : (beginClose r bits s).kept = s.kept := by
  unfold beginClose; dsimp only; split
  · rename_i heq; rw [startEod_kept _ _ _ _ heq]; simp
  · simp
@[simp] theorem closeAtEnd_kept (r : TapeRun) (s : State) : (closeAtEnd r s).kept = s.kept := by
  unfold closeAtEnd; (repeat' split) <;> simp
@[simp] theorem beginRunOut_kept (r : TapeRun) (s : State) : (beginRunOut r s).kept = s.kept := by
  unfold beginRunOut; (repeat' split) <;> simp
@[simp] theorem nextInRun_kept (r : TapeRun) (bits : Nat) (s : State) : (nextInRun r bits s).kept = s.kept := by
  unfold nextInRun; dsimp only; (repeat' split) <;> simp
@[simp] theorem fixEdge_kept (task : Bool) (s : State) : (fixEdge task s).kept = s.kept := by
  unfold fixEdge; (repeat' split) <;> simp
@[simp] theorem failTick_kept (off : Bool) (s : State) : (failTick off s).kept = s.kept := by
  unfold failTick; (repeat' split) <;> simp
@[simp] theorem runTick_kept (writeLate verifyLate task : Bool) (s : State) : (runTick writeLate verifyLate task s).kept = s.kept := by
  unfold runTick; dsimp only; (repeat' split) <;> simp
@[simp] theorem interruptRun_kept (s : State) : (interruptRun s).kept = s.kept := by
  unfold interruptRun; dsimp only; (repeat' split) <;> simp
@[simp] theorem beginWritingRun_kept (p : Nat) (s : State) : (beginWritingRun p s).kept = s.kept := by
  unfold beginWritingRun; dsimp only; (repeat' split) <;> simp
@[simp] theorem lastingServoLoss_kept (s : State) : (lastingServoLoss s).kept = s.kept := by
  unfold lastingServoLoss; simp
@[simp] theorem approach_kept (p : Nat) (atStep : Bool) (s : State) : (approach p atStep s).kept = s.kept := by
  unfold approach; (repeat' split) <;> simp
@[simp] theorem sendFrames_kept (after : Nat) (s : State) : (sendFrames after s).kept = s.kept := by
  unfold sendFrames; simp
@[simp] theorem pumpTally_kept (s : State) : (pumpTally s).kept = s.kept := by
  unfold pumpTally; simp
@[simp] theorem sendTally_kept (d : WrittenDataset) (s : State) : (sendTally d s).kept = s.kept := by
  unfold sendTally; simp
@[simp] theorem c3Take_kept (d : WrittenDataset) (s : State) : (c3Take d s).kept = s.kept := by
  unfold c3Take; simp
@[simp] theorem verifiedEvents_kept (d : WrittenDataset) (s : State) : (verifiedEvents d s).kept = s.kept := by
  unfold verifiedEvents; simp
@[simp] theorem countDurable_kept (seq : Nat) (s : State) : (countDurable seq s).kept = s.kept := by
  unfold countDurable; simp
@[simp] theorem recordRelease_kept (d : WrittenDataset) (s : State) : (recordRelease d s).kept = s.kept := by
  unfold recordRelease; simp
@[simp] theorem releaseDataset_kept (d : WrittenDataset) (s : State) : (releaseDataset d s).kept = s.kept := by
  unfold releaseDataset; simp

/-! ### Machine/Motion -/
@[simp] theorem noCartridge_kept (jsn : Nat) (s : State) : (noCartridge jsn s).kept = s.kept := by
  unfold noCartridge; simp
@[simp] theorem withPartition_kept (e : JournalEntry) (p : Nat) (s : State) (k : Cartridge → State → State) (hk : ∀ (x0 :
    Cartridge) (s : State), (k x0 s).kept = s.kept) : (withPartition e p s k).kept = s.kept := by
  unfold withPartition; dsimp only; (repeat' split) <;> simp [hk]
@[simp] theorem moveTo_kept (w : Nat) (atStart : Bool) (s : State) : (moveTo w atStart s).kept = s.kept := by
  unfold moveTo; simp
@[simp] theorem beginMotion_kept (e : JournalEntry) (s : State) : (beginMotion e s).kept = s.kept := by
  unfold beginMotion; (repeat' split) <;> simp
@[simp] theorem onMotion_kept (op jsn : Nat) (done : Bool) (s : State) (k : JournalEntry → RunInfo → State → State) (hk : ∀ (x0 :
    JournalEntry) (x1 : RunInfo) (s : State), (k x0 x1 s).kept = s.kept) : (onMotion op jsn done s k).kept = s.kept := by
  unfold onMotion; split
  · (repeat' split) <;> simp [hk]
  · exact onTape_kept _ _ _ _ (fun e r s => by split <;> simp [hk])
@[simp] theorem eject_kept (s : State) : (eject s).kept = s.kept := by
  unfold eject; simp
@[simp] theorem rewindContexts_kept (s : State) : (rewindContexts s).kept = s.kept := by
  unfold rewindContexts; simp
@[simp] theorem unloadCart_kept (s : State) : (unloadCart s).kept = s.kept := by
  unfold unloadCart; simp
@[simp] theorem onMove_kept (op jsn : Nat) (done : Bool) (s : State) (k : JournalEntry → Bool → State → State) (hk : ∀ (x0 :
    JournalEntry) (x1 : Bool) (s : State), (k x0 x1 s).kept = s.kept) : (onMove op jsn done s k).kept = s.kept := by
  unfold onMove; (repeat' split)
  · rfl
  · exact onBegin_kept _ _ _ _ (fun e _ s => hk e false s)
  · exact onMotion_kept _ _ _ _ _ (fun e _ s => hk e true s)

/-! ### Machine/ReadDecode -/
@[simp] theorem setHeld_kept (seq : Nat) (f : HeldDataset → HeldDataset) (s : State) : (setHeld seq f s).kept =
    s.kept := by
  unfold setHeld; simp
@[simp] theorem holdRecord_kept (seq : Nat) (s : State) : (holdRecord seq s).kept = s.kept := by
  unfold holdRecord; (repeat' split) <;> simp
@[simp] theorem countDecode_kept (seq k : Nat) (st : DecodeStats) (r : Scheduled) (s : State) : (countDecode seq k st r s).kept = s.kept := by
  unfold countDecode; (repeat' split) <;> simp
@[simp] theorem noteSubset_kept (c : Reread) (seq k : Nat) (st : DecodeStats) (r : Scheduled) (s : State) : (noteSubset c seq k st r s).kept = s.kept := by
  unfold noteSubset; (repeat' split) <;> simp
@[simp] theorem noteMissing_kept (seq : Nat) (s : State) : (noteMissing seq s).kept = s.kept := by
  unfold noteMissing; (repeat' split) <;> simp
@[simp] theorem rereadDataset_kept (c : Reread) (d : Dataset) (h : HeldDataset) (s : State) : (rereadDataset c d h s).kept = s.kept := by
  unfold rereadDataset; (repeat' split) <;> simp
@[simp] theorem adaptOver_kept (c : Reread) (seq : Nat) (s : State) : (adaptOver c seq s).kept = s.kept := by
  unfold adaptOver; (repeat' split) <;> simp

/-! ### Machine/Read -/
@[simp] theorem endMeasure_kept (s : State) : (endMeasure s).kept = s.kept := by
  unfold endMeasure; simp
@[simp] theorem beginMeasure_kept (seq : Nat) (m : Measure) (s : State) : (beginMeasure seq m s).kept = s.kept := by
  unfold beginMeasure; (repeat' split) <;> simp
@[simp] theorem recover_kept (seq passes : Nat) (noC3 : Bool) (s : State) : (recover seq passes noC3 s).kept =
    s.kept := by
  unfold recover; dsimp only; (repeat' split) <;> simp
@[simp] theorem recovered_kept (h : HeldDataset) (s : State) : (recovered h s).kept = s.kept := by
  unfold recovered; (repeat' split) <;> simp
@[simp] theorem afterMeasure_kept (seq passes : Nat) (noC3 : Bool) (s : State) : (afterMeasure seq passes noC3
    s).kept = s.kept := by
  unfold afterMeasure; (repeat' split) <;> simp
@[simp] theorem readAgain_kept (c : Reread) (d : Dataset) (found : Bool) (s : State) : (readAgain c d found s).kept = s.kept := by
  unfold readAgain; (repeat' split) <;> simp
@[simp] theorem degradeChannel_kept (t : Nat) (s : State) : (degradeChannel t s).kept = s.kept := by
  unfold degradeChannel; (repeat' split) <;> simp
@[simp] theorem decodeSubset_kept (c : Reread) (d : Dataset) (k ahead : Nat) (s : State) : (decodeSubset c d k ahead s).kept = s.kept := by
  unfold decodeSubset; (repeat' split) <;> simp
@[simp] theorem scatter_kept (y0 : List ListEntry) (y1 : List Byte) (s : State) : (scatter y0 y1 s).kept = s.kept
    := by
  induction y0 generalizing s y1 with
  | nil => rfl
  | cons e t ih => cases y1 with
    | nil => rfl
    | cons b l => unfold scatter; rw [ih]; simp
@[simp] theorem untrustedRun_kept (jsn : Nat) (y0 : Nat) (y1 : Nat × Nat) (s : State) : (untrustedRun jsn y0 y1
    s).kept = s.kept := by
  induction y0 generalizing s y1 with
  | zero => rfl
  | succ n ih => unfold untrustedRun; split
                 · rfl
                 · rw [ih]; simp
@[simp] theorem countTag_kept (jsn : Nat) (s : State) (t : TagFailure) : (countTag jsn s t).kept = s.kept := by
  unfold countTag; simp
@[simp] theorem countTags_kept (j : ReadJob) (fs : List FrameAt) (s : State) : (countTags j fs s).kept = s.kept := by
  unfold countTags; simp
@[simp] theorem decryptLanes_kept (fs : List FrameAt) (s : State) : (decryptLanes fs s).kept = s.kept := by
  unfold decryptLanes; exact foldl_kept (fun s _ => by split <;> simp) _ _
@[simp] theorem deliverRead_kept (j : ReadJob) (list : List ListEntry) (desc : Nat) (a : ReadAcc) (s : State) :
    (deliverRead j list desc a s).kept = s.kept := by
  unfold deliverRead; simp
@[simp] theorem noteSpan_kept (j : ReadJob) (start pos : Nat) (ended : Bool) (s : State) : (noteSpan j start pos
    ended s).kept = s.kept := by
  unfold noteSpan; simp
@[simp] theorem readSpeed_kept (n : Nat) (s : State) : (readSpeed n s).kept = s.kept := by
  unfold readSpeed; simp
@[simp] theorem endReading_kept (jsn : Nat) (s : State) : (endReading jsn s).kept = s.kept := by
  unfold endReading; simp
@[simp] theorem readFault_kept (jsn : Nat) (chain : List Dataset) (cause seq subset : Nat) (s : State) : (readFault
    jsn chain cause seq subset s).kept = s.kept := by
  unfold readFault; simp
@[simp] theorem takeChain_kept (y0 : Nat) (s : State) : (takeChain y0 s).2.kept = s.kept := by
  induction y0 generalizing s with
  | zero => rfl
  | succ n ih =>
    unfold takeChain; split
    · rfl
    · rename_i heq; have h1 := porterTry_kept _ _ _ _ heq
      split; rename_i heq2; have := ih; 
      have h2 := congrArg (fun p => p.2.kept) heq2; simp only [ih] at h2; rw [← h2]; exact h1
@[simp] theorem addChained_kept (ctx : Nat) (left : List Byte) (bad : List (Nat × Nat)) (h : Word) (t : List Word)
    (s : State) : (addChained ctx left bad h t s).kept = s.kept := by
  unfold addChained; simp
theorem chainRest_kept (ctx : Nat) (left : List Byte) (bad : List (Nat × Nat)) (s : State) (q : (Word × State)) (hr
    : chainRest ctx left bad s = some q) : q.2.kept = s.kept := by
  unfold chainRest at hr; split at hr
  · cases hr
  · split at hr
    · cases hr
    · rename_i heq; cases hr
      exact (addChained_kept _ _ _ _ _ _).trans ((congrArg (fun p => p.2.kept) heq).symm.trans (takeChain_kept _ s))
@[simp] theorem waitRecovery_kept (e : JournalEntry) (j : ReadJob) (seq : Nat) (s : State) : (waitRecovery e j seq
    s).kept = s.kept := by
  unfold waitRecovery; simp
@[simp] theorem settleRead_kept (j : ReadJob) (start : Nat) (a : ReadAcc) (ended : Bool) (s : State) : (settleRead
    j start a ended s).kept = s.kept := by
  unfold settleRead; simp
@[simp] theorem blockFault_kept (jsn item cause : Nat) (s : State) : (blockFault jsn item cause s).kept = s.kept := by
  unfold blockFault; (repeat' split) <;> simp
@[simp] theorem endRead_kept (e : JournalEntry) (list : List ListEntry) (j : ReadJob) (start : Nat) (stop :
    ReadStop) (a : ReadAcc) (s : State) : (endRead e list j start stop a s).kept = s.kept := by
  unfold endRead; dsimp only; split <;> (try simp)
  split
  · rename_i heq; have := chainRest_kept _ _ _ _ _ heq; simpa using this
  · simp
@[simp] theorem abortRead_kept (e : JournalEntry) (r : RunInfo) (s : State) : (abortRead e r s).kept = s.kept := by
  unfold abortRead; (repeat' split) <;> simp
@[simp] theorem verifyReport_kept (e : JournalEntry) (j : ReadJob) (a : VerifyAcc) (s : State) : (verifyReport e j
    a s).kept = s.kept := by
  unfold verifyReport; simp
@[simp] theorem endVerify_kept (e : JournalEntry) (j : ReadJob) (start : Nat) (stop : ReadStop) (a : VerifyAcc) (s
    : State) : (endVerify e j start stop a s).kept = s.kept := by
  unfold endVerify; (repeat' split) <;> simp
@[simp] theorem abortVerify_kept (e : JournalEntry) (s : State) : (abortVerify e s).kept = s.kept := by
  unfold abortVerify; (repeat' split) <;> simp

/-! ### Machine/PackerCmd -/
@[simp] theorem keepPart_kept (jsn r0 r1 : Nat) (s : State) : (keepPart jsn r0 r1 s).kept = s.kept := by
  unfold keepPart; (repeat' split) <;> simp
@[simp] theorem levelTransfer_kept (s : State) : (levelTransfer s).kept = s.kept := by
  unfold levelTransfer; simp

/-! ### Machine/Tec -/
@[simp] theorem decodeTransfer_kept (s : State) : (decodeTransfer s).kept = s.kept := by
  unfold decodeTransfer; (repeat' split) <;> simp
@[simp] theorem detectTransfer_kept (s : State) : (detectTransfer s).kept = s.kept := by
  unfold detectTransfer; (repeat' split) <;> simp
@[simp] theorem captureSlots_kept (e : JournalEntry) (done : Nat) (slots : List (List Int)) (s : State) : (captureSlots e done slots s).kept = s.kept := by
  unfold captureSlots; simp

/-! ### Machine/DroverRows -/
@[simp] theorem giveUpDataset_kept (s : State) (d : WrittenDataset) : (giveUpDataset s d).kept = s.kept := by
  unfold giveUpDataset; simp
@[simp] theorem giveUp_kept (s : State) (p : Nat) : (giveUp s p).kept = s.kept := by
  unfold giveUp; simp
@[simp] theorem endWritesNow_kept (js : List Nat) (st : Nat) (r1 : Option Nat) (s : State) :
    (endWritesNow js st r1 s).kept = s.kept := by
  unfold endWritesNow; dsimp only
  rw [settleWrites_kept, foldl_kept (fun s j => by split <;> simp)]; simp
@[simp] theorem loseTape_kept (st : Nat) (s : State) : (loseTape st s).kept = s.kept := by
  unfold loseTape; simp
@[simp] theorem dropMove_kept (jsn : Nat) (s : State) : (dropMove jsn s).kept = s.kept := by
  unfold dropMove; simp
@[simp] theorem endSets_kept (s : State) : (endSets s).kept = s.kept := by
  unfold endSets; simp
@[simp] theorem endMode_kept (s : State) (j : DrvJob) : (endMode s j).kept = s.kept := by
  unfold endMode; simp
@[simp] theorem endMove_kept (s : State) (j : DrvJob) : (endMove s j).kept = s.kept := by
  unfold endMove; simp
@[simp] theorem droverJobs_kept (s : State) : (droverJobs s).kept = s.kept := by
  unfold droverJobs; simp
@[simp] theorem dropCapture_kept (jsn : Nat) (s : State) : (dropCapture jsn s).kept = s.kept := by
  unfold dropCapture; simp
@[simp] theorem captureOne_kept (unfinished : List Nat) (s : State) (j : DrvJob) :
    (captureOne unfinished s j).kept = s.kept := by
  unfold captureOne; split
  · dsimp only; (repeat' split)
    · rfl
    · rw [setRun_kept, addBusy_kept]; rfl
    · rw [endR0_kept, dropCapture_kept, setRun_kept, addBusy_kept]; rfl
  · rfl
@[simp] theorem captureTick_kept (unfinished : List Nat) (s : State) : (captureTick unfinished s).kept = s.kept := by
  unfold captureTick; simp
@[simp] theorem monTransfer_kept (s : State) : (monTransfer s).kept = s.kept := by
  unfold monTransfer; simp
@[simp] theorem spmTransfer_kept (s : State) : (spmTransfer s).kept = s.kept := by
  unfold spmTransfer; simp
@[simp] theorem stopRunIfStopped_kept (was : Bool) (s : State) : (stopRunIfStopped was s).kept = s.kept := by
  unfold stopRunIfStopped; simp
@[simp] theorem endDiagStops_kept (s : State) : (endDiagStops s).kept = s.kept := by
  unfold endDiagStops; refine foldl_kept (fun s x => ?_) _ _; (repeat' split) <;> simp
@[simp] theorem sensorPass_kept (n : Nat) (s : State) : (sensorPass n s).kept = s.kept := by
  unfold sensorPass; simp
@[simp] theorem sensorLasts_kept (n : Nat) (both : Bool) (s : State) : (sensorLasts n both s).kept = s.kept := by
  unfold sensorLasts; simp
@[simp] theorem retrySensor_kept (failed : List Nat) (both : Bool) (s : State) (n : Nat) : (retrySensor failed both
    s n).kept = s.kept := by
  unfold retrySensor; simp
@[simp] theorem restoreLoops_kept (s : State) : (restoreLoops s).kept = s.kept := by
  unfold restoreLoops; simp
@[simp] theorem markWaiters_kept (s : State) : (markWaiters s).kept = s.kept := by
  unfold markWaiters; refine foldl_kept (fun s x => ?_) _ _; (repeat' split) <;> simp

/-! ### Machine/HeadLink -/
@[simp] theorem updateCaps_kept (s : State) : (updateCaps s).kept = s.kept := by
  unfold updateCaps; simp
@[simp] theorem sendMask_kept (s : State) : (sendMask s).kept = s.kept := by
  unfold sendMask; simp
@[simp] theorem laneFailing_kept (n : Nat) (c : LaneFault) (s : State) : (laneFailing n c s).kept = s.kept := by
  unfold laneFailing; simp
@[simp] theorem laneErrEvent_kept (n : Nat) (s : State) : (laneErrEvent n s).kept = s.kept := by
  unfold laneErrEvent; simp
@[simp] theorem crcErrors_kept (k n : Nat) (s : State) : (crcErrors k n s).kept = s.kept := by
  unfold crcErrors; simp
@[simp] theorem failLink_kept (s : State) : (failLink s).kept = s.kept := by
  unfold failLink; simp
@[simp] theorem linkFails_kept (s : State) : (linkFails s).kept = s.kept := by
  unfold linkFails; simp
@[simp] theorem retireLane_kept (n : Nat) (s : State) : (retireLane n s).kept = s.kept := by
  unfold retireLane; simp
@[simp] theorem maskChange_kept (s : State) (p : Nat × Bool) : (maskChange s p).kept = s.kept := by
  unfold maskChange; simp
@[simp] theorem beginRetrain_kept (s : State) : (beginRetrain s).kept = s.kept := by
  unfold beginRetrain; (repeat' split) <;> simp
@[simp] theorem hlkTransfer_kept (s : State) : (hlkTransfer s).kept = s.kept := by
  unfold hlkTransfer; simp
@[simp] theorem drainTick_kept (s : State) : (drainTick s).kept = s.kept := by
  unfold drainTick; (repeat' split) <;> simp
@[simp] theorem linkTick_kept (s : State) : (linkTick s).kept = s.kept := by
  unfold linkTick; simp
@[simp] theorem mismatch_kept (i : BitVec 40) (s : State) : (mismatch i s).kept = s.kept := by
  unfold mismatch; simp
@[simp] theorem trainLane_kept (t : TrainResult) (s : State) (n : Nat) : (trainLane t s n).kept = s.kept := by
  unfold trainLane; simp
@[simp] theorem trainLink_kept (t : TrainResult) (s : State) : (trainLink t s).kept = s.kept := by
  unfold trainLink; simp
@[simp] theorem countBlockErrors_kept (k n : Nat) (s : State) : (countBlockErrors k n s).kept = s.kept := by
  unfold countBlockErrors; (repeat' split) <;> simp
@[simp] theorem onFrame_kept (ftype : Nat) (f : LinkFrame) (s : State) (k : HeadFrame → State → State)
    (hk : ∀ (h : HeadFrame) (s : State), (k h s).kept = s.kept) : (onFrame ftype f s k).kept = s.kept := by
  unfold onFrame; dsimp only; (repeat' split) <;> simp [hk]
@[simp] theorem takeItems_kept (src next : Nat) (items : List (Option Int)) (s : State) : (takeItems src next items s).kept = s.kept := by
  unfold takeItems; (repeat' split) <;> simp
@[simp] theorem drainAhead_kept (src : Nat) (y0 : Nat) (s : State) : (drainAhead src y0 s).kept = s.kept := by
  induction y0 generalizing s with
  | zero => rfl
  | succ n ih => unfold drainAhead; dsimp only; split <;> simp [ih]
@[simp] theorem reorder_kept (w n : Nat) (h : HeadFrame) (s : State) : (reorder w n h s).kept = s.kept := by
  unfold reorder; dsimp only; split <;> simp
@[simp] theorem takeStatus_kept (h : HeadFrame) (s : State) : (takeStatus h s).kept = s.kept := by
  unfold takeStatus; dsimp only
  rw [foldl_kept (fun s j => by split <;> simp)]; (repeat' split) <;> simp
@[simp] theorem ctrlRefused_kept (lane : Nat) (s : State) : (ctrlRefused lane s).kept = s.kept := by
  unfold ctrlRefused; simp

/-! ### Machine/Thermal -/
@[simp] theorem modThm_kept (n : Nat) (f : ThmSensor → ThmSensor) (s : State) : (modThm n f s).kept = s.kept := by
  unfold modThm; simp
@[simp] theorem refreshEff_kept (s : State) : (refreshEff s).kept = s.kept := by
  unfold refreshEff; simp
@[simp] theorem refreshRates_kept (s : State) : (refreshRates s).kept = s.kept := by
  unfold refreshRates; refine foldl_kept (fun s x => ?_) _ _; (repeat' split) <;> simp
@[simp] theorem sensorStays_kept (n : Nat) (s : State) : (sensorStays n s).kept = s.kept := by
  unfold sensorStays; simp
@[simp] theorem failSensor_kept (n : Nat) (c2 : Option Int) (s : State) : (failSensor n c2 s).kept = s.kept := by
  unfold failSensor; (repeat' split) <;> simp
@[simp] theorem readmit_kept (n : Nat) (raw : Int) (s : State) : (readmit n raw s).kept = s.kept := by
  unfold readmit; simp
@[simp] theorem checkGrid_kept (n : Nat) (raw : Int) (s : State) : (checkGrid n raw s).kept = s.kept := by
  unfold checkGrid; (repeat' split) <;> simp
@[simp] theorem checkWeighhouse_kept (raw : Int) (s : State) : (checkWeighhouse raw s).kept = s.kept := by
  unfold checkWeighhouse; simp
@[simp] theorem levelCross_kept (n : Nat) (old new level : Int) (crit : Bool) (s : State) : (levelCross n old new
    level crit s).kept = s.kept := by
  unfold levelCross; simp
@[simp] theorem levelEvents_kept (before : List Int) (s : State) : (levelEvents before s).kept = s.kept := by
  unfold levelEvents; simp
@[simp] theorem chooseRate_kept (s : State) : (chooseRate s).kept = s.kept := by
  unfold chooseRate; simp
@[simp] theorem publishThermal_kept (s : State) : (publishThermal s).kept = s.kept := by
  unfold publishThermal; (repeat' split) <;> simp
@[simp] theorem sampleSensor_kept (sensor : Nat) (raw : Int) (s : State) : (sampleSensor sensor raw s).kept =
    s.kept := by
  unfold sampleSensor; dsimp only; (repeat' split) <;> simp
@[simp] theorem setCap_kept (c : Nat) (s : State) : (setCap c s).kept = s.kept := by
  unfold setCap; simp
@[simp] theorem capRule_kept (hot cool : Bool) (s : State) : (capRule hot cool s).kept = s.kept := by
  unfold capRule; simp
@[simp] theorem critRule_kept (cool : Bool) (s : State) : (critRule cool s).kept = s.kept := by
  unfold critRule; dsimp only; (repeat' split) <;> simp
@[simp] theorem weighhouseSilent_kept (s : State) : (weighhouseSilent s).kept = s.kept := by
  unfold weighhouseSilent; simp
@[simp] theorem thmTransfer_kept (s : State) : (thmTransfer s).kept = s.kept := by
  unfold thmTransfer; simp

/-! ### Machine/Power -/
@[simp] theorem linkIdle_kept (s : State) : (linkIdle s).kept = s.kept := by
  unfold linkIdle; simp
@[simp] theorem saveForL3_kept (s : State) : (saveForL3 s).kept = s.kept := by
  unfold saveForL3; simp
@[simp] theorem enterState_kept (k : Nat) (s : State) : (enterState k s).kept = s.kept := by
  unfold enterState; simp
@[simp] theorem enterIfNow_kept (s : State) : (enterIfNow s).kept = s.kept := by
  unfold enterIfNow; simp
@[simp] theorem restoreL3_kept (s : State) : (restoreL3 s).kept = s.kept := by
  unfold restoreL3; simp
@[simp] theorem awake_kept (k : Nat) (t : TrainResult) (s : State) : (awake k t s).kept = s.kept := by
  unfold awake; simp
@[simp] theorem recordTruncs_kept (ser : List Byte) (ps : List Nat) (s : State) : (recordTruncs ser ps s).kept =
    s.kept := by
  unfold recordTruncs; simp
@[simp] theorem removeCart_kept (s : State) : (removeCart s).kept = s.kept := by
  unfold removeCart; (repeat' split) <;> simp
@[simp] theorem slackTick_kept (tension : Option Int) (s : State) : (slackTick tension s).kept = s.kept := by
  unfold slackTick; simp

/-! ### Machine/Weighhouse -/
@[simp] theorem putStateWord_kept (f : StateWord → StateWord) (s : State) : (putStateWord f s).kept = s.kept := by
  unfold putStateWord; simp
@[simp] theorem takeTsn_kept (n : Nat) (s : State) : (takeTsn n s).kept = s.kept := by
  unfold takeTsn; simp
@[simp] theorem countBad_kept (s : State) : (countBad s).kept = s.kept := by
  unfold countBad; simp
@[simp] theorem countGap_kept (s : State) : (countGap s).kept = s.kept := by
  unfold countGap; simp
@[simp] theorem countDup_kept (s : State) : (countDup s).kept = s.kept := by
  unfold countDup; simp
@[simp] theorem resendTally_kept (s : State) : (resendTally s).kept = s.kept := by
  unfold resendTally; simp
@[simp] theorem modCurrent_kept (f : LedgerEntry → LedgerEntry) (s : State) : (modCurrent f s).kept = s.kept := by
  unfold modCurrent; (repeat' split) <;> simp
@[simp] theorem endEntry_kept (cause : Nat) (s : State) : (endEntry cause s).kept = s.kept := by
  unfold endEntry; simp
@[simp] theorem openEntry_kept (start : Nat) (s : State) : (openEntry start s).kept = s.kept := by
  unfold openEntry; simp
@[simp] theorem reportUnread_kept (s : State) : (reportUnread s).kept = s.kept := by
  unfold reportUnread; simp
@[simp] theorem takeWhStatus_kept (s : State) : (takeWhStatus s).kept = s.kept := by
  unfold takeWhStatus; dsimp only; (repeat' split) <;> simp
@[simp] theorem whResumes_kept (s : State) : (whResumes s).kept = s.kept := by
  unfold whResumes; simp
@[simp] theorem becomeAvailable_kept (s : State) : (becomeAvailable s).kept = s.kept := by
  unfold becomeAvailable; simp
@[simp] theorem emptyFifos_kept (s : State) : (emptyFifos s).kept = s.kept := by
  unfold emptyFifos; simp
@[simp] theorem mbRefused_kept (type : Nat) (s : State) : (mbRefused type s).kept = s.kept := by
  unfold mbRefused; simp
@[simp] theorem mbServe_kept (type : Nat) (ok : Bool) (k : State → State) (s : State) (hk : ∀ (s : State), (k
    s).kept = s.kept) : (mbServe type ok k s).kept = s.kept := by
  unfold mbServe; (repeat' split) <;> simp_all
@[simp] theorem mbRespond_kept (type : Nat) (l : List Byte) (s : State) : (mbRespond type l s).kept = s.kept := by
  unfold mbRespond; simp
@[simp] theorem doExtend_kept (stage : Nat) (digest : List Byte) (s : State) : (doExtend stage digest s).kept =
    s.kept := by
  unfold doExtend; simp
@[simp] theorem closeEntry_kept (s : State) : (closeEntry s).kept = s.kept := by
  unfold closeEntry; dsimp only; (repeat' split) <;> simp
@[simp] theorem doClose_kept (s : State) : (doClose s).kept = s.kept := by
  unfold doClose; simp
@[simp] theorem doLedgerGet_kept (first count : Nat) (s : State) : (doLedgerGet first count s).kept = s.kept := by
  unfold doLedgerGet; simp
@[simp] theorem nextStatement_kept (s : State) : (nextStatement s).kept = s.kept := by
  unfold nextStatement; simp
@[simp] theorem doStatement_kept (r : StatementReq) (s : State) : (doStatement r s).kept = s.kept := by
  unfold doStatement; simp
@[simp] theorem setSpdm_kept (mctp : Bool) (n : Nat) (s : State) : (setSpdm mctp n s).kept = s.kept := by
  unfold setSpdm; simp
@[simp] theorem spdmReply_kept (mctp : Bool) (l : List Byte) (s : State) : (spdmReply mctp l s).kept = s.kept := by
  unfold spdmReply; simp
@[simp] theorem spdmServe_kept (mctp : Bool) (msg : List Byte) (s : State) : (spdmServe mctp msg s).kept = s.kept
    := by
  unfold spdmServe; dsimp only; (repeat' split) <;> simp
@[simp] theorem doSpdm_kept (mctp : Bool) (msg : List Byte) (s : State) : (doSpdm mctp msg s).kept = s.kept := by
  unfold doSpdm; simp
@[simp] theorem doMarkRead_kept (epochs : List Nat) (s : State) : (doMarkRead epochs s).kept = s.kept := by
  unfold doMarkRead; exact mbServe_kept _ _ _ _ (fun _ => rfl)
@[simp] theorem postMessage_kept (type : Nat) (c : List Byte) (s : State) : (postMessage type c s).kept = s.kept := by
  unfold postMessage; simp
@[simp] theorem whStops_kept (s : State) : (whStops s).kept = s.kept := by
  unfold whStops; simp
@[simp] theorem whPowerUp_kept (s : State) : (whPowerUp s).kept = s.kept := by
  unfold whPowerUp; simp
@[simp] theorem dropEpoch_kept (s : State) : (dropEpoch s).kept = s.kept := by
  unfold dropEpoch; simp

/-! ### Machine/Logs -/
@[simp] theorem endNop_kept (e : JournalEntry) (s : State) : (endNop e s).kept = s.kept := by
  unfold endNop; simp
@[simp] theorem clearPage_kept (n : Nat) (s : State) : (clearPage n s).kept = s.kept := by
  unfold clearPage; simp

/-! ### Machine/Reset -/
@[simp] theorem scanJournal_kept (s : State) : (scanJournal s).kept = s.kept := by
  unfold scanJournal; simp
@[simp] theorem strike_kept (s : State) : (strike s).kept = s.kept := by
  unfold strike; simp
@[simp] theorem keepTruncs_kept (s : State) : (keepTruncs s).kept = s.kept := by
  unfold keepTruncs; (repeat' split) <;> simp
@[simp] theorem warmBlocks_kept (s : State) : (warmBlocks s).kept = s.kept := by
  unfold warmBlocks; simp
@[simp] theorem raiseEpoch_kept (s : State) : (raiseEpoch s).kept = s.kept := by
  unfold raiseEpoch; simp
@[simp] theorem clearWarm_kept (linkDown : Bool) (s : State) : (clearWarm linkDown s).kept = s.kept := by
  unfold clearWarm; simp
@[simp] theorem clearCold_kept (s : State) : (clearCold s).kept = s.kept := by
  unfold clearCold; simp
@[simp] theorem setCause_kept (kind source : Nat) (s : State) : (setCause kind source s).kept = s.kept := by
  unfold setCause; simp
@[simp] theorem toStepOne_kept (s : State) : (toStepOne s).kept = s.kept := by
  unfold toStepOne; simp
@[simp] theorem warmReset_kept (linkDown : Bool) (source : Nat) (s : State) : (warmReset linkDown source s).kept =
    s.kept := by
  unfold warmReset; simp
@[simp] theorem coldStop_kept (old : State) (s : State) : (coldStop old s).kept = s.kept := by
  unfold coldStop; simp
@[simp] theorem coldReset_kept (source : Nat) (s : State) : (coldReset source s).kept = s.kept := by
  unfold coldReset; simp
@[simp] theorem powerDown_kept (s : State) : (powerDown s).kept = s.kept := by
  unfold powerDown; simp
@[simp] theorem assignRoles_kept (s : State) : (assignRoles s).kept = s.kept := by
  unfold assignRoles; simp
@[simp] theorem coreRetry_kept (c : Nat) (s : State) : (coreRetry c s).kept = s.kept := by
  unfold coreRetry; simp
@[simp] theorem startCores_kept (ok : BitVec 4) (s : State) : (startCores ok s).kept = s.kept := by
  unfold startCores; simp
@[simp] theorem startLanes_kept (ok : BitVec 8) (s : State) : (startLanes ok s).kept = s.kept := by
  unfold startLanes; simp
@[simp] theorem noteKat_kept (s : State) : (noteKat s).kept = s.kept := by
  unfold noteKat; (repeat' split) <;> simp
@[simp] theorem startCeil_kept (s : State) : (startCeil s).kept = s.kept := by
  unfold startCeil; (repeat' split) <;> simp
@[simp] theorem startRetract_kept (s : State) : (startRetract s).kept = s.kept := by
  unfold startRetract; simp
@[simp] theorem startReplay_kept (s : State) : (startReplay s).kept = s.kept := by
  unfold startReplay; simp
@[simp] theorem redoRecord_kept (e : JournalEntry) (w : RetireWord) (s : State) : (redoRecord e w s).kept = s.kept := by
  unfold redoRecord; dsimp only; (repeat' split) <;> simp
@[simp] theorem moveContext_kept (c n : Nat) (s : State) : (moveContext c n s).kept = s.kept := by
  unfold moveContext; split <;> simp
@[simp] theorem redoPosition_kept (e : JournalEntry) (w : RetireWord) (s : State) : (redoPosition e w s).kept = s.kept := by
  unfold redoPosition; dsimp only; (repeat' split) <;> simp
@[simp] theorem redoContext_kept (s : State) (e : JournalEntry) : (redoContext s e).kept = s.kept := by
  unfold redoContext; split <;> simp
@[simp] theorem redoContexts_kept (s : State) : (redoContexts s).kept = s.kept := by
  unfold redoContexts; simp
@[simp] theorem startBoot_kept (b : BootInput) (s : State) : (startBoot b s).kept = s.kept := by
  unfold startBoot; simp
@[simp] theorem startFirmware_kept (b : BootInput) (s : State) : (startFirmware b s).kept = s.kept := by
  unfold startFirmware; simp
@[simp] theorem startLink_kept (t : TrainResult) (s : State) : (startLink t s).kept = s.kept := by
  unfold startLink; simp
@[simp] theorem startEvents_kept (s : State) : (startEvents s).kept = s.kept := by
  unfold startEvents; simp
@[simp] theorem endAtReset_kept (e : JournalEntry) (st : Nat) (s : State) : (endAtReset e st s).kept = s.kept := by
  unfold endAtReset; (repeat' split) <;> simp
@[simp] theorem replayOne_kept (s : State) (j : Nat) : (replayOne s j).kept = s.kept := by
  unfold replayOne; (repeat' split) <;> simp
@[simp] theorem reportDurable_kept (e : JournalEntry) (w : RetireWord) (s : State) : (reportDurable e w s).kept =
    s.kept := by
  unfold reportDurable; simp
@[simp] theorem reportOne_kept (s : State) (j : Nat) : (reportOne s j).kept = s.kept := by
  unfold reportOne; dsimp only; (repeat' split) <;> simp

/-! ### Machine/Cores -/
@[simp] theorem setAbort_kept (r : Nat) (s : State) : (setAbort r s).kept = s.kept := by
  unfold setAbort; simp
@[simp] theorem abortWaiting_kept (e : JournalEntry) (s : State) : (abortWaiting e s).kept = s.kept := by
  unfold abortWaiting; simp
@[simp] theorem dropJobs_kept (jsn : Nat) (s : State) : (dropJobs jsn s).kept = s.kept := by
  unfold dropJobs; simp
@[simp] theorem abortMove_kept (e : JournalEntry) (s : State) : (abortMove e s).kept = s.kept := by
  unfold abortMove; simp
@[simp] theorem abortMotion_kept (e : JournalEntry) (r : RunInfo) (s : State) : (abortMotion e r s).kept = s.kept := by
  unfold abortMotion; (repeat' split) <;> simp
@[simp] theorem abortStarted_kept (e : JournalEntry) (r : RunInfo) (s : State) : (abortStarted e r s).kept = s.kept := by
  unfold abortStarted; (repeat' split) <;> simp
@[simp] theorem abortNow_kept (e : JournalEntry) (r : RunInfo) (s : State) : (abortNow e r s).kept = s.kept := by
  unfold abortNow; simp
@[simp] theorem setCore_kept (c : Nat) (f : CoreState → CoreState) (s : State) : (setCore c f s).kept = s.kept := by
  unfold setCore; simp
@[simp] theorem endInterpreted_kept (s : State) (j : Nat) : (endInterpreted s j).kept = s.kept := by
  unfold endInterpreted; (repeat' split) <;> simp
@[simp] theorem coreLasting_kept (c : Nat) (s : State) : (coreLasting c s).kept = s.kept := by
  unfold coreLasting; simp
@[simp] theorem coreFault_kept (c : Nat) (s : State) : (coreFault c s).kept = s.kept := by
  unfold coreFault; simp
@[simp] theorem onDiag_kept (f jsn : Nat) (s : State) (k : JournalEntry → RunInfo → State → State) (hk : ∀ (x0 :
    JournalEntry) (x1 : RunInfo) (s : State), (k x0 x1 s).kept = s.kept) : (onDiag f jsn s k).kept = s.kept := by
  unfold onDiag; (repeat' split) <;> simp_all
@[simp] theorem endSelftest_kept (jsn : Nat) (passed : BitVec 8) (s : State) : (endSelftest jsn passed s).kept = s.kept := by
  unfold endSelftest; (repeat' split) <;> simp

/-! ### Machine/HostIf -/
@[simp] theorem setHif_kept (f : Hif → Hif) (s : State) : (setHif f s).kept = s.kept := by
  unfold setHif; simp
@[simp] theorem setDoe_kept (f : Doe → Doe) (s : State) : (setDoe f s).kept = s.kept := by
  unfold setDoe; simp
@[simp] theorem doeAnswer_kept (l : List Byte) (s : State) : (doeAnswer l s).kept = s.kept := by
  unfold doeAnswer; simp
@[simp] theorem doeToWeighhouse_kept (dtype : Nat) (payload : List Byte) (s : State) : (doeToWeighhouse dtype
    payload s).kept = s.kept := by
  unfold doeToWeighhouse; simp
@[simp] theorem msixRelease_kept (v : Nat) (s : State) : (msixRelease v s).kept = s.kept := by
  unfold msixRelease; simp
@[simp] theorem msixPump_kept (s : State) : (msixPump s).kept = s.kept := by
  unfold msixPump; (repeat' split) <;> simp
@[simp] theorem setIde_kept (st : IdeStream) (f : Ide → Ide) (s : State) : (setIde st f s).kept = s.kept := by
  unfold setIde; (repeat' split) <;> simp
@[simp] theorem poisonLine_kept (s : State) (a : Nat) : (poisonLine s a).kept = s.kept := by
  unfold poisonLine; simp

/-! ### Machine/ConfigSpace -/
@[simp] theorem vectorControl_kept (v : Nat) (masked : Bool) (s : State) : (vectorControl v masked s).kept = s.kept
    := by
  unfold vectorControl; simp
@[simp] theorem writeVector_kept (v k x : Nat) (s : State) : (writeVector v k x s).kept = s.kept := by
  unfold writeVector; (repeat' split) <;> simp
@[simp] theorem writeConfig_kept (a x : Nat) (s : State) : (writeConfig a x s).kept = s.kept := by
  unfold writeConfig; (repeat' split) <;> simp
@[simp] theorem writeOutsideDword_kept (a x : Nat) (s : State) : (writeOutsideDword a x s).kept = s.kept := by
  unfold writeOutsideDword; (repeat' split) <;> simp
@[simp] theorem writeOutside_kept (offset size : Nat) (v : Word) (s : State) : (writeOutside offset size v s).kept = s.kept := by
  unfold writeOutside; simp

/-! ### Machine/Registers -/
@[simp] theorem logAccess_kept (offset size : Nat) (write : Bool) (s : State) : (logAccess offset size write
    s).kept = s.kept := by
  unfold logAccess; simp
@[simp] theorem refuseAccess_kept (offset size : Nat) (write : Bool) (s : State) : (refuseAccess offset size write
    s).kept = s.kept := by
  unfold refuseAccess; simp
@[simp] theorem writeSq_kept (n k : Nat) (v : Word) (s : State) : (writeSq n k v s).kept = s.kept := by
  unfold writeSq; simp
@[simp] theorem writeCq_kept (n k : Nat) (v : Word) (s : State) : (writeCq n k v s).kept = s.kept := by
  unfold writeCq; simp
@[simp] theorem writeEvq_kept (k : Nat) (v : Word) (s : State) : (writeEvq k v s).kept = s.kept := by
  unfold writeEvq; simp
@[simp] theorem writeGroup_kept (g k : Nat) (v : Word) (s : State) : (writeGroup g k v s).kept = s.kept := by
  unfold writeGroup; simp
@[simp] theorem writeCmd_kept (o : Nat) (v : Word) (s : State) : (writeCmd o v s).kept = s.kept := by
  unfold writeCmd; simp
@[simp] theorem writeHif_kept (o : Nat) (v : Word) (s : State) : (writeHif o v s).kept = s.kept := by
  unfold writeHif; simp
@[simp] theorem writeVfy_kept (o : Nat) (v : Word) (s : State) : (writeVfy o v s).kept = s.kept := by
  unfold writeVfy; simp
@[simp] theorem writeHlk_kept (o : Nat) (v : Word) (s : State) : (writeHlk o v s).kept = s.kept := by
  unfold writeHlk; simp
@[simp] theorem writeDrv_kept (o : Nat) (v : Word) (s : State) : (writeDrv o v s).kept = s.kept := by
  unfold writeDrv; simp
@[simp] theorem writeSpm_kept (o : Nat) (v : Word) (s : State) : (writeSpm o v s).kept = s.kept := by
  unfold writeSpm; simp
@[simp] theorem writePrt_kept (o : Nat) (v : Word) (s : State) : (writePrt o v s).kept = s.kept := by
  unfold writePrt; simp
@[simp] theorem writeMem_kept (o : Nat) (v : Word) (s : State) : (writeMem o v s).kept = s.kept := by
  unfold writeMem; simp
@[simp] theorem writeThm_kept (o : Nat) (v : Word) (s : State) : (writeThm o v s).kept = s.kept := by
  unfold writeThm; simp
@[simp] theorem writePwr_kept (o : Nat) (v : Word) (s : State) : (writePwr o v s).kept = s.kept := by
  unfold writePwr; simp
@[simp] theorem writeCph_kept (o : Nat) (v : Word) (s : State) : (writeCph o v s).kept = s.kept := by
  unfold writeCph; simp
@[simp] theorem writeWh_kept (o : Nat) (v : Word) (s : State) : (writeWh o v s).kept = s.kept := by
  have k : ∀ (u : State) x, ({ u with wh := x } : State).kept = u.kept := fun _ _ => rfl
  unfold writeWh; split
  · exact k _ _
  · rfl
@[simp] theorem writeBlock_kept (offset : Nat) (v : Word) (s : State) : (writeBlock offset v s).kept = s.kept := by
  unfold writeBlock; (repeat' split) <;> simp

/-! ### Machine/Tick -/
@[simp] theorem vfyTransfer_kept (s : State) : (vfyTransfer s).kept = s.kept := by
  unfold vfyTransfer; simp
@[simp] theorem countTick_kept (t : TickInput) (s : State) : (countTick t s).kept = s.kept := by
  unfold countTick; simp
@[simp] theorem shortCheck_kept (t : TickInput) (s : State) : (shortCheck t s).kept = s.kept := by
  unfold shortCheck; simp
@[simp] theorem overrunEvents_kept (t : TickInput) (s : State) : (overrunEvents t s).kept = s.kept := by
  unfold overrunEvents; simp
@[simp] theorem runLost_kept (y0 : Nat) (s : State) : (runLost y0 s).kept = s.kept := by
  induction y0 generalizing s with
  | zero => rfl
  | succ n ih => unfold runLost; rw [ih, runTick_kept]
@[simp] theorem sendWriteData_kept (lines : List (List Bool)) (s : State) : (sendWriteData lines s).kept = s.kept := by
  unfold sendWriteData; (repeat' split) <;> simp
@[simp] theorem sendTickBits_kept (s t : State) : (sendTickBits s t).kept = t.kept := by
  unfold sendTickBits; (repeat' split) <;> simp
@[simp] theorem writeTick_kept (t : TickInput) (after : Bool) (s : State) : (writeTick t after s).kept = s.kept := by
  unfold writeTick; simp
@[simp] theorem transfers_kept (s : State) : (transfers s).kept = s.kept := by
  unfold transfers; simp
@[simp] theorem noteSpeed_kept (inp : List (Nat × Int)) (s : State) : (noteSpeed inp s).kept = s.kept := by
  unfold noteSpeed; (repeat' split) <;> simp
@[simp] theorem droverPart_kept (t : TickInput) (s : State) : (droverPart t s).kept = s.kept := by
  unfold droverPart; simp
@[simp] theorem sendRate_kept (s : State) : (sendRate s).kept = s.kept := by
  unfold sendRate; simp
@[simp] theorem tickTask_kept (t : TickInput) (s : State) : (tickTask t s).kept = s.kept := by
  unfold tickTask; simp
@[simp] theorem taskCheck_kept (t : TickInput) (s : State) : (taskCheck t s).kept = s.kept := by
  unfold taskCheck; simp
@[simp] theorem tapeCheck_kept (s : State) : (tapeCheck s).kept = s.kept := by
  unfold tapeCheck; simp
@[simp] theorem meetPoison_kept (s : State) : (meetPoison s).kept = s.kept := by
  unfold meetPoison; (repeat' split) <;> simp
@[simp] theorem fullTick_kept (servo after : Bool) (t : TickInput) (s : State) : (fullTick servo after t s).kept =
    s.kept := by
  unfold fullTick; simp
@[simp] theorem tickWork_kept (servo after : Bool) (t : TickInput) (s : State) : (tickWork servo after t s).kept =
    s.kept := by
  unfold tickWork; simp

end Sys2Proof.Laws
end

