-- ==== Sys2Proof/Laws/Commands.lean ====
section
/-! SUPPORT. The start and the end of a command packet: what `onBegin` and `onTape` do when the command is ready, and what
`endCommand` leaves: `f_device`, the blocks that an end leaves as they are, `f_jrn`, the journal, `f_out`, what was sent. -/

namespace Sys2Proof.Laws

open Sys2Proof.Machine Sys2Proof.Safety

/-! ### Blocks that an end leaves as they are -/

@[simp] theorem device_mk sys hif cmd jrn ctx pkr cph fmt tec vfy hlk drv mon spm prt mem thm pwr aon wh whd mram
    cart mgt pending out freeCount :
    (State.mk sys hif cmd jrn ctx pkr cph fmt tec vfy hlk drv mon spm prt mem thm pwr aon wh whd mram cart mgt pending out freeCount).device = (pkr, fmt, tec, vfy, hlk, drv, mon, spm, prt, mem, thm, pwr, aon, wh, whd, mram, cart, pending, ctx.records, sys.units, sys.phase, sys.tickCount, cph.lanes, cph.queue, cph.done, cph.degraded, jrn.nextJsn) := rfl
@[simp] theorem device_fold (s : State) : (s.pkr, s.fmt, s.tec, s.vfy, s.hlk, s.drv, s.mon, s.spm, s.prt, s.mem,
    s.thm, s.pwr, s.aon, s.wh, s.whd, s.mram, s.cart, s.pending, s.ctx.records, s.sys.units, s.sys.phase,
    s.sys.tickCount, s.cph.lanes, s.cph.queue, s.cph.done, s.cph.degraded, s.jrn.nextJsn) = s.device := rfl
@[simp] theorem foldl_device {α : Type} {f : State → α → State} (hf : ∀ s x, (f s x).device = s.device) (l : List
    α) (s : State) :
    (l.foldl f s).device = s.device := by
  induction l generalizing s with
  | nil => rfl
  | cons a t ih => rw [List.foldl_cons, ih, hf]
@[simp] theorem ite_device (c : Prop) [Decidable c] (a b : State) : (if c then a else b).device = if c then
    a.device else b.device := by
  split <;> rfl
@[simp] theorem emit_device (o : Output) (s : State) : (emit o s).device = s.device := by
  unfold emit; simp
@[simp] theorem hostFetch_device (addr len : Nat) (s : State) : (hostFetch addr len s).device = s.device := rfl
@[simp] theorem hostStore_device (addr : Nat) (l : List Byte) (s : State) : (hostStore addr l s).device = s.device := rfl
@[simp] theorem drawFree_device (s : State) : (drawFree s).device = s.device := by
  unfold drawFree; simp
@[simp] theorem msixTrigger_device (v : Nat) (en : Bool) (s : State) : (msixTrigger v en s).device = s.device := by
  unfold msixTrigger; simp
@[simp] theorem evtWrite_device (e : EventEntry) (s : State) : (evtWrite e s).device = s.device := by
  unfold evtWrite; simp
@[simp] theorem setWaiting_device (w : List EventEntry) (s : State) : (setWaiting w s).device = s.device := by
  unfold setWaiting; simp
@[simp] theorem setGroup_device (g : Nat) (f : EventGroup → EventGroup) (s : State) : (setGroup g f s).device =
    s.device := by
  unfold setGroup; simp
@[simp] theorem setStatusBit_device (src : Nat) (s : State) : (setStatusBit src s).device = s.device := by
  unfold setStatusBit; simp
@[simp] theorem groupVector_device (src : Nat) (was : Bool) (s : State) : (groupVector src was s).device = s.device
    := by
  unfold groupVector; simp
@[simp] theorem raiseStatus_device (src p0 p1 : Nat) (s : State) : (raiseStatus src p0 p1 s).device = s.device := by
  unfold raiseStatus; simp
@[simp] theorem orderedWait_device (e : EventEntry) (s : State) : (orderedWait e s).device = s.device := by
  unfold orderedWait; simp
@[simp] theorem raiseOrdered_device (src p0 p1 : Nat) (s : State) : (raiseOrdered src p0 p1 s).device = s.device := by
  unfold raiseOrdered; simp
@[simp] theorem raise_device (src p0 p1 : Nat) (s : State) : (raise src p0 p1 s).device = s.device := by
  unfold raise; simp
@[simp] theorem raiseP_device (src p0 : Nat) (s : State) : (raiseP src p0 s).device = s.device := by
  unfold raiseP; simp
@[simp] theorem raiseN_device (src : Nat) (s : State) : (raiseN src s).device = s.device := by
  unfold raiseN; simp
@[simp] theorem setCq_device (n : Nat) (f : CplRing → CplRing) (s : State) : (setCq n f s).device = s.device := by
  unfold setCq; simp
@[simp] theorem cplWrite_device (n : Nat) (c : Completion) (s : State) : (cplWrite n c s).device = s.device := by
  unfold cplWrite; simp
@[simp] theorem cplPost_device (n : Nat) (c : Completion) (s : State) : (cplPost n c s).device = s.device := by
  unfold cplPost; simp
@[simp] theorem mgtReturn_device (c : Completion) (s : State) : (mgtReturn c s).device = s.device := by
  unfold mgtReturn; simp
@[simp] theorem postTo_device (ring : Nat) (c : Completion) (s : State) : (postTo ring c s).device = s.device := by
  unfold postTo; simp
@[simp] theorem setRun_device (jsn : Nat) (f : RunInfo → RunInfo) (s : State) : (setRun jsn f s).device = s.device
    := by
  unfold setRun; simp
@[simp] theorem setEntry_device (jsn : Nat) (f : JournalEntry → JournalEntry) (s : State) : (setEntry jsn f
    s).device = s.device := by
  unfold setEntry; simp
@[simp] theorem waitRun_device (jsn : Nat) (s : State) : (waitRun jsn s).device = s.device := by
  unfold waitRun; simp
@[simp] theorem startRun_device (jsn : Nat) (s : State) : (startRun jsn s).device = s.device := by
  unfold startRun; simp
@[simp] theorem postAccepted_device (e : JournalEntry) (s : State) : (postAccepted e s).device = s.device := by
  unfold postAccepted; simp
@[simp] theorem beginFree_device (jsn : Nat) (s : State) : (beginFree jsn s).device = s.device := by
  unfold beginFree; simp
@[simp] theorem setSlot_device (t : Bool × Nat) (k : KeySlot) (s : State) : (setSlot t k s).device = s.device := by
  unfold setSlot; simp
@[simp] theorem freePending_device (e : JournalEntry) (s : State) : (freePending e s).device = s.device := by
  unfold freePending; simp
@[simp] theorem endPhase_device (s : State) : (endPhase s).device = s.device := by
  unfold endPhase; simp
@[simp] theorem replayDone_device (s : State) : (replayDone s).device = s.device := by
  unfold replayDone; simp
@[simp] theorem replayEnded_device (wasReplayed : Bool) (s : State) : (replayEnded wasReplayed s).device = s.device
    := by
  unfold replayEnded; simp
@[simp] theorem abortMissed_device (jsn : Nat) (s : State) : (abortMissed jsn s).device = s.device := by
  unfold abortMissed; simp
@[simp] theorem reportFirst_device (e : JournalEntry) (s : State) : (reportFirst e s).device = s.device := by
  unfold reportFirst; simp
@[simp] theorem unpin_device (e : JournalEntry) (s : State) : (unpin e s).device = s.device := by
  unfold unpin; simp
@[simp] theorem retireNow_device (e : JournalEntry) (r : RunInfo) (status : Nat) (r0 r1 : Word) (s : State) :
    (retireNow e r status r0 r1 s).device = s.device := by
  unfold retireNow; simp
@[simp] theorem endCommand_device (jsn status : Nat) (r0 r1 : Word) (s : State) : (endCommand jsn status r0 r1
    s).device = s.device := by
  unfold endCommand; (repeat' split) <;> simp
@[simp] theorem endWith_device (jsn status r0 r1 : Nat) (s : State) : (endWith jsn status r0 r1 s).device =
    s.device := by
  unfold endWith; simp
@[simp] theorem endBare_device (jsn st : Nat) (s : State) : (endBare jsn st s).device = s.device := by
  unfold endBare; simp
@[simp] theorem endR0_device (jsn st r0 : Nat) (s : State) : (endR0 jsn st r0 s).device = s.device := by
  unfold endR0; simp
@[simp] theorem endR1_device (jsn st r1 : Nat) (s : State) : (endR1 jsn st r1 s).device = s.device := by
  unfold endR1; simp

/-! ### Operations that leave the journal as it is -/

@[simp] theorem foldl_jrn {α : Type} {f : State → α → State} (hf : ∀ s x, (f s x).jrn = s.jrn) (l : List α) (s :
    State) :
    (l.foldl f s).jrn = s.jrn := by
  induction l generalizing s with
  | nil => rfl
  | cons a t ih => rw [List.foldl_cons, ih, hf]
@[simp] theorem ite_jrn (c : Prop) [Decidable c] (a b : State) : (if c then a else b).jrn = if c then a.jrn else
    b.jrn := by
  split <;> rfl
@[simp] theorem msixTrigger_jrn (v : Nat) (en : Bool) (s : State) : (msixTrigger v en s).jrn = s.jrn := by
  unfold msixTrigger; simp
@[simp] theorem evtWrite_jrn (e : EventEntry) (s : State) : (evtWrite e s).jrn = s.jrn := by
  unfold evtWrite; simp
@[simp] theorem setWaiting_jrn (w : List EventEntry) (s : State) : (setWaiting w s).jrn = s.jrn := by
  unfold setWaiting; simp
@[simp] theorem setStatusBit_jrn (src : Nat) (s : State) : (setStatusBit src s).jrn = s.jrn := by
  unfold setStatusBit; simp
@[simp] theorem groupVector_jrn (src : Nat) (was : Bool) (s : State) : (groupVector src was s).jrn = s.jrn := by
  unfold groupVector; simp
@[simp] theorem raiseStatus_jrn (src p0 p1 : Nat) (s : State) : (raiseStatus src p0 p1 s).jrn = s.jrn := by
  unfold raiseStatus; simp
@[simp] theorem orderedWait_jrn (e : EventEntry) (s : State) : (orderedWait e s).jrn = s.jrn := by
  unfold orderedWait; simp
@[simp] theorem raiseOrdered_jrn (src p0 p1 : Nat) (s : State) : (raiseOrdered src p0 p1 s).jrn = s.jrn := by
  unfold raiseOrdered; simp
@[simp] theorem raise_jrn (src p0 p1 : Nat) (s : State) : (raise src p0 p1 s).jrn = s.jrn := by
  unfold raise; simp
@[simp] theorem raiseP_jrn (src p0 : Nat) (s : State) : (raiseP src p0 s).jrn = s.jrn := by
  unfold raiseP; simp
@[simp] theorem raiseN_jrn (src : Nat) (s : State) : (raiseN src s).jrn = s.jrn := by
  unfold raiseN; simp
@[simp] theorem cplWrite_jrn (n : Nat) (c : Completion) (s : State) : (cplWrite n c s).jrn = s.jrn := by
  unfold cplWrite; simp
@[simp] theorem cplPost_jrn (n : Nat) (c : Completion) (s : State) : (cplPost n c s).jrn = s.jrn := by
  unfold cplPost; simp
@[simp] theorem mgtReturn_jrn (c : Completion) (s : State) : (mgtReturn c s).jrn = s.jrn := by
  unfold mgtReturn; simp
@[simp] theorem postTo_jrn (ring : Nat) (c : Completion) (s : State) : (postTo ring c s).jrn = s.jrn := by
  unfold postTo; simp
@[simp] theorem setSlot_jrn (t : Bool × Nat) (k : KeySlot) (s : State) : (setSlot t k s).jrn = s.jrn := by
  unfold setSlot; simp
@[simp] theorem freePending_jrn (e : JournalEntry) (s : State) : (freePending e s).jrn = s.jrn := by
  unfold freePending; simp
@[simp] theorem endPhase_jrn (s : State) : (endPhase s).jrn = s.jrn := by
  unfold endPhase; simp
@[simp] theorem replayDone_jrn (s : State) : (replayDone s).jrn = s.jrn := by
  unfold replayDone; simp
@[simp] theorem replayEnded_jrn (wasReplayed : Bool) (s : State) : (replayEnded wasReplayed s).jrn = s.jrn := by
  unfold replayEnded; simp
@[simp] theorem abortMissed_jrn (jsn : Nat) (s : State) : (abortMissed jsn s).jrn = s.jrn := by
  unfold abortMissed; simp
@[simp] theorem unpin_jrn (e : JournalEntry) (s : State) : (unpin e s).jrn = s.jrn := by
  unfold unpin; simp

/-! ### What has been sent only grows -/

/-- A prefix of what an equal list begins. -/
theorem prefixOf {α : Type} {a b c : List α} (h : b <+: c) (e : a = b) : a <+: c := e ▸ h

theorem emit_out (o : Output) (s : State) : s.out <+: (emit o s).out := List.prefix_append _ _

theorem msixTrigger_out (v : Nat) (en : Bool) (s : State) : s.out <+: (msixTrigger v en s).out := by
  unfold msixTrigger; (repeat' split) <;> first | exact List.prefix_rfl | exact emit_out _ _

theorem evtWrite_out (e : EventEntry) (s : State) : s.out <+: (evtWrite e s).out :=
  (emit_out _ s).trans (prefixOf (msixTrigger_out _ _ _) rfl)

theorem groupVector_out (src : Nat) (was : Bool) (s : State) : s.out <+: (groupVector src was s).out := by
  unfold groupVector; split
  · exact List.prefix_rfl
  · exact msixTrigger_out _ _ _

theorem raiseStatus_out (src p0 p1 : Nat) (s : State) : s.out <+: (raiseStatus src p0 p1 s).out := by
  unfold raiseStatus; dsimp only; split
  · exact List.prefix_rfl
  · refine List.IsPrefix.trans ?_ (groupVector_out _ _ _); split
    · exact prefixOf (evtWrite_out _ _) rfl
    · exact List.prefix_rfl

theorem orderedWait_out (e : EventEntry) (s : State) : s.out <+: (orderedWait e s).out := by
  unfold orderedWait; dsimp only; split
  · exact prefixOf (raiseStatus_out _ _ _ _) rfl
  · exact List.prefix_rfl

theorem raiseOrdered_out (src p0 p1 : Nat) (s : State) : s.out <+: (raiseOrdered src p0 p1 s).out := by
  unfold raiseOrdered; dsimp only; refine List.IsPrefix.trans ?_ (groupVector_out _ _ _); (repeat' split)
  · exact prefixOf (evtWrite_out _ _) rfl
  · exact List.prefix_rfl
  · exact prefixOf (orderedWait_out _ _) rfl

theorem raise_out (src p0 p1 : Nat) (s : State) : s.out <+: (raise src p0 p1 s).out := by
  unfold raise; split
  · exact raiseOrdered_out _ _ _ _
  · exact raiseStatus_out _ _ _ _

theorem raiseP_out (src p0 : Nat) (s : State) : s.out <+: (raiseP src p0 s).out :=
  prefixOf (raise_out _ _ _ _) rfl

theorem raiseN_out (src : Nat) (s : State) : s.out <+: (raiseN src s).out :=
  prefixOf (raiseP_out _ _ _) rfl

theorem cplWrite_out (n : Nat) (c : Completion) (s : State) : s.out <+: (cplWrite n c s).out :=
  (emit_out _ s).trans (prefixOf (msixTrigger_out _ _ _) rfl)

theorem cplPost_out (n : Nat) (c : Completion) (s : State) : s.out <+: (cplPost n c s).out := by
  unfold cplPost; dsimp only; (repeat' split)
  · exact cplWrite_out _ _ _
  · exact prefixOf (raise_out _ _ _ _) rfl
  · exact List.prefix_rfl

theorem postTo_out (n : Nat) (c : Completion) (s : State) : s.out <+: (postTo n c s).out := by
  unfold postTo; (repeat' split)
  · exact prefixOf (emit_out _ _) rfl
  · exact List.prefix_rfl
  · exact cplPost_out _ _ _

theorem postAccepted_out (e : JournalEntry) (s : State) : s.out <+: (postAccepted e s).out := postTo_out _ _ s

theorem setSlot_out (t : Bool × Nat) (k : KeySlot) (s : State) : (setSlot t k s).out = s.out := by
  unfold setSlot; split <;> rfl

theorem freePending_out (e : JournalEntry) (s : State) : (freePending e s).out = s.out := by
  unfold freePending; dsimp only; split
  · exact setSlot_out _ _ _
  · rfl

theorem endPhase_out (s : State) : (endPhase s).out = s.out := by
  unfold endPhase; split <;> rfl

theorem replayEnded_out (b : Bool) (s : State) : s.out <+: (replayEnded b s).out := by
  unfold replayEnded; dsimp only; (repeat' split)
  · exact List.prefix_rfl
  · unfold replayDone; rw [endPhase_out]; exact prefixOf (raiseN_out _ _) rfl
  · exact List.prefix_rfl

theorem abortMissed_out (jsn : Nat) (s : State) : (abortMissed jsn s).out = s.out := by
  unfold abortMissed; split <;> rfl

theorem reportFirst_out (e : JournalEntry) (s : State) : s.out <+: (reportFirst e s).out := by
  unfold reportFirst; split
  · exact prefixOf (postAccepted_out _ _) rfl
  · exact List.prefix_rfl

theorem retireNow_out (e : JournalEntry) (r : RunInfo) (st : Nat) (r0 r1 : Word) (s : State) :
    s.out <+: (retireNow e r st r0 r1 s).out := by
  unfold retireNow; dsimp only
  rw [abortMissed_out]
  refine List.IsPrefix.trans ?_ (replayEnded_out _ _)
  have h : ∀ u : State, u.out <+: (if e.source = 65 then beginFree e.jsn u else u).out := by
    intro u; split <;> exact List.prefix_rfl
  refine List.IsPrefix.trans ?_ (h _)
  refine List.IsPrefix.trans ?_ (postTo_out _ _ _)
  rw [freePending_out]
  exact prefixOf (reportFirst_out _ _) rfl

/-! ### The end of a command -/

theorem reportFirst_retire (e : JournalEntry) (s : State) : (reportFirst e s).jrn.retire = s.jrn.retire := by
  unfold reportFirst postAccepted; split
  · show (postTo _ _ _).jrn.retire = _; rw [postTo_jrn]
  · rfl

/-- The retire word is there, and the run is gone. -/
theorem retireNow_jrn (e : JournalEntry) (r : RunInfo) (st : Nat) (r0 r1 : Word) (s : State) :
    { jsn := e.jsn, state := 2, status := st, result0 := r0, result1 := r1 : RetireWord }
        ∈ (retireNow e r st r0 r1 s).jrn.retire
      ∧ findRun (retireNow e r st r0 r1 s) e.jsn = none := by
  have hb : ∀ u : State, (if e.source = 65 then beginFree e.jsn u else u).jrn.retire = u.jrn.retire
      ∧ (if e.source = 65 then beginFree e.jsn u else u).jrn.runs = u.jrn.runs := by
    intro u; split <;> exact ⟨rfl, rfl⟩
  unfold retireNow findRun; dsimp only
  simp only [abortMissed_jrn, replayEnded_jrn, (hb _).1, (hb _).2, postTo_jrn, freePending_jrn, unpin_jrn,
    reportFirst_retire]
  refine ⟨by simp, ?_⟩
  rw [List.find?_eq_none]
  intro x hx
  have := (List.mem_filter.1 hx).2
  simpa using this

theorem findEntry_jsn {s : State} {jsn : Nat} {e : JournalEntry} (h : findEntry s jsn = some e) : e.jsn = jsn := by
  have := List.find?_some h
  simpa using this

/-- Everything that the end of a command does when a retire word is free (03 R76, R80). -/
theorem endWith_ends {jsn st r0 r1 : Nat} {e : JournalEntry} {r : RunInfo} {s : State}
    (he : findEntry s jsn = some e) (hr : findRun s jsn = some r) (hf : retireFree s = true) :
    EndsWith jsn (if st = stOk ∧ r.retried = true then stOkRetried else st) r0 r1 s (endWith jsn st r0 r1 s) := by
  have hj := findEntry_jsn he
  subst hj
  unfold endWith endCommand; simp only [he, hr, hf, if_true]
  exact ⟨(retireNow_jrn _ _ _ _ _ _).1, (retireNow_jrn _ _ _ _ _ _).2, retireNow_device _ _ _ _ _ _,
    retireNow_out _ _ _ _ _ _⟩

/-- The end with OK, or OK_RETRIED. -/
theorem endOk_ends {jsn r0 r1 : Nat} {e : JournalEntry} {r : RunInfo} {s : State}
    (he : findEntry s jsn = some e) (hr : findRun s jsn = some r) (hf : retireFree s = true) :
    EndsWith jsn (okStatus r) r0 r1 s (endWith jsn stOk r0 r1 s) := by
  have h := endWith_ends (st := stOk) (r0 := r0) (r1 := r1) he hr hf
  unfold okStatus; cases hb : r.retried <;> simpa [hb] using h

/-- The end with another status. -/
theorem endFail_ends {jsn st r0 r1 : Nat} {e : JournalEntry} {r : RunInfo} {s : State} (hs : st ≠ stOk)
    (he : findEntry s jsn = some e) (hr : findRun s jsn = some r) (hf : retireFree s = true) :
    EndsWith jsn st r0 r1 s (endWith jsn st r0 r1 s) := by
  have h := endWith_ends (st := st) (r0 := r0) (r1 := r1) he hr hf
  rwa [if_neg (fun c => hs c.1)] at h

theorem endsWith_ends {jsn st r0 r1 : Nat} {u t : State} (h : EndsWith jsn st r0 r1 u t) : Ends jsn st u t :=
  ⟨⟨_, h.1, rfl, rfl, rfl⟩, h.2⟩

/-- An end whose results are free values. -/
theorem endBareOk_ends {jsn : Nat} {e : JournalEntry} {r : RunInfo} {s : State}
    (he : findEntry s jsn = some e) (hr : findRun s jsn = some r) (hf : retireFree s = true) :
    Ends jsn (okStatus r) s (endBare jsn stOk s) :=
  endsWith_ends (endOk_ends (s := drawFree (drawFree s)) he hr hf)

theorem endR0Ok_ends {jsn r0 : Nat} {e : JournalEntry} {r : RunInfo} {s : State}
    (he : findEntry s jsn = some e) (hr : findRun s jsn = some r) (hf : retireFree s = true) :
    EndsR0 jsn (okStatus r) r0 s (endR0 jsn stOk r0 s) := ⟨_, endOk_ends (s := drawFree s) he hr hf⟩

theorem endR1Ok_ends {jsn r1 : Nat} {e : JournalEntry} {r : RunInfo} {s : State}
    (he : findEntry s jsn = some e) (hr : findRun s jsn = some r) (hf : retireFree s = true) :
    EndsR1 jsn (okStatus r) r1 s (endR1 jsn stOk r1 s) := ⟨_, endOk_ends (s := drawFree s) he hr hf⟩

theorem endBareFail_ends {jsn st : Nat} {e : JournalEntry} {r : RunInfo} {s : State} (hs : st ≠ stOk)
    (he : findEntry s jsn = some e) (hr : findRun s jsn = some r) (hf : retireFree s = true) :
    Ends jsn st s (endBare jsn st s) := endsWith_ends (endFail_ends (s := drawFree (drawFree s)) hs he hr hf)

theorem endR0Fail_ends {jsn st r0 : Nat} {e : JournalEntry} {r : RunInfo} {s : State} (hs : st ≠ stOk)
    (he : findEntry s jsn = some e) (hr : findRun s jsn = some r) (hf : retireFree s = true) :
    EndsR0 jsn st r0 s (endR0 jsn st r0 s) := ⟨_, endFail_ends (s := drawFree s) hs he hr hf⟩

theorem endR1Fail_ends {jsn st r1 : Nat} {e : JournalEntry} {r : RunInfo} {s : State} (hs : st ≠ stOk)
    (he : findEntry s jsn = some e) (hr : findRun s jsn = some r) (hf : retireFree s = true) :
    EndsR1 jsn st r1 s (endR1 jsn st r1 s) := ⟨_, endFail_ends (s := drawFree s) hs he hr hf⟩

/-! ### The start of a command -/

/-- What finding a line for a context leaves as it is. -/
theorem pinCtx_shape {jsn c : Nat} {s t : State} (h : pinCtx jsn c s = some t) :
    ∃ l p w m, t = { s with ctx := { s.ctx with lines := l, pins := p, waiting := w, misses := m } } := by
  unfold pinCtx at h; (repeat' split at h) <;> cases h <;> exact ⟨_, _, _, _, rfl⟩

/-- Fetching host buffers sends reads out and moves translations. -/
theorem fetchHost_shape (e : JournalEntry) (s : State) :
    ∃ h o, fetchHost e s = { s with hif := h, out := o } ∧ s.out <+: o := by
  unfold fetchHost
  induction fetchRanges e generalizing s with
  | nil => exact ⟨_, _, rfl, List.prefix_rfl⟩
  | cons p t ih =>
    obtain ⟨h, o, e1, e2⟩ := ih (hostFetch p.1 p.2 s)
    exact ⟨h, o, e1, (List.prefix_append _ _).trans e2⟩

theorem begun_shape (jsn : Nat) (e : JournalEntry) (s : State) :
    ∃ h o l p w m, begun jsn e s
      = { s with hif := h, out := o, ctx := { s.ctx with lines := l, pins := p, waiting := w, misses := m } } := by
  have hp : ∃ l p w m, (if namesCtx e then (pinCtx jsn (entryCtx e) s).getD s else s)
      = { s with ctx := { s.ctx with lines := l, pins := p, waiting := w, misses := m } } := by
    split
    · cases h : pinCtx jsn (entryCtx e) s with
      | none => exact ⟨_, _, _, _, rfl⟩
      | some t => exact pinCtx_shape h
    · exact ⟨_, _, _, _, rfl⟩
  obtain ⟨l, p, w, m, hp⟩ := hp
  unfold begun; rw [hp]
  obtain ⟨h, o, hf, -⟩ := fetchHost_shape e { s with ctx := { s.ctx with lines := l, pins := p, waiting := w, misses := m } }
  exact ⟨h, o, l, p, w, m, hf⟩

theorem begun_device (jsn : Nat) (e : JournalEntry) (s : State) : (begun jsn e s).device = s.device := by
  obtain ⟨h, o, l, p, w, m, e⟩ := begun_shape jsn e s; rw [e]; rfl

/-- A ready command begins with its own effect. -/
theorem onBegin_ready {op jsn : Nat} {e : JournalEntry} {r : RunInfo} {s : State} (h : ready op jsn e r s = true)
    (k : JournalEntry → RunInfo → State → State) : onBegin op jsn s k = k e r (begun jsn e s) := by
  unfold ready at h
  simp only [Bool.and_eq_true, Bool.or_eq_true, Bool.not_eq_true', decide_eq_true_eq] at h
  obtain ⟨⟨⟨⟨⟨h1, h2⟩, h3⟩, h4⟩, -⟩, h5⟩ := h
  unfold onBegin onCommand begun withHost
  simp only [h1, h2, h3, Bool.false_or, Bool.false_eq_true, if_false]
  rcases h5 with h | h
  · simp only [h, h4, Bool.not_false, if_true, Bool.false_eq_true, if_false]
  · obtain ⟨ha, hb⟩ := h
    obtain ⟨t, ht⟩ := Option.isSome_iff_exists.1 ha
    have hs := pinCtx_shape ht
    obtain ⟨l, p, w, m, rfl⟩ := hs
    by_cases hn : namesCtx e = true
    · simp only [hn, ht, Bool.not_true, if_true, Bool.false_eq_true, if_false, Option.getD_some]
      have hc : (needsOpen op && !(getCtx (entryCtx e)
          { s with ctx := { s.ctx with lines := l, pins := p, waiting := w, misses := m } }).isOpen) = false := by
        rcases hb with hb | hb
        · simp [hb]
        · have : (getCtx (entryCtx e)
            { s with ctx := { s.ctx with lines := l, pins := p, waiting := w, misses := m } }).isOpen = true := hb
          simp [this]
      have h4' : ((hostRanges e r).all fun q => translates q.1 q.2
          { s with ctx := { s.ctx with lines := l, pins := p, waiting := w, misses := m } }) = true := h4
      rw [hc, h4']; rfl
    · simp [hn, h4]

/-- The journal entry and the run of a ready command, in the state in which its effect begins. -/
theorem ready_found {op jsn : Nat} {e : JournalEntry} {r : RunInfo} {s : State} (h : ready op jsn e r s = true) :
    findEntry (begun jsn e s) jsn = some e ∧ findRun (begun jsn e s) jsn = some r
      ∧ retireFree (begun jsn e s) = true := by
  unfold ready at h
  simp only [Bool.and_eq_true, decide_eq_true_eq] at h
  obtain ⟨⟨⟨⟨⟨h1, -⟩, -⟩, -⟩, h4⟩, -⟩ := h
  have h1' : findEntry s jsn = some e ∧ findRun s jsn = some r := by
    unfold runnable at h1; split at h1
    · rename_i he hr; split at h1
      · cases h1; exact ⟨he, hr⟩
      · cases h1
    · cases h1
  obtain ⟨h, o, l, p, w, m, hb⟩ := begun_shape jsn e s
  rw [hb]; exact ⟨h1'.1, h1'.2, h4⟩

/-- A ready command that uses a tape that is ready begins with its own effect. -/
theorem onTape_ready {op jsn : Nat} {e : JournalEntry} {r : RunInfo} {s : State} (hr : ready op jsn e r s = true)
    (ht : tapeReady s = true) (k : JournalEntry → RunInfo → State → State) :
    onTape op jsn s k = k e r (begun jsn e s) := by
  unfold onTape; rw [onBegin_ready hr]
  obtain ⟨h, o, l, p, w, m, hb⟩ := begun_shape jsn e s
  rw [hb]
  unfold tapeReady at ht
  simp only [Bool.and_eq_true, Bool.or_eq_true, Bool.not_eq_true', Option.isNone_iff_eq_none] at ht
  obtain ⟨⟨⟨⟨h1, h2⟩, h3⟩, h4⟩, h5⟩ := ht
  have g1 : tapeDown { s with hif := h, out := o, ctx := { s.ctx with lines := l, pins := p, waiting := w, misses := m } } = false := h1
  have g2 : tapeHeld { s with hif := h, out := o, ctx := { s.ctx with lines := l, pins := p, waiting := w, misses := m } } = false := h2
  have g3 : loadMustWait { s with hif := h, out := o, ctx := { s.ctx with lines := l, pins := p, waiting := w, misses := m } } = false := h3
  simp only [g1, g2, g3, h4]
  have g5 : autoLoad { s with hif := h, out := o, ctx := { s.ctx with lines := l, pins := p, waiting := w, misses := m } }
      = { s with hif := h, out := o, ctx := { s.ctx with lines := l, pins := p, waiting := w, misses := m } } := by
    unfold autoLoad
    have : (s.cart.loaded || s.cart.unknown || !s.cart.threaded) = true := by
      rcases h5 with (g | g) | g <;> simp [g]
    exact if_pos this
  simp [g5]

end Sys2Proof.Laws
end

