-- ==== Sys2Proof/Laws/Frames.lean ====
section
/-! SUPPORT. Operations that change the rings, the ownership records of the Porter and the chained buffers alone: every other
block, gathered in `quiet`, stays as it is. -/

namespace Sys2Proof.Machine

/-- Every block but the rings and events, the host interface, the packer, the Porter, what was sent and the count of free
values. -/
def State.quiet (s : State) :=
  (s.cmd.compatActive, s.sys, s.jrn, s.ctx, s.cph, s.fmt, s.tec, s.vfy, s.hlk, s.drv, s.mon, s.spm, s.mem, s.thm,
    s.pwr, s.aon, s.wh, s.whd, s.mram, s.cart, s.mgt, s.pending)

end Sys2Proof.Machine

namespace Sys2Proof.Laws

open Sys2Proof.Machine

@[simp] theorem quiet_mk sys hif cmd jrn ctx pkr cph fmt tec vfy hlk drv mon spm prt mem thm pwr aon wh whd mram cart mgt pending out freeCount :
    (State.mk sys hif cmd jrn ctx pkr cph fmt tec vfy hlk drv mon spm prt mem thm pwr aon wh whd mram cart mgt pending out freeCount).quiet
      = (cmd.compatActive, sys, jrn, ctx, cph, fmt, tec, vfy, hlk, drv, mon, spm, mem, thm, pwr, aon, wh, whd, mram, cart, mgt, pending) := rfl

@[simp] theorem quiet_fold (s : State) : (s.cmd.compatActive, s.sys, s.jrn, s.ctx, s.cph, s.fmt, s.tec, s.vfy, s.hlk, s.drv, s.mon, s.spm, s.mem, s.thm, s.pwr,
    s.aon, s.wh, s.whd, s.mram, s.cart, s.mgt, s.pending)
    = s.quiet := rfl

@[simp] theorem foldl_quiet {α : Type} {f : State → α → State} (hf : ∀ s x, (f s x).quiet = s.quiet) (l : List α) (s : State) :
    (l.foldl f s).quiet = s.quiet := by
  induction l generalizing s with
  | nil => rfl
  | cons a t ih => rw [List.foldl_cons, ih, hf]

@[simp] theorem ite_quiet (c : Prop) [Decidable c] (a b : State) : (if c then a else b).quiet = if c then a.quiet else b.quiet := by
  split <;> rfl

@[simp] theorem emit_quiet (o : Output) (s : State) : (emit o s).quiet = s.quiet := by
  unfold emit; simp

@[simp] theorem hostFetch_quiet (addr len : Nat) (s : State) : (hostFetch addr len s).quiet = s.quiet := rfl

@[simp] theorem hostStore_quiet (addr : Nat) (l : List Byte) (s : State) : (hostStore addr l s).quiet = s.quiet := rfl

@[simp] theorem drawFree_quiet (s : State) : (drawFree s).quiet = s.quiet := by
  unfold drawFree; simp

@[simp] theorem msixTrigger_quiet (v : Nat) (en : Bool) (s : State) : (msixTrigger v en s).quiet = s.quiet := by
  unfold msixTrigger; simp

@[simp] theorem evtWrite_quiet (e : EventEntry) (s : State) : (evtWrite e s).quiet = s.quiet := by
  unfold evtWrite; simp

@[simp] theorem setWaiting_quiet (w : List EventEntry) (s : State) : (setWaiting w s).quiet = s.quiet := by
  unfold setWaiting; simp

@[simp] theorem setGroup_quiet (g : Nat) (f : EventGroup → EventGroup) (s : State) : (setGroup g f s).quiet = s.quiet := by
  unfold setGroup; simp

@[simp] theorem setStatusBit_quiet (src : Nat) (s : State) : (setStatusBit src s).quiet = s.quiet := by
  unfold setStatusBit; simp

@[simp] theorem groupVector_quiet (src : Nat) (was : Bool) (s : State) : (groupVector src was s).quiet = s.quiet := by
  unfold groupVector; simp

@[simp] theorem raiseStatus_quiet (src p0 p1 : Nat) (s : State) : (raiseStatus src p0 p1 s).quiet = s.quiet := by
  unfold raiseStatus; simp

@[simp] theorem orderedWait_quiet (e : EventEntry) (s : State) : (orderedWait e s).quiet = s.quiet := by
  unfold orderedWait; dsimp only; split
  · exact raiseStatus_quiet _ _ _ _
  · rfl

@[simp] theorem raiseOrdered_quiet (src p0 p1 : Nat) (s : State) : (raiseOrdered src p0 p1 s).quiet = s.quiet := by
  unfold raiseOrdered; dsimp only; rw [groupVector_quiet]; (repeat' split)
  · exact evtWrite_quiet _ _
  · rfl
  · exact orderedWait_quiet _ _

@[simp] theorem raise_quiet (src p0 p1 : Nat) (s : State) : (raise src p0 p1 s).quiet = s.quiet := by
  unfold raise; simp

@[simp] theorem raiseP_quiet (src p0 : Nat) (s : State) : (raiseP src p0 s).quiet = s.quiet := by
  unfold raiseP; simp

@[simp] theorem raiseN_quiet (src : Nat) (s : State) : (raiseN src s).quiet = s.quiet := by
  unfold raiseN; simp

@[simp] theorem setCq_quiet (n : Nat) (f : CplRing → CplRing) (s : State) : (setCq n f s).quiet = s.quiet := by
  unfold setCq; simp

@[simp] theorem cplWrite_quiet (n : Nat) (c : Completion) (s : State) : (cplWrite n c s).quiet = s.quiet := by
  unfold cplWrite; simp

@[simp] theorem cplPost_quiet (n : Nat) (c : Completion) (s : State) : (cplPost n c s).quiet = s.quiet := by
  unfold cplPost; simp

@[simp] theorem setCounter_quiet (f : Counter → Counter) (s : State) : (setCounter f s).quiet = s.quiet := by
  unfold setCounter; simp

@[simp] theorem setHif_quiet (f : Hif → Hif) (s : State) : (setHif f s).quiet = s.quiet := by
  unfold setHif; simp

@[simp] theorem setPool_quiet (p : Nat) (f : Pool → Pool) (s : State) : (setPool p f s).quiet = s.quiet := by
  unfold setPool; simp

@[simp] theorem setBuf_quiet (p i : Nat) (b : BufRec) (s : State) : (setBuf p i b s).quiet = s.quiet := by
  unfold setBuf; simp

@[simp] theorem noBuffer_quiet (o n : Nat) (s : State) : (noBuffer o n s).quiet = s.quiet := by
  unfold noBuffer; simp

@[simp] theorem refuse_quiet (c o r : Nat) (h : Word) (s : State) : (refuse c o r h s).quiet = s.quiet := by
  unfold refuse; simp

@[simp] theorem fwResult_quiet (o w : Nat) (s : State) : (fwResult o w s).quiet = s.quiet := by
  unfold fwResult; simp

@[simp] theorem fwHandle_quiet (o : Nat) (h : Word) (s : State) : (fwHandle o h s).quiet = s.quiet := by
  unfold fwHandle; simp

@[simp] theorem applyOwner_quiet (op o : Nat) (h : Word) (x : Nat) (s : State) : (applyOwner op o h x s).quiet = s.quiet := by
  unfold applyOwner; simp

@[simp] theorem ownerOp_quiet (op o : Nat) (h : Word) (x : Nat) (s : State) : (ownerOp op o h x s).quiet = s.quiet := by
  unfold ownerOp; split <;> simp

@[simp] theorem freeBuffer_quiet (o : Nat) (h : Word) (s : State) : (freeBuffer o h s).quiet = s.quiet := by
  unfold freeBuffer; simp

@[simp] theorem dropChained_quiet (c : Chained) (s : State) : (dropChained c s).quiet = s.quiet := by
  unfold dropChained; simp

@[simp] theorem dropChainedOf_quiet (c : Nat) (s : State) : (dropChainedOf c s).quiet = s.quiet := by
  unfold dropChainedOf; simp

theorem quiet_compat {s t : State} (h : t.quiet = s.quiet) : t.cmd.compatActive = s.cmd.compatActive := by
  unfold State.quiet at h; simp only [Prod.mk.injEq] at h; exact h.1

theorem quiet_sys {s t : State} (h : t.quiet = s.quiet) : t.sys = s.sys := by
  unfold State.quiet at h; simp only [Prod.mk.injEq] at h; exact h.2.1

theorem quiet_jrn {s t : State} (h : t.quiet = s.quiet) : t.jrn = s.jrn := by
  unfold State.quiet at h; simp only [Prod.mk.injEq] at h; exact h.2.2.1

theorem quiet_ctx {s t : State} (h : t.quiet = s.quiet) : t.ctx = s.ctx := by
  unfold State.quiet at h; simp only [Prod.mk.injEq] at h; exact h.2.2.2.1

theorem quiet_cph {s t : State} (h : t.quiet = s.quiet) : t.cph = s.cph := by
  unfold State.quiet at h; simp only [Prod.mk.injEq] at h; exact h.2.2.2.2.1

theorem quiet_fmt {s t : State} (h : t.quiet = s.quiet) : t.fmt = s.fmt := by
  unfold State.quiet at h; simp only [Prod.mk.injEq] at h; exact h.2.2.2.2.2.1

theorem quiet_tec {s t : State} (h : t.quiet = s.quiet) : t.tec = s.tec := by
  unfold State.quiet at h; simp only [Prod.mk.injEq] at h; exact h.2.2.2.2.2.2.1

theorem quiet_vfy {s t : State} (h : t.quiet = s.quiet) : t.vfy = s.vfy := by
  unfold State.quiet at h; simp only [Prod.mk.injEq] at h; exact h.2.2.2.2.2.2.2.1

theorem quiet_hlk {s t : State} (h : t.quiet = s.quiet) : t.hlk = s.hlk := by
  unfold State.quiet at h; simp only [Prod.mk.injEq] at h; exact h.2.2.2.2.2.2.2.2.1

theorem quiet_drv {s t : State} (h : t.quiet = s.quiet) : t.drv = s.drv := by
  unfold State.quiet at h; simp only [Prod.mk.injEq] at h; exact h.2.2.2.2.2.2.2.2.2.1

theorem quiet_mon {s t : State} (h : t.quiet = s.quiet) : t.mon = s.mon := by
  unfold State.quiet at h; simp only [Prod.mk.injEq] at h; exact h.2.2.2.2.2.2.2.2.2.2.1

theorem quiet_spm {s t : State} (h : t.quiet = s.quiet) : t.spm = s.spm := by
  unfold State.quiet at h; simp only [Prod.mk.injEq] at h; exact h.2.2.2.2.2.2.2.2.2.2.2.1

theorem quiet_mem {s t : State} (h : t.quiet = s.quiet) : t.mem = s.mem := by
  unfold State.quiet at h; simp only [Prod.mk.injEq] at h; exact h.2.2.2.2.2.2.2.2.2.2.2.2.1

theorem quiet_thm {s t : State} (h : t.quiet = s.quiet) : t.thm = s.thm := by
  unfold State.quiet at h; simp only [Prod.mk.injEq] at h; exact h.2.2.2.2.2.2.2.2.2.2.2.2.2.1

theorem quiet_pwr {s t : State} (h : t.quiet = s.quiet) : t.pwr = s.pwr := by
  unfold State.quiet at h; simp only [Prod.mk.injEq] at h; exact h.2.2.2.2.2.2.2.2.2.2.2.2.2.2.1

theorem quiet_aon {s t : State} (h : t.quiet = s.quiet) : t.aon = s.aon := by
  unfold State.quiet at h; simp only [Prod.mk.injEq] at h; exact h.2.2.2.2.2.2.2.2.2.2.2.2.2.2.2.1

theorem quiet_wh {s t : State} (h : t.quiet = s.quiet) : t.wh = s.wh := by
  unfold State.quiet at h; simp only [Prod.mk.injEq] at h; exact h.2.2.2.2.2.2.2.2.2.2.2.2.2.2.2.2.1

theorem quiet_whd {s t : State} (h : t.quiet = s.quiet) : t.whd = s.whd := by
  unfold State.quiet at h; simp only [Prod.mk.injEq] at h; exact h.2.2.2.2.2.2.2.2.2.2.2.2.2.2.2.2.2.1

theorem quiet_mram {s t : State} (h : t.quiet = s.quiet) : t.mram = s.mram := by
  unfold State.quiet at h; simp only [Prod.mk.injEq] at h; exact h.2.2.2.2.2.2.2.2.2.2.2.2.2.2.2.2.2.2.1

theorem quiet_cart {s t : State} (h : t.quiet = s.quiet) : t.cart = s.cart := by
  unfold State.quiet at h; simp only [Prod.mk.injEq] at h; exact h.2.2.2.2.2.2.2.2.2.2.2.2.2.2.2.2.2.2.2.1

theorem quiet_mgt {s t : State} (h : t.quiet = s.quiet) : t.mgt = s.mgt := by
  unfold State.quiet at h; simp only [Prod.mk.injEq] at h; exact h.2.2.2.2.2.2.2.2.2.2.2.2.2.2.2.2.2.2.2.2.1

theorem quiet_pending {s t : State} (h : t.quiet = s.quiet) : t.pending = s.pending := by
  unfold State.quiet at h; simp only [Prod.mk.injEq] at h; exact h.2.2.2.2.2.2.2.2.2.2.2.2.2.2.2.2.2.2.2.2.2

end Sys2Proof.Laws
end

