-- ==== Sys2Proof/Laws/Link.lean ====
section
/-! SUPPORT. Lemmas about the head link's blocks: what the scrambler does bit by bit, and that descrambling undoes it (11 R283). -/

namespace Sys2Proof.Machine

/-- One bit of the scrambled word, given those below it. -/
def scrambleBit (prev x y : Word) (i : Nat) : Bool := xor (x.getLsbD i) (xor (streamBit prev y i 39) (streamBit prev y i 58))

/-- The word after the first n bits. -/
def scrambleTo (prev x : Word) (n : Nat) : Word :=
  (List.range n).foldl (fun y i => if scrambleBit prev x y i then y ||| wd (2 ^ i) else y) 0

theorem scrambleTo_succ (prev x : Word) (n : Nat) :
    scrambleTo prev x (n + 1)
      = if scrambleBit prev x (scrambleTo prev x n) n then scrambleTo prev x n ||| wd (2 ^ n) else scrambleTo prev x n := by
  unfold scrambleTo
  rw [List.range_succ, List.foldl_append]
  rfl

theorem wd_two_pow_getLsbD (n j : Nat) (hn : n < 64) : (wd (2 ^ n)).getLsbD j = decide (j = n) := by
  have : wd (2 ^ n) = BitVec.twoPow 64 n := by
    apply BitVec.eq_of_toNat_eq
    simp [wd, BitVec.toNat_twoPow]
  rw [this, BitVec.getLsbD_twoPow]
  by_cases h : n = j <;> simp [h, eq_comm] <;> omega

/-- Bits that are not scrambled yet are 0. -/
theorem scrambleTo_above (prev x : Word) (n j : Nat) (hn : n ≤ 64) (hj : n ≤ j) : (scrambleTo prev x n).getLsbD j = false := by
  induction n with
  | zero => simp [scrambleTo]
  | succ n ih =>
    rw [scrambleTo_succ]
    split
    · rw [BitVec.getLsbD_or, ih (by omega) (by omega), wd_two_pow_getLsbD n j (by omega)]
      simp; omega
    · exact ih (by omega) (by omega)

/-- A scrambled bit stays as it is. -/
theorem scrambleTo_stays (prev x : Word) (n m j : Nat) (hm : n + m ≤ 64) (hj : j < n) :
    (scrambleTo prev x (n + m)).getLsbD j = (scrambleTo prev x n).getLsbD j := by
  induction m with
  | zero => rfl
  | succ m ih =>
    rw [← Nat.add_assoc, scrambleTo_succ]
    split
    · rw [BitVec.getLsbD_or, ih (by omega), wd_two_pow_getLsbD _ j (by omega)]
      simp; omega
    · exact ih (by omega)

theorem streamBit_congr (prev y z : Word) (i k : Nat) (h : ∀ j, j < i → y.getLsbD j = z.getLsbD j) (hk : 0 < k) :
    streamBit prev y i k = streamBit prev z i k := by
  unfold streamBit
  split
  · exact h _ (by omega)
  · rfl

/-- Every bit of a scrambled word is the payload's, the one 39 before and the one 58 before (11 R283). -/
theorem scramble_getLsbD (prev x : Word) (i : Nat) (hi : i < 64) :
    (scramble prev x).getLsbD i = scrambleBit prev x (scramble prev x) i := by
  have e : scramble prev x = scrambleTo prev x 64 := rfl
  have low : ∀ j, j < i → (scrambleTo prev x 64).getLsbD j = (scrambleTo prev x i).getLsbD j := fun j hj => by
    have := scrambleTo_stays prev x i (64 - i) j (by omega) hj
    rwa [show i + (64 - i) = 64 by omega] at this
  have at_ : (scrambleTo prev x 64).getLsbD i = (scrambleTo prev x (i + 1)).getLsbD i := by
    have := scrambleTo_stays prev x (i + 1) (64 - (i + 1)) i (by omega) (by omega)
    rwa [show i + 1 + (64 - (i + 1)) = 64 by omega] at this
  have same : scrambleBit prev x (scrambleTo prev x i) i = scrambleBit prev x (scrambleTo prev x 64) i := by
    unfold scrambleBit
    rw [streamBit_congr prev _ _ i 39 (fun j hj => (low j hj).symm) (by omega),
      streamBit_congr prev _ _ i 58 (fun j hj => (low j hj).symm) (by omega)]
  rw [e, at_, scrambleTo_succ, ← same]
  have z := scrambleTo_above prev x i i (by omega) (Nat.le_refl i)
  split
  · next h => rw [BitVec.getLsbD_or, z, wd_two_pow_getLsbD i i hi]; simp [h]
  · next h => rw [z]; simpa using h

/-- Every bit of a descrambled word. -/
theorem descramble_getLsbD (prev y : Word) (i : Nat) (hi : i < 64) : (descramble prev y).getLsbD i = scrambleBit prev y y i := by
  unfold descramble scrambleBit streamBit
  simp only [BitVec.getLsbD_xor, BitVec.getLsbD_extractLsb', BitVec.getLsbD_append, hi, decide_true, Bool.true_and]
  by_cases h1 : 39 ≤ i <;> by_cases h2 : 58 ≤ i <;>
    simp [h1, h2, show 25 + i - 64 = i - 39 by omega, show 6 + i - 64 = i - 58 by omega, show 64 + i - 39 = 25 + i by omega,
      show 64 + i - 58 = 6 + i by omega, show (25 + i < 64) ↔ ¬ 39 ≤ i by omega, show (6 + i < 64) ↔ ¬ 58 ≤ i by omega]

/-- Descrambling undoes scrambling (11 R283). -/
theorem descramble_scramble (prev x : Word) : descramble prev (scramble prev x) = x := by
  apply BitVec.eq_of_getLsbD_eq
  intro i hi
  rw [descramble_getLsbD prev _ i hi]
  unfold scrambleBit
  rw [scramble_getLsbD prev x i hi]
  unfold scrambleBit
  generalize streamBit prev (scramble prev x) i 39 = a
  generalize streamBit prev (scramble prev x) i 58 = b
  cases x.getLsbD i <;> cases a <;> cases b <;> rfl

/-- Scrambled payloads are read as they were sent (11 R283). -/
theorem readBlocks_scrambleAll (inbound : Bool) (l : List (BitVec 2 × Word)) (prev : Word) :
    readBlocks inbound prev (scrambleAll prev l).1 = l.map fun p => blockItem inbound p.1 p.2 := by
  induction l generalizing prev with
  | nil => rfl
  | cons p t ih => simp [scrambleAll, readBlocks, descramble_scramble, ih]

end Sys2Proof.Machine
end

