-- ==== Sys2Proof/Laws/MemFrame.lean ====
section
/-! SUPPORT. What each shared operation does to memory: `f_mem` says that it leaves memory as it is, `f_wf` that it keeps the
canonical form. -/

namespace Sys2Proof.Laws

open Sys2Proof.Machine

/-! ### Machine/Ops -/
@[simp] theorem msixTrigger_mem (v : Nat) (en : Bool) (s : State) : (msixTrigger v en s).mem = s.mem := by
  unfold msixTrigger; simp
@[simp] theorem onMmio_mem (s t : State) (h : t.mem = s.mem) : (onMmio s t).mem = s.mem := by
  unfold onMmio; split <;> simp [h]
@[simp] theorem evtWrite_mem (e : EventEntry) (s : State) : (evtWrite e s).mem = s.mem := by
  unfold evtWrite; simp
@[simp] theorem setWaiting_mem (w : List EventEntry) (s : State) : (setWaiting w s).mem = s.mem := by
  unfold setWaiting; simp
@[simp] theorem setStatusBit_mem (src : Nat) (s : State) : (setStatusBit src s).mem = s.mem := by
  unfold setStatusBit; simp
@[simp] theorem groupVector_mem (src : Nat) (was : Bool) (s : State) : (groupVector src was s).mem = s.mem := by
  unfold groupVector; simp
@[simp] theorem raiseStatus_mem (src p0 p1 : Nat) (s : State) : (raiseStatus src p0 p1 s).mem = s.mem := by
  unfold raiseStatus; simp
@[simp] theorem orderedWait_mem (e : EventEntry) (s : State) : (orderedWait e s).mem = s.mem := by
  unfold orderedWait; simp
@[simp] theorem raiseOrdered_mem (src p0 p1 : Nat) (s : State) : (raiseOrdered src p0 p1 s).mem = s.mem := by
  unfold raiseOrdered; simp
@[simp] theorem raise_mem (src p0 p1 : Nat) (s : State) : (raise src p0 p1 s).mem = s.mem := by
  unfold raise; simp
@[simp] theorem raiseP_mem (src p0 : Nat) (s : State) : (raiseP src p0 s).mem = s.mem := by
  unfold raiseP; simp
@[simp] theorem raiseN_mem (src : Nat) (s : State) : (raiseN src s).mem = s.mem := by
  unfold raiseN; simp
@[simp] theorem cplWrite_mem (n : Nat) (c : Completion) (s : State) : (cplWrite n c s).mem = s.mem := by
  unfold cplWrite; simp
@[simp] theorem cplPost_mem (n : Nat) (c : Completion) (s : State) : (cplPost n c s).mem = s.mem := by
  unfold cplPost; simp
@[simp] theorem cplPump_mem (n : Nat) (y0 : Nat) (s : State) : (cplPump n y0 s).mem = s.mem := by
  induction y0 generalizing s with
  | zero => rfl
  | succ n ih => unfold cplPump; (repeat' split) <;> simp [ih]
@[simp] theorem mgtReturn_mem (c : Completion) (s : State) : (mgtReturn c s).mem = s.mem := by
  unfold mgtReturn; simp
@[simp] theorem postTo_mem (ring : Nat) (c : Completion) (s : State) : (postTo ring c s).mem = s.mem := by
  unfold postTo; simp
@[simp] theorem releaseLate_mem (jsn : Nat) (s : State) : (releaseLate jsn s).mem = s.mem := by
  unfold releaseLate; simp
@[simp] theorem evtRefill_mem (s : State) : (evtRefill s).mem = s.mem := by
  unfold evtRefill; (repeat' split) <;> simp
@[simp] theorem evtDrain_mem (y0 : Nat) (s : State) : (evtDrain y0 s).mem = s.mem := by
  induction y0 generalizing s with
  | zero => rfl
  | succ n ih => unfold evtDrain; (repeat' split) <;> simp [ih]
@[simp] theorem evtPump_mem (s : State) : (evtPump s).mem = s.mem := by
  unfold evtPump; simp
@[simp] theorem waitRun_mem (jsn : Nat) (s : State) : (waitRun jsn s).mem = s.mem := by
  unfold waitRun; simp
@[simp] theorem startRun_mem (jsn : Nat) (s : State) : (startRun jsn s).mem = s.mem := by
  unfold startRun; simp
@[simp] theorem postAccepted_mem (e : JournalEntry) (s : State) : (postAccepted e s).mem = s.mem := by
  unfold postAccepted; simp
@[simp] theorem beginFree_mem (jsn : Nat) (s : State) : (beginFree jsn s).mem = s.mem := by
  unfold beginFree; simp
@[simp] theorem setSlot_mem (t : Bool × Nat) (k : KeySlot) (s : State) : (setSlot t k s).mem = s.mem := by
  unfold setSlot; simp
@[simp] theorem freePending_mem (e : JournalEntry) (s : State) : (freePending e s).mem = s.mem := by
  unfold freePending; simp
@[simp] theorem endPhase_mem (s : State) : (endPhase s).mem = s.mem := by
  unfold endPhase; simp
@[simp] theorem replayDone_mem (s : State) : (replayDone s).mem = s.mem := by
  unfold replayDone; simp
@[simp] theorem replayEnded_mem (wasReplayed : Bool) (s : State) : (replayEnded wasReplayed s).mem = s.mem := by
  unfold replayEnded; simp
@[simp] theorem abortMissed_mem (jsn : Nat) (s : State) : (abortMissed jsn s).mem = s.mem := by
  unfold abortMissed; simp
@[simp] theorem reportFirst_mem (e : JournalEntry) (s : State) : (reportFirst e s).mem = s.mem := by
  unfold reportFirst; simp
@[simp] theorem unpin_mem (e : JournalEntry) (s : State) : (unpin e s).mem = s.mem := by
  unfold unpin; simp
@[simp] theorem retireNow_mem (e : JournalEntry) (r : RunInfo) (status : Nat) (r0 r1 : Word) (s : State) :
    (retireNow e r status r0 r1 s).mem = s.mem := by
  unfold retireNow; simp
@[simp] theorem endCommand_mem (jsn status : Nat) (r0 r1 : Word) (s : State) : (endCommand jsn status r0 r1 s).mem
    = s.mem := by
  unfold endCommand; (repeat' split) <;> simp
@[simp] theorem endWith_mem (jsn status r0 r1 : Nat) (s : State) : (endWith jsn status r0 r1 s).mem = s.mem := by
  unfold endWith; simp
@[simp] theorem endBare_mem (jsn st : Nat) (s : State) : (endBare jsn st s).mem = s.mem := by
  unfold endBare; simp
@[simp] theorem endR0_mem (jsn st r0 : Nat) (s : State) : (endR0 jsn st r0 s).mem = s.mem := by
  unfold endR0; simp
@[simp] theorem endR1_mem (jsn st r1 : Nat) (s : State) : (endR1 jsn st r1 s).mem = s.mem := by
  unfold endR1; simp
@[simp] theorem retireWaiting_mem (y0 : List Nat) (s : State) : (retireWaiting y0 s).mem = s.mem := by
  induction y0 generalizing s with
  | nil => rfl
  | cons j t ih => unfold retireWaiting; (repeat' split) <;> simp [ih]
@[simp] theorem onCommand_mem (op jsn : Nat) (s : State) (k : JournalEntry → RunInfo → State → State) (hk : ∀ (x0 :
    JournalEntry) (x1 : RunInfo) (s : State), (k x0 x1 s).mem = s.mem) : (onCommand op jsn s k).mem = s.mem := by
  unfold onCommand; (repeat' split) <;> simp_all
@[simp] theorem onCommand_wf (op jsn : Nat) (s : State) (k : JournalEntry → RunInfo → State → State) (hk : ∀ (x0 :
    JournalEntry) (x1 : RunInfo) (s : State), Memory.wf s.mem = true → Memory.wf (k x0 x1 s).mem = true) (hwf :
    Memory.wf s.mem = true) : Memory.wf (onCommand op jsn s k).mem = true := by
  unfold onCommand; (repeat' split) <;> simp_all
@[simp] theorem setUnit_mem (u st cause : Nat) (s : State) : (setUnit u st cause s).mem = s.mem := by
  unfold setUnit; simp
@[simp] theorem addTransient_mem (u : Nat) (s : State) : (addTransient u s).mem = s.mem := by
  unfold addTransient; simp
@[simp] theorem needUnits_mem (us : List Nat) (jsn : Nat) (s : State) (k : State → State) (hk : ∀ (s : State), (k
    s).mem = s.mem) : (needUnits us jsn s k).mem = s.mem := by
  unfold needUnits; (repeat' split) <;> simp_all
@[simp] theorem needUnits_wf (us : List Nat) (jsn : Nat) (s : State) (k : State → State) (hk : ∀ (s : State),
    Memory.wf s.mem = true → Memory.wf (k s).mem = true) (hwf : Memory.wf s.mem = true) : Memory.wf (needUnits us
    jsn s k).mem = true := by
  unfold needUnits; (repeat' split) <;> simp_all
@[simp] theorem wakeNow_mem (s : State) : (wakeNow s).mem = s.mem := by
  unfold wakeNow; simp
@[simp] theorem sendBlocks_mem (lane : Nat) (l : List (BitVec 2 × Word)) (s : State) : (sendBlocks lane l s).mem = s.mem := by
  unfold sendBlocks; simp
@[simp] theorem sendFrame_mem (ftype source index : Nat) (data : List Word) (s : State) : (sendFrame ftype source index data s).mem = s.mem := by
  unfold sendFrame; (repeat' split) <;> simp
@[simp] theorem sendControl_mem (ftype : Nat) (data : List Word) (s : State) : (sendControl ftype data s).mem = s.mem := by
  unfold sendControl; (repeat' split) <;> simp
@[simp] theorem sendInhibit_mem (s : State) : (sendInhibit s).mem = s.mem := by
  unfold sendInhibit; rw [emit_mem, foldl_mem (fun s n => by split <;> simp)]
@[simp] theorem inhibitOn_mem (src : Nat) (s : State) : (inhibitOn src s).mem = s.mem := by
  unfold inhibitOn; dsimp only; split <;> simp

/-! ### Machine/Detector -/
@[simp] theorem setDetector_mem (track wrap : Nat) (d : Detector) (s : State) : (setDetector track wrap d s).mem = s.mem := by
  unfold setDetector; (repeat' split) <;> simp

/-! ### Machine/Porter -/
@[simp] theorem setPool_mem (p : Nat) (f : Pool → Pool) (s : State) : (setPool p f s).mem = s.mem := by
  unfold setPool; simp
@[simp] theorem setBuf_mem (p i : Nat) (b : BufRec) (s : State) : (setBuf p i b s).mem = s.mem := by
  unfold setBuf; simp
@[simp] theorem takeBuf_mem (p owner : Nat) (s : State) : (takeBuf p owner s).2.mem = s.mem := by
  unfold takeBuf; simp
theorem porterTry_mem (owner size : Nat) (s : State) (q : (Word × State)) (hr : porterTry owner size s = some q) :
    q.2.mem = s.mem := by
  unfold porterTry at hr; dsimp only at hr; split at hr
  · cases hr; rw [takeBuf_mem]; split <;> rfl
  · cases hr
@[simp] theorem noBuffer_mem (owner size : Nat) (s : State) : (noBuffer owner size s).mem = s.mem := by
  unfold noBuffer; simp
@[simp] theorem refuse_mem (caller oper reason : Nat) (h : Word) (s : State) : (refuse caller oper reason h s).mem
    = s.mem := by
  unfold refuse; simp
@[simp] theorem fwResult_mem (o : Nat) (w : Nat) (s : State) : (fwResult o w s).mem = s.mem := by
  unfold fwResult; simp
@[simp] theorem fwHandle_mem (o : Nat) (h : Word) (s : State) : (fwHandle o h s).mem = s.mem := by
  unfold fwHandle; simp
@[simp] theorem applyOwner_mem (op owner : Nat) (h : Word) (other : Nat) (s : State) : (applyOwner op owner h other
    s).mem = s.mem := by
  unfold applyOwner; simp
@[simp] theorem ownerOp_mem (op owner : Nat) (h : Word) (other : Nat) (s : State) : (ownerOp op owner h other
    s).mem = s.mem := by
  unfold ownerOp; (repeat' split) <;> simp
@[simp] theorem allocOp_mem (owner size : Nat) (wait : Bool) (s : State) : (allocOp owner size wait s).mem = s.mem
    := by
  unfold allocOp; split
  · simp
  · split
    · rename_i heq
      have h := porterTry_mem _ _ _ _ heq
      simpa using h
    · split <;> simp
@[simp] theorem clearBuffer_wf (p i : Nat) (s : State) (hwf : Memory.wf s.mem = true) : Memory.wf (clearBuffer p i
    s).mem = true := by
  obtain ⟨h1, h2, h3, h4, h5, h6, h7⟩ := (memoryWf_parts _).1 hwf
  unfold clearBuffer; split
  · exact hwf
  · exact (memoryWf_parts _).2 ⟨tabWf_filter _ h1, h2, risingFrom_filter _ h3, risingFrom_filter _ h4, h5, tabWf_filter _ h6, h7⟩
@[simp] theorem returnBuf_wf (s : State) (pi : Nat × Nat) (hwf : Memory.wf s.mem = true) : Memory.wf (returnBuf s
    pi).mem = true := by
  unfold returnBuf; simp_all
@[simp] theorem serveOne_mem (s : State) : (serveOne s).mem = s.mem := by
  unfold serveOne; (repeat' split) <;> simp
@[simp] theorem serveWaiting_mem (y0 : Nat) (s : State) : (serveWaiting y0 s).mem = s.mem := by
  induction y0 generalizing s with
  | zero => rfl
  | succ n ih => unfold serveWaiting; rw [ih, serveOne_mem]
@[simp] theorem publishPool_mem (s : State) (p : Nat) : (publishPool s p).mem = s.mem := by
  unfold publishPool; simp
@[simp] theorem porterSettle_wf (s : State) (hwf : Memory.wf s.mem = true) : Memory.wf (porterSettle s).mem = true
    := by
  unfold porterSettle; simp_all

/-! ### Machine/Memory -/
@[simp] theorem setTable_wf (cls : Nat) (t : List ErrEntry) (s : State) (hwf : Memory.wf s.mem = true) : Memory.wf
    (setTable cls t s).mem = true := by
  unfold setTable; split <;> exact hwf
@[simp] theorem overTable_wf (cls : Nat) (s : State) (hwf : Memory.wf s.mem = true) : Memory.wf (overTable cls
    s).mem = true := by
  unfold overTable; split <;> exact hwf
@[simp] theorem logError_wf (cls addr pos kind : Nat) (s : State) (hwf : Memory.wf s.mem = true) : Memory.wf
    (logError cls addr pos kind s).mem = true := by
  unfold logError; dsimp only; (repeat' split) <;> simp [hwf]
@[simp] theorem failWrites_mem (st : Nat) (s : State) : (failWrites st s).mem = s.mem := by
  unfold failWrites; simp
@[simp] theorem flipDone_wf (cls addr : Nat) (s : State) (hwf : Memory.wf s.mem = true) : Memory.wf (flipDone cls
    addr s).mem = true := by
  unfold flipDone; simp only [raise_mem]; exact hwf
@[simp] theorem hbmPut_wf (a : Nat) (l : List Byte) (poison : Bool) (s : State) (hwf : Memory.wf s.mem = true) :
    Memory.wf (hbmPut a l poison s).mem = true := by
  obtain ⟨h1, h2, h3, h4, h5, h6, h7⟩ := (memoryWf_parts _).1 hwf
  have h : ∀ e p, risingFrom 0 p = true → Memory.wf { s.mem with hbm := putBytes a l s.mem.hbm, hbmErr := tabSet 0 a e s.mem.hbmErr, hbmPoison := p } = true :=
    fun e p hp => (memoryWf_parts _).2 ⟨putBytes_wf a l h1, h2, h3, hp, h5, tabSet_wf a e h6, h7⟩
  have hp : risingFrom 0 (if poison then insertNat a s.mem.hbmPoison else s.mem.hbmPoison.filter (· != a)) = true := by
    split
    · exact insertNat_rising a h4
    · exact risingFrom_filter _ h4
  unfold hbmPut; dsimp only; split
  · exact flipDone_wf _ _ _ (h _ _ hp)
  · exact h _ _ hp
@[simp] theorem fillGranule_wf (a : Nat) (s : State) (hwf : Memory.wf s.mem = true) : Memory.wf (fillGranule a
    s).mem = true := by
  have h : ∀ (m : Mem) (g : Nat), Memory.wf m = true → Memory.wf { m with written := insertNat g m.written } = true := by
    intro m g hu
    obtain ⟨h1, h2, h3, h4, h5, h6, h7⟩ := (memoryWf_parts _).1 hu
    exact (memoryWf_parts _).2 ⟨h1, h2, insertNat_rising _ h3, h4, h5, h6, h7⟩
  unfold fillGranule; split
  · exact hwf
  · extract_lets g w t
    have ht : Memory.wf t.mem = true := by
      simp only [t]; split
      · exact hbmPut_wf _ _ _ _ hwf
      · exact hwf
    exact h _ _ ht
@[simp] theorem hbmWrite_wf (a : Nat) (l : List Byte) (s : State) (hwf : Memory.wf s.mem = true) : Memory.wf
    (hbmWrite a l s).mem = true := by
  have h := hbmPut_wf a l false _ (fillGranule_wf a s hwf)
  unfold hbmWrite; dsimp only; split
  · exact hbmPut_wf _ _ _ _ (fillGranule_wf _ _ h)
  · exact h
@[simp] theorem pcCorrected_wf (pc : Nat) (s : State) (hwf : Memory.wf s.mem = true) : Memory.wf (pcCorrected pc
    s).mem = true := by
  unfold pcCorrected; dsimp only; split
  · simp only [raise_mem]; exact hwf
  · exact hwf
@[simp] theorem pcRetire_wf (pc : Nat) (s : State) (hwf : Memory.wf s.mem = true) : Memory.wf (pcRetire pc s).mem =
    true := by
  obtain ⟨h1, h2, h3, h4, h5, h6, h7⟩ := (memoryWf_parts _).1 hwf
  unfold pcRetire; simp only [raiseP_mem, setUnit_mem]
  exact (memoryWf_parts _).2 ⟨h1, h2, h3, insertNats_rising _ h4, h5, tabWf_filter _ h6, h7⟩
@[simp] theorem memDegraded_wf (addr : Nat) (s : State) (hwf : Memory.wf s.mem = true) : Memory.wf (memDegraded
    addr s).mem = true := by
  unfold memDegraded; simp only [failWrites_mem, raise_mem, setUnit_mem]; exact hwf
@[simp] theorem pcLasting_wf (pc addr : Nat) (s : State) (hwf : Memory.wf s.mem = true) : Memory.wf (pcLasting pc
    addr s).mem = true := by
  unfold pcLasting; (repeat' split) <;> simp_all
@[simp] theorem pcFailing_wf (a : Nat) (s : State) (hwf : Memory.wf s.mem = true) : Memory.wf (pcFailing a s).mem =
    true := by
  unfold pcFailing; dsimp only; (repeat' split)
  · exact hwf
  · exact pcLasting_wf _ _ _ hwf
  · rw [setUnit_mem]; exact hwf
@[simp] theorem lostWord_wf (a : Nat) (l : List Byte) (poison : Bool) (s : State) (hwf : Memory.wf s.mem = true) :
    Memory.wf (lostWord a l poison s).mem = true := by
  have h0 : ∀ n, Memory.wf { s.mem with hbmUe := n } = true := fun _ => hwf
  unfold lostWord; dsimp only; split
  · rw [raise_mem]; apply logError_wf; rw [drawFree_mem]; exact h0 _
  · apply pcFailing_wf; apply hbmPut_wf; rw [raise_mem]; apply logError_wf; rw [drawFree_mem]; exact h0 _
@[simp] theorem fixedWord_wf (a i : Nat) (s : State) (hwf : Memory.wf s.mem = true) : Memory.wf (fixedWord a i
    s).mem = true := by
  have h1 : ∀ n, Memory.wf { s.mem with hbmCe := n } = true := fun _ => hwf
  unfold fixedWord; dsimp only; split
  · apply pcFailing_wf; apply pcCorrected_wf; apply logError_wf; exact h1 _
  · apply pcCorrected_wf; apply logError_wf; exact h1 _
@[simp] theorem hbmReadCopy_wf (a : Nat) (s : State) (hwf : Memory.wf s.mem = true) : Memory.wf (hbmReadCopy a
    s).2.2.mem = true := by
  unfold hbmReadCopy; split
  · exact hwf
  · dsimp only; split
    · exact lostWord_wf _ _ _ _ hwf
    · exact fixedWord_wf _ _ _ hwf
    · exact hwf
@[simp] theorem mirrorLost_mem (a : Nat) (s : State) : (mirrorLost a s).mem = s.mem := by
  unfold mirrorLost; simp
@[simp] theorem hbmRead_wf (a : Nat) (s : State) (hwf : Memory.wf s.mem = true) : Memory.wf (hbmRead a s).2.2.mem =
    true := by
  have hc := hbmReadCopy_wf a s hwf
  unfold hbmRead; split
  · rename_i heq; rw [heq] at hc; exact hc
  · rename_i heq; rw [heq] at hc
    split
    · have hm := fun s h => hbmReadCopy_wf (mirrorAddr a) s h
      split
      · rename_i heq2; exact hbmPut_wf _ _ _ _ (by have := hm _ hc; rw [heq2] at this; exact this)
      · rename_i heq2; simp only [mirrorLost_mem]; have := hm _ hc; rw [heq2] at this; exact this
    · exact hc
@[simp] theorem hbmMerge_wf (a : Nat) (l : List (Option Byte)) (s : State) (hwf : Memory.wf s.mem = true) :
    Memory.wf (hbmMerge a l s).mem = true := by
  have hc := hbmReadCopy_wf a _ (fillGranule_wf a s hwf)
  have k : ∀ (u : State) (n : Nat), Memory.wf u.mem = true → Memory.wf { u.mem with poisonMerges := n } = true := fun _ _ h => h
  unfold hbmMerge; dsimp only; split
  · rename_i heq; rw [heq] at hc; exact hbmPut_wf _ _ _ _ hc
  · rename_i heq; rw [heq] at hc
    rw [raise_mem]
    exact logError_wf _ _ _ _ _ (k _ _ (hbmPut_wf _ _ _ _ hc))
@[simp] theorem readHdm_wf (y0 : Nat) (y1 : Nat) (y2 : Nat) (s : State) (hwf : Memory.wf s.mem = true) : Memory.wf
    (readHdm y0 y1 y2 s).2.2.mem = true := by
  induction y0 generalizing s y1 y2 with
  | zero => exact hwf
  | succ n ih =>
    unfold readHdm; split
    · exact hwf
    · exact ih _ _ _ (hbmRead_wf (y1 / 32 * 32) s hwf)
@[simp] theorem storeHbm_wf (y0 : Nat) (a : Nat) (l : List Byte) (s : State) (hwf : Memory.wf s.mem = true) :
    Memory.wf (storeHbm y0 a l s).mem = true := by
  induction y0 generalizing a l s with
  | zero => exact hwf
  | succ n ih =>
    unfold storeHbm; split
    · exact hwf
    · dsimp only; split
      · exact ih _ _ _ (hbmWrite_wf _ _ _ hwf)
      · exact ih _ _ _ (hbmMerge_wf _ _ _ hwf)
@[simp] theorem noteEpoch_mem (dpa : Nat) (s : State) : (noteEpoch dpa s).mem = s.mem := by
  unfold noteEpoch; simp
@[simp] theorem ptlWord_wf (a : Nat) (l : List (Option Byte)) (s : State) (hwf : Memory.wf s.mem = true) :
    Memory.wf (ptlWord a l s).mem = true := by
  unfold ptlWord; (repeat' split) <;> simp_all
@[simp] theorem scrubHbm_wf (a : Nat) (s : State) (hwf : Memory.wf s.mem = true) : Memory.wf (scrubHbm a s).mem =
    true := by
  have hc := hbmRead_wf a s hwf
  have k : ∀ (u : State) (n : Nat), Memory.wf u.mem = true → Memory.wf { u.mem with scrubFixes := n } = true := fun _ _ h => h
  unfold scrubHbm; split
  · exact hwf
  · dsimp only; split
    · exact hbmPut_wf _ _ _ _ (k _ _ hc)
    · exact hc
@[simp] theorem sramPut_wf (a : Nat) (l : List Byte) (poison : Bool) (s : State) (hwf : Memory.wf s.mem = true) :
    Memory.wf (sramPut a l poison s).mem = true := by
  obtain ⟨h1, h2, h3, h4, h5, h6, h7⟩ := (memoryWf_parts _).1 hwf
  have hp : risingFrom 0 (if poison then insertNat a s.mem.sramPoison else s.mem.sramPoison.filter (· != a)) = true := by
    split
    · exact insertNat_rising a h5
    · exact risingFrom_filter _ h5
  have h : ∀ e, Memory.wf { s.mem with sram := putBytes a l s.mem.sram, sramErr := tabSet 0 a e s.mem.sramErr, sramPoison := if poison then insertNat a s.mem.sramPoison else s.mem.sramPoison.filter (· != a) } = true :=
    fun e => (memoryWf_parts _).2 ⟨h1, putBytes_wf a l h2, h3, h4, hp, h6, tabSet_wf a e h7⟩
  unfold sramPut; dsimp only; split
  · exact flipDone_wf _ _ _ (h _)
  · exact h _
@[simp] theorem scrubSram_wf (a : Nat) (s : State) (hwf : Memory.wf s.mem = true) : Memory.wf (scrubSram a s).mem =
    true := by
  have g : ∀ n, Memory.wf { s.mem with sramCe := n } = true := fun _ => hwf
  have g' : ∀ n, Memory.wf { s.mem with sramUe := n } = true := fun _ => hwf
  have k : ∀ (u : State) (n : Nat), Memory.wf u.mem = true → Memory.wf { u.mem with scrubFixes := n } = true := fun _ _ h => h
  unfold scrubSram; dsimp only; split
  · exact hwf
  · exact sramPut_wf _ _ _ _ (k _ _ (logError_wf _ _ _ _ _ (g _)))
  · simp only [raise_mem]; exact logError_wf _ _ _ _ _ (g' _)
@[simp] theorem flipCtrlFields_wf (value : Word) (s : State) (hwf : Memory.wf s.mem = true) : Memory.wf
    (flipCtrlFields value s).mem = true := hwf
@[simp] theorem armTransfer_wf (s : State) (hwf : Memory.wf s.mem = true) : Memory.wf (armTransfer s).mem = true := by
  unfold armTransfer; dsimp only; (repeat' split) <;> exact hwf

/-! ### Machine/Intake -/
@[simp] theorem releaseLive_mem (l : List (Nat × Bool)) (s : State) : (releaseLive l s).mem = s.mem := by
  unfold releaseLive; simp
@[simp] theorem pumpRings_mem (s : State) : (pumpRings s).mem = s.mem := by
  unfold pumpRings; simp
@[simp] theorem ringTransfer_mem (s : State) : (ringTransfer s).mem = s.mem := by
  unfold ringTransfer; dsimp only; (repeat' split) <;> simp
@[simp] theorem doorbellErr_mem (ring value : Nat) (s : State) : (doorbellErr ring value s).mem = s.mem := by
  unfold doorbellErr; simp
@[simp] theorem sopWord_mem (w : Word) (s : State) : (sopWord w s).mem = s.mem := by
  unfold sopWord; simp

/-! ### Machine/JournalRows -/
@[simp] theorem noteFull_mem (src : Nat) (s : State) : (noteFull src s).mem = s.mem := by
  unfold noteFull; (repeat' split) <;> simp
@[simp] theorem nextTurn_mem (s : State) : (nextTurn s).mem = s.mem := by
  unfold nextTurn; simp
@[simp] theorem ringTurn_mem (y0 : Nat) (s : State) : (ringTurn y0 s).1.mem = s.mem := by
  induction y0 generalizing s with
  | zero => rfl
  | succ n ih => unfold ringTurn; dsimp only; (repeat' split) <;> simp [ih]
@[simp] theorem takePacket_mem (s : State) : (takePacket s).1.mem = s.mem := by
  unfold takePacket; dsimp only; (repeat' split) <;> simp
@[simp] theorem rejectPacket_mem (src : Nat) (ws : List Word) (st : Nat) (s : State) : (rejectPacket src ws st
    s).mem = s.mem := by
  unfold rejectPacket; simp
@[simp] theorem journalPacket_mem (src : Nat) (p : Packet) (list : List ListEntry) (s : State) : (journalPacket src
    p list s).mem = s.mem := by
  unfold journalPacket; simp
@[simp] theorem fetchList_mem (ws : List Word) (s : State) : (fetchList ws s).mem = s.mem := by
  unfold fetchList; (repeat' split) <;> simp
@[simp] theorem mgtArrive_mem (s : State) : (mgtArrive s).mem = s.mem := by
  unfold mgtArrive; simp
@[simp] theorem mgtDrop_mem (mtype code : Nat) (s : State) : (mgtDrop mtype code s).mem = s.mem := by
  unfold mgtDrop; simp

/-! ### Machine/Context -/
@[simp] theorem endWriteAt_mem (e : JournalEntry) (st r1 : Nat) (s : State) : (endWriteAt e st r1 s).mem = s.mem := by
  unfold endWriteAt; simp
@[simp] theorem endWrite_mem (e : JournalEntry) (st : Nat) (s : State) : (endWrite e st s).mem = s.mem := by
  unfold endWrite; simp
@[simp] theorem touchLine_mem (c : Nat) (s : State) : (touchLine c s).mem = s.mem := by
  unfold touchLine; simp
@[simp] theorem addPin_mem (jsn c : Nat) (s : State) : (addPin jsn c s).mem = s.mem := by
  unfold addPin; simp
theorem pinCtx_mem (jsn c : Nat) (s : State) (q : State) (hr : pinCtx jsn c s = some q) : q.mem = s.mem := by
  unfold pinCtx at hr; (repeat' split at hr) <;> cases hr <;> simp
@[simp] theorem cacheWait_mem (jsn c : Nat) (s : State) : (cacheWait jsn c s).mem = s.mem := by
  unfold cacheWait; simp
@[simp] theorem endEarly_mem (e : JournalEntry) (st : Nat) (s : State) : (endEarly e st s).mem = s.mem := by
  unfold endEarly; dsimp only; (repeat' split) <;> simp
@[simp] theorem notOpen_mem (e : JournalEntry) (s : State) : (notOpen e s).mem = s.mem := by
  unfold notOpen; simp
@[simp] theorem fetchHost_mem (e : JournalEntry) (s : State) : (fetchHost e s).mem = s.mem := by
  unfold fetchHost; exact foldl_mem (fun s p => hostFetch_mem _ _ _) _ _
@[simp] theorem withHost_mem (e : JournalEntry) (r : RunInfo) (s : State) (k : JournalEntry → RunInfo → State → State)
    (hk : ∀ (x0 : JournalEntry) (x1 : RunInfo) (s : State), (k x0 x1 s).mem = s.mem) : (withHost e r s k).mem = s.mem := by
  unfold withHost; split <;> simp [hk]
@[simp] theorem withHost_wf (e : JournalEntry) (r : RunInfo) (s : State) (k : JournalEntry → RunInfo → State → State)
    (hk : ∀ (x0 : JournalEntry) (x1 : RunInfo) (s : State), Memory.wf s.mem = true → Memory.wf (k x0 x1 s).mem = true)
    (hwf : Memory.wf s.mem = true) : Memory.wf (withHost e r s k).mem = true := by
  unfold withHost; split
  · exact hk _ _ _ (by simpa using hwf)
  · simpa using hwf
@[simp] theorem onBegin_mem (op jsn : Nat) (s : State) (k : JournalEntry → RunInfo → State → State) (hk : ∀ (x0 :
    JournalEntry) (x1 : RunInfo) (s : State), (k x0 x1 s).mem = s.mem) : (onBegin op jsn s k).mem = s.mem := by
  unfold onBegin; refine onCommand_mem _ _ _ _ (fun e r s => ?_); split
  · simp
  · split
    · exact withHost_mem e r s k hk
    · split
      · simp
      · rename_i heq
        have := pinCtx_mem _ _ _ _ heq
        split <;> simp [hk, this]
@[simp] theorem onBegin_wf (op jsn : Nat) (s : State) (k : JournalEntry → RunInfo → State → State) (hk : ∀ (x0 :
    JournalEntry) (x1 : RunInfo) (s : State), Memory.wf s.mem = true → Memory.wf (k x0 x1 s).mem = true) (hwf :
    Memory.wf s.mem = true) : Memory.wf (onBegin op jsn s k).mem = true := by
  unfold onBegin; refine onCommand_wf _ _ _ _ (fun e r s h => ?_) hwf; split
  · simpa using h
  · split
    · exact withHost_wf _ _ _ _ hk h
    · split
      · simpa using h
      · rename_i heq
        have := pinCtx_mem _ _ _ _ heq
        split
        · simpa [this] using h
        · exact withHost_wf _ _ _ _ hk (by rw [this]; exact h)
@[simp] theorem freeBuffer_mem (owner : Nat) (h : Word) (s : State) : (freeBuffer owner h s).mem = s.mem := by
  unfold freeBuffer; simp
@[simp] theorem dropChained_mem (c : Chained) (s : State) : (dropChained c s).mem = s.mem := by
  unfold dropChained; simp
@[simp] theorem dropChainedOf_mem (ctx : Nat) (s : State) : (dropChainedOf ctx s).mem = s.mem := by
  unfold dropChainedOf; simp
@[simp] theorem dropDict_mem (ctx : Nat) (s : State) : (dropDict ctx s).mem = s.mem := by
  unfold dropDict; simp
@[simp] theorem openCtx_mem (e : JournalEntry) (s : State) : (openCtx e s).mem = s.mem := by
  unfold openCtx; simp
@[simp] theorem closeCtx_mem (e : JournalEntry) (s : State) : (closeCtx e s).mem = s.mem := by
  unfold closeCtx; simp
@[simp] theorem profileCtx_mem (e : JournalEntry) (s : State) : (profileCtx e s).mem = s.mem := by
  unfold profileCtx; (repeat' split) <;> simp
@[simp] theorem overflowBytes_mem (e : JournalEntry) (c : Chained) (done n : Nat) (s : State) : (overflowBytes e c done n s).mem = s.mem := by
  unfold overflowBytes; (repeat' split) <;> simp
@[simp] theorem readOverflow_mem (e : JournalEntry) (c : Chained) (done : Nat) (s : State) : (readOverflow e c done s).mem = s.mem := by
  unfold readOverflow; simp
@[simp] theorem overflowPart_mem (e : JournalEntry) (c : Chained) (done part : Nat) (s : State) : (overflowPart e c done part s).mem = s.mem := by
  unfold overflowPart; (repeat' split) <;> simp

/-! ### Machine/Cipher -/
@[simp] theorem raiseCeil_mem (s : State) : (raiseCeil s).mem = s.mem := by
  unfold raiseCeil; simp
@[simp] theorem writeCeil_mem (c : Nat) (s : State) : (writeCeil c s).mem = s.mem := by
  unfold writeCeil; simp
@[simp] theorem exhaust_mem (t : Bool × Nat) (which : Nat) (s : State) : (exhaust t which s).mem = s.mem := by
  unfold exhaust; simp
@[simp] theorem countDraw_mem (s : State) : (countDraw s).mem = s.mem := by
  unfold countDraw; simp
@[simp] theorem drawLimited_mem (t : Bool × Nat) (s : State) : (drawLimited t s).2.mem = s.mem := by
  unfold drawLimited; dsimp only; (repeat' split) <;> simp
@[simp] theorem drawNormal_mem (t : Bool × Nat) (s : State) : (drawNormal t s).2.mem = s.mem := by
  unfold drawNormal; dsimp only; (repeat' split) <;> simp
@[simp] theorem drawIv_mem (t : Bool × Nat) (s : State) : (drawIv t s).2.mem = s.mem := by
  unfold drawIv; (repeat' split) <;> simp
@[simp] theorem burnIv_mem (n : Nat) (s : State) : (burnIv n s).mem = s.mem := by
  unfold burnIv; simp
@[simp] theorem loadKey_mem (t : Bool × Nat) (label : Nat) (wrapped : List Byte) (s : State) : (loadKey t label wrapped s).mem = s.mem := by
  unfold loadKey; simp
@[simp] theorem clearKey_mem (t : Bool × Nat) (s : State) : (clearKey t s).mem = s.mem := by
  unfold clearKey; simp
@[simp] theorem ceilRepair_mem (s : State) : (ceilRepair s).mem = s.mem := by
  unfold ceilRepair; simp
@[simp] theorem finishJob_mem (j : CipherJob) (lane result : Nat) (s : State) : (finishJob j lane result s).mem =
    s.mem := by
  unfold finishJob; simp
theorem jobInput_wf (a n : Nat) (s : State) (hwf : Memory.wf s.mem = true) : Memory.wf (jobInput a n s).2.mem = true := by
  have h := readHdm_wf (n / 32 + 2) a n s hwf
  unfold jobInput; generalize readHdm _ _ _ _ = x at h ⊢; exact h
@[simp] theorem jobOutput_wf (addr : Nat) (l : List Byte) (s : State) (hwf : Memory.wf s.mem = true) :
    Memory.wf (jobOutput addr l s).mem = true := storeHbm_wf _ _ _ _ hwf
@[simp] theorem stampHeader_wf (j : CipherJob) (s : State) (hwf : Memory.wf s.mem = true) :
    Memory.wf (stampHeader j s).mem = true := jobOutput_wf _ _ _ (jobOutput_wf _ _ _ hwf)
theorem runEncrypt_wf (j : CipherJob) (s : State) (hwf : Memory.wf s.mem = true) : Memory.wf (runEncrypt j s).mem = true := by
  have h := jobInput_wf j.req.src.toNat j.req.len s hwf
  unfold runEncrypt; generalize jobInput _ _ _ = x at h ⊢; exact jobOutput_wf _ _ _ h
theorem openFrameAt_wf (a : Nat) (j : CipherJob) (s : State) (hwf : Memory.wf s.mem = true) :
    Memory.wf (openFrameAt a j s).2.2.mem = true := by
  have h := jobInput_wf a (j.req.len + 16) s hwf
  unfold openFrameAt; generalize jobInput _ _ _ = x at h ⊢; exact h
theorem runUnwrap_wf (j : CipherJob) (s : State) (hwf : Memory.wf s.mem = true) : Memory.wf (runUnwrap j s).2.mem = true := by
  have h := jobInput_wf j.req.src.toNat (j.req.len + 16) s hwf
  unfold runUnwrap; generalize jobInput _ _ _ = x at h ⊢; obtain ⟨l, t⟩ := x; dsimp only at h ⊢
  generalize gcmOpen _ _ _ _ _ = o; cases o with
  | none => exact h
  | some k => dsimp only; exact jobOutput_wf _ _ _ h
theorem jobDone_wf (j : CipherJob) (o : CipherOutcome) (s : State) (hwf : Memory.wf s.mem = true) :
    Memory.wf (jobDone j o s).2.mem = true := by
  have h2 := openFrameAt_wf j.req.src.toNat j s hwf
  have h3 := openFrameAt_wf (j.req.src.toNat + 32) j s hwf
  have h4 := runUnwrap_wf j s hwf
  unfold jobDone; split
  · exact runEncrypt_wf _ _ hwf
  · split
    · generalize openFrameAt _ _ _ = x at h2 ⊢; obtain ⟨l, b, t⟩ := x; exact jobOutput_wf _ _ _ h2
    · split
      · generalize openFrameAt _ _ _ = x at h3 ⊢; obtain ⟨l, b, t⟩ := x; dsimp only at h3 ⊢
        have h5 := jobInput_wf j.req.dst.toNat j.req.len t h3
        generalize jobInput _ _ _ = y at h5 ⊢; exact h5
      · split
        · generalize runUnwrap _ _ = x at h4 ⊢; exact h4
        · exact hwf
@[simp] theorem startJob_wf (n : Nat) (j : CipherJob) (s : State) (hwf : Memory.wf s.mem = true) :
    Memory.wf (startJob n j s).mem = true := by
  have h : ∀ r, Memory.wf (drawIv (j.req.dev, j.req.slot) s).2.mem = r → r = true := by
    intro r h; rw [← h, drawIv_mem]; exact hwf
  unfold startJob; dsimp only; split
  · split <;> rename_i heq <;> rw [heq] at h
    · simpa using stampHeader_wf _ _ (h _ rfl)
    · exact h _ rfl
    · rw [finishJob_mem]; exact h _ rfl
  · split
    · rw [finishJob_mem]; exact hwf
    · simpa using hwf
@[simp] theorem unqueue_mem (j : CipherJob) (s : State) : (unqueue j s).mem = s.mem := by
  unfold unqueue; simp
@[simp] theorem resumeJob_mem (n : Nat) (a : SaveArea) (s : State) : (resumeJob n a s).mem = s.mem := by
  unfold resumeJob; (repeat' split) <;> simp
@[simp] theorem laneFill_wf (y0 n : Nat) (s : State) (hwf : Memory.wf s.mem = true) : Memory.wf (laneFill y0 n s).mem = true := by
  induction y0 generalizing s with
  | zero => exact hwf
  | succ k ih =>
    unfold laneFill; (repeat' split)
    · exact hwf
    · exact ih _ (startJob_wf _ _ _ (by simpa using hwf))
    · simpa using hwf
    · simpa using hwf
    · exact ih _ (startJob_wf _ _ _ (by simpa using hwf))
    · exact hwf
@[simp] theorem laneNext_wf (n : Nat) (s : State) (hwf : Memory.wf s.mem = true) : Memory.wf (laneNext n s).mem = true :=
  laneFill_wf _ _ _ hwf
@[simp] theorem suspend_mem (n : Nat) (j : CipherJob) (s : State) : (suspend n j s).mem = s.mem := by
  unfold suspend; simp
@[simp] theorem placeJob_wf (j : CipherJob) (s : State) (hwf : Memory.wf s.mem = true) : Memory.wf (placeJob j s).mem = true := by
  unfold placeJob; (repeat' split)
  · exact laneNext_wf _ _ (startJob_wf _ _ _ (by simpa using hwf))
  · exact hwf
  · exact startJob_wf _ _ _ (by simpa using hwf)
@[simp] theorem postJob_wf (q : CipherRequest) (s : State) (hwf : Memory.wf s.mem = true) : Memory.wf (postJob q s).mem = true :=
  placeJob_wf _ _ hwf
@[simp] theorem pumpLanes_wf (s : State) (hwf : Memory.wf s.mem = true) : Memory.wf (pumpLanes s).mem = true := by
  unfold pumpLanes
  induction List.range 8 generalizing s with
  | nil => exact hwf
  | cons n t ih => exact ih _ (laneNext_wf _ _ hwf)
@[simp] theorem runOnLane_mem (n : Nat) (s : State) : (runOnLane n s).mem = s.mem := by
  unfold runOnLane; (repeat' split) <;> simp
@[simp] theorem burnJob_mem (j : CipherJob) (s : State) : (burnJob j s).mem = s.mem := by
  unfold burnJob; simp
@[simp] theorem cancelJob_wf (c : Word) (s : State) (hwf : Memory.wf s.mem = true) : Memory.wf (cancelJob c s).mem = true := by
  unfold cancelJob; (repeat' split)
  · simpa using hwf
  · simpa using hwf
  · exact hwf
  · exact laneNext_wf _ _ (by simpa using hwf)
  · simpa using hwf
  · exact hwf
@[simp] theorem endStarting_mem (s : State) : (endStarting s).mem = s.mem := by
  unfold endStarting; (repeat' split) <;> simp

/-! ### Machine/Drover -/
@[simp] theorem stopLoop_mem (openLoop : Bool) (s : State) : (stopLoop openLoop s).mem = s.mem := by
  unfold stopLoop; simp
@[simp] theorem stopCurrents_mem (s : State) : (stopCurrents s).mem = s.mem := by
  unfold stopCurrents; simp
@[simp] theorem beginStop_mem (cause : Nat) (s : State) : (beginStop cause s).mem = s.mem := by
  unfold beginStop; simp
@[simp] theorem recurringStop_mem (cause : Nat) (s : State) : (recurringStop cause s).mem = s.mem := by
  unfold recurringStop; simp
@[simp] theorem safeStop_mem (loop cause : Nat) (s : State) : (safeStop loop cause s).mem = s.mem := by
  unfold safeStop; simp
@[simp] theorem feTrip_mem (n : Nat) (e24 : Int) (s : State) : (feTrip n e24 s).mem = s.mem := by
  unfold feTrip; simp
@[simp] theorem feCheck_mem (n : Nat) (e24 : Int) (s : State) : (feCheck n e24 s).mem = s.mem := by
  unfold feCheck; simp
@[simp] theorem addBusy_mem (n : Nat) (s : State) : (addBusy n s).mem = s.mem := by
  unfold addBusy; simp
@[simp] theorem missingLoop_mem (n src : Nat) (s : State) : (missingLoop n src s).mem = s.mem := by
  unfold missingLoop; simp
@[simp] theorem satEvents_mem (n : Nat) (sats : List Nat) (s : State) : (satEvents n sats s).mem = s.mem := by
  unfold satEvents; (repeat' split) <;> simp
@[simp] theorem deliver_mem (n : Nat) (s : State) : (deliver n s).mem = s.mem := by
  unfold deliver; simp
@[simp] theorem computeLoop_mem (n : Nat) (e24 fb : Int) (s : State) : (computeLoop n e24 fb s).mem = s.mem := by
  unfold computeLoop; simp
@[simp] theorem runLoop_mem (inp : List (Nat × Int)) (n : Nat) (s : State) : (runLoop inp n s).mem = s.mem := by
  unfold runLoop; (repeat' split) <;> simp
@[simp] theorem keep24_mem (x : Rat) (s : State) : (keep24 x s).2.mem = s.mem := by
  unfold keep24; dsimp only; (repeat' split) <;> simp
@[simp] theorem profileDone_mem (n : Nat) (s : State) : (profileDone n s).mem = s.mem := by
  unfold profileDone; simp
@[simp] theorem profileStep_mem (period n : Nat) (s : State) : (profileStep period n s).mem = s.mem := by
  unfold profileStep; simp
@[simp] theorem droverTransfer_mem (s : State) : (droverTransfer s).mem = s.mem := by
  unfold droverTransfer; (repeat' split) <;> simp
@[simp] theorem modeChange_mem (made n : Nat) (s : State) : (modeChange made n s).2.mem = s.mem := by
  unfold modeChange; dsimp only; (repeat' split) <;> simp
@[simp] theorem modeChanges_mem (s : State) : (modeChanges s).mem = s.mem := by
  unfold modeChanges; generalize (0 : Nat) = m; generalize List.range 32 = l
  induction l generalizing m s with
  | nil => rfl
  | cons a t ih => exact (ih _ _).trans (modeChange_mem _ _ _)
@[simp] theorem takeTargets_mem (s : State) : (takeTargets s).mem = s.mem := by
  unfold takeTargets; simp
@[simp] theorem droverChanges_mem (s : State) : (droverChanges s).mem = s.mem := by
  unfold droverChanges; simp
@[simp] theorem applyOut_mem (n : Nat) (c : Int) (s : State) : (applyOut n c s).mem = s.mem := by
  unfold applyOut; simp
@[simp] theorem overrunLoop_mem (n : Nat) (late : Bool) (s : State) : (overrunLoop n late s).mem = s.mem := by
  unfold overrunLoop; dsimp only; (repeat' split) <;> simp
@[simp] theorem abandon_mem (n : Nat) (s : State) : (abandon n s).mem = s.mem := by
  unfold abandon; simp
@[simp] theorem edgeLoop_mem (unfinished : List Nat) (n : Nat) (s : State) : (edgeLoop unfinished n s).mem = s.mem
    := by
  unfold edgeLoop; dsimp only; (repeat' split) <;> simp
@[simp] theorem unposted_mem (s : State) : (unposted s).mem = s.mem := by
  unfold unposted; simp
@[simp] theorem busyEdge_mem (s : State) : (busyEdge s).mem = s.mem := by
  unfold busyEdge; simp
@[simp] theorem droverTick_mem (period : Nat) (unfinished : List Nat) (inp : List (Nat × Int)) (s : State) :
    (droverTick period unfinished inp s).mem = s.mem := by
  unfold droverTick; simp
@[simp] theorem postLoop_mem (m : List (Nat × Int)) (n : Nat) (s : State) : (postLoop m n s).mem = s.mem := by
  unfold postLoop; simp
@[simp] theorem postAll_mem (m : List (Nat × Int)) (s : State) : (postAll m s).mem = s.mem := by
  unfold postAll; simp
@[simp] theorem dacDone_mem (s : State) : (dacDone s).mem = s.mem := by
  unfold dacDone; dsimp only; (repeat' split) <;> simp

/-! ### Machine/Transport -/
@[simp] theorem loadDefaults_mem (s : State) : (loadDefaults s).mem = s.mem := by
  unfold loadDefaults; simp
@[simp] theorem reloadSections_mem (s : State) : (reloadSections s).mem = s.mem := by
  unfold reloadSections; simp
@[simp] theorem setSensor_mem (n : Nat) (f : Sensor → Sensor) (s : State) : (setSensor n f s).mem = s.mem := by
  unfold setSensor; simp
@[simp] theorem sensorFail_mem (n : Nat) (s : State) : (sensorFail n s).mem = s.mem := by
  unfold sensorFail; simp
@[simp] theorem channelFail_mem (n : Nat) (s : State) : (channelFail n s).mem = s.mem := by
  unfold channelFail; simp
@[simp] theorem checkEncoders_mem (t : TickInput) (s : State) : (checkEncoders t s).mem = s.mem := by
  unfold checkEncoders; simp
@[simp] theorem checkTension_mem (t : TickInput) (s : State) : (checkTension t s).mem = s.mem := by
  unfold checkTension; (repeat' split) <;> simp
@[simp] theorem checkChannel_mem (t : TickInput) (s : State) (i : Nat) : (checkChannel t s i).mem = s.mem := by
  unfold checkChannel; simp
@[simp] theorem checkCurrent_mem (t : TickInput) (s : State) (i : Nat) : (checkCurrent t s i).mem = s.mem := by
  unfold checkCurrent; (repeat' split) <;> simp
@[simp] theorem checkSensors_mem (t : TickInput) (s : State) : (checkSensors t s).mem = s.mem := by
  unfold checkSensors; simp
@[simp] theorem checkOfftrack_mem (s : State) : (checkOfftrack s).mem = s.mem := by
  unfold checkOfftrack; simp
@[simp] theorem readServoFrame_mem (t : TickInput) (s : State) : (readServoFrame t s).mem = s.mem := by
  unfold readServoFrame; dsimp only; (repeat' split) <;> simp
@[simp] theorem bandLocked_mem (s : State) : (bandLocked s).mem = s.mem := by
  unfold bandLocked; (repeat' split) <;> simp
@[simp] theorem writeGate_mem (on : Bool) (s : State) : (writeGate on s).mem = s.mem := by
  unfold writeGate; simp
@[simp] theorem releaseInhibit_mem (s : State) : (releaseInhibit s).mem = s.mem := by
  unfold releaseInhibit; simp
@[simp] theorem chooseStep_mem (st : Nat) (s : State) : (chooseStep st s).mem = s.mem := by
  unfold chooseStep; simp
@[simp] theorem applyStep_mem (s : State) : (applyStep s).mem = s.mem := by
  unfold applyStep; simp
@[simp] theorem capDown_mem (s : State) : (capDown s).mem = s.mem := by
  unfold capDown; simp

/-! ### Machine/Format -/
@[simp] theorem modCart_mem (f : Cartridge → Cartridge) (s : State) : (modCart f s).mem = s.mem := by
  unfold modCart; simp
@[simp] theorem noteBlocked_mem (s : State) : (noteBlocked s).mem = s.mem := by
  unfold noteBlocked; simp
@[simp] theorem cutEnd_mem (p n : Nat) (s : State) : (cutEnd p n s).mem = s.mem := by
  unfold cutEnd; (repeat' split) <;> simp
theorem openDataset_mem (p : Nat) (s : State) (q : State) (hr : openDataset p s = some q) : q.mem = s.mem := by
  unfold openDataset at hr; split at hr
  · cases hr
  · split at hr
    · cases hr
    · rename_i heq
      have := porterTry_mem _ _ _ _ heq
      cases hr; simpa using this
@[simp] theorem parkOpened_mem (s : State) : (parkOpened s).mem = s.mem := by
  unfold parkOpened; (repeat' split) <;> simp
@[simp] theorem modOpened_mem (f : OpenDataset → OpenDataset) (s : State) : (modOpened f s).mem = s.mem := by
  unfold modOpened; simp
theorem putFrameBytes_mem (n : Nat) (meter : Option Nat) (w : WriteRun) (first : Nat) (s : State) (q : State) (hr :
    putFrameBytes n meter w first s = some q) : q.mem = s.mem := by
  unfold putFrameBytes at hr; split at hr
  · cases hr
  · dsimp only at hr; split at hr
    · cases hr; simp
    · refine optMap_mem (fun _ => by simp) (fun r h => ?_) q hr
      have := openDataset_mem _ _ _ h; simpa using this
@[simp] theorem noteDone_mem (jsn : Nat) (s : State) : (noteDone jsn s).mem = s.mem := by
  unfold noteDone; (repeat' split) <;> simp
@[simp] theorem sealOpen_mem (ctx : Nat) (s : State) : (sealOpen ctx s).mem = s.mem := by
  unfold sealOpen; (repeat' split) <;> simp
theorem closeFrame_mem (s : State) (q : State) (hr : closeFrame s = some q) : q.mem = s.mem := by
  unfold closeFrame at hr; split at hr
  · cases hr; rfl
  · split at hr
    · cases hr; rfl
    · dsimp only at hr; split at hr
      · cases hr; simp
      · exact optMap_mem (fun _ => by simp) (fun r h => putFrameBytes_mem _ _ _ _ _ _ h) q hr
theorem closeDataset_mem (s : State) (q : State) (hr : closeDataset s = some q) : q.mem = s.mem := by
  unfold closeDataset at hr; split at hr
  · cases hr
  · rename_i heq
    have := closeFrame_mem _ _ heq
    split at hr <;> cases hr <;> simp [this]
@[simp] theorem closeOpen_mem (s : State) : (closeOpen s).mem = s.mem := getD_mem (fun r h => closeDataset_mem _ _
    h) _ rfl
@[simp] theorem noteSeq_mem (seq : Nat) (marks : List (Nat × Nat)) (s : State) : (noteSeq seq marks s).mem = s.mem
    := by
  unfold noteSeq; exact foldl_mem (fun s (x : Nat × Nat) => setWrite_mem x.1 _ s) _ _
@[simp] theorem formWith_mem (ds : Dataset) (w : WrittenDataset) (s : State) : (formWith ds w s).mem = s.mem := by
  unfold formWith; simp
@[simp] theorem closeGroup_mem (p : Nat) (s : State) : (closeGroup p s).mem = s.mem := by
  unfold closeGroup; simp
@[simp] theorem joinGroup_mem (p : Nat) (trunc : Bool) (s : State) : (joinGroup p trunc s).2.2.mem = s.mem := by
  unfold joinGroup; dsimp only; (repeat' split) <;> simp
@[simp] theorem formData_mem (o : OpenDataset) (s : State) : (formData o s).mem = s.mem := by
  unfold formData; simp
theorem formBare_mem (ds : Dataset) (s : State) (q : State) (hr : formBare ds s = some q) : q.mem = s.mem := by
  unfold formBare at hr; split at hr
  · cases hr
  · cases hp : porterTry 6 8388608 s with
    | none => rw [hp] at hr; cases hr
    | some p => rw [hp] at hr; cases hr; exact porterTry_mem _ _ _ _ hp
theorem formParity_mem (g : C3Group) (y0 : Nat) (s : State) (q : State) (hr : formParity g y0 s = some q) : q.mem =
    s.mem := by
  induction y0 generalizing s with
  | zero => unfold formParity at hr; cases hr; rfl
  | succ n ih =>
    unfold formParity at hr; dsimp only at hr; split at hr
    · cases hr
    · rename_i heq; rw [ih _ hr, formBare_mem _ _ _ heq]
@[simp] theorem formNext_mem (y0 : Nat) (s : State) : (formNext y0 s).mem = s.mem := by
  induction y0 generalizing s with
  | zero => rfl
  | succ n ih =>
    unfold formNext; split
    · split
      · rename_i heq; rw [ih, formParity_mem _ _ _ _ heq]
      · rfl
    · split
      · rfl
      · split
        · rw [ih]; simp
        · rfl
@[simp] theorem formAll_mem (s : State) : (formAll s).mem = s.mem := by
  unfold formAll; simp
@[simp] theorem updateHistory_mem (s : State) : (updateHistory s).mem = s.mem := by
  unfold updateHistory; (repeat' split) <;> simp
@[simp] theorem writeStatus_mem (dirty : Bool) (s : State) : (writeStatus dirty s).mem = s.mem := by
  unfold writeStatus; split <;> simp
@[simp] theorem writeHistory_mem (s : State) : (writeHistory s).mem = s.mem := by
  unfold writeHistory; (repeat' split) <;> simp

/-! ### Machine/WrapRecord -/
@[simp] theorem countPass_mem (track : Nat) (s : State) : (countPass track s).mem = s.mem := by
  unfold countPass; simp
@[simp] theorem countSlots_mem (s : State) : (countSlots s).mem = s.mem := by
  unfold countSlots; simp
@[simp] theorem countNoise_mem (track : Nat) (d : Detector) (ys : List Rat) (word : List Bool) (s : State) : (countNoise track d ys word s).mem = s.mem := by
  unfold countNoise; (repeat' split) <;> simp
@[simp] theorem ratioEvent_mem (r : WrapRecord) (s : State) : (ratioEvent r s).mem = s.mem := by
  unfold ratioEvent; simp
@[simp] theorem leaveWrap_mem (s : State) : (leaveWrap s).mem = s.mem := by
  unfold leaveWrap; simp

/-! ### Machine/Load -/
@[simp] theorem endMediaExclusions_mem (s : State) : (endMediaExclusions s).mem = s.mem := by
  unfold endMediaExclusions; simp
@[simp] theorem toBand_mem (b : Nat) (s : State) : (toBand b s).mem = s.mem := by
  unfold toBand; (repeat' split) <;> simp
@[simp] theorem atWrap_mem (w : Nat) (s : State) : (atWrap w s).mem = s.mem := by
  unfold atWrap; dsimp only; (repeat' split) <;> simp
@[simp] theorem dropHeld_mem (s : State) : (dropHeld s).mem = s.mem := by
  unfold dropHeld; simp
@[simp] theorem putOnTape_mem (d : Dataset) (s : State) : (putOnTape d s).mem = s.mem := by
  unfold putOnTape; (repeat' split) <;> simp
@[simp] theorem putInRun_mem (d : Dataset) (s : State) : (putInRun d s).mem = s.mem := by
  unfold putInRun; simp
@[simp] theorem toRunWrap_mem (p : Nat) (s : State) : (toRunWrap p s).mem = s.mem := by
  unfold toRunWrap; (repeat' split) <;> simp
@[simp] theorem cutChain_mem (p n : Nat) (s : State) : (cutChain p n s).mem = s.mem := by
  unfold cutChain; (repeat' split) <;> simp
@[simp] theorem recordBase_mem (p : Nat) (s : State) : (recordBase p s).mem = s.mem := by
  unfold recordBase; (repeat' split) <;> simp
@[simp] theorem beforeRun_mem (p : Nat) (s : State) : (beforeRun p s).mem = s.mem := by
  unfold beforeRun; simp
@[simp] theorem withBuffer_mem (f : State → State) (hf : ∀ s, (f s).mem = s.mem) (s : State) :
    (withBuffer f s).mem = s.mem := by
  unfold withBuffer; split
  · rename_i heq; rw [freeBuffer_mem, hf, porterTry_mem _ _ _ _ heq]
  · exact hf s
@[simp] theorem writeEod_mem (p first : Nat) (trunc : Bool) (s : State) : (writeEod p first trunc s).mem = s.mem := by
  unfold writeEod; exact withBuffer_mem _ (fun s => by simp) s
@[simp] theorem truncateRun_mem (p first : Nat) (s : State) : (truncateRun p first s).mem = s.mem := by
  unfold truncateRun; simp
@[simp] theorem payOwed_mem (p : Nat) (s : State) : (payOwed p s).mem = s.mem := by
  unfold payOwed; (repeat' split) <;> simp
@[simp] theorem formatCart_mem (pairs : List Nat) (c3 : Nat) (s : State) : (formatCart pairs c3 s).mem = s.mem := by
  unfold formatCart; simp
@[simp] theorem formatContexts_mem (count : Nat) (s : State) : (formatContexts count s).mem = s.mem := by
  unfold formatContexts; simp
@[simp] theorem takeCart_mem (c : Cartridge) (s : State) : (takeCart c s).mem = s.mem := by
  unfold takeCart; simp
@[simp] theorem takeInvalid_mem (c : Cartridge) (s : State) : (takeInvalid c s).mem = s.mem := rfl
@[simp] theorem payPending_mem (c : Cartridge) (s : State) : (payPending c s).mem = s.mem := by
  unfold payPending; dsimp only; refine foldl_mem (fun s x => ?_) _ _; (repeat' split) <;> simp
@[simp] theorem loadCart_mem (s : State) : (loadCart s).2.mem = s.mem := by
  unfold loadCart; dsimp only; (repeat' split) <;> simp
@[simp] theorem autoLoad_mem (s : State) : (autoLoad s).mem = s.mem := by
  unfold autoLoad; simp

/-! ### Machine/Write -/
@[simp] theorem liftCap_mem (s : State) : (liftCap s).mem = s.mem := by
  unfold liftCap; (repeat' split) <;> simp
@[simp] theorem markRetried_mem (jsn : Nat) (s : State) : (markRetried jsn s).mem = s.mem := by
  unfold markRetried; simp
@[simp] theorem onTape_mem (op jsn : Nat) (s : State) (k : JournalEntry → RunInfo → State → State) (hk : ∀ (x0 :
    JournalEntry) (x1 : RunInfo) (s : State), (k x0 x1 s).mem = s.mem) : (onTape op jsn s k).mem = s.mem := by
  unfold onTape; simp_all
@[simp] theorem onTape_wf (op jsn : Nat) (s : State) (k : JournalEntry → RunInfo → State → State) (hk : ∀ (x0 :
    JournalEntry) (x1 : RunInfo) (s : State), Memory.wf s.mem = true → Memory.wf (k x0 x1 s).mem = true) (hwf :
    Memory.wf s.mem = true) : Memory.wf (onTape op jsn s k).mem = true := by
  unfold onTape; refine onBegin_wf _ _ _ _ (fun e r s h => ?_) hwf; split
  · simpa using h
  · split
    · simpa using h
    · exact hk _ _ _ (by simpa using h)
@[simp] theorem laneTransient_mem (k unit : Nat) (s : State) : (laneTransient k unit s).mem = s.mem := by
  unfold laneTransient; simp
@[simp] theorem finishWrite_mem (w : WriteRun) (st : Nat) (r1 : Nat) (s : State) : (finishWrite w st r1 s).mem =
    s.mem := by
  unfold finishWrite; (repeat' split) <;> simp
@[simp] theorem settleWrite_mem (s : State) (jsn : Nat) : (settleWrite s jsn).mem = s.mem := by
  unfold settleWrite; (repeat' split) <;> simp
@[simp] theorem settleWrites_mem (s : State) : (settleWrites s).mem = s.mem := by
  unfold settleWrites; simp
@[simp] theorem stopWrite_mem (jsn st : Nat) (r1 : Option Nat) (s : State) : (stopWrite jsn st r1 s).mem = s.mem := by
  have hs : ∀ (c : Nat) (u : State), ((closeFrame u).getD (sealOpen c u)).mem = u.mem :=
    fun c u => getD_mem (fun r h => closeFrame_mem _ _ h) _ (by simp)
  unfold stopWrite; dsimp only; (repeat' split) <;> simp [hs]
@[simp] theorem stopAllWrites_mem (st : Nat) (s : State) : (stopAllWrites st s).mem = s.mem := by
  unfold stopAllWrites; simp
@[simp] theorem flushOpen_mem (s : State) : (flushOpen s).mem = s.mem := by
  unfold flushOpen; dsimp only; (repeat' split) <;> simp
@[simp] theorem afterWrites_mem (s : State) : (afterWrites s).mem = s.mem := by
  unfold afterWrites; simp
@[simp] theorem beginRun_mem (w : WriteRun) (s : State) : (beginRun w s).mem = s.mem := by
  have h := setRun_mem w.jsn (fun r => { r with grant := some (w.tenant, w.level, w.persist, w.partition) }) s
  unfold beginRun; dsimp only; rw [afterWrites_mem, startRun_mem]; exact h
@[simp] theorem placeAt_mem (pos p : Nat) (s : State) : (placeAt pos p s).mem = s.mem := by
  unfold placeAt; simp
@[simp] theorem truncateOwed_mem (p : Nat) (s : State) : (truncateOwed p s).mem = s.mem := by
  unfold truncateOwed; simp
@[simp] theorem startItems_mem (e : JournalEntry) (r : RunInfo) (fm : Nat) (lens : List Nat) (s : State) :
    (startItems e r fm lens s).mem = s.mem := by
  unfold startItems; dsimp only; (repeat' split) <;> simp
@[simp] theorem startWait_mem (e : JournalEntry) (r : RunInfo) (s : State) : (startWait e r s).mem = s.mem := by
  unfold startWait; simp
@[simp] theorem retractEvent_mem (jsn seq p reason : Nat) (repl : Bool) (s : State) : (retractEvent jsn seq p
    reason repl s).mem = s.mem := by
  unfold retractEvent; simp
@[simp] theorem retract_mem (d : WrittenDataset) (reason : Nat) (s : State) : (retract d reason s).mem = s.mem := by
  unfold retract; simp
@[simp] theorem dropDataset_mem (d : WrittenDataset) (s : State) : (dropDataset d s).mem = s.mem := by
  unfold dropDataset; simp
@[simp] theorem dropAssembled_mem (p : Nat) (s : State) : (dropAssembled p s).mem = s.mem := by
  unfold dropAssembled; simp
@[simp] theorem fitBuffers_mem (jsn : Nat) (s : State) : (fitBuffers jsn s).mem = s.mem := by
  unfold fitBuffers; split
  · rfl
  · dsimp only; split
    · rw [foldl_mem (fun s h => freeBuffer_mem _ _ _)]; simp
    · refine foldl_mem (fun s _ => ?_) _ _; split
      · rename_i heq; rw [setWrite_mem, porterTry_mem _ _ _ _ heq]
      · rfl
@[simp] theorem fitAll_mem (s : State) : (fitAll s).mem = s.mem := by
  unfold fitAll; (repeat' split) <;> simp
@[simp] theorem restartPipeline_mem (p : Nat) (s : State) : (restartPipeline p s).mem = s.mem := by
  unfold restartPipeline; simp
@[simp] theorem badInput_mem (jsn : Nat) (w : WriteRun) (s : State) : (badInput jsn w s).mem = s.mem := by
  unfold badInput; simp
@[simp] theorem pullHdm_wf (y0 : Nat) (y1 : Nat) (s : State) (hwf : Memory.wf s.mem = true) : Memory.wf (pullHdm y0
    y1 s).mem = true := by
  induction y0 generalizing s with
  | zero => exact hwf
  | succ n ih =>
    unfold pullHdm; split
    · split
      · split
        · exact hwf
        · have hr := fun a b c => readHdm_wf a b c s hwf
          dsimp only; split
          · rw [badInput_mem]; exact hr _ _ _
          · exact ih _ (by rw [setWrite_mem]; exact hr _ _ _)
      · exact hwf
    · exact hwf
@[simp] theorem encodeNext_mem (lane : Nat) (w : WriteRun) (s : State) : (encodeNext lane w s).mem = s.mem := by
  unfold encodeNext; simp
theorem ensureOpen_mem (p : Nat) (s : State) (q : State) (hr : ensureOpen p s = some q) : q.mem = s.mem := by
  have hf : ∀ (u r : State), (if partitionFull p u then none else openDataset p u) = some r → r.mem = u.mem := by
    intro u r h; split at h
    · cases h
    · exact openDataset_mem _ _ _ h
  unfold ensureOpen at hr; dsimp only at hr; split at hr
  · exact hf _ _ hr
  · split at hr
    · split at hr
      · cases hr
      · cases hr; rfl
    · split at hr
      · cases hr
      · rename_i heq
        have hc := closeDataset_mem _ _ heq
        split at hr
        · rw [hf _ _ hr, dropAssembled_mem, hc]
        · rw [hf _ _ hr, hc]
theorem newFramePlace_mem (p jsn : Nat) (items : List TapeItem) (s : State) (q : State) (hr : newFramePlace p jsn items
    s = some q) : q.mem = s.mem := by
  unfold newFramePlace at hr; split at hr
  · cases hr
  · rename_i heq
    have hc := closeFrame_mem _ _ heq
    split at hr
    · rw [ensureOpen_mem _ _ _ hr, hc]
    · split at hr
      · cases hr
      · split at hr
        · cases hr; exact hc
        · split at hr
          · cases hr; exact hc
          · split at hr
            · cases hr
            · rename_i heq2
              rw [ensureOpen_mem _ _ _ hr, closeDataset_mem _ _ heq2, hc]
theorem drawFrame_mem (ctx : Nat) (s : State) : (drawFrame ctx s).left.mem = s.mem := by
  have h := drawIv_mem (false, ctx) s
  unfold drawFrame; split <;> (rename_i heq; rw [heq] at h; exact h)
@[simp] theorem failCheck_mem (jsn lane : Nat) (s : State) : (failCheck jsn lane s).mem = s.mem := by
  unfold failCheck; (repeat' split) <;> simp
theorem redrawFrame_mem (jsn ctx lane : Nat) (retry : Bool) (s : State) :
    (redrawFrame jsn ctx lane retry s).left.mem = s.mem := by
  have h := drawFrame_mem ctx s
  unfold redrawFrame; split
  · rename_i heq
    rw [heq] at h
    dsimp only; split
    · simp only [FrameStart.left, laneTransient_mem]
      rw [foldl_mem (fun s n => runOnLane_mem n s), setWrite_mem]; exact h
    · simp only [FrameStart.left, setUnit_mem, raiseP_mem, burnIv_mem]
      refine Eq.trans ?_ h
      exact (foldl_mem (fun s n => runOnLane_mem n s) _ _).trans (setWrite_mem _ _ _)
  · rename_i heq; rw [heq] at h; simp only [FrameStart.left, setWrite_mem]; exact h
  · exact h
theorem startFrame_mem (w : WriteRun) (lane : Nat) (check retry : Bool) (s : State) :
    (startFrame w lane check retry s).left.mem = s.mem := by
  have h := drawFrame_mem w.ctx s
  unfold startFrame; split
  · rfl
  · split
    · rfl
    · split
      · exact redrawFrame_mem _ _ _ _ _
      · split
        · rfl
        · split
          · rename_i heq; rw [heq] at h
            dsimp only; split
            · simp only [FrameStart.left]; rw [foldl_mem (fun s n => runOnLane_mem n s)]; exact h
            · rw [redrawFrame_mem, failCheck_mem, foldl_mem (fun s n => runOnLane_mem n s)]; exact h
          · exact h
@[simp] theorem addReady_mem (n : Nat) (s : State) : (addReady n s).mem = s.mem := by
  unfold addReady; simp
@[simp] theorem placeItems_mem (jsn : Nat) (items : List TapeItem) (s : State) : (placeItems jsn items s).mem = s.mem := by
  unfold placeItems; (repeat' split) <;> simp
theorem putHeader_mem (w : WriteRun) (b : EncBlock) (iv : BitVec 96) (clear limited : Bool) (s : State) (q : State)
    (hr : putHeader w b iv clear limited s = some q) : q.mem = s.mem := by
  unfold putHeader at hr; rw [putFrameBytes_mem _ _ _ _ _ _ hr]; simp
@[simp] theorem saveHistory_mem (w : WriteRun) (s : State) : (saveHistory w s).mem = s.mem := by
  unfold saveHistory; dsimp only; (repeat' split)
  · rfl
  · rfl
  · rename_i heq; have := porterTry_mem _ _ _ _ heq; simpa using this
  · simp
@[simp] theorem takeCarry_mem (jsn : Nat) (s : State) : (takeCarry jsn s).mem = s.mem := by
  unfold takeCarry; (repeat' split) <;> simp
@[simp] theorem placeTrailing_mem (jsn : Nat) (s : State) : (placeTrailing jsn s).mem = s.mem := by
  unfold placeTrailing; split
  · rfl
  · split
    · rfl
    · split
      · rfl
      · rename_i u heq
        have hc := closeFrame_mem _ _ heq
        split
        · exact hc
        · rename_i v heq2
          have h2 : v.mem = s.mem := by
            rw [ensureOpen_mem _ _ _ heq2]; split <;> simp [hc]
          have he : ∀ (o : Option WriteRun) (u : State), (o.elim u fun w => saveHistory w u).mem = u.mem := by
            intro o u; cases o <;> simp
          dsimp only; split <;> simp [h2, he]
@[simp] theorem streamEnd_mem (jsn : Nat) (s : State) : (streamEnd jsn s).mem = s.mem := by
  have hd : ∀ u : State, ((closeFrame u).getD u).mem = u.mem := fun u => getD_mem (fun r h => closeFrame_mem _ _ h) _ rfl
  unfold streamEnd; dsimp only; (repeat' split) <;> simp [hd]
@[simp] theorem closeFull_mem (s : State) : (closeFull s).mem = s.mem := by
  unfold closeFull; split
  · exact getD_mem (fun r h => closeDataset_mem _ _ h) _ rfl
  · rfl
@[simp] theorem endFrame_mem (s : State) : (endFrame s).mem = s.mem := by
  unfold endFrame; split
  · exact getD_mem (fun r h => closeFrame_mem _ _ h) _ rfl
  · rfl
@[simp] theorem stopFull_mem (w : WriteRun) (s : State) : (stopFull w s).mem = s.mem := by
  unfold stopFull; simp
@[simp] theorem putBlock_mem (b : EncBlock) (w : WriteRun) (s : State) : (putBlock b w s).mem = s.mem := by
  unfold putBlock; dsimp only; split
  · simp
  · rename_i heq; simp [putFrameBytes_mem _ _ _ _ _ _ heq]
@[simp] theorem reencode_mem (b : EncBlock) (w : WriteRun) (s : State) : (reencode b w s).2.mem = s.mem := by
  unfold reencode; simp
theorem writeFrame_mem (b : EncBlock) (w : WriteRun) (f : FrameStart) : (writeFrame b w f).mem = f.left.mem := by
  cases f with
  | waits s => rfl
  | ends st s => exact stopWrite_mem _ _ _ _
  | ready iv c l s =>
    unfold writeFrame; dsimp only; split
    · split
      · rfl
      · rw [burnIv_mem]; rfl
    · rename_i h; rw [putBlock_mem, addReady_mem, putHeader_mem _ _ _ _ _ _ _ h]; rfl
@[simp] theorem placeInNewFrame_mem (b : EncBlock) (w : WriteRun) (lane : Nat) (check retry : Bool) (s : State) :
    (placeInNewFrame b w lane check retry s).mem = s.mem := by
  have k : ∀ (v : State) (b : EncBlock), v.mem = s.mem → (if !b.checked then v else
      if spanBlocked (48 + blockLen b) v then noteBlocked v
      else writeFrame b ((findWrite w.jsn v).getD w) (startFrame ((findWrite w.jsn v).getD w) lane check retry v)).mem = s.mem := by
    intro v b h; (repeat' split)
    · exact h
    · rw [noteBlocked_mem, h]
    · rw [writeFrame_mem, startFrame_mem, h]
  unfold placeInNewFrame; split
  · split <;> simp
  · rename_i heq
    have hn := newFramePlace_mem _ _ _ _ _ heq
    dsimp only; split
    · exact k _ _ ((reencode_mem b w _).trans hn)
    · exact k _ _ hn
@[simp] theorem placeBlock_mem (b : EncBlock) (w : WriteRun) (lane : Nat) (check retry : Bool) (s : State) :
    (placeBlock b w lane check retry s).mem = s.mem := by
  unfold placeBlock; simp
@[simp] theorem placeMarks_mem (w : WriteRun) (s : State) : (placeMarks w s).mem = s.mem := by
  unfold placeMarks; split
  · simp
  · rename_i heq
    have hc := closeFrame_mem _ _ heq
    split
    · split <;> simp [hc]
    · rename_i heq2
      have h2 := ensureOpen_mem _ _ _ heq2
      rw [noteDone_mem, placeItems_mem, h2]; split <;> simp [hc]

/-! ### Machine/Verify -/
@[simp] theorem setActive_mem (seq : Nat) (f : WrittenDataset → WrittenDataset) (s : State) : (setActive seq f
    s).mem = s.mem := by
  unfold setActive; simp
@[simp] theorem renameMarks_mem (old new : Nat) (s : State) : (renameMarks old new s).mem = s.mem := by
  unfold renameMarks; simp
@[simp] theorem layDown_mem (d : WrittenDataset) (reason : Nat) (s : State) : (layDown d reason s).mem = s.mem := by
  unfold layDown; simp
@[simp] theorem replaceDataset_mem (d : WrittenDataset) (s : State) : (replaceDataset d s).mem = s.mem := by
  unfold replaceDataset; simp
@[simp] theorem truncateAway_mem (s : State) (d : WrittenDataset) : (truncateAway s d).mem = s.mem := by
  unfold truncateAway; simp
@[simp] theorem failFrom_mem (p n : Nat) (s : State) : (failFrom p n s).mem = s.mem := by
  unfold failFrom; simp
@[simp] theorem endRunSoon_mem (s : State) : (endRunSoon s).mem = s.mem := by
  unfold endRunSoon; simp
@[simp] theorem lastingFailure_mem (d : WrittenDataset) (s : State) : (lastingFailure d s).mem = s.mem := by
  unfold lastingFailure; simp
@[simp] theorem wholeRewrite_mem (seq : Nat) (s : State) : (wholeRewrite seq s).mem = s.mem := by
  unfold wholeRewrite; (repeat' split) <;> simp
@[simp] theorem payDue_mem (s : State) : (payDue s).mem = s.mem := by
  unfold payDue; (repeat' split) <;> simp
@[simp] theorem noteMiscorrect_mem (seq subset row : Nat) (s : State) : (noteMiscorrect seq subset row s).mem = s.mem := by
  unfold noteMiscorrect; (repeat' split) <;> simp
@[simp] theorem learn_mem (d : Dataset) (v : VerifyResult) (x : VerifyDecode) (s : State) : (learn d v x s).mem = s.mem := by
  unfold learn; (repeat' split) <;> simp
@[simp] theorem noteDecode_mem (d : Dataset) (v : VerifyResult) (x : VerifyDecode) (s : State) : (noteDecode d v x s).mem = s.mem := by
  unfold noteDecode; (repeat' split) <;> simp
@[simp] theorem countFail_mem (margin : Bool) (track : Nat) (s : State) : (countFail margin track s).mem = s.mem := by
  unfold countFail; simp
@[simp] theorem failFirst_mem (seq m track : Nat) (margin : Bool) (s : State) : (failFirst seq m track margin
    s).mem = s.mem := by
  unfold failFirst; simp
@[simp] theorem firstResultOf_mem (v : VerifyResult) (d : WrittenDataset) (s : State) : (firstResultOf v d s).mem =
    s.mem := by
  unfold firstResultOf; simp
@[simp] theorem failCopy_mem (f : FailedCw) (c : Nat) (s : State) : (failCopy f c s).mem = s.mem := by
  unfold failCopy; simp
@[simp] theorem copyResult_mem (v : VerifyResult) (d : WrittenDataset) (c : Nat) (s : State) : (copyResult v d c s).mem = s.mem := by
  unfold copyResult; (repeat' split) <;> simp
@[simp] theorem applyResult_mem (s : State) (v : VerifyResult) : (applyResult s v).mem = s.mem := by
  unfold applyResult; (repeat' split) <;> simp
@[simp] theorem failSlots_mem (seq : Nat) (p : Nat → Bool) (s : State) : (failSlots seq p s).mem = s.mem := by
  unfold failSlots; refine foldl_mem (fun s x => ?_) _ _; split
  · rfl
  · split <;> simp
@[simp] theorem failCopies_mem (seq : Nat) (p : Nat → Bool) (s : State) : (failCopies seq p s).mem = s.mem := by
  unfold failCopies; refine foldl_mem (fun s x => ?_) _ _; split <;> simp
@[simp] theorem failWindow_mem (seq lo hi : Nat) (s : State) : (failWindow seq lo hi s).mem = s.mem := by
  unfold failWindow; simp
@[simp] theorem failBehind_mem (back len : Nat) (s : State) : (failBehind back len s).mem = s.mem := by
  unfold failBehind; dsimp only; (repeat' split) <;> simp
@[simp] theorem lateResults_mem (s : State) : (lateResults s).mem = s.mem := by
  unfold lateResults; split
  · rfl
  · dsimp only; (repeat' split) <;> simp
@[simp] theorem disableWrites_mem (s : State) : (disableWrites s).mem = s.mem := by
  unfold disableWrites; simp
@[simp] theorem excludeTrack_mem (t c : Nat) (s : State) : (excludeTrack t c s).mem = s.mem := by
  unfold excludeTrack; simp
@[simp] theorem retryItems_mem (seq : Nat) (s : State) : (retryItems seq s).mem = s.mem := by
  unfold retryItems; (repeat' split) <;> simp
@[simp] theorem judgeTrack_mem (d : WrittenDataset) (s : State) (t : Nat) : (judgeTrack d s t).mem = s.mem := by
  unfold judgeTrack; (repeat' split) <;> simp
@[simp] theorem judgeDatasets_mem (before : List Nat) (s : State) : (judgeDatasets before s).mem = s.mem := by
  unfold judgeDatasets; simp
@[simp] theorem takeResults_mem (l : List VerifyResult) (s : State) : (takeResults l s).mem = s.mem := by
  unfold takeResults; simp
@[simp] theorem placeCopy_mem (seq : Nat) (p : List Nat × State) (f : FailedCw) : (placeCopy seq p f).2.mem =
    p.2.mem := by
  obtain ⟨free, s⟩ := p
  unfold placeCopy; dsimp only; (repeat' split) <;> simp
@[simp] theorem fixCopies_mem (seq : Nat) (s : State) : (fixCopies seq s).mem = s.mem := by
  unfold fixCopies; split
  · rfl
  · generalize candidates seq s = l; generalize List.replicate 64 8 = f
    have h : ∀ (p : List Nat × State), (l.foldl (fun p c => placeCopy seq p c.2) p).2.mem = p.2.mem := by
      induction l with
      | nil => exact fun _ => rfl
      | cons a t ih => intro p; rw [List.foldl_cons, ih, placeCopy_mem]
    exact h (f, s)
@[simp] theorem writtenEvent_mem (d : Dataset) (s : State) (jsn : Nat) : (writtenEvent d s jsn).mem = s.mem := by
  unfold writtenEvent; simp
@[simp] theorem datasetWritten_mem (seq : Nat) (s : State) : (datasetWritten seq s).mem = s.mem := by
  unfold datasetWritten; (repeat' split) <;> simp
@[simp] theorem decideAt_mem (writing c3 : Bool) (s : State) : (decideAt writing c3 s).mem = s.mem := by
  unfold decideAt; simp
@[simp] theorem earlyWarning_mem (r : TapeRun) (s : State) : (earlyWarning r s).2.mem = s.mem := by
  unfold earlyWarning; (repeat' split) <;> simp
@[simp] theorem startDataset_mem (seq : Nat) (r : TapeRun) (bits : Nat) (s : State) : (startDataset seq r bits
    s).mem = s.mem := by
  unfold startDataset; simp
@[simp] theorem finishRun_mem (p : Nat) (s : State) : (finishRun p s).mem = s.mem := by
  unfold finishRun; simp
theorem startEod_mem (r : TapeRun) (bits : Nat) (s : State) (q : State) (hr : startEod r bits s = some q) : q.mem =
    s.mem := by
  unfold startEod at hr; dsimp only at hr; split at hr
  · cases hr
  · rename_i heq; have := formBare_mem _ _ _ heq
    cases hr; rw [startDataset_mem]; split <;> exact this
@[simp] theorem beginClose_mem (r : TapeRun) (bits : Nat) (s : State) : (beginClose r bits s).mem = s.mem := by
  unfold beginClose; dsimp only; split
  · rename_i heq; rw [startEod_mem _ _ _ _ heq]; simp
  · simp
@[simp] theorem closeAtEnd_mem (r : TapeRun) (s : State) : (closeAtEnd r s).mem = s.mem := by
  unfold closeAtEnd; (repeat' split) <;> simp
@[simp] theorem beginRunOut_mem (r : TapeRun) (s : State) : (beginRunOut r s).mem = s.mem := by
  unfold beginRunOut; (repeat' split) <;> simp
@[simp] theorem nextInRun_mem (r : TapeRun) (bits : Nat) (s : State) : (nextInRun r bits s).mem = s.mem := by
  unfold nextInRun; dsimp only; (repeat' split) <;> simp
@[simp] theorem fixEdge_mem (task : Bool) (s : State) : (fixEdge task s).mem = s.mem := by
  unfold fixEdge; (repeat' split) <;> simp
@[simp] theorem failTick_mem (off : Bool) (s : State) : (failTick off s).mem = s.mem := by
  unfold failTick; (repeat' split) <;> simp
@[simp] theorem runTick_mem (writeLate verifyLate task : Bool) (s : State) : (runTick writeLate verifyLate task s).mem = s.mem := by
  unfold runTick; dsimp only; (repeat' split) <;> simp
@[simp] theorem interruptRun_mem (s : State) : (interruptRun s).mem = s.mem := by
  unfold interruptRun; dsimp only; (repeat' split) <;> simp
@[simp] theorem beginWritingRun_mem (p : Nat) (s : State) : (beginWritingRun p s).mem = s.mem := by
  unfold beginWritingRun; dsimp only; (repeat' split) <;> simp
@[simp] theorem lastingServoLoss_mem (s : State) : (lastingServoLoss s).mem = s.mem := by
  unfold lastingServoLoss; simp
@[simp] theorem approach_mem (p : Nat) (atStep : Bool) (s : State) : (approach p atStep s).mem = s.mem := by
  unfold approach; (repeat' split) <;> simp
@[simp] theorem sendFrames_mem (after : Nat) (s : State) : (sendFrames after s).mem = s.mem := by
  unfold sendFrames; simp
@[simp] theorem pumpTally_mem (s : State) : (pumpTally s).mem = s.mem := by
  unfold pumpTally; simp
@[simp] theorem sendTally_mem (d : WrittenDataset) (s : State) : (sendTally d s).mem = s.mem := by
  unfold sendTally; simp
@[simp] theorem c3Take_mem (d : WrittenDataset) (s : State) : (c3Take d s).mem = s.mem := by
  unfold c3Take; simp
@[simp] theorem verifiedEvents_mem (d : WrittenDataset) (s : State) : (verifiedEvents d s).mem = s.mem := by
  unfold verifiedEvents; simp
@[simp] theorem countDurable_mem (seq : Nat) (s : State) : (countDurable seq s).mem = s.mem := by
  unfold countDurable; simp
@[simp] theorem recordRelease_mem (d : WrittenDataset) (s : State) : (recordRelease d s).mem = s.mem := by
  unfold recordRelease; simp
@[simp] theorem releaseDataset_mem (d : WrittenDataset) (s : State) : (releaseDataset d s).mem = s.mem := by
  unfold releaseDataset; simp

/-! ### Machine/Motion -/
@[simp] theorem noCartridge_mem (jsn : Nat) (s : State) : (noCartridge jsn s).mem = s.mem := by
  unfold noCartridge; simp
@[simp] theorem withPartition_mem (e : JournalEntry) (p : Nat) (s : State) (k : Cartridge → State → State) (hk : ∀ (x0 :
    Cartridge) (s : State), (k x0 s).mem = s.mem) : (withPartition e p s k).mem = s.mem := by
  unfold withPartition; dsimp only; (repeat' split) <;> simp [hk]
@[simp] theorem withPartition_wf (e : JournalEntry) (p : Nat) (s : State) (k : Cartridge → State → State) (hk : ∀ (x0 : Cartridge)
    (s : State), Memory.wf s.mem = true → Memory.wf (k x0 s).mem = true) (hwf : Memory.wf s.mem = true) : Memory.wf
    (withPartition e p s k).mem = true := by
  unfold withPartition; dsimp only; (repeat' split) <;> simp_all
@[simp] theorem moveTo_mem (w : Nat) (atStart : Bool) (s : State) : (moveTo w atStart s).mem = s.mem := by
  unfold moveTo; simp
@[simp] theorem beginMotion_mem (e : JournalEntry) (s : State) : (beginMotion e s).mem = s.mem := by
  unfold beginMotion; (repeat' split) <;> simp
@[simp] theorem onMotion_mem (op jsn : Nat) (done : Bool) (s : State) (k : JournalEntry → RunInfo → State → State) (hk : ∀ (x0 :
    JournalEntry) (x1 : RunInfo) (s : State), (k x0 x1 s).mem = s.mem) : (onMotion op jsn done s k).mem = s.mem := by
  unfold onMotion; split
  · (repeat' split) <;> simp [hk]
  · exact onTape_mem _ _ _ _ (fun e r s => by split <;> simp [hk])
@[simp] theorem onMotion_wf (op jsn : Nat) (done : Bool) (s : State) (k : JournalEntry → RunInfo → State → State) (hk : ∀ (x0 :
    JournalEntry) (x1 : RunInfo) (s : State), Memory.wf s.mem = true → Memory.wf (k x0 x1 s).mem = true) (hwf :
    Memory.wf s.mem = true) : Memory.wf (onMotion op jsn done s k).mem = true := by
  unfold onMotion; split
  · (repeat' split)
    · simpa using hwf
    · exact hwf
    · exact hk _ _ _ (by simpa using hwf)
  · refine onTape_wf _ _ _ _ (fun e r s h => ?_) hwf
    split
    · exact hk _ _ _ h
    · simpa using h
@[simp] theorem eject_mem (s : State) : (eject s).mem = s.mem := by
  unfold eject; simp
@[simp] theorem rewindContexts_mem (s : State) : (rewindContexts s).mem = s.mem := by
  unfold rewindContexts; simp
@[simp] theorem unloadCart_mem (s : State) : (unloadCart s).mem = s.mem := by
  unfold unloadCart; simp
@[simp] theorem onMove_mem (op jsn : Nat) (done : Bool) (s : State) (k : JournalEntry → Bool → State → State) (hk : ∀ (x0 :
    JournalEntry) (x1 : Bool) (s : State), (k x0 x1 s).mem = s.mem) : (onMove op jsn done s k).mem = s.mem := by
  unfold onMove; (repeat' split)
  · rfl
  · exact onBegin_mem _ _ _ _ (fun e _ s => hk e false s)
  · exact onMotion_mem _ _ _ _ _ (fun e _ s => hk e true s)
@[simp] theorem onMove_wf (op jsn : Nat) (done : Bool) (s : State) (k : JournalEntry → Bool → State → State) (hk : ∀ (x0 :
    JournalEntry) (x1 : Bool) (s : State), Memory.wf s.mem = true → Memory.wf (k x0 x1 s).mem = true) (hwf :
    Memory.wf s.mem = true) : Memory.wf (onMove op jsn done s k).mem = true := by
  unfold onMove; (repeat' split)
  · exact hwf
  · exact onBegin_wf _ _ _ _ (fun e _ s h => hk e false s h) hwf
  · exact onMotion_wf _ _ _ _ _ (fun e _ s h => hk e true s h) hwf

/-! ### Machine/ReadDecode -/
@[simp] theorem holdRecord_mem (seq : Nat) (s : State) : (holdRecord seq s).mem = s.mem := by
  unfold holdRecord; (repeat' split) <;> simp
@[simp] theorem countDecode_mem (seq k : Nat) (st : DecodeStats) (r : Scheduled) (s : State) : (countDecode seq k st r s).mem = s.mem := by
  unfold countDecode; (repeat' split) <;> simp
@[simp] theorem noteSubset_mem (c : Reread) (seq k : Nat) (st : DecodeStats) (r : Scheduled) (s : State) : (noteSubset c seq k st r s).mem = s.mem := by
  unfold noteSubset; (repeat' split) <;> simp
@[simp] theorem noteMissing_mem (seq : Nat) (s : State) : (noteMissing seq s).mem = s.mem := by
  unfold noteMissing; (repeat' split) <;> simp
@[simp] theorem rereadDataset_mem (c : Reread) (d : Dataset) (h : HeldDataset) (s : State) : (rereadDataset c d h s).mem = s.mem := by
  unfold rereadDataset; (repeat' split) <;> simp
@[simp] theorem adaptOver_mem (c : Reread) (seq : Nat) (s : State) : (adaptOver c seq s).mem = s.mem := by
  unfold adaptOver; (repeat' split) <;> simp

/-! ### Machine/Read -/
@[simp] theorem endMeasure_mem (s : State) : (endMeasure s).mem = s.mem := by
  unfold endMeasure; simp
@[simp] theorem beginMeasure_mem (seq : Nat) (m : Measure) (s : State) : (beginMeasure seq m s).mem = s.mem := by
  unfold beginMeasure; (repeat' split) <;> simp
@[simp] theorem recover_mem (seq passes : Nat) (noC3 : Bool) (s : State) : (recover seq passes noC3 s).mem = s.mem
    := by
  unfold recover; dsimp only; (repeat' split) <;> simp
@[simp] theorem recovered_mem (h : HeldDataset) (s : State) : (recovered h s).mem = s.mem := by
  unfold recovered; (repeat' split) <;> simp
@[simp] theorem afterMeasure_mem (seq passes : Nat) (noC3 : Bool) (s : State) : (afterMeasure seq passes noC3
    s).mem = s.mem := by
  unfold afterMeasure; (repeat' split) <;> simp
@[simp] theorem readAgain_mem (c : Reread) (d : Dataset) (found : Bool) (s : State) : (readAgain c d found s).mem = s.mem := by
  unfold readAgain; (repeat' split) <;> simp
@[simp] theorem degradeChannel_mem (t : Nat) (s : State) : (degradeChannel t s).mem = s.mem := by
  unfold degradeChannel; (repeat' split) <;> simp
@[simp] theorem decodeSubset_mem (c : Reread) (d : Dataset) (k ahead : Nat) (s : State) : (decodeSubset c d k ahead s).mem = s.mem := by
  unfold decodeSubset; (repeat' split) <;> simp
@[simp] theorem scatter_mem (y0 : List ListEntry) (y1 : List Byte) (s : State) : (scatter y0 y1 s).mem = s.mem := by
  induction y0 generalizing s y1 with
  | nil => rfl
  | cons e t ih => cases y1 with
    | nil => rfl
    | cons b l => unfold scatter; rw [ih]; simp
@[simp] theorem untrustedRun_mem (jsn : Nat) (y0 : Nat) (y1 : Nat × Nat) (s : State) : (untrustedRun jsn y0 y1
    s).mem = s.mem := by
  induction y0 generalizing s y1 with
  | zero => rfl
  | succ n ih => unfold untrustedRun; split
                 · rfl
                 · rw [ih]; simp
@[simp] theorem countTag_mem (jsn : Nat) (s : State) (t : TagFailure) : (countTag jsn s t).mem = s.mem := by
  unfold countTag; simp
@[simp] theorem countTags_mem (j : ReadJob) (fs : List FrameAt) (s : State) : (countTags j fs s).mem = s.mem := by
  unfold countTags; simp
@[simp] theorem decryptLanes_mem (fs : List FrameAt) (s : State) : (decryptLanes fs s).mem = s.mem := by
  unfold decryptLanes; exact foldl_mem (fun s _ => by split <;> simp) _ _
@[simp] theorem deliverRead_mem (j : ReadJob) (list : List ListEntry) (desc : Nat) (a : ReadAcc) (s : State) :
    (deliverRead j list desc a s).mem = s.mem := by
  unfold deliverRead; simp
@[simp] theorem noteSpan_mem (j : ReadJob) (start pos : Nat) (ended : Bool) (s : State) : (noteSpan j start pos
    ended s).mem = s.mem := by
  unfold noteSpan; simp
@[simp] theorem readSpeed_mem (n : Nat) (s : State) : (readSpeed n s).mem = s.mem := by
  unfold readSpeed; simp
@[simp] theorem endReading_mem (jsn : Nat) (s : State) : (endReading jsn s).mem = s.mem := by
  unfold endReading; simp
@[simp] theorem readFault_mem (jsn : Nat) (chain : List Dataset) (cause seq subset : Nat) (s : State) : (readFault
    jsn chain cause seq subset s).mem = s.mem := by
  unfold readFault; simp
@[simp] theorem takeChain_mem (y0 : Nat) (s : State) : (takeChain y0 s).2.mem = s.mem := by
  induction y0 generalizing s with
  | zero => rfl
  | succ n ih =>
    unfold takeChain; split
    · rfl
    · rename_i heq; have h1 := porterTry_mem _ _ _ _ heq
      split; rename_i heq2; have := ih; 
      have h2 := congrArg (fun p => p.2.mem) heq2; simp only [ih] at h2; rw [← h2]; exact h1
@[simp] theorem addChained_mem (ctx : Nat) (left : List Byte) (bad : List (Nat × Nat)) (h : Word) (t : List Word)
    (s : State) : (addChained ctx left bad h t s).mem = s.mem := by
  unfold addChained; simp
theorem chainRest_mem (ctx : Nat) (left : List Byte) (bad : List (Nat × Nat)) (s : State) (q : (Word × State)) (hr
    : chainRest ctx left bad s = some q) : q.2.mem = s.mem := by
  unfold chainRest at hr; split at hr
  · cases hr
  · split at hr
    · cases hr
    · rename_i heq; cases hr
      exact (addChained_mem _ _ _ _ _ _).trans ((congrArg (fun p => p.2.mem) heq).symm.trans (takeChain_mem _ s))
@[simp] theorem waitRecovery_mem (e : JournalEntry) (j : ReadJob) (seq : Nat) (s : State) : (waitRecovery e j seq
    s).mem = s.mem := by
  unfold waitRecovery; simp
@[simp] theorem settleRead_mem (j : ReadJob) (start : Nat) (a : ReadAcc) (ended : Bool) (s : State) : (settleRead j
    start a ended s).mem = s.mem := by
  unfold settleRead; simp
@[simp] theorem blockFault_mem (jsn item cause : Nat) (s : State) : (blockFault jsn item cause s).mem = s.mem := by
  unfold blockFault; (repeat' split) <;> simp
@[simp] theorem endRead_mem (e : JournalEntry) (list : List ListEntry) (j : ReadJob) (start : Nat) (stop :
    ReadStop) (a : ReadAcc) (s : State) : (endRead e list j start stop a s).mem = s.mem := by
  unfold endRead; dsimp only; split <;> (try simp)
  split
  · rename_i heq; have := chainRest_mem _ _ _ _ _ heq; simpa using this
  · simp
@[simp] theorem abortRead_mem (e : JournalEntry) (r : RunInfo) (s : State) : (abortRead e r s).mem = s.mem := by
  unfold abortRead; (repeat' split) <;> simp
@[simp] theorem verifyReport_mem (e : JournalEntry) (j : ReadJob) (a : VerifyAcc) (s : State) : (verifyReport e j a
    s).mem = s.mem := by
  unfold verifyReport; simp
@[simp] theorem endVerify_mem (e : JournalEntry) (j : ReadJob) (start : Nat) (stop : ReadStop) (a : VerifyAcc) (s :
    State) : (endVerify e j start stop a s).mem = s.mem := by
  unfold endVerify; (repeat' split) <;> simp
@[simp] theorem abortVerify_mem (e : JournalEntry) (s : State) : (abortVerify e s).mem = s.mem := by
  unfold abortVerify; (repeat' split) <;> simp

/-! ### Machine/PackerCmd -/
@[simp] theorem keepPart_mem (jsn r0 r1 : Nat) (s : State) : (keepPart jsn r0 r1 s).mem = s.mem := by
  unfold keepPart; (repeat' split) <;> simp
@[simp] theorem levelTransfer_mem (s : State) : (levelTransfer s).mem = s.mem := by
  unfold levelTransfer; simp

/-! ### Machine/Tec -/
@[simp] theorem decodeTransfer_mem (s : State) : (decodeTransfer s).mem = s.mem := by
  unfold decodeTransfer; (repeat' split) <;> simp
@[simp] theorem detectTransfer_mem (s : State) : (detectTransfer s).mem = s.mem := by
  unfold detectTransfer; (repeat' split) <;> simp
@[simp] theorem captureSlots_mem (e : JournalEntry) (done : Nat) (slots : List (List Int)) (s : State) :
    (captureSlots e done slots s).mem = s.mem := by
  unfold captureSlots; exact foldl_mem (fun s p => hostStore_mem _ _ _) _ _

/-! ### Machine/DroverRows -/
@[simp] theorem giveUpDataset_mem (s : State) (d : WrittenDataset) : (giveUpDataset s d).mem = s.mem := by
  unfold giveUpDataset; simp
@[simp] theorem giveUp_mem (s : State) (p : Nat) : (giveUp s p).mem = s.mem := by
  unfold giveUp; simp
@[simp] theorem endWritesNow_mem (js : List Nat) (st : Nat) (r1 : Option Nat) (s : State) :
    (endWritesNow js st r1 s).mem = s.mem := by
  unfold endWritesNow; dsimp only
  rw [settleWrites_mem, foldl_mem (fun s j => by split <;> simp)]; simp
@[simp] theorem loseTape_mem (st : Nat) (s : State) : (loseTape st s).mem = s.mem := by
  unfold loseTape; simp
@[simp] theorem dropMove_mem (jsn : Nat) (s : State) : (dropMove jsn s).mem = s.mem := by
  unfold dropMove; simp
@[simp] theorem endSets_mem (s : State) : (endSets s).mem = s.mem := by
  unfold endSets; simp
@[simp] theorem endMode_mem (s : State) (j : DrvJob) : (endMode s j).mem = s.mem := by
  unfold endMode; simp
@[simp] theorem endMove_mem (s : State) (j : DrvJob) : (endMove s j).mem = s.mem := by
  unfold endMove; simp
@[simp] theorem droverJobs_mem (s : State) : (droverJobs s).mem = s.mem := by
  unfold droverJobs; simp
@[simp] theorem dropCapture_mem (jsn : Nat) (s : State) : (dropCapture jsn s).mem = s.mem := by
  unfold dropCapture; simp
@[simp] theorem captureOne_mem (unfinished : List Nat) (s : State) (j : DrvJob) : (captureOne unfinished s j).mem =
    s.mem := by
  unfold captureOne; (repeat' split) <;> simp
@[simp] theorem captureTick_mem (unfinished : List Nat) (s : State) : (captureTick unfinished s).mem = s.mem := by
  unfold captureTick; simp
@[simp] theorem monTransfer_mem (s : State) : (monTransfer s).mem = s.mem := by
  unfold monTransfer; simp
@[simp] theorem spmTransfer_mem (s : State) : (spmTransfer s).mem = s.mem := by
  unfold spmTransfer; simp
@[simp] theorem stopRunIfStopped_mem (was : Bool) (s : State) : (stopRunIfStopped was s).mem = s.mem := by
  unfold stopRunIfStopped; simp
@[simp] theorem endDiagStops_mem (s : State) : (endDiagStops s).mem = s.mem := by
  unfold endDiagStops; refine foldl_mem (fun s x => ?_) _ _; (repeat' split) <;> simp
@[simp] theorem sensorPass_mem (n : Nat) (s : State) : (sensorPass n s).mem = s.mem := by
  unfold sensorPass; simp
@[simp] theorem sensorLasts_mem (n : Nat) (both : Bool) (s : State) : (sensorLasts n both s).mem = s.mem := by
  unfold sensorLasts; simp
@[simp] theorem retrySensor_mem (failed : List Nat) (both : Bool) (s : State) (n : Nat) : (retrySensor failed both
    s n).mem = s.mem := by
  unfold retrySensor; simp
@[simp] theorem restoreLoops_mem (s : State) : (restoreLoops s).mem = s.mem := by
  unfold restoreLoops; simp
@[simp] theorem markWaiters_mem (s : State) : (markWaiters s).mem = s.mem := by
  unfold markWaiters; refine foldl_mem (fun s x => ?_) _ _; (repeat' split) <;> simp

/-! ### Machine/HeadLink -/
@[simp] theorem updateCaps_mem (s : State) : (updateCaps s).mem = s.mem := by
  unfold updateCaps; simp
@[simp] theorem sendMask_mem (s : State) : (sendMask s).mem = s.mem := by
  unfold sendMask; simp
@[simp] theorem laneFailing_mem (n : Nat) (c : LaneFault) (s : State) : (laneFailing n c s).mem = s.mem := by
  unfold laneFailing; simp
@[simp] theorem laneErrEvent_mem (n : Nat) (s : State) : (laneErrEvent n s).mem = s.mem := by
  unfold laneErrEvent; simp
@[simp] theorem crcErrors_mem (k n : Nat) (s : State) : (crcErrors k n s).mem = s.mem := by
  unfold crcErrors; simp
@[simp] theorem failLink_mem (s : State) : (failLink s).mem = s.mem := by
  unfold failLink; simp
@[simp] theorem linkFails_mem (s : State) : (linkFails s).mem = s.mem := by
  unfold linkFails; simp
@[simp] theorem retireLane_mem (n : Nat) (s : State) : (retireLane n s).mem = s.mem := by
  unfold retireLane; simp
@[simp] theorem maskChange_mem (s : State) (p : Nat × Bool) : (maskChange s p).mem = s.mem := by
  unfold maskChange; simp
@[simp] theorem beginRetrain_mem (s : State) : (beginRetrain s).mem = s.mem := by
  unfold beginRetrain; (repeat' split) <;> simp
@[simp] theorem hlkTransfer_mem (s : State) : (hlkTransfer s).mem = s.mem := by
  unfold hlkTransfer; simp
@[simp] theorem drainTick_mem (s : State) : (drainTick s).mem = s.mem := by
  unfold drainTick; (repeat' split) <;> simp
@[simp] theorem linkTick_mem (s : State) : (linkTick s).mem = s.mem := by
  unfold linkTick; simp
@[simp] theorem mismatch_mem (i : BitVec 40) (s : State) : (mismatch i s).mem = s.mem := by
  unfold mismatch; simp
@[simp] theorem trainLane_mem (t : TrainResult) (s : State) (n : Nat) : (trainLane t s n).mem = s.mem := by
  unfold trainLane; simp
@[simp] theorem trainLink_mem (t : TrainResult) (s : State) : (trainLink t s).mem = s.mem := by
  unfold trainLink; simp
@[simp] theorem countBlockErrors_mem (k n : Nat) (s : State) : (countBlockErrors k n s).mem = s.mem := by
  unfold countBlockErrors; (repeat' split) <;> simp
@[simp] theorem onFrame_mem (ftype : Nat) (f : LinkFrame) (s : State) (k : HeadFrame → State → State)
    (hk : ∀ (h : HeadFrame) (s : State), (k h s).mem = s.mem) : (onFrame ftype f s k).mem = s.mem := by
  unfold onFrame; dsimp only; (repeat' split) <;> simp [hk]
@[simp] theorem onFrame_wf (ftype : Nat) (f : LinkFrame) (s : State) (k : HeadFrame → State → State) (hk : ∀ (h : HeadFrame)
    (s : State), Memory.wf s.mem = true → Memory.wf (k h s).mem = true) (hwf : Memory.wf s.mem = true) :
    Memory.wf (onFrame ftype f s k).mem = true := by
  unfold onFrame; dsimp only; (repeat' split) <;> simp_all
@[simp] theorem takeItems_mem (src next : Nat) (items : List (Option Int)) (s : State) : (takeItems src next items s).mem = s.mem := by
  unfold takeItems; (repeat' split) <;> simp
@[simp] theorem drainAhead_mem (src : Nat) (y0 : Nat) (s : State) : (drainAhead src y0 s).mem = s.mem := by
  induction y0 generalizing s with
  | zero => rfl
  | succ n ih => unfold drainAhead; dsimp only; split <;> simp [ih]
@[simp] theorem reorder_mem (w n : Nat) (h : HeadFrame) (s : State) : (reorder w n h s).mem = s.mem := by
  unfold reorder; dsimp only; split <;> simp
@[simp] theorem takeStatus_mem (h : HeadFrame) (s : State) : (takeStatus h s).mem = s.mem := by
  unfold takeStatus; dsimp only
  rw [foldl_mem (fun s j => by split <;> simp)]; (repeat' split) <;> simp
@[simp] theorem ctrlRefused_mem (lane : Nat) (s : State) : (ctrlRefused lane s).mem = s.mem := by
  unfold ctrlRefused; simp

/-! ### Machine/Thermal -/
@[simp] theorem modThm_mem (n : Nat) (f : ThmSensor → ThmSensor) (s : State) : (modThm n f s).mem = s.mem := by
  unfold modThm; simp
@[simp] theorem refreshEff_mem (s : State) : (refreshEff s).mem = s.mem := by
  unfold refreshEff; simp
@[simp] theorem refreshRates_mem (s : State) : (refreshRates s).mem = s.mem := by
  unfold refreshRates; refine foldl_mem (fun s x => ?_) _ _; (repeat' split) <;> simp
@[simp] theorem sensorStays_mem (n : Nat) (s : State) : (sensorStays n s).mem = s.mem := by
  unfold sensorStays; simp
@[simp] theorem failSensor_mem (n : Nat) (c2 : Option Int) (s : State) : (failSensor n c2 s).mem = s.mem := by
  unfold failSensor; (repeat' split) <;> simp
@[simp] theorem readmit_mem (n : Nat) (raw : Int) (s : State) : (readmit n raw s).mem = s.mem := by
  unfold readmit; simp
@[simp] theorem checkGrid_mem (n : Nat) (raw : Int) (s : State) : (checkGrid n raw s).mem = s.mem := by
  unfold checkGrid; (repeat' split) <;> simp
@[simp] theorem checkWeighhouse_mem (raw : Int) (s : State) : (checkWeighhouse raw s).mem = s.mem := by
  unfold checkWeighhouse; simp
@[simp] theorem levelCross_mem (n : Nat) (old new level : Int) (crit : Bool) (s : State) : (levelCross n old new
    level crit s).mem = s.mem := by
  unfold levelCross; simp
@[simp] theorem levelEvents_mem (before : List Int) (s : State) : (levelEvents before s).mem = s.mem := by
  unfold levelEvents; simp
@[simp] theorem chooseRate_mem (s : State) : (chooseRate s).mem = s.mem := by
  unfold chooseRate; simp
@[simp] theorem publishThermal_mem (s : State) : (publishThermal s).mem = s.mem := by
  unfold publishThermal; (repeat' split) <;> simp
@[simp] theorem sampleSensor_mem (sensor : Nat) (raw : Int) (s : State) : (sampleSensor sensor raw s).mem = s.mem
    := by
  unfold sampleSensor; dsimp only; (repeat' split) <;> simp
@[simp] theorem setCap_mem (c : Nat) (s : State) : (setCap c s).mem = s.mem := by
  unfold setCap; simp
@[simp] theorem capRule_mem (hot cool : Bool) (s : State) : (capRule hot cool s).mem = s.mem := by
  unfold capRule; simp
@[simp] theorem critRule_mem (cool : Bool) (s : State) : (critRule cool s).mem = s.mem := by
  unfold critRule; dsimp only; (repeat' split) <;> simp
@[simp] theorem weighhouseSilent_mem (s : State) : (weighhouseSilent s).mem = s.mem := by
  unfold weighhouseSilent; simp
@[simp] theorem thmTransfer_mem (s : State) : (thmTransfer s).mem = s.mem := by
  unfold thmTransfer; simp

/-! ### Machine/Power -/
@[simp] theorem linkIdle_mem (s : State) : (linkIdle s).mem = s.mem := by
  unfold linkIdle; simp
@[simp] theorem saveForL3_wf (s : State) (hwf : Memory.wf s.mem = true) : Memory.wf (saveForL3 s).mem = true := by
  unfold saveForL3; simp_all
@[simp] theorem enterState_wf (k : Nat) (s : State) (hwf : Memory.wf s.mem = true) : Memory.wf (enterState k s).mem
    = true := by
  unfold enterState; (repeat' split) <;> simp_all
@[simp] theorem enterIfNow_wf (s : State) (hwf : Memory.wf s.mem = true) : Memory.wf (enterIfNow s).mem = true := by
  unfold enterIfNow; split
  · apply enterState_wf; exact hwf
  · exact hwf
@[simp] theorem restoreL3_wf (s : State) (hwf : Memory.wf s.mem = true) : Memory.wf (restoreL3 s).mem = true := by
  obtain ⟨h1, h2, h3, h4, h5, h6, h7⟩ := (memoryWf_parts _).1 hwf
  exact (memoryWf_parts _).2 ⟨h1, rfl, h3, h4, rfl, h6, rfl⟩
@[simp] theorem awake_mem (k : Nat) (t : TrainResult) (s : State) : (awake k t s).mem = s.mem := by
  unfold awake; simp
@[simp] theorem recordTruncs_mem (ser : List Byte) (ps : List Nat) (s : State) : (recordTruncs ser ps s).mem =
    s.mem := by
  unfold recordTruncs; simp
@[simp] theorem removeCart_mem (s : State) : (removeCart s).mem = s.mem := by
  unfold removeCart; (repeat' split) <;> simp
@[simp] theorem slackTick_mem (tension : Option Int) (s : State) : (slackTick tension s).mem = s.mem := by
  unfold slackTick; simp

/-! ### Machine/Weighhouse -/
@[simp] theorem putStateWord_mem (f : StateWord → StateWord) (s : State) : (putStateWord f s).mem = s.mem := by
  unfold putStateWord; simp
@[simp] theorem takeTsn_mem (n : Nat) (s : State) : (takeTsn n s).mem = s.mem := by
  unfold takeTsn; simp
@[simp] theorem commitFrame_mem (f : TallyFrame) (s : State) : (commitFrame f s).mem = s.mem := by
  unfold commitFrame; simp
@[simp] theorem countBad_mem (s : State) : (countBad s).mem = s.mem := by
  unfold countBad; simp
@[simp] theorem countGap_mem (s : State) : (countGap s).mem = s.mem := by
  unfold countGap; simp
@[simp] theorem countDup_mem (s : State) : (countDup s).mem = s.mem := by
  unfold countDup; simp
@[simp] theorem receiveFrame_mem (bytes : List Byte) (s : State) : (receiveFrame bytes s).mem = s.mem := by
  unfold receiveFrame; simp
@[simp] theorem resendTally_mem (s : State) : (resendTally s).mem = s.mem := by
  unfold resendTally; simp
@[simp] theorem modCurrent_mem (f : LedgerEntry → LedgerEntry) (s : State) : (modCurrent f s).mem = s.mem := by
  unfold modCurrent; (repeat' split) <;> simp
@[simp] theorem endEntry_mem (cause : Nat) (s : State) : (endEntry cause s).mem = s.mem := by
  unfold endEntry; simp
@[simp] theorem openEntry_mem (start : Nat) (s : State) : (openEntry start s).mem = s.mem := by
  unfold openEntry; simp
@[simp] theorem reportUnread_mem (s : State) : (reportUnread s).mem = s.mem := by
  unfold reportUnread; simp
@[simp] theorem takeWhStatus_mem (s : State) : (takeWhStatus s).mem = s.mem := by
  unfold takeWhStatus; dsimp only; (repeat' split) <;> simp
@[simp] theorem whResumes_mem (s : State) : (whResumes s).mem = s.mem := by
  unfold whResumes; simp
@[simp] theorem becomeAvailable_mem (s : State) : (becomeAvailable s).mem = s.mem := by
  unfold becomeAvailable; simp
@[simp] theorem emptyFifos_mem (s : State) : (emptyFifos s).mem = s.mem := by
  unfold emptyFifos; simp
@[simp] theorem mbRefused_mem (type : Nat) (s : State) : (mbRefused type s).mem = s.mem := by
  unfold mbRefused; simp
@[simp] theorem mbServe_mem (type : Nat) (ok : Bool) (k : State → State) (s : State) (hk : ∀ (s : State), (k s).mem
    = s.mem) : (mbServe type ok k s).mem = s.mem := by
  unfold mbServe; (repeat' split) <;> simp_all
@[simp] theorem mbServe_wf (type : Nat) (ok : Bool) (k : State → State) (s : State) (hk : ∀ (s : State), Memory.wf
    s.mem = true → Memory.wf (k s).mem = true) (hwf : Memory.wf s.mem = true) : Memory.wf (mbServe type ok k s).mem
    = true := by
  unfold mbServe; (repeat' split) <;> simp_all
@[simp] theorem mbRespond_mem (type : Nat) (l : List Byte) (s : State) : (mbRespond type l s).mem = s.mem := by
  unfold mbRespond; simp
@[simp] theorem doExtend_mem (stage : Nat) (digest : List Byte) (s : State) : (doExtend stage digest s).mem = s.mem
    := by
  unfold doExtend; simp
@[simp] theorem closeEntry_mem (s : State) : (closeEntry s).mem = s.mem := by
  unfold closeEntry; dsimp only; (repeat' split) <;> simp
@[simp] theorem doClose_mem (s : State) : (doClose s).mem = s.mem := by
  unfold doClose; simp
@[simp] theorem doLedgerGet_mem (first count : Nat) (s : State) : (doLedgerGet first count s).mem = s.mem := by
  unfold doLedgerGet; simp
@[simp] theorem nextStatement_mem (s : State) : (nextStatement s).mem = s.mem := by
  unfold nextStatement; simp
@[simp] theorem doStatement_mem (r : StatementReq) (s : State) : (doStatement r s).mem = s.mem := by
  unfold doStatement; simp
@[simp] theorem setSpdm_mem (mctp : Bool) (n : Nat) (s : State) : (setSpdm mctp n s).mem = s.mem := by
  unfold setSpdm; simp
@[simp] theorem spdmReply_mem (mctp : Bool) (l : List Byte) (s : State) : (spdmReply mctp l s).mem = s.mem := by
  unfold spdmReply; simp
@[simp] theorem spdmServe_mem (mctp : Bool) (msg : List Byte) (s : State) : (spdmServe mctp msg s).mem = s.mem := by
  unfold spdmServe; dsimp only; (repeat' split) <;> simp
@[simp] theorem doSpdm_mem (mctp : Bool) (msg : List Byte) (s : State) : (doSpdm mctp msg s).mem = s.mem := by
  unfold doSpdm; simp
@[simp] theorem doMarkRead_mem (epochs : List Nat) (s : State) : (doMarkRead epochs s).mem = s.mem := by
  unfold doMarkRead; simp
@[simp] theorem postMessage_mem (type : Nat) (c : List Byte) (s : State) : (postMessage type c s).mem = s.mem := by
  unfold postMessage; simp
@[simp] theorem whStops_mem (s : State) : (whStops s).mem = s.mem := by
  unfold whStops; simp
@[simp] theorem whPowerUp_mem (s : State) : (whPowerUp s).mem = s.mem := by
  unfold whPowerUp; simp
@[simp] theorem dropEpoch_mem (s : State) : (dropEpoch s).mem = s.mem := by
  unfold dropEpoch; simp

/-! ### Machine/Logs -/
@[simp] theorem endNop_mem (e : JournalEntry) (s : State) : (endNop e s).mem = s.mem := by
  unfold endNop; simp
@[simp] theorem clearPage_wf (n : Nat) (s : State) (hwf : Memory.wf s.mem = true) : Memory.wf (clearPage n s).mem =
    true := by
  unfold clearPage; (repeat' split) <;> exact hwf

/-! ### Machine/Reset -/
@[simp] theorem scanJournal_mem (s : State) : (scanJournal s).mem = s.mem := by
  unfold scanJournal; simp
@[simp] theorem strike_mem (s : State) : (strike s).mem = s.mem := by
  unfold strike; simp
@[simp] theorem keepTruncs_mem (s : State) : (keepTruncs s).mem = s.mem := by
  unfold keepTruncs; (repeat' split) <;> simp
@[simp] theorem warmBlocks_mem (s : State) : (warmBlocks s).mem = s.mem := by
  unfold warmBlocks; simp
@[simp] theorem raiseEpoch_mem (s : State) : (raiseEpoch s).mem = s.mem := by
  unfold raiseEpoch; simp
@[simp] theorem clearWarm_wf (linkDown : Bool) (s : State) (hwf : Memory.wf s.mem = true) : Memory.wf (clearWarm
    linkDown s).mem = true := by
  obtain ⟨h1, h2, h3, h4, h5, h6, h7⟩ := (memoryWf_parts _).1 hwf
  exact (memoryWf_parts _).2 ⟨tabWf_filter _ h1, rfl, risingFrom_filter _ h3, risingFrom_filter _ h4, rfl, tabWf_filter _ h6, rfl⟩
@[simp] theorem clearCold_wf (s : State) (hwf : Memory.wf s.mem = true) : Memory.wf (clearCold s).mem = true := by
  unfold clearCold; simp only [raiseEpoch_mem, drawFree_mem]; rfl
@[simp] theorem setCause_mem (kind source : Nat) (s : State) : (setCause kind source s).mem = s.mem := by
  unfold setCause; simp
@[simp] theorem toStepOne_mem (s : State) : (toStepOne s).mem = s.mem := by
  unfold toStepOne; simp
@[simp] theorem warmReset_wf (linkDown : Bool) (source : Nat) (s : State) (hwf : Memory.wf s.mem = true) :
    Memory.wf (warmReset linkDown source s).mem = true := by
  unfold warmReset; simp_all
@[simp] theorem coldStop_mem (old : State) (s : State) : (coldStop old s).mem = s.mem := by
  unfold coldStop; simp
@[simp] theorem coldReset_wf (source : Nat) (s : State) (hwf : Memory.wf s.mem = true) : Memory.wf (coldReset
    source s).mem = true := by
  unfold coldReset; simp_all
@[simp] theorem powerDown_wf (s : State) (hwf : Memory.wf s.mem = true) : Memory.wf (powerDown s).mem = true := by
  unfold powerDown; simp_all
@[simp] theorem assignRoles_mem (s : State) : (assignRoles s).mem = s.mem := by
  unfold assignRoles; simp
@[simp] theorem coreRetry_mem (c : Nat) (s : State) : (coreRetry c s).mem = s.mem := by
  unfold coreRetry; simp
@[simp] theorem startCores_mem (ok : BitVec 4) (s : State) : (startCores ok s).mem = s.mem := by
  unfold startCores; simp
@[simp] theorem startLanes_mem (ok : BitVec 8) (s : State) : (startLanes ok s).mem = s.mem := by
  unfold startLanes; simp
@[simp] theorem noteKat_mem (s : State) : (noteKat s).mem = s.mem := by
  unfold noteKat; (repeat' split) <;> simp
@[simp] theorem startCeil_mem (s : State) : (startCeil s).mem = s.mem := by
  unfold startCeil; (repeat' split) <;> simp
@[simp] theorem startRetract_mem (s : State) : (startRetract s).mem = s.mem := by
  unfold startRetract; simp
@[simp] theorem startReplay_mem (s : State) : (startReplay s).mem = s.mem := by
  unfold startReplay; simp
@[simp] theorem redoRecord_mem (e : JournalEntry) (w : RetireWord) (s : State) : (redoRecord e w s).mem = s.mem := by
  unfold redoRecord; dsimp only; (repeat' split) <;> simp
@[simp] theorem moveContext_mem (c n : Nat) (s : State) : (moveContext c n s).mem = s.mem := by
  unfold moveContext; split <;> simp
@[simp] theorem redoPosition_mem (e : JournalEntry) (w : RetireWord) (s : State) : (redoPosition e w s).mem = s.mem := by
  unfold redoPosition; dsimp only; (repeat' split) <;> simp
@[simp] theorem redoContext_mem (s : State) (e : JournalEntry) : (redoContext s e).mem = s.mem := by
  unfold redoContext; split <;> simp
@[simp] theorem redoContexts_mem (s : State) : (redoContexts s).mem = s.mem := by
  unfold redoContexts; simp
@[simp] theorem startBoot_wf (b : BootInput) (s : State) (hwf : Memory.wf s.mem = true) : Memory.wf (startBoot b
    s).mem = true := by
  have h := (openEntry_mem s.sys.kind s)
  have hw : Memory.wf (openEntry s.sys.kind s).mem = true := by rw [h]; exact hwf
  unfold startBoot; simp only [doExtend_mem]; exact hw
@[simp] theorem startFirmware_mem (b : BootInput) (s : State) : (startFirmware b s).mem = s.mem := by
  unfold startFirmware; simp
@[simp] theorem startLink_mem (t : TrainResult) (s : State) : (startLink t s).mem = s.mem := by
  unfold startLink; simp
@[simp] theorem startEvents_mem (s : State) : (startEvents s).mem = s.mem := by
  unfold startEvents; simp
@[simp] theorem endAtReset_mem (e : JournalEntry) (st : Nat) (s : State) : (endAtReset e st s).mem = s.mem := by
  unfold endAtReset; (repeat' split) <;> simp
@[simp] theorem replayOne_mem (s : State) (j : Nat) : (replayOne s j).mem = s.mem := by
  unfold replayOne; (repeat' split) <;> simp
@[simp] theorem reportDurable_mem (e : JournalEntry) (w : RetireWord) (s : State) : (reportDurable e w s).mem =
    s.mem := by
  unfold reportDurable; simp
@[simp] theorem reportOne_mem (s : State) (j : Nat) : (reportOne s j).mem = s.mem := by
  unfold reportOne; dsimp only; (repeat' split) <;> simp

/-! ### Machine/Cores -/
@[simp] theorem abortWaiting_mem (e : JournalEntry) (s : State) : (abortWaiting e s).mem = s.mem := by
  unfold abortWaiting; simp
@[simp] theorem dropJobs_mem (jsn : Nat) (s : State) : (dropJobs jsn s).mem = s.mem := by
  unfold dropJobs; simp
@[simp] theorem abortMove_mem (e : JournalEntry) (s : State) : (abortMove e s).mem = s.mem := by
  unfold abortMove; simp
@[simp] theorem abortMotion_mem (e : JournalEntry) (r : RunInfo) (s : State) : (abortMotion e r s).mem = s.mem := by
  unfold abortMotion; (repeat' split) <;> simp
@[simp] theorem abortStarted_mem (e : JournalEntry) (r : RunInfo) (s : State) : (abortStarted e r s).mem = s.mem := by
  unfold abortStarted; (repeat' split) <;> simp
@[simp] theorem abortNow_mem (e : JournalEntry) (r : RunInfo) (s : State) : (abortNow e r s).mem = s.mem := by
  unfold abortNow; simp
@[simp] theorem endInterpreted_mem (s : State) (j : Nat) : (endInterpreted s j).mem = s.mem := by
  unfold endInterpreted; (repeat' split) <;> simp
@[simp] theorem coreLasting_mem (c : Nat) (s : State) : (coreLasting c s).mem = s.mem := by
  unfold coreLasting; simp
@[simp] theorem coreFault_wf (c : Nat) (s : State) (hwf : Memory.wf s.mem = true) : Memory.wf (coreFault c s).mem =
    true := by
  unfold coreFault; (repeat' split) <;> simp_all
@[simp] theorem onDiag_mem (f jsn : Nat) (s : State) (k : JournalEntry → RunInfo → State → State) (hk : ∀ (x0 :
    JournalEntry) (x1 : RunInfo) (s : State), (k x0 x1 s).mem = s.mem) : (onDiag f jsn s k).mem = s.mem := by
  unfold onDiag; (repeat' split) <;> simp_all
@[simp] theorem onDiag_wf (f jsn : Nat) (s : State) (k : JournalEntry → RunInfo → State → State) (hk : ∀ (x0 :
    JournalEntry) (x1 : RunInfo) (s : State), Memory.wf s.mem = true → Memory.wf (k x0 x1 s).mem = true) (hwf :
    Memory.wf s.mem = true) : Memory.wf (onDiag f jsn s k).mem = true := by
  unfold onDiag; (repeat' split) <;> simp_all
@[simp] theorem endSelftest_mem (jsn : Nat) (passed : BitVec 8) (s : State) : (endSelftest jsn passed s).mem = s.mem := by
  unfold endSelftest; (repeat' split) <;> simp

/-! ### Machine/HostIf -/
@[simp] theorem setDoe_mem (f : Doe → Doe) (s : State) : (setDoe f s).mem = s.mem := by
  unfold setDoe; simp
@[simp] theorem doeAnswer_mem (l : List Byte) (s : State) : (doeAnswer l s).mem = s.mem := by
  unfold doeAnswer; simp
@[simp] theorem doeToWeighhouse_mem (dtype : Nat) (payload : List Byte) (s : State) : (doeToWeighhouse dtype
    payload s).mem = s.mem := by
  unfold doeToWeighhouse; simp
@[simp] theorem msixRelease_mem (v : Nat) (s : State) : (msixRelease v s).mem = s.mem := by
  unfold msixRelease; simp
@[simp] theorem msixPump_mem (s : State) : (msixPump s).mem = s.mem := by
  unfold msixPump; (repeat' split) <;> simp
@[simp] theorem setIde_mem (st : IdeStream) (f : Ide → Ide) (s : State) : (setIde st f s).mem = s.mem := by
  unfold setIde; (repeat' split) <;> simp
@[simp] theorem poisonLine_wf (s : State) (a : Nat) (hwf : Memory.wf s.mem = true) : Memory.wf (poisonLine s a).mem
    = true := by
  obtain ⟨h1, h2, h3, h4, h5, h6, h7⟩ := (memoryWf_parts _).1 hwf
  exact (memoryWf_parts _).2 ⟨h1, h2, h3, insertNat_rising _ (insertNat_rising _ h4), h5, h6, h7⟩

/-! ### Machine/ConfigSpace -/
@[simp] theorem vectorControl_mem (v : Nat) (masked : Bool) (s : State) : (vectorControl v masked s).mem = s.mem := by
  unfold vectorControl; simp
@[simp] theorem writeVector_mem (v k x : Nat) (s : State) : (writeVector v k x s).mem = s.mem := by
  unfold writeVector; dsimp only; split
  · exact vectorControl_mem _ _ _
  · exact setHif_mem _ _
@[simp] theorem writeConfig_mem (a x : Nat) (s : State) : (writeConfig a x s).mem = s.mem := by
  unfold writeConfig; (repeat' split) <;> simp
@[simp] theorem writeOutsideDword_mem (a x : Nat) (s : State) : (writeOutsideDword a x s).mem = s.mem := by
  unfold writeOutsideDword; (repeat' split) <;> simp
@[simp] theorem writeOutside_mem (offset size : Nat) (v : Word) (s : State) : (writeOutside offset size v s).mem = s.mem := by
  unfold writeOutside; simp

/-! ### Machine/Registers -/
@[simp] theorem logAccess_mem (offset size : Nat) (write : Bool) (s : State) : (logAccess offset size write s).mem
    = s.mem := by
  unfold logAccess; simp
@[simp] theorem refuseAccess_mem (offset size : Nat) (write : Bool) (s : State) : (refuseAccess offset size write
    s).mem = s.mem := by
  unfold refuseAccess; simp
@[simp] theorem writeSq_mem (n k : Nat) (v : Word) (s : State) : (writeSq n k v s).mem = s.mem := by
  unfold writeSq; simp
@[simp] theorem writeCq_mem (n k : Nat) (v : Word) (s : State) : (writeCq n k v s).mem = s.mem := by
  unfold writeCq; simp
@[simp] theorem writeEvq_mem (k : Nat) (v : Word) (s : State) : (writeEvq k v s).mem = s.mem := by
  unfold writeEvq; simp
@[simp] theorem writeGroup_mem (g k : Nat) (v : Word) (s : State) : (writeGroup g k v s).mem = s.mem := by
  unfold writeGroup; simp
@[simp] theorem writeCmd_mem (o : Nat) (v : Word) (s : State) : (writeCmd o v s).mem = s.mem := by
  unfold writeCmd; simp
@[simp] theorem writeHif_mem (o : Nat) (v : Word) (s : State) : (writeHif o v s).mem = s.mem := by
  unfold writeHif; simp
@[simp] theorem writeVfy_mem (o : Nat) (v : Word) (s : State) : (writeVfy o v s).mem = s.mem := by
  unfold writeVfy; simp
@[simp] theorem writeHlk_mem (o : Nat) (v : Word) (s : State) : (writeHlk o v s).mem = s.mem := by
  unfold writeHlk; simp
@[simp] theorem writeDrv_mem (o : Nat) (v : Word) (s : State) : (writeDrv o v s).mem = s.mem := by
  unfold writeDrv; (repeat' split) <;> first | exact setLoop_mem _ _ _ | rfl
@[simp] theorem writeSpm_mem (o : Nat) (v : Word) (s : State) : (writeSpm o v s).mem = s.mem := by
  unfold writeSpm; simp
@[simp] theorem writePrt_mem (o : Nat) (v : Word) (s : State) : (writePrt o v s).mem = s.mem := by
  unfold writePrt; simp
@[simp] theorem writeMem_wf (o : Nat) (v : Word) (s : State) (hwf : Memory.wf s.mem = true) : Memory.wf (writeMem o
    v s).mem = true := by
  unfold writeMem; (repeat' split) <;> first | exact hwf | simp [hwf]
@[simp] theorem writeThm_mem (o : Nat) (v : Word) (s : State) : (writeThm o v s).mem = s.mem := by
  unfold writeThm; simp
@[simp] theorem writePwr_mem (o : Nat) (v : Word) (s : State) : (writePwr o v s).mem = s.mem := by
  unfold writePwr; simp
@[simp] theorem writeCph_mem (o : Nat) (v : Word) (s : State) : (writeCph o v s).mem = s.mem := by
  unfold writeCph; simp
@[simp] theorem writeWh_mem (o : Nat) (v : Word) (s : State) : (writeWh o v s).mem = s.mem := by
  unfold writeWh; simp
@[simp] theorem writeBlock_wf (offset : Nat) (v : Word) (s : State) (hwf : Memory.wf s.mem = true) : Memory.wf
    (writeBlock offset v s).mem = true := by
  unfold writeBlock; (repeat' split) <;> simp_all

/-! ### Machine/Tick -/
@[simp] theorem vfyTransfer_mem (s : State) : (vfyTransfer s).mem = s.mem := by
  unfold vfyTransfer; simp
@[simp] theorem countTick_mem (t : TickInput) (s : State) : (countTick t s).mem = s.mem := by
  unfold countTick; simp
@[simp] theorem shortCheck_mem (t : TickInput) (s : State) : (shortCheck t s).mem = s.mem := by
  unfold shortCheck; simp
@[simp] theorem overrunEvents_mem (t : TickInput) (s : State) : (overrunEvents t s).mem = s.mem := by
  unfold overrunEvents; simp
@[simp] theorem runLost_mem (y0 : Nat) (s : State) : (runLost y0 s).mem = s.mem := by
  induction y0 generalizing s with
  | zero => rfl
  | succ n ih => unfold runLost; rw [ih, runTick_mem]
@[simp] theorem sendWriteData_mem (lines : List (List Bool)) (s : State) : (sendWriteData lines s).mem = s.mem := by
  unfold sendWriteData; (repeat' split) <;> simp
@[simp] theorem sendTickBits_mem (s t : State) : (sendTickBits s t).mem = t.mem := by
  unfold sendTickBits; (repeat' split) <;> simp
@[simp] theorem writeTick_mem (t : TickInput) (after : Bool) (s : State) : (writeTick t after s).mem = s.mem := by
  unfold writeTick; simp
@[simp] theorem transfers_wf (s : State) (hwf : Memory.wf s.mem = true) : Memory.wf (transfers s).mem = true := by
  unfold transfers; (repeat' split) <;> simp_all
@[simp] theorem noteSpeed_mem (inp : List (Nat × Int)) (s : State) : (noteSpeed inp s).mem = s.mem := by
  unfold noteSpeed; (repeat' split) <;> simp
@[simp] theorem droverPart_mem (t : TickInput) (s : State) : (droverPart t s).mem = s.mem := by
  unfold droverPart; simp
@[simp] theorem sendRate_mem (s : State) : (sendRate s).mem = s.mem := by
  unfold sendRate; simp
@[simp] theorem tickTask_mem (t : TickInput) (s : State) : (tickTask t s).mem = s.mem := by
  unfold tickTask; simp
@[simp] theorem taskCheck_wf (t : TickInput) (s : State) (hwf : Memory.wf s.mem = true) : Memory.wf (taskCheck t
    s).mem = true := by
  unfold taskCheck; dsimp only; (repeat' split) <;> simp_all
@[simp] theorem tapeCheck_mem (s : State) : (tapeCheck s).mem = s.mem := by
  unfold tapeCheck; simp
@[simp] theorem meetPoison_wf (s : State) (hwf : Memory.wf s.mem = true) : Memory.wf (meetPoison s).mem = true := by
  have h : Memory.wf { s.mem with poolsLost := none } = true := hwf
  unfold meetPoison; split
  · exact hwf
  · dsimp only
    rw [foldl_mem (fun s p => by simp)]
    refine Eq.trans (congrArg Memory.wf ?_) h
    exact foldl_mem (fun s p => restartPipeline_mem p s) _ _
@[simp] theorem fullTick_wf (servo after : Bool) (t : TickInput) (s : State) (hwf : Memory.wf s.mem = true) :
    Memory.wf (fullTick servo after t s).mem = true := by
  unfold fullTick; dsimp only
  refine taskCheck_wf _ _ ?_
  have h : Memory.wf (meetPoison (overrunEvents t (countTick t (captureTick t.unfinished s)))).mem = true :=
    meetPoison_wf _ (by simpa using hwf)
  have h2 : ∀ (u : State) (c : Bool), Memory.wf u.mem = true → Memory.wf (if c then writeTick t after u else u).mem = true := by
    intro u c hu; split <;> simpa using hu
  have h3 : ∀ (u : State), Memory.wf u.mem = true →
      Memory.wf (if servo && !after then shortCheck t u else { u with sys := { u.sys with shortTick := false } }).mem = true := by
    intro u hu; split
    · simpa using hu
    · exact hu
  have h4 : ∀ (u : State), Memory.wf u.mem = true → Memory.wf (if t.taskDone then applyStep (capDown u) else u).mem = true := by
    intro u hu; split <;> simpa using hu
  have h5 := h4 _ (h3 _ (h2 (takeResults t.verify (meetPoison (overrunEvents t (countTick t (captureTick t.unfinished s))))) servo
    (by simpa using h)))
  rw [tapeCheck_mem, stopRunIfStopped_mem, tickTask_mem, droverJobs_mem, sendRate_mem]
  refine porterSettle_wf _ ?_
  rw [droverPart_mem, publishThermal_mem, linkTick_mem]
  exact transfers_wf _ h5
@[simp] theorem tickWork_wf (servo after : Bool) (t : TickInput) (s : State) (hwf : Memory.wf s.mem = true) :
    Memory.wf (tickWork servo after t s).mem = true := by
  unfold tickWork; (repeat' split) <;> simp_all

end Sys2Proof.Laws
end

