-- ==== Sys2Proof/Machine/ReadRegs.lean ====
section
/-! DEFINITION. What a read of each register of BAR0 returns (18 Table 18-1 and the register tables of 01 to 18). A paired
field reads as its value in force, never its shadow (18 R450); a WO field and a reserved field read 0 (00 R11); a read that 18
R448 does not refuse and that touches no register returns 0. A read without a side effect is no command of the table; the two
reads that have one (CPH_CQ_POP, WH_MB_POP) are commands of their own. -/

namespace Sys2Proof.Machine

/-- A field of a register: its lowest bit, its width and its value, cut to the width. -/
def fieldAt (lo width v : Nat) : Nat := v % 2 ^ width * 2 ^ lo

def flagAt (bit : Nat) (b : Bool) : Nat := fieldAt bit 1 (boolNat b)

/-- PENDING and ERR of a COMMIT register (Table 11-10). -/
def commitReg (c : Commit) : Nat := flagAt 1 c.pending + flagAt 2 c.err

/-! ### SYS (01 Tables 1-2, 1-3, 17 Tables 17-9 to 17-13) -/

def readUnit (u : Nat) (s : State) : Nat :=
  let x := s.sys.units.getD u .zero
  fieldAt 0 2 x.state + fieldAt 8 8 x.cause + fieldAt 16 32 x.transient

def readSys (o : Nat) (s : State) : Nat :=
  let y := s.sys
  if o = 0x0 then
    flagAt 0 y.ready + flagAt 1 y.replaying + flagAt 2 y.replayPosted + flagAt 3 y.fatal + fieldAt 4 4 y.coresUp.toNat
      + fieldAt 32 16 y.replayLeft
  else if o = 0x8 then fieldAt 0 3 y.kind + flagAt 3 y.unclean + fieldAt 4 4 y.source
  else if o = 0x100 then y.tickCount.toNat
  else if o = 0x108 then flagAt 0 y.synth + fieldAt 1 5 y.step + fieldAt 8 20 y.lastPeriod
  else if 0x200 ≤ o ∧ o < 0x300 then readUnit ((o - 0x200) / 8) s
  else if o = 0x300 then
    fieldAt 0 4 y.faulted.toNat + fieldAt 4 4 y.lasting.toNat + fieldAt 8 2 y.tickCore + fieldAt 10 2 y.mgtCore
  else 0

/-! ### HIF (02 Tables 2-7 to 2-9) -/

/-- Granules of the HDM window that are marked written. -/
def hdmGranules (s : State) : Nat := (s.mem.written.filter fun g => g < 0x400000).length

def readHif (o : Nat) (s : State) : Nat :=
  let h := s.hif
  if o = 0x0 then linkStatus h
  else if o = 0x10 then
    fieldAt 0 26 h.logOffset + fieldAt 26 4 h.logSize + flagAt 30 h.logWrite + flagAt 31 h.logOverflow + flagAt 63 h.logValid
  else if o = 0x20 then
    fieldAt 4 28 (if h.committed then h.hdmSize / hdmUnit else 0) + fieldAt 32 16 (hdmGranules s / 1000)
      + fieldAt 48 15 h.poison + flagAt 63 h.locked
  else 0

/-! ### CMD (03 Tables 3-4 to 3-16, 18 Tables 18-5 to 18-9) -/

/-- BASE and CFG of a ring. -/
def ringReg (k : Nat) (r : RingCfg) : Nat :=
  if k = 0 then r.base.toNat else flagAt 0 r.en + fieldAt 4 5 r.sizeLog2 + fieldAt 9 4 r.burst

def vectorReg (vector : Nat) (en : Bool) : Nat := fieldAt 0 8 vector + flagAt 8 en

def readSq (n k : Nat) (s : State) : Nat :=
  let r := s.cmd.subRings.getD n .reset
  if k < 2 then ringReg k r.cfg else if k = 2 then r.tail else r.head

def readCq (n k : Nat) (s : State) : Nat :=
  let r := getCq n s
  if k < 2 then ringReg k r.cfg else if k = 2 then r.head else if k = 3 then r.tail else vectorReg r.vector r.vecEn

def readEvq (k : Nat) (s : State) : Nat :=
  let r := s.cmd.evt
  if k < 2 then ringReg k r.cfg else if k = 2 then r.head else if k = 3 then r.tail else vectorReg r.vector r.vecEn

def readGroup (g k : Nat) (s : State) : Nat :=
  match s.cmd.groups[g]? with
  | none => 0
  | some x => if k = 0 then x.status.toNat else if k = 1 then x.mask.toNat else vectorReg x.vector x.vecEn

/-- Bit g: CMD_EVG_STATUS_g is not zero. -/
def groupSummary : Nat → List EventGroup → Nat
  | _, [] => 0
  | g, x :: t => flagAt g (x.status != 0) + groupSummary (g + 1) t

def readCmd (o : Nat) (s : State) : Nat :=
  let c := s.cmd
  if o < 0x1000 then readSq (o / 0x40) (o % 0x40 / 8) s
  else if o < 0x2000 then readCq ((o - 0x1000) / 0x40) (o % 0x40 / 8) s
  else if o < 0x2040 then readEvq ((o - 0x2000) / 8) s
  else if o = 0x2100 then flagAt 1 c.commitPending + fieldAt 2 8 c.errRing + flagAt 10 c.commitErr
  else if o = 0x3018 then ctrStatus s
  else if o = 0x3108 then fieldAt 0 2 c.abortResult
  else if o = 0x3200 then journalStatus s
  else if o = 0x3300 then flagAt 0 c.compatT4 + flagAt 1 c.compatActive
  else if 0x4000 ≤ o ∧ o < 0x4500 then readGroup ((o - 0x4000) / 0x20) (o % 0x20 / 8) s
  else if o = 0x4800 then groupSummary 0 c.groups
  else 0

/-! ### CTX, PKR, CPH, FMT (04 Table 4-2, 05 Tables 5-8 to 5-10, 06 Tables 6-7 to 6-10, 07 Tables 7-8 to 7-10) -/

def readCtx (o : Nat) (s : State) : Nat :=
  if o = 0 then
    fieldAt 0 13 s.ctx.lines.length + fieldAt 13 13 ((s.ctx.pins.map (·.2)).eraseDups).length
      + flagAt 26 (!s.ctx.waiting.isEmpty) + fieldAt 32 32 s.ctx.misses
  else 0

/-- Counters that stand one after another from an offset. -/
def counterAt (base o : Nat) (l : List Nat) : Nat := if o < base then 0 else l.getD ((o - base) / 8) 0

/-- The busy bits of the Packer's lanes: a block takes no time in the model, so no lane is busy between two commands. -/
def readPkr (o : Nat) (s : State) : Nat :=
  let p := s.pkr
  if o = 0 then fieldAt 16 8 p.cDegraded.toNat + fieldAt 24 8 p.dDegraded.toNat + fieldAt 32 7 p.chained.length
  else if 0x100 ≤ o ∧ o < 0x150 then
    let l := p.levels.getD ((o - 0x100) / 8) { depth := 0, window := 0, lazyEval := 0 }
    fieldAt 0 11 l.depth + fieldAt 16 5 l.window + fieldAt 24 2 l.lazyEval
  else counterAt 0x200 o [p.inBytes, p.outBytes, p.rawBlocks, p.reencoded, p.selfErrs, p.decodeErrs]

/-- REASON of CPH_STATUS. -/
def limitedReason (s : State) : Nat :=
  if s.cph.testing then 2 else if s.cph.recovery then 3 else if s.cph.starting then 1 else 0

/-- One bit for each element of a list. -/
def bitsOf {α : Type} (p : α → Bool) : Nat → List α → Nat
  | _, [] => 0
  | n, x :: t => flagAt n (p x) + bitsOf p (n + 1) t

/-- Words of a cipher completion (06 Table 6-6). -/
def doneWord (d : CipherDone) (k : Nat) : Nat :=
  if k = 0 then fieldAt 0 8 d.result + fieldAt 8 3 d.lane + flagAt 11 d.limited + fieldAt 12 4 d.suspends
  else if k = 1 then d.iv.toNat % 2 ^ 64
  else if k = 2 then d.iv.toNat / 2 ^ 64
  else d.cookie.toNat

def readCph (o : Nat) (s : State) : Nat :=
  let c := s.cph
  if o = 0 then
    flagAt 0 (!limitedPhase s) + fieldAt 1 2 (limitedReason s) + flagAt 3 c.ceilErr
      + fieldAt 4 8 (bitsOf (fun l : Lane => l.job.isSome) 0 c.lanes) + fieldAt 12 8 c.degraded.toNat
      + fieldAt 32 19 ((c.ctxSlots.filter fun p => decide (p.2.use = .active)).length)
  else if o = 0x8 then fieldAt 0 32 s.mram.inst.toNat + flagAt 32 (s.mram.inst == s.mram.fused)
  else if o = 0x10 then ceilNow s
  else if 0x260 ≤ o ∧ o < 0x280 then
    match c.popped with
    | some d => doneWord d ((o - 0x260) / 8)
    | none => 0
  else if o < 0x200 then counterAt 0x100 o [c.drawn, c.burnt, c.tagFails, c.selfErrs, c.suspends]
  else 0

def readFmt (o : Nat) (s : State) : Nat :=
  let f := s.fmt
  if o = 0 then
    fieldAt 0 2 s.cart.cm + fieldAt 2 2 ((loadedCart s).elim 0 cmFormat) + fieldAt 4 3 ((loadedCart s).elim 0 cmPartitions)
      + flagAt 7 s.cart.dirty + flagAt 8 f.run.isSome + fieldAt 9 2 (f.run.elim 0 (·.partition))
      + fieldAt 16 16 (s.cart.wrap.getD 0xFFFF)
  else if o = 0x8 then fieldAt 0 48 f.nextSeq
  else counterAt 0x100 o [f.datasets, f.eodDatasets, f.earlyCloses, f.dirSpills, f.fillSlots]

/-! ### TEC, VFY, HLK (08 Tables 8-5, 8-6, 10 Tables 10-9 to 10-12, 09 Tables 9-4 to 9-8, 11 Tables 11-8 to 11-13) -/

def readTec (o : Nat) (s : State) : Nat :=
  let t := s.tec
  if o = 0 then
    fieldAt 0 4 t.verifyIter + fieldAt 4 6 t.readIter + fieldAt 10 3 t.outer + flagAt 13 t.c3Read + flagAt 14 t.frozen
      + fieldAt 16 16 t.ratioLow + fieldAt 32 2 s.fmt.c3Groups.length + fieldAt 34 4 t.stepLog2
  else if o = 0x20 then
    flagAt 0 t.rdActive + fieldAt 1 4 t.rdPass + fieldAt 8 5 t.buffers.length + flagAt 16 t.c3Active
  else if o = 0x28 then t.rdFault.toNat
  else if o = 0x30 then fieldAt 0 32 t.rdFaultSfn
  else if o < 0x200 then
    counterAt 0x100 o
      [t.c1VerifyFail, t.c1ReadFail, t.c1Miscorrect, t.c2Symbols, t.c2Overrule, t.subsetFail, t.c3Recovered, t.c3Fail]
  else counterAt 0x200 o
    [t.rdDatasets, t.rdSuperseded, t.rdCopies, t.rdRetries, t.rdRetryOk, t.rdPasses, t.rdMediaErr, t.rdUnneeded]

def marginReg (m : Margin) : Nat :=
  fieldAt 0 4 m.iterMax + fieldAt 4 11 m.flipsMax + fieldAt 15 11 m.weakMax + fieldAt 26 10 m.wholeMin
    + fieldAt 36 7 m.suspectMin

def readVfy (o : Nat) (s : State) : Nat :=
  let v := s.vfy
  if o = 0 then
    fieldAt 0 2 v.excluded.length + flagAt 2 v.disabled
      + fieldAt 4 10 (min 1023 (v.failedCws.filter fun f => f.flight.isNone && (findActive f.seq s).any isAlive).length)
      + fieldAt 14 3 (s.fmt.active.filter fun d => d.ds.rewritten && !d.written).length
      + fieldAt 17 3 (s.fmt.active.filter fun d => isAlive d && isVerified d && d.ds.kind != 2).length
  else if o = 0x8 then exclMask s
  else if o = 0x10 then marginReg v.margin
  else if o = 0x18 then commitReg v.commit
  else counterAt 0x100 o [v.cwFirst, v.cwFail, v.cwMargin, v.copies, v.copyFail, v.whole, v.lasting]

def readHlk (o : Nat) (s : State) : Nat :=
  let h := s.hlk
  if o = 0 then hlkStatus s
  else if o = 0x8 then fieldAt 0 4 h.cfg.crcLimit + fieldAt 8 4 h.cfg.windowLog2 + fieldAt 16 12 h.cfg.recur
  else if o = 0x10 then commitReg h.commit
  else if o = 0x20 then h.h64Id.toNat
  else if 0x100 ≤ o then counterAt 0x100 o (h.lanes.map laneReg)
  else 0

/-! ### DRV and its monitor (12 Tables 12-6 to 12-9, 13 Tables 13-10 to 13-12) -/

/-- A signed field. -/
def signedAt (lo width : Nat) (x : Int) : Nat := fieldAt lo width (toTwos width x)

def limitReg (l : Nat × Int) : Nat := fieldAt 0 24 l.1 + signedAt 24 6 l.2

def loopReg (o : Nat) (l : Loop) : Nat :=
  let c := l.cfg
  if o = 0x00 then
    flagAt 0 c.eager + fieldAt 1 4 c.nsec + fieldAt 5 4 c.intSec + flagAt 9 c.fbNeg + signedAt 10 6 c.inExp
      + fieldAt 16 8 c.fbSrc + fieldAt 24 8 c.sink + fieldAt 32 8 c.spSrc
  else if o = 0x08 then fieldAt 0 2 l.modeReq + fieldAt 2 2 l.mode + flagAt 4 l.bump + signedAt 8 24 l.manOut
  else if o = 0x10 then signedAt 0 24 c.outMin + signedAt 24 24 c.outMax
  else if o = 0x18 then fieldAt 0 24 c.feLimit + fieldAt 24 16 c.feTime + fieldAt 40 2 c.feAction
  else if o = 0x20 then fieldAt 0 2 c.kind
  else if o = 0x28 then limitReg c.vmax
  else if o = 0x30 then limitReg c.amax
  else if o = 0x38 then limitReg c.jmax
  else if o = 0x40 then signedAt 0 24 (l.targetNext.getD l.target)
  else if o = 0x48 then
    signedAt 0 24 l.output + flagAt 24 l.sat + flagAt 25 l.clamp + flagAt 26 l.missing + flagAt 27 l.overrun
      + fieldAt 28 2 l.ovrRun + fieldAt 32 16 l.feCount + flagAt 48 l.feTripped
  else if o = 0x50 then signedAt 0 48 l.sp
  else 0

def sectionReg (k : Nat) (x : Section) : Nat :=
  match k with
  | 0 => signedAt 0 24 x.b0
  | 1 => signedAt 0 24 x.b1
  | 2 => signedAt 0 24 x.b2
  | 3 => signedAt 0 24 x.a1
  | 4 => signedAt 0 24 x.a2
  | 5 => signedAt 0 6 x.exp
  | 6 => signedAt 0 24 x.x1 + signedAt 24 24 x.x2
  | _ => signedAt 0 24 x.y1 + signedAt 24 24 x.y2

/-- The registers of a loop: its own, and from 0x100 those of its sections. -/
def readLoop (n o : Nat) (s : State) : Nat :=
  let l := getLoop n s
  if o < 0x100 then loopReg o l else sectionReg (o % 0x40 / 8) (l.sections.getD ((o - 0x100) / 0x40) .zero)

def sensorBits : Nat → List Sensor → Nat
  | _, [] => 0
  | k, x :: t => if k < 7 then fieldAt (2 * k) 2 x.state + sensorBits (k + 1) t else 0

def readMon (o : Nat) (s : State) : Nat :=
  let m := s.mon
  if o = 0x200 then
    sensorBits 0 m.sensors + flagAt 14 m.lock + flagAt 15 m.inhibit + fieldAt 16 5 m.inhSrc.toNat + fieldAt 21 3 m.safeCause
  else if o = 0x208 then fieldAt 0 16 m.radiusA + fieldAt 16 16 m.radiusB + fieldAt 32 32 m.kSquare
  else if o = 0x210 then
    fieldAt 0 8 m.cfg.stuckTicks + fieldAt 8 8 m.cfg.agree + fieldAt 16 8 m.cfg.tenAgree + fieldAt 24 8 m.cfg.releaseTicks
      + fieldAt 32 16 m.cfg.offtrackNm
  else if o = 0x218 then commitReg m.commit
  else 0

def readDrv (o : Nat) (s : State) : Nat :=
  let d := s.drv
  if o = 0 then flagAt 0 d.safeStop + fieldAt 8 24 d.busyLast + fieldAt 32 24 d.busyMax
  else if o = 0x8 then commitReg d.commit + fieldAt 3 6 d.errLoop
  else if o = 0x10 then fieldAt 0 5 d.speedLoop + flagAt 5 d.speedEn
  else if o < 0x200 then counterAt 0x100 o [d.overruns, d.sats, d.missingCnt, d.transfers, d.feTrips]
  else if o < 0x1000 then readMon o s
  else readLoop ((o - 0x1000) / 0x400) (o % 0x400) s

/-! ### SPM, PRT, MEM (13 Tables 13-6 to 13-9, 14 Tables 14-10 to 14-17) -/

/-- CAP_SRC: the terms of R348 that bind, from bit 15. A term at 24 does not bind (log entry 33). -/
def capSource (s : State) : Nat :=
  let cap := spmCap s
  let binds := fun (x : Nat) => x == cap && decide (x < 24)
  flagAt 15 (binds (linkCap s)) + flagAt 16 (binds s.spm.thermalCap) + flagAt 17 (binds (iterCap s))
    + flagAt 18 (binds (sensorCap s)) + flagAt 19 (binds s.spm.commandCap) + flagAt 20 (binds s.spm.cfg.maxStep)
    + flagAt 21 s.drv.safeStop

def readSpm (o : Nat) (s : State) : Nat :=
  let p := s.spm
  let c := p.cfg
  if o = 0 then
    fieldAt 0 5 s.sys.step + fieldAt 5 5 p.chosen + fieldAt 10 5 (if linkUp s then spmCap s else 0x1F) + capSource s
      + fieldAt 22 2 p.mode + flagAt 24 p.runWait + fieldAt 32 8 (min 255 (fillOf s))
  else if o = 0x8 then fieldAt 0 32 (p.rIn.getD 0 / 1000000) + fieldAt 32 32 (p.rOut.getD 0 / 1000000)
  else if o = 0x10 then
    fieldAt 0 5 p.thermalCap + fieldAt 5 5 (linkCap s) + fieldAt 10 5 (iterCap s) + fieldAt 15 5 (sensorCap s)
      + fieldAt 20 5 p.commandCap
  else if o = 0x18 then
    fieldAt 0 5 c.maxStep + fieldAt 8 4 c.headroom + fieldAt 12 3 c.hyst + fieldAt 16 8 c.fLow + fieldAt 24 8 c.fHigh
      + fieldAt 32 8 c.fRestart + fieldAt 40 5 c.hLow + fieldAt 45 5 c.hHigh
  else if o = 0x20 then commitReg p.commit
  else counterAt 0x100 o [p.stepChanges, p.runStops, p.capDowns]

def poolReg (p : Pool) : Nat := fieldAt 0 16 p.free + fieldAt 16 16 p.minFree + fieldAt 32 16 p.low

def refuseReg (e : RefuseEntry) : Nat :=
  fieldAt 0 8 e.caller + fieldAt 8 16 e.gen + fieldAt 24 16 e.index + fieldAt 40 2 e.pool + fieldAt 42 3 e.op
    + fieldAt 45 4 e.reason + flagAt 63 e.valid

def readPrt (o : Nat) (s : State) : Nat :=
  let p := s.prt
  if o = 0 then fieldAt 0 8 (min 255 p.waiting.length) + flagAt 8 p.carry + fieldAt 16 16 s.mram.prtEpoch
  else if o < 0x100 then counterAt 0x10 o (p.pools.map poolReg)
  else if o < 0x200 then counterAt 0x100 o [p.allocs, p.fallbacks, p.noBuffer, p.refusals]
  else if o < 0x300 then counterAt 0x200 o (p.refuseLog.map refuseReg)
  else if o = 0x308 then p.fwArg.toNat
  else if o = 0x310 then p.fwResult.toNat
  else 0

def readMem (o : Nat) (s : State) : Nat :=
  let m := s.mem
  if o = 0 then
    flagAt 0 m.ready + fieldAt 1 5 (m.retiredPc.getD 0) + flagAt 6 m.retiredPc.isSome + fieldAt 7 5 (m.retrainPc.getD 0)
      + flagAt 12 m.retrainPc.isSome + flagAt 13 m.degraded
  else if o < 0x200 then counterAt 0x100 o [m.sramCe, m.sramUe, m.hbmCe, m.hbmUe, m.poisonMerges, m.scrubFixes]
  else if o = 0x200 then flagAt 1 m.armed + fieldAt 2 2 m.flip.cls + flagAt 4 m.flip.isMatch + flagAt 5 m.armErr
  else if o = 0x208 then m.flip.addr
  else if o < 0x238 then (m.flip.masks.getD ((o - 0x210) / 8) 0).toNat
  else m.flipDone

/-! ### THM, PWR (15 Tables 15-5 to 15-16) -/

def classReg (c : ThmCfg) : Nat :=
  signedAt 0 12 c.throttle + signedAt 12 12 c.crit + fieldAt 24 8 c.hyst + fieldAt 32 12 c.rate

def thmSensorReg (x : ThmSensor) : Nat :=
  fieldAt 0 12 (temp12 x.raw) + fieldAt 16 12 (temp12 x.eff) + signedAt 32 12 x.rate + fieldAt 44 2 x.state

def readThm (o : Nat) (s : State) : Nat :=
  let t := s.thm
  if o = 0 then thmStatus s
  else if o = 0x8 then bitsOf (fun x : ThmSensor => x.state != 0) 0 t.sensors
  else if o < 0x38 then counterAt 0x20 o (t.cfg.classes.map classReg)
  else if o = 0x38 then fieldAt 0 3 t.cfg.downSteps + fieldAt 8 8 t.cfg.downMs + fieldAt 16 16 t.cfg.upMs
  else if o = 0x40 then commitReg t.commit
  else if o < 0x300 then counterAt 0x100 o (t.sensors.map thmSensorReg)
  else counterAt 0x300 o [t.downs, t.failures, t.critEntries]

def readPwr (o : Nat) (s : State) : Nat :=
  let a := s.aon
  if o = 0 then pwrStatus s
  else if o = 0x8 then a.time
  else if o = 0x10 then fieldAt 0 16 s.pwr.idleDelay
  else if o = 0x20 then
    flagAt 0 a.cartPresent + flagAt 1 a.slack + flagAt 2 a.supplyOk + fieldAt 4 2 (min 3 (recentTrips s).length)
      + flagAt 6 a.tripLatch + flagAt 7 a.supplyLatch + flagAt 8 a.autoOff
  else if o = 0x120 then a.trips
  else counterAt 0x100 o s.pwr.entries

/-! ### WH mailbox, MGT (16 Tables 16-11 to 16-14, 18 Table 18-10) -/

def readWh (o : Nat) (s : State) : Nat :=
  let w := s.wh
  if o = 0 then whStatus s
  else if o = 0x8 then w.lastTsn
  else if o = 0x10 then s.mram.nextTsn - 1
  else if o = 0x18 then whQueue s
  else if o = 0x20 then w.time
  else if o = 0x28 then fieldAt 0 16 w.bad + fieldAt 16 16 w.gap + fieldAt 32 16 w.dup
  else if o = 0x108 then flagAt 0 w.rx.isSome + flagAt 1 w.romPhase + fieldAt 2 10 (w.rx.elim 0 (·.length - 1))
  else if 0x2000 ≤ o then leNat (slice (w.rx.getD []) (o - 0x2000) 8)
  else if o < 0x1000 then counterAt 0x200 o [w.sent, w.resent, w.lostFrames, w.unavailCnt]
  else 0

def readMgt (o : Nat) (s : State) : Nat :=
  let m := s.mgt
  if o = 0 then
    fieldAt 0 7 (m.dynAddr.getD 0) + flagAt 7 m.dynAddr.isSome + fieldAt 8 8 (m.eid.getD 0) + flagAt 16 m.eid.isSome
      + flagAt 17 (m.lastMsg.any fun t => !passedMs t s.aon.time 1000) + flagAt 18 m.copyStale
  else counterAt 0x100 o [m.rxMsgs, m.txMsgs, m.dropped]

/-! ### A read -/

/-- The value of the register that begins at an offset. -/
def registerValue (a : Nat) (s : State) : Word :=
  let o := a % 0x100000
  wd (match a / 0x100000 with
    | 0x0 => readSys o s
    | 0x1 => readHif o s
    | 0x2 => readCmd o s
    | 0x3 => readCtx o s
    | 0x4 => readPkr o s
    | 0x5 => readCph o s
    | 0x6 => readFmt o s
    | 0x7 => readTec o s
    | 0x8 => readVfy o s
    | 0x9 => readHlk o s
    | 0xA => readDrv o s
    | 0xB => readSpm o s
    | 0xC => readPrt o s
    | 0xD => readMem o s
    | 0xE => readThm o s
    | 0xF => readPwr o s
    | 0x10 => readWh o s
    | 0x11 => readMgt o s
    | _ => 0)

/-- What the host's read of an offset returns: none where 00 R9 refuses it (all ones, by MMIO_ACCESS_REFUSED); all ones in L3
outside the host island (15 R396); 0 where no register stands (18 R448). From 0x400_0000 on stand BAR2, BAR4 and
configuration space, where none is a request answered with CRS. -/
def hostRead (offset size : Nat) (s : State) : Option Word :=
  if 0x4000000 ≤ offset then outsideRead offset size s
  else if unreachable offset s then some (BitVec.allOnes 64)
  else if !touchesRegister offset size then some 0
  else if exactAccess offset size && !firmwareOnly offset then some (registerValue offset s)
  else none

end Sys2Proof.Machine
end

