-- ==== Sys2Proof/WellFormed.lean ====
section
/-! DEFINITION. Operands within the ranges that spec/ gives them: a command is well formed when a sender could issue it. -/

namespace Sys2Proof

/-- Rings of a kind (03 R62). -/
abbrev ringCount : Nat := 64

/-- An aligned MMIO access of 1, 2, 4 or 8 bytes (02 Table 2-8). -/
def accessWf (offset size : Nat) : Bool := [1, 2, 4, 8].contains size && offset + size ≤ 0x4000000

/-- A register write: within BAR0, or at an offset that the model gives the registers outside it (log entry 25). -/
def writeWf (offset size : Nat) : Bool := [1, 2, 4, 8].contains size && offset + size ≤ 0x4040000

/-- A head-link lane (11 R284). -/
def linkLaneWf (l : Nat) : Bool := l < 16

/-- An owner ID (14 Table 14-6). -/
def ownerWf (o : Nat) : Bool := (1 ≤ o && o ≤ 10) || (0x10 ≤ o && o ≤ 0x13)

/-- Samples have 6 bits, 11,520 to a codeword slot (08 R214). -/
def Reading.wf : Reading → Bool
  | .clean => true
  | .samples _ r => r.length ≤ 11520 && r.all fun x => -32 ≤ x && x ≤ 31

/-- A slot of a dataset: 128 on each of 64 tracks. -/
def SlotReading.wf (x : SlotReading) : Bool := x.slot < 128 && x.track < 64 && x.reading.wf

/-- A tick's inputs: sensors within Table 13-4, loops within Table 12-1. -/
def tickWf (t : TickInput) : Bool :=
  t.servoCh.length == 4 && t.unfinished.all (· < 32) && t.verify.all (fun v => v.track < 64 && v.reading.wf)

/-- The operands of a command lie in their ranges. -/
def Instr.wf : Instr → Bool
  | .powerOn => true
  | .coldRstN => true
  | .sysResetCtrlWarm => true
  | .sysResetCtrlCold => true
  | .warmReset _ => true
  | .coldResetStopEnd _ => true
  | .startUpSequence b _ =>
    b.digest0.length == 48 && b.digest1.length == 48 && b.digest2.length == 48 && b.digest3.length == 48
  | .replayOpenCommands => true
  | .replayReportPosted => true
  | .thermalTrip _ => true
  | .tripRestart _ => true
  | .supplyLoss => true
  | .whRstN => true
  | .weighhousePowerOn _ => true
  | .linkNegotiation o => 1 ≤ o.rate && o.rate ≤ 5 && [1, 2, 4, 8, 16].contains o.width
  | .busMasterEnable => true
  | .hdmDecoderCommit _ _ iw _ => iw < 16
  | .cxlMemRead hpa => hpa % 64 == 0
  | .memWr hpa d => hpa % 64 == 0 && d.length == 64
  | .memWrPtl hpa d => hpa % 64 == 0 && d.length == 64
  | .cxlSnoop l => l % 64 == 0
  | .atsInvalidate a n _ => a % 4096 == 0 && 4096 ≤ n
  | .doeRequest v d p => v < 2 ^ 16 && d < 2 ^ 8 && p.length % 4 == 0
  | .doeAbort => true
  | .ideIntegrityFail _ _ _ => true
  | .ideKeysEstablished _ => true
  | .ideKeyTimeout _ _ => true
  | .msixUnmask v => v < 256
  | .mmioAccessRefused o n _ => accessWf o n
  | .registerWrite o n _ => writeWf o n
  | .cmdSqTailWrite r v => r < ringCount && v < 2 ^ 12
  | .sqEntryFetch r ws => r < ringCount && ws.length ≤ 16
  | .cmdCqHeadWrite r v => r < ringCount && v < 2 ^ 12
  | .cmdEvqHeadWrite v => v < 2 ^ 16
  | .cmdRingCommitWrite => true
  | .cmdCtrSopWrite _ => true
  | .cmdCtrDataWrite _ => true
  | .flush => true
  | .clrCounts => true
  | .journalTake _ => true
  | .journalEntryDurable _ => true
  | .journalSlotFreed _ => true
  | .cmdAbortWrite _ => true
  | .abortRecorded => true
  | .cmdCompatWrite _ => true
  | .evgStatusClear g _ _ => g < 40
  | .managementPacket ws => ws.length ≤ 16
  | .unitReport u st => u < 32 && st < 4
  | .mgtEidAssigned e a => e < 256 && a < 128
  | .nop _ => true
  | .nopDelayExpiry _ => true
  | .identify _ => true
  | .getStatus _ => true
  | .setWakeTolerance _ => true
  | .load _ _ => true
  | .unload _ _ => true
  | .rewind _ _ => true
  | .locate _ _ => true
  | .space _ _ => true
  | .formatPartitions _ => true
  | .openContext _ => true
  | .closeContext _ => true
  | .setContextProfile _ => true
  | .setContextKey _ => true
  | .writeRecords _ _ => true
  | .writeFilemarks _ => true
  | .sync _ => true
  | .readRecords _ ts => ts.all fun t => t.lane < 8
  | .verifyRange _ ts => ts.all fun t => t.lane < 8
  | .readOverflow _ _ => true
  | .getLog _ => true
  | .clearLog _ => true
  | .ledgerRead _ => true
  | .meterStatement _ => true
  | .pkrEstimate _ _ _ => true
  | .pkrSetLevel _ => true
  | .pkrDecode _ _ _ => true
  | .fmtDatasetInfo _ => true
  | .fmtCmAccess _ b => b.length ≤ 16384
  | .tecSetDecode _ => true
  | .tecTrackQuality _ => true
  | .tecSetDetector _ => true
  | .tecCapture _ _ => true
  | .tecCaptureTimeout _ _ => true
  | .tecC1Encode _ _ => true
  | .drvSetSection _ => true
  | .drvSetMode _ => true
  | .drvMove _ _ => true
  | .drvMoveTimeout _ _ => true
  | .drvCapture _ => true
  | .diagSafeStop _ => true
  | .diagCipherSelftest _ _ _ => true
  | .diagUnitOffline _ => true
  | .diagUnitOnline _ => true
  | .diagClearRetirement _ => true
  | .diagReset _ => true
  | .thermalLimitTimeout _ _ => true
  | .epochWaitTimeout _ _ => true
  | .servoTick t => tickWf t
  | .syntheticTick t => tickWf t
  | .servoMeasurementPost _ _ => true
  | .dacWriteDone => true
  | .safeStopEnd _ => true
  | .safeStopRetry f _ => f.all (· < 7)
  | .servoLoss _ => true
  | .servoLossTimeout _ _ => true
  | .drvCommitWrite => true
  | .drvCoefWrite l c r _ => l < 32 && c < 8 && r < 8
  | .drvModeWrite l _ => l < 32
  | .drvTargetWrite l _ => l < 32
  | .drvMonCommitWrite => true
  | .spmCommitWrite => true
  | .vfyCommitWrite => true
  | .hlkCommitWrite => true
  | .thmCommitWrite => true
  | .hlkLaneRetrain l => linkLaneWf l
  | .hlkLaneRetire l => linkLaneWf l
  | .hlkLinkTraining _ => true
  | .samples f => f.lane < 12
  | .servo f => f.lane < 12
  | .status f => f.lane < 12
  | .reply f => f.lane < 12
  | .ident f => f.lane < 12
  | .blockLockLoss l => l < 12
  | .reorderTimeout l _ _ => l < 12
  | .laneRetrainDone _ _ => true
  | .pkrBlockEncoded _ l => l < 8
  | .pkrSelfcheck _ l _ _ => l < 8
  | .pkrBlockDecoded _ l _ _ _ _ l2 => l < 8 && l2 < 8
  | .formatterPlaceBlock _ l _ _ => l < 8
  | .datasetIdleClose _ => true
  | .writingRunStart _ _ => true
  | .cmStatusWrite => true
  | .datasetRelease => true
  | .releaseRecordDurable _ => true
  | .cphRqPush d => d.length == 8
  | .cphRqCancel _ => true
  | .cphCqPop => true
  | .cphRequestComplete l _ => l < 8
  | .ceilRaiseDurable => true
  | .cphInstanceWrite _ => true
  | .subdatasetDecode _ k _ _ l => k < 16 && l.all SlotReading.wf
  | .c3Decode _ k => k < 16
  | .readAutoRetry _ _ l => l.all SlotReading.wf
  | .recoveryPass _ _ l => l.all SlotReading.wf
  | .alloc o _ _ => ownerWf o
  | .share o _ n => ownerWf o && ownerWf n
  | .release o _ => ownerWf o
  | .transfer o _ d => ownerWf o && ownerWf d
  | .free o _ => ownerWf o
  | .patrolScrub hbm a => a < (if hbm then 0x600000000 else 0x4000000)
  | .pcRetrainDone _ _ => true
  | .arm _ => true
  | .thermalSample n _ _ => n < 33
  | .thmSensorLasting n _ => n < 33
  | .throttleEvaluation _ => true
  | .thermalStop _ => true
  | .idleEntry _ => true
  | .wakeTrigger _ => true
  | .wake => true
  | .wakeComplete _ => true
  | .cartPresenceChange _ => true
  | .tapeSlack _ => true
  | .tallyFrameReceive _ => true
  | .tallyResendTimeout _ => true
  | .whStatusPublish _ _ => true
  | .whUnavailable _ => true
  | .whRetryExpiry _ => true
  | .formationBlockTimeout _ => true
  | .extend n d => n < 4 && d.length == 48
  | .close => true
  | .ledgerGet _ n => n ≤ 4096
  | .statement r => r.firstTenant + r.count ≤ 4096
  | .spdm _ _ => true
  | .getMeasurements _ n => n < 256
  | .ideKm _ _ => true
  | .markRead _ => true
  | .send => true
  | .romExit => true
  | .whMbPop => true
  | .sysCoreKick c _ => c < 4
  | .coreWatchdogExpiry c _ => c < 4
  | .coreRetryDone c _ _ => c < 4
  | .servoFrameDetected _ => true
  | .whTimeCheckpoint => true
  | .whSupplyLoss => true
  | .mctpSpdmRequest t _ => t == 5 || t == 6
  | .hostRecordFetch _ _ _ => true

end Sys2Proof
end

