-- ==== Sys2Proof/Tests/Slice0.lean ====
section
/-! SUPPORT. Tests of the model on small states: worked values of spec/, ill-formed operands that the well-formedness check refuses,
and, for every statement of Certificates/Slice0/Obligations.lean with hypotheses, values that meet them. -/

open Sys2Proof Sys2Proof.Machine Sys2Proof.Safety

namespace Sys2Proof.Tests

set_option Elab.async false

/-! ### Small states -/

/-- The FILL block of 100 bytes of 7, as it stands in a frame (05 Table 5-2). -/
def hundred : List Byte := [0xAD, 0x22, 0, 0, 100, 0, 0, 0, 1, 0, 0, 0, 0x12, 0x0B, 0x8C, 0x44, 7]

/-- A dataset of one record of 100 bytes, number 0, in one clear frame. -/
def oneRecord : Dataset :=
  { seq := 1, kind := 0, partition := 0, closedEarly := true, rewritten := false, truncate := false, c3On := false, dirSpill := false
    wrap := 0, bootEpoch := 3, sfn := 0, serial := 0, firstItem := 0
    items := [{ kind := 1, length := 100, starts := true, block := 0, offset := 0, stream := true }], entries := 1
    userBytes := 65, contBytes := 0, apOffset := some 0, apBlock := 0, apRecord := 0, apRecOffset := 0, originSeq := 0, c3Group := 0
    c3Index := 0, c3Members := 0, cont := [], copies := [], sources := []
    frames := [{ alg := 0, limited := false, label := 0, ivInst := 0, ivCount := 0, tenant := 0, record := 0, offset := 0, access := true,
                 ctLen := 17, bytes := hundred, tag := List.replicate 16 0, inLen := 100 }] }

/-- A formatted data cartridge of one partition that holds that dataset. -/
def tape : Cartridge := { cm := [(32, 0x82), (36, 100), (0x100, 2), (0x101, 1), (0x112, 208)], chain := [oneRecord] }

/-- The device running: CXL mode, link and tape usable, the Weighhouse SEALED, `tape` loaded, context 5 open. -/
def up : State :=
  { State.reset with
    sys := { State.reset.sys with phase := .running, coresUp := 15 }
    hif := { State.reset.hif with mode := 1, busMaster := true, memEn := true }
    mem := { State.reset.mem with ready := true }
    hlk := { State.reset.hlk with state := 2 }
    wh := { State.reset.wh with avail := 1, lifecycle := 1, epochValid := true, epoch := 3 }
    whd := { State.reset.whd with powered := true, lifecycle := 1 }
    aon := { State.reset.aon with supplyOk := true, cartPresent := true }
    fmt := { State.reset.fmt with placeEnd := [1, 0, 0, 0], durableEnd := [1, 0, 0, 0], nextSeq := 2 }
    ctx := { State.reset.ctx with records := [(5, { Context.zero with isOpen := true, level := 3 })] }
    cart := { State.reset.cart with inDrive := some tape, threaded := true, cm := 1, loaded := true, wrap := some 0 } }

/-- A packet's journal entry, JSN 7. -/
def cmd (ws : List Nat) : JournalEntry :=
  { jsn := 7, source := 0, sqIndex := 0, words := ws.map wd, reserved := false, slot := .valid }

def run (p : RunPhase) : RunInfo :=
  { jsn := 7, phase := p, list := [], announced := true, retried := false, untrusted := false, since := 0, done := 0, final := none,
    grant := none, first := none, replayed := false }

/-- The packet is the one command in flight. -/
def give (ws : List Nat) (p : RunPhase) (s : State) : State :=
  { s with jrn := { s.jrn with entries := [cmd ws], runs := [run p], nextJsn := 8 } }

def readyOf (ws : List Nat) (s : State) : Bool := ready (ws.getD 0 0 % 256) 7 (cmd ws) (run .accepted) (give ws .accepted s)

def startedOf (ws : List Nat) (s : State) : Bool :=
  decide (started (ws.getD 0 0 % 256) 7 (give ws .started s) = some (cmd ws, run .started))

/-- The state that a command leaves. -/
def after (c : Instr) (s : State) : State :=
  match exec c s with
  | .next t => t
  | _ => s

/-! ### Hypotheses of the statements that concrete values meet, one conjunct for each clause -/

theorem witness_StepKeepsMemoryCanonical : MemoryInv State.reset ∧ CeilInv State.reset ∧ ∃ t, step State.reset = .next t :=
  ⟨(by decide : Memory.wf State.reset.mem = true), ⟨by decide +kernel, fun _ h => (by cases h)⟩, _, rfl⟩

theorem witness_ReportAndLogCommandsAnswer :
    readyOf [0x02, 0x1000] up = true ∧ readyOf [0x03] up = true ∧ readyOf [0x40, 0x1000, 0x4000] up = true
    ∧ readyOf [0x01, 5] up = true ∧ entryExpert (cmd [0x01, 5]) = false
    ∧ readyOf [0x8001, 5, 3] up = true ∧ entryExpert (cmd [0x8001, 5, 3]) = true ∧ bits (pktWord (cmd [0x8001, 5, 3]) 2) 0 32 ≠ 0
    ∧ startedOf [0x8001, 5, 3] { up with sys := { up.sys with tickCount := 3 } } = true
    ∧ readyOf [0x41, 2] up = true ∧ bits (pktWord (cmd [0x41, 2]) 1) 0 8 = 2 := by decide

theorem witness_ContextCommandsSetTheRecord :
    readyOf [0x20, 5] up = true ∧ writesOpen (some 5) 7 (begun 7 (cmd [0x20, 5]) (give [0x20, 5] .accepted up)) = false
    ∧ readyOf [0x20, 6] up = true ∧ (getCtx 6 up).isOpen = false ∧ readyOf [0x21, 6] up = true
    ∧ readyOf [0x21, 5] up = true ∧ (getCtx 5 up).isOpen = true ∧ readyOf [0x8021, 5, 1] up = true
    ∧ readyOf [0x23, 5] up = true := by decide

/-- Context slot 5 with a pending area of JSN 7. -/
def keyed (p : PendingKey) : State :=
  { up with cph := { up.cph with ctxSlots := [(5, { KeySlot.none with pending := p })] } }

theorem witness_SetContextKeyLoads :
    readyOf [0x22, 5] (keyed (.clear 7)) = true ∧ keyTarget (cmd [0x22, 5]).words = (false, 5)
    ∧ (getSlot (false, 5) (keyed (.clear 7))).pending = .clear 7 ∧ writesOpen (some 5) 7 (keyed (.clear 7)) = false
    ∧ readyOf [0x22, 5] (keyed (.key 7 1 [2])) = true ∧ (getSlot (false, 5) (keyed (.key 7 1 [2]))).pending = .key 7 1 [2]
    ∧ readyOf [0x22, 5] (keyed (.wrapped 7 1 8 [] 0 0 0)) = true ∧ unwrapKey 8 [] 0 0 0 (keyed (.wrapped 7 1 8 [] 0 0 0)) = none
    ∧ pendingJsn (getSlot (false, 5) up).pending ≠ some 7 := by decide

/-- Transport slot 1 with the key 0, and the tag that GCM gives 32 bytes of 0 under it. -/
def transported : State :=
  { up with cph := { up.cph with devSlots := [(1, { KeySlot.none with use := .active })] } }

def zeroTag : List Byte := gcmTag (keyBytes 0) (leBytes 12 0) [] (keyBytes 0)

theorem test_zeroTag_length : zeroTag.length = 16 := by decide +kernel

/-- A wrapped key whose tag is right is unwrapped. -/
theorem witness_SetContextKeyUnwraps : ∃ k, unwrapKey 1 [] 0 (BitVec.ofNat 128 (leNat zeroTag)) 0 transported = some k := by
  have e : leBytes 16 (BitVec.ofNat 128 (leNat zeroTag)).toNat = zeroTag := by
    have h := leNat_lt zeroTag
    rw [test_zeroTag_length] at h
    rw [BitVec.toNat_ofNat, Nat.mod_eq_of_lt (by simpa using h)]
    have := leBytes_leNat zeroTag
    rwa [test_zeroTag_length] at this
  have k : slotKey (true, 1) transported = keyBytes 0 := rfl
  have u : (getSlot (true, 1) transported).use ≠ .empty := by decide
  have w : wordBytes [] = [] := rfl
  unfold unwrapKey gcmOpen
  rw [if_neg u, k, e, w]
  exact ⟨_, by rw [if_pos (by unfold zeroTag; rfl)]; rfl⟩

/-- A chained buffer with handle 9, of whose three bytes n can be read. -/
def chained (n : Nat) : State :=
  { up with pkr := { up.pkr with chained := [{ handle := 9, bufs := [9], ctx := 5, bytes := [1, 2, 3], truncated := true, bad := []
                                               taken := 0, sound := some n }] } }

theorem witness_ReadOverflowMovesBytes :
    readyOf [0x3A, 9, 0x1000, 2] (chained 3) = true
    ∧ (∀ n ∈ [1, 2, 3], ((chained n).pkr.chained.find? fun c => c.handle == 9).map soundBytes = some n)
    ∧ min (bits (pktWord (cmd [0x3A, 9, 0x1000, 2]) 3) 0 32) 3 = 2 ∧ readyOf [0x3A, 9, 0x1000, 2] (chained 1) = true
    ∧ startedOf [0x3A, 9, 0x1000, 2] (chained 3) = true
    ∧ readyOf [0x3A, 9, 0x1000, 2] up = true ∧ (up.pkr.chained.find? fun c => c.handle == 9) = none := by decide +kernel

theorem witness_PositionCommandsMove :
    readyOf [0x12, 5] up = true ∧ tapeReady up = true ∧ loadedCart up = some tape ∧ (getCtx 5 up).partition < cmPartitions tape
    ∧ readyOf [0x13, 5, 1] up = true ∧ eodOf 0 up = 1 ∧ readyOf [0x13, 5, 2] up = true
    ∧ readyOf [0x8013, 5, 1, 0x20] up = true ∧ noMotion (cmd [0x8013, 5, 1, 0x20]) = true ∧ noMotion (cmd [0x13, 5, 1]) = false
    ∧ readyOf [0x13, 0x100005, 1] up = true ∧ cmPartitions tape ≤ bits (pktWord (cmd [0x13, 0x100005, 1]) 1) 20 2
    ∧ readyOf [0x14, 5, 1] up = true ∧ readyOf [0x14, 0x200005, 1] up = true ∧ readyOf [0x14, 5, 0] up = true
    ∧ startedOf [0x12, 5] up = true ∧ retireFree (give [0x12, 5] .started up) = true ∧ tapeDown up = false ∧ tapeHeld up = false := by
  decide +kernel

def notLoaded (c : Option Cartridge) : State :=
  { up with cart := { Cart.reset with inDrive := c, threaded := c.isSome } }

theorem witness_LoadUnloadAndFormat :
    readyOf [0x10] up = true ∧ up.cart.loaded = true ∧ up.cart.cm ≠ 3
    ∧ readyOf [0x10] (notLoaded none) = true ∧ tapeReady (notLoaded none) = true
    ∧ (readyOf [0x11] up = true ∧ up.fmt.run = none)
    ∧ (readyOf [0x15, 1] up = true ∧ up.wh.epochValid = true ∧ mediaType tape ≠ 0x81)
    ∧ readyOf [0x15, 1] { up with cart := { up.cart with inDrive := some { tape with cm := [(32, 0x81)] } } } = true
    ∧ mediaType { tape with cm := [(32, 0x81)] } = 0x81 := by decide

theorem witness_FormatReports :
    readyOf [0x78, 5, 0, 0x1000] up = true ∧ (findItem (chainOf tape 0) 0).isSome = true
    ∧ readyOf [0x78, 5, 1, 0x1000] up = true ∧ eodOf 0 up ≤ 1 ∧ readyOf [0x79, 0x100000, 0x1000] up = true
    ∧ readyOf [0x79, 0x100100000, 0x1000] up = true := by decide

/-- The command of `cmd` as a start finds it in the journal, with what it took before. -/
def replayedRun : RunInfo := { run .accepted with replayed := true, grant := some (3, 3, false, 0) }

theorem witness_WriteCommandsStart :
    readyOf [0x30, 5] up = true ∧ tapeReady up = true ∧ up.vfy.disabled = false ∧ formBlockedLong up = false ∧ isBlank tape = false
    ∧ mediaType tape ≠ 0x81 ∧ (grantOf (cmd [0x30, 5]) (run .accepted) up).2.2.2 < cmPartitions tape
    ∧ refetched (cmd [0x30, 5]) (run .accepted) none = some []
    ∧ atPosition (cmd [0x30, 5]) = false ∧ partitionBusy 0 7 (give [0x30, 5] .accepted up) = false
    ∧ (let s := { up with jrn := { up.jrn with entries := [cmd [0x30, 5, 0x1000, 1]], runs := [replayedRun], nextJsn := 8 } }
       ready opWriteRecords 7 (cmd [0x30, 5, 0x1000, 1]) replayedRun s = true ∧ hostReachable s = true
       ∧ refetched (cmd [0x30, 5, 0x1000, 1]) replayedRun none = none
       ∧ refetched (cmd [0x30, 5, 0x1000, 0]) replayedRun (some []) = some [])
    ∧ readyOf [0x32, 5] up = true ∧ writesOpen (some 5) 7 (give [0x32, 5] .accepted up) = false
    ∧ up.fmt.writes = [] ∧ up.fmt.opened = none ∧ up.fmt.closed = [] ∧ up.fmt.c3Groups = []
    ∧ readyOf [0x31, 5, 0] up = true ∧ syncAll (cmd [0x31, 5, 0]) = false ∧ readyOf [0x31, 5, 2] up = true := by decide +kernel

/-- A cartridge never formatted, its first page valid. -/
def blank : Cartridge := cmPage 0 (List.replicate 32 0 ++ [0x82]) { cm := [], chain := [] }

theorem witness_LoadOfABlankCartridge :
    let s := { up with cart := { Cart.reset with inDrive := some blank } }
    readyOf [0x10] s = true ∧ tapeReady s = true ∧ s.cart.loaded = false ∧ s.aon.cartPresent = true ∧ s.cart.threaded = false
    ∧ (loadCart (dropHeld (begun 7 (cmd [0x10]) (give [0x10] .accepted s)))).1 = .ok := by decide +kernel

theorem witness_ReadsDeliverAndVerify :
    readyOf [0x38, 5] up = true ∧ readyOf [0x38, 0x100000005] { up with ctx := { up.ctx with
        records := [(5, { Context.zero with isOpen := true, level := 3, position := 1 })] } } = true
    ∧ readyOf [0x38, 0x100000005] up = true ∧ heldBack up = false ∧ readyOf [0x39, 5] up = true ∧ readyOf [0x39, 0x100000005] up = true := by decide

/-- The walk of a read of one record that fits its list ends with the record; so does the walk of VERIFY_RANGE. -/
theorem witness_readWalk_delivers :
    (let j := readJob (cmd [0x38, 0x100000005]) 100 [] tape up
     let r := readWalk j up 1 (startAcc 0)
     r.1 = .count ∧ r.2.n = 1 ∧ r.2.pos = 1 ∧ r.2.bytes = List.replicate 100 7 ∧ r.2.bad = [])
    ∧ (let j := readJob (cmd [0x39, 0x100000005]) 0 [] tape up
       let r := verifyWalk j up 1 { n := 0, pos := 0, seqs := [], frames := [] }
       r.1 = .count ∧ r.2.n = 1) := by decide +kernel

theorem witness_LedgerAndStatementCommands :
    readyOf [0x48, 0x1000] up = true ∧ up.wh.avail = 1 ∧ whServes up = true ∧ readyOf [0x49, 0x1000, 1] up = true
    ∧ readyOf [0x48, 0x1000] { up with wh := { up.wh with avail := 2 } } = true
    ∧ readyOf [0x49, 0x1000, 1] { up with wh := { up.wh with avail := 2 } } = true := by decide

theorem witness_PackerCommandsAnswer :
    readyOf [0x70, 0, 0x300000004] up = true ∧ readyOf [0x71, 3] up = true ∧ readyOf [0x72, 0, 0, 0x1000] up = true
    ∧ readyOf [0x71, 7] { up with cmd := { up.cmd with compatActive := true } } = true ∧ 6 < bits (pktWord (cmd [0x71, 7]) 1) 0 4 := by
  decide

theorem witness_TecCommandsAndCapture :
    readyOf [0x7A, 8] up = true ∧ readyOf [0x7C, 1] up = true ∧ readyOf [0x7B, 0x1000] up = true ∧ readyOf [0x7E, 0, 0x1000] up = true
    ∧ readyOf [0x7D, 0, 0x1000, 1] up = true ∧ startedOf [0x7D, 0, 0x1000, 1] up = true
    ∧ passedMs 0 (max up.aon.time (15625 * 1000)) 10000 = true := by decide

theorem witness_DroverCommands :
    readyOf [0x60, 1] up = true ∧ unitState unDrover up = 0 ∧ tapeReady up = true ∧ tapeReady (atTime 9 up) = true ∧ readyOf [0x61, 0x201] up = true ∧ readyOf [0x62, 1] (atTime 9 up) = true
    ∧ startedOf [0x62, 0x100000001] up = true ∧ bits (pktWord (cmd [0x62, 0x100000001]) 1) 32 16 = 1 ∧ passedMs 0 15625 1 = true
    ∧ readyOf [0x63, 1, 0x1000, 0] up = true ∧ readyOf [0x63, 1, 0x1000, 3] up = true := by decide

theorem witness_DiagFunctions :
    readyOf [0x7F, 1] up = true ∧ diagFunction (cmd [0x7F, 1]).words = 1 ∧ readyOf [0x7F, 2] up = true
    ∧ startedOf [0x7F, 2] up = true ∧ retireFree (give [0x7F, 2] .started up) = true ∧ diagFunction (cmd [0x7F, 2]).words = 2
    ∧ up.fmt.run = none
    ∧ readyOf [0x7F, 0x603] up = true ∧ unitBusy 6 7 (give [0x7F, 0x603] .accepted up) = false
    ∧ (diagUnit (cmd [0x7F, 0x603]).words < unCore0 ∨ unCore0 + 3 < diagUnit (cmd [0x7F, 0x603]).words)
    ∧ diagUnit (cmd [0x7F, 3 + unCore0 * 256]).words = unCore0 ∧ readyOf [0x7F, 3 + unCore0 * 256] up = true
    ∧ unitBusy unCore0 7 (give [0x7F, 3 + unCore0 * 256] .accepted up) = false
    ∧ readyOf [0x7F, 0x604] up = true ∧ readyOf [0x7F, 5] up = true ∧ readyOf [0x7F, 6] up = true
    ∧ diagFunction (cmd [0x7F, 6]).words = 6 := by decide

theorem witness_ToleranceAndTimeouts :
    readyOf [0x08, 200] up = true
    ∧ (let s := give [0x12, 5] .waiting { up with thm := { up.thm with stopped := true } }
       findEntry s 7 = some (cmd [0x12, 5]) ∧ findRun s 7 = some (run .waiting) ∧ retireFree s = true ∧ usesTape (cmd [0x12, 5]) = true
       ∧ isWriteLike (cmd [0x12, 5]) = false ∧ findWrite 7 s = none ∧ passedMs (max 0 (s.thm.critFrom.getD 0)) (max 0 93750000) 60000 = true)
    ∧ (let s := give [0x30, 5] .waiting { up with wh := { up.wh with epochValid := false } }
       findEntry s 7 = some (cmd [0x30, 5]) ∧ findRun s 7 = some (run .waiting) ∧ retireFree s = true ∧ s.wh.epochValid = false
       ∧ isWriteOp (entryOp (cmd [0x30, 5])) = true ∧ firmwareRuns s = true ∧ findWrite 7 s = none
       ∧ passedMs s.sys.readyAt (max 0 15625000) 10000 = true) := by decide

/-- Keys of the CXL.io stream lost at time 0. -/
def insecureIo : State := { up with hif := { up.hif with ideIo := { state := .insecure, failAt := 0, epoch := [] } } }

/-- Rings of 16 entries: submission ring 1 with two entries before the tail, completion ring 1 with three to release, and an event ring. -/
def ringed : State :=
  let cfg : RingCfg := { base := 0, en := true, sizeLog2 := 4, burst := 0 }
  { up with cmd := { up.cmd with
      subRings := up.cmd.subRings.modify 1 fun r => { r with cfg := cfg, tail := 2 }
      cplRings := up.cmd.cplRings.modify 1 fun r => { r with cfg := cfg, tail := 3 }
      evt := { up.cmd.evt with cfg := cfg, tail := 1 } } }

theorem witness_CommitAndCompatWrites :
    mmioOpen up ∧ mmioOpen (notLoaded none) ∧ ¬ mmioOpen insecureIo
    ∧ ((1 : Word).getLsbD 0 ≠ (notLoaded none).cmd.compatT4 ∧ (notLoaded none).cart.loaded = false
      ∧ ∀ p ∈ ({ notLoaded none with ctx := Ctx.reset } : State).ctx.records, p.2.isOpen = false)
    ∧ ((1 : Word).getLsbD 0 ≠ up.cmd.compatT4 ∧ up.cart.loaded = true)
    ∧ (0 : Word).getLsbD 0 = up.cmd.compatT4 := by
  unfold mmioOpen
  decide +kernel

theorem witness_DoorbellsAndFetch :
    mmioOpen ringed
    ∧ (ringed.cmd.subRings[1]?).map (fun r => (r.cfg.en, r.cfg.sizeLog2, r.cfg.base, r.head, r.tail)) = some (true, 4, 0, 0, 2)
    ∧ (15 : Nat) < 16 ∧ (16 : Nat) ≤ 16 ∧ 2 ≤ ringSpan 16 0 2 ∧ hostRangeOk 0 64 = true
    ∧ (ringed.cmd.subRings[63]?).map (·.cfg.en) = some false
    ∧ (ringed.cmd.cplRings[1]?).map (fun r => (r.cfg.en, r.cfg.sizeLog2, r.head, r.tail)) = some (true, 4, 0, 3)
    ∧ ringSpan 16 0 3 ≤ ringSpan 16 0 3 ∧ ringSpan 16 0 3 < ringSpan 16 0 4
    ∧ ringed.cmd.evt.cfg.en = true ∧ ringed.cmd.evt.cfg.sizeLog2 = 4 ∧ ringed.cmd.evt.head = 0 ∧ ringed.cmd.evt.tail = 1
    ∧ ringSpan 16 0 1 ≤ ringSpan 16 0 1 ∧ ringSpan 16 0 1 < ringSpan 16 0 2
    ∧ firmwareRuns ringed = true ∧ ringed.hif.busMaster = true ∧ pathOpen ringed = true :=
  ⟨(by decide : ringed.hif.ideIo.state ≠ .insecure), by and_intros <;> decide +kernel⟩

/-- The Counter with n staged words, the last k of an open packet. -/
def counted (n k : Nat) : State :=
  { up with cmd := { up.cmd with counter := { up.cmd.counter with
      stages := List.replicate n 0x1002, openWords := k, state := if k = 0 then .idle else .opened } } }

theorem witness_CounterFollowsItsTable :
    mmioOpen (counted 0 0) ∧ mmioOpen (counted 3 1) ∧ (counted 0 0).cmd.counter.state ≠ .opened ∧ pktLen 0x201 = 2 ∧ pktLen 0x1001 = 16 ∧ pktLen 0x101 = 1 ∧ pktLen 0x1101 = 17
    ∧ (counted 63 0).cmd.counter.stages.length < 64 ∧ 64 ≤ (counted 64 0).cmd.counter.stages.length
    ∧ (counted 3 1).cmd.counter.state = .opened ∧ (committedWords (counted 3 1).cmd.counter).length < 64
    ∧ (counted 64 1).cmd.counter.state = .opened ∧ 64 ≤ (counted 64 1).cmd.counter.stages.length := by
  unfold mmioOpen
  decide +kernel

theorem witness_StatusBitSetInClearingCycle : (up.cmd.groups[39]?).isSome = true := by decide

theorem witness_JournalTakeEntersPackets :
    (let s := { up with cmd := { up.cmd with mgtQueue := [[0x201, 5].map wd] } }
     firmwareRuns s = true ∧ s.sys.toReport = [] ∧ (takePacket s).2 = some (65, { words := [0x201, 5].map wd, index := 0 }))
    ∧ (takePacket up).2 = none ∧ pktOp (([0x622, 5].map wd).getD 0 0) = opSetKey ∧ pktLen (([0x622, 5].map wd).getD 0 0) = 6 := by decide

theorem witness_JournalSlotsFollowMram :
    (∃ e, findEntry { up with jrn := { up.jrn with entries := [{ cmd [0x201] with slot := .writing }] } } 7 = some e ∧ e.slot = .writing)
    ∧ (∃ e, findEntry { up with jrn := { up.jrn with entries := [{ cmd [0x201] with slot := .freeing }] } } 7 = some e ∧ e.slot = .freeing)
    ∧ findEntry up 7 = none := ⟨⟨_, rfl, rfl⟩, ⟨_, rfl, rfl⟩, rfl⟩

theorem witness_AbortIsRecordedFirst :
    up.cmd.abortResult ≠ 1
    ∧ (let s := give [0x01, 5] .accepted { up with cmd := { up.cmd with abortResult := 1, abortJsn := 7 } }
       abortable 7 s = some (cmd [0x01, 5], run .accepted) ∧ s.jrn.retire.length < 16383
       ∧ (s.jrn.retire.filter fun w => w.state == 1).length < 8192)
    ∧ abortable 8 (give [0x01, 5] .accepted up) = none ∧ abortable 7 (give [0x12, 5] .unretired up) = none := by decide

theorem witness_ManagementPortMessages :
    unitState 31 up = 0 % 4 ∧ unitState 31 up ≠ 7 % 4 ∧ hostUp up = true ∧ up.wh.avail = 1
    ∧ ({ up with wh := { up.wh with avail := 2 } } : State).wh.avail ≠ 1 := by decide

/-- The frame of the worked example of chapter 16: TSN 198,209, tenants 17 and 512. -/
def exampleFrame : List Byte :=
  let body : List Byte := [0x41, 0x06, 0x03, 0, 0, 0, 0, 0, 0x40, 0x2C, 0x01, 0, 0, 0, 0x04, 0x02, 0xB7, 0x04, 0, 0, 0x11, 0, 0x40, 0x11, 0x43, 0,
    0, 0x02, 0x40, 0xED, 0x34, 0] ++ List.replicate 28 0
  body ++ leBytes 4 (crc32c body)

/-- A Weighhouse whose LAST_TSN is n, with the meters of the example. -/
def metered (n : Nat) : State :=
  { up with
    wh := { up.wh with link := [parseFrame exampleFrame] }
    whd := { up.whd with copyA := { StateWord.first with lastTsn := n, seqNo := 9 }
                         meters := [(17, { Meter.zero with count := 1234567890123 }), (512, { Meter.zero with count := 88000000000 })] } }

/-- The example's frame is what the fields of the example make, and it moves the meters as the example says. -/
theorem test_tally_example :
    frameBody { tsn := 198209, seq := 0x12C40, partition := 0, last := true, epoch := 0x4B7, bad := false
                entries := [(17, 4395328), (512, 3468608)] } = exampleFrame.take 60
    ∧ (tabGet .zero (after (.tallyFrameReceive exampleFrame) (metered 198208)).whd.meters 17).count = 1234572285451
    ∧ (tabGet .zero (after (.tallyFrameReceive exampleFrame) (metered 198208)).whd.meters 512).count = 88003468608
    ∧ (stateWord (after (.tallyFrameReceive exampleFrame) (metered 198208))).datasets = 1 := by decide +kernel

/-- A second copy counts as DUP and changes no meter; a cut frame counts as BAD (the example's steps 2 and 5). -/
theorem test_tally_dup_and_bad :
    (after (.tallyFrameReceive exampleFrame) (metered 198209)).whd.dup = 1
    ∧ (after (.tallyFrameReceive exampleFrame) (metered 198209)).whd.meters = (metered 198209).whd.meters
    ∧ (after (.tallyFrameReceive (exampleFrame.take 40)) (metered 198208)).whd.bad = 1 := by decide +kernel

theorem witness_TallyFramesMeteredOnceInOrder :
    whServes (metered 198208) = true ∧ (metered 198208).wh.link ≠ [] ∧ frameCrcOk exampleFrame = true ∧ frameFieldsOk exampleFrame = true
    ∧ (parseFrame exampleFrame).tsn = (stateWord (metered 198208)).lastTsn + 1
    ∧ (parseFrame exampleFrame).tsn ≤ (stateWord (metered 198209)).lastTsn
    ∧ (stateWord (metered 198207)).lastTsn + 1 < (parseFrame exampleFrame).tsn ∧ frameCrcOk (exampleFrame.take 40) = false := by
  decide +kernel

theorem witness_OnlyTalliesChangeMeters :
    let s := { metered 198208 with pending := [.tallyFrameReceive exampleFrame] }
    ∃ t, step s = .next t ∧ t.whd.meters ≠ s.whd.meters := ⟨_, rfl, by decide +kernel⟩

theorem witness_InstanceChangesOnlyByItsWrite :
    let s := { up with mram := { up.mram with inst := 1 }, pending := [.cphInstanceWrite 2] }
    ∃ t, step s = .next t ∧ t.mram.inst ≠ s.mram.inst := ⟨_, rfl, by decide⟩

theorem witness_JsnsRiseByOne : ∃ t, step up = .next t := ⟨_, rfl⟩

/-- The current boot's ledger entry with k stages. -/
def booted (k : Nat) : State :=
  { up with whd := { up.whd with ledger := [{ epoch := 3, timeOpen := 0, timeClose := 0, timeEnd := 0, state := 0
                                              stages := List.replicate k (List.replicate 48 0), start := 0, endCause := 0, prevHash := []
                                              signature := [] }] } }

theorem witness_MailboxServesLedgerAndMeters :
    whServes (booted 0) = true ∧ (booted 0).wh.romPhase = decide (0 ≤ 1)
    ∧ (∃ e, currentEntry (booted 0) = some e ∧ e.state = 0 ∧ 0 = e.stages.length ∧ e.stages.length ≠ 4)
    ∧ (∃ e, currentEntry (booted 4) = some e ∧ e.state = 0 ∧ e.stages.length = 4 ∧ e.epoch ≠ 0xFFFFFFFF)
    ∧ 4095 + 1 ≤ 4096 ∧ 4096 < 4096 + 1 := ⟨by decide, by decide, ⟨_, rfl, by decide⟩, ⟨_, rfl, by decide⟩, by decide⟩

/-- WH_MB_TX with a message of a type. -/
def posted (ty : Nat) : State := { up with wh := { up.wh with tx := leBytes 2 ty ++ leBytes 2 4 ++ [0, 0, 0, 0] } }

theorem witness_MailboxSpdmAndRegisters :
    spdmSupported 0x01 = false ∧ byteAt [0x12, 0x84] 1 = 0x84 ∧ byteAt [0x12, 0xE3] 1 = 0xE3 ∧ up.whd.spdmDoe ≠ 2
    ∧ (∀ ty ∈ [1, 2, 3, 4, 5, 6, 0, 7], leNat (slice (posted ty).wh.tx 0 2) = ty)
    ∧ ({ up with whd := { up.whd with lifecycle := 2 } } : State).whd.lifecycle = 2 := by decide

/-- A message of zeros of a type and length in WH_MB_TX, over a ledger entry of k stages. -/
def sending (ty n k : Nat) : State :=
  { booted k with wh := { (booted k).wh with tx := leBytes 2 ty ++ leBytes 2 n ++ List.replicate n 0 } }

theorem witness_SendCompletes :
    (let s := sending 1 49 0
     let c := ((padTo 1024 s.wh.tx).drop 4).take (leNat (slice s.wh.tx 2 2))
     whServes s = true ∧ leNat (slice s.wh.tx 0 2) = 1 ∧ byteAt c 0 = 0 ∧ s.wh.romPhase = true
     ∧ (currentEntry s).map (fun e => (e.state, e.stages.length)) = some (0, 0))
    ∧ (let s := sending 2 0 4
       leNat (slice s.wh.tx 0 2) = 2 ∧ (currentEntry s).map (fun e => (e.state, e.stages.length)) = some (0, 4)
       ∧ (currentEntry s).map (fun e => decide (e.epoch ≠ 0xFFFFFFFF)) = some true)
    ∧ (∀ ty ∈ [3, 4, 5, 6, 7, 0], leNat (slice (sending ty 24 0).wh.tx 0 2) = ty)
    ∧ (statementOf (leNat (List.replicate 8 0)) (List.replicate 16 0)).firstTenant
        + (statementOf (leNat (List.replicate 8 0)) (List.replicate 16 0)).count ≤ 4096 := by decide +kernel

theorem witness_WeighhouseStartsAndIsWatched :
    (let s := { up with whd := { up.whd with powered := false } }
     s.whd.powered = false ∧ ∀ p ∈ s.whd.meters, p.2.tsn ≤ (stateWord s).lastTsn ∧ p.2 ≠ .zero)
    ∧ up.whd.powered = true ∧ dieUp up = true ∧ up.wh.avail < 2 ∧ passedMs up.wh.lastStatus (max 0 15625) 10 = true
    ∧ passedMs 0 (max 0 1562500) 1000 = true
    ∧ ({ up with mram := { up.mram with tallies := [parseFrame exampleFrame] } } : State).mram.tallies ≠ []
    ∧ formBlockedLong (atTime 93750000 { up with wh := { up.wh with avail := 3, blocked := true, blockedAt := some 0 } }) = true := by
  decide +kernel

theorem witness_ThirdTripWaitsForPowerOn :
    let s := { up with aon := { up.aon with tripTimes := [1, 2], time := 3 } }
    s.sys.phase ≠ .off ∧ 1 ∈ s.aon.tripTimes ∧ 2 ∈ s.aon.tripTimes ∧ 2 < max s.aon.time 5625000000
      ∧ (max s.aon.time 5625000000 - 1) * 640 < 3600000000000 := by decide

/-- The die off after a trip, or without one. -/
def dieOff (tripped : Bool) : State :=
  { up with sys := { up.sys with phase := .off }, aon := { up.aon with tripped := tripped } }

theorem witness_PowerEventsAndStarts :
    up.sys.phase ≠ .off ∧ (dieOff true).sys.phase = .off ∧ (dieOff true).aon.tripped = true ∧ (dieOff true).aon.autoOff = false
    ∧ (dieOff false).aon.tripped = false := by decide

theorem witness_ResetsLeaveStateOfTables :
    (let s := { up with sys := { up.sys with ready := true } }
     s.sys.phase = .running ∧ s.sys.ready = true ∧ s.sys.step = 0x1F ∧ s.mon.speed = 0 ∧ s.aon.coreEn = true)
    ∧ up.sys.ready = false ∧ ({ up with sys := { up.sys with ready := true, step := 0 } } : State).sys.step ≠ 0x1F
    ∧ ({ up with aon := { up.aon with coreEn := false } } : State).aon.coreEn = false
    ∧ (let s := { up with sys := { up.sys with phase := .coldStop }, mon := { up.mon with slowFrom := some 0 } }
       s.sys.phase = .coldStop ∧ s.mon.slowFrom = some 0 ∧ passedMs 0 (max s.aon.time 156250) 100 = true
       ∧ passedMs s.sys.stopBegan (max s.aon.time 3437500) 2200 = true) := by decide

theorem witness_StartUpAndReplay :
    (let s := { up with sys := { up.sys with phase := .stepOne } }
     s.sys.phase = .stepOne ∧ whServes s = true ∧ (stateWord s).nextEpoch ≠ 0xFFFFFFFF)
    ∧ (let s := { up with jrn := { up.jrn with entries := [cmd [0x12, 5]], runs := [{ run .accepted with replayed := true }] } }
       firmwareRuns s = true ∧ findEntry s 7 = some (cmd [0x12, 5]) ∧ findRun s 7 = some { run .accepted with replayed := true }
       ∧ s.jrn.retire.length + s.jrn.entries.length ≤ 16384 ∧ s.sys.kind ≠ 2)
    ∧ (let s := give [0x12, 5] .accepted { up with sys := { up.sys with kind := 2 } }
       findRun s 7 = some (run .accepted) ∧ abortRecordedFor s 7 = false ∧ s.sys.kind = 2 ∧ endsByReset (cmd [0x12, 5]) = false
       ∧ ∀ x ∈ (run .accepted).list, x.hdm = false)
    ∧ up.sys.replayPosted = false := by decide

theorem witness_HdmDecoderCommits :
    hostUp up = true ∧ up.hif.locked = false ∧ up.hif.mode = 1 ∧ 2 ^ 28 % 2 ^ 28 = 0 ∧ 2 ^ 34 % 2 ^ 28 = 0 ∧ 2 ^ 28 ≤ 2 ^ 34
    ∧ 2 ^ 34 ≤ 2 ^ 34 ∧ (2 ^ 28 - 1) % 2 ^ 28 ≠ 0 ∧ up.hif.memEn = true ∧ up.hif.ideCm.state ≠ .insecure ∧ up.mem.ready = true := by
  decide

theorem witness_HostLinkCommands :
    hostUp up = true ∧ up.sys.phase = .running ∧ State.reset.sys.phase ≠ .running ∧ hostUp State.reset = true
    ∧ ({ up with hif := { up.hif with locked := true } } : State).hif.locked = true ∧ up.hif.mode = 1
    ∧ tabGet false ({ up with hif := { up.hif with pba := [(255, true)] } } : State).hif.pba 255 = true ∧ up.hif.funcMask = false
    ∧ tabGet false up.hif.pba 255 = false ∧ up.hif.ideCm.state ≠ .insecure
    ∧ up.hif.ideIo.state ≠ .insecure ∧ translates 4096 64 up = true := by decide

/-- A write command that waits for its bytes from host memory: a record of 100 bytes, of which n have come. -/
def writing (n : Nat) : WriteRun :=
  { jsn := 7, ctx := 5, partition := 0, tenant := 3, level := 0, persist := false, subscribe := false, filemarks := 0, lens := [100]
    input := List.replicate n 7, encoded := 0, blocks := [], nextBlock := 0, placedBytes := 0, placedItems := 0, firstItem := none
    startEnd := 1, done := 0, marks := [], durable := 0, ending := none, carry := [], histFrom := 0, base := 0, badItem := none
    bufs := [], spent := none }

/-- That command at work, its list one entry of 100 bytes. -/
def atWrite (w : WriteRun) (s : State) : State :=
  { give [0x30, 5] .started s with
    fmt := { s.fmt with writes := [w] }
    jrn := { (give [0x30, 5] .started s).jrn with
      runs := [{ run .started with list := [{ address := 0x1000, hdm := false, length := 100, eor := true, rsvd := 0 }] }] } }

theorem witness_long_object : 65528 < (List.replicate 65529 (0 : Byte)).length := by
  rw [List.length_replicate]
  decide

theorem witness_DoeAndIde :
    up.sys.phase = .running ∧ [(1 : Byte)].length ≤ 65528 ∧ up.hif.doe.request = none
    ∧ up.wh.avail = 1 ∧ ({ up with wh := { up.wh with avail := 0 } } : State).wh.avail ≠ 1
    ∧ (ideOf .cachemem { up with hif := { up.hif with ideCm := { state := .secure, failAt := 0, epoch := [64] } } }).state = .secure
    ∧ hostUp up = true ∧ (ideOf .io insecureIo).state = .insecure ∧ passedMs (ideOf .io insecureIo).failAt (max 0 93750000) 60000 = true
    ∧ carriesFetches .io insecureIo = true ∧ carriesFetches .cachemem insecureIo = false
    ∧ hostFetching (atWrite (writing 40) insecureIo) = [7] ∧ (atWrite (writing 40) insecureIo).fmt.active = []
    ∧ retireFree (atWrite (writing 40) insecureIo) = true := by decide +kernel

theorem witness_RegisterAccesses :
    hostUp up = true ∧ unreachable 0x800010 up = false ∧ touchesRegister 0x800010 4 = true ∧ exactAccess 0x800010 4 = false
    ∧ exactAccess 0x800010 8 = true ∧ firmwareOnly 0x800010 = false ∧ up.hif.logValid = false ∧ up.pwr.state ≠ 4 := by decide +kernel

/-- HPA 2^28 and the 256 MiB after it mapped to DPA 0; granule 1 written. -/
def windowed : State :=
  { up with
    hif := { up.hif with committed := true, hdmBase := 2 ^ 28, hdmSize := 2 ^ 28 }
    mem := { up.mem with written := [1], hbmErr := [(0x1040, 0xFF)], hbmPoison := [0x1080], sramErr := [(8, 1)] } }

theorem witness_HdmLinesAndPartialWrites :
    hdmMap (2 ^ 28) windowed = some 0 ∧ hdmMap (2 ^ 29 - 64) windowed = some (2 ^ 28 - 64) ∧ windowed.mem.armed = false
    ∧ (0 / 4096 ∉ windowed.mem.written) ∧ hdmMap (2 ^ 28 + 0x1080) windowed = some 0x1080 ∧ 0x1080 / 4096 ∈ windowed.mem.written
    ∧ tabGet 0 windowed.mem.hbmErr 0x1080 = 0 ∧ tabGet 0 windowed.mem.hbmErr 0x10A0 = 0 ∧ 0x1080 ∈ windowed.mem.hbmPoison
    ∧ hdmMap (2 ^ 29) windowed = none ∧ hdmMap (2 ^ 28 - 64) windowed = none
    ∧ hdmMap (2 ^ 28 + 0x1000) windowed = some 0x1000 ∧ 0x1000 ∉ windowed.mem.hbmPoison := by decide +kernel

theorem witness_PatrolAndPseudoChannels :
    windowed.mem.ready = true ∧ 0x1040 / 4096 ∈ windowed.mem.written
    ∧ (∃ i v, hbmDecode (tabGet 0 windowed.mem.hbmErr 0x1040) = .corrected i v
        ∧ tabGet 0 windowed.mem.hbmErr 0x1040 = BitVec.ofNat 288 (v * 2 ^ (8 * i)))
    ∧ 0x1040 ∉ windowed.mem.hbmPoison ∧ tabGet 0 windowed.mem.hbmErr 0 = 0
    ∧ tabGet 0 windowed.mem.sramErr 8 = BitVec.ofNat 72 (2 ^ 0) ∧ 8 ∉ windowed.mem.sramPoison ∧ tabGet 0 windowed.mem.sramErr 0 = 0
    ∧ ({ up with mem := { up.mem with retrainPc := some 31 } } : State).mem.retiredPc = none ∧ up.mem.remapPc = none :=
  ⟨by decide, by decide, ⟨0, 0xFF, by decide +kernel, by decide +kernel⟩, by decide⟩

/-- The inputs of an edge that ends a tick of a length. -/
def edge (period : Nat) : TickInput :=
  { period := period, at_ := 9, verify := [], overruns := [], sources := [], unfinished := [], encA := (0, 0), encB := (0, 0)
    tensionEst := 0, servoCh := [none, none, none, none], stripes := none, passed := 1, wrap := 0, taskDone := true }

theorem witness_TicksCountAndTransfer :
    (let s := { up with sys := { up.sys with synth := false }, mon := { up.mon with lock := true } }
     s.sys.phase = .running ∧ s.pwr.state ≠ 4 ∧ s.sys.synth = false ∧ s.mon.lock = true ∧ (edge 160000).period ≤ 160000
     ∧ (edge 160000).taskDone = true)
    ∧ 160000 < (edge 160001).period ∧ up.mon.lock = false
    ∧ ({ up with sys := { up.sys with phase := .coldStop } } : State).sys.phase = .coldStop ∧ up.pwr.state ≠ 4 := by decide

theorem witness_ServoLockLossAndSafeStop :
    up.sys.synth = true ∧ up.sys.phase ≠ .off ∧ ({ up with sys := { up.sys with synth := false } } : State).sys.synth = false
    ∧ ({ up with mon := { up.mon with lock := true } } : State).mon.lock = true ∧ up.mon.lock = false
    ∧ (let s := { up with mon := { up.mon with lossAt := some 0 } }
       s.mon.lossAt = some 0 ∧ s.mon.lock = false ∧ passedMs 0 (max s.aon.time 312500) 200 = true ∧ s.fmt.run = none)
    ∧ (let s := { up with drv := { up.drv with safeStop := true }, mon := { up.mon with slowFrom := some 0 } }
       s.drv.safeStop = true ∧ s.sys.phase = .running ∧ passedMs 0 (max s.aon.time 156250) 100 = true)
    ∧ up.drv.safeStop = false ∧ ({ up with mon := { up.mon with stopped := true } } : State).mon.stopped = true
    ∧ up.mon.stopped = false := by decide

/-- Loop 31 eager, in MANUAL, its sink the DAC. -/
def eager : State :=
  { up with drv := { up.drv with loops := up.drv.loops.modify 31 fun l =>
      { l with mode := 1, cfg := { l.cfg with eager := true, sink := 3, fbSrc := 0, spSrc := 0, feTime := 0 } } } }

theorem witness_DroverRegistersAndEagerLoops :
    5 < 6 ∧ up.cmd.compatActive = false
    ∧ (let s := { up with cmd := { up.cmd with compatActive := true }, drv := { up.drv with loops := up.drv.loops.modify 0 fun l =>
        { l with mode := 2 } } }
       s.cmd.compatActive = true ∧ (getLoop 0 s).mode = 2)
    ∧ (getLoop 31 eager).cfg.eager = true ∧ (getLoop 31 eager).mode = 1 ∧ (getLoop 31 eager).cfg.fbSrc = 0
    ∧ (getLoop 31 eager).cfg.spSrc = 0 ∧ (getLoop 31 eager).cfg.feTime = 0 ∧ (getLoop 31 eager).cfg.sink = 3 ∧ eager.drv.dacQueue = []
    ∧ (eager.drv.loops.take 31).all (fun x => !x.cfg.eager || x.mode == 0) = true
    ∧ (let s := { up with drv := { up.drv with dacQueue := [(31, 5)] } }
       s.drv.dacQueue = (31, 5) :: [] ∧ ∀ p ∈ s.drv.waitPost, p.1 ≠ 31) := by decide

/-- A frame of an FTYPE that arrives on lane 11, with n data blocks of zeros. -/
def frameOf (ftype index n : Nat) : LinkFrame :=
  { lane := 11, before := 5, blocks := (scrambleAll 5 (frameBlocks ftype 2 0 index (List.replicate n 0))).1 }

theorem rowItems_frameOf (ftype index n : Nat) :
    rowItems (frameOf ftype index n) = (frameBlocks ftype 2 0 index (List.replicate n 0)).map fun p => blockItem true p.1 p.2 :=
  readBlocks_scrambleAll true _ 5

/-- What the device makes of it: the frame with its number of data blocks, and nothing with another number. -/
def taken (ftype index n : Nat) : Option (Nat × Nat × Nat × Nat) :=
  (acceptedFrame (rowItems (frameOf ftype index n))).map fun h => (h.ftype, h.source, h.index, h.data.length)

/-- Every lane active and locked, no gap behind. -/
def linked : State :=
  { up with hlk := { up.hlk with lanes := up.hlk.lanes.map fun l => { l with active := true, locked := true } } }

theorem witness_HeadLinkFrames :
    taken 1 320 30 = some (1, 2, 320, 30) ∧ taken 2 0 30 = some (2, 2, 0, 30) ∧ taken 3 0 4 = some (3, 2, 0, 4)
    ∧ taken 4 9 1 = some (4, 2, 9, 1) ∧ taken 5 0 1 = some (5, 2, 0, 1) ∧ taken 1 0 29 = none
    ∧ beginsFrame (rowItems (frameOf 1 0 29)) = true ∧ beginsFrame (rowItems { frameOf 1 0 0 with blocks := [] }) = false := by
  unfold taken
  rw [rowItems_frameOf, rowItems_frameOf, rowItems_frameOf, rowItems_frameOf, rowItems_frameOf, rowItems_frameOf]
  decide +kernel

theorem witness_HeadLinkFramesAndLanes :
    carries 11 up = false ∧ carries 11 linked = true ∧ linked.hlk.ahead = [] ∧ tabGet 0 linked.hlk.nextIndex 2 = 0
    ∧ tabGet 0 ({ linked with hlk := { linked.hlk with nextIndex := [(2, 1)] } } : State).hlk.nextIndex 2 ≠ 320 + 1
    ∧ tabGet 0 ({ linked with hlk := { linked.hlk with nextIndex := [(2, 1)] } } : State).hlk.nextIndex 2 ≠ 0
    ∧ (linked.hlk.lanes[11]?).isSome = true ∧ dblkOf 5 = some [(0 : Word)].length
    ∧ (∀ p ∈ linked.hlk.ahead, p.1 ≠ 2)
    ∧ ({ linked with hlk := { linked.hlk with ahead := [(2, 320, [5])] } } : State).hlk.ahead = [(2, 320, [5])]
    ∧ linked.hlk.retraining = none ∧ (getLane 0 linked).retired = false ∧ neededLane 0 linked = false
    ∧ neededLane 12 { linked with hlk := { linked.hlk with lanes := linked.hlk.lanes.take 13 } } = true
    ∧ ({ linked with hlk := { linked.hlk with retraining := some 3 } } : State).hlk.retraining = some 3
    ∧ (let s := { up with hlk := { up.hlk with state := 1 } }
       s.hlk.state = 1 ∧ s.hlk.lanes.length = 16 ∧ (∀ l ∈ s.hlk.lanes, l.retired = false)) ∧ up.hlk.state ≠ 1
    ∧ identOk 0 = false ∧ identOk 0x8040004064 = true ∧ up.hif.ideIo.state ≠ .insecure := by decide

/-- Slot 5 ACTIVE at a counter, the durable CEIL at c, in normal service. -/
def sealing (counter c : Nat) : State :=
  { up with
    cph := { up.cph with starting := false, ctxSlots := [(5, { KeySlot.none with use := .active, counter := counter })] }
    mram := { up.mram with ceilA := mkCeil c 1 } }

/-- The descriptor of an ENCRYPT request for context slot 5, cookie 77. -/
def encrypt : List Word := [1 + 5 * 2 ^ 11, 0, 0, 64, 0, 0, 0, 77].map wd

theorem witness_StepKeepsCeiling : CeilInv (sealing 5 6) ∧ ∃ t, step (sealing 5 6) = .next t :=
  ⟨⟨by decide +kernel, fun _ h => (by cases h)⟩, _, rfl⟩

theorem witness_CipherRequests :
    (decodeRequest encrypt).dst.toNat + 20 ≤ 0x400000000 ∧
    (decodeRequest encrypt).op = 1 ∧ (decodeRequest encrypt).dev = false ∧ (decodeRequest encrypt).slot = 5
    ∧ (getSlot (false, 5) (sealing 5 6)).use = .active ∧ limitedPhase (sealing 5 6) = false
    ∧ (getSlot (false, 5) (sealing 5 6)).counter < ceilNow (sealing 5 6) ∧ (sealing 5 6).cph.lanes.length = 8
    ∧ (sealing 5 6).cph.queue = [] ∧ (∀ l ∈ (sealing 5 6).cph.lanes, l.job = none → l.saved = []) ∧ idleLanes (sealing 5 6) ≠ []
    ∧ ceilNow (sealing 6 6) ≤ (getSlot (false, 5) (sealing 6 6)).counter ∧ (getSlot (false, 5) (sealing 6 6)).counter < 2 ^ 63
    ∧ 2 ^ 63 ≤ (getSlot (false, 5) (sealing (2 ^ 63) 6)).counter := by decide +kernel

/-- The request above on lane 3, and one more of it queued. -/
def busyLane : State :=
  let j : CipherJob := { req := decodeRequest encrypt, drawn := true, iv := 9, limited := false, suspends := 0, order := 0, posted := 0 }
  { up with cph := { up.cph with queue := [j], lanes := up.cph.lanes.modify 3 fun l => { l with job := some j } } }

theorem witness_CipherRequestsEnd :
    (busyLane.cph.queue.find? (·.req.cookie == 77)).isSome = true ∧ (laneOf 3 busyLane).job.isSome = true
    ∧ (laneOf 4 busyLane).job = none ∧ inService 3 busyLane = true ∧ up.cph.done = [] := by decide +kernel

theorem witness_CeilingAndInstance :
    ({ up with mram := { up.mram with ceilNext := some 7 } } : State).mram.ceilNext = some 7 ∧ up.mram.ceilNext = none
    ∧ (ceilCopy up).all (fun k => decide (k.seqNo + 1 < 2 ^ 32)) = true ∧ up.hif.ideIo.state ≠ .insecure
    ∧ anyActive (sealing 5 6) = true ∧ anyActive up = false ∧ up.cph.ceilErr = false
    ∧ (let s := { up with cph := { up.cph with ceilErr := true }, mram := { up.mram with inst := 1 } }
       anyActive s = false ∧ s.cph.ceilErr = true ∧ s.mram.inst.toNat ≠ (2 : Word).toNat % 2 ^ 32) := by decide +kernel

/-- Buffer 0 of pool 0 with a record, the power-on epoch 1. -/
def withBuf (b : BufRec) : State :=
  setBuf 0 0 b { up with mram := { up.mram with prtEpoch := 1 } }

/-- Its handle. -/
def handle0 : Word := mkHandle 1 0 0 1

/-- A record of an allocated buffer. -/
def owned (owners : List Nat) (final : Nat) : BufRec :=
  { allocated := true, gen := 1, owners := owners, final := final, returning := false }

/-- Every buffer of pool 3 is allocated. -/
def poolFull : State :=
  setPool 3 (fun q => { q with bufs := (List.range 128).map fun i => (i, owned [6] 0) }) up

theorem witness_PorterOperations :
    sizeOk 1 = true ∧ sizeOk 8388608 = true ∧ up.prt.pools.length = 4 ∧ grantPool 0x10 (poolFor 4096) up = some 0
    ∧ grantPool 6 (poolFor 8388608) up = some 3 ∧ isCore 0x10 = true
    ∧ grantPool 6 (poolFor 8388608) poolFull = none ∧ 8388608 < 8388609
    ∧ (withBuf (owned [6] 0)).prt.pools.length = 4
    ∧ getBuf (hPool handle0) (hIndex handle0) (withBuf (owned [6] 0)) = owned [6] 0
    ∧ getBuf (hPool handle0) (hIndex handle0) (withBuf (owned [6, 8] 0)) = owned [6, 8] 0
    ∧ finalOwner (owned [6] 0) = 6 ∧ (owned [6] 0).owners.length ≤ 1 ∧ 8 ∉ (owned [6] 0).owners
    ∧ finalOwner (owned [6, 8] 0) ≠ 8 ∧ 1 < (owned [6, 8] 0).owners.length
    ∧ 8 ≤ (owned [1, 2, 3, 4, 5, 6, 7, 8] 0).owners.length ∧ 9 ∉ (owned [1, 2, 3, 4, 5, 6, 7, 8] 0).owners
    ∧ refuseReason 1 6 0 8 up = some 1
    ∧ refuseReason 4 6 handle0 0 (withBuf { owned [] 0 with allocated := false }) = some 2
    ∧ refuseReason 2 7 handle0 0 (withBuf (owned [6] 0)) = some 3 ∧ refuseReason 2 6 handle0 0 (withBuf (owned [6] 0)) = some 4
    ∧ refuseReason 3 8 handle0 6 (withBuf (owned [6, 8] 0)) = some 4 ∧ refuseReason 4 6 handle0 0 (withBuf (owned [6, 8] 0)) = some 5
    ∧ refuseReason 1 6 handle0 8 (withBuf (owned [6, 8] 0)) = some 6
    ∧ refuseReason 1 6 handle0 9 (withBuf (owned [6, 1, 2, 3, 4, 5, 7, 8] 0)) = some 7 := by decide +kernel

theorem witness_PorterHandles : handleGood handle0 (withBuf (owned [6] 0)) ∧ ¬ handleGood 0 up := by
  unfold handleGood
  decide +kernel

/-- The sensors at 40 degrees, one of them with a record of its own. -/
def warmed (n : Nat) (f : ThmSensor → ThmSensor) : State :=
  let s := { up with thm := { up.thm with sensors := up.thm.sensors.map fun x => { x with raw := 320, eff := 320 } } }
  modThm n f s

theorem witness_ThermalSamplesAndCap :
    (warmed 5 id).sys.phase ≠ .off ∧ (warmed 5 id).thm.sensors.length = 33 ∧ (getThm 5 (warmed 5 id)).state = 0
    ∧ (getThm 5 (warmed 5 id)).diffs < 2 ∧ (getThm 31 (warmed 5 id)).diffs < 2
    ∧ (let s := warmed 5 fun x => { x with diffs := 2 }
       (getThm 5 s).diffs = 2 ∧ 2 ≤ (goodNeighbours 5 s).length ∧ consensus2 5 s = some 640 ∧ agrees 417 640 = false ∧ agrees 416 640 = true)
    ∧ (getThm 32 (warmed 5 id)).state = 0 ∧ ({ up with sys := { up.sys with phase := .off } } : State).sys.phase = .off
    ∧ (let s := warmed 5 fun x => { x with state := 1, failedAt := 0 }
       (getThm 5 s).state = 1 ∧ passedMs 0 (max s.aon.time 15625000) 10000 = true ∧ passedMs 0 (max s.aon.time 15624999) 10000 = false)
    ∧ (warmed 5 id).sys.phase = .running ∧ (getThm 32 (warmed 32 fun x => { x with state := 2 })).state ≠ 0
    ∧ passedMs ((getThm 32 (warmed 5 id)).lastAt.getD (warmed 5 id).sys.readyAt) (max (warmed 5 id).aon.time 1) 10 = false
    ∧ (critSensor (warmed 5 fun x => { x with eff := 4000 })).isSome = true
    ∧ critSensor (warmed 5 id) = none ∧ isHot (warmed 5 id) = false ∧ isCool (warmed 5 id) = true
    ∧ (warmed 5 id).thm.wasHot = false ∧ (warmed 5 id).thm.holdEnd ≤ 0
    ∧ ({ up with thm := { up.thm with cap := 23 } } : State).thm.cap < 24
    ∧ passedMs (warmed 5 id).thm.tCool 100000000000 (warmed 5 id).thm.cfg.upMs = true
    ∧ (isHot (warmed 5 fun x => { x with rate := 1000000 }) = true ∧ critSensor (warmed 5 fun x => { x with rate := 1000000 }) = none)
    ∧ (let s := warmed 5 fun x => { x with eff := (thmCfg 5 up).throttle - 1 }
       critSensor s = none ∧ isHot s = false ∧ isCool s = false)
    ∧ (let s := { up with thm := { up.thm with critFrom := some 0 } }
       s.thm.critFrom = some 0 ∧ s.thm.stopped = false ∧ passedMs 0 (max s.aon.time 1562500) 1000 = true)
    ∧ up.thm.critFrom = none := by decide +kernel

/-- Nothing at work, states down to L4 allowed. -/
def restful (now : Bool) : State :=
  { up with
    sys := { up.sys with step := 0x1F }
    pwr := { up.pwr with tolerance := 2500000, allowedMax := 4, now := now } }

theorem witness_PowerStatesAndPins :
    idleNow (restful true) = true ∧ deepest (restful true) = 4 ∧ reachable (restful true) = 4 ∧ (restful true).pwr.state < 4
    ∧ (restful false).pwr.now = false ∧ idleNow State.reset = false
    ∧ (let s := { restful true with pwr := { (restful true).pwr with state := 4, waking := true } }
       s.pwr.waking = true ∧ s.sys.phase = .running ∧ s.pwr.state = 4 ∧ s.pwr.state ≠ 0)
    ∧ (let s := { restful true with pwr := { (restful true).pwr with state := 1, waking := true } }
       s.pwr.state ≤ 1 ∧ s.pwr.waking = true)
    ∧ deepest { restful true with pwr := { (restful true).pwr with tolerance := 99 } } = 0
    ∧ identOk 0x8040004064 = true ∧ up.hlk.wholeRetry = false ∧ up.pwr.state = 0 ∧ up.pwr.waking = false
    ∧ State.reset.aon.cartPresent = false ∧ up.aon.cartPresent = true ∧ up.cart.inDrive.isSome = true ∧ up.aon.slack = false := by
  decide +kernel

theorem witness_ControlCores :
    (1 < 4 ∧ up.sys.cores.length = 4) ∧ up.sys.cores[1]? = some { lastKick := 0, lastRetry := none } ∧ coreOut 1 up = false
    ∧ up.sys.phase = .running ∧ State.reset.sys.phase ≠ .running ∧ passedMs 0 (max up.aon.time 1563) 1 = true
    ∧ passedMs 0 (max up.aon.time 1562) 1 = false
    ∧ otherFault 1 { up with sys := { up.sys with faulted := 1 } } = true ∧ otherFault 1 up = false ∧ interpretedBy 1 up = []
    ∧ (let s := { up with sys := { up.sys with cores := up.sys.cores.modify 1 fun x => { x with lastRetry := some 0 } } }
       s.sys.cores[1]? = some { lastKick := 0, lastRetry := some 0 } ∧ passedMs 0 (max s.aon.time 1563) 60000 = false)
    ∧ (let s := { up with sys := { up.sys with faulted := 2 } }
       s.sys.faulted.getLsbD 1 = true ∧ s.sys.lasting.getLsbD 1 = false)
    ∧ up.sys.faulted.getLsbD 1 = false := by decide +kernel

/-- An encoded block of n equal bytes: RAW, or FILL. -/
def fillBlock (n : Nat) (checked : Bool) : EncBlock :=
  { type := 2, hist := false, level := 0, input := List.replicate n 7, payload := [7], lane := 0, checked := checked }

/-- The host takes back the translation of the first 64 KiB. -/
def untranslated (s : State) : State := { s with hif := { s.hif with atsEn := true, atcBad := [(0, 65536)] } }

theorem witness_BlocksAreEncodedAndChecked :
    (let s := atWrite (writing 40) up
     s.fmt.writes = [writing 40] ∧ (findRun s 7).isSome = true ∧ (writing 40).ending = none ∧ hostReachable s = true
     ∧ [(7 : Byte)] ≠ []
     ∧ (findRun s 7).any (fun r => (entryAt 40 (listFrom 0 r.list)).any fun p => !p.1.hdm && decide (60 ≤ p.1.length - p.2)
          && (entryAt 100 (listFrom 0 r.list)).all (fun p => !p.1.hdm) && translates (p.1.address + p.2) (p.1.length - p.2) s) = true
     ∧ (findRun (untranslated s) 7).any (fun r => (entryAt 40 (listFrom 0 r.list)).any fun p =>
          !translates (p.1.address + p.2) (p.1.length - p.2) (untranslated s)) = true
     ∧ hostReachable (untranslated s) = true
     ∧ 40 + 60 ≤ streamTotal (writing 40) ∧ (writing 40).placedBytes < streamTotal (writing 40)
     ∧ s.fmt.opened = none ∧ s.fmt.closed = [] ∧ s.fmt.c3Groups = [])
    ∧ findWrite 7 (atWrite (writing 100) up) = some (writing 100) ∧ blockReady (writing 100) = true ∧ blockReady (writing 40) = false
    ∧ (writing 100).persist = false ∧ laneEncodes 2 up = true
    ∧ laneEncodes 2 { up with pkr := { up.pkr with cDegraded := 4 } } = false
    ∧ hostReachable { up with hif := { up.hif with busMaster := false } } = false ∧ placeTurn 7 (atWrite (writing 100) up) = true
    ∧ (let w := { writing 100 with blocks := [fillBlock 100 false], encoded := 100 }
       findWrite 7 (atWrite w up) = some w ∧ indexOf? (fun b : EncBlock => !b.checked) w.blocks = some 0
       ∧ w.blocks[0]? = some (fillBlock 100 false))
    ∧ (∀ b ∈ (writing 100).blocks, b.checked = true) := by decide +kernel

/-- An open dataset that stream 5 may fill: no item of the block begins in it. -/
def halfFull (frameOpen : Bool) : OpenDataset :=
  { ds := { oneRecord with seq := 2, apOffset := some 0 }, frameOpen := frameOpen, frameBlocks := 1, frameHead := 0, frameJsn := 7, chunk := hundred
    lastAt := 0, tally := [], jsns := [7], itemJsns := [7], subs := [], marks := [], firstRec := none, lastEntry := none, reserved := 1, buf := 0 }

/-- A command whose record is 200 bytes long, with half of it placed and the next 50 bytes encoded. -/
def placing (hist : Bool) : WriteRun :=
  { writing 150 with
    lens := [200], encoded := 150, placedBytes := 100, placedItems := 1, nextBlock := 1
    blocks := [{ fillBlock 50 true with hist := hist }] }

/-- That command over the open dataset, slot 5 ACTIVE. -/
def placingIn (frameOpen hist : Bool) : State :=
  let s := atWrite (placing hist) (sealing 5 6)
  { s with fmt := { s.fmt with opened := some (halfFull frameOpen) } }

theorem witness_BlocksArePlacedInFrames :
    (let s := placingIn true true
     s.fmt.writes = [placing true] ∧ s.fmt.opened = some (halfFull true) ∧ s.fmt.closed = [] ∧ s.fmt.c3Groups = []
     ∧ (placing true).ending = none ∧ (placing true).filemarks = 0 ∧ placeTurn 7 s = true ∧ s.cart.loaded = true
     ∧ (placing true).placedBytes + 50 < streamTotal (placing true)
     ∧ (∀ b ∈ (placing true).blocks, b.checked = true ∧ blockItems b (placing true) = []
          ∧ 64 + blockLen b ≤ roomLeft (halfFull true) ∧ joinsFrame 7 b [] (halfFull true) = true)
     ∧ (halfFull true).ds.partition = (placing true).partition ∧ (halfFull true).ds.apOffset.isSome = true
     ∧ (halfFull true).frameBlocks < 15)
    ∧ (let s := placingIn false false
       s.fmt.opened = some (halfFull false) ∧ (halfFull false).frameOpen = false ∧ frameFits 7 [] (halfFull false) = true
       ∧ partitionFull 0 s = false ∧ (placing false).spent = none ∧ framesOpen 0 s = true
       ∧ (getSlot (false, 5) s).use = .active ∧ limitedPhase s = false ∧ s.cph.degraded ≠ BitVec.allOnes 8
       ∧ (getSlot (false, 5) s).counter < ceilNow s ∧ (getSlot (false, 5) s).counter < 2 ^ 63) := by decide +kernel

/-- The dataset of `tape` as written in this session, verified. -/
def verified : WrittenDataset :=
  { ds := oneRecord, tally := [(3, 100)], jsns := [7], itemJsns := [7], subs := [], firstRec := some 0, reserved := 1, buf := 9, written := true
    seen := BitVec.allOnes 7680, ok := BitVec.allOnes 7680, failures := 0, trackFails := [], noSync := [], drvFault := 0, carriers := [], dead := none, due := false }

/-- A formed dataset waits for its run, the servo locked. -/
def mayRun : State :=
  { up with
    fmt := { up.fmt with active := [{ verified with written := false, ok := 0 }], formed := [1], firstReady := some 0 }
    mon := { up.mon with lock := true } }

theorem witness_DatasetsCloseRunAndRelease :
    (let s := { up with fmt := { up.fmt with opened := some (halfFull false) }, wh := { up.wh with epochValid := false } }
     s.fmt.opened = some (halfFull false) ∧ (halfFull false).itemJsns ≠ [] ∧ (halfFull false).jsns ≠ []
     ∧ (halfFull false).frameOpen = false ∧ passedMs (halfFull false).lastAt (max s.aon.time 156250) 100 = true
     ∧ s.fmt.writes = [] ∧ s.fmt.c3Groups = [] ∧ s.wh.epochValid = false
     ∧ passedMs (halfFull false).lastAt (max s.aon.time 156249) 100 = false)
    ∧ up.fmt.opened = none
    ∧ (let s := { placingIn true true with wh := { up.wh with epochValid := false } }
       s.fmt.opened = some (halfFull true) ∧ (halfFull true).frameOpen = true ∧ (halfFull true).ds.frames = [] ++ oneRecord.frames
       ∧ s.fmt.writes = [placing true] ∧ (halfFull true).frameJsn = (placing true).jsn ∧ (placing true).ending = none
       ∧ allPlaced (placing true) = false ∧ 16 ≤ roomLeft (halfFull true)
       ∧ passedMs (halfFull true).lastAt (max s.aon.time 156250) 100 = true ∧ s.fmt.c3Groups = [])
    ∧ (let s := mayRun
       s.fmt.closed = [] ∧ s.fmt.run = none ∧ (loadedCart s).isSome = true ∧ tapeHeld s = false ∧ tapeDown s = false
       ∧ s.wh.epochValid = true ∧ firmwareRuns s = true ∧ mayStartRun (atTime 156250 s) = true ∧ runPartition s = some 0 ∧ s.mon.lock = true)
    ∧ up.mon.lock = false
    ∧ (let s := placingIn true true
       s.fmt.writes = [placing true] ∧ (placing true).ending = none ∧ allPlaced (placing true) = false
       ∧ ({ s with fmt := { s.fmt with approached := true } } : State).fmt.approached = true ∧ s.fmt.approached = false)
    ∧ tapeHeld { up with drv := { up.drv with safeStop := true } } = true
    ∧ (let s := { up with cart := { up.cart with statusDue := true } }
       s.cart.statusDue = true ∧ (loadedCart s).isSome = true ∧ s.fmt.run = none) ∧ up.cart.statusDue = false
    ∧ (let s := { up with fmt := { up.fmt with active := [verified] } }
       heldBack s = false ∧ (releasable s).map (·.ds) = some oneRecord ∧ oneRecord.kind = 0 ∧ s.fmt.durableEnd[oneRecord.partition]? = some 1
       ∧ s.fmt.writes = [] ∧ s.fmt.closed = [] ∧ s.fmt.opened = none ∧ s.fmt.c3Groups = [])
    ∧ releasable up = none
    ∧ ({ up with fmt := { up.fmt with leaving := [(1, 9)] } } : State).fmt.leaving.find? (·.1 == 1) = some (1, 9)
    ∧ up.fmt.leaving.find? (·.1 == 1) = none := by decide +kernel

/-- Dataset 1 of `tape` read with sub-dataset 4 lost, its recovery at a pass (15: the retry on the fly). -/
def recovering (pass : Nat) (retried c3 : Bool) : State :=
  let tape3 : Cartridge := { tape with chain := [{ oneRecord with c3On := c3 }] }
  { give [0x38, 5] .started up with
    sys := { up.sys with synth := false }
    tec := { up.tec with
      recovering := some (1, 3, false), rdPass := pass, c3Active := c3
      held := [{ seq := 1, failed := [4], bad := [(4, 0)], unsynced := [], notFound := false, retried := retried, passes := 0, c3Used := false, c3Tried := []
                 stats := noStats }] }
    cart := { up.cart with inDrive := some tape3 } }

/-- A RAW block of one byte (05 Table 5-2). -/
def rawBlock : List Byte :=
  [0xAD, 0x01, 0, 0, 1, 0, 0, 0, 1, 0, 0, 0] ++ (List.range 4).map (fun i => BitVec.ofNat 8 (crc32c [7] / 256 ^ i)) ++ [7]

/-- `tape` with a second dataset behind, and a slot of the first in which no SYNC field is found. -/
def longer : Cartridge := { tape with chain := [oneRecord, { oneRecord with seq := 2, items := [], entries := 0, frames := [] }] }

def lostSlot : SlotReading := { seq := 1, slot := 0, track := 0, late := true, reading := .clean }

/-- The first dataset of that tape as it is read, and the sub-dataset of the slot. -/
def lateRead : Reread := rereadOf longer oneRecord [lostSlot] up

def lateSubset : Nat := ((geometry false).rowAt 0 0).2

/-- The row of that slot is not valid, so its sub-dataset waits for the rewrite slots behind. -/
theorem witness_subset_waits : readSubset lateRead oneRecord lateSubset 0 up = none := by
  have h : isInvalid (stepRow lateRead.iter [] (ownRow lateRead oneRecord lateSubset up ((geometry false).rowAt 0 0).1)) = true := by
    decide +kernel
  have m : ((geometry false).rowAt 0 0).1 ∈ rowRange lateRead.atf1 := by decide +kernel
  have u : cleanSubset lateRead oneRecord lateSubset up = false := by decide +kernel
  have v : 0 < (carriersOf lateRead.chain oneRecord).length := by decide +kernel
  have e : ((rowRange lateRead.atf1).map fun r => stepRow lateRead.iter [] (ownRow lateRead oneRecord lateSubset up r)).filter isInvalid
      ≠ [] := fun e => List.not_mem_nil (e ▸ List.mem_filter.mpr ⟨List.mem_map_of_mem m, h⟩)
  simp [readSubset, u, v, List.length_eq_zero_iff, e]

theorem witness_ReadRecoveryOrder :
    (tapeDataset 1 up).isSome = true ∧ loadedCart up = some tape ∧ up.fmt.run = none
    ∧ ({ up with sys := { up.sys with synth := false } } : State).sys.synth = false ∧ up.sys.synth = true ∧ up.tec.recovering = none
    ∧ (readSubset (rereadOf tape oneRecord [] up) oneRecord 3 0 up).isSome = true
    ∧ (tapeDataset 9 up).isNone = true
    ∧ (let s := recovering 0 true true
       s.tec.recovering = some (1, 3, false) ∧ (tapeDataset 1 s).isSome = true ∧ (loadedCart s).isSome = true ∧ s.tec.c3Active = true
       ∧ (heldOf 1 s).any (fun h => c3Next? h == some 4) = true
       ∧ ((tapeDataset 1 s).bind fun d => (loadedCart s).map fun c =>
            ((c3Members d (chainOf c d.partition)).filter fun x => isLost s (x.seq, 4)).length) = some 1)
    ∧ (let s := recovering 15 false false
       s.tec.rdPass = 15 ∧ s.sys.synth = false ∧ (loadedCart s).isSome = true ∧ (tapeDataset 1 s).isSome = true ∧ (heldOf 1 s).isSome = true ∧ c3Applies 1 false s = false)
    ∧ (let s := recovering 2 true false
       s.tec.rdPass ≠ 0 ∧ s.tec.rdPass ≠ 15 ∧ (loadedCart s).isSome = true ∧ (tapeDataset 1 s).isSome = true ∧ (heldOf 1 s).any (·.retried) = true)
    ∧ isReading 7 (recovering 2 true false) = true ∧ isReading 7 up = false
    ∧ abfDecode [] [] = none ∧ abfDecode rawBlock [] = some [7] := by decide +kernel

/-! ### Worked values of spec/ -/

/-- 02, staging 256 bytes in HDM: Base 256 GiB, Size 16 GiB. -/
theorem test_hdm_staging :
    let s := { up with hif := { up.hif with committed := true, hdmBase := 0x4000000000, hdmSize := 0x400000000 } }
    hdmMap 0x4012345680 s = some 0x12345680 ∧ (0x12345680 : Nat) / 4096 = 0x12345 := by decide +kernel

/-- 05, encoding a block: the codes of Table 5-6. -/
theorem test_abf_codes :
    canonCodes ((List.range 288).map fun i =>
        if i = 256 ∨ i = 280 then 2 else if i = 0x41 ∨ i = 0x45 ∨ i = 0x47 ∨ i = 0x54 then 3 else 0)
      = [(2, 0, 256), (2, 1, 280), (3, 4, 0x41), (3, 5, 0x45), (3, 6, 0x47), (3, 7, 0x54)] ∧ matchLength 280 = (528, 9)
    ∧ matchDistance 3 = (4, 0) := by decide +kernel

/-- 05, encoding a block: the payload of the example. -/
def gatePayload : List Byte :=
  ((List.range 164).map fun i =>
    if i = 32 ∨ i = 34 ∨ i = 35 then 0x30 else if i = 42 then 0x03 else if i = 128 ∨ i = 140 then 0x02 else if i = 145 then 0x10 else 0)
    ++ [0xCB, 0x2B, 0x7B, 0x00]

/-- 05, encoding a block: it decodes to "GATE" 256 times. -/
theorem test_abf_gate :
    decodeCoded 1 1024 gatePayload [] = some ((List.range 1024).map fun i => [0x47, 0x41, 0x54, 0x45].getD (i % 4) 0) := by
  decide +kernel

/-- 06, IV counters: bytes of F2's IV. -/
theorem test_iv_bytes :
    leBytes 12 (mkIv 0x5A17C0DE 0x400000).toNat = [0xDE, 0xC0, 0x17, 0x5A, 0, 0, 0x40, 0, 0, 0, 0, 0]
    ∧ leBytes 12 (mkIv 0x5A17C0DE 0x80123456789A0000).toNat = [0xDE, 0xC0, 0x17, 0x5A, 0, 0, 0x9A, 0x78, 0x56, 0x34, 0x12, 0x80] := by
  decide +kernel

/-- 07, one user byte on tape: row 21 of sub-dataset 6 stands in slot 5 on track 27. -/
theorem test_slot_of_row : (geometry false).slotOf 21 6 = (5, 27) ∧ rowAt 5 27 = (21, 6) := by decide +kernel

/-- 07, the basic form for three partitions. -/
theorem test_even_pairs : evenPairs 3 = [34, 34, 36] := by decide +kernel

/-- 08, the codeword of one information bit: ones among the parity bits, and zeros beside them. -/
theorem test_c1_one_bit :
    ([138, 277, 288 + 87, 288 + 137, 288 + 276, 288 + 283].all fun i => c1Parity 1 i) = true
    ∧ ([0, 137, 139, 276, 278, 288, 288 + 86, 288 + 88, 575].any fun i => c1Parity 1 i) = false := by decide +kernel

/-- 12, choosing IN_EXP: the PI section of the example. -/
def piSection : Section :=
  { b0 := 4915200, b1 := -4751360, b2 := 0, a1 := -4194304, a2 := 0, exp := 9, x1 := 0, x2 := 0, y1 := 0, y2 := 0 }

/-- 12, choosing IN_EXP = 13: code 12,000 in the first tick, 24,000 in the second. -/
theorem test_in_exp :
    errorMantissa (1200 * 2 ^ 24) 13 = 1228800 ∧ (sectionStep { piSection with x1 := 1228800 } 1228800).y1 = 24000
    ∧ outputCode 24000 22 = 12000 ∧ (sectionStep { piSection with x1 := 1228800, y1 := 24000 } 1228800).y1 = 48000
    ∧ (sectionStep { piSection with x1 := 1200 } 1200).y1 = 23 ∧ outputCode 23 32 = 11776 := by decide +kernel

/-- 13, speed matching: the lowest step for 1.30 GB/s at a headroom of 1/16. -/
theorem test_step_for : stepFor 1300000000 1 false = 6 := by decide +kernel

/-- 14, the last 64 KiB buffer: GEN is 0 at reset, the first allocation gives 1, and 65,535 is followed by 1. -/
theorem test_next_gen : nextGen 0 = 1 ∧ nextGen 65535 = 1 ∧ nextGen 65534 = 65535 := by decide +kernel

/-- 15, the hottest sensor fails: twice the consensus of its four neighbours, in sixteenths of a degree. -/
theorem test_consensus : median2 [97 * 16, 96 * 16 + 8, 95 * 16, 94 * 16] = 95 * 16 + 96 * 16 + 8 := by decide +kernel

/-! ### Ill-formed operands -/

/-- A boot input whose digests have n bytes. -/
def bootInput (n : Nat) : BootInput :=
  let d : List Byte := List.replicate n 0
  { digest0 := d, digest1 := d, digest2 := d, digest3 := d, coresOk := 15, katOk := 255, subsysId := 0 }

def training : TrainResult := { rxOk := 0xFFF, txOk := 15, wiring := 0xFFFF, ident := 0x8040004064 }

def offer (rate width : Nat) : LinkOffer := { io := true, cache := true, mem := true, rate := rate, width := width }

/-- The check refuses operands that the link and the start cannot bring. -/
theorem test_wf_refuses_host :
    [Instr.startUpSequence (bootInput 47) training, .linkNegotiation (offer 0 16), .linkNegotiation (offer 6 16),
      .linkNegotiation (offer 5 3), .hdmDecoderCommit 0 0 16 false, .cxlMemRead 1, .memWr 64 [], .memWr 63 (List.replicate 64 0),
      .memWrPtl 0 [], .cxlSnoop 32, .atsInvalidate 1 4096 true, .atsInvalidate 0 4095 true, .doeRequest 0 256 [], .doeRequest 0 0 [1],
      .msixUnmask 256, .mmioAccessRefused 0 3 true, .mmioAccessRefused 0x4000000 1 false, .registerWrite 0 16 0,
      .registerWrite 0x403FFFC 8 0].all (fun c => !c.wf) = true := by decide +kernel

/-- The check refuses ring, group, handle and lane numbers outside their ranges. -/
theorem test_wf_refuses_units :
    [Instr.cmdSqTailWrite 64 0, .cmdSqTailWrite 0 4096, .sqEntryFetch 64 [], .sqEntryFetch 0 (List.replicate 17 0),
      .cmdCqHeadWrite 64 0, .cmdEvqHeadWrite 65536, .evgStatusClear 40 0 0, .managementPacket (List.replicate 17 0), .unitReport 32 0,
      .unitReport 0 4, .mgtEidAssigned 256 0, .mgtEidAssigned 0 128,
      .readRecords 7 [{ seq := 1, frame := 0, lane := 8, lasting := false }], .verifyRange 7 [{ seq := 1, frame := 0, lane := 8, lasting := false }],
      .servoTick { edge 9 with servoCh := [] }, .syntheticTick { edge 9 with unfinished := [32] }, .safeStopRetry [7] 0,
      .drvCoefWrite 32 0 0 0, .drvCoefWrite 0 8 0 0, .drvCoefWrite 0 0 8 0, .drvModeWrite 32 0, .drvTargetWrite 32 0,
      .hlkLaneRetrain 16, .hlkLaneRetire 16].all (fun c => !c.wf) = true := by decide +kernel

/-- At most 16 KiB go to cartridge memory. -/
theorem test_wf_cm_length (l : List Byte) : (Instr.fmtCmAccess 7 l).wf = decide (l.length ≤ 16384) := rfl

/-- The same for the tape path, the Porter, the sensors, the Weighhouse and the cores. -/
theorem test_wf_refuses_rest :
    ([Instr.samples, .servo, .status, .reply, .ident].all fun c => !(c { frameOf 1 0 30 with lane := 12 }).wf) = true
    ∧ [Instr.blockLockLoss 12, .reorderTimeout 12 0 0, .pkrBlockEncoded 7 8, .pkrSelfcheck 7 8 true true,
        .pkrBlockDecoded 7 8 0 [] [] false 0, .pkrBlockDecoded 7 0 0 [] [] false 8, .formatterPlaceBlock 7 8 true true,
        .cphRqPush [], .cphRequestComplete 8 { tagOk := true, same := true }, .subdatasetDecode 1 16 true 0 [], .c3Decode 1 16,
        .readAutoRetry 1 true [{ lostSlot with slot := 128 }], .recoveryPass 1 true [{ lostSlot with track := 64 }], .alloc 0 1 false, .alloc 11 1 false, .alloc 0x14 1 false, .share 6 0 0,
        .release 0 0, .transfer 6 0 0, .free 0 0, .patrolScrub false 0x4000000, .patrolScrub true 0x600000000, .thermalSample 33 0 0,
        .thmSensorLasting 33 0, .extend 4 (List.replicate 48 0), .extend 0 (List.replicate 47 0), .ledgerGet 0 4097,
        .statement { firstTenant := 4096, count := 1, nonzero := false, nonce := [] }, .getMeasurements false 256, .sysCoreKick 4 0,
        .coreWatchdogExpiry 4 0, .coreRetryDone 4 true 0, .mctpSpdmRequest 4 []].all (fun c => !c.wf) = true := by decide +kernel

/-- Well-formed commands of each shape pass. -/
theorem test_wf_accepts :
    [Instr.startUpSequence (bootInput 48) training, .linkNegotiation (offer 5 16), .cxlMemRead 64, .memWr 64 (List.replicate 64 0),
      .cmdSqTailWrite 63 4095, .servoTick (edge 160000), .cphRqPush encrypt, .alloc 0x13 1 false, .statement
        { firstTenant := 4095, count := 1, nonzero := false, nonce := [] }, .mctpSpdmRequest 6 []].all Instr.wf = true := by decide +kernel

/-- FIPS-197 (PRESUMED, log entry 14): the product of section 4.2 and the substitution of section 5.1.1. -/
theorem test_aes_field : aesTimes 0x57 0x83 = 0xC1 ∧ aesSub 0x53 = 0xED ∧ aesSubBack 0xED = 0x53 := by decide +kernel

/-- 16 R425: four sessions at once over both transports; one that has ended makes room. -/
theorem test_spdm_sessions :
    let four := [(false, true), (true, false), (false, false), (true, true)]
    (spdmSessions false 0xE4 four).toOption = none ∧ (spdmSessions true 0xE4 (four.take 3)).toOption = some (four.take 3 ++ [(true, false)])
    ∧ (spdmSessions true 0xEC four).toOption = some (four.take 3) ∧ (spdmSessions true 0xE8 []).toOption = none := by decide +kernel

/-- 17 R436, 04 R114, Table 4-8: where LOCATE and a read that met NO_BUFFER left the context. -/
theorem test_position_again :
    let w := fun (st r0 r1 : Nat) => ({ jsn := 1, state := 2, status := st, result0 := wd r0, result1 := wd r1 } : RetireWord)
    leftPosition (cmd [opLocate, 5, 9]) (w stEndOfData 0 7) 2 = some 7 ∧ leftPosition (cmd [opLocate, 5, 9]) (w stAbortedByHost 0 7) 2 = none
    ∧ leftPosition (cmd [opReadRecords, 5 + 4 * 2 ^ 32, 0, 1, 0]) (w stNoBuffer 3 0) 5 = some 8 := by decide +kernel

/-- 12 R317: a PWM sink is enabled by a loop in MANUAL or AUTO. -/
theorem test_reel_enable :
    let s := fun (n : Nat) => setLoop 2 (fun l => { l with cfg := { l.cfg with sink := 1 }, mode := n }) { up with aon := { up.aon with reelEn := true } }
    reelEnable 1 (s 2) = true ∧ reelEnable 1 (s 1) = true ∧ reelEnable 1 (s 0) = false ∧ reelEnable 2 (s 2) = false := by decide +kernel

end Sys2Proof.Tests
end

section
/-! PROOFS. The HDM decoder (02 R38, R39): which settings a commit accepts, what it does to the state, and what the decoder maps
afterwards. -/

namespace Sys2Proof.Proofs

open Sys2Proof.Machine Sys2Proof.Safety

/-- An access that the CXL.io stream carries has its effect. -/
@[simp] theorem onMmio_of_open {s : State} (h : mmioOpen s) (t : State) : onMmio s t = t := if_neg h

/-- `setHif` is all that changes: with the old host interface put back, the state is the old one. -/
theorem setHif_restore (f : Hif → Hif) (s : State) : { setHif f s with hif := s.hif } = s := rfl

/-! ### What the decoder maps -/

theorem hdmMap_eq_none_of_uncommitted {t : State} (h : t.hif.committed = false) (hpa : Nat) : hdmMap hpa t = none := by
  simp [hdmMap, h]

/-- A decoder in service maps its range from DPA 0 up. -/
theorem hdmMap_base_add {t : State} (hmode : t.hif.mode = 1) (hmem : t.hif.memEn = true) (hcommitted : t.hif.committed = true)
    (hide : t.hif.ideCm.state ≠ .insecure) (hready : t.mem.ready = true) {d : Nat} (hd : d < t.hif.hdmSize) :
    hdmMap (t.hif.hdmBase + d) t = some (d / 64 * 64) := by
  have inRange : t.hif.hdmBase ≤ t.hif.hdmBase + d ∧ t.hif.hdmBase + d < t.hif.hdmBase + t.hif.hdmSize := by omega
  rw [hdmMap, if_pos ⟨hmode, hmem, hcommitted, hide, hready, inRange⟩, Nat.add_sub_cancel_left]

/-! ### What a commit does -/

/-- In CXL mode a commit accepts the settings of R38. -/
theorem decoderOk_iff (base size iw : Nat) :
    decoderOk 1 base size iw = true ↔
      base % 2 ^ 28 = 0 ∧ size % 2 ^ 28 = 0 ∧ 2 ^ 28 ≤ size ∧ size ≤ 2 ^ 34 ∧ iw = 0 := by
  simp only [decoderOk, Bool.and_eq_true, decide_eq_true_eq, beq_iff_eq, and_assoc, true_and]
  simp only [hdmUnit, Nat.reducePow]

theorem decoderOk_eq_false_iff (base size iw : Nat) :
    decoderOk 1 base size iw = false ↔
      base % 2 ^ 28 ≠ 0 ∨ size % 2 ^ 28 ≠ 0 ∨ size < 2 ^ 28 ∨ 2 ^ 34 < size ∨ iw ≠ 0 := by
  rw [← Bool.not_eq_true, decoderOk_iff]
  simp only [not_and_or, not_le, ne_eq]

/-- The host interface after an accepted commit. -/
def commitDecoder (base size : Nat) (lock : Bool) (h : Hif) : Hif :=
  { h with hdmBase := base, hdmSize := size, committed := true, notCommitted := false, locked := lock }

/-- The host interface after a commit that failed. -/
def refuseDecoder (h : Hif) : Hif := { h with hdmBase := 0, hdmSize := 0, committed := false, notCommitted := true }

/-- A commit that reaches an unlocked decoder is accepted or refused by the link's mode and its settings alone. -/
theorem exec_hdmDecoderCommit {s : State} (hup : hostUp s = true) (hopen : mmioOpen s) (hunlocked : s.hif.locked = false)
    (base size iw : Nat) (lock : Bool) :
    exec (.hdmDecoderCommit base size iw lock) s = .next
      (if decoderOk s.hif.mode base size iw then setHif (commitDecoder base size lock) s else setHif refuseDecoder s) := by
  change execHdmDecoderCommit base size iw lock s = _
  simp only [execHdmDecoderCommit, onMmio_of_open hopen, hup, hunlocked, Bool.not_true, Bool.or_self, Bool.false_eq_true, if_false]
  rfl

/-- Settles O40: `decoderOk` decides R38's settings, and the two outcomes of a commit differ from the old state in the host
interface only. -/
theorem hdmDecoderCommits : Obligations.HdmDecoderCommits := by
  intro base size iw lock s hup hopen hunlocked hmode
  have hexec := exec_hdmDecoderCommit hup hopen hunlocked base size iw lock
  rw [hmode] at hexec
  refine ⟨fun hbase hsize hmin hmax hiw => ?_, fun hbad => ?_⟩
  · have accepted := (decoderOk_iff base size iw).2 ⟨hbase, hsize, hmin, hmax, hiw⟩
    rw [if_pos accepted] at hexec
    refine ⟨_, hexec, rfl, rfl, rfl, rfl, rfl, fun d hd hmem hide hready => ?_, setHif_restore _ s⟩
    exact hdmMap_base_add (t := setHif (commitDecoder base size lock) s) hmode hmem rfl hide hready hd
  · have refused := (decoderOk_eq_false_iff base size iw).2 hbad
    rw [refused, if_neg Bool.false_ne_true] at hexec
    exact ⟨_, hexec, rfl, rfl, hdmMap_eq_none_of_uncommitted rfl, setHif_restore _ s⟩

end Sys2Proof.Proofs
end

section
/-! PROOFS. Trips and power-ons (15 R388-R391): what the always-on domain keeps when the formatter die loses its supplies, and the
third trip within 60 minutes. `f_aon` says that an operation of the formatter die leaves the always-on domain as it is. -/

namespace Sys2Proof.Proofs

open Sys2Proof.Machine Sys2Proof.Safety Sys2Proof.Laws

/-! ### Folds, choices, and operations whose frame is known -/

theorem foldl_aon {α : Type} {f : State → α → State} (hf : ∀ s x, (f s x).aon = s.aon) (l : List α) (s : State) :
    (l.foldl f s).aon = s.aon := by
  induction l generalizing s with
  | nil => rfl
  | cons x l ih => rw [List.foldl_cons, ih, hf]

@[simp] theorem ite_aon (c : Prop) [Decidable c] (s t : State) : (if c then s else t).aon = if c then s.aon else t.aon :=
  apply_ite State.aon c s t

theorem device_aon {s t : State} (h : t.device = s.device) : t.aon = s.aon :=
  congrArg (·.2.2.2.2.2.2.2.2.2.2.2.2.1) h

@[simp] theorem raise_aon (src p0 p1 : Nat) (s : State) : (raise src p0 p1 s).aon = s.aon :=
  quiet_aon (raise_quiet src p0 p1 s)

@[simp] theorem freeBuffer_aon (o : Nat) (h : Word) (s : State) : (freeBuffer o h s).aon = s.aon :=
  quiet_aon (freeBuffer_quiet o h s)

@[simp] theorem endWith_aon (jsn st r0 r1 : Nat) (s : State) : (endWith jsn st r0 r1 s).aon = s.aon :=
  device_aon (endWith_device jsn st r0 r1 s)

/-! ### Buffers and the head link -/

theorem porterTry_aon {owner size : Nat} {s : State} {p : Word × State} (h : porterTry owner size s = some p) :
    p.2.aon = s.aon := by
  simp only [porterTry] at h
  split at h
  · cases h
    rw [takeBuf, drawFree_aon]
    simp [setPool, setBuf]
  · cases h

@[simp] theorem sendBlocks_aon (lane : Nat) (l : List (BitVec 2 × Word)) (s : State) : (sendBlocks lane l s).aon = s.aon := rfl

@[simp] theorem writeGate_aon (on : Bool) (s : State) : (writeGate on s).aon = s.aon := by
  rw [writeGate, sendControl, sendFrame]
  split
  · rfl
  · rw [modLane_aon, sendBlocks_aon]

/-! ### The open dataset -/

@[simp] theorem modOpened_aon (f : OpenDataset → OpenDataset) (s : State) : (modOpened f s).aon = s.aon := rfl

@[simp] theorem parkOpened_aon (s : State) : (parkOpened s).aon = s.aon := by
  unfold parkOpened; split <;> rfl

@[simp] theorem noteDone_aon (jsn : Nat) (s : State) : (noteDone jsn s).aon = s.aon := by
  unfold noteDone; split <;> rfl

@[simp] theorem sealOpen_aon (ctx : Nat) (s : State) : (sealOpen ctx s).aon = s.aon := by
  simp only [sealOpen]; (repeat' split) <;> rfl

theorem openDataset_aon {p : Nat} {s t : State} (h : openDataset p s = some t) : t.aon = s.aon := by
  unfold openDataset at h
  split at h
  · cases h
  · split at h
    · cases h
    · next granted => cases h; exact porterTry_aon granted

theorem putFrameBytes_aon {n : Nat} {meter : Option Nat} {w : WriteRun} {first : Nat} {s t : State}
    (h : putFrameBytes n meter w first s = some t) : t.aon = s.aon := by
  simp only [putFrameBytes] at h
  split at h
  · cases h
  · split at h
    · cases h; rfl
    · obtain ⟨u, opened, rfl⟩ := Option.map_eq_some_iff.1 h
      rw [modOpened_aon, openDataset_aon opened, parkOpened_aon, modOpened_aon]

theorem closeFrame_aon {s t : State} (h : closeFrame s = some t) : t.aon = s.aon := by
  simp only [closeFrame] at h
  (repeat' split at h)
  · cases h; rfl
  · cases h; rfl
  · cases h; rfl
  · obtain ⟨u, put, rfl⟩ := Option.map_eq_some_iff.1 h
    rw [noteDone_aon, sealOpen_aon, modOpened_aon, putFrameBytes_aon put]

theorem closeDataset_aon {s t : State} (h : closeDataset s = some t) : t.aon = s.aon := by
  unfold closeDataset at h
  split at h
  · cases h
  · next closed =>
    rw [← closeFrame_aon closed]
    split at h <;> cases h
    · rfl
    · exact parkOpened_aon _

@[simp] theorem closeOpen_aon (s : State) : (closeOpen s).aon = s.aon := by
  unfold closeOpen
  cases h : closeDataset s with
  | none => rfl
  | some t => exact closeDataset_aon h

@[simp] theorem flushOpen_aon (s : State) : (flushOpen s).aon = s.aon := by
  simp only [flushOpen]
  split
  · rfl
  · simp

/-! ### Datasets that take a SEQ -/

@[simp] theorem closeGroup_aon (p : Nat) (s : State) : (closeGroup p s).aon = s.aon := rfl

@[simp] theorem formWith_aon (ds : Dataset) (w : WrittenDataset) (s : State) : (formWith ds w s).aon = s.aon := rfl

@[simp] theorem joinGroup_aon (p : Nat) (trunc : Bool) (s : State) : (joinGroup p trunc s).2.2.aon = s.aon := by
  simp only [joinGroup]; split <;> simp

@[simp] theorem noteSeq_aon (seq : Nat) (marks : List (Nat × Nat)) (s : State) : (noteSeq seq marks s).aon = s.aon :=
  foldl_aon (fun s (m : Nat × Nat) => setWrite_aon m.1 _ s) marks s

@[simp] theorem formData_aon (o : OpenDataset) (s : State) : (formData o s).aon = s.aon := by
  simp [formData]

theorem formBare_aon {ds : Dataset} {s t : State} (h : formBare ds s = some t) : t.aon = s.aon := by
  unfold formBare at h
  split at h
  · cases h
  · obtain ⟨p, granted, rfl⟩ := Option.map_eq_some_iff.1 h
    exact porterTry_aon granted

theorem formParity_aon {g : C3Group} {n : Nat} {s t : State} (h : formParity g n s = some t) : t.aon = s.aon := by
  induction n generalizing s with
  | zero => cases h; rfl
  | succ n ih =>
    simp only [formParity] at h
    split at h
    · cases h
    · next formed => rw [ih h, formBare_aon formed]

@[simp] theorem formNext_aon (n : Nat) (s : State) : (formNext n s).aon = s.aon := by
  induction n generalizing s with
  | zero => rfl
  | succ n ih =>
    unfold formNext
    split
    · split
      · next formed => rw [ih, formParity_aon formed]
      · rfl
    · split
      · rfl
      · simp [ih]

/-! ### The end of write commands and of a run -/

@[simp] theorem finishWrite_aon (w : WriteRun) (st r1 : Nat) (s : State) : (finishWrite w st r1 s).aon = s.aon := by
  simp only [finishWrite, endWith_aon, raise_aon]
  split <;> simp [foldl_aon]

@[simp] theorem settleWrite_aon (s : State) (jsn : Nat) : (settleWrite s jsn).aon = s.aon := by
  unfold settleWrite
  (repeat' split) <;> simp

@[simp] theorem afterWrites_aon (s : State) : (afterWrites s).aon = s.aon := by
  rw [afterWrites, settleWrites, foldl_aon settleWrite_aon, formAll, formNext_aon, flushOpen_aon]

@[simp] theorem dropDataset_aon (d : WrittenDataset) (s : State) : (dropDataset d s).aon = s.aon := freeBuffer_aon 6 d.buf s

@[simp] theorem finishRun_aon (p : Nat) (s : State) : (finishRun p s).aon = s.aon := by
  rw [finishRun, afterWrites_aon, writeGate_aon]
  exact foldl_aon (fun s d => dropDataset_aon d s) _ s

/-! ### Codewords that fail verify -/

@[simp] theorem setActive_aon (seq : Nat) (f : WrittenDataset → WrittenDataset) (s : State) : (setActive seq f s).aon = s.aon :=
  rfl

@[simp] theorem layDown_aon (d : WrittenDataset) (reason : Nat) (s : State) : (layDown d reason s).aon = s.aon := by
  simp [layDown]

@[simp] theorem retract_aon (d : WrittenDataset) (reason : Nat) (s : State) : (retract d reason s).aon = s.aon := by
  rw [retract, foldl_aon]
  intro s w
  rw [retractEvent, raise_aon]

@[simp] theorem dropAssembled_aon (p : Nat) (s : State) : (dropAssembled p s).aon = s.aon := by
  simp only [dropAssembled]
  rw [foldl_aon]
  intro s o
  rw [burnIv, freeBuffer_aon]

@[simp] theorem truncateAway_aon (s : State) (d : WrittenDataset) : (truncateAway s d).aon = s.aon := by
  simp [truncateAway]

@[simp] theorem replaceDataset_aon (d : WrittenDataset) (s : State) : (replaceDataset d s).aon = s.aon := by
  simp [replaceDataset, renameMarks]

@[simp] theorem lastingFailure_aon (d : WrittenDataset) (s : State) : (lastingFailure d s).aon = s.aon := by
  simp [lastingFailure, endRunSoon, cutEnd, failFrom, foldl_aon truncateAway_aon]

@[simp] theorem wholeRewrite_aon (seq : Nat) (s : State) : (wholeRewrite seq s).aon = s.aon := by
  unfold wholeRewrite
  (repeat' split) <;> simp

@[simp] theorem failCopy_aon (f : FailedCw) (c : Nat) (s : State) : (failCopy f c s).aon = s.aon := by
  simp [failCopy]

@[simp] theorem failFirst_aon (seq m track : Nat) (margin : Bool) (s : State) : (failFirst seq m track margin s).aon = s.aon := by
  simp [failFirst, countFail]

@[simp] theorem failWindow_aon (seq lo hi : Nat) (s : State) : (failWindow seq lo hi s).aon = s.aon := by
  have slots (p : Nat → Bool) (s : State) : (failSlots seq p s).aon = s.aon := by
    refine foldl_aon (fun s mt => ?_) _ s
    (repeat' split) <;> simp
  have copies (p : Nat → Bool) (s : State) : (failCopies seq p s).aon = s.aon := by
    refine foldl_aon (fun s x => ?_) _ s
    split <;> simp
  rw [failWindow, copies, slots]

/-! ### The supplies go -/

@[simp] theorem interruptRun_aon (s : State) : (interruptRun s).aon = s.aon := by
  unfold interruptRun
  split
  · rfl
  · have retried (l : List WriteRun) (s : State) : (l.foldl (fun s w => markRetried w.jsn s) s).aon = s.aon :=
      foldl_aon (fun s w => by rw [markRetried, setRun_aon]) l s
    rw [finishRun_aon, closeGroup_aon]
    (repeat' split) <;> simp [retried, putInRun, modCart]

@[simp] theorem strike_aon (s : State) : (strike s).aon = s.aon := interruptRun_aon s

@[simp] theorem endEntry_aon (cause : Nat) (s : State) : (endEntry cause s).aon = s.aon := by
  simp only [endEntry, modCurrent]
  (repeat' split) <;> rfl

@[simp] theorem clearCold_aon (s : State) : (clearCold s).aon = s.aon := by
  change (keepTruncs s).aon = s.aon
  unfold keepTruncs
  (repeat' split) <;> rfl

/-- The formatter die goes with the reels at rest; the rest of the always-on domain runs on (15 R389, R390). -/
theorem powerDown_aon (s : State) : (powerDown s).aon = { s.aon with reelEn := false, brake := true } := by
  simp [powerDown]

/-! ### Trips and power-ons -/

theorem recentTrips_powerDown (s : State) : recentTrips (powerDown s) = recentTrips s := by
  rw [recentTrips, powerDown_aon, recentTrips]

/-- A trip of a die that has its supplies: what it leaves in the always-on domain (R388, R389, R391). -/
theorem thermalTrip_outcome {s : State} (hon : s.sys.phase ≠ .off) (at_ : Nat) :
    ∃ t, exec (.thermalTrip at_) s = .next t ∧ t.sys.phase = .off ∧ t.aon = { s.aon with
      time := max s.aon.time at_, reelEn := false, brake := true, tripLatch := true, tripped := true
      trips := sat64 s.aon.trips 1, tripTimes := recentTrips (atTime at_ s) ++ [max s.aon.time at_]
      autoOff := decide (3 ≤ (recentTrips (atTime at_ s) ++ [max s.aon.time at_]).length)
      coreEn := false, hbmEn := false, supplyOk := false } := by
  have stillOn : (atTime at_ s).sys.phase ≠ .off := hon
  change ∃ t, execThermalTrip at_ s = .next t ∧ _
  simp only [execThermalTrip, if_neg stillOn, recentTrips_powerDown, powerDown_aon]
  exact ⟨_, rfl, rfl, rfl⟩

/-- With AUTO_RESTART_OFF set, sensors that have cooled restart nothing. -/
theorem exec_tripRestart_of_autoOff {t : State} (hauto : t.aon.autoOff = true) (later : Nat) :
    exec (.tripRestart later) t = .next (atTime later t) := by
  change execTripRestart later t = _
  simp [execTripRestart, atTime, hauto]

/-- A power-on starts a die that is off, unless a trip's restart is to come. -/
theorem powerOn_starts {t : State} (hoff : t.sys.phase = .off) (hstart : t.aon.tripped = false ∨ t.aon.autoOff = true) :
    ∃ u, exec .powerOn t = .next u ∧ u.sys.phase = .stepOne ∧ u.aon.autoOff = false ∧ u.aon.coreEn = true := by
  have starts : (decide (t.sys.phase ≠ .off) || (t.aon.tripped && !t.aon.autoOff)) = false := by
    rcases hstart with h | h <;> simp [hoff, h]
  change ∃ u, execPowerOn t = .next u ∧ _
  simp only [execPowerOn, starts, Bool.false_eq_true, if_false]
  exact ⟨_, rfl, rfl, rfl, rfl⟩

/-- A trip counts for 60 minutes of device time. -/
theorem mem_recentTrips_iff {s : State} {x : Nat} :
    x ∈ recentTrips s ↔ x ∈ s.aon.tripTimes ∧ (s.aon.time - x) * 640 < 3600000000000 := by
  simp [recentTrips, passedMs]

theorem two_le_length_of_mem_of_ne {a b : Nat} {l : List Nat} (ha : a ∈ l) (hb : b ∈ l) (hab : a ≠ b) : 2 ≤ l.length :=
  (List.subperm_of_subset (l₁ := [a, b]) (by simpa using hab) (by simp [ha, hb])).length_le

/-- Settles O36: the two earlier trips and this one are three within 60 minutes, so the trip sets AUTO_RESTART_OFF, which
holds off the restart and lets a power-on through. -/
theorem thirdTripWaitsForPowerOn : Obligations.ThirdTripWaitsForPowerOn := by
  intro at_ a b s hon ha hb hab _ hwithin
  obtain ⟨t, trip, off, domain⟩ := thermalTrip_outcome hon at_
  have recentA : a ∈ recentTrips (atTime at_ s) := mem_recentTrips_iff.2 ⟨ha, hwithin⟩
  have recentB : b ∈ recentTrips (atTime at_ s) :=
    mem_recentTrips_iff.2 ⟨hb, (Nat.mul_le_mul_right 640 (Nat.sub_le_sub_left hab.le _)).trans_lt hwithin⟩
  have two := two_le_length_of_mem_of_ne recentA recentB hab.ne
  have autoOff : t.aon.autoOff = true := by simp [domain, two]
  exact ⟨t, trip, autoOff, off, exec_tripRestart_of_autoOff autoOff, powerOn_starts off (.inr autoOff)⟩

end Sys2Proof.Proofs
end

section
/-! PROOFS. The event groups' status bits (18 R455): an RW1C write to CMD_EVG_STATUS_g whose bits the sources set again in the
same core cycle, and the message or pending bit of the group's vector. -/

namespace Sys2Proof.Proofs

open Sys2Proof.Machine Sys2Proof.Safety Sys2Proof.Laws

/-! ### A trigger of a vector -/

@[simp] theorem msixTrigger_cmd (v : Nat) (en : Bool) (s : State) : (msixTrigger v en s).cmd = s.cmd := by
  unfold msixTrigger
  (repeat' split) <;> rfl

/-- While the CXL.io stream is open, an enabled trigger of a masked vector sets its pending bit, any other sends its message. -/
theorem msixTrigger_enabled {s : State} (hopen : mmioOpen s) (v : Nat) :
    if s.hif.funcMask || !tabGet false s.hif.unmasked v then tabGet false (msixTrigger v true s).hif.pba v = true
    else (msixTrigger v true s).out = s.out ++ [.msix v] := by
  have notInsecure : decide (s.hif.ideIo.state = .insecure) = false := decide_eq_false hopen
  simp only [msixTrigger, Bool.not_true, Bool.false_eq_true, if_false, notInsecure, Bool.or_false]
  split
  · exact tabGet_tabSet false v true s.hif.pba
  · rfl

/-! ### A group and its status bits -/

theorem setGroup_getElem? {k : Nat} {g : EventGroup} {s : State} (hg : s.cmd.groups[k]? = some g) (f : EventGroup → EventGroup) :
    (setGroup k f s).cmd.groups[k]? = some (f g) := by
  simp [setGroup, hg]

/-- The bits that the write clears in the cycle in which their sources set them. -/
def clearedAndSet (value same : BitVec 32) (g : EventGroup) : BitVec 32 := value &&& g.status &&& same

/-- The group after the write: the bits written as 1 are cleared, but for those set in the same cycle. -/
def clearStatus (value same : BitVec 32) (g : EventGroup) : EventGroup :=
  { g with status := (g.status &&& ~~~value) ||| clearedAndSet value same g }

/-- The bits of group k whose sources are ORDERED, which no mask holds back. -/
def orderedBits (k : Nat) : BitVec 32 :=
  BitVec.ofNat 32 ((List.range 32).foldl (fun a b => a + boolNat (isOrdered (32 * k + b)) * 2 ^ b) 0)

/-- The bits of group k whose occurrence triggers its vector (R454 step 3). -/
def firingBits (k : Nat) (value same : BitVec 32) (g : EventGroup) : BitVec 32 :=
  clearedAndSet value same g &&& (~~~g.mask ||| orderedBits k)

theorem clearStatus_getLsbD (value same : BitVec 32) (g : EventGroup) {b : Nat} (hb : b < 32) :
    (clearStatus value same g).status.getLsbD b = (g.status.getLsbD b && (!value.getLsbD b || same.getLsbD b)) := by
  simp only [clearStatus, clearedAndSet, BitVec.getLsbD_or, BitVec.getLsbD_and, BitVec.getLsbD_not, hb, decide_true, Bool.true_and]
  cases g.status.getLsbD b <;> cases value.getLsbD b <;> simp

/-- An unmasked bit that is set in the cycle of its clear fires. -/
theorem firingBits_ne_zero {value same : BitVec 32} {g : EventGroup} {b : Nat} (hb : b < 32) (hstatus : g.status.getLsbD b = true)
    (hvalue : value.getLsbD b = true) (hsame : same.getLsbD b = true) (hmask : g.mask.getLsbD b = false) (k : Nat) :
    firingBits k value same g ≠ 0 := by
  intro hzero
  have hfires : (firingBits k value same g).getLsbD b = true := by
    simp only [firingBits, clearedAndSet, BitVec.getLsbD_and, BitVec.getLsbD_or, BitVec.getLsbD_not, hb, hstatus, hvalue, hsame,
      hmask, decide_true, Bool.not_false, Bool.and_self, Bool.true_or]
  simp [hzero] at hfires

/-- A write none of whose bits is set in its cycle fires nothing. -/
theorem firingBits_eq_zero {value same : BitVec 32} (hsame : ∀ b, b < 32 → value.getLsbD b = true → same.getLsbD b = false)
    (g : EventGroup) (k : Nat) : firingBits k value same g = 0 := by
  have noneSet : clearedAndSet value same g = 0 := by
    refine BitVec.eq_of_getLsbD_eq fun b hb => ?_
    cases hvalue : value.getLsbD b
    · simp [clearedAndSet, hvalue]
    · simp [clearedAndSet, hsame b hb hvalue]
  rw [firingBits, noneSet]
  exact BitVec.zero_and

/-! ### The write -/

/-- A write that the CXL.io stream carries: the group's status changes, and its vector is triggered when a bit fires. -/
theorem exec_evgStatusClear {k : Nat} {g : EventGroup} {s : State} (hopen : mmioOpen s) (hg : s.cmd.groups[k]? = some g)
    (value same : BitVec 32) :
    exec (.evgStatusClear k value same) s = .next
      (if firingBits k value same g = 0 then setGroup k (clearStatus value same) s
       else msixTrigger g.vector g.vecEn (setGroup k (clearStatus value same) s)) := by
  have stored : s.cmd.groups.getD k (.reset 0) = g := by simp [hg]
  have written : setGroup k (fun x => { x with status := (x.status &&& ~~~value) ||| clearedAndSet value same g }) s
      = setGroup k (clearStatus value same) s := by
    simp only [setGroup, List.modify_eq_set_getElem?, hg]
    rfl
  change execEvgStatusClear k value same s = _
  rw [execEvgStatusClear, onMmio_of_open hopen, stored, ← written]
  rfl

/-- Settles O27: the write changes one group and may trigger its vector; which bits fire decides between the two outcomes. -/
theorem statusBitSetInClearingCycle : Obligations.StatusBitSetInClearingCycle := by
  intro k value same g s hopen hg
  have hexec := exec_evgStatusClear hopen hg value same
  have hgroup := setGroup_getElem? hg (clearStatus value same)
  have hstatus := fun b (hb : b < 32) => clearStatus_getLsbD value same g hb
  by_cases hfires : firingBits k value same g = 0
  · rw [if_pos hfires] at hexec
    refine ⟨_, _, hexec, hgroup, hstatus, rfl, rfl, rfl, ?_, fun _ => ⟨rfl, rfl⟩, setGroup_device ..⟩
    intro b hb hset hvalue hsame hmask
    exact absurd hfires (firingBits_ne_zero hb hset hvalue hsame hmask k)
  · rw [if_neg hfires] at hexec
    refine ⟨_, _, hexec, by rw [msixTrigger_cmd, hgroup], hstatus, rfl, rfl, rfl, ?_, fun hsame => ?_, by simp⟩
    · intro b hb hset hvalue hsame hmask hen
      rw [hen]
      exact msixTrigger_enabled (s := setGroup k (clearStatus value same) s) hopen g.vector
    · exact absurd (firingBits_eq_zero hsame g k) hfires

end Sys2Proof.Proofs
end

section
/-! PROOFS. The tenant meters (16 R403, R404), the next JSN (03 R75) and the INSTANCE (06 R152): `f_kept` says that a command
leaves all three as they are; four commands change one of them. -/

namespace Sys2Proof.Proofs

open Sys2Proof.Machine Sys2Proof.Safety Sys2Proof.Laws

/-! ### Where a command leads -/

/-- Where an outcome leads, a property holds. -/
def Leads (P : State → Prop) : Out → Prop
  | .next t => P t
  | _ => True

@[simp] theorem leads_next (P : State → Prop) (t : State) : Leads P (.next t) ↔ P t := Iff.rfl

theorem leads_of_eq {P : State → Prop} {o : Out} {t : State} (h : o = .next t) (ht : P t) : Leads P o := h ▸ ht

theorem Leads.elim {P : State → Prop} {o : Out} {t : State} (h : Leads P o) (ho : o = .next t) : P t := by
  subst ho; exact h

/-! ### Lanes and work in blocks -/

/-- A command that works block by block keeps what its work on a block keeps. -/
theorem blockwise_kept (op jsn : Nat) (s : State) (k : JournalEntry → State → State) (hk : ∀ e u, (k e u).kept = u.kept) :
    Leads (·.kept = s.kept) (blockwise op jsn s k) := by
  unfold blockwise; split
  · exact hk _ _
  · exact onBegin_kept _ _ _ _ fun e _ u => hk e u

@[simp] theorem jobInput_kept (addr n : Nat) (s : State) : (jobInput addr n s).2.kept = s.kept := by
  simp [jobInput]

@[simp] theorem openFrameAt_kept (addr : Nat) (j : CipherJob) (s : State) : (openFrameAt addr j s).2.2.kept = s.kept := by
  simp [openFrameAt]

@[simp] theorem runUnwrap_kept (j : CipherJob) (s : State) : (runUnwrap j s).2.kept = s.kept := by
  unfold runUnwrap; dsimp only; split <;> simp

@[simp] theorem jobDone_kept (j : CipherJob) (o : CipherOutcome) (s : State) : (jobDone j o s).2.kept = s.kept := by
  unfold jobDone; split_ifs <;> simp

/-! ### The commands that change none of the three -/

@[simp] theorem execCmdRingCommitWrite_kept (s : State) : Leads (·.kept = s.kept) (execCmdRingCommitWrite s) := by
  exact onMmio_kept s _ (by simp)
@[simp] theorem execCmdSqTailWrite_kept (ring value : Nat) (s : State) :
    Leads (·.kept = s.kept) (execCmdSqTailWrite ring value s) := by
  simp [execCmdSqTailWrite]
@[simp] theorem execCmdCqHeadWrite_kept (ring value : Nat) (s : State) :
    Leads (·.kept = s.kept) (execCmdCqHeadWrite ring value s) := by
  simp [execCmdCqHeadWrite]
@[simp] theorem execCmdEvqHeadWrite_kept (value : Nat) (s : State) : Leads (·.kept = s.kept) (execCmdEvqHeadWrite value s) := by
  simp [execCmdEvqHeadWrite]
@[simp] theorem execSqEntryFetch_kept (ring : Nat) (words : List Word) (s : State) :
    Leads (·.kept = s.kept) (execSqEntryFetch ring words s) := by
  simp only [execSqEntryFetch, leads_next]; (repeat' split) <;> simp
@[simp] theorem execCmdCtrSopWrite_kept (w : Word) (s : State) : Leads (·.kept = s.kept) (execCmdCtrSopWrite w s) := by
  simp [execCmdCtrSopWrite]
@[simp] theorem execCmdCtrDataWrite_kept (w : Word) (s : State) : Leads (·.kept = s.kept) (execCmdCtrDataWrite w s) := by
  simp [execCmdCtrDataWrite]
@[simp] theorem execFlush_kept (s : State) : Leads (·.kept = s.kept) (execFlush s) := by
  simp [execFlush]
@[simp] theorem execClrCounts_kept (s : State) : Leads (·.kept = s.kept) (execClrCounts s) := by
  simp [execClrCounts]
@[simp] theorem execCmdCompatWrite_kept (value : Word) (s : State) : Leads (·.kept = s.kept) (execCmdCompatWrite value s) := by
  simp [execCmdCompatWrite]
@[simp] theorem execEvgStatusClear_kept (group : Nat) (value sameCycle : BitVec 32) (s : State) :
    Leads (·.kept = s.kept) (execEvgStatusClear group value sameCycle s) := by
  simp [execEvgStatusClear]
@[simp] theorem execJournalEntryDurable_kept (jsn : Nat) (s : State) : Leads (·.kept = s.kept) (execJournalEntryDurable jsn s) := by
  unfold execJournalEntryDurable; split <;> simp
@[simp] theorem execJournalSlotFreed_kept (jsn : Nat) (s : State) : Leads (·.kept = s.kept) (execJournalSlotFreed jsn s) := by
  unfold execJournalSlotFreed; split <;> simp
@[simp] theorem execManagementPacket_kept (words : List Word) (s : State) :
    Leads (·.kept = s.kept) (execManagementPacket words s) := by
  simp [execManagementPacket]
@[simp] theorem execUnitReport_kept (unit state : Nat) (s : State) : Leads (·.kept = s.kept) (execUnitReport unit state s) := by
  simp [execUnitReport]
@[simp] theorem execMgtEidAssigned_kept (eid dynAddr : Nat) (s : State) :
    Leads (·.kept = s.kept) (execMgtEidAssigned eid dynAddr s) := by
  simp [execMgtEidAssigned]
@[simp] theorem execAlloc_kept (owner size : Nat) (wait : Bool) (s : State) :
    Leads (·.kept = s.kept) (execAlloc owner size wait s) := by
  simp [execAlloc]
@[simp] theorem execShare_kept (owner : Nat) (h : Word) (new : Nat) (s : State) :
    Leads (·.kept = s.kept) (execShare owner h new s) := by
  simp [execShare]
@[simp] theorem execRelease_kept (owner : Nat) (h : Word) (s : State) : Leads (·.kept = s.kept) (execRelease owner h s) := by
  simp [execRelease]
@[simp] theorem execTransfer_kept (owner : Nat) (h : Word) (dest : Nat) (s : State) :
    Leads (·.kept = s.kept) (execTransfer owner h dest s) := by
  simp [execTransfer]
@[simp] theorem execFree_kept (owner : Nat) (h : Word) (s : State) : Leads (·.kept = s.kept) (execFree owner h s) := by
  simp [execFree]
@[simp] theorem execOpenContext_kept (jsn : Nat) (s : State) : Leads (·.kept = s.kept) (execOpenContext jsn s) := by
  simp [execOpenContext]
@[simp] theorem execCloseContext_kept (jsn : Nat) (s : State) : Leads (·.kept = s.kept) (execCloseContext jsn s) := by
  simp [execCloseContext]
@[simp] theorem execSetContextProfile_kept (jsn : Nat) (s : State) : Leads (·.kept = s.kept) (execSetContextProfile jsn s) := by
  simp [execSetContextProfile]
@[simp] theorem execReadOverflow_kept (jsn : Nat) (part : Option Nat) (s : State) :
    Leads (·.kept = s.kept) (execReadOverflow jsn part s) := by
  unfold execReadOverflow; dsimp only; split
  · (repeat' split) <;> simp
  · refine onBegin_kept _ _ _ _ fun e r s => ?_; (repeat' split) <;> simp
@[simp] theorem execCxlMemRead_kept (hpa : Nat) (s : State) : Leads (·.kept = s.kept) (execCxlMemRead hpa s) := by
  unfold execCxlMemRead; split <;> simp
@[simp] theorem execMemWr_kept (hpa : Nat) (data : List Byte) (s : State) : Leads (·.kept = s.kept) (execMemWr hpa data s) := by
  unfold execMemWr; split <;> simp
@[simp] theorem execMemWrPtl_kept (hpa : Nat) (data : List (Option Byte)) (s : State) :
    Leads (·.kept = s.kept) (execMemWrPtl hpa data s) := by
  unfold execMemWrPtl; split <;> simp
@[simp] theorem execPatrolScrub_kept (hbm : Bool) (addr : Nat) (s : State) :
    Leads (·.kept = s.kept) (execPatrolScrub hbm addr s) := by
  simp [execPatrolScrub]
@[simp] theorem execPcRetrainDone_kept (passed : Bool) (at_ : Nat) (s : State) :
    Leads (·.kept = s.kept) (execPcRetrainDone passed at_ s) := by
  simp only [execPcRetrainDone, leads_next]; split <;> simp
@[simp] theorem execArm_kept (value : Word) (s : State) : Leads (·.kept = s.kept) (execArm value s) := by
  simp [execArm]
@[simp] theorem execSetContextKey_kept (jsn : Nat) (s : State) : Leads (·.kept = s.kept) (execSetContextKey jsn s) := by
  unfold execSetContextKey; refine onBegin_kept _ _ _ _ fun e r s => ?_; dsimp only; (repeat' split) <;> simp
@[simp] theorem execCphRqPush_kept (desc : List Word) (s : State) : Leads (·.kept = s.kept) (execCphRqPush desc s) := by
  simp [execCphRqPush]
@[simp] theorem execCphRqCancel_kept (cookie : Word) (s : State) : Leads (·.kept = s.kept) (execCphRqCancel cookie s) := by
  simp [execCphRqCancel]
@[simp] theorem execCphCqPop_kept (s : State) : Leads (·.kept = s.kept) (execCphCqPop s) := by
  unfold execCphCqPop; split <;> simp
@[simp] theorem execCphRequestComplete_kept (lane : Nat) (o : CipherOutcome) (s : State) :
    Leads (·.kept = s.kept) (execCphRequestComplete lane o s) := by
  unfold execCphRequestComplete; dsimp only; split
  · rfl
  · next j _ => simp [jobDone_kept]
@[simp] theorem execCeilRaiseDurable_kept (s : State) : Leads (·.kept = s.kept) (execCeilRaiseDurable s) := by
  unfold execCeilRaiseDurable; split <;> simp
@[simp] theorem execWriteRecords_kept (jsn : Nat) (list : Option (List ListEntry)) (s : State) :
    Leads (·.kept = s.kept) (execWriteRecords jsn list s) := by
  unfold execWriteRecords; refine onTape_kept _ _ _ _ fun e r s => ?_; dsimp only; (repeat' split) <;> simp
@[simp] theorem execWriteFilemarks_kept (jsn : Nat) (s : State) : Leads (·.kept = s.kept) (execWriteFilemarks jsn s) := by
  simp [execWriteFilemarks]
@[simp] theorem execSync_kept (jsn : Nat) (s : State) : Leads (·.kept = s.kept) (execSync jsn s) := by
  simp [execSync]
@[simp] theorem execHostRecordFetch_kept (jsn : Nat) (bytes : List Byte) (macOk : Bool) (s : State) :
    Leads (·.kept = s.kept) (execHostRecordFetch jsn bytes macOk s) := by
  simp only [execHostRecordFetch, leads_next]; (repeat' split) <;> simp
@[simp] theorem execPkrBlockEncoded_kept (jsn lane : Nat) (s : State) : Leads (·.kept = s.kept) (execPkrBlockEncoded jsn lane s) := by
  unfold execPkrBlockEncoded; split <;> simp
@[simp] theorem execPkrSelfcheck_kept (jsn lane : Nat) (pass retryPass : Bool) (s : State) :
    Leads (·.kept = s.kept) (execPkrSelfcheck jsn lane pass retryPass s) := by
  unfold execPkrSelfcheck; dsimp only; (repeat' split)
  · rfl
  · rfl
  · simp
  · simp
  · rw [leads_next, setWrite_kept, setUnit_kept, raiseP_kept]
    exact (raiseP_kept evPkrSelfcheckFail _ _).trans (markRetried_kept jsn _)
@[simp] theorem execFormatterPlaceBlock_kept (jsn lane : Nat) (check retry : Bool) (s : State) :
    Leads (·.kept = s.kept) (execFormatterPlaceBlock jsn lane check retry s) := by
  unfold execFormatterPlaceBlock; (repeat' split) <;> simp
@[simp] theorem execDatasetIdleClose_kept (at_ : Nat) (s : State) : Leads (·.kept = s.kept) (execDatasetIdleClose at_ s) := by
  simp only [execDatasetIdleClose, leads_next]; split <;> simp
@[simp] theorem execWritingRunStart_kept (at_ : Nat) (atStep : Bool) (s : State) :
    Leads (·.kept = s.kept) (execWritingRunStart at_ atStep s) := by
  simp only [execWritingRunStart, leads_next]; (repeat' split) <;> simp
@[simp] theorem execCmStatusWrite_kept (s : State) : Leads (·.kept = s.kept) (execCmStatusWrite s) := by
  simp [execCmStatusWrite]
@[simp] theorem execDatasetRelease_kept (s : State) : Leads (·.kept = s.kept) (execDatasetRelease s) := by
  unfold execDatasetRelease; (repeat' split) <;> simp
@[simp] theorem execReleaseRecordDurable_kept (seq : Nat) (s : State) : Leads (·.kept = s.kept) (execReleaseRecordDurable seq s) := by
  unfold execReleaseRecordDurable; split <;> simp
@[simp] theorem execLoad_kept (jsn : Nat) (done : Bool) (s : State) : Leads (·.kept = s.kept) (execLoad jsn done s) := by
  unfold execLoad; refine onMotion_kept _ _ _ _ _ fun e r s => ?_; dsimp only
  have loads : (loadCart (dropHeld s)).2.kept = s.kept := by simp
  (repeat' split)
  · simp
  · simp
  · next heq => simpa [heq] using loads
  · next heq => simpa [heq] using loads
@[simp] theorem execUnload_kept (jsn : Nat) (done : Bool) (s : State) : Leads (·.kept = s.kept) (execUnload jsn done s) := by
  simp [execUnload]
@[simp] theorem execRewind_kept (jsn : Nat) (done : Bool) (s : State) : Leads (·.kept = s.kept) (execRewind jsn done s) := by
  simp [execRewind]
@[simp] theorem execLocate_kept (jsn : Nat) (done : Bool) (s : State) : Leads (·.kept = s.kept) (execLocate jsn done s) := by
  simp [execLocate]
@[simp] theorem execSpace_kept (jsn : Nat) (passed : Option Nat) (s : State) : Leads (·.kept = s.kept) (execSpace jsn passed s) := by
  unfold execSpace; split <;> simp
@[simp] theorem execFormatPartitions_kept (jsn : Nat) (s : State) : Leads (·.kept = s.kept) (execFormatPartitions jsn s) := by
  unfold execFormatPartitions; refine onTape_kept _ _ _ _ fun e r s => ?_; dsimp only; (repeat' split) <;> simp
@[simp] theorem execFmtDatasetInfo_kept (jsn : Nat) (s : State) : Leads (·.kept = s.kept) (execFmtDatasetInfo jsn s) := by
  unfold execFmtDatasetInfo; refine onTape_kept _ _ _ _ fun e r s => withPartition_kept _ _ _ _ fun c s => ?_
  dsimp only; split <;> simp
@[simp] theorem execFmtCmAccess_kept (jsn : Nat) (bytes : List Byte) (s : State) :
    Leads (·.kept = s.kept) (execFmtCmAccess jsn bytes s) := by
  unfold execFmtCmAccess; refine onBegin_kept _ _ _ _ fun e r s => ?_; dsimp only; (repeat' split) <;> simp
@[simp] theorem execC3Decode_kept (seq subset : Nat) (s : State) : Leads (·.kept = s.kept) (execC3Decode seq subset s) := by
  unfold execC3Decode; split <;> simp
@[simp] theorem execReadAutoRetry_kept (seq : Nat) (found : Bool) (slots : List SlotReading) (s : State) :
    Leads (·.kept = s.kept) (execReadAutoRetry seq found slots s) := by
  simp only [execReadAutoRetry, leads_next]; (repeat' split) <;> simp
@[simp] theorem execRecoveryPass_kept (seq : Nat) (found : Bool) (slots : List SlotReading) (s : State) :
    Leads (·.kept = s.kept) (execRecoveryPass seq found slots s) := by
  unfold execRecoveryPass; split <;> simp
@[simp] theorem execSubdatasetDecode_kept (seq subset : Nat) (found : Bool) (ahead : Nat) (slots : List SlotReading) (s : State) :
    Leads (·.kept = s.kept) (execSubdatasetDecode seq subset found ahead slots s) := by
  unfold execSubdatasetDecode; split <;> simp
@[simp] theorem execReadRecords_kept (jsn : Nat) (tags : List TagFailure) (s : State) :
    Leads (·.kept = s.kept) (execReadRecords jsn tags s) := by
  simp [execReadRecords]
@[simp] theorem execVerifyRange_kept (jsn : Nat) (tags : List TagFailure) (s : State) :
    Leads (·.kept = s.kept) (execVerifyRange jsn tags s) := by
  simp [execVerifyRange]
@[simp] theorem execDrvSetSection_kept (jsn : Nat) (s : State) : Leads (·.kept = s.kept) (execDrvSetSection jsn s) := by
  simp [execDrvSetSection]
@[simp] theorem execDrvSetMode_kept (jsn : Nat) (s : State) : Leads (·.kept = s.kept) (execDrvSetMode jsn s) := by
  simp [execDrvSetMode]
@[simp] theorem execDrvMove_kept (jsn at_ : Nat) (s : State) : Leads (·.kept = s.kept) (execDrvMove jsn at_ s) := by
  simp [execDrvMove]
@[simp] theorem execDrvMoveTimeout_kept (jsn at_ : Nat) (s : State) : Leads (·.kept = s.kept) (execDrvMoveTimeout jsn at_ s) := by
  simp only [execDrvMoveTimeout, leads_next]; (repeat' split) <;> simp
@[simp] theorem execDrvCapture_kept (jsn : Nat) (s : State) : Leads (·.kept = s.kept) (execDrvCapture jsn s) := by
  unfold execDrvCapture; refine onBegin_kept _ _ _ _ fun e r s => needUnits_kept _ _ _ _ fun s => ?_
  split
  · simp
  · exact (setRun_kept _ _ (startRun jsn s)).trans (startRun_kept jsn s)
@[simp] theorem execDrvCommitWrite_kept (s : State) : Leads (·.kept = s.kept) (execDrvCommitWrite s) := by
  exact onMmio_kept s _ (by simp)
@[simp] theorem execDrvCoefWrite_kept (loop sec reg : Nat) (value : Word) (s : State) :
    Leads (·.kept = s.kept) (execDrvCoefWrite loop sec reg value s) := by
  simp [execDrvCoefWrite]
@[simp] theorem execDrvModeWrite_kept (loop : Nat) (value : Word) (s : State) :
    Leads (·.kept = s.kept) (execDrvModeWrite loop value s) := by
  simp [execDrvModeWrite]
@[simp] theorem execDrvTargetWrite_kept (loop : Nat) (value : Word) (s : State) :
    Leads (·.kept = s.kept) (execDrvTargetWrite loop value s) := by
  simp [execDrvTargetWrite]
@[simp] theorem execDrvMonCommitWrite_kept (s : State) : Leads (·.kept = s.kept) (execDrvMonCommitWrite s) := by
  exact onMmio_kept s _ (by simp)
@[simp] theorem execSpmCommitWrite_kept (s : State) : Leads (·.kept = s.kept) (execSpmCommitWrite s) := by
  exact onMmio_kept s _ (by simp)
@[simp] theorem execServoMeasurementPost_kept (m : List (Nat × Int)) (cycle : Nat) (s : State) :
    Leads (·.kept = s.kept) (execServoMeasurementPost m cycle s) := by
  simp [execServoMeasurementPost]
@[simp] theorem execDacWriteDone_kept (s : State) : Leads (·.kept = s.kept) (execDacWriteDone s) := by
  simp [execDacWriteDone]
@[simp] theorem execDiagSafeStop_kept (jsn : Nat) (s : State) : Leads (·.kept = s.kept) (execDiagSafeStop jsn s) := by
  simp [execDiagSafeStop]
@[simp] theorem execSafeStopEnd_kept (at_ : Nat) (s : State) : Leads (·.kept = s.kept) (execSafeStopEnd at_ s) := by
  simp only [execSafeStopEnd, leads_next]; (repeat' split) <;> simp
@[simp] theorem execSafeStopRetry_kept (failed : List Nat) (at_ : Nat) (s : State) :
    Leads (·.kept = s.kept) (execSafeStopRetry failed at_ s) := by
  simp only [execSafeStopRetry, leads_next]; (repeat' split) <;> simp
@[simp] theorem execServoFrameDetected_kept (fast : Bool) (s : State) : Leads (·.kept = s.kept) (execServoFrameDetected fast s) := by
  simp [execServoFrameDetected]
@[simp] theorem execServoLoss_kept (at_ : Nat) (s : State) : Leads (·.kept = s.kept) (execServoLoss at_ s) := by
  simp [execServoLoss]
@[simp] theorem execServoLossTimeout_kept (sfn at_ : Nat) (s : State) : Leads (·.kept = s.kept) (execServoLossTimeout sfn at_ s) := by
  simp only [execServoLossTimeout, leads_next]; (repeat' split) <;> simp
@[simp] theorem execHlkLinkTraining_kept (t : TrainResult) (s : State) : Leads (·.kept = s.kept) (execHlkLinkTraining t s) := by
  simp [execHlkLinkTraining]
@[simp] theorem execSamples_kept (f : LinkFrame) (s : State) : Leads (·.kept = s.kept) (execSamples f s) := by
  simp [execSamples]
@[simp] theorem execServo_kept (f : LinkFrame) (s : State) : Leads (·.kept = s.kept) (execServo f s) := by
  simp [execServo]
@[simp] theorem execStatus_kept (f : LinkFrame) (s : State) : Leads (·.kept = s.kept) (execStatus f s) := by
  simp [execStatus]
@[simp] theorem execReply_kept (f : LinkFrame) (s : State) : Leads (·.kept = s.kept) (execReply f s) := by
  exact onFrame_kept 4 f s _ fun _ _ => rfl
@[simp] theorem execIdent_kept (f : LinkFrame) (s : State) : Leads (·.kept = s.kept) (execIdent f s) := by
  simp [execIdent]
@[simp] theorem execBlockLockLoss_kept (lane : Nat) (s : State) : Leads (·.kept = s.kept) (execBlockLockLoss lane s) := by
  simp [execBlockLockLoss]
@[simp] theorem execReorderTimeout_kept (lane source missing : Nat) (s : State) :
    Leads (·.kept = s.kept) (execReorderTimeout lane source missing s) := by
  refine leads_of_eq rfl ?_
  cases (s.hlk.ahead.filter (·.1 == source)).map (·.2.1) with
  | nil => rfl
  | cons i t => exact (drainAhead_kept ..).trans ((takeItems_kept ..).trans (modLane_kept lane _ s))
@[simp] theorem execLaneRetrainDone_kept (passed : Bool) (at_ : Nat) (s : State) :
    Leads (·.kept = s.kept) (execLaneRetrainDone passed at_ s) := by
  simp only [execLaneRetrainDone, leads_next]; split <;> simp
@[simp] theorem execHlkCommitWrite_kept (s : State) : Leads (·.kept = s.kept) (execHlkCommitWrite s) := by
  exact onMmio_kept s _ (by simp)
@[simp] theorem execHlkLaneRetrain_kept (lane : Nat) (s : State) : Leads (·.kept = s.kept) (execHlkLaneRetrain lane s) := by
  simp [execHlkLaneRetrain]
@[simp] theorem execHlkLaneRetire_kept (lane : Nat) (s : State) : Leads (·.kept = s.kept) (execHlkLaneRetire lane s) := by
  simp [execHlkLaneRetire]
@[simp] theorem execThermalSample_kept (sensor : Nat) (raw : Int) (at_ : Nat) (s : State) :
    Leads (·.kept = s.kept) (execThermalSample sensor raw at_ s) := by
  simp only [execThermalSample, leads_next]; split <;> simp
@[simp] theorem execThmSensorLasting_kept (sensor at_ : Nat) (s : State) :
    Leads (·.kept = s.kept) (execThmSensorLasting sensor at_ s) := by
  simp only [execThmSensorLasting, leads_next]; split <;> simp
@[simp] theorem execThrottleEvaluation_kept (at_ : Nat) (s : State) : Leads (·.kept = s.kept) (execThrottleEvaluation at_ s) := by
  simp only [execThrottleEvaluation, leads_next]; split <;> simp
@[simp] theorem execThermalStop_kept (at_ : Nat) (s : State) : Leads (·.kept = s.kept) (execThermalStop at_ s) := by
  simp only [execThermalStop, leads_next]; split <;> simp
@[simp] theorem execThermalLimitTimeout_kept (jsn at_ : Nat) (s : State) :
    Leads (·.kept = s.kept) (execThermalLimitTimeout jsn at_ s) := by
  simp only [execThermalLimitTimeout, leads_next]; (repeat' split) <;> simp
@[simp] theorem execThmCommitWrite_kept (s : State) : Leads (·.kept = s.kept) (execThmCommitWrite s) := by
  exact onMmio_kept s _ (by simp)
@[simp] theorem execTallyResendTimeout_kept (at_ : Nat) (s : State) : Leads (·.kept = s.kept) (execTallyResendTimeout at_ s) := by
  simp [execTallyResendTimeout]
@[simp] theorem execWhStatusPublish_kept (at_ : Nat) (temp : Int) (s : State) :
    Leads (·.kept = s.kept) (execWhStatusPublish at_ temp s) := by
  simp [execWhStatusPublish]
@[simp] theorem execWhUnavailable_kept (at_ : Nat) (s : State) : Leads (·.kept = s.kept) (execWhUnavailable at_ s) := by
  simp [execWhUnavailable]
@[simp] theorem execWhRetryExpiry_kept (at_ : Nat) (s : State) : Leads (·.kept = s.kept) (execWhRetryExpiry at_ s) := by
  simp only [execWhRetryExpiry, leads_next]; split <;> simp
@[simp] theorem execFormationBlockTimeout_kept (at_ : Nat) (s : State) :
    Leads (·.kept = s.kept) (execFormationBlockTimeout at_ s) := by
  simp [execFormationBlockTimeout]
@[simp] theorem execEpochWaitTimeout_kept (jsn at_ : Nat) (s : State) : Leads (·.kept = s.kept) (execEpochWaitTimeout jsn at_ s) := by
  simp only [execEpochWaitTimeout, leads_next]; split <;> simp
@[simp] theorem execExtend_kept (stage : Nat) (digest : List Byte) (s : State) :
    Leads (·.kept = s.kept) (execExtend stage digest s) := by
  simp [execExtend]
@[simp] theorem execClose_kept (s : State) : Leads (·.kept = s.kept) (execClose s) := by
  simp [execClose]
@[simp] theorem execLedgerGet_kept (firstEpoch count : Nat) (s : State) :
    Leads (·.kept = s.kept) (execLedgerGet firstEpoch count s) := by
  simp [execLedgerGet]
@[simp] theorem execStatement_kept (r : StatementReq) (s : State) : Leads (·.kept = s.kept) (execStatement r s) := by
  simp [execStatement]
@[simp] theorem execSpdm_kept (mctp : Bool) (msg : List Byte) (s : State) : Leads (·.kept = s.kept) (execSpdm mctp msg s) := by
  simp [execSpdm]
@[simp] theorem execGetMeasurements_kept (mctp : Bool) (index : Nat) (s : State) :
    Leads (·.kept = s.kept) (execGetMeasurements mctp index s) := by
  simp [execGetMeasurements]
@[simp] theorem execIdeKm_kept (stream : IdeStream) (msg : List Byte) (s : State) :
    Leads (·.kept = s.kept) (execIdeKm stream msg s) := by
  simp [execIdeKm]
@[simp] theorem execMarkRead_kept (epochs : List Nat) (s : State) : Leads (·.kept = s.kept) (execMarkRead epochs s) := by
  simp [execMarkRead]
@[simp] theorem execSend_kept (s : State) : Leads (·.kept = s.kept) (execSend s) := by
  simp [execSend]
@[simp] theorem execRomExit_kept (s : State) : Leads (·.kept = s.kept) (execRomExit s) := by
  simp [execRomExit]
@[simp] theorem execWhMbPop_kept (s : State) : Leads (·.kept = s.kept) (execWhMbPop s) := by
  simp [execWhMbPop]
@[simp] theorem execWhRstN_kept (s : State) : Leads (·.kept = s.kept) (execWhRstN s) := by
  simp [execWhRstN]
@[simp] theorem execWhSupplyLoss_kept (s : State) : Leads (·.kept = s.kept) (execWhSupplyLoss s) := by
  simp [execWhSupplyLoss]
@[simp] theorem execWhTimeCheckpoint_kept (s : State) : Leads (·.kept = s.kept) (execWhTimeCheckpoint s) := by
  simp [execWhTimeCheckpoint]
@[simp] theorem execLedgerRead_kept (jsn : Nat) (s : State) : Leads (·.kept = s.kept) (execLedgerRead jsn s) := by
  simp [execLedgerRead]
@[simp] theorem execMeterStatement_kept (jsn : Nat) (s : State) : Leads (·.kept = s.kept) (execMeterStatement jsn s) := by
  simp [execMeterStatement]
@[simp] theorem execNop_kept (jsn : Nat) (s : State) : Leads (·.kept = s.kept) (execNop jsn s) := by
  simp [execNop]
@[simp] theorem execNopDelayExpiry_kept (jsn : Nat) (s : State) : Leads (·.kept = s.kept) (execNopDelayExpiry jsn s) := by
  unfold execNopDelayExpiry; split <;> simp
@[simp] theorem execIdentify_kept (jsn : Nat) (s : State) : Leads (·.kept = s.kept) (execIdentify jsn s) := by
  simp [execIdentify]
@[simp] theorem execGetStatus_kept (jsn : Nat) (s : State) : Leads (·.kept = s.kept) (execGetStatus jsn s) := by
  simp [execGetStatus]
@[simp] theorem execGetLog_kept (jsn : Nat) (s : State) : Leads (·.kept = s.kept) (execGetLog jsn s) := by
  simp [execGetLog]
@[simp] theorem execClearLog_kept (jsn : Nat) (s : State) : Leads (·.kept = s.kept) (execClearLog jsn s) := by
  simp [execClearLog]
@[simp] theorem execIdleEntry_kept (at_ : Nat) (s : State) : Leads (·.kept = s.kept) (execIdleEntry at_ s) := by
  simp [execIdleEntry]
@[simp] theorem execSetWakeTolerance_kept (jsn : Nat) (s : State) : Leads (·.kept = s.kept) (execSetWakeTolerance jsn s) := by
  simp [execSetWakeTolerance]
@[simp] theorem execWakeTrigger_kept (k : WakeKind) (s : State) : Leads (·.kept = s.kept) (execWakeTrigger k s) := by
  simp [execWakeTrigger]
@[simp] theorem execWake_kept (s : State) : Leads (·.kept = s.kept) (execWake s) := by
  simp [execWake]
@[simp] theorem execWakeComplete_kept (t : TrainResult) (s : State) : Leads (·.kept = s.kept) (execWakeComplete t s) := by
  simp [execWakeComplete]
@[simp] theorem execCartPresenceChange_kept (c : Option Cartridge) (s : State) :
    Leads (·.kept = s.kept) (execCartPresenceChange c s) := by
  unfold execCartPresenceChange; (repeat' split) <;> simp
@[simp] theorem execTapeSlack_kept (asserted : Bool) (s : State) : Leads (·.kept = s.kept) (execTapeSlack asserted s) := by
  simp [execTapeSlack]
@[simp] theorem execWarmReset_kept (c : LinkReset) (s : State) : Leads (·.kept = s.kept) (execWarmReset c s) := by
  unfold execWarmReset; (repeat' split) <;> simp
@[simp] theorem execSysResetCtrlWarm_kept (s : State) : Leads (·.kept = s.kept) (execSysResetCtrlWarm s) := by
  simp [execSysResetCtrlWarm]
@[simp] theorem execSysResetCtrlCold_kept (s : State) : Leads (·.kept = s.kept) (execSysResetCtrlCold s) := by
  simp [execSysResetCtrlCold]
@[simp] theorem execColdRstN_kept (s : State) : Leads (·.kept = s.kept) (execColdRstN s) := by
  simp [execColdRstN]
@[simp] theorem execColdResetStopEnd_kept (at_ : Nat) (s : State) : Leads (·.kept = s.kept) (execColdResetStopEnd at_ s) := by
  simp [execColdResetStopEnd]
@[simp] theorem execThermalTrip_kept (at_ : Nat) (s : State) : Leads (·.kept = s.kept) (execThermalTrip at_ s) := by
  simp [execThermalTrip]
@[simp] theorem execSupplyLoss_kept (s : State) : Leads (·.kept = s.kept) (execSupplyLoss s) := by
  unfold execSupplyLoss; split <;> simp
@[simp] theorem execTripRestart_kept (at_ : Nat) (s : State) : Leads (·.kept = s.kept) (execTripRestart at_ s) := by
  simp [execTripRestart]
@[simp] theorem execPowerOn_kept (s : State) : Leads (·.kept = s.kept) (execPowerOn s) := by
  change State.kept _ = _
  split
  · rfl
  · rw [toStepOne_kept, setCause_kept, kept_mk]; rfl
@[simp] theorem execStartUpSequence_kept (b : BootInput) (t : TrainResult) (s : State) :
    Leads (·.kept = s.kept) (execStartUpSequence b t s) := by
  simp [execStartUpSequence]
@[simp] theorem execReplayOpenCommands_kept (s : State) : Leads (·.kept = s.kept) (execReplayOpenCommands s) := by
  simp [execReplayOpenCommands]
@[simp] theorem execReplayReportPosted_kept (s : State) : Leads (·.kept = s.kept) (execReplayReportPosted s) := by
  simp [execReplayReportPosted]
@[simp] theorem execCmdAbortWrite_kept (jsn : Nat) (s : State) : Leads (·.kept = s.kept) (execCmdAbortWrite jsn s) := by
  simp [execCmdAbortWrite]
@[simp] theorem execAbortRecorded_kept (s : State) : Leads (·.kept = s.kept) (execAbortRecorded s) := by
  unfold execAbortRecorded; (repeat' split) <;> simp
@[simp] theorem execSysCoreKick_kept (core at_ : Nat) (s : State) : Leads (·.kept = s.kept) (execSysCoreKick core at_ s) := by
  simp [execSysCoreKick]
@[simp] theorem execCoreWatchdogExpiry_kept (core at_ : Nat) (s : State) :
    Leads (·.kept = s.kept) (execCoreWatchdogExpiry core at_ s) := by
  simp [execCoreWatchdogExpiry]
@[simp] theorem execCoreRetryDone_kept (core : Nat) (ok : Bool) (at_ : Nat) (s : State) :
    Leads (·.kept = s.kept) (execCoreRetryDone core ok at_ s) := by
  simp [execCoreRetryDone]
@[simp] theorem execDiagCipherSelftest_kept (jsn : Nat) (passed : BitVec 8) (done : Bool) (s : State) :
    Leads (·.kept = s.kept) (execDiagCipherSelftest jsn passed done s) := by
  unfold execDiagCipherSelftest; split <;> simp
@[simp] theorem execDiagUnitOffline_kept (jsn : Nat) (s : State) : Leads (·.kept = s.kept) (execDiagUnitOffline jsn s) := by
  simp [execDiagUnitOffline]
@[simp] theorem execDiagUnitOnline_kept (jsn : Nat) (s : State) : Leads (·.kept = s.kept) (execDiagUnitOnline jsn s) := by
  simp [execDiagUnitOnline]
@[simp] theorem execDiagClearRetirement_kept (jsn : Nat) (s : State) : Leads (·.kept = s.kept) (execDiagClearRetirement jsn s) := by
  simp [execDiagClearRetirement]
@[simp] theorem execDiagReset_kept (jsn : Nat) (s : State) : Leads (·.kept = s.kept) (execDiagReset jsn s) := by
  simp [execDiagReset]
@[simp] theorem execLinkNegotiation_kept (o : LinkOffer) (s : State) : Leads (·.kept = s.kept) (execLinkNegotiation o s) := by
  simp only [execLinkNegotiation, leads_next]; (repeat' split) <;> simp
@[simp] theorem execBusMasterEnable_kept (s : State) : Leads (·.kept = s.kept) (execBusMasterEnable s) := by
  simp [execBusMasterEnable]
@[simp] theorem execHdmDecoderCommit_kept (base size iw : Nat) (lock : Bool) (s : State) :
    Leads (·.kept = s.kept) (execHdmDecoderCommit base size iw lock s) := by
  simp [execHdmDecoderCommit]
@[simp] theorem execCxlSnoop_kept (line : Nat) (s : State) : Leads (·.kept = s.kept) (execCxlSnoop line s) := by
  simp [execCxlSnoop]
@[simp] theorem execAtsInvalidate_kept (addr size : Nat) (gone : Bool) (s : State) :
    Leads (·.kept = s.kept) (execAtsInvalidate addr size gone s) := by
  simp [execAtsInvalidate]
@[simp] theorem execDoeRequest_kept (vendor dtype : Nat) (payload : List Byte) (s : State) :
    Leads (·.kept = s.kept) (execDoeRequest vendor dtype payload s) := by
  simp [execDoeRequest]
@[simp] theorem execDoeAbort_kept (s : State) : Leads (·.kept = s.kept) (execDoeAbort s) := by
  simp [execDoeAbort]
@[simp] theorem execIdeIntegrityFail_kept (st : IdeStream) (lines at_ : Nat) (s : State) :
    Leads (·.kept = s.kept) (execIdeIntegrityFail st lines at_ s) := by
  simp [execIdeIntegrityFail]
@[simp] theorem execIdeKeysEstablished_kept (st : IdeStream) (s : State) : Leads (·.kept = s.kept) (execIdeKeysEstablished st s) := by
  simp [execIdeKeysEstablished]
@[simp] theorem execIdeKeyTimeout_kept (st : IdeStream) (at_ : Nat) (s : State) :
    Leads (·.kept = s.kept) (execIdeKeyTimeout st at_ s) := by
  simp [execIdeKeyTimeout]
@[simp] theorem execMsixUnmask_kept (vec : Nat) (s : State) : Leads (·.kept = s.kept) (execMsixUnmask vec s) := by
  simp [execMsixUnmask]
@[simp] theorem execMctpSpdmRequest_kept (mtype : Nat) (msg : List Byte) (s : State) :
    Leads (·.kept = s.kept) (execMctpSpdmRequest mtype msg s) := by
  simp [execMctpSpdmRequest]
@[simp] theorem execPkrBlockDecoded_kept (jsn lane record : Nat) (block history : List Byte) (glitch : Bool) (retryLane : Nat) (s : State) :
    Leads (·.kept = s.kept) (execPkrBlockDecoded jsn lane record block history glitch retryLane s) := by
  unfold execPkrBlockDecoded; dsimp only
  have noted : (raiseN evPkrDecodeErr { s with pkr := { s.pkr with decodeErrs := sat64 s.pkr.decodeErrs 1 } }).kept = s.kept :=
    raiseN_kept ..
  (repeat' split)
  · rfl
  · exact noted
  · rw [leads_next, laneTransient_kept, markRetried_kept, noted]
  · rw [leads_next, setUnit_kept, raiseP_kept]
    exact (markRetried_kept jsn _).trans noted
@[simp] theorem execPkrEstimate_kept (jsn : Nat) (bytes : List Byte) (part : Option Nat) (s : State) :
    Leads (·.kept = s.kept) (execPkrEstimate jsn bytes part s) := by
  refine blockwise_kept _ _ _ _ fun e s => ?_
  dsimp only; split <;> simp
@[simp] theorem execPkrSetLevel_kept (jsn : Nat) (s : State) : Leads (·.kept = s.kept) (execPkrSetLevel jsn s) := by
  simp [execPkrSetLevel]
@[simp] theorem execPkrDecode_kept (jsn : Nat) (bytes : List Byte) (part : Option Nat) (s : State) :
    Leads (·.kept = s.kept) (execPkrDecode jsn bytes part s) := by
  refine blockwise_kept _ _ _ _ fun e s => ?_
  dsimp only; (repeat' split) <;> simp
@[simp] theorem execTecSetDecode_kept (jsn : Nat) (s : State) : Leads (·.kept = s.kept) (execTecSetDecode jsn s) := by
  simp [execTecSetDecode]
@[simp] theorem execTecTrackQuality_kept (jsn : Nat) (s : State) : Leads (·.kept = s.kept) (execTecTrackQuality jsn s) := by
  simp [execTecTrackQuality]
@[simp] theorem execTecSetDetector_kept (jsn : Nat) (s : State) : Leads (·.kept = s.kept) (execTecSetDetector jsn s) := by
  simp [execTecSetDetector]
@[simp] theorem execTecCapture_kept (jsn : Nat) (slots : List (List Int)) (s : State) :
    Leads (·.kept = s.kept) (execTecCapture jsn slots s) := by
  unfold execTecCapture; split <;> simp
@[simp] theorem execTecCaptureTimeout_kept (jsn at_ : Nat) (s : State) :
    Leads (·.kept = s.kept) (execTecCaptureTimeout jsn at_ s) := by
  simp only [execTecCaptureTimeout, leads_next]; (repeat' split) <;> simp
@[simp] theorem execTecC1Encode_kept (jsn : Nat) (bytes : List Byte) (s : State) :
    Leads (·.kept = s.kept) (execTecC1Encode jsn bytes s) := by
  simp [execTecC1Encode]
@[simp] theorem execMmioAccessRefused_kept (offset size : Nat) (write : Bool) (s : State) :
    Leads (·.kept = s.kept) (execMmioAccessRefused offset size write s) := by
  simp [execMmioAccessRefused]
@[simp] theorem execRegisterWrite_kept (offset size : Nat) (value : Word) (s : State) :
    Leads (·.kept = s.kept) (execRegisterWrite offset size value s) := by
  simp [execRegisterWrite]
@[simp] theorem execVfyCommitWrite_kept (s : State) : Leads (·.kept = s.kept) (execVfyCommitWrite s) := by
  exact onMmio_kept s _ (by simp)
@[simp] theorem execServoTick_kept (t : TickInput) (s : State) : Leads (·.kept = s.kept) (execServoTick t s) := by
  simp [execServoTick]
@[simp] theorem execSyntheticTick_kept (t : TickInput) (s : State) : Leads (·.kept = s.kept) (execSyntheticTick t s) := by
  simp [execSyntheticTick]

/-! ### The commands that change one of the three -/

theorem commitFrame_kept (f : TallyFrame) (s : State) : (commitFrame f s).kept.2 = s.kept.2 := by
  rw [commitFrame, takeTsn_kept, putStateWord_kept]; rfl

/-- A tally frame that the Weighhouse takes changes meters alone. -/
theorem execTallyFrameReceive_kept (bytes : List Byte) (s : State) :
    Leads (·.kept.2 = s.kept.2) (execTallyFrameReceive bytes s) := by
  have received (u : State) : (receiveFrame bytes u).kept.2 = u.kept.2 := by
    unfold receiveFrame; dsimp only; split_ifs <;> simp only [countBad_kept, countDup_kept, countGap_kept, commitFrame_kept]
  unfold execTallyFrameReceive; dsimp only; split_ifs
  · rfl
  · rw [leads_next, received]; rfl
  · rfl

/-- A start of the Weighhouse changes meters alone. -/
theorem execWeighhousePowerOn_kept (ok : Bool) (s : State) : Leads (·.kept.2 = s.kept.2) (execWeighhousePowerOn ok s) := by
  have supplied : (if s.whd.supplied then s else whPowerUp s).kept = s.kept := by split_ifs <;> simp
  unfold execWeighhousePowerOn; dsimp only; split
  · rfl
  · rw [leads_next, dropEpoch_kept, endEntry_kept, ← supplied]; rfl

/-- A write to CPH_INSTANCE changes the INSTANCE alone. -/
theorem execCphInstanceWrite_meters_jsn (v : Word) (s : State) :
    Leads (fun t => t.whd.meters = s.whd.meters ∧ t.jrn.nextJsn = s.jrn.nextJsn) (execCphInstanceWrite v s) := by
  have ofKept {t : State} (h : t.kept = s.kept) : t.whd.meters = s.whd.meters ∧ t.jrn.nextJsn = s.jrn.nextJsn :=
    ⟨congrArg (·.1) h, congrArg (·.2.1) h⟩
  have ofTaken {t : State} (x : BitVec 32) (h : t.kept = ({ s with mram := { s.mram with inst := x } } : State).kept) :
      t.whd.meters = s.whd.meters ∧ t.jrn.nextJsn = s.jrn.nextJsn := ⟨congrArg (·.1) h, congrArg (·.2.1) h⟩
  unfold execCphInstanceWrite onMmio; dsimp only; split_ifs
  · exact ofKept rfl
  · exact ofKept (raise_kept ..)
  · exact ofTaken _ (ceilRepair_kept _)
  · exact ofTaken _ rfl

/-- With no key slot ACTIVE a write to CPH_INSTANCE may set the INSTANCE; otherwise it leaves it (06 R152). -/
theorem execCphInstanceWrite_inst (v : Word) (s : State) :
    Leads (fun t => t.mram.inst = s.mram.inst ∨ anyActive s = false ∧ t.mram.inst = BitVec.ofNat 32 v.toNat)
      (execCphInstanceWrite v s) := by
  unfold execCphInstanceWrite onMmio; dsimp only; split_ifs with _ active
  · exact .inl rfl
  · exact .inl (congrArg (·.2.2) (raise_kept ..))
  · exact .inr ⟨by simpa using active, congrArg (·.2.2) (ceilRepair_kept _)⟩
  · exact .inr ⟨by simpa using active, rfl⟩

/-- JOURNAL_TAKE changes neither a meter nor the INSTANCE, and the next JSN by one, for an entry that begins to be written. -/
theorem execJournalTake_kept (i : TakeInput) (s : State) :
    Leads (fun t => t.whd.meters = s.whd.meters ∧ t.mram.inst = s.mram.inst ∧
      (t.jrn.nextJsn = s.jrn.nextJsn ∨ t.jrn.nextJsn = s.jrn.nextJsn + 1 ∧
        ∃ e ∈ t.jrn.entries, e.jsn = s.jrn.nextJsn ∧ e.slot = .writing)) (execJournalTake i s) := by
  have ofKept {t : State} (h : t.kept = s.kept) : t.whd.meters = s.whd.meters ∧ t.mram.inst = s.mram.inst ∧
      (t.jrn.nextJsn = s.jrn.nextJsn ∨ t.jrn.nextJsn = s.jrn.nextJsn + 1 ∧
        ∃ e ∈ t.jrn.entries, e.jsn = s.jrn.nextJsn ∧ e.slot = .writing) :=
    ⟨congrArg (·.1) h, congrArg (·.2.2) h, .inl (congrArg (·.2.1) h)⟩
  have taken := takePacket_kept s
  unfold execJournalTake; split
  · exact ofKept rfl
  · split <;> rename_i found <;> rw [found] at taken
    · exact ofKept taken
    · next u src p =>
      have fetched := (fetchList_kept p.words u).trans taken
      dsimp only; split
      · exact ofKept ((raise_kept ..).trans taken)
      · split
        · exact ofKept ((rejectPacket_kept ..).trans taken)
        · generalize fetchList p.words u = f at fetched
          have keyed : (if pktOp (p.words.getD 0 0) = opSetKey then setSlot (keyTarget p.words)
              { getSlot (keyTarget p.words) f with pending := pendingOf (wrapKey f) f.jrn.nextJsn p.words } f else f).kept
                = s.kept := by rw [← fetched]; split_ifs <;> simp
          refine ⟨congrArg (·.1) keyed, congrArg (·.2.2) keyed, .inr ⟨?_, ?_⟩⟩
          · exact congrArg (·.2.1 + 1) fetched
          · exact ⟨_, List.mem_append_right _ (List.mem_singleton_self _), congrArg (·.2.1) fetched, rfl⟩

/-! ### Every command -/

/-- The commands that may change a meter, the next JSN or the INSTANCE. -/
def changesKept : Instr → Bool
  | .journalTake _ | .tallyFrameReceive _ | .weighhousePowerOn _ | .cphInstanceWrite _ => true
  | _ => false

theorem exec_kept {c : Instr} (h : changesKept c = false) (s : State) : Leads (·.kept = s.kept) (exec c s) := by
  cases c
  case journalTake => cases h
  case tallyFrameReceive => cases h
  case weighhousePowerOn => cases h
  case cphInstanceWrite => cases h
  all_goals simp [exec]

/-- What a step keeps: a property that the command at the front makes true, and that an idle step has. -/
theorem step_cases {s t : State} (h : step s = .next t) :
    t = idleStep s ∨ ∃ c rest, s.pending = c :: rest ∧ exec c { s with pending := rest } = .next t := by
  unfold step at h
  cases hp : s.pending with
  | nil => rw [hp] at h; injection h with h; exact .inl h.symm
  | cons c rest => rw [hp] at h; exact .inr ⟨c, rest, rfl, h⟩

/-- A step of a command that is none of the four, and an idle step, keep all three. -/
theorem step_kept {s t : State} (h : step s = .next t) :
    t.kept = s.kept ∨ ∃ c rest, s.pending = c :: rest ∧ changesKept c = true ∧ exec c { s with pending := rest } = .next t := by
  obtain rfl | ⟨c, rest, hp, hexec⟩ := step_cases h
  · exact .inl rfl
  · cases hc : changesKept c with
    | false => exact .inl ((exec_kept hc { s with pending := rest }).elim hexec)
    | true => exact .inr ⟨c, rest, hp, hc, hexec⟩

/-- Settles O6: of the four commands that change one of the three, only two change a meter. -/
theorem onlyTalliesChangeMeters : Obligations.OnlyTalliesChangeMeters := by
  intro s t hstep hne
  obtain kept | ⟨c, rest, hp, hc, hexec⟩ := step_kept hstep
  · exact absurd (congrArg (·.1) kept) hne
  · refine ⟨c, rest, hp, ?_⟩
    cases c <;> simp only [changesKept, Bool.false_eq_true] at hc
    case weighhousePowerOn ok => exact .inr ⟨ok, rfl⟩
    case tallyFrameReceive bytes => exact .inl ⟨bytes, rfl⟩
    case journalTake i => exact absurd ((execJournalTake_kept i _).elim hexec).1 hne
    case cphInstanceWrite v => exact absurd ((execCphInstanceWrite_meters_jsn v _).elim hexec).1 hne

/-- Settles O7: JOURNAL_TAKE alone changes the next JSN. -/
theorem jsnsRiseByOne : Obligations.JsnsRiseByOne := by
  intro s t hstep
  obtain kept | ⟨c, rest, hp, hc, hexec⟩ := step_kept hstep
  · exact .inl (congrArg (·.2.1) kept)
  · cases c <;> simp only [changesKept, Bool.false_eq_true] at hc
    case weighhousePowerOn ok => exact .inl (congrArg (·.1) ((execWeighhousePowerOn_kept ok _).elim hexec))
    case tallyFrameReceive bytes => exact .inl (congrArg (·.1) ((execTallyFrameReceive_kept bytes _).elim hexec))
    case cphInstanceWrite v => exact .inl ((execCphInstanceWrite_meters_jsn v _).elim hexec).2
    case journalTake i =>
      obtain ⟨-, -, stays | ⟨rises, entered⟩⟩ := (execJournalTake_kept i _).elim hexec
      · exact .inl stays
      · exact .inr ⟨rises, i, rest, hp, entered⟩

/-- Settles O8: the write to CPH_INSTANCE alone changes the INSTANCE. -/
theorem instanceChangesOnlyByItsWrite : Obligations.InstanceChangesOnlyByItsWrite := by
  intro s t hstep hne
  obtain kept | ⟨c, rest, hp, hc, hexec⟩ := step_kept hstep
  · exact absurd (congrArg (·.2.2) kept) hne
  · cases c <;> simp only [changesKept, Bool.false_eq_true] at hc
    case weighhousePowerOn ok => exact absurd (congrArg (·.2) ((execWeighhousePowerOn_kept ok _).elim hexec)) hne
    case tallyFrameReceive bytes => exact absurd (congrArg (·.2) ((execTallyFrameReceive_kept bytes _).elim hexec)) hne
    case journalTake i => exact absurd ((execJournalTake_kept i _).elim hexec).2.1 hne
    case cphInstanceWrite v =>
      obtain stays | ⟨inactive, taken⟩ := (execCphInstanceWrite_inst v _).elim hexec
      · exact absurd stays hne
      · exact ⟨inactive, v, rest, hp, taken⟩

end Sys2Proof.Proofs
end

section
/-! PROOFS. Every command keeps the canonical form of memory (02, 14): `f_wf` says so of one command. -/

namespace Sys2Proof.Proofs

open Sys2Proof.Machine Sys2Proof.Safety Sys2Proof.Laws

/-! ### Operations that leave memory to their continuation -/

theorem wf_congr {s t : State} (h : t.mem = s.mem) (hwf : Memory.wf s.mem = true) : Memory.wf t.mem = true := h ▸ hwf

theorem onMmio_wf {s t : State} (hs : Memory.wf s.mem = true) (ht : Memory.wf t.mem = true) :
    Memory.wf (onMmio s t).mem = true := by
  unfold onMmio; split <;> assumption

theorem blockwise_wf (op jsn : Nat) (s : State) (k : JournalEntry → State → State)
    (hk : ∀ e u, Memory.wf u.mem = true → Memory.wf (k e u).mem = true) (hwf : Memory.wf s.mem = true) :
    Leads (fun t => Memory.wf t.mem = true) (blockwise op jsn s k) := by
  unfold blockwise; split
  · exact hk _ _ hwf
  · exact onBegin_wf _ _ _ _ (fun e _ u => hk e u) hwf

/-! ### The commands -/

@[simp] theorem execCmdRingCommitWrite_wf (s : State) (hwf : Memory.wf s.mem = true) :
    Leads (fun t => Memory.wf t.mem = true) (execCmdRingCommitWrite s) := by
  simp [execCmdRingCommitWrite, hwf]
@[simp] theorem execCmdSqTailWrite_wf (ring value : Nat) (s : State) (hwf : Memory.wf s.mem = true) :
    Leads (fun t => Memory.wf t.mem = true) (execCmdSqTailWrite ring value s) := by
  simp [execCmdSqTailWrite, hwf]
@[simp] theorem execCmdCqHeadWrite_wf (ring value : Nat) (s : State) (hwf : Memory.wf s.mem = true) :
    Leads (fun t => Memory.wf t.mem = true) (execCmdCqHeadWrite ring value s) := by
  simp [execCmdCqHeadWrite, hwf]
@[simp] theorem execCmdEvqHeadWrite_wf (value : Nat) (s : State) (hwf : Memory.wf s.mem = true) :
    Leads (fun t => Memory.wf t.mem = true) (execCmdEvqHeadWrite value s) := by
  simp [execCmdEvqHeadWrite, hwf]
@[simp] theorem execSqEntryFetch_wf (ring : Nat) (words : List Word) (s : State) (hwf : Memory.wf s.mem = true) :
    Leads (fun t => Memory.wf t.mem = true) (execSqEntryFetch ring words s) := by
  simp [execSqEntryFetch, hwf]
@[simp] theorem execCmdCtrSopWrite_wf (w : Word) (s : State) (hwf : Memory.wf s.mem = true) :
    Leads (fun t => Memory.wf t.mem = true) (execCmdCtrSopWrite w s) := by
  simp [execCmdCtrSopWrite, hwf]
@[simp] theorem execCmdCtrDataWrite_wf (w : Word) (s : State) (hwf : Memory.wf s.mem = true) :
    Leads (fun t => Memory.wf t.mem = true) (execCmdCtrDataWrite w s) := by
  simp [execCmdCtrDataWrite, hwf]
@[simp] theorem execFlush_wf (s : State) (hwf : Memory.wf s.mem = true) : Leads (fun t => Memory.wf t.mem = true) (execFlush s) := by
  exact onMmio_wf hwf hwf
@[simp] theorem execClrCounts_wf (s : State) (hwf : Memory.wf s.mem = true) :
    Leads (fun t => Memory.wf t.mem = true) (execClrCounts s) := by
  exact onMmio_wf hwf hwf
@[simp] theorem execCmdCompatWrite_wf (value : Word) (s : State) (hwf : Memory.wf s.mem = true) :
    Leads (fun t => Memory.wf t.mem = true) (execCmdCompatWrite value s) := by
  simp [execCmdCompatWrite, hwf]
@[simp] theorem execEvgStatusClear_wf (group : Nat) (value sameCycle : BitVec 32) (s : State) (hwf : Memory.wf s.mem = true) :
    Leads (fun t => Memory.wf t.mem = true) (execEvgStatusClear group value sameCycle s) := by
  simp [execEvgStatusClear, hwf]
@[simp] theorem execJournalTake_wf (t : TakeInput) (s : State) (hwf : Memory.wf s.mem = true) :
    Leads (fun t => Memory.wf t.mem = true) (execJournalTake t s) := by
  have taken : Memory.wf (takePacket s).1.mem = true := by simpa using hwf
  unfold execJournalTake; split
  · exact hwf
  · split <;> rename_i found <;> rw [found] at taken
    · exact taken
    · dsimp only; (repeat' split) <;> simp [taken]
@[simp] theorem execJournalEntryDurable_wf (jsn : Nat) (s : State) (hwf : Memory.wf s.mem = true) :
    Leads (fun t => Memory.wf t.mem = true) (execJournalEntryDurable jsn s) := by
  unfold execJournalEntryDurable; split <;> simp [hwf]
@[simp] theorem execJournalSlotFreed_wf (jsn : Nat) (s : State) (hwf : Memory.wf s.mem = true) :
    Leads (fun t => Memory.wf t.mem = true) (execJournalSlotFreed jsn s) := by
  unfold execJournalSlotFreed; split <;> simp [hwf]
@[simp] theorem execManagementPacket_wf (words : List Word) (s : State) (hwf : Memory.wf s.mem = true) :
    Leads (fun t => Memory.wf t.mem = true) (execManagementPacket words s) := by
  simp [execManagementPacket, hwf]
@[simp] theorem execUnitReport_wf (unit state : Nat) (s : State) (hwf : Memory.wf s.mem = true) :
    Leads (fun t => Memory.wf t.mem = true) (execUnitReport unit state s) := by
  simp [execUnitReport, hwf]
@[simp] theorem execMgtEidAssigned_wf (eid dynAddr : Nat) (s : State) (hwf : Memory.wf s.mem = true) :
    Leads (fun t => Memory.wf t.mem = true) (execMgtEidAssigned eid dynAddr s) := by
  simp [execMgtEidAssigned, hwf]
@[simp] theorem execAlloc_wf (owner size : Nat) (wait : Bool) (s : State) (hwf : Memory.wf s.mem = true) :
    Leads (fun t => Memory.wf t.mem = true) (execAlloc owner size wait s) := by
  simp [execAlloc, hwf]
@[simp] theorem execShare_wf (owner : Nat) (h : Word) (new : Nat) (s : State) (hwf : Memory.wf s.mem = true) :
    Leads (fun t => Memory.wf t.mem = true) (execShare owner h new s) := by
  simp [execShare, hwf]
@[simp] theorem execRelease_wf (owner : Nat) (h : Word) (s : State) (hwf : Memory.wf s.mem = true) :
    Leads (fun t => Memory.wf t.mem = true) (execRelease owner h s) := by
  simp [execRelease, hwf]
@[simp] theorem execTransfer_wf (owner : Nat) (h : Word) (dest : Nat) (s : State) (hwf : Memory.wf s.mem = true) :
    Leads (fun t => Memory.wf t.mem = true) (execTransfer owner h dest s) := by
  simp [execTransfer, hwf]
@[simp] theorem execFree_wf (owner : Nat) (h : Word) (s : State) (hwf : Memory.wf s.mem = true) :
    Leads (fun t => Memory.wf t.mem = true) (execFree owner h s) := by
  simp [execFree, hwf]
@[simp] theorem execOpenContext_wf (jsn : Nat) (s : State) (hwf : Memory.wf s.mem = true) :
    Leads (fun t => Memory.wf t.mem = true) (execOpenContext jsn s) := by
  simp [execOpenContext, hwf]
@[simp] theorem execCloseContext_wf (jsn : Nat) (s : State) (hwf : Memory.wf s.mem = true) :
    Leads (fun t => Memory.wf t.mem = true) (execCloseContext jsn s) := by
  simp [execCloseContext, hwf]
@[simp] theorem execSetContextProfile_wf (jsn : Nat) (s : State) (hwf : Memory.wf s.mem = true) :
    Leads (fun t => Memory.wf t.mem = true) (execSetContextProfile jsn s) := by
  simp [execSetContextProfile, hwf]
@[simp] theorem execReadOverflow_wf (jsn : Nat) (part : Option Nat) (s : State) (hwf : Memory.wf s.mem = true) :
    Leads (fun t => Memory.wf t.mem = true) (execReadOverflow jsn part s) := by
  unfold execReadOverflow; dsimp only; split
  · (repeat' split) <;> simp [hwf]
  · refine onBegin_wf _ _ _ _ (fun e r s h => ?_) hwf; (repeat' split) <;> simp [h]
@[simp] theorem execCxlMemRead_wf (hpa : Nat) (s : State) (hwf : Memory.wf s.mem = true) :
    Leads (fun t => Memory.wf t.mem = true) (execCxlMemRead hpa s) := by
  unfold execCxlMemRead; split <;> simp [hwf]
@[simp] theorem execMemWr_wf (hpa : Nat) (data : List Byte) (s : State) (hwf : Memory.wf s.mem = true) :
    Leads (fun t => Memory.wf t.mem = true) (execMemWr hpa data s) := by
  unfold execMemWr; split <;> simp [hwf]
@[simp] theorem execMemWrPtl_wf (hpa : Nat) (data : List (Option Byte)) (s : State) (hwf : Memory.wf s.mem = true) :
    Leads (fun t => Memory.wf t.mem = true) (execMemWrPtl hpa data s) := by
  unfold execMemWrPtl; split <;> simp [hwf]
@[simp] theorem execPatrolScrub_wf (hbm : Bool) (addr : Nat) (s : State) (hwf : Memory.wf s.mem = true) :
    Leads (fun t => Memory.wf t.mem = true) (execPatrolScrub hbm addr s) := by
  unfold execPatrolScrub; (repeat' split) <;> simp [hwf]
@[simp] theorem execPcRetrainDone_wf (passed : Bool) (at_ : Nat) (s : State) (hwf : Memory.wf s.mem = true) :
    Leads (fun t => Memory.wf t.mem = true) (execPcRetrainDone passed at_ s) := by
  unfold execPcRetrainDone; dsimp only; (repeat' split)
  · simpa using hwf
  · simp only [leads_next, raiseP_mem, addTransient_mem, setUnit_mem, atTime_mem]; exact hwf
  · exact pcLasting_wf _ _ _ (by simpa using hwf)
@[simp] theorem execArm_wf (value : Word) (s : State) (hwf : Memory.wf s.mem = true) :
    Leads (fun t => Memory.wf t.mem = true) (execArm value s) := by
  have flipped := flipCtrlFields_wf value s hwf
  unfold execArm; dsimp only; split
  · exact onMmio_wf hwf flipped
  · exact onMmio_wf hwf flipped
@[simp] theorem execSetContextKey_wf (jsn : Nat) (s : State) (hwf : Memory.wf s.mem = true) :
    Leads (fun t => Memory.wf t.mem = true) (execSetContextKey jsn s) := by
  unfold execSetContextKey; refine onBegin_wf _ _ _ _ (fun e r s h => ?_) hwf; dsimp only; (repeat' split) <;> simp [h]
@[simp] theorem execCphInstanceWrite_wf (value : Word) (s : State) (hwf : Memory.wf s.mem = true) :
    Leads (fun t => Memory.wf t.mem = true) (execCphInstanceWrite value s) := by
  simp [execCphInstanceWrite, hwf]
@[simp] theorem execCphRqPush_wf (desc : List Word) (s : State) (hwf : Memory.wf s.mem = true) :
    Leads (fun t => Memory.wf t.mem = true) (execCphRqPush desc s) := by
  simp [execCphRqPush, hwf]
@[simp] theorem execCphRqCancel_wf (cookie : Word) (s : State) (hwf : Memory.wf s.mem = true) :
    Leads (fun t => Memory.wf t.mem = true) (execCphRqCancel cookie s) := by
  simp [execCphRqCancel, hwf]
@[simp] theorem execCphCqPop_wf (s : State) (hwf : Memory.wf s.mem = true) :
    Leads (fun t => Memory.wf t.mem = true) (execCphCqPop s) := by
  unfold execCphCqPop; split <;> simp [hwf]
@[simp] theorem execCphRequestComplete_wf (lane : Nat) (o : CipherOutcome) (s : State) (hwf : Memory.wf s.mem = true) :
    Leads (fun t => Memory.wf t.mem = true) (execCphRequestComplete lane o s) := by
  unfold execCphRequestComplete; dsimp only; split
  · exact hwf
  · next j _ =>
    have done := jobDone_wf j o s hwf
    exact laneNext_wf _ _ (by simpa using done)
@[simp] theorem execCeilRaiseDurable_wf (s : State) (hwf : Memory.wf s.mem = true) :
    Leads (fun t => Memory.wf t.mem = true) (execCeilRaiseDurable s) := by
  unfold execCeilRaiseDurable; dsimp only; split
  · exact hwf
  · next c _ =>
    have written : Memory.wf (endStarting (writeCeil c { s with mram := { s.mram with ceilNext := none } })).mem = true := by
      rw [endStarting_mem, writeCeil_mem]; exact hwf
    exact pumpLanes_wf _ (foldl_wf (fun s j h => placeJob_wf j s h) _ _ written)
@[simp] theorem execWriteRecords_wf (jsn : Nat) (list : Option (List ListEntry)) (s : State) (hwf : Memory.wf s.mem = true) :
    Leads (fun t => Memory.wf t.mem = true) (execWriteRecords jsn list s) := by
  unfold execWriteRecords; refine onTape_wf _ _ _ _ (fun e r s h => ?_) hwf; dsimp only; (repeat' split) <;> simp [h]
@[simp] theorem execWriteFilemarks_wf (jsn : Nat) (s : State) (hwf : Memory.wf s.mem = true) :
    Leads (fun t => Memory.wf t.mem = true) (execWriteFilemarks jsn s) := by
  simp [execWriteFilemarks, hwf]
@[simp] theorem execSync_wf (jsn : Nat) (s : State) (hwf : Memory.wf s.mem = true) :
    Leads (fun t => Memory.wf t.mem = true) (execSync jsn s) := by
  simp [execSync, hwf]
@[simp] theorem execHostRecordFetch_wf (jsn : Nat) (bytes : List Byte) (macOk : Bool) (s : State)
    (hwf : Memory.wf s.mem = true) :
    Leads (fun t => Memory.wf t.mem = true) (execHostRecordFetch jsn bytes macOk s) := by
  simp only [execHostRecordFetch, leads_next]; (repeat' split) <;> simp [hwf]
@[simp] theorem execPkrBlockEncoded_wf (jsn lane : Nat) (s : State) (hwf : Memory.wf s.mem = true) :
    Leads (fun t => Memory.wf t.mem = true) (execPkrBlockEncoded jsn lane s) := by
  unfold execPkrBlockEncoded; split <;> simp [hwf]
@[simp] theorem execPkrSelfcheck_wf (jsn lane : Nat) (pass retryPass : Bool) (s : State) (hwf : Memory.wf s.mem = true) :
    Leads (fun t => Memory.wf t.mem = true) (execPkrSelfcheck jsn lane pass retryPass s) := by
  unfold execPkrSelfcheck; (repeat' split) <;> simp [hwf]
@[simp] theorem execFormatterPlaceBlock_wf (jsn lane : Nat) (check retry : Bool) (s : State) (hwf : Memory.wf s.mem = true) :
    Leads (fun t => Memory.wf t.mem = true) (execFormatterPlaceBlock jsn lane check retry s) := by
  unfold execFormatterPlaceBlock; (repeat' split) <;> simp [hwf]
@[simp] theorem execDatasetIdleClose_wf (at_ : Nat) (s : State) (hwf : Memory.wf s.mem = true) :
    Leads (fun t => Memory.wf t.mem = true) (execDatasetIdleClose at_ s) := by
  simp only [execDatasetIdleClose, leads_next]; split <;> simp [hwf]
@[simp] theorem execWritingRunStart_wf (at_ : Nat) (atStep : Bool) (s : State) (hwf : Memory.wf s.mem = true) :
    Leads (fun t => Memory.wf t.mem = true) (execWritingRunStart at_ atStep s) := by
  simp only [execWritingRunStart, leads_next]; (repeat' split) <;> simp [hwf]
@[simp] theorem execCmStatusWrite_wf (s : State) (hwf : Memory.wf s.mem = true) :
    Leads (fun t => Memory.wf t.mem = true) (execCmStatusWrite s) := by
  simp [execCmStatusWrite, hwf]
@[simp] theorem execDatasetRelease_wf (s : State) (hwf : Memory.wf s.mem = true) :
    Leads (fun t => Memory.wf t.mem = true) (execDatasetRelease s) := by
  unfold execDatasetRelease; (repeat' split) <;> simp [hwf]
@[simp] theorem execReleaseRecordDurable_wf (seq : Nat) (s : State) (hwf : Memory.wf s.mem = true) :
    Leads (fun t => Memory.wf t.mem = true) (execReleaseRecordDurable seq s) := by
  unfold execReleaseRecordDurable; split <;> simp [hwf]
@[simp] theorem execLoad_wf (jsn : Nat) (done : Bool) (s : State) (hwf : Memory.wf s.mem = true) :
    Leads (fun t => Memory.wf t.mem = true) (execLoad jsn done s) := by
  unfold execLoad; refine onMotion_wf _ _ _ _ _ (fun e r s h => ?_) hwf; dsimp only
  have loads : (loadCart (dropHeld s)).2.mem = s.mem := by simp
  (repeat' split)
  · simpa using h
  · simpa using h
  · next heq => rw [heq] at loads; simpa [← loads] using h
  · next heq => rw [heq] at loads; simpa [← loads] using h
@[simp] theorem execUnload_wf (jsn : Nat) (done : Bool) (s : State) (hwf : Memory.wf s.mem = true) :
    Leads (fun t => Memory.wf t.mem = true) (execUnload jsn done s) := by
  simp [execUnload, hwf]
@[simp] theorem execRewind_wf (jsn : Nat) (done : Bool) (s : State) (hwf : Memory.wf s.mem = true) :
    Leads (fun t => Memory.wf t.mem = true) (execRewind jsn done s) := by
  simp [execRewind, hwf]
@[simp] theorem execLocate_wf (jsn : Nat) (done : Bool) (s : State) (hwf : Memory.wf s.mem = true) :
    Leads (fun t => Memory.wf t.mem = true) (execLocate jsn done s) := by
  simp [execLocate, hwf]
@[simp] theorem execSpace_wf (jsn : Nat) (passed : Option Nat) (s : State) (hwf : Memory.wf s.mem = true) :
    Leads (fun t => Memory.wf t.mem = true) (execSpace jsn passed s) := by
  unfold execSpace; split <;> simp [hwf]
@[simp] theorem execFormatPartitions_wf (jsn : Nat) (s : State) (hwf : Memory.wf s.mem = true) :
    Leads (fun t => Memory.wf t.mem = true) (execFormatPartitions jsn s) := by
  unfold execFormatPartitions; refine onTape_wf _ _ _ _ (fun e r s h => ?_) hwf; dsimp only; (repeat' split) <;> simp [h]
@[simp] theorem execFmtDatasetInfo_wf (jsn : Nat) (s : State) (hwf : Memory.wf s.mem = true) :
    Leads (fun t => Memory.wf t.mem = true) (execFmtDatasetInfo jsn s) := by
  unfold execFmtDatasetInfo; refine onTape_wf _ _ _ _ (fun e r s h => withPartition_wf _ _ _ _ (fun c s h => ?_) h) hwf
  dsimp only; split <;> simp [h]
@[simp] theorem execFmtCmAccess_wf (jsn : Nat) (bytes : List Byte) (s : State) (hwf : Memory.wf s.mem = true) :
    Leads (fun t => Memory.wf t.mem = true) (execFmtCmAccess jsn bytes s) := by
  unfold execFmtCmAccess; refine onBegin_wf _ _ _ _ (fun e r s h => ?_) hwf; dsimp only; (repeat' split) <;> simp [h]
@[simp] theorem execC3Decode_wf (seq subset : Nat) (s : State) (hwf : Memory.wf s.mem = true) :
    Leads (fun t => Memory.wf t.mem = true) (execC3Decode seq subset s) := by
  unfold execC3Decode; dsimp only; (repeat' split) <;> simp_all
@[simp] theorem execReadAutoRetry_wf (seq : Nat) (found : Bool) (slots : List SlotReading) (s : State)
    (hwf : Memory.wf s.mem = true) :
    Leads (fun t => Memory.wf t.mem = true) (execReadAutoRetry seq found slots s) := by
  simp only [execReadAutoRetry, leads_next]; (repeat' split) <;> simp [hwf]
@[simp] theorem execRecoveryPass_wf (seq : Nat) (found : Bool) (slots : List SlotReading) (s : State)
    (hwf : Memory.wf s.mem = true) :
    Leads (fun t => Memory.wf t.mem = true) (execRecoveryPass seq found slots s) := by
  unfold execRecoveryPass; split <;> simp [hwf]
@[simp] theorem execSubdatasetDecode_wf (seq subset : Nat) (found : Bool) (ahead : Nat) (slots : List SlotReading) (s : State)
    (hwf : Memory.wf s.mem = true) :
    Leads (fun t => Memory.wf t.mem = true) (execSubdatasetDecode seq subset found ahead slots s) := by
  unfold execSubdatasetDecode; split <;> simp [hwf]
@[simp] theorem execReadRecords_wf (jsn : Nat) (tags : List TagFailure) (s : State) (hwf : Memory.wf s.mem = true) :
    Leads (fun t => Memory.wf t.mem = true) (execReadRecords jsn tags s) := by
  simp [execReadRecords, hwf]
@[simp] theorem execVerifyRange_wf (jsn : Nat) (tags : List TagFailure) (s : State) (hwf : Memory.wf s.mem = true) :
    Leads (fun t => Memory.wf t.mem = true) (execVerifyRange jsn tags s) := by
  simp [execVerifyRange, hwf]
@[simp] theorem execDrvSetSection_wf (jsn : Nat) (s : State) (hwf : Memory.wf s.mem = true) :
    Leads (fun t => Memory.wf t.mem = true) (execDrvSetSection jsn s) := by
  simp [execDrvSetSection, hwf]
@[simp] theorem execDrvSetMode_wf (jsn : Nat) (s : State) (hwf : Memory.wf s.mem = true) :
    Leads (fun t => Memory.wf t.mem = true) (execDrvSetMode jsn s) := by
  simp [execDrvSetMode, hwf]
@[simp] theorem execDrvMove_wf (jsn at_ : Nat) (s : State) (hwf : Memory.wf s.mem = true) :
    Leads (fun t => Memory.wf t.mem = true) (execDrvMove jsn at_ s) := by
  simp [execDrvMove, hwf]
@[simp] theorem execDrvMoveTimeout_wf (jsn at_ : Nat) (s : State) (hwf : Memory.wf s.mem = true) :
    Leads (fun t => Memory.wf t.mem = true) (execDrvMoveTimeout jsn at_ s) := by
  simp only [execDrvMoveTimeout, leads_next]; (repeat' split) <;> simp [hwf]
@[simp] theorem execDrvCapture_wf (jsn : Nat) (s : State) (hwf : Memory.wf s.mem = true) :
    Leads (fun t => Memory.wf t.mem = true) (execDrvCapture jsn s) := by
  simp [execDrvCapture, hwf]
@[simp] theorem execDrvCommitWrite_wf (s : State) (hwf : Memory.wf s.mem = true) :
    Leads (fun t => Memory.wf t.mem = true) (execDrvCommitWrite s) := by
  simp [execDrvCommitWrite, hwf]
@[simp] theorem execDrvCoefWrite_wf (loop sec reg : Nat) (value : Word) (s : State) (hwf : Memory.wf s.mem = true) :
    Leads (fun t => Memory.wf t.mem = true) (execDrvCoefWrite loop sec reg value s) := by
  simp [execDrvCoefWrite, hwf]
@[simp] theorem execDrvModeWrite_wf (loop : Nat) (value : Word) (s : State) (hwf : Memory.wf s.mem = true) :
    Leads (fun t => Memory.wf t.mem = true) (execDrvModeWrite loop value s) := by
  exact onMmio_wf hwf hwf
@[simp] theorem execDrvTargetWrite_wf (loop : Nat) (value : Word) (s : State) (hwf : Memory.wf s.mem = true) :
    Leads (fun t => Memory.wf t.mem = true) (execDrvTargetWrite loop value s) := by
  exact onMmio_wf hwf hwf
@[simp] theorem execDrvMonCommitWrite_wf (s : State) (hwf : Memory.wf s.mem = true) :
    Leads (fun t => Memory.wf t.mem = true) (execDrvMonCommitWrite s) := by
  simp [execDrvMonCommitWrite, hwf]
@[simp] theorem execSpmCommitWrite_wf (s : State) (hwf : Memory.wf s.mem = true) :
    Leads (fun t => Memory.wf t.mem = true) (execSpmCommitWrite s) := by
  simp [execSpmCommitWrite, hwf]
@[simp] theorem execServoMeasurementPost_wf (m : List (Nat × Int)) (cycle : Nat) (s : State) (hwf : Memory.wf s.mem = true) :
    Leads (fun t => Memory.wf t.mem = true) (execServoMeasurementPost m cycle s) := by
  simp [execServoMeasurementPost, hwf]
@[simp] theorem execDacWriteDone_wf (s : State) (hwf : Memory.wf s.mem = true) :
    Leads (fun t => Memory.wf t.mem = true) (execDacWriteDone s) := by
  simp [execDacWriteDone, hwf]
@[simp] theorem execDiagSafeStop_wf (jsn : Nat) (s : State) (hwf : Memory.wf s.mem = true) :
    Leads (fun t => Memory.wf t.mem = true) (execDiagSafeStop jsn s) := by
  simp [execDiagSafeStop, hwf]
@[simp] theorem execSafeStopEnd_wf (at_ : Nat) (s : State) (hwf : Memory.wf s.mem = true) :
    Leads (fun t => Memory.wf t.mem = true) (execSafeStopEnd at_ s) := by
  simp only [execSafeStopEnd, leads_next]; (repeat' split) <;> simp [hwf]
@[simp] theorem execSafeStopRetry_wf (failed : List Nat) (at_ : Nat) (s : State) (hwf : Memory.wf s.mem = true) :
    Leads (fun t => Memory.wf t.mem = true) (execSafeStopRetry failed at_ s) := by
  simp [execSafeStopRetry, hwf]
@[simp] theorem execServoFrameDetected_wf (fast : Bool) (s : State) (hwf : Memory.wf s.mem = true) :
    Leads (fun t => Memory.wf t.mem = true) (execServoFrameDetected fast s) := by
  simp [execServoFrameDetected, hwf]
@[simp] theorem execServoLoss_wf (at_ : Nat) (s : State) (hwf : Memory.wf s.mem = true) :
    Leads (fun t => Memory.wf t.mem = true) (execServoLoss at_ s) := by
  simp [execServoLoss, hwf]
@[simp] theorem execServoLossTimeout_wf (sfn at_ : Nat) (s : State) (hwf : Memory.wf s.mem = true) :
    Leads (fun t => Memory.wf t.mem = true) (execServoLossTimeout sfn at_ s) := by
  simp only [execServoLossTimeout, leads_next]; (repeat' split) <;> simp [hwf]
@[simp] theorem execHlkLinkTraining_wf (t : TrainResult) (s : State) (hwf : Memory.wf s.mem = true) :
    Leads (fun t => Memory.wf t.mem = true) (execHlkLinkTraining t s) := by
  simp [execHlkLinkTraining, hwf]
@[simp] theorem execSamples_wf (f : LinkFrame) (s : State) (hwf : Memory.wf s.mem = true) :
    Leads (fun t => Memory.wf t.mem = true) (execSamples f s) := by
  simp [execSamples, hwf]
@[simp] theorem execServo_wf (f : LinkFrame) (s : State) (hwf : Memory.wf s.mem = true) :
    Leads (fun t => Memory.wf t.mem = true) (execServo f s) := by
  simp [execServo, hwf]
@[simp] theorem execStatus_wf (f : LinkFrame) (s : State) (hwf : Memory.wf s.mem = true) :
    Leads (fun t => Memory.wf t.mem = true) (execStatus f s) := by
  simp [execStatus, hwf]
@[simp] theorem execReply_wf (f : LinkFrame) (s : State) (hwf : Memory.wf s.mem = true) :
    Leads (fun t => Memory.wf t.mem = true) (execReply f s) := by
  simp [execReply, hwf]
@[simp] theorem execIdent_wf (f : LinkFrame) (s : State) (hwf : Memory.wf s.mem = true) :
    Leads (fun t => Memory.wf t.mem = true) (execIdent f s) := by
  simp [execIdent, hwf]
@[simp] theorem execBlockLockLoss_wf (lane : Nat) (s : State) (hwf : Memory.wf s.mem = true) :
    Leads (fun t => Memory.wf t.mem = true) (execBlockLockLoss lane s) := by
  simp [execBlockLockLoss, hwf]
@[simp] theorem execReorderTimeout_wf (lane source missing : Nat) (s : State) (hwf : Memory.wf s.mem = true) :
    Leads (fun t => Memory.wf t.mem = true) (execReorderTimeout lane source missing s) := by
  refine leads_of_eq rfl ?_
  cases (s.hlk.ahead.filter (·.1 == source)).map (·.2.1) with
  | nil => exact hwf
  | cons i t => exact wf_congr ((drainAhead_mem ..).trans ((takeItems_mem ..).trans (modLane_mem lane _ s))) hwf
@[simp] theorem execLaneRetrainDone_wf (passed : Bool) (at_ : Nat) (s : State) (hwf : Memory.wf s.mem = true) :
    Leads (fun t => Memory.wf t.mem = true) (execLaneRetrainDone passed at_ s) := by
  simp only [execLaneRetrainDone, leads_next]; split <;> simp [hwf]
@[simp] theorem execHlkCommitWrite_wf (s : State) (hwf : Memory.wf s.mem = true) :
    Leads (fun t => Memory.wf t.mem = true) (execHlkCommitWrite s) := by
  simp [execHlkCommitWrite, hwf]
@[simp] theorem execHlkLaneRetrain_wf (lane : Nat) (s : State) (hwf : Memory.wf s.mem = true) :
    Leads (fun t => Memory.wf t.mem = true) (execHlkLaneRetrain lane s) := by
  simp [execHlkLaneRetrain, hwf]
@[simp] theorem execHlkLaneRetire_wf (lane : Nat) (s : State) (hwf : Memory.wf s.mem = true) :
    Leads (fun t => Memory.wf t.mem = true) (execHlkLaneRetire lane s) := by
  simp [execHlkLaneRetire, hwf]
@[simp] theorem execThermalSample_wf (sensor : Nat) (raw : Int) (at_ : Nat) (s : State) (hwf : Memory.wf s.mem = true) :
    Leads (fun t => Memory.wf t.mem = true) (execThermalSample sensor raw at_ s) := by
  simp only [execThermalSample, leads_next]; split <;> simp [hwf]
@[simp] theorem execThmSensorLasting_wf (sensor at_ : Nat) (s : State) (hwf : Memory.wf s.mem = true) :
    Leads (fun t => Memory.wf t.mem = true) (execThmSensorLasting sensor at_ s) := by
  simp only [execThmSensorLasting, leads_next]; split <;> simp [hwf]
@[simp] theorem execThrottleEvaluation_wf (at_ : Nat) (s : State) (hwf : Memory.wf s.mem = true) :
    Leads (fun t => Memory.wf t.mem = true) (execThrottleEvaluation at_ s) := by
  simp only [execThrottleEvaluation, leads_next]; split <;> simp [hwf]
@[simp] theorem execThermalStop_wf (at_ : Nat) (s : State) (hwf : Memory.wf s.mem = true) :
    Leads (fun t => Memory.wf t.mem = true) (execThermalStop at_ s) := by
  simp only [execThermalStop, leads_next]; split <;> simp [hwf]
@[simp] theorem execThermalLimitTimeout_wf (jsn at_ : Nat) (s : State) (hwf : Memory.wf s.mem = true) :
    Leads (fun t => Memory.wf t.mem = true) (execThermalLimitTimeout jsn at_ s) := by
  simp only [execThermalLimitTimeout, leads_next]; (repeat' split) <;> simp [hwf]
@[simp] theorem execThmCommitWrite_wf (s : State) (hwf : Memory.wf s.mem = true) :
    Leads (fun t => Memory.wf t.mem = true) (execThmCommitWrite s) := by
  simp [execThmCommitWrite, hwf]
@[simp] theorem execTallyFrameReceive_wf (bytes : List Byte) (s : State) (hwf : Memory.wf s.mem = true) :
    Leads (fun t => Memory.wf t.mem = true) (execTallyFrameReceive bytes s) := by
  simp [execTallyFrameReceive, hwf]
@[simp] theorem execTallyResendTimeout_wf (at_ : Nat) (s : State) (hwf : Memory.wf s.mem = true) :
    Leads (fun t => Memory.wf t.mem = true) (execTallyResendTimeout at_ s) := by
  simp [execTallyResendTimeout, hwf]
@[simp] theorem execWhStatusPublish_wf (at_ : Nat) (temp : Int) (s : State) (hwf : Memory.wf s.mem = true) :
    Leads (fun t => Memory.wf t.mem = true) (execWhStatusPublish at_ temp s) := by
  simp [execWhStatusPublish, hwf]
@[simp] theorem execWhUnavailable_wf (at_ : Nat) (s : State) (hwf : Memory.wf s.mem = true) :
    Leads (fun t => Memory.wf t.mem = true) (execWhUnavailable at_ s) := by
  simp [execWhUnavailable, hwf]
@[simp] theorem execWhRetryExpiry_wf (at_ : Nat) (s : State) (hwf : Memory.wf s.mem = true) :
    Leads (fun t => Memory.wf t.mem = true) (execWhRetryExpiry at_ s) := by
  simp only [execWhRetryExpiry, leads_next]; split <;> simp [hwf]
@[simp] theorem execFormationBlockTimeout_wf (at_ : Nat) (s : State) (hwf : Memory.wf s.mem = true) :
    Leads (fun t => Memory.wf t.mem = true) (execFormationBlockTimeout at_ s) := by
  simp [execFormationBlockTimeout, hwf]
@[simp] theorem execEpochWaitTimeout_wf (jsn at_ : Nat) (s : State) (hwf : Memory.wf s.mem = true) :
    Leads (fun t => Memory.wf t.mem = true) (execEpochWaitTimeout jsn at_ s) := by
  simp only [execEpochWaitTimeout, leads_next]; split <;> simp [hwf]
@[simp] theorem execExtend_wf (stage : Nat) (digest : List Byte) (s : State) (hwf : Memory.wf s.mem = true) :
    Leads (fun t => Memory.wf t.mem = true) (execExtend stage digest s) := by
  simp [execExtend, hwf]
@[simp] theorem execClose_wf (s : State) (hwf : Memory.wf s.mem = true) : Leads (fun t => Memory.wf t.mem = true) (execClose s) := by
  simp [execClose, hwf]
@[simp] theorem execLedgerGet_wf (firstEpoch count : Nat) (s : State) (hwf : Memory.wf s.mem = true) :
    Leads (fun t => Memory.wf t.mem = true) (execLedgerGet firstEpoch count s) := by
  simp [execLedgerGet, hwf]
@[simp] theorem execStatement_wf (r : StatementReq) (s : State) (hwf : Memory.wf s.mem = true) :
    Leads (fun t => Memory.wf t.mem = true) (execStatement r s) := by
  simp [execStatement, hwf]
@[simp] theorem execSpdm_wf (mctp : Bool) (msg : List Byte) (s : State) (hwf : Memory.wf s.mem = true) :
    Leads (fun t => Memory.wf t.mem = true) (execSpdm mctp msg s) := by
  simp [execSpdm, hwf]
@[simp] theorem execGetMeasurements_wf (mctp : Bool) (index : Nat) (s : State) (hwf : Memory.wf s.mem = true) :
    Leads (fun t => Memory.wf t.mem = true) (execGetMeasurements mctp index s) := by
  simp [execGetMeasurements, hwf]
@[simp] theorem execIdeKm_wf (stream : IdeStream) (msg : List Byte) (s : State) (hwf : Memory.wf s.mem = true) :
    Leads (fun t => Memory.wf t.mem = true) (execIdeKm stream msg s) := by
  simp [execIdeKm, hwf]
@[simp] theorem execMarkRead_wf (epochs : List Nat) (s : State) (hwf : Memory.wf s.mem = true) :
    Leads (fun t => Memory.wf t.mem = true) (execMarkRead epochs s) := by
  simp [execMarkRead, hwf]
@[simp] theorem execSend_wf (s : State) (hwf : Memory.wf s.mem = true) : Leads (fun t => Memory.wf t.mem = true) (execSend s) := by
  simp [execSend, hwf]
@[simp] theorem execRomExit_wf (s : State) (hwf : Memory.wf s.mem = true) :
    Leads (fun t => Memory.wf t.mem = true) (execRomExit s) := by
  simp [execRomExit, hwf]
@[simp] theorem execWhMbPop_wf (s : State) (hwf : Memory.wf s.mem = true) :
    Leads (fun t => Memory.wf t.mem = true) (execWhMbPop s) := by
  simp [execWhMbPop, hwf]
@[simp] theorem execWhRstN_wf (s : State) (hwf : Memory.wf s.mem = true) :
    Leads (fun t => Memory.wf t.mem = true) (execWhRstN s) := by
  simp [execWhRstN, hwf]
@[simp] theorem execWhSupplyLoss_wf (s : State) (hwf : Memory.wf s.mem = true) :
    Leads (fun t => Memory.wf t.mem = true) (execWhSupplyLoss s) := by
  simp [execWhSupplyLoss, hwf]
@[simp] theorem execWeighhousePowerOn_wf (selfTestOk : Bool) (s : State) (hwf : Memory.wf s.mem = true) :
    Leads (fun t => Memory.wf t.mem = true) (execWeighhousePowerOn selfTestOk s) := by
  simp [execWeighhousePowerOn, hwf]
@[simp] theorem execWhTimeCheckpoint_wf (s : State) (hwf : Memory.wf s.mem = true) :
    Leads (fun t => Memory.wf t.mem = true) (execWhTimeCheckpoint s) := by
  simp [execWhTimeCheckpoint, hwf]
@[simp] theorem execLedgerRead_wf (jsn : Nat) (s : State) (hwf : Memory.wf s.mem = true) :
    Leads (fun t => Memory.wf t.mem = true) (execLedgerRead jsn s) := by
  simp [execLedgerRead, hwf]
@[simp] theorem execMeterStatement_wf (jsn : Nat) (s : State) (hwf : Memory.wf s.mem = true) :
    Leads (fun t => Memory.wf t.mem = true) (execMeterStatement jsn s) := by
  simp [execMeterStatement, hwf]
@[simp] theorem execNop_wf (jsn : Nat) (s : State) (hwf : Memory.wf s.mem = true) :
    Leads (fun t => Memory.wf t.mem = true) (execNop jsn s) := by
  simp [execNop, hwf]
@[simp] theorem execNopDelayExpiry_wf (jsn : Nat) (s : State) (hwf : Memory.wf s.mem = true) :
    Leads (fun t => Memory.wf t.mem = true) (execNopDelayExpiry jsn s) := by
  unfold execNopDelayExpiry; split <;> simp [hwf]
@[simp] theorem execIdentify_wf (jsn : Nat) (s : State) (hwf : Memory.wf s.mem = true) :
    Leads (fun t => Memory.wf t.mem = true) (execIdentify jsn s) := by
  simp [execIdentify, hwf]
@[simp] theorem execGetStatus_wf (jsn : Nat) (s : State) (hwf : Memory.wf s.mem = true) :
    Leads (fun t => Memory.wf t.mem = true) (execGetStatus jsn s) := by
  simp [execGetStatus, hwf]
@[simp] theorem execGetLog_wf (jsn : Nat) (s : State) (hwf : Memory.wf s.mem = true) :
    Leads (fun t => Memory.wf t.mem = true) (execGetLog jsn s) := by
  simp [execGetLog, hwf]
@[simp] theorem execClearLog_wf (jsn : Nat) (s : State) (hwf : Memory.wf s.mem = true) :
    Leads (fun t => Memory.wf t.mem = true) (execClearLog jsn s) := by
  exact onBegin_wf _ _ _ _ (fun e r s h => by simpa using clearPage_wf _ s h) hwf
@[simp] theorem execIdleEntry_wf (at_ : Nat) (s : State) (hwf : Memory.wf s.mem = true) :
    Leads (fun t => Memory.wf t.mem = true) (execIdleEntry at_ s) := by
  simp only [execIdleEntry, leads_next]; (repeat' split) <;> simp [hwf]
@[simp] theorem execSetWakeTolerance_wf (jsn : Nat) (s : State) (hwf : Memory.wf s.mem = true) :
    Leads (fun t => Memory.wf t.mem = true) (execSetWakeTolerance jsn s) := by
  unfold execSetWakeTolerance; dsimp only; (repeat' split) <;> simp_all
@[simp] theorem execWakeTrigger_wf (k : WakeKind) (s : State) (hwf : Memory.wf s.mem = true) :
    Leads (fun t => Memory.wf t.mem = true) (execWakeTrigger k s) := by
  simp [execWakeTrigger, hwf]
@[simp] theorem execWake_wf (s : State) (hwf : Memory.wf s.mem = true) : Leads (fun t => Memory.wf t.mem = true) (execWake s) := by
  simp [execWake, hwf]
@[simp] theorem execWakeComplete_wf (t : TrainResult) (s : State) (hwf : Memory.wf s.mem = true) :
    Leads (fun t => Memory.wf t.mem = true) (execWakeComplete t s) := by
  unfold execWakeComplete; (repeat' split) <;> simp [hwf]
@[simp] theorem execCartPresenceChange_wf (c : Option Cartridge) (s : State) (hwf : Memory.wf s.mem = true) :
    Leads (fun t => Memory.wf t.mem = true) (execCartPresenceChange c s) := by
  unfold execCartPresenceChange; (repeat' split) <;> simp [hwf]
@[simp] theorem execTapeSlack_wf (asserted : Bool) (s : State) (hwf : Memory.wf s.mem = true) :
    Leads (fun t => Memory.wf t.mem = true) (execTapeSlack asserted s) := by
  simp [execTapeSlack, hwf]
@[simp] theorem execWarmReset_wf (c : LinkReset) (s : State) (hwf : Memory.wf s.mem = true) :
    Leads (fun t => Memory.wf t.mem = true) (execWarmReset c s) := by
  unfold execWarmReset; (repeat' split) <;> simp [hwf]
@[simp] theorem execSysResetCtrlWarm_wf (s : State) (hwf : Memory.wf s.mem = true) :
    Leads (fun t => Memory.wf t.mem = true) (execSysResetCtrlWarm s) := by
  unfold execSysResetCtrlWarm; split
  · exact onMmio_wf hwf (warmReset_wf _ _ s hwf)
  · exact onMmio_wf hwf hwf
@[simp] theorem execSysResetCtrlCold_wf (s : State) (hwf : Memory.wf s.mem = true) :
    Leads (fun t => Memory.wf t.mem = true) (execSysResetCtrlCold s) := by
  unfold execSysResetCtrlCold; split
  · exact onMmio_wf hwf (coldReset_wf _ s hwf)
  · exact onMmio_wf hwf hwf
@[simp] theorem execColdRstN_wf (s : State) (hwf : Memory.wf s.mem = true) :
    Leads (fun t => Memory.wf t.mem = true) (execColdRstN s) := by
  unfold execColdRstN; split <;> simp [hwf]
@[simp] theorem execColdResetStopEnd_wf (at_ : Nat) (s : State) (hwf : Memory.wf s.mem = true) :
    Leads (fun t => Memory.wf t.mem = true) (execColdResetStopEnd at_ s) := by
  simp [execColdResetStopEnd, hwf]
@[simp] theorem execThermalTrip_wf (at_ : Nat) (s : State) (hwf : Memory.wf s.mem = true) :
    Leads (fun t => Memory.wf t.mem = true) (execThermalTrip at_ s) := by
  simp only [execThermalTrip, leads_next]; split <;> simp [hwf]
@[simp] theorem execSupplyLoss_wf (s : State) (hwf : Memory.wf s.mem = true) :
    Leads (fun t => Memory.wf t.mem = true) (execSupplyLoss s) := by
  unfold execSupplyLoss; split <;> simp [hwf]
@[simp] theorem execTripRestart_wf (at_ : Nat) (s : State) (hwf : Memory.wf s.mem = true) :
    Leads (fun t => Memory.wf t.mem = true) (execTripRestart at_ s) := by
  simp [execTripRestart, hwf]
@[simp] theorem execPowerOn_wf (s : State) (hwf : Memory.wf s.mem = true) :
    Leads (fun t => Memory.wf t.mem = true) (execPowerOn s) := by
  simp [execPowerOn, hwf]
@[simp] theorem execStartUpSequence_wf (b : BootInput) (t : TrainResult) (s : State) (hwf : Memory.wf s.mem = true) :
    Leads (fun t => Memory.wf t.mem = true) (execStartUpSequence b t s) := by
  unfold execStartUpSequence; split <;> simp [hwf]
@[simp] theorem execReplayOpenCommands_wf (s : State) (hwf : Memory.wf s.mem = true) :
    Leads (fun t => Memory.wf t.mem = true) (execReplayOpenCommands s) := by
  simp [execReplayOpenCommands, hwf]
@[simp] theorem execReplayReportPosted_wf (s : State) (hwf : Memory.wf s.mem = true) :
    Leads (fun t => Memory.wf t.mem = true) (execReplayReportPosted s) := by
  simp [execReplayReportPosted, hwf]
@[simp] theorem execCmdAbortWrite_wf (jsn : Nat) (s : State) (hwf : Memory.wf s.mem = true) :
    Leads (fun t => Memory.wf t.mem = true) (execCmdAbortWrite jsn s) := by
  simp [execCmdAbortWrite, hwf]
@[simp] theorem execAbortRecorded_wf (s : State) (hwf : Memory.wf s.mem = true) :
    Leads (fun t => Memory.wf t.mem = true) (execAbortRecorded s) := by
  unfold execAbortRecorded; (repeat' split) <;> simp [hwf]
@[simp] theorem execSysCoreKick_wf (core at_ : Nat) (s : State) (hwf : Memory.wf s.mem = true) :
    Leads (fun t => Memory.wf t.mem = true) (execSysCoreKick core at_ s) := by
  simp [execSysCoreKick, hwf]
@[simp] theorem execCoreWatchdogExpiry_wf (core at_ : Nat) (s : State) (hwf : Memory.wf s.mem = true) :
    Leads (fun t => Memory.wf t.mem = true) (execCoreWatchdogExpiry core at_ s) := by
  simp only [execCoreWatchdogExpiry, leads_next]; split <;> simp [hwf]
@[simp] theorem execCoreRetryDone_wf (core : Nat) (ok : Bool) (at_ : Nat) (s : State) (hwf : Memory.wf s.mem = true) :
    Leads (fun t => Memory.wf t.mem = true) (execCoreRetryDone core ok at_ s) := by
  simp [execCoreRetryDone, hwf]
@[simp] theorem execDiagCipherSelftest_wf (jsn : Nat) (passed : BitVec 8) (done : Bool) (s : State)
    (hwf : Memory.wf s.mem = true) :
    Leads (fun t => Memory.wf t.mem = true) (execDiagCipherSelftest jsn passed done s) := by
  unfold execDiagCipherSelftest; split <;> simp [hwf]
@[simp] theorem execDiagUnitOffline_wf (jsn : Nat) (s : State) (hwf : Memory.wf s.mem = true) :
    Leads (fun t => Memory.wf t.mem = true) (execDiagUnitOffline jsn s) := by
  simp [execDiagUnitOffline, hwf]
@[simp] theorem execDiagUnitOnline_wf (jsn : Nat) (s : State) (hwf : Memory.wf s.mem = true) :
    Leads (fun t => Memory.wf t.mem = true) (execDiagUnitOnline jsn s) := by
  simp [execDiagUnitOnline, hwf]
@[simp] theorem execDiagClearRetirement_wf (jsn : Nat) (s : State) (hwf : Memory.wf s.mem = true) :
    Leads (fun t => Memory.wf t.mem = true) (execDiagClearRetirement jsn s) := by
  exact onDiag_wf _ _ _ _ (fun e r s h => wf_congr (endBare_mem ..) h) hwf
@[simp] theorem execDiagReset_wf (jsn : Nat) (s : State) (hwf : Memory.wf s.mem = true) :
    Leads (fun t => Memory.wf t.mem = true) (execDiagReset jsn s) := by
  unfold execDiagReset; refine onDiag_wf _ _ _ _ (fun e r s h => ?_) hwf; dsimp only; split_ifs
  · simpa using h
  · exact coldReset_wf _ _ (by simpa using h)
  · exact warmReset_wf _ _ _ (by simpa using h)
@[simp] theorem execLinkNegotiation_wf (o : LinkOffer) (s : State) (hwf : Memory.wf s.mem = true) :
    Leads (fun t => Memory.wf t.mem = true) (execLinkNegotiation o s) := by
  simp only [execLinkNegotiation, leads_next]; (repeat' split) <;> simp [hwf]
@[simp] theorem execBusMasterEnable_wf (s : State) (hwf : Memory.wf s.mem = true) :
    Leads (fun t => Memory.wf t.mem = true) (execBusMasterEnable s) := by
  simp [execBusMasterEnable, hwf]
@[simp] theorem execHdmDecoderCommit_wf (base size iw : Nat) (lock : Bool) (s : State) (hwf : Memory.wf s.mem = true) :
    Leads (fun t => Memory.wf t.mem = true) (execHdmDecoderCommit base size iw lock s) := by
  simp [execHdmDecoderCommit, hwf]
@[simp] theorem execCxlSnoop_wf (line : Nat) (s : State) (hwf : Memory.wf s.mem = true) :
    Leads (fun t => Memory.wf t.mem = true) (execCxlSnoop line s) := by
  simp [execCxlSnoop, hwf]
@[simp] theorem execAtsInvalidate_wf (addr size : Nat) (gone : Bool) (s : State) (hwf : Memory.wf s.mem = true) :
    Leads (fun t => Memory.wf t.mem = true) (execAtsInvalidate addr size gone s) := by
  simp [execAtsInvalidate, hwf]
@[simp] theorem execDoeRequest_wf (vendor dtype : Nat) (payload : List Byte) (s : State) (hwf : Memory.wf s.mem = true) :
    Leads (fun t => Memory.wf t.mem = true) (execDoeRequest vendor dtype payload s) := by
  simp [execDoeRequest, hwf]
@[simp] theorem execDoeAbort_wf (s : State) (hwf : Memory.wf s.mem = true) :
    Leads (fun t => Memory.wf t.mem = true) (execDoeAbort s) := by
  simp [execDoeAbort, hwf]
@[simp] theorem execIdeIntegrityFail_wf (st : IdeStream) (lines at_ : Nat) (s : State) (hwf : Memory.wf s.mem = true) :
    Leads (fun t => Memory.wf t.mem = true) (execIdeIntegrityFail st lines at_ s) := by
  unfold execIdeIntegrityFail; dsimp only; (repeat' split) <;> simp_all
@[simp] theorem execIdeKeysEstablished_wf (st : IdeStream) (s : State) (hwf : Memory.wf s.mem = true) :
    Leads (fun t => Memory.wf t.mem = true) (execIdeKeysEstablished st s) := by
  simp [execIdeKeysEstablished, hwf]
@[simp] theorem execIdeKeyTimeout_wf (st : IdeStream) (at_ : Nat) (s : State) (hwf : Memory.wf s.mem = true) :
    Leads (fun t => Memory.wf t.mem = true) (execIdeKeyTimeout st at_ s) := by
  simp [execIdeKeyTimeout, hwf]
@[simp] theorem execMsixUnmask_wf (vec : Nat) (s : State) (hwf : Memory.wf s.mem = true) :
    Leads (fun t => Memory.wf t.mem = true) (execMsixUnmask vec s) := by
  simp [execMsixUnmask, hwf]
@[simp] theorem execMctpSpdmRequest_wf (mtype : Nat) (msg : List Byte) (s : State) (hwf : Memory.wf s.mem = true) :
    Leads (fun t => Memory.wf t.mem = true) (execMctpSpdmRequest mtype msg s) := by
  simp [execMctpSpdmRequest, hwf]
@[simp] theorem execPkrBlockDecoded_wf (jsn lane record : Nat) (block history : List Byte) (glitch : Bool) (retryLane : Nat) (s : State)
    (hwf : Memory.wf s.mem = true) :
    Leads (fun t => Memory.wf t.mem = true) (execPkrBlockDecoded jsn lane record block history glitch retryLane s) := by
  simp [execPkrBlockDecoded, hwf]
@[simp] theorem execPkrEstimate_wf (jsn : Nat) (bytes : List Byte) (part : Option Nat) (s : State)
    (hwf : Memory.wf s.mem = true) :
    Leads (fun t => Memory.wf t.mem = true) (execPkrEstimate jsn bytes part s) := by
  refine blockwise_wf _ _ _ _ (fun e s h => ?_) hwf
  dsimp only; split <;> simp [h]
@[simp] theorem execPkrSetLevel_wf (jsn : Nat) (s : State) (hwf : Memory.wf s.mem = true) :
    Leads (fun t => Memory.wf t.mem = true) (execPkrSetLevel jsn s) := by
  simp [execPkrSetLevel, hwf]
@[simp] theorem execPkrDecode_wf (jsn : Nat) (bytes : List Byte) (part : Option Nat) (s : State)
    (hwf : Memory.wf s.mem = true) :
    Leads (fun t => Memory.wf t.mem = true) (execPkrDecode jsn bytes part s) := by
  refine blockwise_wf _ _ _ _ (fun e s h => ?_) hwf
  dsimp only; (repeat' split) <;> simp [h]
@[simp] theorem execTecSetDecode_wf (jsn : Nat) (s : State) (hwf : Memory.wf s.mem = true) :
    Leads (fun t => Memory.wf t.mem = true) (execTecSetDecode jsn s) := by
  simp [execTecSetDecode, hwf]
@[simp] theorem execTecTrackQuality_wf (jsn : Nat) (s : State) (hwf : Memory.wf s.mem = true) :
    Leads (fun t => Memory.wf t.mem = true) (execTecTrackQuality jsn s) := by
  simp [execTecTrackQuality, hwf]
@[simp] theorem execTecSetDetector_wf (jsn : Nat) (s : State) (hwf : Memory.wf s.mem = true) :
    Leads (fun t => Memory.wf t.mem = true) (execTecSetDetector jsn s) := by
  simp [execTecSetDetector, hwf]
@[simp] theorem execTecCapture_wf (jsn : Nat) (slots : List (List Int)) (s : State) (hwf : Memory.wf s.mem = true) :
    Leads (fun t => Memory.wf t.mem = true) (execTecCapture jsn slots s) := by
  unfold execTecCapture; split <;> simp [hwf]
@[simp] theorem execTecCaptureTimeout_wf (jsn at_ : Nat) (s : State) (hwf : Memory.wf s.mem = true) :
    Leads (fun t => Memory.wf t.mem = true) (execTecCaptureTimeout jsn at_ s) := by
  simp only [execTecCaptureTimeout, leads_next]; (repeat' split) <;> simp [hwf]
@[simp] theorem execTecC1Encode_wf (jsn : Nat) (bytes : List Byte) (s : State) (hwf : Memory.wf s.mem = true) :
    Leads (fun t => Memory.wf t.mem = true) (execTecC1Encode jsn bytes s) := by
  simp [execTecC1Encode, hwf]
@[simp] theorem execMmioAccessRefused_wf (offset size : Nat) (write : Bool) (s : State) (hwf : Memory.wf s.mem = true) :
    Leads (fun t => Memory.wf t.mem = true) (execMmioAccessRefused offset size write s) := by
  simp [execMmioAccessRefused, hwf]
@[simp] theorem execRegisterWrite_wf (offset size : Nat) (value : Word) (s : State) (hwf : Memory.wf s.mem = true) :
    Leads (fun t => Memory.wf t.mem = true) (execRegisterWrite offset size value s) := by
  unfold execRegisterWrite; refine onMmio_wf hwf ?_; (repeat' split) <;> simp [hwf]
@[simp] theorem execVfyCommitWrite_wf (s : State) (hwf : Memory.wf s.mem = true) :
    Leads (fun t => Memory.wf t.mem = true) (execVfyCommitWrite s) := by
  simp [execVfyCommitWrite, hwf]
@[simp] theorem execServoTick_wf (t : TickInput) (s : State) (hwf : Memory.wf s.mem = true) :
    Leads (fun t => Memory.wf t.mem = true) (execServoTick t s) := by
  unfold execServoTick; split <;> simp [hwf]
@[simp] theorem execSyntheticTick_wf (t : TickInput) (s : State) (hwf : Memory.wf s.mem = true) :
    Leads (fun t => Memory.wf t.mem = true) (execSyntheticTick t s) := by
  unfold execSyntheticTick; split <;> simp [hwf]

/-! ### Every command -/

theorem exec_wf (c : Instr) {s : State} (hwf : Memory.wf s.mem = true) : Leads (fun t => Memory.wf t.mem = true) (exec c s) := by
  cases c <;> simp [exec, hwf]

/-- Settles O5: an idle step leaves memory, and each command keeps its form. -/
theorem stepKeepsMemoryCanonical : Obligations.StepKeepsMemoryCanonical := by
  intro s t hwf hstep
  obtain rfl | ⟨c, rest, -, hexec⟩ := step_cases hstep
  · exact hwf
  · exact (exec_wf c (s := { s with pending := rest }) hwf).elim hexec

end Sys2Proof.Proofs
end

section
/-! PROOFS. Shared operations that keep every counter at or below the durable CEIL (06 R153): `f_ceilOk` says that whether they
do is as it was before `f`. -/

namespace Sys2Proof.Machine

/-- The CEIL that two copies hold: `ceilNow` as a function of the copies. -/
def ceilOf (a b : CeilCopy) : Nat :=
  (if ceilValid a && (!ceilValid b || decide (b.seqNo ≤ a.seqNo)) then some a else if ceilValid b then some b else none).elim 0
    (·.ceil)

/-- `CeilInv` as a test of the parts of the state that it reads. -/
def ceilOkOf (ctx dev : Table KeySlot) (a b : CeilCopy) (next : Option Nat) : Bool :=
  ctx.all (fun p => decide (p.2.counter ≤ ceilOf a b)) && dev.all (fun p => decide (p.2.counter ≤ ceilOf a b))
    && next.all fun c => decide (ceilOf a b ≤ c)

def State.ceilOk (s : State) : Bool := ceilOkOf s.cph.ctxSlots s.cph.devSlots s.mram.ceilA s.mram.ceilB s.mram.ceilNext

end Sys2Proof.Machine

namespace Sys2Proof.Proofs

open Sys2Proof.Machine Sys2Proof.Safety Sys2Proof.Laws

theorem ceilInv_iff (s : State) : CeilInv s ↔ s.ceilOk = true := by
  have hn : ceilNow s = ceilOf s.mram.ceilA s.mram.ceilB := rfl
  simp only [CeilInv, State.ceilOk, ceilOkOf, hn, Bool.and_eq_true, List.all_eq_true, Option.all_eq_true, decide_eq_true_eq,
    List.mem_append, or_imp, forall_and]

@[simp] theorem ceilOk_mk sys hif cmd jrn ctx pkr cph fmt tec vfy hlk drv mon spm prt mem thm pwr aon wh whd mram cart mgt pending out freeCount :
    (State.mk sys hif cmd jrn ctx pkr cph fmt tec vfy hlk drv mon spm prt mem thm pwr aon wh whd mram
      cart mgt pending out freeCount).ceilOk =
      ceilOkOf cph.ctxSlots cph.devSlots mram.ceilA mram.ceilB mram.ceilNext := rfl

@[simp] theorem ceilOk_fold (s : State) : ceilOkOf s.cph.ctxSlots s.cph.devSlots s.mram.ceilA s.mram.ceilB s.mram.ceilNext = s.ceilOk := rfl

@[simp] theorem foldl_ceilOk {α : Type} {f : State → α → State} (hf : ∀ s x, (f s x).ceilOk = s.ceilOk) (l : List α) (s : State) :
    (l.foldl f s).ceilOk = s.ceilOk := by
  induction l generalizing s with
  | nil => rfl
  | cons a t ih => rw [List.foldl_cons, ih, hf]

@[simp] theorem ite_ceilOk (c : Prop) [Decidable c] (a b : State) : (if c then a else b).ceilOk = if c then a.ceilOk else b.ceilOk :=
  apply_ite State.ceilOk c a b

theorem optMap_ceilOk {f : State → State} (hf : ∀ s, (f s).ceilOk = s.ceilOk) {o : Option State} {m : Bool}
    (ho : ∀ r, o = some r → r.ceilOk = m) (r : State) (h : o.map f = some r) : r.ceilOk = m := by
  obtain ⟨u, hu, rfl⟩ := Option.map_eq_some_iff.1 h
  rw [hf, ho u hu]

theorem foldl_keeps_ceilOk {α : Type} {f : State → α → State} (hf : ∀ s x, s.ceilOk = true → (f s x).ceilOk = true) (l : List α)
    (s : State) (hs : s.ceilOk = true) : (l.foldl f s).ceilOk = true := by
  induction l generalizing s with
  | nil => exact hs
  | cons a t ih => exact ih _ (hf _ _ hs)

theorem getD_ceilOk {o : Option State} {m : Bool} (ho : ∀ r, o = some r → r.ceilOk = m) (s : State) (hs : s.ceilOk = m) :
    (o.getD s).ceilOk = m := by
  cases o with
  | none => exact hs
  | some u => exact ho u rfl

@[simp] theorem emit_ceilOk (o : Output) (s : State) : (emit o s).ceilOk = s.ceilOk := by
  unfold emit; simp
@[simp] theorem atTime_ceilOk (t : Nat) (s : State) : (atTime t s).ceilOk = s.ceilOk := by
  unfold atTime; simp
@[simp] theorem drawFree_ceilOk (s : State) : (drawFree s).ceilOk = s.ceilOk := by
  unfold drawFree; simp
@[simp] theorem msixTrigger_ceilOk (v : Nat) (en : Bool) (s : State) : (msixTrigger v en s).ceilOk = s.ceilOk := by
  unfold msixTrigger; simp
@[simp] theorem onMmio_ceilOk (s t : State) (h : t.ceilOk = s.ceilOk) : (onMmio s t).ceilOk = s.ceilOk := by
  unfold onMmio; split <;> simp [h]
@[simp] theorem hostFetch_ceilOk (addr len : Nat) (s : State) : (hostFetch addr len s).ceilOk = s.ceilOk := by
  unfold hostFetch; simp
@[simp] theorem hostStore_ceilOk (addr : Nat) (l : List Byte) (s : State) : (hostStore addr l s).ceilOk = s.ceilOk := by
  unfold hostStore; simp
@[simp] theorem evtWrite_ceilOk (e : EventEntry) (s : State) : (evtWrite e s).ceilOk = s.ceilOk := by
  unfold evtWrite; simp
@[simp] theorem setWaiting_ceilOk (w : List EventEntry) (s : State) : (setWaiting w s).ceilOk = s.ceilOk := by
  unfold setWaiting; simp
@[simp] theorem setGroup_ceilOk (g : Nat) (f : EventGroup → EventGroup) (s : State) : (setGroup g f s).ceilOk = s.ceilOk
    := by
  unfold setGroup; simp
@[simp] theorem setStatusBit_ceilOk (src : Nat) (s : State) : (setStatusBit src s).ceilOk = s.ceilOk := by
  unfold setStatusBit; simp
@[simp] theorem groupVector_ceilOk (src : Nat) (was : Bool) (s : State) : (groupVector src was s).ceilOk = s.ceilOk := by
  unfold groupVector; simp
@[simp] theorem raiseStatus_ceilOk (src p0 p1 : Nat) (s : State) : (raiseStatus src p0 p1 s).ceilOk = s.ceilOk := by
  unfold raiseStatus; simp
@[simp] theorem orderedWait_ceilOk (e : EventEntry) (s : State) : (orderedWait e s).ceilOk = s.ceilOk := by
  unfold orderedWait; simp
@[simp] theorem raiseOrdered_ceilOk (src p0 p1 : Nat) (s : State) : (raiseOrdered src p0 p1 s).ceilOk = s.ceilOk := by
  unfold raiseOrdered; simp
@[simp] theorem raise_ceilOk (src p0 p1 : Nat) (s : State) : (raise src p0 p1 s).ceilOk = s.ceilOk := by
  unfold raise; simp
@[simp] theorem raiseP_ceilOk (src p0 : Nat) (s : State) : (raiseP src p0 s).ceilOk = s.ceilOk := by
  unfold raiseP; simp
@[simp] theorem raiseN_ceilOk (src : Nat) (s : State) : (raiseN src s).ceilOk = s.ceilOk := by
  unfold raiseN; simp
@[simp] theorem setCq_ceilOk (n : Nat) (f : CplRing → CplRing) (s : State) : (setCq n f s).ceilOk = s.ceilOk := by
  unfold setCq; simp
@[simp] theorem cplWrite_ceilOk (n : Nat) (c : Completion) (s : State) : (cplWrite n c s).ceilOk = s.ceilOk := by
  unfold cplWrite; simp
@[simp] theorem cplPost_ceilOk (n : Nat) (c : Completion) (s : State) : (cplPost n c s).ceilOk = s.ceilOk := by
  unfold cplPost; simp
@[simp] theorem cplPump_ceilOk (n : Nat) (y0 : Nat) (s : State) : (cplPump n y0 s).ceilOk = s.ceilOk := by
  induction y0 generalizing s with
  | zero => rfl
  | succ n ih => unfold cplPump; (repeat' split) <;> simp [ih]
@[simp] theorem mgtReturn_ceilOk (c : Completion) (s : State) : (mgtReturn c s).ceilOk = s.ceilOk := by
  unfold mgtReturn; simp
@[simp] theorem postTo_ceilOk (ring : Nat) (c : Completion) (s : State) : (postTo ring c s).ceilOk = s.ceilOk := by
  unfold postTo; simp
@[simp] theorem releaseLate_ceilOk (jsn : Nat) (s : State) : (releaseLate jsn s).ceilOk = s.ceilOk := by
  unfold releaseLate; simp
@[simp] theorem evtRefill_ceilOk (s : State) : (evtRefill s).ceilOk = s.ceilOk := by
  unfold evtRefill; (repeat' split) <;> simp
@[simp] theorem evtDrain_ceilOk (y0 : Nat) (s : State) : (evtDrain y0 s).ceilOk = s.ceilOk := by
  induction y0 generalizing s with
  | zero => rfl
  | succ n ih => unfold evtDrain; (repeat' split) <;> simp [ih]
@[simp] theorem evtPump_ceilOk (s : State) : (evtPump s).ceilOk = s.ceilOk := by
  unfold evtPump; simp
@[simp] theorem setRun_ceilOk (jsn : Nat) (f : RunInfo → RunInfo) (s : State) : (setRun jsn f s).ceilOk = s.ceilOk := by
  unfold setRun; simp
@[simp] theorem setEntry_ceilOk (jsn : Nat) (f : JournalEntry → JournalEntry) (s : State) : (setEntry jsn f s).ceilOk =
    s.ceilOk := by
  unfold setEntry; simp
@[simp] theorem waitRun_ceilOk (jsn : Nat) (s : State) : (waitRun jsn s).ceilOk = s.ceilOk := by
  unfold waitRun; simp
@[simp] theorem startRun_ceilOk (jsn : Nat) (s : State) : (startRun jsn s).ceilOk = s.ceilOk := by
  unfold startRun; simp
@[simp] theorem postAccepted_ceilOk (e : JournalEntry) (s : State) : (postAccepted e s).ceilOk = s.ceilOk := by
  unfold postAccepted; simp
@[simp] theorem beginFree_ceilOk (jsn : Nat) (s : State) : (beginFree jsn s).ceilOk = s.ceilOk := by
  unfold beginFree; simp

theorem all_of_tabGet {α : Type} {d : α} {P : α → Bool} (hd : P d = true) {t : Table α} (h : t.all (fun p => P p.2) = true) (a : Nat) :
    P (tabGet d t a) = true := by
  induction t with
  | nil => exact hd
  | cons q t ih =>
    rw [List.all_cons, Bool.and_eq_true] at h
    obtain ⟨hq, ht⟩ := h
    rw [tabGet]
    split
    · exact hq
    · exact ih ht

/-- A test that the default passes, and that the new value passes if the old one did, is passed by as many entries as before. -/
theorem all_tabPut {α : Type} {d : α} {P : α → Bool} (hd : P d = true) {a : Nat} {x : α} {t : Table α}
    (hx : P x = P (tabGet d t a)) : (tabPut a x t).all (fun p => P p.2) = t.all fun p => P p.2 := by
  induction t with
  | nil => simp [tabPut, hx, tabGet, hd]
  | cons q t ih =>
    obtain ⟨k, v⟩ := q
    rw [tabGet] at hx
    rw [tabPut]
    split_ifs with hlt heq
    · rw [if_neg (Nat.ne_of_lt hlt)] at hx
      cases h : t.all fun p => P p.2 with
      | false => simp [h]
      | true => simp [h, hx, all_of_tabGet hd h]
    · rw [if_pos heq] at hx
      simp [hx]
    · rw [if_neg heq] at hx
      simp [ih hx]

/-- A slot written with a counter that is within CEIL if the one before was: the bound holds as before. The slot that is written
is not the empty record, so no other record of the slot's number is dropped with it. -/
theorem setSlot_ceilOk_of_iff {t : Bool × Nat} {k : KeySlot} {s : State} (hne : k ≠ .none)
    (hk : k.counter ≤ ceilNow s ↔ (getSlot t s).counter ≤ ceilNow s) : (setSlot t k s).ceilOk = s.ceilOk := by
  have hp : decide (k.counter ≤ ceilNow s) = decide ((getSlot t s).counter ≤ ceilNow s) := decide_eq_decide.2 hk
  have put : ∀ l : Table KeySlot, tabGet KeySlot.none l t.2 = getSlot t s →
      (tabSet .none t.2 k l).all (fun p => decide (p.2.counter ≤ ceilNow s)) = l.all fun p => decide (p.2.counter ≤ ceilNow s) := by
    intro l hl
    rw [tabSet, if_neg hne]
    exact all_tabPut (d := KeySlot.none) (P := fun k : KeySlot => decide (k.counter ≤ ceilNow s)) (decide_eq_true (Nat.zero_le _)) (by rw [hl, hp])
  rw [setSlot]
  split
  · next h => exact congrArg (fun b => _ && b && _) (put _ (by rw [getSlot, if_pos h]))
  · next h => exact congrArg (fun b => b && _ && _) (put _ (by rw [getSlot, if_neg h]))

theorem ceilOkOf_mono {ctx ctx' dev dev' : Table KeySlot} {a b : CeilCopy} {next : Option Nat}
    (hc : ∀ p ∈ ctx', p.2.counter ≤ ceilOf a b ∨ p ∈ ctx) (hd : ∀ p ∈ dev', p.2.counter ≤ ceilOf a b ∨ p ∈ dev)
    (h : ceilOkOf ctx dev a b next = true) : ceilOkOf ctx' dev' a b next = true := by
  simp only [ceilOkOf, Bool.and_eq_true, List.all_eq_true, decide_eq_true_eq] at h ⊢
  obtain ⟨⟨hctx, hdev⟩, hnext⟩ := h
  exact ⟨⟨fun p hp => (hc p hp).elim id (hctx p), fun p hp => (hd p hp).elim id (hdev p)⟩, hnext⟩

theorem mem_tabPut {α : Type} {a : Nat} {x : α} {t : Table α} {p : Nat × α} (h : p ∈ tabPut a x t) : p = (a, x) ∨ p ∈ t := by
  induction t with
  | nil => simpa [tabPut] using h
  | cons q t ih =>
    obtain ⟨k, v⟩ := q
    rw [tabPut] at h
    split_ifs at h with hlt heq
    · simpa using h
    · rcases List.mem_cons.1 h with rfl | h
      · exact .inl rfl
      · exact .inr (List.mem_cons_of_mem _ h)
    · rcases List.mem_cons.1 h with rfl | h
      · exact .inr (List.mem_cons_self ..)
      · exact (ih h).imp_right (List.mem_cons_of_mem _)

theorem mem_tabSet {α : Type} [DecidableEq α] {d : α} {a : Nat} {x : α} {t : Table α} {p : Nat × α} (h : p ∈ tabSet d a x t) :
    p = (a, x) ∨ p ∈ t := by
  rw [tabSet] at h
  split at h
  · exact .inr (List.mem_filter.1 h).1
  · exact mem_tabPut h

theorem setSlot_ceilOk {t : Bool × Nat} {k : KeySlot} {s : State} (hk : k.counter ≤ ceilNow s) (hs : s.ceilOk = true) :
    (setSlot t k s).ceilOk = true := by
  have new : ∀ l : Table KeySlot, ∀ p ∈ tabSet .none t.2 k l, p.2.counter ≤ ceilOf s.mram.ceilA s.mram.ceilB ∨ p ∈ l :=
    fun l p hp => (mem_tabSet hp).imp_left fun h => by rw [h]; exact hk
  rw [setSlot]
  split
  · exact ceilOkOf_mono (fun p hp => .inr hp) (new _) hs
  · exact ceilOkOf_mono (new _) (fun p hp => .inr hp) hs

theorem getSlot_counter_le {s : State} (hs : s.ceilOk = true) (t : Bool × Nat) : (getSlot t s).counter ≤ ceilNow s := by
  obtain ⟨⟨hctx, hdev⟩, -⟩ : (_ ∧ _) ∧ _ := by simpa only [State.ceilOk, ceilOkOf, Bool.and_eq_true] using hs
  have zero : decide (KeySlot.none.counter ≤ ceilNow s) = true := decide_eq_true (Nat.zero_le _)
  rw [getSlot]
  split
  · exact of_decide_eq_true (all_of_tabGet (P := fun k : KeySlot => decide (k.counter ≤ ceilNow s)) zero hdev _)
  · exact of_decide_eq_true (all_of_tabGet (P := fun k : KeySlot => decide (k.counter ≤ ceilNow s)) zero hctx _)

@[simp] theorem freePending_ceilOk (e : JournalEntry) (s : State) (hs : s.ceilOk = true) : (freePending e s).ceilOk = true := by
  unfold freePending
  dsimp only
  split
  · exact setSlot_ceilOk (getSlot_counter_le hs _) hs
  · exact hs

/-- Records that are forgotten because they are empty were within every bound. -/
theorem all_map_filter_counter {f : KeySlot → KeySlot} {n : Nat} (hf : ∀ k, (f k).counter = k.counter) (t : Table KeySlot) :
    ((t.map fun p => (p.1, f p.2)).filter fun p => decide (p.2 ≠ KeySlot.none)).all (fun p => decide (p.2.counter ≤ n))
      = t.all fun p => decide (p.2.counter ≤ n) := by
  induction t with
  | nil => rfl
  | cons p t ih =>
    rw [List.map_cons, List.filter_cons, List.all_cons]
    split
    · rw [List.all_cons, ih, hf]
    · next h =>
      have hz : p.2.counter = 0 := by
        rw [← hf, show f p.2 = .none by simpa using h]
        rfl
      rw [ih, hz, decide_eq_true (Nat.zero_le n), Bool.true_and]

@[simp] theorem endPhase_ceilOk (s : State) : (endPhase s).ceilOk = s.ceilOk := by
  unfold endPhase
  split
  · rfl
  · rw [ceilOk_mk, State.ceilOk, ceilOkOf, ceilOkOf]
    rw [all_map_filter_counter (f := fun k => { k with random := none }) (fun _ => rfl),
      all_map_filter_counter (f := fun k => { k with random := none }) (fun _ => rfl)]

@[simp] theorem replayDone_ceilOk (s : State) : (replayDone s).ceilOk = s.ceilOk := by
  unfold replayDone; simp
@[simp] theorem replayEnded_ceilOk (wasReplayed : Bool) (s : State) : (replayEnded wasReplayed s).ceilOk = s.ceilOk := by
  unfold replayEnded; simp
@[simp] theorem abortMissed_ceilOk (jsn : Nat) (s : State) : (abortMissed jsn s).ceilOk = s.ceilOk := by
  unfold abortMissed; simp
@[simp] theorem reportFirst_ceilOk (e : JournalEntry) (s : State) : (reportFirst e s).ceilOk = s.ceilOk := by
  unfold reportFirst; simp
@[simp] theorem unpin_ceilOk (e : JournalEntry) (s : State) : (unpin e s).ceilOk = s.ceilOk := by
  unfold unpin; simp
@[simp] theorem retireNow_ceilOk (e : JournalEntry) (r : RunInfo) (status : Nat) (r0 r1 : Word) (s : State) (hs : s.ceilOk = true) :
    (retireNow e r status r0 r1 s).ceilOk = true := by
  unfold retireNow; simp [hs]
@[simp] theorem endCommand_ceilOk (jsn status : Nat) (r0 r1 : Word) (s : State) (hs : s.ceilOk = true) :
    (endCommand jsn status r0 r1 s).ceilOk = true := by
  unfold endCommand; (repeat' split) <;> simp [hs]
@[simp] theorem endWith_ceilOk (jsn status r0 r1 : Nat) (s : State) (hs : s.ceilOk = true) :
    (endWith jsn status r0 r1 s).ceilOk = true := by
  unfold endWith; simp [hs]
@[simp] theorem endBare_ceilOk (jsn st : Nat) (s : State) (hs : s.ceilOk = true) :
    (endBare jsn st s).ceilOk = true := by
  unfold endBare; simp [hs]
@[simp] theorem endR0_ceilOk (jsn st r0 : Nat) (s : State) (hs : s.ceilOk = true) :
    (endR0 jsn st r0 s).ceilOk = true := by
  unfold endR0; simp [hs]
@[simp] theorem endR1_ceilOk (jsn st r1 : Nat) (s : State) (hs : s.ceilOk = true) :
    (endR1 jsn st r1 s).ceilOk = true := by
  unfold endR1; simp [hs]
@[simp] theorem retireWaiting_ceilOk (y0 : List Nat) (s : State) (hs : s.ceilOk = true) : (retireWaiting y0 s).ceilOk = true := by
  induction y0 generalizing s with
  | nil => exact hs
  | cons j t ih => unfold retireWaiting; (repeat' split) <;> simp [ih, hs]
@[simp] theorem onCommand_ceilOk (op jsn : Nat) (s : State) (k : JournalEntry → RunInfo → State → State) (hs : s.ceilOk = true)
    (hk : ∀ e r u, u.ceilOk = true → (k e r u).ceilOk = true) : (onCommand op jsn s k).ceilOk = true := by
  unfold onCommand; split <;> simp [hs, hk]
@[simp] theorem modUnit_ceilOk (u : Nat) (f : SysUnit → SysUnit) (s : State) : (modUnit u f s).ceilOk = s.ceilOk := by
  unfold modUnit; simp
@[simp] theorem setUnit_ceilOk (u st cause : Nat) (s : State) : (setUnit u st cause s).ceilOk = s.ceilOk := by
  unfold setUnit; simp
@[simp] theorem addTransient_ceilOk (u : Nat) (s : State) : (addTransient u s).ceilOk = s.ceilOk := by
  unfold addTransient; simp
@[simp] theorem needUnits_ceilOk (us : List Nat) (jsn : Nat) (s : State) (k : State → State) (hs : s.ceilOk = true)
    (hk : ∀ u, u.ceilOk = true → (k u).ceilOk = true) : (needUnits us jsn s k).ceilOk = true := by
  unfold needUnits; (repeat' split) <;> simp [hk, hs]
@[simp] theorem wakeNow_ceilOk (s : State) : (wakeNow s).ceilOk = s.ceilOk := by
  unfold wakeNow; simp
@[simp] theorem modLane_ceilOk (n : Nat) (f : HlkLane → HlkLane) (s : State) : (modLane n f s).ceilOk = s.ceilOk := by
  unfold modLane; simp
@[simp] theorem sendBlocks_ceilOk (lane : Nat) (l : List (BitVec 2 × Word)) (s : State) : (sendBlocks lane l s).ceilOk = s.ceilOk := by
  unfold sendBlocks; simp
@[simp] theorem sendFrame_ceilOk (ftype source index : Nat) (data : List Word) (s : State) : (sendFrame ftype source index data s).ceilOk = s.ceilOk := by
  unfold sendFrame; (repeat' split) <;> simp
@[simp] theorem sendControl_ceilOk (ftype : Nat) (data : List Word) (s : State) : (sendControl ftype data s).ceilOk = s.ceilOk := by
  unfold sendControl; simp
@[simp] theorem sendInhibit_ceilOk (s : State) : (sendInhibit s).ceilOk = s.ceilOk := by
  unfold sendInhibit; rw [emit_ceilOk, foldl_ceilOk (fun s n => by split <;> simp)]
@[simp] theorem inhibitOn_ceilOk (src : Nat) (s : State) : (inhibitOn src s).ceilOk = s.ceilOk := by
  unfold inhibitOn; dsimp only; split <;> simp

/-! ### Machine/Detector -/
@[simp] theorem setDetector_ceilOk (track wrap : Nat) (d : Detector) (s : State) : (setDetector track wrap d s).ceilOk = s.ceilOk := by
  unfold setDetector; simp

/-! ### Machine/Porter -/
@[simp] theorem setPool_ceilOk (p : Nat) (f : Pool → Pool) (s : State) : (setPool p f s).ceilOk = s.ceilOk := by
  unfold setPool; simp
@[simp] theorem setBuf_ceilOk (p i : Nat) (b : BufRec) (s : State) : (setBuf p i b s).ceilOk = s.ceilOk := by
  unfold setBuf; simp
@[simp] theorem takeBuf_ceilOk (p owner : Nat) (s : State) : (takeBuf p owner s).2.ceilOk = s.ceilOk := by
  unfold takeBuf; simp
theorem porterTry_ceilOk (owner size : Nat) (s : State) (q : (Word × State)) (hr : porterTry owner size s = some q) :
    q.2.ceilOk = s.ceilOk := by
  unfold porterTry at hr; dsimp only at hr; split at hr
  · cases hr; rw [takeBuf_ceilOk]; split <;> rfl
  · cases hr
@[simp] theorem noBuffer_ceilOk (owner size : Nat) (s : State) : (noBuffer owner size s).ceilOk = s.ceilOk := by
  unfold noBuffer; simp
@[simp] theorem refuse_ceilOk (caller oper reason : Nat) (h : Word) (s : State) : (refuse caller oper reason h
    s).ceilOk = s.ceilOk := by
  unfold refuse; simp
@[simp] theorem fwResult_ceilOk (o : Nat) (w : Nat) (s : State) : (fwResult o w s).ceilOk = s.ceilOk := by
  unfold fwResult; simp
@[simp] theorem fwHandle_ceilOk (o : Nat) (h : Word) (s : State) : (fwHandle o h s).ceilOk = s.ceilOk := by
  unfold fwHandle; simp
@[simp] theorem applyOwner_ceilOk (op owner : Nat) (h : Word) (other : Nat) (s : State) : (applyOwner op owner h
    other s).ceilOk = s.ceilOk := by
  unfold applyOwner; simp
@[simp] theorem ownerOp_ceilOk (op owner : Nat) (h : Word) (other : Nat) (s : State) : (ownerOp op owner h other
    s).ceilOk = s.ceilOk := by
  unfold ownerOp; (repeat' split) <;> simp
@[simp] theorem allocOp_ceilOk (owner size : Nat) (wait : Bool) (s : State) : (allocOp owner size wait s).ceilOk =
    s.ceilOk := by
  unfold allocOp; split
  · simp
  · split
    · rename_i heq
      have h := porterTry_ceilOk _ _ _ _ heq
      simpa using h
    · split <;> simp
@[simp] theorem clearBuffer_ceilOk (p i : Nat) (s : State) : (clearBuffer p i s).ceilOk = s.ceilOk := by
  unfold clearBuffer; simp
@[simp] theorem returnBuf_ceilOk (s : State) (pi : Nat × Nat) : (returnBuf s pi).ceilOk = s.ceilOk := by
  unfold returnBuf; simp
@[simp] theorem serveOne_ceilOk (s : State) : (serveOne s).ceilOk = s.ceilOk := by
  unfold serveOne; (repeat' split) <;> simp
@[simp] theorem serveWaiting_ceilOk (y0 : Nat) (s : State) : (serveWaiting y0 s).ceilOk = s.ceilOk := by
  induction y0 generalizing s with
  | zero => rfl
  | succ n ih => unfold serveWaiting; rw [ih, serveOne_ceilOk]
@[simp] theorem publishPool_ceilOk (s : State) (p : Nat) : (publishPool s p).ceilOk = s.ceilOk := by
  unfold publishPool; simp
@[simp] theorem porterSettle_ceilOk (s : State) : (porterSettle s).ceilOk = s.ceilOk := by
  unfold porterSettle; simp

/-! ### Machine/Memory -/
@[simp] theorem setTable_ceilOk (cls : Nat) (t : List ErrEntry) (s : State) : (setTable cls t s).ceilOk = s.ceilOk := by
  unfold setTable; simp
@[simp] theorem overTable_ceilOk (cls : Nat) (s : State) : (overTable cls s).ceilOk = s.ceilOk := by
  unfold overTable; simp
@[simp] theorem logError_ceilOk (cls addr pos kind : Nat) (s : State) : (logError cls addr pos kind s).ceilOk = s.ceilOk
    := by
  unfold logError; simp
@[simp] theorem failWrites_ceilOk (st : Nat) (s : State) : (failWrites st s).ceilOk = s.ceilOk := by
  unfold failWrites; simp
@[simp] theorem flipDone_ceilOk (cls addr : Nat) (s : State) : (flipDone cls addr s).ceilOk = s.ceilOk := by
  unfold flipDone; simp
@[simp] theorem hbmPut_ceilOk (a : Nat) (l : List Byte) (poison : Bool) (s : State) : (hbmPut a l poison s).ceilOk =
    s.ceilOk := by
  unfold hbmPut; simp
@[simp] theorem fillGranule_ceilOk (a : Nat) (s : State) : (fillGranule a s).ceilOk = s.ceilOk := by
  unfold fillGranule; simp
@[simp] theorem hbmWrite_ceilOk (a : Nat) (l : List Byte) (s : State) : (hbmWrite a l s).ceilOk = s.ceilOk := by
  unfold hbmWrite; simp
@[simp] theorem pcCorrected_ceilOk (pc : Nat) (s : State) : (pcCorrected pc s).ceilOk = s.ceilOk := by
  unfold pcCorrected; simp
@[simp] theorem pcRetire_ceilOk (pc : Nat) (s : State) : (pcRetire pc s).ceilOk = s.ceilOk := by
  unfold pcRetire; simp
@[simp] theorem memDegraded_ceilOk (addr : Nat) (s : State) : (memDegraded addr s).ceilOk = s.ceilOk := by
  unfold memDegraded; simp
@[simp] theorem pcLasting_ceilOk (pc addr : Nat) (s : State) : (pcLasting pc addr s).ceilOk = s.ceilOk := by
  unfold pcLasting; simp
@[simp] theorem pcFailing_ceilOk (a : Nat) (s : State) : (pcFailing a s).ceilOk = s.ceilOk := by
  unfold pcFailing; simp
@[simp] theorem lostWord_ceilOk (a : Nat) (l : List Byte) (poison : Bool) (s : State) : (lostWord a l poison s).ceilOk
    = s.ceilOk := by
  unfold lostWord; simp
@[simp] theorem fixedWord_ceilOk (a i : Nat) (s : State) : (fixedWord a i s).ceilOk = s.ceilOk := by
  unfold fixedWord; simp
@[simp] theorem hbmReadCopy_ceilOk (a : Nat) (s : State) : (hbmReadCopy a s).2.2.ceilOk = s.ceilOk := by
  unfold hbmReadCopy; dsimp only; (repeat' split) <;> simp
@[simp] theorem mirrorLost_ceilOk (a : Nat) (s : State) (hs : s.ceilOk = true) : (mirrorLost a s).ceilOk = true := by
  unfold mirrorLost
  dsimp only
  split
  · exact foldl_keeps_ceilOk (fun s r h => endWith_ceilOk _ _ _ _ s h) _ _ (by simp [hs])
  · simp [hs]
@[simp] theorem hbmRead_ceilOk (a : Nat) (s : State) (hs : s.ceilOk = true) : (hbmRead a s).2.2.ceilOk = true := by
  have copy : ∀ a (u : State) k l v, hbmReadCopy a u = (k, l, v) → u.ceilOk = true → v.ceilOk = true := fun a u k l v h hu => by
    rw [← hu, ← hbmReadCopy_ceilOk a u, h]
  unfold hbmRead; split
  · next heq => exact copy _ _ _ _ _ heq hs
  · next heq =>
    have h1 := copy _ _ _ _ _ heq hs
    split
    · split
      · next heq2 => rw [hbmPut_ceilOk]; exact copy _ _ _ _ _ heq2 h1
      · next heq2 => exact mirrorLost_ceilOk _ _ (copy _ _ _ _ _ heq2 h1)
    · exact h1
@[simp] theorem hbmMerge_ceilOk (a : Nat) (l : List (Option Byte)) (s : State) : (hbmMerge a l s).ceilOk = s.ceilOk := by
  have h := (hbmReadCopy_ceilOk a (fillGranule a s)).trans (fillGranule_ceilOk a s)
  unfold hbmMerge; dsimp only; split
  · rename_i heq; exact (hbmPut_ceilOk _ _ _ _).trans ((congrArg (fun p => p.2.2.ceilOk) heq).symm.trans h)
  · rename_i heq
    have h1 := (congrArg (fun p => p.2.2.ceilOk) heq).symm.trans h
    simpa using h1
@[simp] theorem readHdm_ceilOk (y0 : Nat) (y1 : Nat) (y2 : Nat) (s : State) (hs : s.ceilOk = true) :
    (readHdm y0 y1 y2 s).2.2.ceilOk = true := by
  induction y0 generalizing s y1 y2 with
  | zero => exact hs
  | succ n ih =>
    unfold readHdm; split
    · exact hs
    · exact ih _ _ _ (hbmRead_ceilOk (y1 / 32 * 32) s hs)
@[simp] theorem storeHbm_ceilOk (y0 : Nat) (a : Nat) (l : List Byte) (s : State) : (storeHbm y0 a l s).ceilOk = s.ceilOk := by
  induction y0 generalizing a l s with
  | zero => rfl
  | succ n ih => unfold storeHbm; (repeat' split) <;> simp [ih]
@[simp] theorem noteEpoch_ceilOk (dpa : Nat) (s : State) : (noteEpoch dpa s).ceilOk = s.ceilOk := by
  unfold noteEpoch; simp
@[simp] theorem ptlWord_ceilOk (a : Nat) (l : List (Option Byte)) (s : State) : (ptlWord a l s).ceilOk = s.ceilOk := by
  unfold ptlWord; simp
@[simp] theorem scrubHbm_ceilOk (a : Nat) (s : State) (hs : s.ceilOk = true) :
    (scrubHbm a s).ceilOk = true := by
  unfold scrubHbm; dsimp only; (repeat' split) <;> simp [hs]
@[simp] theorem sramPut_ceilOk (a : Nat) (l : List Byte) (poison : Bool) (s : State) : (sramPut a l poison s).ceilOk =
    s.ceilOk := by
  unfold sramPut; simp
@[simp] theorem scrubSram_ceilOk (a : Nat) (s : State) : (scrubSram a s).ceilOk = s.ceilOk := by
  unfold scrubSram; dsimp only; (repeat' split) <;> simp
@[simp] theorem flipCtrlFields_ceilOk (value : Word) (s : State) : (flipCtrlFields value s).ceilOk = s.ceilOk := by
  unfold flipCtrlFields; simp
@[simp] theorem armTransfer_ceilOk (s : State) : (armTransfer s).ceilOk = s.ceilOk := by
  unfold armTransfer; simp

/-! ### Machine/Intake -/
@[simp] theorem releaseLive_ceilOk (l : List (Nat × Bool)) (s : State) : (releaseLive l s).ceilOk = s.ceilOk := by
  unfold releaseLive; simp
@[simp] theorem pumpRings_ceilOk (s : State) : (pumpRings s).ceilOk = s.ceilOk := by
  unfold pumpRings; simp
@[simp] theorem ringTransfer_ceilOk (s : State) : (ringTransfer s).ceilOk = s.ceilOk := by
  unfold ringTransfer; dsimp only; (repeat' split) <;> simp
@[simp] theorem doorbellErr_ceilOk (ring value : Nat) (s : State) : (doorbellErr ring value s).ceilOk = s.ceilOk := by
  unfold doorbellErr; simp
@[simp] theorem setCounter_ceilOk (f : Counter → Counter) (s : State) : (setCounter f s).ceilOk = s.ceilOk := by
  unfold setCounter; simp
@[simp] theorem sopWord_ceilOk (w : Word) (s : State) : (sopWord w s).ceilOk = s.ceilOk := by
  unfold sopWord; simp

/-! ### Machine/JournalRows -/
@[simp] theorem noteFull_ceilOk (src : Nat) (s : State) : (noteFull src s).ceilOk = s.ceilOk := by
  unfold noteFull; (repeat' split) <;> simp
@[simp] theorem nextTurn_ceilOk (s : State) : (nextTurn s).ceilOk = s.ceilOk := by
  unfold nextTurn; simp
@[simp] theorem ringTurn_ceilOk (y0 : Nat) (s : State) : (ringTurn y0 s).1.ceilOk = s.ceilOk := by
  induction y0 generalizing s with
  | zero => rfl
  | succ n ih => unfold ringTurn; dsimp only; (repeat' split) <;> simp [ih]
@[simp] theorem takePacket_ceilOk (s : State) : (takePacket s).1.ceilOk = s.ceilOk := by
  unfold takePacket; dsimp only; (repeat' split) <;> simp
@[simp] theorem rejectPacket_ceilOk (src : Nat) (ws : List Word) (st : Nat) (s : State) : (rejectPacket src ws st
    s).ceilOk = s.ceilOk := by
  unfold rejectPacket; simp
@[simp] theorem fetchList_ceilOk (ws : List Word) (s : State) : (fetchList ws s).ceilOk = s.ceilOk := by
  unfold fetchList; (repeat' split) <;> simp
@[simp] theorem mgtArrive_ceilOk (s : State) : (mgtArrive s).ceilOk = s.ceilOk := by
  unfold mgtArrive; simp
@[simp] theorem mgtDrop_ceilOk (mtype code : Nat) (s : State) : (mgtDrop mtype code s).ceilOk = s.ceilOk := by
  unfold mgtDrop; simp

/-! ### Machine/Context -/
@[simp] theorem setCtx_ceilOk (n : Nat) (f : Context → Context) (s : State) : (setCtx n f s).ceilOk = s.ceilOk := by
  unfold setCtx; simp
@[simp] theorem endWriteAt_ceilOk (e : JournalEntry) (st r1 : Nat) (s : State) (hs : s.ceilOk = true) :
    (endWriteAt e st r1 s).ceilOk = true := by
  unfold endWriteAt; simp [hs]
@[simp] theorem endWrite_ceilOk (e : JournalEntry) (st : Nat) (s : State) (hs : s.ceilOk = true) :
    (endWrite e st s).ceilOk = true := by
  unfold endWrite; simp [hs]
@[simp] theorem touchLine_ceilOk (c : Nat) (s : State) : (touchLine c s).ceilOk = s.ceilOk := by
  unfold touchLine; simp
@[simp] theorem addPin_ceilOk (jsn c : Nat) (s : State) : (addPin jsn c s).ceilOk = s.ceilOk := by
  unfold addPin; simp
theorem pinCtx_ceilOk (jsn c : Nat) (s : State) (q : State) (hr : pinCtx jsn c s = some q) : q.ceilOk = s.ceilOk := by
  unfold pinCtx at hr; (repeat' split at hr) <;> cases hr <;> simp
@[simp] theorem cacheWait_ceilOk (jsn c : Nat) (s : State) : (cacheWait jsn c s).ceilOk = s.ceilOk := by
  unfold cacheWait; simp
@[simp] theorem endEarly_ceilOk (e : JournalEntry) (st : Nat) (s : State) (hs : s.ceilOk = true) :
    (endEarly e st s).ceilOk = true := by
  unfold endEarly; dsimp only; (repeat' split) <;> simp [hs]
@[simp] theorem notOpen_ceilOk (e : JournalEntry) (s : State) (hs : s.ceilOk = true) :
    (notOpen e s).ceilOk = true := by
  unfold notOpen; simp [hs]
@[simp] theorem fetchHost_ceilOk (e : JournalEntry) (s : State) : (fetchHost e s).ceilOk = s.ceilOk := by
  unfold fetchHost; simp
@[simp] theorem withHost_ceilOk (e : JournalEntry) (r : RunInfo) (s : State) (k : JournalEntry → RunInfo → State → State)
    (hs : s.ceilOk = true) (hk : ∀ e r u, u.ceilOk = true → (k e r u).ceilOk = true) : (withHost e r s k).ceilOk = true := by
  unfold withHost; split <;> simp [hk, hs]
@[simp] theorem onBegin_ceilOk (op jsn : Nat) (s : State) (k : JournalEntry → RunInfo → State → State) (hs : s.ceilOk = true)
    (hk : ∀ e r u, u.ceilOk = true → (k e r u).ceilOk = true) : (onBegin op jsn s k).ceilOk = true := by
  unfold onBegin
  refine onCommand_ceilOk _ _ _ _ hs fun e r u hu => ?_
  split
  · simp [hu]
  · split
    · exact withHost_ceilOk e r u k hu hk
    · split
      · simp [hu]
      · next heq =>
        have hv := (pinCtx_ceilOk _ _ _ _ heq).trans hu
        split
        · exact notOpen_ceilOk _ _ hv
        · exact withHost_ceilOk _ _ _ _ hv hk
@[simp] theorem freeBuffer_ceilOk (owner : Nat) (h : Word) (s : State) : (freeBuffer owner h s).ceilOk = s.ceilOk := by
  unfold freeBuffer; simp
@[simp] theorem dropChained_ceilOk (c : Chained) (s : State) : (dropChained c s).ceilOk = s.ceilOk := by
  unfold dropChained; simp
@[simp] theorem dropChainedOf_ceilOk (ctx : Nat) (s : State) : (dropChainedOf ctx s).ceilOk = s.ceilOk := by
  unfold dropChainedOf; simp
@[simp] theorem dropDict_ceilOk (ctx : Nat) (s : State) : (dropDict ctx s).ceilOk = s.ceilOk := by
  unfold dropDict; simp
@[simp] theorem openCtx_ceilOk (e : JournalEntry) (s : State) : (openCtx e s).ceilOk = s.ceilOk := by
  unfold openCtx; simp
@[simp] theorem closeCtx_ceilOk (e : JournalEntry) (s : State) : (closeCtx e s).ceilOk = s.ceilOk := by
  unfold closeCtx; simp
@[simp] theorem profileCtx_ceilOk (e : JournalEntry) (s : State) : (profileCtx e s).ceilOk = s.ceilOk := by
  unfold profileCtx; (repeat' split) <;> simp
@[simp] theorem overflowBytes_ceilOk (e : JournalEntry) (c : Chained) (done n : Nat) (s : State) : (overflowBytes e c done n s).ceilOk = s.ceilOk := by
  unfold overflowBytes; (repeat' split) <;> simp
@[simp] theorem readOverflow_ceilOk (e : JournalEntry) (c : Chained) (done : Nat) (s : State) (hs : s.ceilOk = true) :
    (readOverflow e c done s).ceilOk = true := by
  unfold readOverflow; simp [hs]
@[simp] theorem overflowPart_ceilOk (e : JournalEntry) (c : Chained) (done part : Nat) (s : State) : (overflowPart e c done part s).ceilOk = s.ceilOk := by
  unfold overflowPart; simp

/-! ### Machine/Cipher -/
@[simp] theorem raiseCeil_ceilOk (s : State) : (raiseCeil s).ceilOk = s.ceilOk := by
  unfold raiseCeil
  split
  · rfl
  · next h =>
    have hn : s.mram.ceilNext = none := by simpa using h
    have hle : ceilOf s.mram.ceilA s.mram.ceilB ≤ ceilNow s + 2 ^ 20 := Nat.le_add_right _ _
    simp only [State.ceilOk, ceilOkOf, hn, Option.all_none, Option.all_some, decide_eq_true hle]
theorem ceilValid_mkCeil (c n : Nat) : ceilValid (mkCeil c n) = true := beq_self_eq_true _

theorem ceilOf_of_valid {a b : CeilCopy} (ha : ceilValid a = true) (hb : ceilValid b = true) :
    ceilOf a b = a.ceil ∨ ceilOf a b = b.ceil := by
  rw [ceilOf, ha, hb]
  split
  · exact .inl rfl
  · exact .inr rfl

/-- The copy in force is valid, and it is the second when it is not the first. -/
theorem ceilCopy_cases (s : State) : (ceilCopy s = some s.mram.ceilA ∧ ceilValid s.mram.ceilA = true)
    ∨ (ceilCopy s = some s.mram.ceilB ∧ ceilValid s.mram.ceilB = true) ∨ ceilCopy s = none := by
  rw [ceilCopy]
  split_ifs with hA hB
  · exact .inl ⟨rfl, (Bool.and_eq_true_iff.1 hA).1⟩
  · exact .inr (.inl ⟨rfl, hB⟩)
  · exact .inr (.inr rfl)

/-- A CEIL that is not below the one in force, written over the copy that is not in force, lowers nothing. -/
theorem ceilNow_le_writeCeil {c : Nat} {s : State} (hc : ceilNow s ≤ c) : ceilNow s ≤ ceilNow (writeCeil c s) := by
  have valid := ceilValid_mkCeil c ((ceilCopy s).elim 1 (·.seqNo + 1))
  rcases ceilCopy_cases s with ⟨h, hA⟩ | ⟨h, hB⟩ | h
  · have now : ceilNow s = s.mram.ceilA.ceil := by rw [ceilNow, h]; rfl
    rw [writeCeil, if_pos h]
    rcases ceilOf_of_valid hA valid with e | e
    · exact (now.trans e.symm).le
    · exact hc.trans (e.symm : c = _).le
  · have now : ceilNow s = s.mram.ceilB.ceil := by rw [ceilNow, h]; rfl
    rw [writeCeil]
    dsimp only
    split
    · next hA =>
      have hAB : s.mram.ceilA = s.mram.ceilB := Option.some.inj (hA.symm.trans h)
      rcases ceilOf_of_valid (hAB ▸ hB) valid with e | e
      · exact (now.trans (hAB ▸ e.symm)).le
      · exact hc.trans (e.symm : c = _).le
    · rcases ceilOf_of_valid valid hB with e | e
      · exact hc.trans (e.symm : c = _).le
      · exact (now.trans e.symm).le
  · rw [ceilNow, h]
    exact Nat.zero_le _

theorem writeCeil_ceilOk {c : Nat} {s : State} (hc : ceilNow s ≤ c) (hn : s.mram.ceilNext = none) (hs : s.ceilOk = true) :
    (writeCeil c s).ceilOk = true := by
  have le := ceilNow_le_writeCeil hc
  have parts : (writeCeil c s).cph = s.cph ∧ (writeCeil c s).mram.ceilNext = s.mram.ceilNext := by
    rw [writeCeil]
    dsimp only
    split <;> exact ⟨rfl, rfl⟩
  rw [← ceilInv_iff] at hs ⊢
  obtain ⟨hcph, hnext⟩ := parts
  rw [CeilInv, hcph, hnext, hn]
  exact ⟨fun p hp => (hs.1 p hp).trans le, fun _ h => nomatch h⟩
@[simp] theorem exhaust_ceilOk (t : Bool × Nat) (which : Nat) (s : State) : (exhaust t which s).ceilOk = s.ceilOk := by
  have h : (setSlot t { getSlot t s with use := .exhausted } s).ceilOk = s.ceilOk :=
    setSlot_ceilOk_of_iff (fun hk => SlotUse.noConfusion (congrArg KeySlot.use hk)) Iff.rfl
  unfold exhaust
  dsimp only
  split <;> simp [h]
@[simp] theorem countDraw_ceilOk (s : State) : (countDraw s).ceilOk = s.ceilOk := by
  unfold countDraw; simp
@[simp] theorem drawLimited_ceilOk (t : Bool × Nat) (s : State) : (drawLimited t s).2.ceilOk = s.ceilOk := by
  unfold drawLimited
  dsimp only
  split_ifs
  · simp
  all_goals
    have hne : ∀ (k : KeySlot) (p : BitVec 47) (n : Nat), { k with random := some p, limited := n } ≠ KeySlot.none :=
      fun k p n h => by simpa [KeySlot.none] using congrArg KeySlot.random h
    rw [countDraw_ceilOk]
    exact setSlot_ceilOk_of_iff (hne _ _ _) Iff.rfl
@[simp] theorem drawNormal_ceilOk (t : Bool × Nat) (s : State) : (drawNormal t s).2.ceilOk = s.ceilOk := by
  unfold drawNormal
  dsimp only
  split_ifs with hx hc
  · simp
  · simp
  · have hlt : (getSlot t s).counter < ceilNow s := Nat.lt_of_not_le hc
    rw [countDraw_ceilOk]
    exact setSlot_ceilOk_of_iff (fun h => Nat.succ_ne_zero _ (congrArg KeySlot.counter h))
      (iff_of_true (Nat.succ_le_of_lt hlt) hlt.le)
@[simp] theorem drawIv_ceilOk (t : Bool × Nat) (s : State) : (drawIv t s).2.ceilOk = s.ceilOk := by
  unfold drawIv; (repeat' split) <;> simp
@[simp] theorem burnIv_ceilOk (n : Nat) (s : State) : (burnIv n s).ceilOk = s.ceilOk := by
  unfold burnIv; simp
@[simp] theorem loadKey_ceilOk (t : Bool × Nat) (label : Nat) (wrapped : List Byte) (s : State) (hs : s.ceilOk = true) :
    (loadKey t label wrapped s).ceilOk = true := by
  unfold loadKey
  refine setSlot_ceilOk ?_ hs
  dsimp only
  split
  · exact Nat.zero_le _
  · exact Nat.le_refl _
@[simp] theorem clearKey_ceilOk (t : Bool × Nat) (s : State) (hs : s.ceilOk = true) : (clearKey t s).ceilOk = true := by
  unfold clearKey
  exact setSlot_ceilOk (getSlot_counter_le hs t) hs
@[simp] theorem ceilRepair_ceilOk (s : State) : (ceilRepair s).ceilOk = true := by
  have zero : ∀ (t : Table KeySlot) (n : Nat),
      ((t.map fun p => (p.1, { p.2 with counter := 0 })).filter fun p => decide (p.2 ≠ KeySlot.none)).all
        (fun p => decide (p.2.counter ≤ n)) = true := by
    intro t n
    refine List.all_eq_true.2 fun p hp => ?_
    obtain ⟨q, -, rfl⟩ := List.mem_map.1 (List.mem_filter.1 hp).1
    exact decide_eq_true (Nat.zero_le _)
  unfold ceilRepair
  dsimp only
  rw [endPhase_ceilOk, ceilOk_mk, ceilOkOf, zero, zero]
  rfl
@[simp] theorem finishJob_ceilOk (j : CipherJob) (lane result : Nat) (s : State) : (finishJob j lane result s).ceilOk =
    s.ceilOk := by
  unfold finishJob; simp
@[simp] theorem setLane_ceilOk (n : Nat) (f : Lane → Lane) (s : State) : (setLane n f s).ceilOk = s.ceilOk := by
  unfold setLane; simp
@[simp] theorem jobOutput_ceilOk (addr : Nat) (l : List Byte) (s : State) : (jobOutput addr l s).ceilOk = s.ceilOk := by
  unfold jobOutput; simp
@[simp] theorem stampHeader_ceilOk (j : CipherJob) (s : State) : (stampHeader j s).ceilOk = s.ceilOk := by
  unfold stampHeader; simp
@[simp] theorem runEncrypt_ceilOk (j : CipherJob) (s : State) (hs : s.ceilOk = true) : (runEncrypt j s).ceilOk = true := by
  unfold runEncrypt jobInput
  have h := readHdm_ceilOk (j.req.len / 32 + 2) j.req.src.toNat j.req.len s hs
  split; rename_i heq; simp at heq; simp [← heq.2, h]
@[simp] theorem startJob_ceilOk (n : Nat) (j : CipherJob) (s : State) : (startJob n j s).ceilOk = s.ceilOk := by
  unfold startJob; dsimp only; split
  · have h := drawIv_ceilOk (j.req.dev, j.req.slot) s
    split <;> (rename_i heq; rw [heq] at h; simpa using h)
  · split <;> simp
@[simp] theorem unqueue_ceilOk (j : CipherJob) (s : State) : (unqueue j s).ceilOk = s.ceilOk := by
  unfold unqueue; simp
@[simp] theorem resumeJob_ceilOk (n : Nat) (a : SaveArea) (s : State) : (resumeJob n a s).ceilOk = s.ceilOk := by
  unfold resumeJob; simp
@[simp] theorem laneFill_ceilOk (y0 n : Nat) (s : State) : (laneFill y0 n s).ceilOk = s.ceilOk := by
  induction y0 generalizing s with
  | zero => rfl
  | succ k ih => unfold laneFill; (repeat' split) <;> simp [ih]
@[simp] theorem laneNext_ceilOk (n : Nat) (s : State) : (laneNext n s).ceilOk = s.ceilOk := laneFill_ceilOk _ n s
@[simp] theorem suspend_ceilOk (n : Nat) (j : CipherJob) (s : State) : (suspend n j s).ceilOk = s.ceilOk := by
  unfold suspend; simp
@[simp] theorem placeJob_ceilOk (j : CipherJob) (s : State) : (placeJob j s).ceilOk = s.ceilOk := by
  unfold placeJob; (repeat' split) <;> simp
@[simp] theorem postJob_ceilOk (q : CipherRequest) (s : State) : (postJob q s).ceilOk = s.ceilOk := by
  unfold postJob; simp
@[simp] theorem pumpLanes_ceilOk (s : State) : (pumpLanes s).ceilOk = s.ceilOk := by
  unfold pumpLanes; simp
@[simp] theorem runOnLane_ceilOk (n : Nat) (s : State) : (runOnLane n s).ceilOk = s.ceilOk := by
  unfold runOnLane; (repeat' split) <;> simp
@[simp] theorem burnJob_ceilOk (j : CipherJob) (s : State) : (burnJob j s).ceilOk = s.ceilOk := by
  unfold burnJob; simp
@[simp] theorem cancelJob_ceilOk (c : Word) (s : State) : (cancelJob c s).ceilOk = s.ceilOk := by
  unfold cancelJob; (repeat' split) <;> simp
@[simp] theorem endStarting_ceilOk (s : State) : (endStarting s).ceilOk = s.ceilOk := by
  unfold endStarting; (repeat' split) <;> simp

/-! ### Machine/Drover -/
@[simp] theorem setLoop_ceilOk (n : Nat) (f : Loop → Loop) (s : State) : (setLoop n f s).ceilOk = s.ceilOk := by
  unfold setLoop; simp
@[simp] theorem stopLoop_ceilOk (openLoop : Bool) (s : State) : (stopLoop openLoop s).ceilOk = s.ceilOk := by
  unfold stopLoop; simp
@[simp] theorem stopCurrents_ceilOk (s : State) : (stopCurrents s).ceilOk = s.ceilOk := by
  unfold stopCurrents; simp
@[simp] theorem beginStop_ceilOk (cause : Nat) (s : State) : (beginStop cause s).ceilOk = s.ceilOk := by
  unfold beginStop; simp
@[simp] theorem recurringStop_ceilOk (cause : Nat) (s : State) : (recurringStop cause s).ceilOk = s.ceilOk := by
  unfold recurringStop; simp
@[simp] theorem safeStop_ceilOk (loop cause : Nat) (s : State) : (safeStop loop cause s).ceilOk = s.ceilOk := by
  unfold safeStop; simp
@[simp] theorem feTrip_ceilOk (n : Nat) (e24 : Int) (s : State) : (feTrip n e24 s).ceilOk = s.ceilOk := by
  unfold feTrip; simp
@[simp] theorem feCheck_ceilOk (n : Nat) (e24 : Int) (s : State) : (feCheck n e24 s).ceilOk = s.ceilOk := by
  unfold feCheck; simp
@[simp] theorem addBusy_ceilOk (n : Nat) (s : State) : (addBusy n s).ceilOk = s.ceilOk := by
  unfold addBusy; simp
@[simp] theorem missingLoop_ceilOk (n src : Nat) (s : State) : (missingLoop n src s).ceilOk = s.ceilOk := by
  unfold missingLoop; simp
@[simp] theorem satEvents_ceilOk (n : Nat) (sats : List Nat) (s : State) : (satEvents n sats s).ceilOk = s.ceilOk := by
  unfold satEvents; (repeat' split) <;> simp
@[simp] theorem deliver_ceilOk (n : Nat) (s : State) : (deliver n s).ceilOk = s.ceilOk := by
  unfold deliver; simp
@[simp] theorem computeLoop_ceilOk (n : Nat) (e24 fb : Int) (s : State) : (computeLoop n e24 fb s).ceilOk = s.ceilOk := by
  unfold computeLoop; simp
@[simp] theorem runLoop_ceilOk (inp : List (Nat × Int)) (n : Nat) (s : State) : (runLoop inp n s).ceilOk = s.ceilOk := by
  unfold runLoop; (repeat' split) <;> simp
@[simp] theorem keep24_ceilOk (x : Rat) (s : State) : (keep24 x s).2.ceilOk = s.ceilOk := by
  unfold keep24; dsimp only; (repeat' split) <;> simp
@[simp] theorem profileDone_ceilOk (n : Nat) (s : State) : (profileDone n s).ceilOk = s.ceilOk := by
  unfold profileDone; simp
@[simp] theorem profileStep_ceilOk (period n : Nat) (s : State) : (profileStep period n s).ceilOk = s.ceilOk := by
  unfold profileStep; simp
@[simp] theorem droverTransfer_ceilOk (s : State) : (droverTransfer s).ceilOk = s.ceilOk := by
  unfold droverTransfer; (repeat' split) <;> simp
@[simp] theorem modeChange_ceilOk (made n : Nat) (s : State) : (modeChange made n s).2.ceilOk = s.ceilOk := by
  unfold modeChange; dsimp only; (repeat' split) <;> simp
@[simp] theorem modeChanges_ceilOk (s : State) : (modeChanges s).ceilOk = s.ceilOk := by
  unfold modeChanges; generalize (0 : Nat) = m; generalize List.range 32 = l
  induction l generalizing m s with
  | nil => rfl
  | cons a t ih => exact (ih _ _).trans (modeChange_ceilOk _ _ _)
@[simp] theorem takeTargets_ceilOk (s : State) : (takeTargets s).ceilOk = s.ceilOk := by
  unfold takeTargets; simp
@[simp] theorem droverChanges_ceilOk (s : State) : (droverChanges s).ceilOk = s.ceilOk := by
  unfold droverChanges; simp
@[simp] theorem applyOut_ceilOk (n : Nat) (c : Int) (s : State) : (applyOut n c s).ceilOk = s.ceilOk := by
  unfold applyOut; simp
@[simp] theorem overrunLoop_ceilOk (n : Nat) (late : Bool) (s : State) : (overrunLoop n late s).ceilOk = s.ceilOk := by
  unfold overrunLoop; dsimp only; (repeat' split) <;> simp
@[simp] theorem abandon_ceilOk (n : Nat) (s : State) : (abandon n s).ceilOk = s.ceilOk := by
  unfold abandon; simp
@[simp] theorem edgeLoop_ceilOk (unfinished : List Nat) (n : Nat) (s : State) : (edgeLoop unfinished n s).ceilOk =
    s.ceilOk := by
  unfold edgeLoop; dsimp only; (repeat' split) <;> simp
@[simp] theorem unposted_ceilOk (s : State) : (unposted s).ceilOk = s.ceilOk := by
  unfold unposted; simp
@[simp] theorem busyEdge_ceilOk (s : State) : (busyEdge s).ceilOk = s.ceilOk := by
  unfold busyEdge; simp
@[simp] theorem droverTick_ceilOk (period : Nat) (unfinished : List Nat) (inp : List (Nat × Int)) (s : State) :
    (droverTick period unfinished inp s).ceilOk = s.ceilOk := by
  unfold droverTick; simp
@[simp] theorem postLoop_ceilOk (m : List (Nat × Int)) (n : Nat) (s : State) : (postLoop m n s).ceilOk = s.ceilOk := by
  unfold postLoop; simp
@[simp] theorem postAll_ceilOk (m : List (Nat × Int)) (s : State) : (postAll m s).ceilOk = s.ceilOk := by
  unfold postAll; simp
@[simp] theorem dacDone_ceilOk (s : State) : (dacDone s).ceilOk = s.ceilOk := by
  unfold dacDone; dsimp only; (repeat' split) <;> simp

/-! ### Machine/Transport -/
@[simp] theorem loadDefaults_ceilOk (s : State) : (loadDefaults s).ceilOk = s.ceilOk := by
  unfold loadDefaults; simp
@[simp] theorem reloadSections_ceilOk (s : State) : (reloadSections s).ceilOk = s.ceilOk := by
  unfold reloadSections; simp
@[simp] theorem setSensor_ceilOk (n : Nat) (f : Sensor → Sensor) (s : State) : (setSensor n f s).ceilOk = s.ceilOk := by
  unfold setSensor; simp
@[simp] theorem sensorFail_ceilOk (n : Nat) (s : State) : (sensorFail n s).ceilOk = s.ceilOk := by
  unfold sensorFail; simp
@[simp] theorem channelFail_ceilOk (n : Nat) (s : State) : (channelFail n s).ceilOk = s.ceilOk := by
  unfold channelFail; simp
@[simp] theorem checkEncoders_ceilOk (t : TickInput) (s : State) : (checkEncoders t s).ceilOk = s.ceilOk := by
  unfold checkEncoders; simp
@[simp] theorem checkTension_ceilOk (t : TickInput) (s : State) : (checkTension t s).ceilOk = s.ceilOk := by
  unfold checkTension; (repeat' split) <;> simp
@[simp] theorem checkChannel_ceilOk (t : TickInput) (s : State) (i : Nat) : (checkChannel t s i).ceilOk = s.ceilOk := by
  unfold checkChannel; simp
@[simp] theorem checkCurrent_ceilOk (t : TickInput) (s : State) (i : Nat) : (checkCurrent t s i).ceilOk = s.ceilOk := by
  unfold checkCurrent; (repeat' split) <;> simp
@[simp] theorem checkSensors_ceilOk (t : TickInput) (s : State) : (checkSensors t s).ceilOk = s.ceilOk := by
  unfold checkSensors; simp
@[simp] theorem checkOfftrack_ceilOk (s : State) : (checkOfftrack s).ceilOk = s.ceilOk := by
  have k : ∀ (u : State) x, ({ u with mon := x } : State).ceilOk = u.ceilOk := fun _ _ => rfl
  unfold checkOfftrack; dsimp only; split
  · rfl
  · rw [k]; split
    · exact inhibitOn_ceilOk _ _
    · rfl
@[simp] theorem readServoFrame_ceilOk (t : TickInput) (s : State) : (readServoFrame t s).ceilOk = s.ceilOk := by
  unfold readServoFrame; dsimp only; (repeat' split) <;> simp
@[simp] theorem bandLocked_ceilOk (s : State) : (bandLocked s).ceilOk = s.ceilOk := by
  unfold bandLocked; (repeat' split) <;> simp
@[simp] theorem writeGate_ceilOk (on : Bool) (s : State) : (writeGate on s).ceilOk = s.ceilOk := by
  unfold writeGate; simp
@[simp] theorem releaseInhibit_ceilOk (s : State) : (releaseInhibit s).ceilOk = s.ceilOk := by
  unfold releaseInhibit; simp
@[simp] theorem chooseStep_ceilOk (st : Nat) (s : State) : (chooseStep st s).ceilOk = s.ceilOk := by
  unfold chooseStep; simp
@[simp] theorem applyStep_ceilOk (s : State) : (applyStep s).ceilOk = s.ceilOk := by
  unfold applyStep; simp
@[simp] theorem capDown_ceilOk (s : State) : (capDown s).ceilOk = s.ceilOk := by
  unfold capDown; simp

/-! ### Machine/Format -/
@[simp] theorem modCart_ceilOk (f : Cartridge → Cartridge) (s : State) : (modCart f s).ceilOk = s.ceilOk := by
  unfold modCart; simp
@[simp] theorem noteBlocked_ceilOk (s : State) : (noteBlocked s).ceilOk = s.ceilOk := by
  unfold noteBlocked; simp
@[simp] theorem cutEnd_ceilOk (p n : Nat) (s : State) : (cutEnd p n s).ceilOk = s.ceilOk := by
  unfold cutEnd; simp
theorem openDataset_ceilOk (p : Nat) (s : State) (q : State) (hr : openDataset p s = some q) : q.ceilOk = s.ceilOk := by
  unfold openDataset at hr; split at hr
  · cases hr
  · split at hr
    · cases hr
    · rename_i heq
      have := porterTry_ceilOk _ _ _ _ heq
      cases hr; simpa using this
@[simp] theorem parkOpened_ceilOk (s : State) : (parkOpened s).ceilOk = s.ceilOk := by
  unfold parkOpened; (repeat' split) <;> simp
@[simp] theorem modOpened_ceilOk (f : OpenDataset → OpenDataset) (s : State) : (modOpened f s).ceilOk = s.ceilOk := by
  unfold modOpened; simp
@[simp] theorem setWrite_ceilOk (jsn : Nat) (f : WriteRun → WriteRun) (s : State) : (setWrite jsn f s).ceilOk = s.ceilOk
    := by
  unfold setWrite; simp
theorem putFrameBytes_ceilOk (n : Nat) (meter : Option Nat) (w : WriteRun) (first : Nat) (s : State) (q : State) (hr
    : putFrameBytes n meter w first s = some q) : q.ceilOk = s.ceilOk := by
  unfold putFrameBytes at hr; split at hr
  · cases hr
  · dsimp only at hr; split at hr
    · cases hr; simp
    · refine optMap_ceilOk (fun _ => by simp) (fun r h => ?_) q hr
      have := openDataset_ceilOk _ _ _ h; simpa using this
@[simp] theorem noteDone_ceilOk (jsn : Nat) (s : State) : (noteDone jsn s).ceilOk = s.ceilOk := by
  unfold noteDone; (repeat' split) <;> simp
@[simp] theorem sealOpen_ceilOk (ctx : Nat) (s : State) : (sealOpen ctx s).ceilOk = s.ceilOk := by
  unfold sealOpen; (repeat' split) <;> simp
theorem closeFrame_ceilOk (s : State) (q : State) (hr : closeFrame s = some q) : q.ceilOk = s.ceilOk := by
  unfold closeFrame at hr; split at hr
  · cases hr; rfl
  · split at hr
    · cases hr; rfl
    · dsimp only at hr; split at hr
      · cases hr; simp
      · exact optMap_ceilOk (fun _ => by simp) (fun r h => putFrameBytes_ceilOk _ _ _ _ _ _ h) q hr
theorem closeDataset_ceilOk (s : State) (q : State) (hr : closeDataset s = some q) : q.ceilOk = s.ceilOk := by
  unfold closeDataset at hr; split at hr
  · cases hr
  · rename_i heq
    have := closeFrame_ceilOk _ _ heq
    split at hr <;> cases hr <;> simp [this]
@[simp] theorem closeOpen_ceilOk (s : State) : (closeOpen s).ceilOk = s.ceilOk := getD_ceilOk (fun r h => closeDataset_ceilOk
    _ _ h) _ rfl
@[simp] theorem noteSeq_ceilOk (seq : Nat) (marks : List (Nat × Nat)) (s : State) : (noteSeq seq marks s).ceilOk =
    s.ceilOk := by
  unfold noteSeq; simp
@[simp] theorem formWith_ceilOk (ds : Dataset) (w : WrittenDataset) (s : State) : (formWith ds w s).ceilOk = s.ceilOk := by
  unfold formWith; simp
@[simp] theorem closeGroup_ceilOk (p : Nat) (s : State) : (closeGroup p s).ceilOk = s.ceilOk := by
  unfold closeGroup; simp
@[simp] theorem joinGroup_ceilOk (p : Nat) (trunc : Bool) (s : State) : (joinGroup p trunc s).2.2.ceilOk = s.ceilOk := by
  unfold joinGroup; dsimp only; (repeat' split) <;> simp
@[simp] theorem formData_ceilOk (o : OpenDataset) (s : State) : (formData o s).ceilOk = s.ceilOk := by
  unfold formData; simp
theorem formBare_ceilOk (ds : Dataset) (s : State) (q : State) (hr : formBare ds s = some q) : q.ceilOk = s.ceilOk := by
  unfold formBare at hr; split at hr
  · cases hr
  · cases hp : porterTry 6 8388608 s with
    | none => rw [hp] at hr; cases hr
    | some p => rw [hp] at hr; cases hr; exact porterTry_ceilOk _ _ _ _ hp
theorem formParity_ceilOk (g : C3Group) (y0 : Nat) (s : State) (q : State) (hr : formParity g y0 s = some q) : q.ceilOk
    = s.ceilOk := by
  induction y0 generalizing s with
  | zero => unfold formParity at hr; cases hr; rfl
  | succ n ih =>
    unfold formParity at hr; dsimp only at hr; split at hr
    · cases hr
    · rename_i heq; rw [ih _ hr, formBare_ceilOk _ _ _ heq]
@[simp] theorem formNext_ceilOk (y0 : Nat) (s : State) : (formNext y0 s).ceilOk = s.ceilOk := by
  induction y0 generalizing s with
  | zero => rfl
  | succ n ih =>
    unfold formNext; split
    · split
      · rename_i heq; rw [ih, formParity_ceilOk _ _ _ _ heq]
      · rfl
    · split
      · rfl
      · split
        · rw [ih]; simp
        · rfl
@[simp] theorem formAll_ceilOk (s : State) : (formAll s).ceilOk = s.ceilOk := by
  unfold formAll; simp
@[simp] theorem updateHistory_ceilOk (s : State) : (updateHistory s).ceilOk = s.ceilOk := by
  unfold updateHistory; (repeat' split) <;> simp
@[simp] theorem writeStatus_ceilOk (dirty : Bool) (s : State) : (writeStatus dirty s).ceilOk = s.ceilOk := by
  unfold writeStatus; split <;> simp
@[simp] theorem writeHistory_ceilOk (s : State) : (writeHistory s).ceilOk = s.ceilOk := by
  unfold writeHistory; (repeat' split) <;> simp

/-! ### Machine/WrapRecord -/
@[simp] theorem countPass_ceilOk (track : Nat) (s : State) : (countPass track s).ceilOk = s.ceilOk := by
  unfold countPass; simp
@[simp] theorem countSlots_ceilOk (s : State) : (countSlots s).ceilOk = s.ceilOk := by
  unfold countSlots; simp
@[simp] theorem countNoise_ceilOk (track : Nat) (d : Detector) (ys : List Rat) (word : List Bool) (s : State) :
    (countNoise track d ys word s).ceilOk = s.ceilOk := by
  unfold countNoise; simp
@[simp] theorem ratioEvent_ceilOk (r : WrapRecord) (s : State) : (ratioEvent r s).ceilOk = s.ceilOk := by
  unfold ratioEvent; simp
@[simp] theorem leaveWrap_ceilOk (s : State) : (leaveWrap s).ceilOk = s.ceilOk := by
  unfold leaveWrap; simp

/-! ### Machine/Load -/
@[simp] theorem endMediaExclusions_ceilOk (s : State) : (endMediaExclusions s).ceilOk = s.ceilOk := by
  unfold endMediaExclusions; simp
@[simp] theorem toBand_ceilOk (b : Nat) (s : State) : (toBand b s).ceilOk = s.ceilOk := by
  unfold toBand; simp
@[simp] theorem atWrap_ceilOk (w : Nat) (s : State) : (atWrap w s).ceilOk = s.ceilOk := by
  unfold atWrap; dsimp only; (repeat' split) <;> simp
@[simp] theorem dropHeld_ceilOk (s : State) : (dropHeld s).ceilOk = s.ceilOk := by
  unfold dropHeld; simp
@[simp] theorem putOnTape_ceilOk (d : Dataset) (s : State) : (putOnTape d s).ceilOk = s.ceilOk := by
  unfold putOnTape; (repeat' split) <;> simp
@[simp] theorem putInRun_ceilOk (d : Dataset) (s : State) : (putInRun d s).ceilOk = s.ceilOk := by
  unfold putInRun; simp
@[simp] theorem toRunWrap_ceilOk (p : Nat) (s : State) : (toRunWrap p s).ceilOk = s.ceilOk := by
  unfold toRunWrap; (repeat' split) <;> simp
@[simp] theorem cutChain_ceilOk (p n : Nat) (s : State) : (cutChain p n s).ceilOk = s.ceilOk := by
  unfold cutChain; (repeat' split) <;> simp
@[simp] theorem recordBase_ceilOk (p : Nat) (s : State) : (recordBase p s).ceilOk = s.ceilOk := by
  unfold recordBase; (repeat' split) <;> simp
@[simp] theorem beforeRun_ceilOk (p : Nat) (s : State) : (beforeRun p s).ceilOk = s.ceilOk := by
  unfold beforeRun; simp
@[simp] theorem withBuffer_ceilOk (f : State → State) (hf : ∀ s, (f s).ceilOk = s.ceilOk) (s : State) :
    (withBuffer f s).ceilOk = s.ceilOk := by
  unfold withBuffer; split
  · rename_i heq; rw [freeBuffer_ceilOk, hf, porterTry_ceilOk _ _ _ _ heq]
  · exact hf s
@[simp] theorem writeEod_ceilOk (p first : Nat) (trunc : Bool) (s : State) : (writeEod p first trunc s).ceilOk = s.ceilOk := by
  unfold writeEod; exact withBuffer_ceilOk _ (fun s => by simp) s
@[simp] theorem truncateRun_ceilOk (p first : Nat) (s : State) : (truncateRun p first s).ceilOk = s.ceilOk := by
  unfold truncateRun; simp
@[simp] theorem payOwed_ceilOk (p : Nat) (s : State) : (payOwed p s).ceilOk = s.ceilOk := by
  unfold payOwed; (repeat' split) <;> simp
@[simp] theorem formatCart_ceilOk (pairs : List Nat) (c3 : Nat) (s : State) : (formatCart pairs c3 s).ceilOk = s.ceilOk
    := by
  unfold formatCart; simp
@[simp] theorem formatContexts_ceilOk (count : Nat) (s : State) : (formatContexts count s).ceilOk = s.ceilOk := by
  unfold formatContexts; simp
@[simp] theorem takeCart_ceilOk (c : Cartridge) (s : State) : (takeCart c s).ceilOk = s.ceilOk := by
  unfold takeCart; simp
@[simp] theorem takeInvalid_ceilOk (c : Cartridge) (s : State) : (takeInvalid c s).ceilOk = s.ceilOk := rfl
@[simp] theorem payPending_ceilOk (c : Cartridge) (s : State) : (payPending c s).ceilOk = s.ceilOk := by
  unfold payPending; dsimp only; refine foldl_ceilOk (fun s x => ?_) _ _; (repeat' split) <;> simp
@[simp] theorem loadCart_ceilOk (s : State) : (loadCart s).2.ceilOk = s.ceilOk := by
  unfold loadCart; dsimp only; (repeat' split) <;> simp
@[simp] theorem autoLoad_ceilOk (s : State) : (autoLoad s).ceilOk = s.ceilOk := by
  unfold autoLoad; simp

/-! ### Machine/Write -/
@[simp] theorem liftCap_ceilOk (s : State) : (liftCap s).ceilOk = s.ceilOk := by
  unfold liftCap; simp
@[simp] theorem markRetried_ceilOk (jsn : Nat) (s : State) : (markRetried jsn s).ceilOk = s.ceilOk := by
  unfold markRetried; simp
@[simp] theorem onTape_ceilOk (op jsn : Nat) (s : State) (k : JournalEntry → RunInfo → State → State) (hs : s.ceilOk = true)
    (hk : ∀ e r u, u.ceilOk = true → (k e r u).ceilOk = true) : (onTape op jsn s k).ceilOk = true := by
  unfold onTape
  exact onBegin_ceilOk _ _ _ _ hs fun e r u h => by (repeat' split) <;> simp [hk, h]
@[simp] theorem laneTransient_ceilOk (k unit : Nat) (s : State) : (laneTransient k unit s).ceilOk = s.ceilOk := by
  unfold laneTransient; simp
@[simp] theorem finishWrite_ceilOk (w : WriteRun) (st : Nat) (r1 : Nat) (s : State) (hs : s.ceilOk = true) :
    (finishWrite w st r1 s).ceilOk = true := by
  unfold finishWrite; (repeat' split) <;> simp [hs]
@[simp] theorem settleWrite_ceilOk (s : State) (jsn : Nat) (hs : s.ceilOk = true) : (settleWrite s jsn).ceilOk = true := by
  unfold settleWrite; (repeat' split) <;> simp [hs]
@[simp] theorem settleWrites_ceilOk (s : State) (hs : s.ceilOk = true) : (settleWrites s).ceilOk = true :=
  foldl_keeps_ceilOk settleWrite_ceilOk _ _ hs
@[simp] theorem stopWrite_ceilOk (jsn st : Nat) (r1 : Option Nat) (s : State) : (stopWrite jsn st r1 s).ceilOk = s.ceilOk := by
  have hs : ∀ (c : Nat) (u : State), ((closeFrame u).getD (sealOpen c u)).ceilOk = u.ceilOk :=
    fun c u => getD_ceilOk (fun r h => closeFrame_ceilOk _ _ h) _ (by simp)
  unfold stopWrite; dsimp only; (repeat' split) <;> simp [hs]
@[simp] theorem stopAllWrites_ceilOk (st : Nat) (s : State) (hs : s.ceilOk = true) : (stopAllWrites st s).ceilOk = true := by
  unfold stopAllWrites
  exact settleWrites_ceilOk _ (foldl_keeps_ceilOk (fun s e h => endWrite_ceilOk e st s h) _ _ (by simp [hs]))
@[simp] theorem flushOpen_ceilOk (s : State) : (flushOpen s).ceilOk = s.ceilOk := by
  unfold flushOpen; dsimp only; (repeat' split) <;> simp
@[simp] theorem afterWrites_ceilOk (s : State) (hs : s.ceilOk = true) :
    (afterWrites s).ceilOk = true := by
  unfold afterWrites; simp [hs]
@[simp] theorem beginRun_ceilOk (w : WriteRun) (s : State) (hs : s.ceilOk = true) : (beginRun w s).ceilOk = true := by
  have h := setRun_ceilOk w.jsn (fun r => { r with grant := some (w.tenant, w.level, w.persist, w.partition) }) s
  unfold beginRun; dsimp only
  refine afterWrites_ceilOk _ ?_
  rw [startRun_ceilOk]
  exact h.trans hs
@[simp] theorem placeAt_ceilOk (pos p : Nat) (s : State) : (placeAt pos p s).ceilOk = s.ceilOk := by
  unfold placeAt; simp
@[simp] theorem truncateOwed_ceilOk (p : Nat) (s : State) : (truncateOwed p s).ceilOk = s.ceilOk := by
  unfold truncateOwed; simp
@[simp] theorem startItems_ceilOk (e : JournalEntry) (r : RunInfo) (fm : Nat) (lens : List Nat) (s : State) (hs : s.ceilOk = true) :
    (startItems e r fm lens s).ceilOk = true := by
  unfold startItems; dsimp only; (repeat' split) <;> simp [hs]
@[simp] theorem startWait_ceilOk (e : JournalEntry) (r : RunInfo) (s : State) (hs : s.ceilOk = true) :
    (startWait e r s).ceilOk = true := by
  unfold startWait; simp [hs]
@[simp] theorem retractEvent_ceilOk (jsn seq p reason : Nat) (repl : Bool) (s : State) : (retractEvent jsn seq p
    reason repl s).ceilOk = s.ceilOk := by
  unfold retractEvent; simp
@[simp] theorem retract_ceilOk (d : WrittenDataset) (reason : Nat) (s : State) : (retract d reason s).ceilOk = s.ceilOk
    := by
  unfold retract; simp
@[simp] theorem dropDataset_ceilOk (d : WrittenDataset) (s : State) : (dropDataset d s).ceilOk = s.ceilOk := by
  unfold dropDataset; simp
@[simp] theorem dropAssembled_ceilOk (p : Nat) (s : State) : (dropAssembled p s).ceilOk = s.ceilOk := by
  unfold dropAssembled; simp
@[simp] theorem fitBuffers_ceilOk (jsn : Nat) (s : State) : (fitBuffers jsn s).ceilOk = s.ceilOk := by
  unfold fitBuffers; split
  · rfl
  · dsimp only; split
    · rw [foldl_ceilOk (fun s h => freeBuffer_ceilOk _ _ _)]; simp
    · refine foldl_ceilOk (fun s _ => ?_) _ _; split
      · rename_i heq; rw [setWrite_ceilOk, porterTry_ceilOk _ _ _ _ heq]
      · rfl
@[simp] theorem fitAll_ceilOk (s : State) : (fitAll s).ceilOk = s.ceilOk := by
  unfold fitAll; simp
@[simp] theorem restartPipeline_ceilOk (p : Nat) (s : State) : (restartPipeline p s).ceilOk = s.ceilOk := by
  unfold restartPipeline; simp
@[simp] theorem badInput_ceilOk (jsn : Nat) (w : WriteRun) (s : State) : (badInput jsn w s).ceilOk = s.ceilOk := by
  unfold badInput; simp
@[simp] theorem pullHdm_ceilOk (y0 : Nat) (y1 : Nat) (s : State) (hs : s.ceilOk = true) : (pullHdm y0 y1 s).ceilOk = true := by
  induction y0 generalizing s with
  | zero => exact hs
  | succ n ih =>
    unfold pullHdm; split
    · split
      · split
        · exact hs
        · have hr := fun a b c => readHdm_ceilOk a b c s hs
          dsimp only; split
          · rw [badInput_ceilOk]; exact hr _ _ _
          · exact ih _ ((setWrite_ceilOk _ _ _).trans (hr _ _ _))
      · exact hs
    · exact hs
@[simp] theorem encodeNext_ceilOk (lane : Nat) (w : WriteRun) (s : State) : (encodeNext lane w s).ceilOk = s.ceilOk := by
  unfold encodeNext; simp
theorem ensureOpen_ceilOk (p : Nat) (s : State) (q : State) (hr : ensureOpen p s = some q) : q.ceilOk = s.ceilOk := by
  have hf : ∀ (u r : State), (if partitionFull p u then none else openDataset p u) = some r → r.ceilOk = u.ceilOk := by
    intro u r h; split at h
    · cases h
    · exact openDataset_ceilOk _ _ _ h
  unfold ensureOpen at hr; dsimp only at hr; split at hr
  · exact hf _ _ hr
  · split at hr
    · split at hr
      · cases hr
      · cases hr; rfl
    · split at hr
      · cases hr
      · rename_i heq
        have hc := closeDataset_ceilOk _ _ heq
        split at hr
        · rw [hf _ _ hr, dropAssembled_ceilOk, hc]
        · rw [hf _ _ hr, hc]
theorem newFramePlace_ceilOk (p jsn : Nat) (items : List TapeItem) (s : State) (q : State) (hr : newFramePlace p jsn items
    s = some q) : q.ceilOk = s.ceilOk := by
  unfold newFramePlace at hr; split at hr
  · cases hr
  · rename_i heq
    have hc := closeFrame_ceilOk _ _ heq
    split at hr
    · rw [ensureOpen_ceilOk _ _ _ hr, hc]
    · split at hr
      · cases hr
      · split at hr
        · cases hr; exact hc
        · split at hr
          · cases hr; exact hc
          · split at hr
            · cases hr
            · rename_i heq2
              rw [ensureOpen_ceilOk _ _ _ hr, closeDataset_ceilOk _ _ heq2, hc]
theorem drawFrame_ceilOk (ctx : Nat) (s : State) : (drawFrame ctx s).left.ceilOk = s.ceilOk := by
  have h := drawIv_ceilOk (false, ctx) s
  unfold drawFrame; split <;> (rename_i heq; rw [heq] at h; exact h)
@[simp] theorem failCheck_ceilOk (jsn lane : Nat) (s : State) : (failCheck jsn lane s).ceilOk = s.ceilOk := by
  unfold failCheck; simp
theorem redrawFrame_ceilOk (jsn ctx lane : Nat) (retry : Bool) (s : State) :
    (redrawFrame jsn ctx lane retry s).left.ceilOk = s.ceilOk := by
  have h := drawFrame_ceilOk ctx s
  unfold redrawFrame; split
  · rename_i heq
    rw [heq] at h
    dsimp only; split
    · simp only [FrameStart.left, laneTransient_ceilOk]
      rw [foldl_ceilOk (fun s n => runOnLane_ceilOk n s), setWrite_ceilOk]; exact h
    · simp only [FrameStart.left, setUnit_ceilOk, raiseP_ceilOk, burnIv_ceilOk]
      refine Eq.trans ?_ h
      exact (foldl_ceilOk (fun s n => runOnLane_ceilOk n s) _ _).trans (setWrite_ceilOk _ _ _)
  · rename_i heq; rw [heq] at h; simp only [FrameStart.left, setWrite_ceilOk]; exact h
  · exact h
theorem startFrame_ceilOk (w : WriteRun) (lane : Nat) (check retry : Bool) (s : State) :
    (startFrame w lane check retry s).left.ceilOk = s.ceilOk := by
  have h := drawFrame_ceilOk w.ctx s
  unfold startFrame; split
  · rfl
  · split
    · rfl
    · split
      · exact redrawFrame_ceilOk _ _ _ _ _
      · split
        · rfl
        · split
          · rename_i heq; rw [heq] at h
            dsimp only; split
            · simp only [FrameStart.left]; rw [foldl_ceilOk (fun s n => runOnLane_ceilOk n s)]; exact h
            · rw [redrawFrame_ceilOk, failCheck_ceilOk, foldl_ceilOk (fun s n => runOnLane_ceilOk n s)]; exact h
          · exact h
@[simp] theorem addReady_ceilOk (n : Nat) (s : State) : (addReady n s).ceilOk = s.ceilOk := by
  unfold addReady; simp
@[simp] theorem placeItems_ceilOk (jsn : Nat) (items : List TapeItem) (s : State) : (placeItems jsn items s).ceilOk = s.ceilOk := by
  unfold placeItems; (repeat' split) <;> simp
theorem putHeader_ceilOk (w : WriteRun) (b : EncBlock) (iv : BitVec 96) (clear limited : Bool) (s : State) (q :
    State) (hr : putHeader w b iv clear limited s = some q) : q.ceilOk = s.ceilOk := by
  unfold putHeader at hr; rw [putFrameBytes_ceilOk _ _ _ _ _ _ hr]; simp
@[simp] theorem saveHistory_ceilOk (w : WriteRun) (s : State) : (saveHistory w s).ceilOk = s.ceilOk := by
  unfold saveHistory; dsimp only; (repeat' split)
  · rfl
  · rfl
  · rename_i heq; have := porterTry_ceilOk _ _ _ _ heq; simpa using this
  · simp
@[simp] theorem takeCarry_ceilOk (jsn : Nat) (s : State) : (takeCarry jsn s).ceilOk = s.ceilOk := by
  unfold takeCarry; simp
@[simp] theorem placeTrailing_ceilOk (jsn : Nat) (s : State) : (placeTrailing jsn s).ceilOk = s.ceilOk := by
  unfold placeTrailing; split
  · rfl
  · split
    · rfl
    · split
      · rfl
      · rename_i u heq
        have hc := closeFrame_ceilOk _ _ heq
        split
        · exact hc
        · rename_i v heq2
          have h2 : v.ceilOk = s.ceilOk := by
            rw [ensureOpen_ceilOk _ _ _ heq2]; split <;> simp [hc]
          have he : ∀ (o : Option WriteRun) (u : State), (o.elim u fun w => saveHistory w u).ceilOk = u.ceilOk := by
            intro o u; cases o <;> simp
          dsimp only; split <;> simp [h2, he]
@[simp] theorem streamEnd_ceilOk (jsn : Nat) (s : State) : (streamEnd jsn s).ceilOk = s.ceilOk := by
  have hd : ∀ u : State, ((closeFrame u).getD u).ceilOk = u.ceilOk := fun u => getD_ceilOk (fun r h => closeFrame_ceilOk _ _ h) _ rfl
  unfold streamEnd; dsimp only; (repeat' split) <;> simp [hd]
@[simp] theorem closeFull_ceilOk (s : State) : (closeFull s).ceilOk = s.ceilOk := by
  unfold closeFull; split
  · exact getD_ceilOk (fun r h => closeDataset_ceilOk _ _ h) _ rfl
  · rfl
@[simp] theorem endFrame_ceilOk (s : State) : (endFrame s).ceilOk = s.ceilOk := by
  unfold endFrame; split
  · exact getD_ceilOk (fun r h => closeFrame_ceilOk _ _ h) _ rfl
  · rfl
@[simp] theorem stopFull_ceilOk (w : WriteRun) (s : State) : (stopFull w s).ceilOk = s.ceilOk := by
  unfold stopFull; simp
@[simp] theorem putBlock_ceilOk (b : EncBlock) (w : WriteRun) (s : State) : (putBlock b w s).ceilOk = s.ceilOk := by
  unfold putBlock; dsimp only; split
  · simp
  · rename_i heq; simp [putFrameBytes_ceilOk _ _ _ _ _ _ heq]
@[simp] theorem reencode_ceilOk (b : EncBlock) (w : WriteRun) (s : State) : (reencode b w s).2.ceilOk = s.ceilOk := by
  unfold reencode; simp
theorem writeFrame_ceilOk (b : EncBlock) (w : WriteRun) (f : FrameStart) : (writeFrame b w f).ceilOk = f.left.ceilOk := by
  cases f with
  | waits s => rfl
  | ends st s => exact stopWrite_ceilOk _ _ _ _
  | ready iv c l s =>
    unfold writeFrame; dsimp only; split
    · split
      · rfl
      · rw [burnIv_ceilOk]; rfl
    · rename_i h; rw [putBlock_ceilOk, addReady_ceilOk, putHeader_ceilOk _ _ _ _ _ _ _ h]; rfl
@[simp] theorem placeInNewFrame_ceilOk (b : EncBlock) (w : WriteRun) (lane : Nat) (check retry : Bool) (s : State) :
    (placeInNewFrame b w lane check retry s).ceilOk = s.ceilOk := by
  have k : ∀ (v : State) (b : EncBlock), v.ceilOk = s.ceilOk → (if !b.checked then v else
      if spanBlocked (48 + blockLen b) v then noteBlocked v
      else writeFrame b ((findWrite w.jsn v).getD w) (startFrame ((findWrite w.jsn v).getD w) lane check retry v)).ceilOk = s.ceilOk := by
    intro v b h; (repeat' split)
    · exact h
    · rw [noteBlocked_ceilOk, h]
    · rw [writeFrame_ceilOk, startFrame_ceilOk, h]
  unfold placeInNewFrame; split
  · split <;> simp
  · rename_i heq
    have hn := newFramePlace_ceilOk _ _ _ _ _ heq
    dsimp only; split
    · exact k _ _ ((reencode_ceilOk b w _).trans hn)
    · exact k _ _ hn
@[simp] theorem placeBlock_ceilOk (b : EncBlock) (w : WriteRun) (lane : Nat) (check retry : Bool) (s : State) :
    (placeBlock b w lane check retry s).ceilOk = s.ceilOk := by
  unfold placeBlock; simp
@[simp] theorem placeMarks_ceilOk (w : WriteRun) (s : State) : (placeMarks w s).ceilOk = s.ceilOk := by
  unfold placeMarks; split
  · simp
  · rename_i heq
    have hc := closeFrame_ceilOk _ _ heq
    split
    · split <;> simp [hc]
    · rename_i heq2
      have h2 := ensureOpen_ceilOk _ _ _ heq2
      rw [noteDone_ceilOk, placeItems_ceilOk, h2]; split <;> simp [hc]

/-! ### Machine/Verify -/
@[simp] theorem setActive_ceilOk (seq : Nat) (f : WrittenDataset → WrittenDataset) (s : State) : (setActive seq f
    s).ceilOk = s.ceilOk := by
  unfold setActive; simp
@[simp] theorem renameMarks_ceilOk (old new : Nat) (s : State) : (renameMarks old new s).ceilOk = s.ceilOk := by
  unfold renameMarks; simp
@[simp] theorem layDown_ceilOk (d : WrittenDataset) (reason : Nat) (s : State) : (layDown d reason s).ceilOk = s.ceilOk
    := by
  unfold layDown; simp
@[simp] theorem replaceDataset_ceilOk (d : WrittenDataset) (s : State) : (replaceDataset d s).ceilOk = s.ceilOk := by
  unfold replaceDataset; simp
@[simp] theorem truncateAway_ceilOk (s : State) (d : WrittenDataset) : (truncateAway s d).ceilOk = s.ceilOk := by
  unfold truncateAway; simp
@[simp] theorem failFrom_ceilOk (p n : Nat) (s : State) : (failFrom p n s).ceilOk = s.ceilOk := by
  unfold failFrom; simp
@[simp] theorem endRunSoon_ceilOk (s : State) : (endRunSoon s).ceilOk = s.ceilOk := by
  unfold endRunSoon; simp
@[simp] theorem lastingFailure_ceilOk (d : WrittenDataset) (s : State) : (lastingFailure d s).ceilOk = s.ceilOk := by
  unfold lastingFailure; simp
@[simp] theorem wholeRewrite_ceilOk (seq : Nat) (s : State) : (wholeRewrite seq s).ceilOk = s.ceilOk := by
  unfold wholeRewrite; (repeat' split) <;> simp
@[simp] theorem payDue_ceilOk (s : State) : (payDue s).ceilOk = s.ceilOk := by
  unfold payDue; simp
@[simp] theorem noteMiscorrect_ceilOk (seq subset row : Nat) (s : State) : (noteMiscorrect seq subset row s).ceilOk = s.ceilOk := by
  unfold noteMiscorrect; simp
@[simp] theorem learn_ceilOk (d : Dataset) (v : VerifyResult) (x : VerifyDecode) (s : State) : (learn d v x s).ceilOk = s.ceilOk := by
  unfold learn; (repeat' split) <;> simp
@[simp] theorem noteDecode_ceilOk (d : Dataset) (v : VerifyResult) (x : VerifyDecode) (s : State) : (noteDecode d v x s).ceilOk = s.ceilOk := by
  unfold noteDecode; (repeat' split) <;> simp
@[simp] theorem countFail_ceilOk (margin : Bool) (track : Nat) (s : State) : (countFail margin track s).ceilOk = s.ceilOk
    := by
  unfold countFail; simp
@[simp] theorem failFirst_ceilOk (seq m track : Nat) (margin : Bool) (s : State) : (failFirst seq m track margin
    s).ceilOk = s.ceilOk := by
  unfold failFirst; simp
@[simp] theorem firstResultOf_ceilOk (v : VerifyResult) (d : WrittenDataset) (s : State) : (firstResultOf v d s).ceilOk
    = s.ceilOk := by
  unfold firstResultOf; simp
@[simp] theorem failCopy_ceilOk (f : FailedCw) (c : Nat) (s : State) : (failCopy f c s).ceilOk = s.ceilOk := by
  unfold failCopy; simp
@[simp] theorem copyResult_ceilOk (v : VerifyResult) (d : WrittenDataset) (c : Nat) (s : State) : (copyResult v d c s).ceilOk = s.ceilOk := by
  unfold copyResult; (repeat' split) <;> simp
@[simp] theorem applyResult_ceilOk (s : State) (v : VerifyResult) : (applyResult s v).ceilOk = s.ceilOk := by
  unfold applyResult; (repeat' split) <;> simp
@[simp] theorem failSlots_ceilOk (seq : Nat) (p : Nat → Bool) (s : State) : (failSlots seq p s).ceilOk = s.ceilOk := by
  unfold failSlots; refine foldl_ceilOk (fun s x => ?_) _ _; split
  · rfl
  · split <;> simp
@[simp] theorem failCopies_ceilOk (seq : Nat) (p : Nat → Bool) (s : State) : (failCopies seq p s).ceilOk = s.ceilOk := by
  unfold failCopies; refine foldl_ceilOk (fun s x => ?_) _ _; split <;> simp
@[simp] theorem failWindow_ceilOk (seq lo hi : Nat) (s : State) : (failWindow seq lo hi s).ceilOk = s.ceilOk := by
  unfold failWindow; simp
@[simp] theorem failBehind_ceilOk (back len : Nat) (s : State) : (failBehind back len s).ceilOk = s.ceilOk := by
  unfold failBehind; (repeat' split) <;> simp
@[simp] theorem lateResults_ceilOk (s : State) : (lateResults s).ceilOk = s.ceilOk := by
  unfold lateResults; split
  · rfl
  · dsimp only; (repeat' split) <;> simp
@[simp] theorem disableWrites_ceilOk (s : State) (hs : s.ceilOk = true) :
    (disableWrites s).ceilOk = true := by
  unfold disableWrites; simp [hs]
@[simp] theorem excludeTrack_ceilOk (t c : Nat) (s : State) (hs : s.ceilOk = true) :
    (excludeTrack t c s).ceilOk = true := by
  unfold excludeTrack; simp [hs]
@[simp] theorem retryItems_ceilOk (seq : Nat) (s : State) : (retryItems seq s).ceilOk = s.ceilOk := by
  unfold retryItems; (repeat' split) <;> simp
@[simp] theorem judgeTrack_ceilOk (d : WrittenDataset) (s : State) (t : Nat) (hs : s.ceilOk = true) :
    (judgeTrack d s t).ceilOk = true := by
  unfold judgeTrack; (repeat' split) <;> simp [hs]
@[simp] theorem judgeDatasets_ceilOk (before : List Nat) (s : State) (hs : s.ceilOk = true) :
    (judgeDatasets before s).ceilOk = true :=
  foldl_keeps_ceilOk (fun s d h => foldl_keeps_ceilOk (judgeTrack_ceilOk d) _ s h) _ _ hs
@[simp] theorem takeResults_ceilOk (l : List VerifyResult) (s : State) (hs : s.ceilOk = true) :
    (takeResults l s).ceilOk = true := by
  unfold takeResults; simp [hs]
@[simp] theorem placeCopy_ceilOk (seq : Nat) (p : List Nat × State) (f : FailedCw) : (placeCopy seq p f).2.ceilOk =
    p.2.ceilOk := by
  obtain ⟨free, s⟩ := p
  unfold placeCopy; dsimp only; (repeat' split) <;> simp
@[simp] theorem fixCopies_ceilOk (seq : Nat) (s : State) : (fixCopies seq s).ceilOk = s.ceilOk := by
  unfold fixCopies; split
  · rfl
  · generalize candidates seq s = l; generalize List.replicate 64 8 = f
    have h : ∀ (p : List Nat × State), (l.foldl (fun p c => placeCopy seq p c.2) p).2.ceilOk = p.2.ceilOk := by
      induction l with
      | nil => exact fun _ => rfl
      | cons a t ih => intro p; rw [List.foldl_cons, ih, placeCopy_ceilOk]
    exact h (f, s)
@[simp] theorem writtenEvent_ceilOk (d : Dataset) (s : State) (jsn : Nat) : (writtenEvent d s jsn).ceilOk = s.ceilOk := by
  unfold writtenEvent; simp
@[simp] theorem datasetWritten_ceilOk (seq : Nat) (s : State) : (datasetWritten seq s).ceilOk = s.ceilOk := by
  unfold datasetWritten; (repeat' split) <;> simp
@[simp] theorem decideAt_ceilOk (writing c3 : Bool) (s : State) : (decideAt writing c3 s).ceilOk = s.ceilOk := by
  unfold decideAt; simp
@[simp] theorem earlyWarning_ceilOk (r : TapeRun) (s : State) : (earlyWarning r s).2.ceilOk = s.ceilOk := by
  unfold earlyWarning; (repeat' split) <;> simp
@[simp] theorem startDataset_ceilOk (seq : Nat) (r : TapeRun) (bits : Nat) (s : State) : (startDataset seq r bits
    s).ceilOk = s.ceilOk := by
  unfold startDataset; simp
@[simp] theorem finishRun_ceilOk (p : Nat) (s : State) (hs : s.ceilOk = true) :
    (finishRun p s).ceilOk = true := by
  unfold finishRun; simp [hs]
theorem startEod_ceilOk (r : TapeRun) (bits : Nat) (s : State) (q : State) (hr : startEod r bits s = some q) : q.ceilOk
    = s.ceilOk := by
  unfold startEod at hr; dsimp only at hr; split at hr
  · cases hr
  · rename_i heq; have := formBare_ceilOk _ _ _ heq
    cases hr; rw [startDataset_ceilOk]; split <;> exact this
@[simp] theorem beginClose_ceilOk (r : TapeRun) (bits : Nat) (s : State) (hs : s.ceilOk = true) :
    (beginClose r bits s).ceilOk = true := by
  unfold beginClose; dsimp only; split
  · rename_i heq; rw [startEod_ceilOk _ _ _ _ heq]; simp [hs]
  · simp [hs]
@[simp] theorem closeAtEnd_ceilOk (r : TapeRun) (s : State) : (closeAtEnd r s).ceilOk = s.ceilOk := by
  unfold closeAtEnd; (repeat' split) <;> simp
@[simp] theorem beginRunOut_ceilOk (r : TapeRun) (s : State) : (beginRunOut r s).ceilOk = s.ceilOk := by
  unfold beginRunOut; simp
@[simp] theorem nextInRun_ceilOk (r : TapeRun) (bits : Nat) (s : State) (hs : s.ceilOk = true) :
    (nextInRun r bits s).ceilOk = true := by
  unfold nextInRun; dsimp only; (repeat' split) <;> simp [hs]
@[simp] theorem fixEdge_ceilOk (task : Bool) (s : State) : (fixEdge task s).ceilOk = s.ceilOk := by
  unfold fixEdge; (repeat' split) <;> simp
@[simp] theorem failTick_ceilOk (off : Bool) (s : State) : (failTick off s).ceilOk = s.ceilOk := by
  unfold failTick; (repeat' split) <;> simp
@[simp] theorem runTick_ceilOk (writeLate verifyLate task : Bool) (s : State) (hs : s.ceilOk = true) :
    (runTick writeLate verifyLate task s).ceilOk = true := by
  unfold runTick; dsimp only; (repeat' split) <;> simp [hs]
@[simp] theorem interruptRun_ceilOk (s : State) (hs : s.ceilOk = true) :
    (interruptRun s).ceilOk = true := by
  unfold interruptRun; dsimp only; (repeat' split) <;> simp [hs]
@[simp] theorem beginWritingRun_ceilOk (p : Nat) (s : State) : (beginWritingRun p s).ceilOk = s.ceilOk := by
  unfold beginWritingRun; dsimp only; (repeat' split) <;> simp
@[simp] theorem lastingServoLoss_ceilOk (s : State) (hs : s.ceilOk = true) :
    (lastingServoLoss s).ceilOk = true := by
  unfold lastingServoLoss; simp [hs]
@[simp] theorem approach_ceilOk (p : Nat) (atStep : Bool) (s : State) (hs : s.ceilOk = true) :
    (approach p atStep s).ceilOk = true := by
  unfold approach; (repeat' split) <;> simp [hs]
@[simp] theorem sendFrames_ceilOk (after : Nat) (s : State) : (sendFrames after s).ceilOk = s.ceilOk := by
  unfold sendFrames; simp
@[simp] theorem pumpTally_ceilOk (s : State) : (pumpTally s).ceilOk = s.ceilOk := by
  unfold pumpTally; simp
@[simp] theorem sendTally_ceilOk (d : WrittenDataset) (s : State) : (sendTally d s).ceilOk = s.ceilOk := by
  unfold sendTally; simp
@[simp] theorem c3Take_ceilOk (d : WrittenDataset) (s : State) : (c3Take d s).ceilOk = s.ceilOk := by
  unfold c3Take; simp
@[simp] theorem verifiedEvents_ceilOk (d : WrittenDataset) (s : State) : (verifiedEvents d s).ceilOk = s.ceilOk := by
  unfold verifiedEvents; simp
@[simp] theorem countDurable_ceilOk (seq : Nat) (s : State) : (countDurable seq s).ceilOk = s.ceilOk := by
  unfold countDurable; simp
@[simp] theorem recordRelease_ceilOk (d : WrittenDataset) (s : State) : (recordRelease d s).ceilOk = s.ceilOk := by
  unfold recordRelease; simp
@[simp] theorem releaseDataset_ceilOk (d : WrittenDataset) (s : State) (hs : s.ceilOk = true) :
    (releaseDataset d s).ceilOk = true := by
  unfold releaseDataset; simp [hs]

/-! ### Machine/Motion -/
@[simp] theorem noCartridge_ceilOk (jsn : Nat) (s : State) (hs : s.ceilOk = true) :
    (noCartridge jsn s).ceilOk = true := by
  unfold noCartridge; simp [hs]
@[simp] theorem withPartition_ceilOk (e : JournalEntry) (p : Nat) (s : State) (k : Cartridge → State → State)
    (hs : s.ceilOk = true) (hk : ∀ c u, u.ceilOk = true → (k c u).ceilOk = true) : (withPartition e p s k).ceilOk = true := by
  unfold withPartition; dsimp only; (repeat' split) <;> simp [hk, hs]
@[simp] theorem moveTo_ceilOk (w : Nat) (atStart : Bool) (s : State) : (moveTo w atStart s).ceilOk = s.ceilOk := by
  unfold moveTo; simp
@[simp] theorem beginMotion_ceilOk (e : JournalEntry) (s : State) : (beginMotion e s).ceilOk = s.ceilOk := by
  unfold beginMotion; simp
@[simp] theorem onMotion_ceilOk (op jsn : Nat) (done : Bool) (s : State) (k : JournalEntry → RunInfo → State → State)
    (hs : s.ceilOk = true) (hk : ∀ e r u, u.ceilOk = true → (k e r u).ceilOk = true) : (onMotion op jsn done s k).ceilOk = true := by
  unfold onMotion; split
  · (repeat' split) <;> simp [hk, hs]
  · exact onTape_ceilOk _ _ _ _ hs fun e r s h => by split <;> simp [hk, h]
@[simp] theorem eject_ceilOk (s : State) : (eject s).ceilOk = s.ceilOk := by
  unfold eject; simp
@[simp] theorem rewindContexts_ceilOk (s : State) : (rewindContexts s).ceilOk = s.ceilOk := by
  unfold rewindContexts; simp
@[simp] theorem unloadCart_ceilOk (s : State) : (unloadCart s).ceilOk = s.ceilOk := by
  unfold unloadCart; simp
@[simp] theorem onMove_ceilOk (op jsn : Nat) (done : Bool) (s : State) (k : JournalEntry → Bool → State → State)
    (hs : s.ceilOk = true) (hk : ∀ e b u, u.ceilOk = true → (k e b u).ceilOk = true) : (onMove op jsn done s k).ceilOk = true := by
  unfold onMove; (repeat' split)
  · exact hs
  · exact onBegin_ceilOk _ _ _ _ hs fun e _ u => hk e false u
  · exact onMotion_ceilOk _ _ _ _ _ hs fun e _ u => hk e true u

/-! ### Machine/ReadDecode -/
@[simp] theorem setHeld_ceilOk (seq : Nat) (f : HeldDataset → HeldDataset) (s : State) : (setHeld seq f s).ceilOk =
    s.ceilOk := by
  unfold setHeld; simp
@[simp] theorem holdRecord_ceilOk (seq : Nat) (s : State) : (holdRecord seq s).ceilOk = s.ceilOk := by
  unfold holdRecord; (repeat' split) <;> simp
@[simp] theorem countDecode_ceilOk (seq k : Nat) (st : DecodeStats) (r : Scheduled) (s : State) : (countDecode seq k st r s).ceilOk = s.ceilOk := by
  unfold countDecode; simp
@[simp] theorem noteSubset_ceilOk (c : Reread) (seq k : Nat) (st : DecodeStats) (r : Scheduled) (s : State) :
    (noteSubset c seq k st r s).ceilOk = s.ceilOk := by
  unfold noteSubset; (repeat' split) <;> simp
@[simp] theorem noteMissing_ceilOk (seq : Nat) (s : State) : (noteMissing seq s).ceilOk = s.ceilOk := by
  unfold noteMissing; simp
@[simp] theorem rereadDataset_ceilOk (c : Reread) (d : Dataset) (h : HeldDataset) (s : State) : (rereadDataset c d h s).ceilOk = s.ceilOk := by
  unfold rereadDataset; simp
@[simp] theorem adaptOver_ceilOk (c : Reread) (seq : Nat) (s : State) : (adaptOver c seq s).ceilOk = s.ceilOk := by
  unfold adaptOver; (repeat' split) <;> simp

/-! ### Machine/Read -/
@[simp] theorem endMeasure_ceilOk (s : State) : (endMeasure s).ceilOk = s.ceilOk := by
  unfold endMeasure; simp
@[simp] theorem beginMeasure_ceilOk (seq : Nat) (m : Measure) (s : State) : (beginMeasure seq m s).ceilOk = s.ceilOk := by
  unfold beginMeasure; (repeat' split) <;> simp
@[simp] theorem recover_ceilOk (seq passes : Nat) (noC3 : Bool) (s : State) : (recover seq passes noC3 s).ceilOk =
    s.ceilOk := by
  unfold recover; dsimp only; (repeat' split) <;> simp
@[simp] theorem recovered_ceilOk (h : HeldDataset) (s : State) : (recovered h s).ceilOk = s.ceilOk := by
  unfold recovered; (repeat' split) <;> simp
@[simp] theorem afterMeasure_ceilOk (seq passes : Nat) (noC3 : Bool) (s : State) : (afterMeasure seq passes noC3
    s).ceilOk = s.ceilOk := by
  unfold afterMeasure; (repeat' split) <;> simp
@[simp] theorem readAgain_ceilOk (c : Reread) (d : Dataset) (found : Bool) (s : State) : (readAgain c d found s).ceilOk = s.ceilOk := by
  unfold readAgain; (repeat' split) <;> simp
@[simp] theorem degradeChannel_ceilOk (t : Nat) (s : State) : (degradeChannel t s).ceilOk = s.ceilOk := by
  unfold degradeChannel; simp
@[simp] theorem decodeSubset_ceilOk (c : Reread) (d : Dataset) (k ahead : Nat) (s : State) : (decodeSubset c d k ahead s).ceilOk = s.ceilOk := by
  unfold decodeSubset; (repeat' split) <;> simp
@[simp] theorem scatter_ceilOk (y0 : List ListEntry) (y1 : List Byte) (s : State) : (scatter y0 y1 s).ceilOk = s.ceilOk
    := by
  induction y0 generalizing s y1 with
  | nil => rfl
  | cons e t ih => cases y1 with
    | nil => rfl
    | cons b l => unfold scatter; rw [ih]; simp
@[simp] theorem untrustedRun_ceilOk (jsn : Nat) (y0 : Nat) (y1 : Nat × Nat) (s : State) : (untrustedRun jsn y0 y1
    s).ceilOk = s.ceilOk := by
  induction y0 generalizing s y1 with
  | zero => rfl
  | succ n ih => unfold untrustedRun; split
                 · rfl
                 · rw [ih]; simp
@[simp] theorem countTag_ceilOk (jsn : Nat) (s : State) (t : TagFailure) : (countTag jsn s t).ceilOk = s.ceilOk := by
  unfold countTag; simp
@[simp] theorem countTags_ceilOk (j : ReadJob) (fs : List FrameAt) (s : State) : (countTags j fs s).ceilOk = s.ceilOk := by
  unfold countTags; simp
@[simp] theorem decryptLanes_ceilOk (fs : List FrameAt) (s : State) : (decryptLanes fs s).ceilOk = s.ceilOk := by
  unfold decryptLanes; exact foldl_ceilOk (fun s _ => by split <;> simp) _ _
@[simp] theorem deliverRead_ceilOk (j : ReadJob) (list : List ListEntry) (desc : Nat) (a : ReadAcc) (s : State) :
    (deliverRead j list desc a s).ceilOk = s.ceilOk := by
  unfold deliverRead; simp
@[simp] theorem noteSpan_ceilOk (j : ReadJob) (start pos : Nat) (ended : Bool) (s : State) : (noteSpan j start pos
    ended s).ceilOk = s.ceilOk := by
  unfold noteSpan; simp
@[simp] theorem readSpeed_ceilOk (n : Nat) (s : State) : (readSpeed n s).ceilOk = s.ceilOk := by
  unfold readSpeed; simp
@[simp] theorem endReading_ceilOk (jsn : Nat) (s : State) : (endReading jsn s).ceilOk = s.ceilOk := by
  unfold endReading; simp
@[simp] theorem readFault_ceilOk (jsn : Nat) (chain : List Dataset) (cause seq subset : Nat) (s : State) : (readFault
    jsn chain cause seq subset s).ceilOk = s.ceilOk := by
  unfold readFault; simp
@[simp] theorem takeChain_ceilOk (y0 : Nat) (s : State) : (takeChain y0 s).2.ceilOk = s.ceilOk := by
  induction y0 generalizing s with
  | zero => rfl
  | succ n ih =>
    unfold takeChain; split
    · rfl
    · rename_i heq; have h1 := porterTry_ceilOk _ _ _ _ heq
      split; rename_i heq2; have := ih; 
      have h2 := congrArg (fun p => p.2.ceilOk) heq2; simp only [ih] at h2; rw [← h2]; exact h1
@[simp] theorem addChained_ceilOk (ctx : Nat) (left : List Byte) (bad : List (Nat × Nat)) (h : Word) (t : List Word)
    (s : State) : (addChained ctx left bad h t s).ceilOk = s.ceilOk := by
  unfold addChained; simp
theorem chainRest_ceilOk (ctx : Nat) (left : List Byte) (bad : List (Nat × Nat)) (s : State) (q : (Word × State)) (hr
    : chainRest ctx left bad s = some q) : q.2.ceilOk = s.ceilOk := by
  unfold chainRest at hr; split at hr
  · cases hr
  · split at hr
    · cases hr
    · rename_i heq; cases hr
      exact (addChained_ceilOk _ _ _ _ _ _).trans ((congrArg (fun p => p.2.ceilOk) heq).symm.trans (takeChain_ceilOk _ s))
@[simp] theorem waitRecovery_ceilOk (e : JournalEntry) (j : ReadJob) (seq : Nat) (s : State) : (waitRecovery e j seq
    s).ceilOk = s.ceilOk := by
  unfold waitRecovery; simp
@[simp] theorem settleRead_ceilOk (j : ReadJob) (start : Nat) (a : ReadAcc) (ended : Bool) (s : State) : (settleRead
    j start a ended s).ceilOk = s.ceilOk := by
  unfold settleRead; simp
@[simp] theorem blockFault_ceilOk (jsn item cause : Nat) (s : State) : (blockFault jsn item cause s).ceilOk = s.ceilOk := by
  unfold blockFault; (repeat' split) <;> simp
@[simp] theorem endRead_ceilOk (e : JournalEntry) (list : List ListEntry) (j : ReadJob) (start : Nat) (stop : ReadStop) (a : ReadAcc)
    (s : State) (hs : s.ceilOk = true) : (endRead e list j start stop a s).ceilOk = true := by
  unfold endRead; dsimp only; split
  all_goals try simp [hs]
  split
  · next heq => have := chainRest_ceilOk _ _ _ _ _ heq; simp [this, hs]
  · simp [hs]
@[simp] theorem abortRead_ceilOk (e : JournalEntry) (r : RunInfo) (s : State) (hs : s.ceilOk = true) :
    (abortRead e r s).ceilOk = true := by
  unfold abortRead; (repeat' split) <;> simp [hs]
@[simp] theorem verifyReport_ceilOk (e : JournalEntry) (j : ReadJob) (a : VerifyAcc) (s : State) : (verifyReport e j
    a s).ceilOk = s.ceilOk := by
  unfold verifyReport; simp
@[simp] theorem endVerify_ceilOk (e : JournalEntry) (j : ReadJob) (start : Nat) (stop : ReadStop) (a : VerifyAcc) (s : State) (hs : s.ceilOk = true) :
    (endVerify e j start stop a s).ceilOk = true := by
  unfold endVerify; (repeat' split) <;> simp [hs]
@[simp] theorem abortVerify_ceilOk (e : JournalEntry) (s : State) (hs : s.ceilOk = true) :
    (abortVerify e s).ceilOk = true := by
  unfold abortVerify; (repeat' split) <;> simp [hs]

/-! ### Machine/PackerCmd -/
@[simp] theorem keepPart_ceilOk (jsn r0 r1 : Nat) (s : State) : (keepPart jsn r0 r1 s).ceilOk = s.ceilOk := by
  unfold keepPart; simp
@[simp] theorem levelTransfer_ceilOk (s : State) : (levelTransfer s).ceilOk = s.ceilOk := by
  unfold levelTransfer; simp

/-! ### Machine/Tec -/
@[simp] theorem decodeTransfer_ceilOk (s : State) : (decodeTransfer s).ceilOk = s.ceilOk := by
  unfold decodeTransfer; (repeat' split) <;> simp
@[simp] theorem detectTransfer_ceilOk (s : State) : (detectTransfer s).ceilOk = s.ceilOk := by
  unfold detectTransfer; (repeat' split) <;> simp
@[simp] theorem captureSlots_ceilOk (e : JournalEntry) (done : Nat) (slots : List (List Int)) (s : State) :
    (captureSlots e done slots s).ceilOk = s.ceilOk := by
  unfold captureSlots; simp

/-! ### Machine/DroverRows -/
@[simp] theorem giveUpDataset_ceilOk (s : State) (d : WrittenDataset) : (giveUpDataset s d).ceilOk = s.ceilOk := by
  unfold giveUpDataset; simp
@[simp] theorem giveUp_ceilOk (s : State) (p : Nat) : (giveUp s p).ceilOk = s.ceilOk := by
  unfold giveUp; simp
@[simp] theorem endWritesNow_ceilOk (js : List Nat) (st : Nat) (r1 : Option Nat) (s : State) (hs : s.ceilOk = true) :
    (endWritesNow js st r1 s).ceilOk = true := by
  unfold endWritesNow; dsimp only
  exact settleWrites_ceilOk _ (foldl_keeps_ceilOk (fun s j h => by split <;> simp [h]) _ _ (by simp [hs]))
@[simp] theorem loseTape_ceilOk (st : Nat) (s : State) (hs : s.ceilOk = true) :
    (loseTape st s).ceilOk = true := by
  unfold loseTape; simp [hs]
@[simp] theorem dropMove_ceilOk (jsn : Nat) (s : State) : (dropMove jsn s).ceilOk = s.ceilOk := by
  unfold dropMove; simp
@[simp] theorem endSets_ceilOk (s : State) (hs : s.ceilOk = true) : (endSets s).ceilOk = true := by
  unfold endSets
  exact foldl_keeps_ceilOk (fun s j h => endWith_ceilOk _ _ _ _ s h) _ _ hs
@[simp] theorem endMode_ceilOk (s : State) (j : DrvJob) (hs : s.ceilOk = true) :
    (endMode s j).ceilOk = true := by
  unfold endMode; simp [hs]
@[simp] theorem endMove_ceilOk (s : State) (j : DrvJob) (hs : s.ceilOk = true) :
    (endMove s j).ceilOk = true := by
  unfold endMove; simp [hs]
@[simp] theorem droverJobs_ceilOk (s : State) (hs : s.ceilOk = true) : (droverJobs s).ceilOk = true := by
  unfold droverJobs
  exact foldl_keeps_ceilOk endMove_ceilOk _ _ (foldl_keeps_ceilOk endMode_ceilOk _ _ (endSets_ceilOk s hs))
@[simp] theorem dropCapture_ceilOk (jsn : Nat) (s : State) : (dropCapture jsn s).ceilOk = s.ceilOk := by
  unfold dropCapture; simp
@[simp] theorem captureOne_ceilOk (unfinished : List Nat) (s : State) (j : DrvJob) (hs : s.ceilOk = true) :
    (captureOne unfinished s j).ceilOk = true := by
  unfold captureOne; split
  · dsimp only; (repeat' split) <;> simp [hs]
  · exact hs
@[simp] theorem captureTick_ceilOk (unfinished : List Nat) (s : State) (hs : s.ceilOk = true) : (captureTick unfinished s).ceilOk = true :=
  foldl_keeps_ceilOk (captureOne_ceilOk unfinished) _ _ hs
@[simp] theorem monTransfer_ceilOk (s : State) : (monTransfer s).ceilOk = s.ceilOk := by
  unfold monTransfer; simp
@[simp] theorem spmTransfer_ceilOk (s : State) : (spmTransfer s).ceilOk = s.ceilOk := by
  unfold spmTransfer; simp
@[simp] theorem stopRunIfStopped_ceilOk (was : Bool) (s : State) (hs : s.ceilOk = true) :
    (stopRunIfStopped was s).ceilOk = true := by
  unfold stopRunIfStopped; simp [hs]
@[simp] theorem endDiagStops_ceilOk (s : State) (hs : s.ceilOk = true) : (endDiagStops s).ceilOk = true := by
  unfold endDiagStops
  exact foldl_keeps_ceilOk (fun s x h => by (repeat' split) <;> simp [h]) _ _ hs
@[simp] theorem sensorPass_ceilOk (n : Nat) (s : State) : (sensorPass n s).ceilOk = s.ceilOk := by
  unfold sensorPass; simp
@[simp] theorem sensorLasts_ceilOk (n : Nat) (both : Bool) (s : State) : (sensorLasts n both s).ceilOk = s.ceilOk := by
  unfold sensorLasts; simp
@[simp] theorem retrySensor_ceilOk (failed : List Nat) (both : Bool) (s : State) (n : Nat) : (retrySensor failed both
    s n).ceilOk = s.ceilOk := by
  unfold retrySensor; simp
@[simp] theorem restoreLoops_ceilOk (s : State) : (restoreLoops s).ceilOk = s.ceilOk := by
  unfold restoreLoops; simp
@[simp] theorem markWaiters_ceilOk (s : State) : (markWaiters s).ceilOk = s.ceilOk := by
  unfold markWaiters; refine foldl_ceilOk (fun s x => ?_) _ _; (repeat' split) <;> simp

/-! ### Machine/HeadLink -/
@[simp] theorem updateCaps_ceilOk (s : State) : (updateCaps s).ceilOk = s.ceilOk := by
  unfold updateCaps; simp
@[simp] theorem sendMask_ceilOk (s : State) : (sendMask s).ceilOk = s.ceilOk := by
  unfold sendMask; simp
@[simp] theorem laneFailing_ceilOk (n : Nat) (c : LaneFault) (s : State) : (laneFailing n c s).ceilOk = s.ceilOk := by
  unfold laneFailing; simp
@[simp] theorem laneErrEvent_ceilOk (n : Nat) (s : State) : (laneErrEvent n s).ceilOk = s.ceilOk := by
  unfold laneErrEvent; simp
@[simp] theorem crcErrors_ceilOk (k n : Nat) (s : State) : (crcErrors k n s).ceilOk = s.ceilOk := by
  unfold crcErrors; simp
@[simp] theorem failLink_ceilOk (s : State) (hs : s.ceilOk = true) :
    (failLink s).ceilOk = true := by
  unfold failLink; simp [hs]
@[simp] theorem linkFails_ceilOk (s : State) (hs : s.ceilOk = true) :
    (linkFails s).ceilOk = true := by
  unfold linkFails; simp [hs]
@[simp] theorem retireLane_ceilOk (n : Nat) (s : State) : (retireLane n s).ceilOk = s.ceilOk := by
  unfold retireLane; simp
@[simp] theorem maskChange_ceilOk (s : State) (p : Nat × Bool) : (maskChange s p).ceilOk = s.ceilOk := by
  unfold maskChange; simp
@[simp] theorem beginRetrain_ceilOk (s : State) : (beginRetrain s).ceilOk = s.ceilOk := by
  unfold beginRetrain; (repeat' split) <;> simp
@[simp] theorem hlkTransfer_ceilOk (s : State) : (hlkTransfer s).ceilOk = s.ceilOk := by
  unfold hlkTransfer; simp
@[simp] theorem drainTick_ceilOk (s : State) : (drainTick s).ceilOk = s.ceilOk := by
  unfold drainTick; simp
@[simp] theorem linkTick_ceilOk (s : State) (hs : s.ceilOk = true) :
    (linkTick s).ceilOk = true := by
  unfold linkTick; simp [hs]
@[simp] theorem mismatch_ceilOk (i : BitVec 40) (s : State) (hs : s.ceilOk = true) :
    (mismatch i s).ceilOk = true := by
  unfold mismatch; simp [hs]
@[simp] theorem trainLane_ceilOk (t : TrainResult) (s : State) (n : Nat) : (trainLane t s n).ceilOk = s.ceilOk := by
  unfold trainLane; simp
@[simp] theorem trainLink_ceilOk (t : TrainResult) (s : State) (hs : s.ceilOk = true) :
    (trainLink t s).ceilOk = true := by
  unfold trainLink; simp [hs]
@[simp] theorem countBlockErrors_ceilOk (k n : Nat) (s : State) : (countBlockErrors k n s).ceilOk = s.ceilOk := by
  unfold countBlockErrors; (repeat' split) <;> simp
@[simp] theorem onFrame_ceilOk (ftype : Nat) (f : LinkFrame) (s : State) (k : HeadFrame → State → State)
    (hk : ∀ (h : HeadFrame) (s : State), (k h s).ceilOk = s.ceilOk) : (onFrame ftype f s k).ceilOk = s.ceilOk := by
  unfold onFrame; dsimp only; (repeat' split) <;> simp [hk]
@[simp] theorem takeItems_ceilOk (src next : Nat) (items : List (Option Int)) (s : State) : (takeItems src next items s).ceilOk = s.ceilOk := by
  unfold takeItems; simp
@[simp] theorem drainAhead_ceilOk (src : Nat) (y0 : Nat) (s : State) : (drainAhead src y0 s).ceilOk = s.ceilOk := by
  induction y0 generalizing s with
  | zero => rfl
  | succ n ih => unfold drainAhead; dsimp only; split <;> simp [ih]
@[simp] theorem reorder_ceilOk (w n : Nat) (h : HeadFrame) (s : State) : (reorder w n h s).ceilOk = s.ceilOk := by
  unfold reorder; dsimp only; split <;> simp
@[simp] theorem takeStatus_ceilOk (h : HeadFrame) (s : State) : (takeStatus h s).ceilOk = s.ceilOk := by
  unfold takeStatus; dsimp only
  rw [foldl_ceilOk (fun s j => by split <;> simp)]; (repeat' split) <;> simp
@[simp] theorem ctrlRefused_ceilOk (lane : Nat) (s : State) : (ctrlRefused lane s).ceilOk = s.ceilOk := by
  unfold ctrlRefused; simp

/-! ### Machine/Thermal -/
@[simp] theorem modThm_ceilOk (n : Nat) (f : ThmSensor → ThmSensor) (s : State) : (modThm n f s).ceilOk = s.ceilOk := by
  unfold modThm; simp
@[simp] theorem refreshEff_ceilOk (s : State) : (refreshEff s).ceilOk = s.ceilOk := by
  unfold refreshEff; simp
@[simp] theorem refreshRates_ceilOk (s : State) : (refreshRates s).ceilOk = s.ceilOk := by
  unfold refreshRates; refine foldl_ceilOk (fun s x => ?_) _ _; (repeat' split) <;> simp
@[simp] theorem sensorStays_ceilOk (n : Nat) (s : State) : (sensorStays n s).ceilOk = s.ceilOk := by
  unfold sensorStays; simp
@[simp] theorem failSensor_ceilOk (n : Nat) (c2 : Option Int) (s : State) : (failSensor n c2 s).ceilOk = s.ceilOk := by
  unfold failSensor; (repeat' split) <;> simp
@[simp] theorem readmit_ceilOk (n : Nat) (raw : Int) (s : State) : (readmit n raw s).ceilOk = s.ceilOk := by
  unfold readmit; simp
@[simp] theorem checkGrid_ceilOk (n : Nat) (raw : Int) (s : State) : (checkGrid n raw s).ceilOk = s.ceilOk := by
  unfold checkGrid; (repeat' split) <;> simp
@[simp] theorem checkWeighhouse_ceilOk (raw : Int) (s : State) : (checkWeighhouse raw s).ceilOk = s.ceilOk := by
  unfold checkWeighhouse; simp
@[simp] theorem levelCross_ceilOk (n : Nat) (old new level : Int) (crit : Bool) (s : State) : (levelCross n old new
    level crit s).ceilOk = s.ceilOk := by
  unfold levelCross; simp
@[simp] theorem levelEvents_ceilOk (before : List Int) (s : State) : (levelEvents before s).ceilOk = s.ceilOk := by
  unfold levelEvents; simp
@[simp] theorem chooseRate_ceilOk (s : State) : (chooseRate s).ceilOk = s.ceilOk := by
  unfold chooseRate; simp
@[simp] theorem publishThermal_ceilOk (s : State) : (publishThermal s).ceilOk = s.ceilOk := by
  unfold publishThermal; simp
@[simp] theorem sampleSensor_ceilOk (sensor : Nat) (raw : Int) (s : State) : (sampleSensor sensor raw s).ceilOk =
    s.ceilOk := by
  unfold sampleSensor; dsimp only; (repeat' split) <;> simp
@[simp] theorem setCap_ceilOk (c : Nat) (s : State) : (setCap c s).ceilOk = s.ceilOk := by
  unfold setCap; simp
@[simp] theorem capRule_ceilOk (hot cool : Bool) (s : State) : (capRule hot cool s).ceilOk = s.ceilOk := by
  unfold capRule; simp
@[simp] theorem critRule_ceilOk (cool : Bool) (s : State) : (critRule cool s).ceilOk = s.ceilOk := by
  unfold critRule; dsimp only; (repeat' split) <;> simp
@[simp] theorem weighhouseSilent_ceilOk (s : State) : (weighhouseSilent s).ceilOk = s.ceilOk := by
  unfold weighhouseSilent; simp
@[simp] theorem thmTransfer_ceilOk (s : State) : (thmTransfer s).ceilOk = s.ceilOk := by
  unfold thmTransfer; simp

/-! ### Machine/Power -/
@[simp] theorem linkIdle_ceilOk (s : State) : (linkIdle s).ceilOk = s.ceilOk := by
  unfold linkIdle; simp
@[simp] theorem saveForL3_ceilOk (s : State) : (saveForL3 s).ceilOk = s.ceilOk := by
  unfold saveForL3; simp
@[simp] theorem enterState_ceilOk (k : Nat) (s : State) : (enterState k s).ceilOk = s.ceilOk := by
  unfold enterState; simp
@[simp] theorem enterIfNow_ceilOk (s : State) : (enterIfNow s).ceilOk = s.ceilOk := by
  unfold enterIfNow; simp
@[simp] theorem restoreL3_ceilOk (s : State) : (restoreL3 s).ceilOk = s.ceilOk := by
  unfold restoreL3; simp
@[simp] theorem awake_ceilOk (k : Nat) (t : TrainResult) (s : State) (hs : s.ceilOk = true) :
    (awake k t s).ceilOk = true := by
  unfold awake; simp [hs]
@[simp] theorem recordTruncs_ceilOk (ser : List Byte) (ps : List Nat) (s : State) : (recordTruncs ser ps s).ceilOk =
    s.ceilOk := by
  unfold recordTruncs; simp
@[simp] theorem removeCart_ceilOk (s : State) (hs : s.ceilOk = true) :
    (removeCart s).ceilOk = true := by
  unfold removeCart; (repeat' split) <;> simp [hs]
@[simp] theorem slackTick_ceilOk (tension : Option Int) (s : State) : (slackTick tension s).ceilOk = s.ceilOk := by
  unfold slackTick; simp

/-! ### Machine/Weighhouse -/
@[simp] theorem putStateWord_ceilOk (f : StateWord → StateWord) (s : State) : (putStateWord f s).ceilOk = s.ceilOk := by
  unfold putStateWord; simp
@[simp] theorem takeTsn_ceilOk (n : Nat) (s : State) : (takeTsn n s).ceilOk = s.ceilOk := by
  unfold takeTsn; simp
@[simp] theorem countBad_ceilOk (s : State) : (countBad s).ceilOk = s.ceilOk := by
  unfold countBad; simp
@[simp] theorem countGap_ceilOk (s : State) : (countGap s).ceilOk = s.ceilOk := by
  unfold countGap; simp
@[simp] theorem countDup_ceilOk (s : State) : (countDup s).ceilOk = s.ceilOk := by
  unfold countDup; simp
@[simp] theorem resendTally_ceilOk (s : State) : (resendTally s).ceilOk = s.ceilOk := by
  unfold resendTally; simp
@[simp] theorem modCurrent_ceilOk (f : LedgerEntry → LedgerEntry) (s : State) : (modCurrent f s).ceilOk = s.ceilOk := by
  unfold modCurrent; (repeat' split) <;> simp
@[simp] theorem endEntry_ceilOk (cause : Nat) (s : State) : (endEntry cause s).ceilOk = s.ceilOk := by
  unfold endEntry; simp
@[simp] theorem openEntry_ceilOk (start : Nat) (s : State) : (openEntry start s).ceilOk = s.ceilOk := by
  unfold openEntry; simp
@[simp] theorem reportUnread_ceilOk (s : State) : (reportUnread s).ceilOk = s.ceilOk := by
  unfold reportUnread; simp
@[simp] theorem takeWhStatus_ceilOk (s : State) : (takeWhStatus s).ceilOk = s.ceilOk := by
  unfold takeWhStatus; dsimp only; (repeat' split) <;> simp
@[simp] theorem whResumes_ceilOk (s : State) : (whResumes s).ceilOk = s.ceilOk := by
  unfold whResumes; simp
@[simp] theorem becomeAvailable_ceilOk (s : State) : (becomeAvailable s).ceilOk = s.ceilOk := by
  unfold becomeAvailable; simp
@[simp] theorem emptyFifos_ceilOk (s : State) : (emptyFifos s).ceilOk = s.ceilOk := by
  unfold emptyFifos; simp
@[simp] theorem mbRefused_ceilOk (type : Nat) (s : State) : (mbRefused type s).ceilOk = s.ceilOk := by
  unfold mbRefused; simp
@[simp] theorem mbServe_ceilOk (type : Nat) (ok : Bool) (k : State → State) (s : State) (hk : ∀ (s : State), (k
    s).ceilOk = s.ceilOk) : (mbServe type ok k s).ceilOk = s.ceilOk := by
  unfold mbServe; (repeat' split) <;> simp_all
@[simp] theorem mbRespond_ceilOk (type : Nat) (l : List Byte) (s : State) : (mbRespond type l s).ceilOk = s.ceilOk := by
  unfold mbRespond; simp
@[simp] theorem doExtend_ceilOk (stage : Nat) (digest : List Byte) (s : State) : (doExtend stage digest s).ceilOk =
    s.ceilOk := by
  unfold doExtend; simp
@[simp] theorem closeEntry_ceilOk (s : State) : (closeEntry s).ceilOk = s.ceilOk := by
  unfold closeEntry; dsimp only; (repeat' split) <;> simp
@[simp] theorem doClose_ceilOk (s : State) : (doClose s).ceilOk = s.ceilOk := by
  unfold doClose; simp
@[simp] theorem doLedgerGet_ceilOk (first count : Nat) (s : State) : (doLedgerGet first count s).ceilOk = s.ceilOk := by
  unfold doLedgerGet; simp
@[simp] theorem nextStatement_ceilOk (s : State) : (nextStatement s).ceilOk = s.ceilOk := by
  unfold nextStatement; simp
@[simp] theorem doStatement_ceilOk (r : StatementReq) (s : State) : (doStatement r s).ceilOk = s.ceilOk := by
  unfold doStatement; simp
@[simp] theorem setSpdm_ceilOk (mctp : Bool) (n : Nat) (s : State) : (setSpdm mctp n s).ceilOk = s.ceilOk := by
  unfold setSpdm; simp
@[simp] theorem spdmReply_ceilOk (mctp : Bool) (l : List Byte) (s : State) : (spdmReply mctp l s).ceilOk = s.ceilOk := by
  unfold spdmReply; simp
@[simp] theorem spdmServe_ceilOk (mctp : Bool) (msg : List Byte) (s : State) : (spdmServe mctp msg s).ceilOk = s.ceilOk
    := by
  unfold spdmServe; dsimp only; (repeat' split) <;> simp
@[simp] theorem doSpdm_ceilOk (mctp : Bool) (msg : List Byte) (s : State) : (doSpdm mctp msg s).ceilOk = s.ceilOk := by
  unfold doSpdm; simp
@[simp] theorem doMarkRead_ceilOk (epochs : List Nat) (s : State) : (doMarkRead epochs s).ceilOk = s.ceilOk := by
  unfold doMarkRead; exact mbServe_ceilOk _ _ _ _ (fun _ => rfl)
@[simp] theorem postMessage_ceilOk (type : Nat) (c : List Byte) (s : State) : (postMessage type c s).ceilOk = s.ceilOk := by
  unfold postMessage; simp
@[simp] theorem whStops_ceilOk (s : State) : (whStops s).ceilOk = s.ceilOk := by
  unfold whStops; simp
@[simp] theorem whPowerUp_ceilOk (s : State) : (whPowerUp s).ceilOk = s.ceilOk := by
  unfold whPowerUp; simp
@[simp] theorem dropEpoch_ceilOk (s : State) : (dropEpoch s).ceilOk = s.ceilOk := by
  unfold dropEpoch; simp

/-! ### Machine/Logs -/
@[simp] theorem endNop_ceilOk (e : JournalEntry) (s : State) (hs : s.ceilOk = true) :
    (endNop e s).ceilOk = true := by
  unfold endNop; simp [hs]
@[simp] theorem clearPage_ceilOk (n : Nat) (s : State) : (clearPage n s).ceilOk = s.ceilOk := by
  unfold clearPage; simp

/-! ### Machine/Reset -/
@[simp] theorem scanJournal_ceilOk (s : State) : (scanJournal s).ceilOk = s.ceilOk := by
  unfold scanJournal; simp
@[simp] theorem strike_ceilOk (s : State) (hs : s.ceilOk = true) :
    (strike s).ceilOk = true := by
  unfold strike; simp [hs]
@[simp] theorem keepTruncs_ceilOk (s : State) : (keepTruncs s).ceilOk = s.ceilOk := by
  unfold keepTruncs; (repeat' split) <;> simp
@[simp] theorem warmBlocks_ceilOk (s : State) : (warmBlocks s).ceilOk = s.ceilOk := by
  unfold warmBlocks; simp
theorem ceilOkOf_none {ctx dev : Table KeySlot} {a b : CeilCopy} {next : Option Nat} (h : ceilOkOf ctx dev a b next = true) :
    ceilOkOf ctx dev a b none = true := by
  simp only [ceilOkOf, Bool.and_eq_true] at h ⊢
  exact ⟨h.1, rfl⟩

@[simp] theorem raiseEpoch_ceilOk (s : State) (hs : s.ceilOk = true) : (raiseEpoch s).ceilOk = true := ceilOkOf_none hs
theorem freeAreas_counter_le {js : List Nat} {t : Table KeySlot} {n : Nat} (h : t.all (fun p => decide (p.2.counter ≤ n)) = true) :
    (freeAreas js t).all (fun p => decide (p.2.counter ≤ n)) = true := by
  refine List.all_eq_true.2 fun p hp => ?_
  obtain ⟨q, hq, rfl⟩ := List.mem_map.1 (List.mem_filter.1 hp).1
  have := List.all_eq_true.1 h q hq
  (repeat' split) <;> exact this

@[simp] theorem clearWarm_ceilOk (linkDown : Bool) (s : State) (hs : s.ceilOk = true) : (clearWarm linkDown s).ceilOk = true := by
  refine raiseEpoch_ceilOk _ ?_
  simp only [State.ceilOk, ceilOkOf, Bool.and_eq_true] at hs
  obtain ⟨⟨hctx, hdev⟩, hnext⟩ := hs
  simp only [State.ceilOk, ceilOkOf, Bool.and_eq_true]
  exact ⟨⟨freeAreas_counter_le hctx, freeAreas_counter_le hdev⟩, hnext⟩
@[simp] theorem clearCold_ceilOk (s : State) : (clearCold s).ceilOk = true := by
  unfold clearCold raiseEpoch
  rfl
@[simp] theorem setCause_ceilOk (kind source : Nat) (s : State) : (setCause kind source s).ceilOk = s.ceilOk := by
  unfold setCause; simp
@[simp] theorem toStepOne_ceilOk (s : State) : (toStepOne s).ceilOk = s.ceilOk := by
  unfold toStepOne; simp
@[simp] theorem warmReset_ceilOk (linkDown : Bool) (source : Nat) (s : State) (hs : s.ceilOk = true) :
    (warmReset linkDown source s).ceilOk = true := by
  unfold warmReset; simp [hs]
@[simp] theorem coldStop_ceilOk (old : State) (s : State) : (coldStop old s).ceilOk = s.ceilOk := by
  unfold coldStop; simp
@[simp] theorem coldReset_ceilOk (source : Nat) (s : State) (hs : s.ceilOk = true) :
    (coldReset source s).ceilOk = true := by
  unfold coldReset; simp
@[simp] theorem powerDown_ceilOk (s : State) (hs : s.ceilOk = true) :
    (powerDown s).ceilOk = true := by
  unfold powerDown; simp
@[simp] theorem assignRoles_ceilOk (s : State) : (assignRoles s).ceilOk = s.ceilOk := by
  unfold assignRoles; simp
@[simp] theorem coreRetry_ceilOk (c : Nat) (s : State) : (coreRetry c s).ceilOk = s.ceilOk := by
  unfold coreRetry; simp
@[simp] theorem startCores_ceilOk (ok : BitVec 4) (s : State) : (startCores ok s).ceilOk = s.ceilOk := by
  unfold startCores; simp
@[simp] theorem startLanes_ceilOk (ok : BitVec 8) (s : State) : (startLanes ok s).ceilOk = s.ceilOk := by
  unfold startLanes; simp
@[simp] theorem noteKat_ceilOk (s : State) : (noteKat s).ceilOk = s.ceilOk := by
  unfold noteKat; simp
@[simp] theorem startCeil_ceilOk (s : State) (hs : s.ceilOk = true) : (startCeil s).ceilOk = true := by
  unfold startCeil; split
  · simp [hs]
  · next c hc =>
    rw [raiseCeil_ceilOk]
    have now : c.ceil = ceilNow s := by rw [ceilNow, hc]; rfl
    have slot : ∀ l : Table KeySlot, l.all (fun p => decide (p.2.counter ≤ ceilNow s)) = true →
        (l.map fun p => (p.1, if p.2.use = .active then { p.2 with counter := c.ceil, random := none }
          else { p.2 with random := none })).all (fun p => decide (p.2.counter ≤ ceilNow s)) = true := by
      intro l hl
      refine List.all_eq_true.2 fun p hp => ?_
      obtain ⟨q, hq, rfl⟩ := List.mem_map.1 hp
      have := List.all_eq_true.1 hl q hq
      dsimp only
      split
      · exact decide_eq_true now.le
      · exact this
    simp only [State.ceilOk, ceilOkOf, Bool.and_eq_true] at hs
    obtain ⟨⟨hctx, hdev⟩, hnext⟩ := hs
    simp only [State.ceilOk, ceilOkOf, Bool.and_eq_true]
    exact ⟨⟨slot _ hctx, slot _ hdev⟩, hnext⟩
@[simp] theorem startRetract_ceilOk (s : State) : (startRetract s).ceilOk = s.ceilOk := by
  unfold startRetract; simp
@[simp] theorem startReplay_ceilOk (s : State) : (startReplay s).ceilOk = s.ceilOk := by
  unfold startReplay; simp
@[simp] theorem redoRecord_ceilOk (e : JournalEntry) (w : RetireWord) (s : State) : (redoRecord e w s).ceilOk = s.ceilOk := by
  unfold redoRecord; dsimp only; (repeat' split) <;> simp
@[simp] theorem moveContext_ceilOk (c n : Nat) (s : State) : (moveContext c n s).ceilOk = s.ceilOk := by
  unfold moveContext; split <;> simp
@[simp] theorem redoPosition_ceilOk (e : JournalEntry) (w : RetireWord) (s : State) : (redoPosition e w s).ceilOk = s.ceilOk := by
  unfold redoPosition; dsimp only; (repeat' split) <;> simp
@[simp] theorem redoContext_ceilOk (s : State) (e : JournalEntry) : (redoContext s e).ceilOk = s.ceilOk := by
  unfold redoContext; split <;> simp
@[simp] theorem redoContexts_ceilOk (s : State) : (redoContexts s).ceilOk = s.ceilOk := by
  unfold redoContexts; simp
@[simp] theorem startBoot_ceilOk (b : BootInput) (s : State) (hs : s.ceilOk = true) :
    (startBoot b s).ceilOk = true := by
  unfold startBoot; simp [hs]
@[simp] theorem startFirmware_ceilOk (b : BootInput) (s : State) (hs : s.ceilOk = true) :
    (startFirmware b s).ceilOk = true := by
  unfold startFirmware; simp [hs]
@[simp] theorem startLink_ceilOk (t : TrainResult) (s : State) (hs : s.ceilOk = true) :
    (startLink t s).ceilOk = true := by
  unfold startLink; simp [hs]
@[simp] theorem startEvents_ceilOk (s : State) : (startEvents s).ceilOk = s.ceilOk := by
  unfold startEvents; simp
@[simp] theorem endAtReset_ceilOk (e : JournalEntry) (st : Nat) (s : State) (hs : s.ceilOk = true) :
    (endAtReset e st s).ceilOk = true := by
  unfold endAtReset; (repeat' split) <;> simp [hs]
@[simp] theorem replayOne_ceilOk (s : State) (j : Nat) (hs : s.ceilOk = true) :
    (replayOne s j).ceilOk = true := by
  unfold replayOne; (repeat' split) <;> simp [hs]
@[simp] theorem reportDurable_ceilOk (e : JournalEntry) (w : RetireWord) (s : State) : (reportDurable e w s).ceilOk =
    s.ceilOk := by
  unfold reportDurable; simp
@[simp] theorem reportOne_ceilOk (s : State) (j : Nat) : (reportOne s j).ceilOk = s.ceilOk := by
  unfold reportOne; dsimp only; (repeat' split) <;> simp

/-! ### Machine/Cores -/
@[simp] theorem setAbort_ceilOk (r : Nat) (s : State) : (setAbort r s).ceilOk = s.ceilOk := by
  unfold setAbort; simp
@[simp] theorem abortWaiting_ceilOk (e : JournalEntry) (s : State) (hs : s.ceilOk = true) :
    (abortWaiting e s).ceilOk = true := by
  unfold abortWaiting; simp [hs]
@[simp] theorem dropJobs_ceilOk (jsn : Nat) (s : State) : (dropJobs jsn s).ceilOk = s.ceilOk := by
  unfold dropJobs; simp
@[simp] theorem abortMove_ceilOk (e : JournalEntry) (s : State) (hs : s.ceilOk = true) :
    (abortMove e s).ceilOk = true := by
  unfold abortMove; simp [hs]
@[simp] theorem abortMotion_ceilOk (e : JournalEntry) (r : RunInfo) (s : State) (hs : s.ceilOk = true) :
    (abortMotion e r s).ceilOk = true := by
  unfold abortMotion; (repeat' split) <;> simp [hs]
@[simp] theorem abortStarted_ceilOk (e : JournalEntry) (r : RunInfo) (s : State) (hs : s.ceilOk = true) :
    (abortStarted e r s).ceilOk = true := by
  unfold abortStarted; (repeat' split) <;> simp [hs]
@[simp] theorem abortNow_ceilOk (e : JournalEntry) (r : RunInfo) (s : State) (hs : s.ceilOk = true) :
    (abortNow e r s).ceilOk = true := by
  unfold abortNow; simp [hs]
@[simp] theorem setCore_ceilOk (c : Nat) (f : CoreState → CoreState) (s : State) : (setCore c f s).ceilOk = s.ceilOk := by
  unfold setCore; simp
@[simp] theorem endInterpreted_ceilOk (s : State) (j : Nat) (hs : s.ceilOk = true) :
    (endInterpreted s j).ceilOk = true := by
  unfold endInterpreted; (repeat' split) <;> simp [hs]
@[simp] theorem coreLasting_ceilOk (c : Nat) (s : State) : (coreLasting c s).ceilOk = s.ceilOk := by
  unfold coreLasting; simp
@[simp] theorem coreFault_ceilOk (c : Nat) (s : State) (hs : s.ceilOk = true) : (coreFault c s).ceilOk = true := by
  unfold coreFault; split
  · simp [hs]
  · exact foldl_keeps_ceilOk endInterpreted_ceilOk _ _ (by split <;> simp [hs])
@[simp] theorem onDiag_ceilOk (f jsn : Nat) (s : State) (k : JournalEntry → RunInfo → State → State) (hs : s.ceilOk = true)
    (hk : ∀ e r u, u.ceilOk = true → (k e r u).ceilOk = true) : (onDiag f jsn s k).ceilOk = true := by
  unfold onDiag; split
  · exact hs
  · exact onBegin_ceilOk _ _ _ _ hs hk
@[simp] theorem endSelftest_ceilOk (jsn : Nat) (passed : BitVec 8) (s : State) (hs : s.ceilOk = true) :
    (endSelftest jsn passed s).ceilOk = true := by
  unfold endSelftest; simp [hs]

/-! ### Machine/HostIf -/
@[simp] theorem setHif_ceilOk (f : Hif → Hif) (s : State) : (setHif f s).ceilOk = s.ceilOk := by
  unfold setHif; simp
@[simp] theorem setDoe_ceilOk (f : Doe → Doe) (s : State) : (setDoe f s).ceilOk = s.ceilOk := by
  unfold setDoe; simp
@[simp] theorem doeAnswer_ceilOk (l : List Byte) (s : State) : (doeAnswer l s).ceilOk = s.ceilOk := by
  unfold doeAnswer; simp
@[simp] theorem doeToWeighhouse_ceilOk (dtype : Nat) (payload : List Byte) (s : State) : (doeToWeighhouse dtype
    payload s).ceilOk = s.ceilOk := by
  unfold doeToWeighhouse; simp
@[simp] theorem msixRelease_ceilOk (v : Nat) (s : State) : (msixRelease v s).ceilOk = s.ceilOk := by
  unfold msixRelease; simp
@[simp] theorem msixPump_ceilOk (s : State) : (msixPump s).ceilOk = s.ceilOk := by
  unfold msixPump; simp
@[simp] theorem setIde_ceilOk (st : IdeStream) (f : Ide → Ide) (s : State) : (setIde st f s).ceilOk = s.ceilOk := by
  unfold setIde; (repeat' split) <;> simp
@[simp] theorem poisonLine_ceilOk (s : State) (a : Nat) : (poisonLine s a).ceilOk = s.ceilOk := by
  unfold poisonLine; simp

/-! ### Machine/ConfigSpace -/
@[simp] theorem vectorControl_ceilOk (v : Nat) (masked : Bool) (s : State) : (vectorControl v masked s).ceilOk = s.ceilOk
    := by
  unfold vectorControl; simp
@[simp] theorem writeVector_ceilOk (v k x : Nat) (s : State) : (writeVector v k x s).ceilOk = s.ceilOk := by
  unfold writeVector; (repeat' split) <;> simp
@[simp] theorem writeConfig_ceilOk (a x : Nat) (s : State) : (writeConfig a x s).ceilOk = s.ceilOk := by
  unfold writeConfig; (repeat' split) <;> simp
@[simp] theorem writeOutsideDword_ceilOk (a x : Nat) (s : State) : (writeOutsideDword a x s).ceilOk = s.ceilOk := by
  unfold writeOutsideDword; (repeat' split) <;> simp
@[simp] theorem writeOutside_ceilOk (offset size : Nat) (v : Word) (s : State) : (writeOutside offset size v s).ceilOk = s.ceilOk := by
  unfold writeOutside; simp

/-! ### Machine/Registers -/
@[simp] theorem logAccess_ceilOk (offset size : Nat) (write : Bool) (s : State) : (logAccess offset size write
    s).ceilOk = s.ceilOk := by
  unfold logAccess; simp
@[simp] theorem refuseAccess_ceilOk (offset size : Nat) (write : Bool) (s : State) : (refuseAccess offset size write
    s).ceilOk = s.ceilOk := by
  unfold refuseAccess; simp
@[simp] theorem writeSq_ceilOk (n k : Nat) (v : Word) (s : State) : (writeSq n k v s).ceilOk = s.ceilOk := by
  unfold writeSq; simp
@[simp] theorem writeCq_ceilOk (n k : Nat) (v : Word) (s : State) : (writeCq n k v s).ceilOk = s.ceilOk := by
  unfold writeCq; simp
@[simp] theorem writeEvq_ceilOk (k : Nat) (v : Word) (s : State) : (writeEvq k v s).ceilOk = s.ceilOk := by
  unfold writeEvq; simp
@[simp] theorem writeGroup_ceilOk (g k : Nat) (v : Word) (s : State) : (writeGroup g k v s).ceilOk = s.ceilOk := by
  unfold writeGroup; simp
@[simp] theorem writeCmd_ceilOk (o : Nat) (v : Word) (s : State) : (writeCmd o v s).ceilOk = s.ceilOk := by
  unfold writeCmd; simp
@[simp] theorem writeHif_ceilOk (o : Nat) (v : Word) (s : State) : (writeHif o v s).ceilOk = s.ceilOk := by
  unfold writeHif; simp
@[simp] theorem writeVfy_ceilOk (o : Nat) (v : Word) (s : State) : (writeVfy o v s).ceilOk = s.ceilOk := by
  unfold writeVfy; simp
@[simp] theorem writeHlk_ceilOk (o : Nat) (v : Word) (s : State) : (writeHlk o v s).ceilOk = s.ceilOk := by
  unfold writeHlk; simp
@[simp] theorem writeDrv_ceilOk (o : Nat) (v : Word) (s : State) : (writeDrv o v s).ceilOk = s.ceilOk := by
  unfold writeDrv; simp
@[simp] theorem writeSpm_ceilOk (o : Nat) (v : Word) (s : State) : (writeSpm o v s).ceilOk = s.ceilOk := by
  unfold writeSpm; simp
@[simp] theorem writePrt_ceilOk (o : Nat) (v : Word) (s : State) : (writePrt o v s).ceilOk = s.ceilOk := by
  unfold writePrt; simp
@[simp] theorem writeMem_ceilOk (o : Nat) (v : Word) (s : State) : (writeMem o v s).ceilOk = s.ceilOk := by
  unfold writeMem; simp
@[simp] theorem writeThm_ceilOk (o : Nat) (v : Word) (s : State) : (writeThm o v s).ceilOk = s.ceilOk := by
  unfold writeThm; simp
@[simp] theorem writePwr_ceilOk (o : Nat) (v : Word) (s : State) : (writePwr o v s).ceilOk = s.ceilOk := by
  unfold writePwr; simp
@[simp] theorem writeCph_ceilOk (o : Nat) (v : Word) (s : State) : (writeCph o v s).ceilOk = s.ceilOk := by
  unfold writeCph; simp
@[simp] theorem writeWh_ceilOk (o : Nat) (v : Word) (s : State) : (writeWh o v s).ceilOk = s.ceilOk := by
  have k : ∀ (u : State) x, ({ u with wh := x } : State).ceilOk = u.ceilOk := fun _ _ => rfl
  unfold writeWh; split
  · exact k _ _
  · rfl
@[simp] theorem writeBlock_ceilOk (offset : Nat) (v : Word) (s : State) : (writeBlock offset v s).ceilOk = s.ceilOk := by
  unfold writeBlock; (repeat' split) <;> simp

/-! ### Machine/Tick -/
@[simp] theorem vfyTransfer_ceilOk (s : State) : (vfyTransfer s).ceilOk = s.ceilOk := by
  unfold vfyTransfer; simp
@[simp] theorem countTick_ceilOk (t : TickInput) (s : State) : (countTick t s).ceilOk = s.ceilOk := by
  unfold countTick; simp
@[simp] theorem shortCheck_ceilOk (t : TickInput) (s : State) : (shortCheck t s).ceilOk = s.ceilOk := by
  unfold shortCheck; simp
@[simp] theorem overrunEvents_ceilOk (t : TickInput) (s : State) : (overrunEvents t s).ceilOk = s.ceilOk := by
  unfold overrunEvents; simp
@[simp] theorem runLost_ceilOk (y0 : Nat) (s : State) (hs : s.ceilOk = true) : (runLost y0 s).ceilOk = true := by
  induction y0 generalizing s with
  | zero => exact hs
  | succ n ih => unfold runLost; exact ih _ (runTick_ceilOk _ _ _ _ hs)
@[simp] theorem sendWriteData_ceilOk (lines : List (List Bool)) (s : State) : (sendWriteData lines s).ceilOk = s.ceilOk := by
  unfold sendWriteData; simp
@[simp] theorem sendTickBits_ceilOk (s t : State) : (sendTickBits s t).ceilOk = t.ceilOk := by
  unfold sendTickBits; (repeat' split) <;> simp
@[simp] theorem writeTick_ceilOk (t : TickInput) (after : Bool) (s : State) (hs : s.ceilOk = true) :
    (writeTick t after s).ceilOk = true := by
  unfold writeTick; simp [hs]
@[simp] theorem transfers_ceilOk (s : State) : (transfers s).ceilOk = s.ceilOk := by
  unfold transfers; simp
@[simp] theorem noteSpeed_ceilOk (inp : List (Nat × Int)) (s : State) : (noteSpeed inp s).ceilOk = s.ceilOk := by
  unfold noteSpeed; (repeat' split) <;> simp
@[simp] theorem droverPart_ceilOk (t : TickInput) (s : State) : (droverPart t s).ceilOk = s.ceilOk := by
  unfold droverPart; simp
@[simp] theorem sendRate_ceilOk (s : State) : (sendRate s).ceilOk = s.ceilOk := by
  unfold sendRate; simp
@[simp] theorem tickTask_ceilOk (t : TickInput) (s : State) : (tickTask t s).ceilOk = s.ceilOk := by
  unfold tickTask; simp
@[simp] theorem taskCheck_ceilOk (t : TickInput) (s : State) (hs : s.ceilOk = true) :
    (taskCheck t s).ceilOk = true := by
  unfold taskCheck; simp [hs]
@[simp] theorem tapeCheck_ceilOk (s : State) (hs : s.ceilOk = true) :
    (tapeCheck s).ceilOk = true := by
  unfold tapeCheck; simp [hs]
@[simp] theorem meetPoison_ceilOk (s : State) : (meetPoison s).ceilOk = s.ceilOk := by
  unfold meetPoison; (repeat' split) <;> simp
@[simp] theorem fullTick_ceilOk (servo after : Bool) (t : TickInput) (s : State) (hs : s.ceilOk = true) :
    (fullTick servo after t s).ceilOk = true := by
  unfold fullTick
  dsimp only
  refine taskCheck_ceilOk _ _ (tapeCheck_ceilOk _ (stopRunIfStopped_ceilOk _ _ ?_))
  rw [tickTask_ceilOk]
  refine droverJobs_ceilOk _ ?_
  rw [sendRate_ceilOk, porterSettle_ceilOk, droverPart_ceilOk, publishThermal_ceilOk]
  refine linkTick_ceilOk _ ?_
  rw [transfers_ceilOk]
  have taken : (takeResults t.verify (meetPoison (overrunEvents t (countTick t (captureTick t.unfinished s))))).ceilOk = true :=
    takeResults_ceilOk _ _ (by simp [hs])
  rw [ite_ceilOk, applyStep_ceilOk, capDown_ceilOk, ite_self]
  have written : ∀ u : State, u.ceilOk = true → (if servo then writeTick t after u else u).ceilOk = true := fun u hu => by
    split
    · exact writeTick_ceilOk _ _ _ hu
    · exact hu
  split
  · rw [shortCheck_ceilOk]
    exact written _ taken
  · exact written _ taken
@[simp] theorem tickWork_ceilOk (servo after : Bool) (t : TickInput) (s : State) (hs : s.ceilOk = true) :
    (tickWork servo after t s).ceilOk = true := by
  unfold tickWork; simp [hs]

end Sys2Proof.Proofs
end

section
/-! PROOFS. The CEIL (06 R153, R154, R157): every command keeps every counter at or below the durable CEIL. -/

namespace Sys2Proof.Proofs

open Sys2Proof.Machine Sys2Proof.Safety Sys2Proof.Laws

theorem blockwise_ceilOk (op jsn : Nat) (s : State) (k : JournalEntry → State → State) (hs : s.ceilOk = true)
    (hk : ∀ e u, u.ceilOk = true → (k e u).ceilOk = true) : Leads (·.ceilOk = true) (blockwise op jsn s k) := by
  unfold blockwise; split
  · exact hk _ _ hs
  · exact onBegin_ceilOk _ _ _ _ hs fun e _ u => hk e u

@[simp] theorem jobInput_ceilOk (addr n : Nat) (s : State) (hs : s.ceilOk = true) : (jobInput addr n s).2.ceilOk = true := by
  simp [hs, jobInput]
@[simp] theorem openFrameAt_ceilOk (addr : Nat) (j : CipherJob) (s : State) (hs : s.ceilOk = true) : (openFrameAt addr j s).2.2.ceilOk = true := by
  simp [hs, openFrameAt]
@[simp] theorem runUnwrap_ceilOk (j : CipherJob) (s : State) (hs : s.ceilOk = true) : (runUnwrap j s).2.ceilOk = true := by
  unfold runUnwrap; dsimp only; split <;> simp [hs]
@[simp] theorem jobDone_ceilOk (j : CipherJob) (o : CipherOutcome) (s : State) (hs : s.ceilOk = true) : (jobDone j o s).2.ceilOk = true := by
  unfold jobDone; split_ifs <;> simp [hs]
/-! ### The commands -/

@[simp] theorem execCmdRingCommitWrite_ceilOk (s : State) (hs : s.ceilOk = true) :
    Leads (·.ceilOk = true) (execCmdRingCommitWrite s) := by
  exact (onMmio_ceilOk s { s with cmd := { s.cmd with commitPending := true } } rfl).trans hs
@[simp] theorem execCmdSqTailWrite_ceilOk (ring value : Nat) (s : State) (hs : s.ceilOk = true) :
    Leads (·.ceilOk = true) (execCmdSqTailWrite ring value s) := by
  simp [hs, execCmdSqTailWrite]
@[simp] theorem execCmdCqHeadWrite_ceilOk (ring value : Nat) (s : State) (hs : s.ceilOk = true) :
    Leads (·.ceilOk = true) (execCmdCqHeadWrite ring value s) := by
  simp [hs, execCmdCqHeadWrite]
@[simp] theorem execCmdEvqHeadWrite_ceilOk (value : Nat) (s : State) (hs : s.ceilOk = true) :
    Leads (·.ceilOk = true) (execCmdEvqHeadWrite value s) := by
  simp [hs, execCmdEvqHeadWrite]
@[simp] theorem execSqEntryFetch_ceilOk (ring : Nat) (words : List Word) (s : State) (hs : s.ceilOk = true) :
    Leads (·.ceilOk = true) (execSqEntryFetch ring words s) := by
  simp only [execSqEntryFetch, leads_next]; (repeat' split) <;> simp [hs]
@[simp] theorem execCmdCtrSopWrite_ceilOk (w : Word) (s : State) (hs : s.ceilOk = true) :
    Leads (·.ceilOk = true) (execCmdCtrSopWrite w s) := by
  simp [hs, execCmdCtrSopWrite]
@[simp] theorem execCmdCtrDataWrite_ceilOk (w : Word) (s : State) (hs : s.ceilOk = true) :
    Leads (·.ceilOk = true) (execCmdCtrDataWrite w s) := by
  simp [hs, execCmdCtrDataWrite]
@[simp] theorem execFlush_ceilOk (s : State) (hs : s.ceilOk = true) :
    Leads (·.ceilOk = true) (execFlush s) := by
  simp [hs, execFlush]
@[simp] theorem execClrCounts_ceilOk (s : State) (hs : s.ceilOk = true) :
    Leads (·.ceilOk = true) (execClrCounts s) := by
  simp [hs, execClrCounts]
@[simp] theorem execCmdCompatWrite_ceilOk (value : Word) (s : State) (hs : s.ceilOk = true) :
    Leads (·.ceilOk = true) (execCmdCompatWrite value s) := by
  simp [hs, execCmdCompatWrite]
@[simp] theorem execEvgStatusClear_ceilOk (group : Nat) (value sameCycle : BitVec 32) (s : State) (hs : s.ceilOk = true) :
    Leads (·.ceilOk = true) (execEvgStatusClear group value sameCycle s) := by
  simp [hs, execEvgStatusClear]
@[simp] theorem execJournalEntryDurable_ceilOk (jsn : Nat) (s : State) (hs : s.ceilOk = true) :
    Leads (·.ceilOk = true) (execJournalEntryDurable jsn s) := by
  unfold execJournalEntryDurable; split <;> simp [hs]
@[simp] theorem execJournalSlotFreed_ceilOk (jsn : Nat) (s : State) (hs : s.ceilOk = true) :
    Leads (·.ceilOk = true) (execJournalSlotFreed jsn s) := by
  unfold execJournalSlotFreed; split <;> simp [hs]
@[simp] theorem execManagementPacket_ceilOk (words : List Word) (s : State) (hs : s.ceilOk = true) :
    Leads (·.ceilOk = true) (execManagementPacket words s) := by
  simp [hs, execManagementPacket]
@[simp] theorem execUnitReport_ceilOk (unit state : Nat) (s : State) (hs : s.ceilOk = true) :
    Leads (·.ceilOk = true) (execUnitReport unit state s) := by
  simp [hs, execUnitReport]
@[simp] theorem execMgtEidAssigned_ceilOk (eid dynAddr : Nat) (s : State) (hs : s.ceilOk = true) :
    Leads (·.ceilOk = true) (execMgtEidAssigned eid dynAddr s) := by
  simp [hs, execMgtEidAssigned]
@[simp] theorem execAlloc_ceilOk (owner size : Nat) (wait : Bool) (s : State) (hs : s.ceilOk = true) :
    Leads (·.ceilOk = true) (execAlloc owner size wait s) := by
  simp [hs, execAlloc]
@[simp] theorem execShare_ceilOk (owner : Nat) (h : Word) (new : Nat) (s : State) (hs : s.ceilOk = true) :
    Leads (·.ceilOk = true) (execShare owner h new s) := by
  simp [hs, execShare]
@[simp] theorem execRelease_ceilOk (owner : Nat) (h : Word) (s : State) (hs : s.ceilOk = true) :
    Leads (·.ceilOk = true) (execRelease owner h s) := by
  simp [hs, execRelease]
@[simp] theorem execTransfer_ceilOk (owner : Nat) (h : Word) (dest : Nat) (s : State) (hs : s.ceilOk = true) :
    Leads (·.ceilOk = true) (execTransfer owner h dest s) := by
  simp [hs, execTransfer]
@[simp] theorem execFree_ceilOk (owner : Nat) (h : Word) (s : State) (hs : s.ceilOk = true) :
    Leads (·.ceilOk = true) (execFree owner h s) := by
  simp [hs, execFree]
@[simp] theorem execOpenContext_ceilOk (jsn : Nat) (s : State) (hs : s.ceilOk = true) :
    Leads (·.ceilOk = true) (execOpenContext jsn s) := by
  unfold execOpenContext; refine onBegin_ceilOk _ _ _ _ hs fun e r u h => ?_; dsimp only; (repeat' split) <;> simp [h]
@[simp] theorem execCloseContext_ceilOk (jsn : Nat) (s : State) (hs : s.ceilOk = true) :
    Leads (·.ceilOk = true) (execCloseContext jsn s) := by
  unfold execCloseContext; refine onBegin_ceilOk _ _ _ _ hs fun e r u h => ?_; dsimp only; (repeat' split) <;> simp [h]
@[simp] theorem execSetContextProfile_ceilOk (jsn : Nat) (s : State) (hs : s.ceilOk = true) :
    Leads (·.ceilOk = true) (execSetContextProfile jsn s) := by
  unfold execSetContextProfile; refine onBegin_ceilOk _ _ _ _ hs fun e r u h => ?_; dsimp only; (repeat' split) <;> simp [h]
@[simp] theorem execReadOverflow_ceilOk (jsn : Nat) (part : Option Nat) (s : State) (hs : s.ceilOk = true) :
    Leads (·.ceilOk = true) (execReadOverflow jsn part s) := by
  unfold execReadOverflow; dsimp only; split
  · (repeat' split) <;> simp [hs]
  · refine onBegin_ceilOk _ _ _ _ hs fun e r u h => ?_; (repeat' split) <;> simp [h]
@[simp] theorem execCxlMemRead_ceilOk (hpa : Nat) (s : State) (hs : s.ceilOk = true) :
    Leads (·.ceilOk = true) (execCxlMemRead hpa s) := by
  unfold execCxlMemRead; split <;> simp [hs]
@[simp] theorem execMemWr_ceilOk (hpa : Nat) (data : List Byte) (s : State) (hs : s.ceilOk = true) :
    Leads (·.ceilOk = true) (execMemWr hpa data s) := by
  unfold execMemWr; split <;> simp [hs]
@[simp] theorem execMemWrPtl_ceilOk (hpa : Nat) (data : List (Option Byte)) (s : State) (hs : s.ceilOk = true) :
    Leads (·.ceilOk = true) (execMemWrPtl hpa data s) := by
  unfold execMemWrPtl; split <;> simp [hs]
@[simp] theorem execPatrolScrub_ceilOk (hbm : Bool) (addr : Nat) (s : State) (hs : s.ceilOk = true) :
    Leads (·.ceilOk = true) (execPatrolScrub hbm addr s) := by
  simp [hs, execPatrolScrub]
@[simp] theorem execPcRetrainDone_ceilOk (passed : Bool) (at_ : Nat) (s : State) (hs : s.ceilOk = true) :
    Leads (·.ceilOk = true) (execPcRetrainDone passed at_ s) := by
  simp only [execPcRetrainDone, leads_next]; split <;> simp [hs]
@[simp] theorem execArm_ceilOk (value : Word) (s : State) (hs : s.ceilOk = true) :
    Leads (·.ceilOk = true) (execArm value s) := by
  simp [hs, execArm]
@[simp] theorem execSetContextKey_ceilOk (jsn : Nat) (s : State) (hs : s.ceilOk = true) :
    Leads (·.ceilOk = true) (execSetContextKey jsn s) := by
  unfold execSetContextKey; refine onBegin_ceilOk _ _ _ _ hs fun e r s h => ?_; dsimp only; (repeat' split) <;> simp [h]
@[simp] theorem execCphRqPush_ceilOk (desc : List Word) (s : State) (hs : s.ceilOk = true) :
    Leads (·.ceilOk = true) (execCphRqPush desc s) := by
  simp [hs, execCphRqPush]
@[simp] theorem execCphRqCancel_ceilOk (cookie : Word) (s : State) (hs : s.ceilOk = true) :
    Leads (·.ceilOk = true) (execCphRqCancel cookie s) := by
  simp [hs, execCphRqCancel]
@[simp] theorem execCphCqPop_ceilOk (s : State) (hs : s.ceilOk = true) :
    Leads (·.ceilOk = true) (execCphCqPop s) := by
  unfold execCphCqPop; split <;> simp [hs]
@[simp] theorem execCphRequestComplete_ceilOk (lane : Nat) (o : CipherOutcome) (s : State) (hs : s.ceilOk = true) :
    Leads (·.ceilOk = true) (execCphRequestComplete lane o s) := by
  unfold execCphRequestComplete; dsimp only; split
  · exact hs
  · next j _ => simp [hs, jobDone_ceilOk]
@[simp] theorem execCeilRaiseDurable_ceilOk (s : State) (hs : s.ceilOk = true) :
    Leads (·.ceilOk = true) (execCeilRaiseDurable s) := by
  unfold execCeilRaiseDurable; split
  · exact hs
  · next c hc =>
    have written : (writeCeil c { s with mram := { s.mram with ceilNext := none } }).ceilOk = true :=
      writeCeil_ceilOk (((ceilInv_iff s).2 hs).2 c hc) rfl (ceilOkOf_none hs)
    simp [written]
@[simp] theorem execWriteRecords_ceilOk (jsn : Nat) (list : Option (List ListEntry)) (s : State) (hs : s.ceilOk = true) :
    Leads (·.ceilOk = true) (execWriteRecords jsn list s) := by
  unfold execWriteRecords; refine onTape_ceilOk _ _ _ _ hs fun e r u h => ?_; dsimp only; (repeat' split) <;> simp [h]
@[simp] theorem execWriteFilemarks_ceilOk (jsn : Nat) (s : State) (hs : s.ceilOk = true) :
    Leads (·.ceilOk = true) (execWriteFilemarks jsn s) := by
  unfold execWriteFilemarks; refine onBegin_ceilOk _ _ _ _ hs fun e r u h => ?_; dsimp only; (repeat' split) <;> simp [h]
@[simp] theorem execSync_ceilOk (jsn : Nat) (s : State) (hs : s.ceilOk = true) :
    Leads (·.ceilOk = true) (execSync jsn s) := by
  unfold execSync; refine onBegin_ceilOk _ _ _ _ hs fun e r u h => ?_; simp [h]
@[simp] theorem execHostRecordFetch_ceilOk (jsn : Nat) (bytes : List Byte) (macOk : Bool) (s : State) (hs : s.ceilOk = true) :
    Leads (·.ceilOk = true) (execHostRecordFetch jsn bytes macOk s) := by
  unfold execHostRecordFetch; split
  · next w r _ _ =>
    have pulled := pullHdm_ceilOk r.list.length jsn s hs
    dsimp only
    split
    · exact hs
    · split
      · exact pulled
      · split
        · exact afterWrites_ceilOk _ (by simp [pulled])
        · refine afterWrites_ceilOk _ ?_
          rw [fitBuffers_ceilOk]
          refine pullHdm_ceilOk _ _ _ ?_
          (repeat' split) <;> simp [pulled]
  · exact hs
@[simp] theorem execPkrBlockEncoded_ceilOk (jsn lane : Nat) (s : State) (hs : s.ceilOk = true) :
    Leads (·.ceilOk = true) (execPkrBlockEncoded jsn lane s) := by
  unfold execPkrBlockEncoded; split <;> simp [hs]
@[simp] theorem execPkrSelfcheck_ceilOk (jsn lane : Nat) (pass retryPass : Bool) (s : State) (hs : s.ceilOk = true) :
    Leads (·.ceilOk = true) (execPkrSelfcheck jsn lane pass retryPass s) := by
  unfold execPkrSelfcheck; dsimp only; (repeat' split)
  · exact hs
  · exact hs
  · simp [hs]
  · simp [hs]
  · rw [leads_next, setWrite_ceilOk, setUnit_ceilOk, raiseP_ceilOk]
    exact ((raiseP_ceilOk evPkrSelfcheckFail _ _).trans (markRetried_ceilOk jsn _)).trans hs
@[simp] theorem execFormatterPlaceBlock_ceilOk (jsn lane : Nat) (check retry : Bool) (s : State) (hs : s.ceilOk = true) :
    Leads (·.ceilOk = true) (execFormatterPlaceBlock jsn lane check retry s) := by
  unfold execFormatterPlaceBlock; (repeat' split) <;> simp [hs]
@[simp] theorem execDatasetIdleClose_ceilOk (at_ : Nat) (s : State) (hs : s.ceilOk = true) :
    Leads (·.ceilOk = true) (execDatasetIdleClose at_ s) := by
  simp only [execDatasetIdleClose, leads_next]; split <;> simp [hs]
@[simp] theorem execWritingRunStart_ceilOk (at_ : Nat) (atStep : Bool) (s : State) (hs : s.ceilOk = true) :
    Leads (·.ceilOk = true) (execWritingRunStart at_ atStep s) := by
  simp only [execWritingRunStart, leads_next]; (repeat' split) <;> simp [hs]
@[simp] theorem execCmStatusWrite_ceilOk (s : State) (hs : s.ceilOk = true) :
    Leads (·.ceilOk = true) (execCmStatusWrite s) := by
  simp [hs, execCmStatusWrite]
@[simp] theorem execDatasetRelease_ceilOk (s : State) (hs : s.ceilOk = true) :
    Leads (·.ceilOk = true) (execDatasetRelease s) := by
  unfold execDatasetRelease; (repeat' split) <;> simp [hs]
@[simp] theorem execReleaseRecordDurable_ceilOk (seq : Nat) (s : State) (hs : s.ceilOk = true) :
    Leads (·.ceilOk = true) (execReleaseRecordDurable seq s) := by
  unfold execReleaseRecordDurable; split <;> simp [hs]
@[simp] theorem execLoad_ceilOk (jsn : Nat) (done : Bool) (s : State) (hs : s.ceilOk = true) :
    Leads (·.ceilOk = true) (execLoad jsn done s) := by
  unfold execLoad; refine onMotion_ceilOk _ _ _ _ _ hs fun e r u h => ?_; dsimp only
  have loads : (loadCart (dropHeld u)).2.ceilOk = true := by simp [h]
  (repeat' split)
  · simp [h]
  · simp [h]
  · next heq => rw [heq] at loads; simp [loads]
  · next heq => rw [heq] at loads; simp [loads]
@[simp] theorem execUnload_ceilOk (jsn : Nat) (done : Bool) (s : State) (hs : s.ceilOk = true) :
    Leads (·.ceilOk = true) (execUnload jsn done s) := by
  unfold execUnload; refine onMotion_ceilOk _ _ _ _ _ hs fun e r u h => ?_; (repeat' split) <;> simp [h]
@[simp] theorem execRewind_ceilOk (jsn : Nat) (done : Bool) (s : State) (hs : s.ceilOk = true) :
    Leads (·.ceilOk = true) (execRewind jsn done s) := by
  unfold execRewind
  exact onMotion_ceilOk _ _ _ _ _ hs fun e r u h => withPartition_ceilOk _ _ _ _ h fun c v hv => by simp [hv]
@[simp] theorem execLocate_ceilOk (jsn : Nat) (done : Bool) (s : State) (hs : s.ceilOk = true) :
    Leads (·.ceilOk = true) (execLocate jsn done s) := by
  unfold execLocate
  exact onMove_ceilOk _ _ _ _ _ hs fun e r u h => withPartition_ceilOk _ _ _ _ h fun c v hv => by dsimp only; split <;> simp [hv]
@[simp] theorem execSpace_ceilOk (jsn : Nat) (passed : Option Nat) (s : State) (hs : s.ceilOk = true) :
    Leads (·.ceilOk = true) (execSpace jsn passed s) := by
  have noted : (match passed with | some n => setRun jsn (fun r => { r with done := n }) s | none => s).ceilOk = true := by
    split <;> simp [hs]
  unfold execSpace
  exact onMove_ceilOk _ _ _ _ _ noted fun e r u h => withPartition_ceilOk _ _ _ _ h fun c v hv => by
    dsimp only; split <;> simp [hv]
@[simp] theorem execFormatPartitions_ceilOk (jsn : Nat) (s : State) (hs : s.ceilOk = true) :
    Leads (·.ceilOk = true) (execFormatPartitions jsn s) := by
  unfold execFormatPartitions; refine onTape_ceilOk _ _ _ _ hs fun e r u h => ?_; dsimp only; (repeat' split) <;> simp [h]
@[simp] theorem execFmtDatasetInfo_ceilOk (jsn : Nat) (s : State) (hs : s.ceilOk = true) :
    Leads (·.ceilOk = true) (execFmtDatasetInfo jsn s) := by
  unfold execFmtDatasetInfo
  exact onTape_ceilOk _ _ _ _ hs fun e r u h => withPartition_ceilOk _ _ _ _ h fun c v hv => by dsimp only; split <;> simp [hv]
@[simp] theorem execFmtCmAccess_ceilOk (jsn : Nat) (bytes : List Byte) (s : State) (hs : s.ceilOk = true) :
    Leads (·.ceilOk = true) (execFmtCmAccess jsn bytes s) := by
  unfold execFmtCmAccess; refine onBegin_ceilOk _ _ _ _ hs fun e r u h => ?_; dsimp only; (repeat' split) <;> simp [h]
@[simp] theorem execC3Decode_ceilOk (seq subset : Nat) (s : State) (hs : s.ceilOk = true) :
    Leads (·.ceilOk = true) (execC3Decode seq subset s) := by
  unfold execC3Decode; split <;> simp [hs]
@[simp] theorem execReadAutoRetry_ceilOk (seq : Nat) (found : Bool) (slots : List SlotReading) (s : State) (hs : s.ceilOk = true) :
    Leads (·.ceilOk = true) (execReadAutoRetry seq found slots s) := by
  simp only [execReadAutoRetry, leads_next]; (repeat' split) <;> simp [hs]
@[simp] theorem execRecoveryPass_ceilOk (seq : Nat) (found : Bool) (slots : List SlotReading) (s : State) (hs : s.ceilOk = true) :
    Leads (·.ceilOk = true) (execRecoveryPass seq found slots s) := by
  unfold execRecoveryPass; split <;> simp [hs]
@[simp] theorem execSubdatasetDecode_ceilOk (seq subset : Nat) (found : Bool) (ahead : Nat) (slots : List SlotReading) (s : State) (hs : s.ceilOk = true) :
    Leads (·.ceilOk = true) (execSubdatasetDecode seq subset found ahead slots s) := by
  unfold execSubdatasetDecode; split <;> simp [hs]
@[simp] theorem execReadRecords_ceilOk (jsn : Nat) (tags : List TagFailure) (s : State) (hs : s.ceilOk = true) :
    Leads (·.ceilOk = true) (execReadRecords jsn tags s) := by
  unfold execReadRecords
  exact onTape_ceilOk _ _ _ _ hs fun e r u h => withPartition_ceilOk _ _ _ _ h fun c v hv => by
    dsimp only; (repeat' split) <;> simp [hv]
@[simp] theorem execVerifyRange_ceilOk (jsn : Nat) (tags : List TagFailure) (s : State) (hs : s.ceilOk = true) :
    Leads (·.ceilOk = true) (execVerifyRange jsn tags s) := by
  unfold execVerifyRange
  refine onTape_ceilOk _ _ _ _ hs fun e r u h => ?_
  dsimp only; split
  · simp [h]
  · exact withPartition_ceilOk _ _ _ _ h fun c v hv => by simp [hv]
@[simp] theorem execDrvSetSection_ceilOk (jsn : Nat) (s : State) (hs : s.ceilOk = true) :
    Leads (·.ceilOk = true) (execDrvSetSection jsn s) := by
  unfold execDrvSetSection
  exact onBegin_ceilOk _ _ _ _ hs fun e r u h => needUnits_ceilOk _ _ _ _ h fun v hv => by simp [hv]
@[simp] theorem execDrvSetMode_ceilOk (jsn : Nat) (s : State) (hs : s.ceilOk = true) :
    Leads (·.ceilOk = true) (execDrvSetMode jsn s) := by
  unfold execDrvSetMode; refine onTape_ceilOk _ _ _ _ hs fun e r u h => ?_; dsimp only; simp [h]
@[simp] theorem execDrvMove_ceilOk (jsn at_ : Nat) (s : State) (hs : s.ceilOk = true) :
    Leads (·.ceilOk = true) (execDrvMove jsn at_ s) := by
  unfold execDrvMove; refine onTape_ceilOk _ _ _ _ hs fun e r u h => ?_; dsimp only; simp [h]
@[simp] theorem execDrvMoveTimeout_ceilOk (jsn at_ : Nat) (s : State) (hs : s.ceilOk = true) :
    Leads (·.ceilOk = true) (execDrvMoveTimeout jsn at_ s) := by
  simp only [execDrvMoveTimeout, leads_next]; (repeat' split) <;> simp [hs]
@[simp] theorem execDrvCapture_ceilOk (jsn : Nat) (s : State) (hs : s.ceilOk = true) :
    Leads (·.ceilOk = true) (execDrvCapture jsn s) := by
  unfold execDrvCapture
  refine onBegin_ceilOk _ _ _ _ hs fun e r u h => needUnits_ceilOk _ _ _ _ h fun v hv => ?_
  split
  · simp [hv]
  · exact ((setRun_ceilOk jsn (fun r => { r with done := 0 }) (startRun jsn v)).trans (startRun_ceilOk jsn v)).trans hv
@[simp] theorem execDrvCommitWrite_ceilOk (s : State) (hs : s.ceilOk = true) :
    Leads (·.ceilOk = true) (execDrvCommitWrite s) := by
  exact (onMmio_ceilOk s { s with drv := { s.drv with commit := { s.drv.commit with pending := true } } } rfl).trans hs
@[simp] theorem execDrvCoefWrite_ceilOk (loop sec reg : Nat) (value : Word) (s : State) (hs : s.ceilOk = true) :
    Leads (·.ceilOk = true) (execDrvCoefWrite loop sec reg value s) := by
  simp [hs, execDrvCoefWrite]
@[simp] theorem execDrvModeWrite_ceilOk (loop : Nat) (value : Word) (s : State) (hs : s.ceilOk = true) :
    Leads (·.ceilOk = true) (execDrvModeWrite loop value s) := by
  simp [hs, execDrvModeWrite]
@[simp] theorem execDrvTargetWrite_ceilOk (loop : Nat) (value : Word) (s : State) (hs : s.ceilOk = true) :
    Leads (·.ceilOk = true) (execDrvTargetWrite loop value s) := by
  simp [hs, execDrvTargetWrite]
@[simp] theorem execDrvMonCommitWrite_ceilOk (s : State) (hs : s.ceilOk = true) :
    Leads (·.ceilOk = true) (execDrvMonCommitWrite s) := by
  exact (onMmio_ceilOk s { s with mon := { s.mon with commit := { s.mon.commit with pending := true } } } rfl).trans hs
@[simp] theorem execSpmCommitWrite_ceilOk (s : State) (hs : s.ceilOk = true) :
    Leads (·.ceilOk = true) (execSpmCommitWrite s) := by
  exact (onMmio_ceilOk s { s with spm := { s.spm with commit := { s.spm.commit with pending := true } } } rfl).trans hs
@[simp] theorem execServoMeasurementPost_ceilOk (m : List (Nat × Int)) (cycle : Nat) (s : State) (hs : s.ceilOk = true) :
    Leads (·.ceilOk = true) (execServoMeasurementPost m cycle s) := by
  simp [hs, execServoMeasurementPost]
@[simp] theorem execDacWriteDone_ceilOk (s : State) (hs : s.ceilOk = true) :
    Leads (·.ceilOk = true) (execDacWriteDone s) := by
  simp [hs, execDacWriteDone]
@[simp] theorem execDiagSafeStop_ceilOk (jsn : Nat) (s : State) (hs : s.ceilOk = true) :
    Leads (·.ceilOk = true) (execDiagSafeStop jsn s) := by
  unfold execDiagSafeStop; split
  · exact hs
  · exact onTape_ceilOk _ _ _ _ hs fun e r u h => stopRunIfStopped_ceilOk _ _ (by simp [h])
@[simp] theorem execSafeStopEnd_ceilOk (at_ : Nat) (s : State) (hs : s.ceilOk = true) :
    Leads (·.ceilOk = true) (execSafeStopEnd at_ s) := by
  simp only [execSafeStopEnd, leads_next]; (repeat' split) <;> simp [hs]
@[simp] theorem execSafeStopRetry_ceilOk (failed : List Nat) (at_ : Nat) (s : State) (hs : s.ceilOk = true) :
    Leads (·.ceilOk = true) (execSafeStopRetry failed at_ s) := by
  simp only [execSafeStopRetry, leads_next]; (repeat' split) <;> simp [hs]
@[simp] theorem execServoFrameDetected_ceilOk (fast : Bool) (s : State) (hs : s.ceilOk = true) :
    Leads (·.ceilOk = true) (execServoFrameDetected fast s) := by
  simp [hs, execServoFrameDetected]
@[simp] theorem execServoLoss_ceilOk (at_ : Nat) (s : State) (hs : s.ceilOk = true) :
    Leads (·.ceilOk = true) (execServoLoss at_ s) := by
  simp [hs, execServoLoss]
@[simp] theorem execServoLossTimeout_ceilOk (sfn at_ : Nat) (s : State) (hs : s.ceilOk = true) :
    Leads (·.ceilOk = true) (execServoLossTimeout sfn at_ s) := by
  simp only [execServoLossTimeout, leads_next]; (repeat' split) <;> simp [hs]
@[simp] theorem execHlkLinkTraining_ceilOk (t : TrainResult) (s : State) (hs : s.ceilOk = true) :
    Leads (·.ceilOk = true) (execHlkLinkTraining t s) := by
  simp [hs, execHlkLinkTraining]
@[simp] theorem execSamples_ceilOk (f : LinkFrame) (s : State) (hs : s.ceilOk = true) :
    Leads (·.ceilOk = true) (execSamples f s) := by
  simp [hs, execSamples]
@[simp] theorem execServo_ceilOk (f : LinkFrame) (s : State) (hs : s.ceilOk = true) :
    Leads (·.ceilOk = true) (execServo f s) := by
  simp [hs, execServo]
@[simp] theorem execStatus_ceilOk (f : LinkFrame) (s : State) (hs : s.ceilOk = true) :
    Leads (·.ceilOk = true) (execStatus f s) := by
  simp [hs, execStatus]
theorem onFrame_keeps_ceilOk (ftype : Nat) (f : LinkFrame) (s : State) (k : HeadFrame → State → State) (hs : s.ceilOk = true)
    (hk : ∀ h u, u.ceilOk = true → (k h u).ceilOk = true) : (onFrame ftype f s k).ceilOk = true := by
  unfold onFrame; dsimp only; (repeat' split) <;> simp [hs, hk]

@[simp] theorem execReply_ceilOk (f : LinkFrame) (s : State) (hs : s.ceilOk = true) : Leads (·.ceilOk = true) (execReply f s) := by
  unfold execReply
  exact onFrame_keeps_ceilOk _ _ _ _ hs fun _ _ hu => hu
@[simp] theorem execIdent_ceilOk (f : LinkFrame) (s : State) (hs : s.ceilOk = true) : Leads (·.ceilOk = true) (execIdent f s) := by
  unfold execIdent
  refine onFrame_keeps_ceilOk _ _ _ _ hs fun h u hu => ?_
  dsimp only; split
  · exact hu
  · exact mismatch_ceilOk _ _ hu
@[simp] theorem execBlockLockLoss_ceilOk (lane : Nat) (s : State) (hs : s.ceilOk = true) :
    Leads (·.ceilOk = true) (execBlockLockLoss lane s) := by
  simp [hs, execBlockLockLoss]
@[simp] theorem execReorderTimeout_ceilOk (lane source missing : Nat) (s : State) (hs : s.ceilOk = true) :
    Leads (·.ceilOk = true) (execReorderTimeout lane source missing s) := by
  refine leads_of_eq rfl ?_
  cases (s.hlk.ahead.filter (·.1 == source)).map (·.2.1) with
  | nil => exact hs
  | cons i t => exact ((drainAhead_ceilOk ..).trans ((takeItems_ceilOk ..).trans (modLane_ceilOk lane _ s))).trans hs
@[simp] theorem execLaneRetrainDone_ceilOk (passed : Bool) (at_ : Nat) (s : State) (hs : s.ceilOk = true) :
    Leads (·.ceilOk = true) (execLaneRetrainDone passed at_ s) := by
  simp only [execLaneRetrainDone, leads_next]; split <;> simp [hs]
@[simp] theorem execHlkCommitWrite_ceilOk (s : State) (hs : s.ceilOk = true) :
    Leads (·.ceilOk = true) (execHlkCommitWrite s) := by
  exact (onMmio_ceilOk s { s with hlk := { s.hlk with commit := { s.hlk.commit with pending := true } } } rfl).trans hs
@[simp] theorem execHlkLaneRetrain_ceilOk (lane : Nat) (s : State) (hs : s.ceilOk = true) :
    Leads (·.ceilOk = true) (execHlkLaneRetrain lane s) := by
  simp [hs, execHlkLaneRetrain]
@[simp] theorem execHlkLaneRetire_ceilOk (lane : Nat) (s : State) (hs : s.ceilOk = true) :
    Leads (·.ceilOk = true) (execHlkLaneRetire lane s) := by
  simp [hs, execHlkLaneRetire]
@[simp] theorem execThermalSample_ceilOk (sensor : Nat) (raw : Int) (at_ : Nat) (s : State) (hs : s.ceilOk = true) :
    Leads (·.ceilOk = true) (execThermalSample sensor raw at_ s) := by
  simp only [execThermalSample, leads_next]; split <;> simp [hs]
@[simp] theorem execThmSensorLasting_ceilOk (sensor at_ : Nat) (s : State) (hs : s.ceilOk = true) :
    Leads (·.ceilOk = true) (execThmSensorLasting sensor at_ s) := by
  simp only [execThmSensorLasting, leads_next]; split <;> simp [hs]
@[simp] theorem execThrottleEvaluation_ceilOk (at_ : Nat) (s : State) (hs : s.ceilOk = true) :
    Leads (·.ceilOk = true) (execThrottleEvaluation at_ s) := by
  simp only [execThrottleEvaluation, leads_next]; split <;> simp [hs]
@[simp] theorem execThermalStop_ceilOk (at_ : Nat) (s : State) (hs : s.ceilOk = true) :
    Leads (·.ceilOk = true) (execThermalStop at_ s) := by
  simp only [execThermalStop, leads_next]; split <;> simp [hs]
@[simp] theorem execThermalLimitTimeout_ceilOk (jsn at_ : Nat) (s : State) (hs : s.ceilOk = true) :
    Leads (·.ceilOk = true) (execThermalLimitTimeout jsn at_ s) := by
  simp only [execThermalLimitTimeout, leads_next]; (repeat' split) <;> simp [hs]
@[simp] theorem execThmCommitWrite_ceilOk (s : State) (hs : s.ceilOk = true) :
    Leads (·.ceilOk = true) (execThmCommitWrite s) := by
  exact (onMmio_ceilOk s { s with thm := { s.thm with commit := { s.thm.commit with pending := true } } } rfl).trans hs
@[simp] theorem execTallyResendTimeout_ceilOk (at_ : Nat) (s : State) (hs : s.ceilOk = true) :
    Leads (·.ceilOk = true) (execTallyResendTimeout at_ s) := by
  simp [hs, execTallyResendTimeout]
@[simp] theorem execWhStatusPublish_ceilOk (at_ : Nat) (temp : Int) (s : State) (hs : s.ceilOk = true) :
    Leads (·.ceilOk = true) (execWhStatusPublish at_ temp s) := by
  simp [hs, execWhStatusPublish]
@[simp] theorem execWhUnavailable_ceilOk (at_ : Nat) (s : State) (hs : s.ceilOk = true) :
    Leads (·.ceilOk = true) (execWhUnavailable at_ s) := by
  simp [hs, execWhUnavailable]
@[simp] theorem execWhRetryExpiry_ceilOk (at_ : Nat) (s : State) (hs : s.ceilOk = true) :
    Leads (·.ceilOk = true) (execWhRetryExpiry at_ s) := by
  simp only [execWhRetryExpiry, leads_next]; split <;> simp [hs]
@[simp] theorem execFormationBlockTimeout_ceilOk (at_ : Nat) (s : State) (hs : s.ceilOk = true) :
    Leads (·.ceilOk = true) (execFormationBlockTimeout at_ s) := by
  simp [hs, execFormationBlockTimeout]
@[simp] theorem execEpochWaitTimeout_ceilOk (jsn at_ : Nat) (s : State) (hs : s.ceilOk = true) :
    Leads (·.ceilOk = true) (execEpochWaitTimeout jsn at_ s) := by
  simp only [execEpochWaitTimeout, leads_next]; split <;> simp [hs]
@[simp] theorem execExtend_ceilOk (stage : Nat) (digest : List Byte) (s : State) (hs : s.ceilOk = true) :
    Leads (·.ceilOk = true) (execExtend stage digest s) := by
  simp [hs, execExtend]
@[simp] theorem execClose_ceilOk (s : State) (hs : s.ceilOk = true) :
    Leads (·.ceilOk = true) (execClose s) := by
  simp [hs, execClose]
@[simp] theorem execLedgerGet_ceilOk (firstEpoch count : Nat) (s : State) (hs : s.ceilOk = true) :
    Leads (·.ceilOk = true) (execLedgerGet firstEpoch count s) := by
  simp [hs, execLedgerGet]
@[simp] theorem execStatement_ceilOk (r : StatementReq) (s : State) (hs : s.ceilOk = true) :
    Leads (·.ceilOk = true) (execStatement r s) := by
  simp [hs, execStatement]
@[simp] theorem execSpdm_ceilOk (mctp : Bool) (msg : List Byte) (s : State) (hs : s.ceilOk = true) :
    Leads (·.ceilOk = true) (execSpdm mctp msg s) := by
  simp [hs, execSpdm]
@[simp] theorem execGetMeasurements_ceilOk (mctp : Bool) (index : Nat) (s : State) (hs : s.ceilOk = true) :
    Leads (·.ceilOk = true) (execGetMeasurements mctp index s) := by
  simp [hs, execGetMeasurements]
@[simp] theorem execIdeKm_ceilOk (stream : IdeStream) (msg : List Byte) (s : State) (hs : s.ceilOk = true) :
    Leads (·.ceilOk = true) (execIdeKm stream msg s) := by
  simp [hs, execIdeKm]
@[simp] theorem execMarkRead_ceilOk (epochs : List Nat) (s : State) (hs : s.ceilOk = true) :
    Leads (·.ceilOk = true) (execMarkRead epochs s) := by
  simp [hs, execMarkRead]
@[simp] theorem execSend_ceilOk (s : State) (hs : s.ceilOk = true) :
    Leads (·.ceilOk = true) (execSend s) := by
  simp [hs, execSend]
@[simp] theorem execRomExit_ceilOk (s : State) (hs : s.ceilOk = true) :
    Leads (·.ceilOk = true) (execRomExit s) := by
  simp [hs, execRomExit]
@[simp] theorem execWhMbPop_ceilOk (s : State) (hs : s.ceilOk = true) :
    Leads (·.ceilOk = true) (execWhMbPop s) := by
  simp [hs, execWhMbPop]
@[simp] theorem execWhRstN_ceilOk (s : State) (hs : s.ceilOk = true) :
    Leads (·.ceilOk = true) (execWhRstN s) := by
  simp [hs, execWhRstN]
@[simp] theorem execWhSupplyLoss_ceilOk (s : State) (hs : s.ceilOk = true) :
    Leads (·.ceilOk = true) (execWhSupplyLoss s) := by
  simp [hs, execWhSupplyLoss]
@[simp] theorem execWhTimeCheckpoint_ceilOk (s : State) (hs : s.ceilOk = true) :
    Leads (·.ceilOk = true) (execWhTimeCheckpoint s) := by
  simp [hs, execWhTimeCheckpoint]
@[simp] theorem execLedgerRead_ceilOk (jsn : Nat) (s : State) (hs : s.ceilOk = true) :
    Leads (·.ceilOk = true) (execLedgerRead jsn s) := by
  unfold execLedgerRead; refine onBegin_ceilOk _ _ _ _ hs fun e r u h => ?_; dsimp only; (repeat' split) <;> simp [h]
@[simp] theorem execMeterStatement_ceilOk (jsn : Nat) (s : State) (hs : s.ceilOk = true) :
    Leads (·.ceilOk = true) (execMeterStatement jsn s) := by
  unfold execMeterStatement; refine onBegin_ceilOk _ _ _ _ hs fun e r u h => ?_; dsimp only; (repeat' split) <;> simp [h]
@[simp] theorem execNop_ceilOk (jsn : Nat) (s : State) (hs : s.ceilOk = true) :
    Leads (·.ceilOk = true) (execNop jsn s) := by
  unfold execNop; refine onBegin_ceilOk _ _ _ _ hs fun e r u h => ?_; split <;> simp [h]
@[simp] theorem execNopDelayExpiry_ceilOk (jsn : Nat) (s : State) (hs : s.ceilOk = true) :
    Leads (·.ceilOk = true) (execNopDelayExpiry jsn s) := by
  unfold execNopDelayExpiry; split <;> simp [hs]
@[simp] theorem execIdentify_ceilOk (jsn : Nat) (s : State) (hs : s.ceilOk = true) :
    Leads (·.ceilOk = true) (execIdentify jsn s) := by
  unfold execIdentify; refine onBegin_ceilOk _ _ _ _ hs fun e r u h => ?_; simp [h]
@[simp] theorem execGetStatus_ceilOk (jsn : Nat) (s : State) (hs : s.ceilOk = true) :
    Leads (·.ceilOk = true) (execGetStatus jsn s) := by
  unfold execGetStatus; refine onBegin_ceilOk _ _ _ _ hs fun e r u h => ?_; simp [h]
@[simp] theorem execGetLog_ceilOk (jsn : Nat) (s : State) (hs : s.ceilOk = true) :
    Leads (·.ceilOk = true) (execGetLog jsn s) := by
  unfold execGetLog; refine onBegin_ceilOk _ _ _ _ hs fun e r u h => ?_; dsimp only; (repeat' split) <;> simp [h]
@[simp] theorem execClearLog_ceilOk (jsn : Nat) (s : State) (hs : s.ceilOk = true) :
    Leads (·.ceilOk = true) (execClearLog jsn s) := by
  unfold execClearLog; refine onBegin_ceilOk _ _ _ _ hs fun e r u h => ?_; simp [h]
@[simp] theorem execIdleEntry_ceilOk (at_ : Nat) (s : State) (hs : s.ceilOk = true) :
    Leads (·.ceilOk = true) (execIdleEntry at_ s) := by
  simp [hs, execIdleEntry]
@[simp] theorem execSetWakeTolerance_ceilOk (jsn : Nat) (s : State) (hs : s.ceilOk = true) :
    Leads (·.ceilOk = true) (execSetWakeTolerance jsn s) := by
  unfold execSetWakeTolerance; refine onBegin_ceilOk _ _ _ _ hs fun e r u h => ?_; dsimp only; (repeat' split) <;> simp [h]
@[simp] theorem execWakeTrigger_ceilOk (k : WakeKind) (s : State) (hs : s.ceilOk = true) :
    Leads (·.ceilOk = true) (execWakeTrigger k s) := by
  simp [hs, execWakeTrigger]
@[simp] theorem execWake_ceilOk (s : State) (hs : s.ceilOk = true) :
    Leads (·.ceilOk = true) (execWake s) := by
  simp [hs, execWake]
@[simp] theorem execWakeComplete_ceilOk (t : TrainResult) (s : State) (hs : s.ceilOk = true) :
    Leads (·.ceilOk = true) (execWakeComplete t s) := by
  simp [hs, execWakeComplete]
@[simp] theorem execCartPresenceChange_ceilOk (c : Option Cartridge) (s : State) (hs : s.ceilOk = true) :
    Leads (·.ceilOk = true) (execCartPresenceChange c s) := by
  unfold execCartPresenceChange; (repeat' split) <;> simp [hs]
@[simp] theorem execTapeSlack_ceilOk (asserted : Bool) (s : State) (hs : s.ceilOk = true) :
    Leads (·.ceilOk = true) (execTapeSlack asserted s) := by
  simp [hs, execTapeSlack]
@[simp] theorem execWarmReset_ceilOk (c : LinkReset) (s : State) (hs : s.ceilOk = true) :
    Leads (·.ceilOk = true) (execWarmReset c s) := by
  unfold execWarmReset; (repeat' split) <;> simp [hs]
@[simp] theorem execSysResetCtrlWarm_ceilOk (s : State) (hs : s.ceilOk = true) :
    Leads (·.ceilOk = true) (execSysResetCtrlWarm s) := by
  simp [hs, execSysResetCtrlWarm]
@[simp] theorem execSysResetCtrlCold_ceilOk (s : State) (hs : s.ceilOk = true) :
    Leads (·.ceilOk = true) (execSysResetCtrlCold s) := by
  simp [hs, execSysResetCtrlCold]
@[simp] theorem execColdRstN_ceilOk (s : State) (hs : s.ceilOk = true) :
    Leads (·.ceilOk = true) (execColdRstN s) := by
  simp [hs, execColdRstN]
@[simp] theorem execColdResetStopEnd_ceilOk (at_ : Nat) (s : State) (hs : s.ceilOk = true) :
    Leads (·.ceilOk = true) (execColdResetStopEnd at_ s) := by
  simp [hs, execColdResetStopEnd]
@[simp] theorem execThermalTrip_ceilOk (at_ : Nat) (s : State) (hs : s.ceilOk = true) :
    Leads (·.ceilOk = true) (execThermalTrip at_ s) := by
  simp [hs, execThermalTrip]
@[simp] theorem execSupplyLoss_ceilOk (s : State) (hs : s.ceilOk = true) :
    Leads (·.ceilOk = true) (execSupplyLoss s) := by
  unfold execSupplyLoss; split <;> simp [hs]
@[simp] theorem execTripRestart_ceilOk (at_ : Nat) (s : State) (hs : s.ceilOk = true) :
    Leads (·.ceilOk = true) (execTripRestart at_ s) := by
  simp [hs, execTripRestart]
@[simp] theorem execPowerOn_ceilOk (s : State) (hs : s.ceilOk = true) :
    Leads (·.ceilOk = true) (execPowerOn s) := by
  change State.ceilOk _ = true
  split
  · exact hs
  · rw [toStepOne_ceilOk, setCause_ceilOk, ceilOk_mk]; exact hs
@[simp] theorem execStartUpSequence_ceilOk (b : BootInput) (t : TrainResult) (s : State) (hs : s.ceilOk = true) :
    Leads (·.ceilOk = true) (execStartUpSequence b t s) := by
  unfold execStartUpSequence; split
  · exact hs
  · have linked : (startLink t (startFirmware b (startBoot b s))).ceilOk = true :=
      startLink_ceilOk _ _ (startFirmware_ceilOk _ _ (by simp [hs]))
    simp [linked]
@[simp] theorem execReplayOpenCommands_ceilOk (s : State) (hs : s.ceilOk = true) :
    Leads (·.ceilOk = true) (execReplayOpenCommands s) := by
  unfold execReplayOpenCommands; split
  · exact hs
  · exact foldl_keeps_ceilOk replayOne_ceilOk _ _ hs
@[simp] theorem execReplayReportPosted_ceilOk (s : State) (hs : s.ceilOk = true) :
    Leads (·.ceilOk = true) (execReplayReportPosted s) := by
  simp [hs, execReplayReportPosted]
@[simp] theorem execCmdAbortWrite_ceilOk (jsn : Nat) (s : State) (hs : s.ceilOk = true) :
    Leads (·.ceilOk = true) (execCmdAbortWrite jsn s) := by
  simp [hs, execCmdAbortWrite]
@[simp] theorem execAbortRecorded_ceilOk (s : State) (hs : s.ceilOk = true) :
    Leads (·.ceilOk = true) (execAbortRecorded s) := by
  unfold execAbortRecorded; (repeat' split) <;> simp [hs]
@[simp] theorem execSysCoreKick_ceilOk (core at_ : Nat) (s : State) (hs : s.ceilOk = true) :
    Leads (·.ceilOk = true) (execSysCoreKick core at_ s) := by
  simp [hs, execSysCoreKick]
@[simp] theorem execCoreWatchdogExpiry_ceilOk (core at_ : Nat) (s : State) (hs : s.ceilOk = true) :
    Leads (·.ceilOk = true) (execCoreWatchdogExpiry core at_ s) := by
  simp [hs, execCoreWatchdogExpiry]
@[simp] theorem execCoreRetryDone_ceilOk (core : Nat) (ok : Bool) (at_ : Nat) (s : State) (hs : s.ceilOk = true) :
    Leads (·.ceilOk = true) (execCoreRetryDone core ok at_ s) := by
  simp [hs, execCoreRetryDone]
@[simp] theorem execDiagCipherSelftest_ceilOk (jsn : Nat) (passed : BitVec 8) (done : Bool) (s : State) (hs : s.ceilOk = true) :
    Leads (·.ceilOk = true) (execDiagCipherSelftest jsn passed done s) := by
  unfold execDiagCipherSelftest; split
  · split <;> simp [hs]
  · exact onDiag_ceilOk _ _ _ _ hs fun e r u h => by split <;> simp [h]
@[simp] theorem execDiagUnitOffline_ceilOk (jsn : Nat) (s : State) (hs : s.ceilOk = true) :
    Leads (·.ceilOk = true) (execDiagUnitOffline jsn s) := by
  unfold execDiagUnitOffline; refine onDiag_ceilOk _ _ _ _ hs fun e r u h => ?_; dsimp only; (repeat' split) <;> simp [h]
@[simp] theorem execDiagUnitOnline_ceilOk (jsn : Nat) (s : State) (hs : s.ceilOk = true) :
    Leads (·.ceilOk = true) (execDiagUnitOnline jsn s) := by
  unfold execDiagUnitOnline; refine onDiag_ceilOk _ _ _ _ hs fun e r u h => ?_; dsimp only; (repeat' split) <;> simp [h]
@[simp] theorem execDiagClearRetirement_ceilOk (jsn : Nat) (s : State) (hs : s.ceilOk = true) :
    Leads (·.ceilOk = true) (execDiagClearRetirement jsn s) := by
  unfold execDiagClearRetirement; refine onDiag_ceilOk _ _ _ _ hs fun e r u h => ?_; dsimp only; simp [h]
@[simp] theorem execDiagReset_ceilOk (jsn : Nat) (s : State) (hs : s.ceilOk = true) :
    Leads (·.ceilOk = true) (execDiagReset jsn s) := by
  unfold execDiagReset; refine onDiag_ceilOk _ _ _ _ hs fun e r u h => ?_; dsimp only; (repeat' split) <;> simp [h]
@[simp] theorem execLinkNegotiation_ceilOk (o : LinkOffer) (s : State) (hs : s.ceilOk = true) :
    Leads (·.ceilOk = true) (execLinkNegotiation o s) := by
  simp only [execLinkNegotiation, leads_next]; (repeat' split) <;> simp [hs]
@[simp] theorem execBusMasterEnable_ceilOk (s : State) (hs : s.ceilOk = true) :
    Leads (·.ceilOk = true) (execBusMasterEnable s) := by
  simp [hs, execBusMasterEnable]
@[simp] theorem execHdmDecoderCommit_ceilOk (base size iw : Nat) (lock : Bool) (s : State) (hs : s.ceilOk = true) :
    Leads (·.ceilOk = true) (execHdmDecoderCommit base size iw lock s) := by
  simp [hs, execHdmDecoderCommit]
@[simp] theorem execCxlSnoop_ceilOk (line : Nat) (s : State) (hs : s.ceilOk = true) :
    Leads (·.ceilOk = true) (execCxlSnoop line s) := by
  simp [hs, execCxlSnoop]
@[simp] theorem execAtsInvalidate_ceilOk (addr size : Nat) (gone : Bool) (s : State) (hs : s.ceilOk = true) :
    Leads (·.ceilOk = true) (execAtsInvalidate addr size gone s) := by
  simp [hs, execAtsInvalidate]
@[simp] theorem execDoeRequest_ceilOk (vendor dtype : Nat) (payload : List Byte) (s : State) (hs : s.ceilOk = true) :
    Leads (·.ceilOk = true) (execDoeRequest vendor dtype payload s) := by
  simp [hs, execDoeRequest]
@[simp] theorem execDoeAbort_ceilOk (s : State) (hs : s.ceilOk = true) :
    Leads (·.ceilOk = true) (execDoeAbort s) := by
  simp [hs, execDoeAbort]
@[simp] theorem execIdeIntegrityFail_ceilOk (st : IdeStream) (lines at_ : Nat) (s : State) (hs : s.ceilOk = true) :
    Leads (·.ceilOk = true) (execIdeIntegrityFail st lines at_ s) := by
  simp [hs, execIdeIntegrityFail]
@[simp] theorem execIdeKeysEstablished_ceilOk (st : IdeStream) (s : State) (hs : s.ceilOk = true) :
    Leads (·.ceilOk = true) (execIdeKeysEstablished st s) := by
  simp [hs, execIdeKeysEstablished]
@[simp] theorem execIdeKeyTimeout_ceilOk (st : IdeStream) (at_ : Nat) (s : State) (hs : s.ceilOk = true) :
    Leads (·.ceilOk = true) (execIdeKeyTimeout st at_ s) := by
  simp [hs, execIdeKeyTimeout]
@[simp] theorem execMsixUnmask_ceilOk (vec : Nat) (s : State) (hs : s.ceilOk = true) :
    Leads (·.ceilOk = true) (execMsixUnmask vec s) := by
  simp [hs, execMsixUnmask]
@[simp] theorem execMctpSpdmRequest_ceilOk (mtype : Nat) (msg : List Byte) (s : State) (hs : s.ceilOk = true) :
    Leads (·.ceilOk = true) (execMctpSpdmRequest mtype msg s) := by
  simp [hs, execMctpSpdmRequest]
@[simp] theorem execPkrBlockDecoded_ceilOk (jsn lane record : Nat) (block history : List Byte) (glitch : Bool) (retryLane : Nat) (s : State) (hs : s.ceilOk = true) :
    Leads (·.ceilOk = true) (execPkrBlockDecoded jsn lane record block history glitch retryLane s) := by
  unfold execPkrBlockDecoded; dsimp only
  have noted : (raiseN evPkrDecodeErr { s with pkr := { s.pkr with decodeErrs := sat64 s.pkr.decodeErrs 1 } }).ceilOk = true :=
    (raiseN_ceilOk ..).trans hs
  (repeat' split)
  · exact hs
  · exact noted
  · rw [leads_next, laneTransient_ceilOk, markRetried_ceilOk, noted]
  · rw [leads_next, setUnit_ceilOk, raiseP_ceilOk]
    exact (markRetried_ceilOk jsn _).trans noted
@[simp] theorem execPkrEstimate_ceilOk (jsn : Nat) (bytes : List Byte) (part : Option Nat) (s : State) (hs : s.ceilOk = true) :
    Leads (·.ceilOk = true) (execPkrEstimate jsn bytes part s) := by
  refine blockwise_ceilOk _ _ _ _ hs fun e u h => ?_
  dsimp only; split <;> simp [h]
@[simp] theorem execPkrSetLevel_ceilOk (jsn : Nat) (s : State) (hs : s.ceilOk = true) :
    Leads (·.ceilOk = true) (execPkrSetLevel jsn s) := by
  unfold execPkrSetLevel; refine onBegin_ceilOk _ _ _ _ hs fun e r u h => ?_; dsimp only; (repeat' split) <;> simp [h]
@[simp] theorem execPkrDecode_ceilOk (jsn : Nat) (bytes : List Byte) (part : Option Nat) (s : State) (hs : s.ceilOk = true) :
    Leads (·.ceilOk = true) (execPkrDecode jsn bytes part s) := by
  refine blockwise_ceilOk _ _ _ _ hs fun e u h => ?_
  dsimp only; (repeat' split) <;> simp [h]
@[simp] theorem execTecSetDecode_ceilOk (jsn : Nat) (s : State) (hs : s.ceilOk = true) :
    Leads (·.ceilOk = true) (execTecSetDecode jsn s) := by
  unfold execTecSetDecode; refine onBegin_ceilOk _ _ _ _ hs fun e r u h => ?_; dsimp only; (repeat' split) <;> simp [h]
@[simp] theorem execTecTrackQuality_ceilOk (jsn : Nat) (s : State) (hs : s.ceilOk = true) :
    Leads (·.ceilOk = true) (execTecTrackQuality jsn s) := by
  unfold execTecTrackQuality; refine onBegin_ceilOk _ _ _ _ hs fun e r u h => ?_; dsimp only; (repeat' split) <;> simp [h]
@[simp] theorem execTecSetDetector_ceilOk (jsn : Nat) (s : State) (hs : s.ceilOk = true) :
    Leads (·.ceilOk = true) (execTecSetDetector jsn s) := by
  unfold execTecSetDetector; refine onBegin_ceilOk _ _ _ _ hs fun e r u h => ?_; dsimp only; simp [h]
@[simp] theorem execTecCapture_ceilOk (jsn : Nat) (slots : List (List Int)) (s : State) (hs : s.ceilOk = true) :
    Leads (·.ceilOk = true) (execTecCapture jsn slots s) := by
  unfold execTecCapture; dsimp only; split
  · split <;> simp [hs]
  · exact onBegin_ceilOk _ _ _ _ hs fun e r u h => by split <;> simp [h]
@[simp] theorem execTecCaptureTimeout_ceilOk (jsn at_ : Nat) (s : State) (hs : s.ceilOk = true) :
    Leads (·.ceilOk = true) (execTecCaptureTimeout jsn at_ s) := by
  simp only [execTecCaptureTimeout, leads_next]; (repeat' split) <;> simp [hs]
@[simp] theorem execTecC1Encode_ceilOk (jsn : Nat) (bytes : List Byte) (s : State) (hs : s.ceilOk = true) :
    Leads (·.ceilOk = true) (execTecC1Encode jsn bytes s) := by
  unfold execTecC1Encode; refine onBegin_ceilOk _ _ _ _ hs fun e r u h => ?_; simp [h]
@[simp] theorem execMmioAccessRefused_ceilOk (offset size : Nat) (write : Bool) (s : State) (hs : s.ceilOk = true) :
    Leads (·.ceilOk = true) (execMmioAccessRefused offset size write s) := by
  simp [hs, execMmioAccessRefused]
@[simp] theorem execRegisterWrite_ceilOk (offset size : Nat) (value : Word) (s : State) (hs : s.ceilOk = true) :
    Leads (·.ceilOk = true) (execRegisterWrite offset size value s) := by
  simp [hs, execRegisterWrite]
@[simp] theorem execVfyCommitWrite_ceilOk (s : State) (hs : s.ceilOk = true) :
    Leads (·.ceilOk = true) (execVfyCommitWrite s) := by
  exact (onMmio_ceilOk s { s with vfy := { s.vfy with commit := { s.vfy.commit with pending := true } } } rfl).trans hs
@[simp] theorem execServoTick_ceilOk (t : TickInput) (s : State) (hs : s.ceilOk = true) :
    Leads (·.ceilOk = true) (execServoTick t s) := by
  simp [hs, execServoTick]
@[simp] theorem execSyntheticTick_ceilOk (t : TickInput) (s : State) (hs : s.ceilOk = true) :
    Leads (·.ceilOk = true) (execSyntheticTick t s) := by
  simp [hs, execSyntheticTick]

/-! ### The commands that change a meter, the next JSN or the INSTANCE -/

@[simp] theorem execTallyFrameReceive_ceilOk (bytes : List Byte) (s : State) (hs : s.ceilOk = true) :
    Leads (·.ceilOk = true) (execTallyFrameReceive bytes s) := by
  have received (u : State) : (receiveFrame bytes u).ceilOk = u.ceilOk := by
    unfold receiveFrame commitFrame; dsimp only; split_ifs <;> simp
  unfold execTallyFrameReceive; dsimp only; split_ifs
  · exact hs
  · rw [leads_next, received]; exact hs
  · exact hs

@[simp] theorem execWeighhousePowerOn_ceilOk (ok : Bool) (s : State) (hs : s.ceilOk = true) :
    Leads (·.ceilOk = true) (execWeighhousePowerOn ok s) := by
  have supplied : (if s.whd.supplied then s else whPowerUp s).ceilOk = true := by split_ifs <;> simp [hs]
  unfold execWeighhousePowerOn; dsimp only; split
  · exact hs
  · rw [leads_next, dropEpoch_ceilOk, endEntry_ceilOk]; exact supplied

@[simp] theorem execCphInstanceWrite_ceilOk (v : Word) (s : State) (hs : s.ceilOk = true) :
    Leads (·.ceilOk = true) (execCphInstanceWrite v s) := by
  unfold execCphInstanceWrite onMmio; dsimp only; split_ifs <;> simp [hs]

@[simp] theorem execJournalTake_ceilOk (i : TakeInput) (s : State) (hs : s.ceilOk = true) :
    Leads (·.ceilOk = true) (execJournalTake i s) := by
  have taken := takePacket_ceilOk s
  unfold execJournalTake; split
  · exact hs
  · split <;> rename_i found <;> rw [found] at taken
    · exact taken.trans hs
    · next u src p =>
      have taken := taken.trans hs
      dsimp only; split
      · exact (raise_ceilOk ..).trans taken
      · split
        · exact (rejectPacket_ceilOk ..).trans taken
        · have fetched := (fetchList_ceilOk p.words u).trans taken
          generalize fetchList p.words u = f at fetched
          have keyed : (if pktOp (p.words.getD 0 0) = opSetKey then setSlot (keyTarget p.words)
              { getSlot (keyTarget p.words) f with pending := pendingOf (wrapKey f) f.jrn.nextJsn p.words } f else f).ceilOk
                = true := by
            split_ifs
            · exact setSlot_ceilOk (getSlot_counter_le fetched _) fetched
            · exact fetched
          exact keyed

/-! ### Every command -/

theorem exec_ceilOk (c : Instr) (s : State) (hs : s.ceilOk = true) : Leads (·.ceilOk = true) (exec c s) := by
  cases c <;> simp [exec, hs]

/-- Settles O50: a draw is made only below CEIL, a key is loaded at CEIL, and CEIL is never lowered under a counter. -/
theorem stepKeepsCeiling : Obligations.StepKeepsCeiling := by
  intro s t hs hstep
  rw [ceilInv_iff] at hs ⊢
  obtain rfl | ⟨c, rest, hp, hexec⟩ := step_cases hstep
  · exact hs
  · exact (exec_ceilOk c { s with pending := rest } hs).elim hexec

end Sys2Proof.Proofs
end

section
/-! PROOFS. What an event changes (18 R454, 03 R84, R85): the event ring and the groups' status bits, pending MSI-X bits and cached
translations, what was sent, and the count of free values; `f_onlyEvents` says so of an operation. -/

namespace Sys2Proof.Proofs

open Sys2Proof.Machine Sys2Proof.Safety Sys2Proof.Laws

/-- From s to t events have been raised and nothing else has changed. -/
def OnlyEvents (s t : State) : Prop :=
  ∃ e g a p o n, t = { s with
    cmd := { s.cmd with evt := e, groups := g }, hif := { s.hif with atc := a, pba := p }, out := o, freeCount := n } ∧ s.out <+: o

namespace OnlyEvents

theorem refl (s : State) : OnlyEvents s s := ⟨_, _, _, _, _, _, rfl, List.prefix_rfl⟩

theorem trans {s t u : State} (h : OnlyEvents s t) (h' : OnlyEvents t u) : OnlyEvents s u := by
  obtain ⟨e, g, a, p, o, n, rfl, sent⟩ := h
  obtain ⟨e', g', a', p', o', n', rfl, sent'⟩ := h'
  exact ⟨e', g', a', p', o', n', rfl, sent.trans sent'⟩

theorem out_prefix {s t : State} (h : OnlyEvents s t) : s.out <+: t.out := by
  obtain ⟨e, g, a, p, o, n, rfl, sent⟩ := h
  exact sent

theorem device {s t : State} (h : OnlyEvents s t) : t.device = s.device := by
  obtain ⟨e, g, a, p, o, n, rfl, -⟩ := h; rfl

theorem onlyAnswers {s t : State} (h : OnlyEvents s t) : OnlyAnswers s t := ⟨h.device, h.out_prefix⟩

theorem jrn {s t : State} (h : OnlyEvents s t) : t.jrn = s.jrn := by
  obtain ⟨e, g, a, p, o, n, rfl, -⟩ := h; rfl

theorem sys {s t : State} (h : OnlyEvents s t) : t.sys = s.sys := by
  obtain ⟨e, g, a, p, o, n, rfl, -⟩ := h; rfl

theorem mem {s t : State} (h : OnlyEvents s t) : t.mem = s.mem := by
  obtain ⟨e, g, a, p, o, n, rfl, -⟩ := h; rfl

theorem ctx {s t : State} (h : OnlyEvents s t) : t.ctx = s.ctx := by
  obtain ⟨e, g, a, p, o, n, rfl, -⟩ := h; rfl

theorem cph {s t : State} (h : OnlyEvents s t) : t.cph = s.cph := by
  obtain ⟨e, g, a, p, o, n, rfl, -⟩ := h; rfl

/-- The queues of the command block, and all of it but the event ring and the groups. -/
theorem cmd {s t : State} (h : OnlyEvents s t) :
    ∃ e g, t.cmd = { s.cmd with evt := e, groups := g } := by
  obtain ⟨e, g, a, p, o, n, rfl, -⟩ := h; exact ⟨e, g, rfl⟩

theorem hif {s t : State} (h : OnlyEvents s t) : ∃ a p, t.hif = { s.hif with atc := a, pba := p } := by
  obtain ⟨e, g, a, p, o, n, rfl, -⟩ := h; exact ⟨a, p, rfl⟩

end OnlyEvents

theorem emit_onlyEvents (o : Output) (s : State) : OnlyEvents s (emit o s) := ⟨_, _, _, _, _, _, rfl, List.prefix_append _ _⟩

theorem drawFree_onlyEvents (s : State) : OnlyEvents s (drawFree s) := ⟨_, _, _, _, _, _, rfl, List.prefix_rfl⟩

theorem hostStore_onlyEvents (addr : Nat) (l : List Byte) (s : State) : OnlyEvents s (hostStore addr l s) := by
  unfold hostStore atcTouch; split
  · exact ⟨_, _, _, _, _, _, rfl, List.prefix_append _ _⟩
  · exact ⟨_, _, _, _, _, _, rfl, List.prefix_append _ _⟩

theorem msixTrigger_onlyEvents (v : Nat) (en : Bool) (s : State) : OnlyEvents s (msixTrigger v en s) := by
  unfold msixTrigger; split_ifs
  · exact .refl s
  · exact ⟨_, _, _, _, _, _, rfl, List.prefix_rfl⟩
  · exact emit_onlyEvents _ s

theorem setGroup_onlyEvents (g : Nat) (f : EventGroup → EventGroup) (s : State) : OnlyEvents s (setGroup g f s) :=
  ⟨_, _, _, _, _, _, rfl, List.prefix_rfl⟩

theorem setEvt_onlyEvents (e : EvtRing) (s : State) : OnlyEvents s { s with cmd := { s.cmd with evt := e } } :=
  ⟨_, _, _, _, _, _, rfl, List.prefix_rfl⟩

theorem evtWrite_onlyEvents (e : EventEntry) (s : State) : OnlyEvents s (evtWrite e s) :=
  (hostStore_onlyEvents _ _ s).trans ((setEvt_onlyEvents _ _).trans (msixTrigger_onlyEvents _ _ _))

theorem setWaiting_onlyEvents (w : List EventEntry) (s : State) : OnlyEvents s (setWaiting w s) := setEvt_onlyEvents _ s

theorem groupVector_onlyEvents (src : Nat) (was : Bool) (s : State) : OnlyEvents s (groupVector src was s) := by
  unfold groupVector; split
  · exact .refl s
  · exact msixTrigger_onlyEvents _ _ s

theorem raiseStatus_onlyEvents (src p0 p1 : Nat) (s : State) : OnlyEvents s (raiseStatus src p0 p1 s) := by
  have bitSet : OnlyEvents s (setStatusBit src s) := setGroup_onlyEvents _ _ s
  unfold raiseStatus; dsimp only; split_ifs
  · exact bitSet
  · exact (bitSet.trans (evtWrite_onlyEvents _ _)).trans (groupVector_onlyEvents _ _ _)
  · exact (bitSet.trans (setWaiting_onlyEvents _ _)).trans (groupVector_onlyEvents _ _ _)

theorem orderedWait_onlyEvents (e : EventEntry) (s : State) : OnlyEvents s (orderedWait e s) := by
  unfold orderedWait; dsimp only; split_ifs
  · exact (setWaiting_onlyEvents _ s).trans ((setEvt_onlyEvents _ _).trans (raiseStatus_onlyEvents ..))
  · exact (setWaiting_onlyEvents _ s).trans (setEvt_onlyEvents _ _)

theorem raiseOrdered_onlyEvents (src p0 p1 : Nat) (s : State) : OnlyEvents s (raiseOrdered src p0 p1 s) := by
  have bitSet : OnlyEvents s (setStatusBit src s) := setGroup_onlyEvents _ _ s
  refine OnlyEvents.trans (bitSet.trans ?_) (groupVector_onlyEvents _ _ _)
  split_ifs
  · exact evtWrite_onlyEvents _ _
  · exact setEvt_onlyEvents _ _
  · exact orderedWait_onlyEvents _ _

theorem raise_onlyEvents (src p0 p1 : Nat) (s : State) : OnlyEvents s (raise src p0 p1 s) := by
  unfold raise; split
  · exact raiseOrdered_onlyEvents ..
  · exact raiseStatus_onlyEvents ..

theorem raiseP_onlyEvents (src p0 : Nat) (s : State) : OnlyEvents s (raiseP src p0 s) :=
  (drawFree_onlyEvents s).trans (raise_onlyEvents ..)

theorem raiseN_onlyEvents (src : Nat) (s : State) : OnlyEvents s (raiseN src s) :=
  (drawFree_onlyEvents s).trans (raiseP_onlyEvents ..)

end Sys2Proof.Proofs
end

section
/-! PROOFS. The step and the queue, the state after reset, and the writes that make a change pending for the tick (03 R91, 18
R450). -/

namespace Sys2Proof.Proofs

open Sys2Proof.Machine Sys2Proof.Safety Sys2Proof.Laws

/-! ### The step and the reset state -/

/-- Settles O1: `step` matches on the queue. -/
theorem stepRunsFrontCommand : Obligations.StepRunsFrontCommand := by
  intro c rest s
  rfl

/-- Settles O2: with nothing in the queue a step is `idleStep`. -/
theorem emptyQueueOnlyTime : Obligations.EmptyQueueOnlyTime := by
  intro s hempty
  have idles : step s = .next (idleStep s) := by rw [step, hempty]
  exact idles

/-- Settles O3: the reset state is a literal. -/
theorem resetValuesOfTables : Obligations.ResetValuesOfTables := by
  unfold Obligations.ResetValuesOfTables
  refine ⟨⟨?_, ?_, ?_, ?_, ?_⟩, ⟨?_, ?_, ?_, ?_, ?_⟩, ⟨?_, ?_, ?_, ?_, ?_⟩, ⟨?_, ?_, ?_⟩, ?_, ?_, ?_, ?_, ?_⟩ <;> rfl

/-- No slot of the reset state has drawn, and no raise of CEIL is being written. -/
theorem reset_ceil : CeilInv State.reset := by
  refine ⟨fun p hp => ?_, fun c hc => by cases hc⟩
  have slots : p ∈ [(0, KeySlot.drawn 0), (1, KeySlot.rom)] := hp
  simp only [List.mem_cons, List.not_mem_nil, or_false] at slots
  obtain rfl | rfl := slots <;> exact Nat.zero_le _

/-- Settles O4: memory is empty, and every counter is 0. -/
theorem resetMeetsInvariants : Obligations.ResetMeetsInvariants :=
  ⟨reset_memory, reset_ceil⟩

/-! ### Writes that the CXL.io stream carries, and those that it does not -/

/-- An access that the CXL.io stream does not carry has no effect. -/
theorem onMmio_of_insecure {s : State} (h : ¬ mmioOpen s) (t : State) : onMmio s t = s :=
  if_pos (Decidable.not_not.1 h)

/-- A write to MEM_FLIP_CTRL: CLASS and MATCH into the shadow, ERR cleared, the change armed. -/
theorem exec_arm {s : State} (hopen : mmioOpen s) (v : Word) :
    exec (.arm v) s = .next { s with mem := { s.mem with
      armPending := v.getLsbD 0 || s.mem.armPending, armErr := s.mem.armErr && !v.getLsbD 5,
      flipSh := { s.mem.flipSh with cls := bits v 2 2, isMatch := v.getLsbD 4 } } } := by
  change execArm v s = _
  rw [execArm, onMmio_of_open hopen]
  cases hv : v.getLsbD 0 <;> simp only [flipCtrlFields, bitAt, hv] <;> rfl

/-! ### CMD_COMPAT -/

/-- A write that changes nothing of T4 changes nothing. -/
theorem exec_cmdCompatWrite_same {v : Word} {s : State} (h : v.getLsbD 0 = s.cmd.compatT4) :
    exec (.cmdCompatWrite v) s = .next s := by
  change execCmdCompatWrite v s = _
  have same : bitAt v 0 = s.cmd.compatT4 := h
  simp only [execCmdCompatWrite, same, if_true, onMmio, ite_self]

/-- A change of T4 is refused or taken. -/
theorem exec_cmdCompatWrite_change {v : Word} {s : State} (hopen : mmioOpen s) (h : v.getLsbD 0 ≠ s.cmd.compatT4) :
    exec (.cmdCompatWrite v) s = .next
      (if s.cart.loaded || s.ctx.records.any (fun p => p.2.isOpen) then raiseN evCmdCompatRefused s
       else { s with cmd := { s.cmd with compatT4 := v.getLsbD 0 } }) := by
  change execCmdCompatWrite v s = _
  have changed : bitAt v 0 ≠ s.cmd.compatT4 := h
  simp only [execCmdCompatWrite, onMmio_of_open hopen, if_neg changed]
  rfl

/-- Settles O24: an open path gives each write its effect, an Insecure one none. -/
theorem commitAndCompatWrites : Obligations.CommitAndCompatWrites := by
  refine ⟨fun s hopen => ?_, ⟨?_, ?_, ?_⟩, ?_, ?_⟩
  · have opened (t : State) : Host.Outcome.next (onMmio s t) = (.next t : Out) := by rw [onMmio_of_open hopen]
    exact ⟨opened _, opened _, opened _, opened _, opened _, opened _, opened _, exec_arm hopen⟩
  · intro v s hopen hne hunloaded hclosed
    rw [exec_cmdCompatWrite_change hopen hne, if_neg]
    simpa [hunloaded] using hclosed
  · intro v s hopen hne hheld
    rw [exec_cmdCompatWrite_change hopen hne, if_pos (by simpa using hheld)]
    obtain ⟨e, g, cmd⟩ := (raiseN_onlyEvents evCmdCompatRefused s).cmd
    exact ⟨_, rfl, rfl, by rw [cmd], by rw [cmd], raiseN_device ..⟩
  · exact fun v s => exec_cmdCompatWrite_same
  · intro s hclosed c hc
    have closed (t : State) : Host.Outcome.next (onMmio s t) = (.next s : Out) := by rw [onMmio_of_insecure hclosed]
    simp only [List.mem_cons, List.not_mem_nil, or_false] at hc
    obtain rfl | rfl | rfl | rfl | rfl | rfl | rfl | rfl | rfl := hc <;> exact closed _
  · intro s v n k hclosed
    have closed (t : State) : Host.Outcome.next (onMmio s t) = (.next s : Out) := by rw [onMmio_of_insecure hclosed]
    exact ⟨closed _, closed _, closed _, closed _, closed _, closed _, closed _, closed _, closed _, closed _, closed _⟩

end Sys2Proof.Proofs
end

section
/-! PROOFS. The end of a command in a state that still holds its entry, its run and room for a retire word (03 R76): `Held`. What an
end leaves as it is follows from `State.device`. -/

namespace Sys2Proof.Proofs

open Sys2Proof.Machine Sys2Proof.Safety Sys2Proof.Laws

/-! ### The entry and the run of a command -/

/-- The command jsn has its entry and its run in a state that has room for a retire word. -/
def Held (jsn : Nat) (e : JournalEntry) (r : RunInfo) (u : State) : Prop :=
  findEntry u jsn = some e ∧ findRun u jsn = some r ∧ retireFree u = true

namespace Held

variable {jsn : Nat} {e : JournalEntry} {r : RunInfo} {u : State}

theorem ofReady {op : Nat} {s : State} (h : ready op jsn e r s = true) : Held jsn e r (begun jsn e s) := ready_found h

/-- Finding a command looks at the journal alone. -/
theorem ofJrn {v : State} (h : Held jsn e r u) (hj : v.jrn = u.jrn) : Held jsn e r v := by
  simpa only [Held, findEntry, findRun, retireFree, hj] using h

theorem jsn_eq (h : Held jsn e r u) : e.jsn = jsn := findEntry_jsn h.1

/-- A change of the command's run that keeps its name is found again. -/
theorem setRun (h : Held jsn e r u) {f : RunInfo → RunInfo} (hf : ∀ x, (f x).jsn = x.jsn) :
    Held jsn e (f r) (setRun jsn f u) := by
  obtain ⟨entry, run, room⟩ := h
  have named : ∀ x : RunInfo, ((if x.jsn = jsn then f x else x).jsn == jsn) = (x.jsn == jsn) := by
    intro x; split <;> simp [hf]
  have own : r.jsn = jsn := by simpa using List.find?_some run
  refine ⟨entry, ?_, room⟩
  change (u.jrn.runs.map fun x => if x.jsn = jsn then f x else x).find? (fun x => x.jsn == jsn) = some (f r)
  rw [List.find?_map, show ((fun x : RunInfo => x.jsn == jsn) ∘ fun x => if x.jsn = jsn then f x else x)
    = fun x => x.jsn == jsn from funext named, show u.jrn.runs.find? (fun x => x.jsn == jsn) = some r from run, Option.map_some,
    if_pos own]

theorem endWith_ok {r0 r1 : Nat} (h : Held jsn e r u) : EndsWith jsn (okStatus r) r0 r1 u (endWith jsn stOk r0 r1 u) :=
  endOk_ends h.1 h.2.1 h.2.2

theorem endWith_fail {st r0 r1 : Nat} (h : Held jsn e r u) (hst : st ≠ stOk) : EndsWith jsn st r0 r1 u (endWith jsn st r0 r1 u) :=
  endFail_ends hst h.1 h.2.1 h.2.2

theorem endBare_ok (h : Held jsn e r u) : Ends jsn (okStatus r) u (endBare jsn stOk u) := endBareOk_ends h.1 h.2.1 h.2.2

theorem endBare_fail {st : Nat} (h : Held jsn e r u) (hst : st ≠ stOk) : Ends jsn st u (endBare jsn st u) :=
  endBareFail_ends hst h.1 h.2.1 h.2.2

theorem endR0_ok {r0 : Nat} (h : Held jsn e r u) : EndsR0 jsn (okStatus r) r0 u (endR0 jsn stOk r0 u) :=
  endR0Ok_ends h.1 h.2.1 h.2.2

theorem endR0_fail {st r0 : Nat} (h : Held jsn e r u) (hst : st ≠ stOk) : EndsR0 jsn st r0 u (endR0 jsn st r0 u) :=
  endR0Fail_ends hst h.1 h.2.1 h.2.2

theorem endR1_ok {r1 : Nat} (h : Held jsn e r u) : EndsR1 jsn (okStatus r) r1 u (endR1 jsn stOk r1 u) :=
  endR1Ok_ends h.1 h.2.1 h.2.2

theorem endR1_fail {st r1 : Nat} (h : Held jsn e r u) (hst : st ≠ stOk) : EndsR1 jsn st r1 u (endR1 jsn st r1 u) :=
  endR1Fail_ends hst h.1 h.2.1 h.2.2

end Held

/-- A command that has been started is found with its run. -/
theorem started_found {op jsn : Nat} {e : JournalEntry} {r : RunInfo} {s : State} (h : started op jsn s = some (e, r)) :
    findEntry s jsn = some e ∧ findRun s jsn = some r := by
  unfold started at h
  split at h
  · next he hr =>
    split at h
    · cases h; exact ⟨he, hr⟩
    · cases h
  · cases h

theorem Held.ofStarted {op jsn : Nat} {e : JournalEntry} {r : RunInfo} {s : State} (h : started op jsn s = some (e, r))
    (hf : retireFree s = true) : Held jsn e r s := ⟨(started_found h).1, (started_found h).2, hf⟩

/-! ### What an end leaves as it is -/

section

variable {jsn st r0 r1 : Nat} {u t : State}

theorem ends_device (h : Ends jsn st u t) : t.device = u.device := h.2.2.1
theorem endsWith_device (h : EndsWith jsn st r0 r1 u t) : t.device = u.device := h.2.2.1
theorem endsR0_device (h : EndsR0 jsn st r0 u t) : t.device = u.device := h.elim fun _ h => endsWith_device h
theorem endsR1_device (h : EndsR1 jsn st r1 u t) : t.device = u.device := h.elim fun _ h => endsWith_device h

/-- What happens behind the end and leaves the journal and the device alone does not touch it. -/
theorem endsWith_ofOnlyEvents {v : State} (h : EndsWith jsn st r0 r1 u t) (hv : OnlyEvents t v) : EndsWith jsn st r0 r1 u v := by
  obtain ⟨retired, gone, device, out⟩ := h
  refine ⟨?_, ?_, hv.device.trans device, out.trans hv.out_prefix⟩
  · rw [RetiredResults, hv.jrn]; exact retired
  · rw [findRun, hv.jrn]; exact gone

end

section

variable {s t : State}

theorem device_mem (h : t.device = s.device) : t.mem = s.mem := congrArg (·.2.2.2.2.2.2.2.2.2.1) h
theorem device_cart (h : t.device = s.device) : t.cart = s.cart := congrArg (·.2.2.2.2.2.2.2.2.2.2.2.2.2.2.2.2.1) h
theorem device_mram (h : t.device = s.device) : t.mram = s.mram := congrArg (·.2.2.2.2.2.2.2.2.2.2.2.2.2.2.2.1) h
theorem device_fmt (h : t.device = s.device) : t.fmt = s.fmt := congrArg (·.2.1) h
theorem device_pkr (h : t.device = s.device) : t.pkr = s.pkr := congrArg (·.1) h
theorem device_tec (h : t.device = s.device) : t.tec = s.tec := congrArg (·.2.2.1) h
theorem device_records (h : t.device = s.device) : t.ctx.records = s.ctx.records :=
  congrArg (·.2.2.2.2.2.2.2.2.2.2.2.2.2.2.2.2.2.2.1) h

theorem device_lanes (h : t.device = s.device) : t.cph.lanes = s.cph.lanes :=
  congrArg (·.2.2.2.2.2.2.2.2.2.2.2.2.2.2.2.2.2.2.2.2.2.2.1) h
theorem device_whd (h : t.device = s.device) : t.whd = s.whd := congrArg (·.2.2.2.2.2.2.2.2.2.2.2.2.2.2.1) h

theorem getCtx_congr (h : t.ctx.records = s.ctx.records) (c : Nat) : getCtx c t = getCtx c s := by
  simp only [getCtx, h]

end

theorem begun_mem (jsn : Nat) (e : JournalEntry) (s : State) : (begun jsn e s).mem = s.mem := device_mem (begun_device jsn e s)

/-- The beginning of a command leaves every block but the host interface and the cache's lines and pins. -/
theorem begun_getCtx (jsn : Nat) (e : JournalEntry) (s : State) (c : Nat) : getCtx c (begun jsn e s) = getCtx c s :=
  getCtx_congr (device_records (begun_device jsn e s)) c

end Sys2Proof.Proofs
end

section
/-! PROOFS. The report and log commands of chapter 03 (R87-R90): NOP, IDENTIFY, GET_STATUS, GET_LOG, CLEAR_LOG. -/

namespace Sys2Proof.Proofs

open Sys2Proof.Machine Sys2Proof.Safety Sys2Proof.Laws

variable {jsn : Nat} {e : JournalEntry} {r : RunInfo} {s : State}

/-! ### NOP -/

theorem endNop_ends {u : State} (h : Held jsn e r u) : EndsR0 jsn (okStatus r) (pktWord e 1).toNat u (endNop e u) := by
  rw [endNop, h.jsn_eq]; exact h.endR0_ok

/-- The basic form and a DELAY of 0 do not wait. -/
theorem nopDelay_eq_zero (h : entryExpert e = false ∨ bits (pktWord e 2) 0 32 = 0) : nopDelay e = 0 := by
  unfold nopDelay; rcases h with h | h <;> simp [h]

theorem exec_nop (h : ready opNop jsn e r s = true) :
    exec (.nop jsn) s = .next (if nopDelay e = 0 then endNop e (begun jsn e s)
      else setRun jsn (fun r => { r with done := (begun jsn e s).sys.tickCount.toNat }) (startRun jsn (begun jsn e s))) :=
  congrArg Host.Outcome.next (onBegin_ready h _)

theorem begun_tickCount : (begun jsn e s).sys.tickCount = s.sys.tickCount :=
  congrArg (·.2.2.2.2.2.2.2.2.2.2.2.2.2.2.2.2.2.2.2.2.2.1) (begun_device jsn e s)

/-! ### CLEAR_LOG -/

theorem exec_clearLog (h : ready opClearLog jsn e r s = true) :
    exec (.clearLog jsn) s = .next (endBare jsn stOk (clearPage (bits (pktWord e 1) 0 8) (begun jsn e s))) :=
  congrArg Host.Outcome.next (onBegin_ready h _)

/-- Clearing a page leaves the journal. -/
theorem clearPage_jrn (n : Nat) (u : State) : (clearPage n u).jrn = u.jrn := by
  unfold clearPage; (repeat' split) <;> rfl

theorem clearLog_ends (h : ready opClearLog jsn e r s = true) :
    Ends jsn (okStatus r) (clearPage (bits (pktWord e 1) 0 8) (begun jsn e s))
      (endBare jsn stOk (clearPage (bits (pktWord e 1) 0 8) (begun jsn e s))) :=
  ((Held.ofReady h).ofJrn (clearPage_jrn _ _)).endBare_ok

/-- Settles O9: each command ends in the state that its own effect made. -/
theorem reportAndLogCommandsAnswer : Obligations.ReportAndLogCommandsAnswer := by
  refine ⟨⟨?_, ?_, ?_⟩, ⟨?_, ?_, ?_⟩, ?_, ?_⟩
  · intro jsn e r s h
    exact ⟨_, congrArg Host.Outcome.next (onBegin_ready h _), ((Held.ofReady h).ofJrn (hostStore_jrn ..)).endBare_ok⟩
  · intro jsn e r s h
    exact ⟨_, congrArg Host.Outcome.next (onBegin_ready h _), endsWith_ofOnlyEvents (Held.ofReady h).endWith_ok (drawFree_onlyEvents _)⟩
  · intro jsn e r s h
    refine ⟨_, congrArg Host.Outcome.next (onBegin_ready h _), ?_⟩
    simp only [List.isEmpty_iff]
    exact ((Held.ofReady h).ofJrn (by split_ifs <;> rfl)).endR0_ok
  · intro jsn e r s h basic
    rw [exec_nop h, if_pos (nopDelay_eq_zero basic)]
    exact ⟨_, rfl, endNop_ends (Held.ofReady h)⟩
  · intro jsn e r s h expert delay
    rw [exec_nop h, if_neg (by simpa [nopDelay, expert] using delay), begun_tickCount]
  · intro jsn e r s h room expert passed
    have due : r.done + nopDelay e ≤ s.sys.tickCount.toNat := by simpa [nopDelay, expert] using passed
    change ∃ t, execNopDelayExpiry jsn s = .next t ∧ _
    simp only [execNopDelayExpiry, h, if_pos due]
    exact ⟨_, rfl, endNop_ends (Held.ofStarted h room)⟩
  · intro jsn e r s h
    exact ⟨_, exec_clearLog h, clearLog_ends h⟩
  · intro jsn e r s h page
    have mem := device_mem (ends_device (clearLog_ends h))
    refine ⟨_, exec_clearLog h, ?_⟩
    rw [mem, page, ← begun_mem jsn e s]
    exact ⟨rfl, rfl, rfl, rfl, rfl, rfl, rfl, rfl⟩

end Sys2Proof.Proofs
end

section
/-! PROOFS. The commands on one context record (04 R96-R99): what a record reads as after a write, what the release of a context's
buffers leaves, and OPEN_CONTEXT, CLOSE_CONTEXT and SET_CONTEXT_PROFILE. -/

namespace Sys2Proof.Proofs

open Sys2Proof.Machine Sys2Proof.Safety Sys2Proof.Laws

/-! ### Records -/

@[simp] theorem getCtx_setCtx_same (c : Nat) (f : Context → Context) (s : State) : getCtx c (setCtx c f s) = f (getCtx c s) :=
  tabGet_tabSet ..

theorem getCtx_setCtx_ne {c x : Nat} (h : x ≠ c) (f : Context → Context) (s : State) : getCtx x (setCtx c f s) = getCtx x s :=
  tabGet_tabSet_ne _ _ _ h

/-! ### The release of a context's buffers -/

/-- Operations that are quiet change the rings, the host interface, the packer and the Porter alone. -/
theorem quiet_shape {u v : State} (h : v.quiet = u.quiet) :
    v = { u with cmd := v.cmd, hif := v.hif, pkr := v.pkr, prt := v.prt, out := v.out, freeCount := v.freeCount } := by
  obtain ⟨sys, hif, cmd, jrn, ctx, pkr, cph, fmt, tec, vfy, hlk, drv, mon, spm, prt, mem, thm, pwr, aon, wh, whd, mram, cart,
    mgt, pending, out, freeCount⟩ := v
  simp only [State.quiet, Prod.mk.injEq] at h
  obtain ⟨-, rfl, rfl, rfl, rfl, rfl, rfl, rfl, rfl, rfl, rfl, rfl, rfl, rfl, rfl, rfl, rfl, rfl, rfl, rfl, rfl, rfl⟩ := h
  rfl

/-- The beginning of a command leaves T4 in force. -/
theorem begun_compat (jsn : Nat) (e : JournalEntry) (s : State) : (begun jsn e s).cmd.compatActive = s.cmd.compatActive := by
  obtain ⟨h, o, l, p, w, m, b⟩ := begun_shape jsn e s; rw [b]

theorem begun_capLevel (l jsn : Nat) (e : JournalEntry) (s : State) : capLevel l (begun jsn e s) = capLevel l s := by
  simp only [capLevel, begun_compat]

/-! ### One record becomes another -/

/-- From s to t the record of a context becomes x, and no block changes but those that an end and the release of buffers change. -/
def RecordBecomes (c : Nat) (x : Context) (s t : State) : Prop :=
  getCtx c t = x ∧ (∀ y, y ≠ c → getCtx y t = getCtx y s)
    ∧ t.mem = s.mem ∧ t.cart = s.cart ∧ t.fmt = s.fmt ∧ t.mram = s.mram ∧ t.cph.lanes = s.cph.lanes ∧ t.whd = s.whd

namespace RecordBecomes

variable {c : Nat} {x : Context} {s t u : State}

theorem of_eqs (h : RecordBecomes c x s t) (records : u.ctx.records = t.ctx.records) (mem : u.mem = t.mem) (cart : u.cart = t.cart)
    (fmt : u.fmt = t.fmt) (mram : u.mram = t.mram) (lanes : u.cph.lanes = t.cph.lanes) (whd : u.whd = t.whd) :
    RecordBecomes c x s u := by
  obtain ⟨h1, h2, h3, h4, h5, h6, h7, h8⟩ := h
  exact ⟨(getCtx_congr records c).trans h1, fun y hy => (getCtx_congr records y).trans (h2 y hy), mem.trans h3, cart.trans h4,
    fmt.trans h5, mram.trans h6, lanes.trans h7, whd.trans h8⟩

theorem of_device (h : RecordBecomes c x s t) (hd : u.device = t.device) : RecordBecomes c x s u :=
  h.of_eqs (device_records hd) (device_mem hd) (device_cart hd) (device_fmt hd) (device_mram hd) (device_lanes hd) (device_whd hd)

theorem of_quiet (h : RecordBecomes c x s t) (hq : u.quiet = t.quiet) : RecordBecomes c x s u :=
  h.of_eqs (congrArg (·.records) (quiet_ctx hq)) (quiet_mem hq) (quiet_cart hq) (quiet_fmt hq) (quiet_mram hq)
    (congrArg (·.lanes) (quiet_cph hq)) (quiet_whd hq)

/-- At its beginning a command has changed no record. -/
theorem begin (c jsn : Nat) (e : JournalEntry) (s : State) : RecordBecomes c (getCtx c s) s (begun jsn e s) :=
  of_device (t := s) ⟨rfl, fun _ _ => rfl, rfl, rfl, rfl, rfl, rfl, rfl⟩ (begun_device jsn e s)

theorem set (h : RecordBecomes c x s t) (f : Context → Context) : RecordBecomes c (f x) s (setCtx c f t) := by
  obtain ⟨h1, h2, rest⟩ := h
  exact ⟨by rw [getCtx_setCtx_same, h1], fun y hy => by rw [getCtx_setCtx_ne hy, h2 y hy], rest⟩

end RecordBecomes

/-- The release of DICT_HANDLE clears it in the record; the rest is the packer's and the Porter's. -/
theorem dropDict_quiet (c : Nat) (s : State) : (dropDict c s).quiet = (setCtx c (fun x => { x with dict := 0 }) s).quiet :=
  freeBuffer_quiet ..

/-- The release of all buffers of a context clears DICT_HANDLE in its record. -/
theorem RecordBecomes.dropBuffers {c : Nat} {x : Context} {s t : State} (h : RecordBecomes c x s t) :
    RecordBecomes c { x with dict := 0 } s (dropDict c (dropChainedOf c t)) :=
  ((h.of_quiet (dropChainedOf_quiet ..)).set fun x => { x with dict := 0 }).of_quiet (dropDict_quiet ..)

theorem dropDict_jrn (c : Nat) (s : State) : (dropDict c s).jrn = s.jrn := by
  rw [quiet_jrn (dropDict_quiet c s)]; rfl

theorem dropBuffers_jrn (c : Nat) (s : State) : (dropDict c (dropChainedOf c s)).jrn = s.jrn :=
  (dropDict_jrn ..).trans (quiet_jrn (dropChainedOf_quiet ..))

theorem dropBuffers_compat (c : Nat) (s : State) : (dropDict c (dropChainedOf c s)).cmd.compatActive = s.cmd.compatActive := by
  have chained := quiet_compat (dropChainedOf_quiet c s)
  rw [quiet_compat (dropDict_quiet ..)]; exact chained

/-! ### The three commands -/

/-- The record that OPEN_CONTEXT leaves. -/
def openedRecord (e : JournalEntry) (s : State) (x : Context) : Context :=
  { x with
    isOpen := true, tenant := bits (pktWord e 1) 32 12, partition := bits (pktWord e 1) 20 2, position := 0
    itemsWritten := 0, bytesWritten := 0, level := if entryExpert e then capLevel (bits (pktWord e 2) 0 4) s else 3
    persist := entryExpert e && bitAt (pktWord e 2) 4 }

theorem openCtx_eq {e : JournalEntry} {s u : State} (h : u.cmd.compatActive = s.cmd.compatActive) :
    openCtx e u = setCtx (entryCtx e) (openedRecord e s) u := by
  have profile : openProfile e u
      = (if entryExpert e then capLevel (bits (pktWord e 2) 0 4) s else 3, entryExpert e && bitAt (pktWord e 2) 4) := by
    cases hx : entryExpert e <;> simp [openProfile, hx, capLevel, h]
  unfold openCtx; rw [profile]; rfl

/-- OPEN_CONTEXT that no earlier write holds back. -/
theorem exec_openContext {jsn : Nat} {e : JournalEntry} {r : RunInfo} {s : State} (h : ready opOpenContext jsn e r s = true)
    (hw : writesOpen (some (entryCtx e)) jsn (begun jsn e s) = false) :
    exec (.openContext jsn) s = .next (endR0 jsn stOk (boolNat (getCtx (entryCtx e) s).isOpen)
      (openCtx e (if (getCtx (entryCtx e) s).isOpen then dropDict (entryCtx e) (dropChainedOf (entryCtx e) (begun jsn e s))
        else begun jsn e s))) := by
  change execOpenContext jsn s = _
  rw [execOpenContext, onBegin_ready h]
  simp only [begun_getCtx, hw, Bool.false_eq_true, if_false]
  cases (getCtx (entryCtx e) s).isOpen <;> rfl

/-- CLOSE_CONTEXT that no earlier write holds back. -/
theorem exec_closeContext {jsn : Nat} {e : JournalEntry} {r : RunInfo} {s : State} (h : ready opCloseContext jsn e r s = true)
    (hw : writesOpen (some (entryCtx e)) jsn (begun jsn e s) = false) :
    exec (.closeContext jsn) s = .next (endBare jsn stOk (if (getCtx (entryCtx e) s).isOpen then
      closeCtx e (dropDict (entryCtx e) (dropChainedOf (entryCtx e) (begun jsn e s))) else begun jsn e s)) := by
  change execCloseContext jsn s = _
  rw [execCloseContext, onBegin_ready h]
  simp only [begun_getCtx, hw, Bool.false_eq_true, if_false]
  cases (getCtx (entryCtx e) s).isOpen <;> rfl

/-- What SET_CONTEXT_PROFILE does before it ends. -/
def profiled (e : JournalEntry) (u : State) : State :=
  if entryExpert e && !bitAt (pktWord e 2) 0 then dropDict (entryCtx e) (profileCtx e u) else profileCtx e u

theorem profiled_jrn (e : JournalEntry) (u : State) : (profiled e u).jrn = u.jrn := by
  unfold profiled; split
  · exact dropDict_jrn ..
  · rfl

theorem profiled_record (jsn : Nat) (e : JournalEntry) (s : State) :
    RecordBecomes (entryCtx e)
      (if entryExpert e = false then { getCtx (entryCtx e) s with level := capLevel (bits (pktWord e 1) 20 4) s }
       else if bitAt (pktWord e 2) 0 then
         { getCtx (entryCtx e) s with level := capLevel (bits (pktWord e 1) 20 4) s, persist := true }
       else { getCtx (entryCtx e) s with level := capLevel (bits (pktWord e 1) 20 4) s, persist := false, dict := 0 })
      s (profiled e (begun jsn e s)) := by
  have set := (RecordBecomes.begin (entryCtx e) jsn e s).set fun x => { x with
    level := capLevel (bits (pktWord e 1) 20 4) (begun jsn e s)
    persist := if entryExpert e then bitAt (pktWord e 2) 0 else x.persist }
  have released := (set.set fun x => { x with dict := 0 }).of_quiet (dropDict_quiet ..)
  rw [begun_capLevel] at set released
  cases hx : entryExpert e <;> cases hb : bitAt (pktWord e 2) 0 <;> simp only [profiled, profileCtx, begun_capLevel, hx, hb,
    Bool.false_eq_true, Bool.true_eq_false, Bool.true_and, Bool.false_and, Bool.not_true, Bool.not_false, if_true, if_false] at set released ⊢
  · exact set
  · exact set
  · exact released
  · exact set

/-- Settles O10: each command changes its context's record, and releases buffers, before it ends. -/
theorem contextCommandsSetTheRecord : Obligations.ContextCommandsSetTheRecord := by
  refine ⟨?_, ⟨?_, ?_⟩, ?_⟩
  · intro jsn e r s h hw
    refine ⟨_, exec_openContext h hw, ?_⟩
    generalize hv : (if (getCtx (entryCtx e) s).isOpen then dropDict (entryCtx e) (dropChainedOf (entryCtx e) (begun jsn e s))
      else begun jsn e s) = v
    have found : Held jsn e r v := (Held.ofReady h).ofJrn (by rw [← hv]; split_ifs <;> [exact dropBuffers_jrn ..; rfl])
    have compat : v.cmd.compatActive = s.cmd.compatActive := by
      rw [← hv, ← begun_compat jsn e s]; split_ifs <;> [exact dropBuffers_compat ..; rfl]
    have released : RecordBecomes (entryCtx e)
        { getCtx (entryCtx e) s with dict := if (getCtx (entryCtx e) s).isOpen then 0 else (getCtx (entryCtx e) s).dict } s v := by
      rw [← hv]; split_ifs
      · exact (RecordBecomes.begin ..).dropBuffers
      · exact .begin ..
    have ends : EndsR0 jsn (okStatus r) _ (openCtx e v) (endR0 jsn stOk (boolNat (getCtx (entryCtx e) s).isOpen) (openCtx e v)) :=
      (found.ofJrn (v := openCtx e v) rfl).endR0_ok
    refine ⟨ends, ?_⟩
    rw [openCtx_eq compat] at ends ⊢
    obtain ⟨record, others, mem, cart, fmt, mram, -, -⟩ := (released.set (openedRecord e s)).of_device (endsR0_device ends)
    exact ⟨record, others, mem, cart, fmt, mram⟩
  · intro jsn e r s h hclosed hw
    refine ⟨_, exec_closeContext h hw, ?_⟩
    rw [hclosed]
    exact (Held.ofReady h).endBare_ok
  · intro jsn e r s h hopen hw
    rw [exec_closeContext h hw, hopen, if_pos rfl]
    have ends := ((Held.ofReady h).ofJrn (dropBuffers_jrn (entryCtx e) _)).ofJrn (v := closeCtx e _) rfl |>.endBare_ok
    refine ⟨_, rfl, ends, ?_⟩
    obtain ⟨record, others, mem, cart, fmt, mram, lanes, whd⟩ :=
      ((RecordBecomes.begin (entryCtx e) jsn e s).dropBuffers.set _).of_device (ends_device ends)
    refine ⟨record.trans ?_, others, lanes, mem, cart, fmt, mram, whd⟩
    unfold resetRecord; split_ifs <;> rfl
  · intro jsn e r s h
    have ends := ((Held.ofReady h).ofJrn (profiled_jrn e _)).endBare_ok
    obtain ⟨record, others, mem, cart, fmt, mram, -, -⟩ := (profiled_record jsn e s).of_device (ends_device ends)
    exact ⟨_, congrArg Host.Outcome.next (onBegin_ready h _), ends.1, ends.2.1, record, others, mem, cart, fmt, mram⟩

end Sys2Proof.Proofs
end

section
/-! PROOFS. SET_CONTEXT_KEY (06 R161, R162): the slot after a key is loaded or cleared, and the pending area that its command held. -/

namespace Sys2Proof.Proofs

open Sys2Proof.Machine Sys2Proof.Safety Sys2Proof.Laws

/-! ### Slots -/

theorem getSlot_setSlot_same (t : Bool × Nat) (k : KeySlot) (s : State) : getSlot t (setSlot t k s) = k := by
  unfold getSlot setSlot; split <;> exact tabGet_tabSet ..

theorem getSlot_congr {u v : State} (h : u.cph = v.cph) (t : Bool × Nat) : getSlot t u = getSlot t v := by
  simp only [getSlot, h]

theorem setSlot_cph_congr {u v : State} (h : u.cph = v.cph) (t : Bool × Nat) (k : KeySlot) :
    (setSlot t k u).cph = (setSlot t k v).cph := by
  unfold setSlot; split <;> simp only [h]

theorem freePending_cph_congr {u v : State} (h : u.cph = v.cph) (e : JournalEntry) : (freePending e u).cph = (freePending e v).cph := by
  simp only [freePending, getSlot_congr h]
  split
  · exact setSlot_cph_congr h _ _
  · exact h

theorem setSlot_jrn (t : Bool × Nat) (k : KeySlot) (s : State) : (setSlot t k s).jrn = s.jrn := by
  unfold setSlot; split <;> rfl

theorem begun_cph (jsn : Nat) (e : JournalEntry) (s : State) : (begun jsn e s).cph = s.cph := by
  obtain ⟨h, o, l, p, w, m, b⟩ := begun_shape jsn e s; rw [b]

theorem begun_mram (jsn : Nat) (e : JournalEntry) (s : State) : (begun jsn e s).mram = s.mram :=
  device_mram (begun_device jsn e s)

/-! ### The engine after the end of a command -/

/-- A command of this start frees its pending area at its end, and changes nothing else of the engine. -/
theorem retireNow_cph {e : JournalEntry} {r : RunInfo} (hr : r.replayed = false) (st : Nat) (r0 r1 : Word) (s : State) :
    (retireNow e r st r0 r1 s).cph = (freePending e s).cph := by
  have missed (j : Nat) (u : State) : (abortMissed j u).cph = u.cph := by unfold abortMissed; split <;> rfl
  have freeing (u : State) : (if e.source = 65 then beginFree e.jsn u else u).cph = u.cph := by split <;> rfl
  have posted (n : Nat) (c : Completion) (u : State) : (postTo n c u).cph = u.cph := by
    unfold postTo; split_ifs
    · rfl
    · rfl
    · exact quiet_cph (cplPost_quiet ..)
  have reported (u : State) : (reportFirst e u).cph = u.cph := by
    unfold reportFirst postAccepted; split
    · exact posted _ _ _
    · rfl
  unfold retireNow; dsimp only
  rw [missed, replayEnded, hr, Bool.not_false, if_pos rfl, freeing, posted]
  refine freePending_cph_congr ?_ e
  exact reported _

theorem endWith_cph {jsn st r0 r1 : Nat} {e : JournalEntry} {r : RunInfo} {u : State} (h : Held jsn e r u) (hr : r.replayed = false) :
    (endWith jsn st r0 r1 u).cph = (freePending e u).cph := by
  obtain ⟨he, hrun, room⟩ := h
  simp only [endWith, endCommand, he, hrun, room, if_true]
  exact retireNow_cph hr ..

/-! ### SET_CONTEXT_KEY -/

theorem ready_entryOp {op jsn : Nat} {e : JournalEntry} {r : RunInfo} {s : State} (h : ready op jsn e r s = true) : entryOp e = op := by
  unfold ready at h
  simp only [Bool.and_eq_true, decide_eq_true_eq] at h
  obtain ⟨⟨⟨⟨⟨found, -⟩, -⟩, -⟩, -⟩, -⟩ := h
  unfold runnable at found
  split at found
  · split at found
    · next runs =>
      cases found
      simp only [Bool.and_eq_true, beq_iff_eq] at runs
      exact runs.1.1.2
    · cases found
  · cases found

/-- What SET_CONTEXT_KEY does with what its slot's pending area holds, once no earlier write of the context is open. -/
def takePending (jsn : Nat) (t : Bool × Nat) (k : KeySlot) (u : State) : State :=
  if pendingJsn k.pending ≠ some jsn then endBare jsn stAbortedByReset u
  else
    match k.pending with
    | .clear _ => endWith jsn stOk (slotState k) 0 (clearKey t u)
    | .key _ label key => endWith jsn stOk (slotState k) 0 (loadKey t label key u)
    | .wrapped _ label tr aad key tag iv =>
      match unwrapKey tr aad key tag iv u with
      | some key => endWith jsn stOk (slotState k) 0 (loadKey t label key u)
      | none => endBare jsn stUntrusted u
    | .none => endBare jsn stAbortedByReset u

theorem exec_setContextKey {jsn : Nat} {e : JournalEntry} {r : RunInfo} {s : State} (h : ready opSetKey jsn e r s = true)
    (hw : ((keyTarget e.words).1 || !writesOpen (some (keyTarget e.words).2) jsn (begun jsn e s)) = true) :
    exec (.setContextKey jsn) s
      = .next (takePending jsn (keyTarget e.words) (getSlot (keyTarget e.words) s) (begun jsn e s)) := by
  have free : (!(keyTarget e.words).1 && writesOpen (some (keyTarget e.words).2) jsn (begun jsn e s)) = false := by
    rw [← Bool.not_eq_true', Bool.not_and, Bool.not_not]; exact hw
  change execSetContextKey jsn s = _
  rw [execSetContextKey, onBegin_ready h]
  simp only [free, Bool.false_eq_true, if_false, getSlot_congr (begun_cph jsn e s)]
  rfl

/-- The slot that a command leaves when its effect has set it and its pending area is its own. -/
theorem slot_after_end {jsn st r0 r1 : Nat} {e : JournalEntry} {r : RunInfo} {s : State} (h : ready opSetKey jsn e r s = true)
    (hr : r.replayed = false) {k : KeySlot} (hk : pendingJsn k.pending = some jsn) :
    getSlot (keyTarget e.words) (endWith jsn st r0 r1 (setSlot (keyTarget e.words) k (begun jsn e s)))
      = { k with pending := .none } := by
  have held := (Held.ofReady h).ofJrn (setSlot_jrn (keyTarget e.words) k _)
  rw [getSlot_congr (endWith_cph held hr), freePending, getSlot_setSlot_same, if_pos ⟨ready_entryOp h, by rw [hk, held.jsn_eq]⟩,
    getSlot_setSlot_same]

/-- Settles O11: the pending area says whether the slot is cleared or loaded. -/
theorem setContextKeyLoads : Obligations.SetContextKeyLoads := by
  refine ⟨?_, ?_, ?_, ?_, ?_⟩
  · intro jsn e r s h hw pending
    have own : pendingJsn (getSlot (keyTarget e.words) s).pending = some jsn := by rw [pending]; rfl
    rw [exec_setContextKey h hw, takePending, if_neg (not_not.2 own), pending]
    refine ⟨_, rfl, ((Held.ofReady h).ofJrn (setSlot_jrn ..)).endWith_ok, fun hr => ?_⟩
    rw [clearKey, getSlot_congr (begun_cph jsn e s), slot_after_end h hr (k := { getSlot (keyTarget e.words) s with
      use := .empty, label := 0, wrapped := List.replicate 40 0 }) own]
    exact ⟨rfl, rfl, rfl, rfl, rfl⟩
  · intro jsn e r s label key h hw pending
    have own : pendingJsn (getSlot (keyTarget e.words) s).pending = some jsn := by rw [pending]; rfl
    rw [exec_setContextKey h hw, takePending, if_neg (not_not.2 own), pending]
    refine ⟨_, rfl, ((Held.ofReady h).ofJrn (setSlot_jrn ..)).endWith_ok, fun hr => ?_⟩
    have ceil : ceilNow (begun jsn e s) = ceilNow s := by simp only [ceilNow, ceilCopy, begun_mram]
    simp only [loadKey]
    rw [getSlot_congr (begun_cph jsn e s), ceil, begun_cph, slot_after_end h hr (k := { getSlot (keyTarget e.words) s with
      use := .active, label := label, wrapped := key, limited := 0, counter := if s.cph.ceilErr then 0 else ceilNow s }) own]
    exact ⟨rfl, rfl, rfl, rfl, rfl, rfl⟩
  · intro jsn e r s label tr aad key tag iv k h hw pending unwraps
    have own : pendingJsn (getSlot (keyTarget e.words) s).pending = some jsn := by rw [pending]; rfl
    have unwraps' : unwrapKey tr aad key tag iv (begun jsn e s) = some k := by
      rw [← unwraps]; simp only [unwrapKey, slotKey, wrapKey, getSlot_congr (begun_cph jsn e s)]
    rw [exec_setContextKey h hw, takePending, if_neg (not_not.2 own), pending]
    simp only [unwraps']
    exact ⟨_, rfl, ((Held.ofReady h).ofJrn (setSlot_jrn ..)).endWith_ok⟩
  · intro jsn e r s label tr aad key tag iv h hw pending unwraps
    have own : pendingJsn (getSlot (keyTarget e.words) s).pending = some jsn := by rw [pending]; rfl
    have unwraps' : unwrapKey tr aad key tag iv (begun jsn e s) = none := by
      rw [← unwraps]; simp only [unwrapKey, slotKey, wrapKey, getSlot_congr (begun_cph jsn e s)]
    rw [exec_setContextKey h hw, takePending, if_neg (not_not.2 own), pending]
    simp only [unwraps']
    exact ⟨_, rfl, (Held.ofReady h).endBare_fail (by decide)⟩
  · intro jsn e r s h hw foreign
    rw [exec_setContextKey h hw, takePending, if_pos foreign]
    exact ⟨_, rfl, (Held.ofReady h).endBare_fail (by decide)⟩

end Sys2Proof.Proofs
end

section
/-! PROOFS. What a release of Porter buffers changes (`OnlyPorter`), and READ_OVERFLOW (05 R140). -/

namespace Sys2Proof.Proofs

open Sys2Proof.Machine Sys2Proof.Safety Sys2Proof.Laws

/-! ### The Porter's records and events alone -/

/-- From s to t the Porter's block and what events change may differ, nothing else. -/
def OnlyPorter (s t : State) : Prop := ∃ q, OnlyEvents { s with prt := q } t

namespace OnlyPorter

variable {s t u : State}

theorem refl (s : State) : OnlyPorter s s := ⟨s.prt, .refl s⟩

theorem of_prt (q : Prt) (s : State) : OnlyPorter s { s with prt := q } := ⟨q, .refl _⟩

theorem of_onlyEvents (h : OnlyEvents s t) : OnlyPorter s t := ⟨s.prt, h⟩

theorem trans (h : OnlyPorter s t) (h' : OnlyPorter t u) : OnlyPorter s u := by
  obtain ⟨q, e, g, a, p, o, n, rfl, sent⟩ := h
  obtain ⟨q', e', g', a', p', o', n', rfl, sent'⟩ := h'
  exact ⟨q', e', g', a', p', o', n', rfl, sent.trans sent'⟩

theorem out_prefix (h : OnlyPorter s t) : s.out <+: t.out := h.elim fun _ h => h.out_prefix

theorem pkr (h : OnlyPorter s t) : t.pkr = s.pkr := h.elim fun _ h => (device_pkr h.device : _)

theorem quiet (h : OnlyPorter s t) : t.quiet = s.quiet := by
  obtain ⟨q, e, g, a, p, o, n, rfl, -⟩ := h; rfl

theorem foldl {α : Type} {f : State → α → State} (hf : ∀ s x, OnlyPorter s (f s x)) (l : List α) (s : State) :
    OnlyPorter s (l.foldl f s) := by
  induction l generalizing s with
  | nil => exact .refl s
  | cons x l ih => exact (hf s x).trans (ih _)

end OnlyPorter

theorem refuse_onlyPorter (caller oper reason : Nat) (h : Word) (s : State) : OnlyPorter s (refuse caller oper reason h s) :=
  (OnlyPorter.of_prt _ s).trans (.of_onlyEvents (raise_onlyEvents ..))

theorem fwResult_onlyPorter (o w : Nat) (s : State) : OnlyPorter s (fwResult o w s) := by
  unfold fwResult; split
  · exact .of_prt _ s
  · exact .refl s

theorem ownerOp_onlyPorter (op owner : Nat) (h : Word) (other : Nat) (s : State) : OnlyPorter s (ownerOp op owner h other s) := by
  unfold ownerOp; split
  · exact (refuse_onlyPorter ..).trans (fwResult_onlyPorter ..)
  · exact (OnlyPorter.of_prt _ s).trans (fwResult_onlyPorter ..)

theorem freeBuffer_onlyPorter (o : Nat) (h : Word) (s : State) : OnlyPorter s (freeBuffer o h s) := by
  unfold freeBuffer; split
  · exact .refl s
  · exact ownerOp_onlyPorter ..

/-- The release of a chained buffer: it leaves the packer's list, and the Porter takes its buffers back. -/
theorem dropChained_onlyPorter (c : Chained) (s : State) :
    OnlyPorter { s with pkr := { s.pkr with chained := s.pkr.chained.filter (·.handle != c.handle) } } (dropChained c s) :=
  OnlyPorter.foldl (fun s h => freeBuffer_onlyPorter 4 h s) c.bufs _

/-! ### The chained buffers -/

/-- The chained buffer that a handle names. -/
def findChained (h : Word) (s : State) : Option Chained := s.pkr.chained.find? fun c => c.handle == h

theorem findChained_handle {h : Word} {s : State} {c : Chained} (hc : findChained h s = some c) : c.handle = h := by
  simpa using List.find?_some hc

/-- A buffer that is replaced under its handle is found as its successor. -/
theorem findChained_replace {h : Word} {l : List Chained} {c c' : Chained} (hc : l.find? (fun c => c.handle == h) = some c)
    (hh : c'.handle = c.handle) :
    (l.map fun x => if x.handle = c.handle then c' else x).find? (fun c => c.handle == h) = some c' := by
  have name : c.handle = h := by simpa using List.find?_some hc
  subst name
  induction l with
  | nil => cases hc
  | cons x l ih =>
    by_cases hx : x.handle = c.handle
    · simp [hx, hh]
    · rw [List.find?_cons_of_neg (by simpa using hx)] at hc
      rw [List.map_cons, if_neg hx, List.find?_cons_of_neg (by simpa using hx), ih hc]

theorem dropChained_gone (c : Chained) (s : State) : findChained c.handle (dropChained c s) = none := by
  rw [findChained, (dropChained_onlyPorter c s).pkr, List.find?_eq_none]
  intro x hx
  simpa using (List.mem_filter.1 hx).2

/-! ### The bytes that READ_OVERFLOW moves -/

variable {jsn n done : Nat} {e : JournalEntry} {r : RunInfo} {c : Chained} {s u : State}

/-- Untrusted bytes among those moved mark the command's run, nothing else of the journal. -/
theorem overflowBytes_held (h : Held jsn e r u) :
    ∃ r', Held jsn e r' (overflowBytes e c done n u) ∧ okStatus r' = okStatus r := by
  have stored : Held jsn e r (if n = 0 then u else hostStore ((pktWord e 2).toNat + done) (c.bytes.take n) u) :=
    h.ofJrn (by split_ifs <;> rfl)
  unfold overflowBytes; dsimp only; split
  · rw [h.jsn_eq]
    exact ⟨_, (stored.ofJrn rfl).setRun (f := fun r => { r with untrusted := true }) fun _ => rfl, rfl⟩
  · exact ⟨r, stored.ofJrn rfl, rfl⟩

/-- Moving bytes leaves the contexts, the formatter, memory and the cartridge. -/
theorem overflowBytes_frame (e : JournalEntry) (c : Chained) (done n : Nat) (u : State) :
    (overflowBytes e c done n u).ctx = u.ctx ∧ (overflowBytes e c done n u).fmt = u.fmt ∧ (overflowBytes e c done n u).mem = u.mem
      ∧ (overflowBytes e c done n u).cart = u.cart := by
  unfold overflowBytes; dsimp only; split_ifs <;> exact ⟨rfl, rfl, rfl, rfl⟩

/-- The bytes that are moved are sent first. -/
theorem overflowBytes_out (hn : n ≠ 0) :
    (overflowBytes e c done n u).out = (hostStore ((pktWord e 2).toNat + done) (c.bytes.take n) u).out := by
  unfold overflowBytes; rw [if_neg hn]; dsimp only; split <;> rfl

/-- What the buffer of the packet's handle holds once bytes have been moved out of it. -/
theorem overflowBytes_chained (hc : findChained (pktWord e 1) u = some c) :
    ∃ c', findChained (pktWord e 1) (overflowBytes e c done n u) = some c' ∧ c'.handle = c.handle ∧ c'.bytes = c.bytes.drop n := by
  refine ⟨{ c with bytes := c.bytes.drop n, bad := shiftBad c.bad n, taken := c.taken + n, sound := c.sound.map (· - n) }, ?_, rfl, rfl⟩
  have chained : (overflowBytes e c done n u).pkr.chained = u.pkr.chained.map fun x => if x.handle = c.handle then
      { c with bytes := c.bytes.drop n, bad := shiftBad c.bad n, taken := c.taken + n, sound := c.sound.map (· - n) } else x := by
    unfold overflowBytes; dsimp only; split_ifs <;> rfl
  rw [findChained, chained]
  exact findChained_replace hc rfl

/-! ### READ_OVERFLOW -/

/-- A command that is ready has not been started. -/
theorem ready_not_started {op jsn : Nat} {e : JournalEntry} {r : RunInfo} {s : State} (h : ready op jsn e r s = true) :
    started op jsn s = none := by
  have waits : r.phase = .accepted ∨ r.phase = .waiting := by
    unfold ready at h
    simp only [Bool.and_eq_true, decide_eq_true_eq] at h
    obtain ⟨⟨⟨⟨⟨found, -⟩, -⟩, -⟩, -⟩, -⟩ := h
    unfold runnable at found
    split at found
    · split at found
      · next runs =>
        cases found
        simp only [Bool.and_eq_true, Bool.or_eq_true, decide_eq_true_eq] at runs
        exact runs.1.2
      · cases found
    · cases found
  obtain ⟨entry, run, -⟩ := ready_found h
  have entry' : findEntry s jsn = some e := by
    obtain ⟨h, o, l, p, w, m, b⟩ := begun_shape jsn e s; rw [b] at entry; exact entry
  have run' : findRun s jsn = some r := by
    obtain ⟨h, o, l, p, w, m, b⟩ := begun_shape jsn e s; rw [b] at run; exact run
  unfold started
  simp only [entry', run']
  rcases waits with p | p <;> simp [p]

theorem begun_findChained (jsn : Nat) (e : JournalEntry) (s : State) (h : Word) : findChained h (begun jsn e s) = findChained h s := by
  rw [findChained, device_pkr (begun_device jsn e s), findChained]

/-- READ_OVERFLOW of a buffer that there is, as its row begins it. -/
theorem exec_readOverflow (h : ready opReadOverflow jsn e r s = true) (hc : findChained (pktWord e 1) s = some c)
    (part : Option Nat) :
    exec (.readOverflow jsn part) s = .next (match part with
      | some n => overflowPart e c 0 n (begun jsn e s)
      | none => readOverflow e c 0 (begun jsn e s)) := by
  have found : (begun jsn e s).pkr.chained.find? (fun c => c.handle == pktWord e 1) = some c :=
    (begun_findChained jsn e s _).trans hc
  change execReadOverflow jsn part s = _
  simp only [execReadOverflow, ready_not_started h, onBegin_ready h, found] <;> rfl

/-- The buffer is released when nothing is left of it or the packet drops it. -/
def overflowRest (e : JournalEntry) (c : Chained) (n : Nat) (u : State) : State :=
  if c.bytes.length - n = 0 ∨ bitAt (pktWord e 3) 32 = true then dropChained c u else u

theorem overflowRest_quiet (e : JournalEntry) (c : Chained) (n : Nat) (u : State) : (overflowRest e c n u).quiet = u.quiet := by
  unfold overflowRest; split
  · exact dropChained_quiet ..
  · rfl

theorem overflowRest_out (e : JournalEntry) (c : Chained) (n : Nat) (u : State) : u.out <+: (overflowRest e c n u).out := by
  unfold overflowRest; split
  · exact (dropChained_onlyPorter c u).out_prefix
  · exact List.prefix_rfl

/-- A transfer that meets no poisoned word ends with OK. -/
theorem readOverflow_sound (hn : min (bits (pktWord e 3) 0 32) c.bytes.length ≤ soundBytes c) (u : State) :
    readOverflow e c 0 u = endWith e.jsn stOk (min (bits (pktWord e 3) 0 32) c.bytes.length)
      (c.bytes.length - min (bits (pktWord e 3) 0 32) c.bytes.length + (if c.truncated then 2 ^ 63 else 0))
      (overflowRest e c (min (bits (pktWord e 3) 0 32) c.bytes.length)
        (overflowBytes e c 0 (min (bits (pktWord e 3) 0 32) c.bytes.length) u)) := by
  simp only [readOverflow, Nat.sub_zero, Nat.min_eq_left hn, lt_irrefl, if_false, Nat.zero_add, overflowRest]
  cases c.truncated <;> simp [boolNat]

/-- A transfer that meets a poisoned word ends there, and the chain is released. -/
theorem readOverflow_poisoned (hn : soundBytes c < min (bits (pktWord e 3) 0 32) c.bytes.length) (u : State) :
    readOverflow e c 0 u
      = endR0 e.jsn stInternalFault (soundBytes c) (dropChained c (overflowBytes e c 0 (soundBytes c) u)) := by
  simp only [readOverflow, Nat.sub_zero, Nat.min_eq_right hn.le, hn, if_true, Nat.zero_add]

/-- Settles O12: `readOverflow` moves the bytes, releases the buffer or keeps its rest, and ends. -/
theorem readOverflowMovesBytes : Obligations.ReadOverflowMovesBytes := by
  refine ⟨?_, ?_, ?_, ?_, ?_⟩
  · intro jsn e r s c h hc hsound
    obtain rfl := (Held.ofReady h).jsn_eq
    have held := Held.ofReady h
    refine ⟨_, (exec_readOverflow h hc none).trans (congrArg _ (readOverflow_sound hsound _)), ?_⟩
    generalize min (bits (pktWord e 3) 0 32) c.bytes.length = n
    have found : findChained (pktWord e 1) (begun e.jsn e s) = some c := (begun_findChained ..).trans hc
    obtain ⟨r', held', status⟩ := overflowBytes_held (c := c) (done := 0) (n := n) held
    have ends := (held'.ofJrn (quiet_jrn (overflowRest_quiet e c n _))).endWith_ok (r0 := n)
      (r1 := c.bytes.length - n + (if c.truncated then 2 ^ 63 else 0))
    rw [status] at ends
    obtain ⟨retired, -, device, sent⟩ := ends
    have rest := overflowRest_quiet e c n (overflowBytes e c 0 n (begun e.jsn e s))
    obtain ⟨ctx, fmt, mem, cart⟩ := overflowBytes_frame e c 0 n (begun e.jsn e s)
    have start := begun_device e.jsn e s
    refine ⟨⟨retired, fun hne => ?_, fun hgone => ?_, fun hlt hkept => ?_⟩, ?_, ?_, ?_, ?_⟩
    · rw [← Nat.add_zero (pktWord e 2).toNat, ← overflowBytes_out hne]
      exact (overflowRest_out ..).trans sent
    · rw [device_pkr device, overflowRest, if_pos (hgone.imp_left fun h => by omega), ← findChained_handle hc]
      exact dropChained_gone ..
    · obtain ⟨c', hc', -, bytes⟩ := overflowBytes_chained (done := 0) (n := n) found
      rw [device_pkr device, overflowRest, if_neg (by simp only [hkept, Bool.false_eq_true, or_false]; omega)]
      exact ⟨c', hc', bytes⟩
    · rw [device_records device, quiet_ctx rest, ctx, device_records start]
    · rw [device_fmt device, quiet_fmt rest, fmt, device_fmt start]
    · rw [device_mem device, quiet_mem rest, mem, device_mem start]
    · rw [device_cart device, quiet_cart rest, cart, device_cart start]
  · intro jsn e r s c h hc hpoison
    have held := Held.ofReady h
    obtain ⟨r', held', -⟩ := overflowBytes_held (c := c) (done := 0) (n := soundBytes c) held
    refine ⟨_, (exec_readOverflow h hc none).trans (congrArg _ (readOverflow_poisoned hpoison _)), ?_⟩
    rw [held.jsn_eq]
    exact (held'.ofJrn (quiet_jrn (dropChained_quiet c _))).endR0_fail (by decide)
  · intro jsn e r s c part h hc
    exact exec_readOverflow h hc (some part)
  · intro jsn e r s c hstarted hc
    change execReadOverflow jsn none s = _
    simp only [execReadOverflow, hstarted, hc]
  · intro jsn e r s part h hc
    have found : (begun jsn e s).pkr.chained.find? (fun c => c.handle == pktWord e 1) = none :=
      (begun_findChained jsn e s _).trans hc
    change ∃ t, execReadOverflow jsn part s = .next t ∧ _
    simp only [execReadOverflow, ready_not_started h, onBegin_ready h, found]
    exact ⟨_, rfl, (Held.ofReady h).endWith_fail (by decide)⟩

end Sys2Proof.Proofs
end

section
/-! PROOFS. The journal, the contexts, whether a cartridge is loaded with which memory, and T4 in force: `f_front` says that a tape operation
leaves them as they are. -/

namespace Sys2Proof.Machine

def State.front (s : State) : Journal × Ctx × Bool × Nat × Bool := (s.jrn, s.ctx, s.cart.loaded, s.cart.cm, s.cmd.compatActive)

end Sys2Proof.Machine

namespace Sys2Proof.Proofs

open Sys2Proof.Machine Sys2Proof.Safety Sys2Proof.Laws

@[simp] theorem front_mk sys hif cmd jrn ctx pkr cph fmt tec vfy hlk drv mon spm prt mem thm pwr aon wh whd mram cart mgt pending out freeCount :
    (State.mk sys hif cmd jrn ctx pkr cph fmt tec vfy hlk drv mon spm prt mem thm pwr aon wh whd mram
      cart mgt pending out freeCount).front =
      (jrn, ctx, cart.loaded, cart.cm, cmd.compatActive) := rfl

@[simp] theorem front_fold (s : State) : (s.jrn, s.ctx, s.cart.loaded, s.cart.cm, s.cmd.compatActive) = s.front := rfl

@[simp] theorem foldl_front {α : Type} {f : State → α → State} (hf : ∀ s x, (f s x).front = s.front) (l : List α) (s : State) :
    (l.foldl f s).front = s.front := by
  induction l generalizing s with
  | nil => rfl
  | cons a t ih => rw [List.foldl_cons, ih, hf]

@[simp] theorem ite_front (c : Prop) [Decidable c] (a b : State) : (if c then a else b).front = if c then a.front else b.front :=
  apply_ite State.front c a b

theorem optMap_front {f : State → State} (hf : ∀ s, (f s).front = s.front) {o : Option State} {m : Journal × Ctx × Bool × Nat × Bool}
    (ho : ∀ r, o = some r → r.front = m) (r : State) (h : o.map f = some r) : r.front = m := by
  obtain ⟨u, hu, rfl⟩ := Option.map_eq_some_iff.1 h
  rw [hf, ho u hu]

theorem getD_front {o : Option State} {m : Journal × Ctx × Bool × Nat × Bool} (ho : ∀ r, o = some r → r.front = m) (s : State) (hs : s.front = m) :
    (o.getD s).front = m := by
  cases o with
  | none => exact hs
  | some u => exact ho u rfl

/-! ### Events and buffers -/

theorem OnlyEvents.front {s t : State} (h : OnlyEvents s t) : t.front = s.front := by
  obtain ⟨_, _, _, _, _, _, rfl, -⟩ := h; rfl

theorem OnlyPorter.front {s t : State} (h : OnlyPorter s t) : t.front = s.front := h.elim fun _ h => h.front

@[simp] theorem emit_front (o : Output) (s : State) : (emit o s).front = s.front := (emit_onlyEvents o s).front
@[simp] theorem raise_front (src p0 p1 : Nat) (s : State) : (raise src p0 p1 s).front = s.front := (raise_onlyEvents ..).front
@[simp] theorem raiseP_front (src p0 : Nat) (s : State) : (raiseP src p0 s).front = s.front := (raiseP_onlyEvents ..).front
@[simp] theorem raiseN_front (src : Nat) (s : State) : (raiseN src s).front = s.front := (raiseN_onlyEvents ..).front
@[simp] theorem freeBuffer_front (o : Nat) (h : Word) (s : State) : (freeBuffer o h s).front = s.front :=
  (freeBuffer_onlyPorter o h s).front

/-! ### The formatter and the tape -/

@[simp] theorem drawFree_front (s : State) : (drawFree s).front = s.front := by
  unfold drawFree; simp
@[simp] theorem setPool_front (p : Nat) (f : Pool → Pool) (s : State) : (setPool p f s).front = s.front := by
  unfold setPool; simp
@[simp] theorem setBuf_front (p i : Nat) (b : BufRec) (s : State) : (setBuf p i b s).front = s.front := by
  unfold setBuf; simp
@[simp] theorem takeBuf_front (p owner : Nat) (s : State) : (takeBuf p owner s).2.front = s.front := by
  unfold takeBuf; simp
theorem porterTry_front (owner size : Nat) (s : State) (q : (Word × State)) (hr : porterTry owner size s = some q) :
    q.2.front = s.front := by
  unfold porterTry at hr; dsimp only at hr; split at hr
  · cases hr; rw [takeBuf_front]; split <;> rfl
  · cases hr
@[simp] theorem setLoop_front (n : Nat) (f : Loop → Loop) (s : State) : (setLoop n f s).front = s.front := by
  unfold setLoop; simp
@[simp] theorem loadDefaults_front (s : State) : (loadDefaults s).front = s.front := by
  unfold loadDefaults; simp
@[simp] theorem modCart_front (f : Cartridge → Cartridge) (s : State) : (modCart f s).front = s.front := by
  unfold modCart; simp
@[simp] theorem cutEnd_front (p n : Nat) (s : State) : (cutEnd p n s).front = s.front := by
  unfold cutEnd; (repeat' split) <;> simp
theorem openDataset_front (p : Nat) (s : State) (q : State) (hr : openDataset p s = some q) : q.front = s.front := by
  unfold openDataset at hr; split at hr
  · cases hr
  · split at hr
    · cases hr
    · rename_i heq
      have := porterTry_front _ _ _ _ heq
      cases hr; simpa using this
@[simp] theorem parkOpened_front (s : State) : (parkOpened s).front = s.front := by
  unfold parkOpened; (repeat' split) <;> simp
@[simp] theorem modOpened_front (f : OpenDataset → OpenDataset) (s : State) : (modOpened f s).front = s.front := by
  unfold modOpened; simp
@[simp] theorem setWrite_front (jsn : Nat) (f : WriteRun → WriteRun) (s : State) : (setWrite jsn f s).front = s.front
    := by
  unfold setWrite; simp
theorem putFrameBytes_front (n : Nat) (meter : Option Nat) (w : WriteRun) (first : Nat) (s : State) (q : State) (hr
    : putFrameBytes n meter w first s = some q) : q.front = s.front := by
  unfold putFrameBytes at hr; split at hr
  · cases hr
  · dsimp only at hr; split at hr
    · cases hr; simp
    · refine optMap_front (fun _ => by simp) (fun r h => ?_) q hr
      have := openDataset_front _ _ _ h; simpa using this
@[simp] theorem noteDone_front (jsn : Nat) (s : State) : (noteDone jsn s).front = s.front := by
  unfold noteDone; (repeat' split) <;> simp
@[simp] theorem sealOpen_front (ctx : Nat) (s : State) : (sealOpen ctx s).front = s.front := by
  unfold sealOpen; (repeat' split) <;> simp
theorem closeFrame_front (s : State) (q : State) (hr : closeFrame s = some q) : q.front = s.front := by
  unfold closeFrame at hr; split at hr
  · cases hr; rfl
  · split at hr
    · cases hr; rfl
    · dsimp only at hr; split at hr
      · cases hr; simp
      · exact optMap_front (fun _ => by simp) (fun r h => putFrameBytes_front _ _ _ _ _ _ h) q hr
theorem closeDataset_front (s : State) (q : State) (hr : closeDataset s = some q) : q.front = s.front := by
  unfold closeDataset at hr; split at hr
  · cases hr
  · rename_i heq
    have := closeFrame_front _ _ heq
    split at hr <;> cases hr <;> simp [this]
@[simp] theorem closeOpen_front (s : State) : (closeOpen s).front = s.front := getD_front (fun r h => closeDataset_front
    _ _ h) _ rfl
@[simp] theorem updateHistory_front (s : State) : (updateHistory s).front = s.front := by
  unfold updateHistory; (repeat' split) <;> simp
@[simp] theorem writeStatus_front (dirty : Bool) (s : State) : (writeStatus dirty s).front = s.front := by
  unfold writeStatus; split <;> simp
@[simp] theorem writeHistory_front (s : State) : (writeHistory s).front = s.front := by
  unfold writeHistory; (repeat' split) <;> simp
@[simp] theorem ratioEvent_front (r : WrapRecord) (s : State) : (ratioEvent r s).front = s.front := by
  unfold ratioEvent; simp
@[simp] theorem leaveWrap_front (s : State) : (leaveWrap s).front = s.front := by
  unfold leaveWrap; simp
@[simp] theorem endMediaExclusions_front (s : State) : (endMediaExclusions s).front = s.front := by
  unfold endMediaExclusions; simp
@[simp] theorem toBand_front (b : Nat) (s : State) : (toBand b s).front = s.front := by
  unfold toBand; (repeat' split) <;> simp
@[simp] theorem atWrap_front (w : Nat) (s : State) : (atWrap w s).front = s.front := by
  unfold atWrap; dsimp only; (repeat' split) <;> simp
@[simp] theorem dropHeld_front (s : State) : (dropHeld s).front = s.front := by
  unfold dropHeld; simp
@[simp] theorem putInRun_front (d : Dataset) (s : State) : (putInRun d s).front = s.front := by
  unfold putInRun; simp
@[simp] theorem toRunWrap_front (p : Nat) (s : State) : (toRunWrap p s).front = s.front := by
  unfold toRunWrap; (repeat' split) <;> simp
@[simp] theorem cutChain_front (p n : Nat) (s : State) : (cutChain p n s).front = s.front := by
  unfold cutChain; (repeat' split) <;> simp
@[simp] theorem recordBase_front (p : Nat) (s : State) : (recordBase p s).front = s.front := by
  unfold recordBase; (repeat' split) <;> simp
@[simp] theorem beforeRun_front (p : Nat) (s : State) : (beforeRun p s).front = s.front := by
  unfold beforeRun; simp
@[simp] theorem withBuffer_front (f : State → State) (hf : ∀ s, (f s).front = s.front) (s : State) :
    (withBuffer f s).front = s.front := by
  unfold withBuffer; split
  · rename_i heq; rw [freeBuffer_front, hf, porterTry_front _ _ _ _ heq]
  · exact hf s
@[simp] theorem writeEod_front (p first : Nat) (trunc : Bool) (s : State) : (writeEod p first trunc s).front = s.front := by
  unfold writeEod; exact withBuffer_front _ (fun s => by simp) s
@[simp] theorem truncateRun_front (p first : Nat) (s : State) : (truncateRun p first s).front = s.front := by
  unfold truncateRun
  dsimp only
  rw [cutEnd_front]
  exact (raiseN_front ..).trans (by simp)
@[simp] theorem payOwed_front (p : Nat) (s : State) : (payOwed p s).front = s.front := by
  unfold payOwed; (repeat' split) <;> simp
@[simp] theorem payPending_front (c : Cartridge) (s : State) : (payPending c s).front = s.front := by
  unfold payPending; dsimp only; refine foldl_front (fun s x => ?_) _ _; (repeat' split) <;> simp
@[simp] theorem placeAt_front (pos p : Nat) (s : State) : (placeAt pos p s).front = s.front := by
  unfold placeAt; simp
@[simp] theorem truncateOwed_front (p : Nat) (s : State) : (truncateOwed p s).front = s.front := by
  unfold truncateOwed; simp
@[simp] theorem moveTo_front (w : Nat) (atStart : Bool) (s : State) : (moveTo w atStart s).front = s.front := by
  unfold moveTo; simp

end Sys2Proof.Proofs
end

section
/-! PROOFS. The beginning of a command field by field (`begun_shape`), and the blocks that an end leaves (`State.device`). -/

namespace Sys2Proof.Proofs

open Sys2Proof.Machine Sys2Proof.Safety Sys2Proof.Laws

section

variable {s t : State}

theorem device_vfy (h : t.device = s.device) : t.vfy = s.vfy := congrArg (·.2.2.2.1) h
theorem device_hlk (h : t.device = s.device) : t.hlk = s.hlk := congrArg (·.2.2.2.2.1) h
theorem device_drv (h : t.device = s.device) : t.drv = s.drv := congrArg (·.2.2.2.2.2.1) h
theorem device_mon (h : t.device = s.device) : t.mon = s.mon := congrArg (·.2.2.2.2.2.2.1) h
theorem device_spm (h : t.device = s.device) : t.spm = s.spm := congrArg (·.2.2.2.2.2.2.2.1) h
theorem device_prt (h : t.device = s.device) : t.prt = s.prt := congrArg (·.2.2.2.2.2.2.2.2.1) h
theorem device_thm (h : t.device = s.device) : t.thm = s.thm := congrArg (·.2.2.2.2.2.2.2.2.2.2.1) h
theorem device_pwr (h : t.device = s.device) : t.pwr = s.pwr := congrArg (·.2.2.2.2.2.2.2.2.2.2.2.1) h
theorem device_wh (h : t.device = s.device) : t.wh = s.wh := congrArg (·.2.2.2.2.2.2.2.2.2.2.2.2.2.1) h

end

section

variable (jsn : Nat) (e : JournalEntry) (s : State)

theorem begun_shape_sys : (begun jsn e s).sys = s.sys ∧ (begun jsn e s).cmd = s.cmd ∧ (begun jsn e s).jrn = s.jrn
    ∧ (begun jsn e s).mgt = s.mgt := by
  obtain ⟨h, o, l, p, w, m, b⟩ := begun_shape jsn e s
  rw [b]
  exact ⟨rfl, rfl, rfl, rfl⟩

@[simp] theorem begun_sys : (begun jsn e s).sys = s.sys := (begun_shape_sys jsn e s).1
@[simp] theorem begun_cmd : (begun jsn e s).cmd = s.cmd := (begun_shape_sys jsn e s).2.1
@[simp] theorem begun_jrn : (begun jsn e s).jrn = s.jrn := (begun_shape_sys jsn e s).2.2.1
@[simp] theorem begun_pkr : (begun jsn e s).pkr = s.pkr := device_pkr (begun_device jsn e s)
@[simp] theorem begun_fmt : (begun jsn e s).fmt = s.fmt := device_fmt (begun_device jsn e s)
@[simp] theorem begun_tec : (begun jsn e s).tec = s.tec := device_tec (begun_device jsn e s)
@[simp] theorem begun_vfy : (begun jsn e s).vfy = s.vfy := device_vfy (begun_device jsn e s)
@[simp] theorem begun_hlk : (begun jsn e s).hlk = s.hlk := device_hlk (begun_device jsn e s)
@[simp] theorem begun_drv : (begun jsn e s).drv = s.drv := device_drv (begun_device jsn e s)
@[simp] theorem begun_mon : (begun jsn e s).mon = s.mon := device_mon (begun_device jsn e s)
@[simp] theorem begun_spm : (begun jsn e s).spm = s.spm := device_spm (begun_device jsn e s)
@[simp] theorem begun_prt : (begun jsn e s).prt = s.prt := device_prt (begun_device jsn e s)
@[simp] theorem begun_thm : (begun jsn e s).thm = s.thm := device_thm (begun_device jsn e s)
@[simp] theorem begun_pwr : (begun jsn e s).pwr = s.pwr := device_pwr (begun_device jsn e s)
@[simp] theorem begun_aon : (begun jsn e s).aon = s.aon := device_aon (begun_device jsn e s)
@[simp] theorem begun_wh : (begun jsn e s).wh = s.wh := device_wh (begun_device jsn e s)
@[simp] theorem begun_whd : (begun jsn e s).whd = s.whd := device_whd (begun_device jsn e s)
@[simp] theorem begun_cart : (begun jsn e s).cart = s.cart := device_cart (begun_device jsn e s)

end

end Sys2Proof.Proofs
end

section
/-! PROOFS. LOAD, UNLOAD and FORMAT_PARTITIONS (04 R112, R113, 07 R200, R203), FMT_DATASET_INFO and FMT_CM_ACCESS (07 R205, R206). -/

namespace Sys2Proof.Proofs

open Sys2Proof.Machine Sys2Proof.Safety Sys2Proof.Laws

variable {jsn op : Nat} {e : JournalEntry} {r : RunInfo} {s t u : State} {c : Cartridge}

/-! ### What the steps of a load, an unload and a format leave -/

theorem front_jrn (h : t.front = s.front) : t.jrn = s.jrn := congrArg (·.1) h
theorem front_ctx (h : t.front = s.front) : t.ctx = s.ctx := congrArg (·.2.1) h
theorem front_compat (h : t.front = s.front) : t.cmd.compatActive = s.cmd.compatActive := congrArg (·.2.2.2.2) h

theorem takeCart_front (c : Cartridge) (s : State) : (takeCart c s).front = (s.jrn, s.ctx, true, 1, s.cmd.compatActive) := by
  unfold takeCart
  dsimp only
  rw [atWrap_front, loadDefaults_front]
  rfl

/-- A load that succeeds leaves a cartridge loaded whose memory is valid, CLEAN or DIRTY. -/
theorem loadCart_ok (h : loadCart s = (.ok, u)) : u.front = (s.jrn, s.ctx, true, 1, s.cmd.compatActive)
    ∨ u.front = (s.jrn, s.ctx, true, 2, s.cmd.compatActive) := by
  unfold loadCart at h
  dsimp only at h
  split at h
  · cases h
  · next c _ =>
    have paid : (payPending c { takeCart c s with cart := { (takeCart c s).cart with dirty := dirtyOf c } }).front
        = (s.jrn, s.ctx, true, 1, s.cmd.compatActive) := (payPending_front _ _).trans (takeCart_front c s)
    split_ifs at h with h1 h2 h3
    · cases h
    · cases h
    · cases h
      refine .inr ?_
      rw [raiseN_front, writeStatus_front]
      simp only [State.front, Prod.mk.injEq] at paid ⊢
      exact ⟨paid.1, paid.2.1, paid.2.2.1, trivial, paid.2.2.2.2⟩
    · cases h
      exact .inl paid

theorem rewindContexts_jrn (s : State) : (rewindContexts s).jrn = s.jrn := rfl

/-- An unload leaves the journal, takes the contexts to their beginnings and the cartridge out. -/
theorem unloadCart_parts (s : State) : (unloadCart s).jrn = s.jrn ∧ (unloadCart s).ctx = (rewindContexts s).ctx
    ∧ (unloadCart s).cart = .reset := by
  unfold unloadCart
  dsimp only
  generalize hp : (if s.cart.cm = 3 then s else (List.range 4).foldl (fun s p => payOwed p s) s) = v
  have paid : v.front = s.front := by
    rw [← hp]
    split
    · rfl
    · exact foldl_front (fun s p => payOwed_front p s) _ _
  generalize hw : (if (v.cart.dirty && (v.wh.epochValid || !runsOwed s) && v.cart.cm != 3) = true then writeStatus false v else v) = w
  have written : w.front = s.front := by
    rw [← hw]
    split
    · rw [writeStatus_front, paid]
    · exact paid
  have left : (dropHeld (endMediaExclusions (rewindContexts w))).front = (rewindContexts w).front := by
    rw [dropHeld_front, endMediaExclusions_front]
  have same : (rewindContexts w).jrn = s.jrn ∧ (rewindContexts w).ctx = (rewindContexts s).ctx := by
    refine ⟨(front_jrn written : w.jrn = s.jrn), ?_⟩
    unfold rewindContexts
    rw [front_ctx written]
  exact ⟨(front_jrn left).trans same.1, (front_ctx left).trans same.2, rfl⟩

/-- A status page is written to the cartridge alone. -/
theorem writeStatus_fmt (dirty : Bool) (s : State) : (writeStatus dirty s).fmt = s.fmt := by
  have history : ∀ u : State, (updateHistory u).fmt = u.fmt := fun u => by unfold updateHistory; split <;> rfl
  unfold writeStatus
  split
  · rfl
  · exact history _

/-- A format leaves the journal and the contexts; each partition is empty and the memory is CLEAN. -/
theorem formatCart_parts (pairs : List Nat) (c3 : Nat) (s : State) :
    (formatCart pairs c3 s).jrn = s.jrn ∧ (formatCart pairs c3 s).ctx = s.ctx ∧ (formatCart pairs c3 s).cart.cm = 1
      ∧ (formatCart pairs c3 s).cmd.compatActive = s.cmd.compatActive
      ∧ (formatCart pairs c3 s).fmt.durableEnd = [0, 0, 0, 0] ∧ (formatCart pairs c3 s).fmt.placeEnd = [0, 0, 0, 0] := by
  unfold formatCart
  dsimp only
  generalize hb : (List.range pairs.length).foldl (fun s p => beforeRun p s) s = b
  have before : b.front = s.front := hb ▸ foldl_front (fun s p => beforeRun_front p s) _ _
  generalize hm : modCart (fun c => cmPage 0x100 (formatPage pairs c3 b) { c with chain := [] }) b = m
  have named : m.front = s.front := by rw [← hm, modCart_front, before]
  generalize hw : (List.range pairs.length).foldl (fun s p => writeEod p 0 false (toRunWrap p s)) m = w
  have written : w.front = s.front := by
    rw [← hw, foldl_front (fun s p => by rw [writeEod_front, toRunWrap_front]), named]
  refine ⟨(front_jrn (writeStatus_front _ _)).trans (front_jrn written), (front_ctx (writeStatus_front _ _)).trans (front_ctx written),
    rfl, (front_compat (writeStatus_front _ _)).trans (front_compat written), ?_, ?_⟩
  · exact congrArg Fmt.durableEnd (writeStatus_fmt true _)
  · exact congrArg Fmt.placeEnd (writeStatus_fmt true _)

/-! ### Records that are all changed -/

/-- A record that is still worth keeping reads as the change of what it was. -/
theorem tabGet_filter_map {f : Context → Context} {n : Nat} {l : Table Context} (hz : f .zero = .zero)
    (h : f (tabGet .zero l n) ≠ .zero) :
    tabGet .zero ((l.map fun r => (r.1, f r.2)).filter fun r => decide (r.2 ≠ Context.zero)) n = f (tabGet .zero l n) := by
  induction l with
  | nil => exact hz.symm
  | cons q l ih =>
    obtain ⟨k, v⟩ := q
    rw [tabGet] at h ⊢
    rw [List.map_cons, List.filter_cons]
    by_cases hn : n = k
    · rw [if_pos hn] at h ⊢
      rw [if_pos (decide_eq_true h), tabGet, if_pos hn]
    · rw [if_neg hn] at h ⊢
      split
      · rw [tabGet, if_neg hn]
        exact ih h
      · exact ih h

/-- After an unload an open context is open, at the beginning of the partition it had. -/
theorem getCtx_rewindContexts (x : Nat) (h : (getCtx x s).isOpen = true) :
    getCtx x (rewindContexts s) = { getCtx x s with position := 0 } := by
  have kept := tabGet_filter_map (f := fun c => if c.isOpen then { c with position := 0 } else c) (n := x) (l := s.ctx.records) rfl
  rw [show tabGet .zero s.ctx.records x = getCtx x s from rfl, if_pos h] at kept
  exact kept fun hz => Bool.noConfusion (h.symm.trans (congrArg Context.isOpen hz : (getCtx x s).isOpen = false))

/-- After a format every context is at position 0 of a partition that there is. -/
theorem getCtx_formatContexts (n x : Nat) (s : State) :
    (getCtx x (formatContexts n s)).position = 0 ∧ (0 < n → (getCtx x (formatContexts n s)).partition < n) := by
  have all : ((s.ctx.records.map fun r => (r.1, { r.2 with position := 0, partition := if n ≤ r.2.partition then 0 else r.2.partition })).filter
      fun r => decide (r.2 ≠ Context.zero)).all (fun r => decide (r.2.position = 0 ∧ (0 < n → r.2.partition < n))) = true := by
    refine List.all_eq_true.2 fun p hp => decide_eq_true ?_
    obtain ⟨q, -, rfl⟩ := List.mem_map.1 (List.mem_filter.1 hp).1
    refine ⟨rfl, fun hn => ?_⟩
    dsimp only
    split <;> omega
  exact of_decide_eq_true (all_of_tabGet (d := Context.zero) (P := fun c => decide (c.position = 0 ∧ (0 < n → c.partition < n)))
    (decide_eq_true ⟨rfl, id⟩) all x)

/-! ### LOAD and UNLOAD -/

theorem onMotion_ready (h : ready op jsn e r s = true) (ht : tapeReady s = true) (done : Bool)
    (k : JournalEntry → RunInfo → State → State) :
    onMotion op jsn done s k = if done then k e r (begun jsn e s) else beginMotion e (begun jsn e s) := by
  rw [onMotion, ready_not_started h]
  exact onTape_ready h ht _

theorem exec_load (h : ready opLoad jsn e r s = true) (ht : tapeReady s = true) (done : Bool) :
    exec (.load jsn done) s = .next (if done then
      if s.cart.loaded && s.cart.cm != 3 then endWith jsn stOk 0 0 (begun jsn e s)
      else if s.cart.inDrive.isNone || !s.aon.cartPresent then noCartridge jsn (begun jsn e s)
      else match loadCart (dropHeld (begun jsn e s)) with
        | (.ok, u) => endWith jsn stOk (boolNat (!s.cart.threaded)) 0 u
        | (.error x, u) => endR1 jsn stMediaError x u
      else beginMotion e (begun jsn e s)) := by
  refine congrArg Host.Outcome.next ((onMotion_ready h ht done _).trans ?_)
  simp only [begun_cart, device_aon (begun_device jsn e s)] <;> rfl

theorem load_again (h : ready opLoad jsn e r s = true) (ht : tapeReady s = true) (hl : s.cart.loaded = true) (hc : s.cart.cm ≠ 3) :
    ∃ t, exec (.load jsn true) s = .next t ∧ EndsWith jsn (okStatus r) 0 0 (begun jsn e s) t := by
  refine ⟨_, exec_load h ht true, ?_⟩
  rw [if_pos rfl, if_pos (by simp [hl, hc])]
  exact (Held.ofReady h).endWith_ok

theorem load_none (h : ready opLoad jsn e r s = true) (ht : tapeReady s = true) (hl : s.cart.loaded = false)
    (hi : s.cart.inDrive = none) :
    ∃ t, exec (.load jsn true) s = .next t ∧ EndsR1 jsn stMediaError 0xFFFFFFFFFFFFFFFF (begun jsn e s) t := by
  refine ⟨_, exec_load h ht true, ?_⟩
  rw [if_pos rfl, if_neg (by simp [hl]), if_pos (by simp [hi])]
  exact (Held.ofReady h).endR1_fail (by decide)

theorem load_threads (h : ready opLoad jsn e r s = true) (ht : tapeReady s = true) (hl : s.cart.loaded = false)
    (hi : s.cart.inDrive = some c) (hp : s.aon.cartPresent = true) (hth : s.cart.threaded = false)
    (hok : loadCart (dropHeld (begun jsn e s)) = (.ok, u)) :
    ∃ t, exec (.load jsn true) s = .next t ∧ EndsWith jsn (okStatus r) 1 0 u t ∧ t.cart.loaded = true
      ∧ (t.cart.cm = 1 ∨ t.cart.cm = 2) := by
  have loaded := loadCart_ok hok
  have held : Held jsn e r u := (Held.ofReady h).ofJrn (loaded.elim (congrArg Prod.fst) (congrArg Prod.fst))
  refine ⟨_, exec_load h ht true, ?_⟩
  rw [if_pos rfl, if_neg (by simp [hl]), if_neg (by simp [hi, hp]), hok, hth]
  refine ⟨held.endWith_ok, ?_⟩
  simp only [State.front, Prod.mk.injEq] at loaded
  rw [device_cart (endWith_device ..)]
  exact ⟨loaded.elim (·.2.2.1) (·.2.2.1), loaded.imp (·.2.2.2.1) (·.2.2.2.1)⟩

theorem unload_ends (h : ready opUnload jsn e r s = true) (ht : tapeReady s = true) (hl : s.cart.loaded = true) (hr : s.fmt.run = none) :
    ∃ t, exec (.unload jsn true) s = .next t ∧ EndsR1 jsn (okStatus r) 0 (unloadCart (begun jsn e s)) t
      ∧ t.cart.loaded = false ∧ t.cart.inDrive = none
      ∧ ∀ c, (getCtx c s).isOpen = true → (getCtx c t).isOpen = true ∧ (getCtx c t).position = 0
          ∧ (getCtx c t).partition = (getCtx c s).partition := by
  obtain ⟨jrn, ctx, cart⟩ := unloadCart_parts (begun jsn e s)
  have held : Held jsn e r (drawFree (unloadCart (begun jsn e s))) := (Held.ofReady h).ofJrn jrn
  have device : (endWith jsn stOk (Config.freeNat (unloadCart (begun jsn e s)).freeCount) 0
      (drawFree (unloadCart (begun jsn e s)))).device = (unloadCart (begun jsn e s)).device := by
    rw [endWith_device, drawFree_device]
  refine ⟨endWith jsn stOk (Config.freeNat (begun jsn e s).freeCount) 0 (drawFree (unloadCart (begun jsn e s))), ?_, ?_, ?_⟩
  · refine congrArg Host.Outcome.next ((onMotion_ready h ht true _).trans ?_)
    rw [if_pos rfl]
    simp only [begun_cart, device_fmt (begun_device jsn e s), hl, hr] <;> rfl
  · exact ⟨_, held.endWith_ok⟩
  · have device := (endWith_device jsn stOk (Config.freeNat (begun jsn e s).freeCount) 0 (drawFree (unloadCart (begun jsn e s)))).trans
      (drawFree_device _)
    rw [device_cart device, cart]
    refine ⟨rfl, rfl, fun x hx => ?_⟩
    have record := getCtx_rewindContexts x ((congrArg Context.isOpen (begun_getCtx jsn e s x)).trans hx)
    rw [getCtx_congr (device_records device), getCtx_congr (congrArg Ctx.records ctx), record, begun_getCtx]
    exact ⟨hx, rfl, rfl⟩

/-! ### FORMAT_PARTITIONS -/

/-- The wraps of each partition, as the packet gives them. -/
def formatPairs (e : JournalEntry) : List Nat :=
  if entryExpert e then (pairsOf (pktWord e 2)).take (bits (pktWord e 1) 0 3) else evenPairs (bits (pktWord e 1) 0 3)

/-- The state that a format leaves. -/
def formatted (e : JournalEntry) (u : State) : State :=
  formatContexts (bits (pktWord e 1) 0 3)
    (formatCart (formatPairs e) (if entryExpert e then bits (pktWord e 1) 4 4 else 0) (dropHeld u))

theorem exec_format (h : ready opFormat jsn e r s = true) (ht : tapeReady s = true) (hl : s.cart.loaded = true)
    (hi : s.cart.inDrive = some c) (hm : mediaType c ≠ 0x81) (he : s.wh.epochValid = true) (hr : s.fmt.run = none) :
    exec (.formatPartitions jsn) s
      = .next (endWith jsn stOk (bits (pktWord e 1) 0 3) (2 * sumNat (formatPairs e)) (formatted e (begun jsn e s))) := by
  refine congrArg Host.Outcome.next ((onTape_ready h ht _).trans ?_)
  simp only [begun_cart, begun_fmt, begun_wh, hl, hi, hm, he, hr, if_true, if_false, Bool.not_true, Option.isSome_none, Bool.or_self,
    Bool.false_eq_true] <;> rfl

theorem format_notWritable (h : ready opFormat jsn e r s = true) (ht : tapeReady s = true) (hl : s.cart.loaded = true)
    (hi : s.cart.inDrive = some c) (hm : mediaType c = 0x81) :
    ∃ t, exec (.formatPartitions jsn) s = .next t
      ∧ EndsR1 jsn stMediaError 0xFFFFFFFFFFFFFFFE (raiseN evFmtNotWritable (begun jsn e s)) t := by
  refine ⟨_, congrArg Host.Outcome.next ((onTape_ready h ht _).trans ?_), ((Held.ofReady h).ofJrn (raiseN_jrn ..)).endR1_fail (by decide)⟩
  simp only [begun_cart, hl, hi, hm, if_true] <;> rfl

theorem format_ends (h : ready opFormat jsn e r s = true) (ht : tapeReady s = true) (hl : s.cart.loaded = true)
    (hi : s.cart.inDrive = some c) (hm : mediaType c ≠ 0x81) (he : s.wh.epochValid = true) (hr : s.fmt.run = none) :
    ∃ t, exec (.formatPartitions jsn) s = .next t
      ∧ (EndsWith jsn (okStatus r) (bits (pktWord e 1) 0 3) (2 * sumNat (formatPairs e)) (formatted e (begun jsn e s)) t
         ∧ ∀ x, (getCtx x t).position = 0 ∧ (0 < bits (pktWord e 1) 0 3 → (getCtx x t).partition < bits (pktWord e 1) 0 3))
      ∧ t.fmt.durableEnd = [0, 0, 0, 0] ∧ t.fmt.placeEnd = [0, 0, 0, 0] ∧ t.cart.cm = 1 := by
  obtain ⟨jrn, -, cm, -, durable, placed⟩ :=
    formatCart_parts (formatPairs e) (if entryExpert e then bits (pktWord e 1) 4 4 else 0) (dropHeld (begun jsn e s))
  have held : Held jsn e r (formatted e (begun jsn e s)) := (Held.ofReady h).ofJrn jrn
  have ends := held.endWith_ok (r0 := bits (pktWord e 1) 0 3) (r1 := 2 * sumNat (formatPairs e))
  have device := endsWith_device ends
  refine ⟨_, exec_format h ht hl hi hm he hr, ⟨ends, fun x => ?_⟩, ?_, ?_, ?_⟩
  · rw [getCtx_congr (device_records device)]
    exact getCtx_formatContexts _ x _
  · rw [device_fmt device]; exact durable
  · rw [device_fmt device]; exact placed
  · rw [device_cart device]; exact cm

/-- Settles O14. -/
theorem loadUnloadAndFormat : Obligations.LoadUnloadAndFormat :=
  ⟨⟨fun _ _ _ _ => load_again, fun _ _ _ _ => load_none, fun _ _ _ _ _ _ => load_threads, fun _ _ _ _ => unload_ends,
    fun _ _ _ _ h ht => exec_load h ht false, fun _ _ _ _ h ht => congrArg Host.Outcome.next (onMotion_ready h ht false _)⟩,
    fun _ _ _ _ _ => format_ends, fun _ _ _ _ _ => format_notWritable⟩

/-! ### FMT_DATASET_INFO, FMT_CM_ACCESS -/

/-- A command that needs a partition of the loaded cartridge finds it. -/
theorem withPartition_found {p : Nat} (hc : loadedCart s = some c) (hp : p < cmPartitions c) (k : Cartridge → State → State) :
    withPartition e p s k = k c s := by
  simp only [withPartition, hc, if_neg (Nat.not_le.2 hp)]

theorem begun_loadedCart (jsn : Nat) (e : JournalEntry) (s : State) : loadedCart (begun jsn e s) = loadedCart s := by
  simp only [loadedCart, begun_cart]

theorem begun_eodOf (p jsn : Nat) (e : JournalEntry) (s : State) : eodOf p (begun jsn e s) = eodOf p s := by
  simp only [eodOf, device_fmt (begun_device jsn e s)]

theorem datasetInfo_found {d : Dataset} {i : TapeItem} (h : ready 0x78 jsn e r s = true) (ht : tapeReady s = true)
    (hc : loadedCart s = some c) (hp : (getCtx (entryCtx e) s).partition < cmPartitions c)
    (hn : (pktWord e 2).toNat < eodOf (getCtx (entryCtx e) s).partition s)
    (hf : findItem (chainOf c (getCtx (entryCtx e) s).partition) (pktWord e 2).toNat = some (d, i)) :
    ∃ t, exec (.fmtDatasetInfo jsn) s = .next t
      ∧ (let h := headerRead (chainOf c (getCtx (entryCtx e) s).partition) d s
         EndsWith jsn (okStatus r) h.seq h.bootEpoch
           (hostStore (pktWord e 3).toNat (headerBytes h) (moveTo d.wrap false (begun jsn e s))) t) := by
  have read : headerRead (chainOf c (getCtx (entryCtx e) s).partition) d (begun jsn e s)
      = headerRead (chainOf c (getCtx (entryCtx e) s).partition) d s := by
    simp only [headerRead, begun_tec]
  have held : Held jsn e r (moveTo d.wrap false (begun jsn e s)) := (Held.ofReady h).ofJrn (front_jrn (moveTo_front ..))
  refine ⟨_, congrArg Host.Outcome.next ((onTape_ready h ht _).trans ?_), (held.ofJrn (hostStore_onlyEvents ..).jrn).endWith_ok⟩
  refine (withPartition_found ((begun_loadedCart jsn e s).trans hc) (by rwa [begun_getCtx]) _).trans ?_
  simp only [begun_getCtx, begun_eodOf, if_neg (Nat.not_le.2 hn), hf, read]

theorem datasetInfo_beyond (h : ready 0x78 jsn e r s = true) (ht : tapeReady s = true) (hc : loadedCart s = some c)
    (hp : (getCtx (entryCtx e) s).partition < cmPartitions c)
    (hn : eodOf (getCtx (entryCtx e) s).partition s ≤ (pktWord e 2).toNat) :
    ∃ t, exec (.fmtDatasetInfo jsn) s = .next t ∧ Ends jsn stEndOfData (begun jsn e s) t := by
  refine ⟨_, congrArg Host.Outcome.next ((onTape_ready h ht _).trans ?_), (Held.ofReady h).endBare_fail (by decide)⟩
  refine (withPartition_found ((begun_loadedCart jsn e s).trans hc) (by rwa [begun_getCtx]) _).trans ?_
  simp only [begun_getCtx, begun_eodOf, if_pos hn]

theorem cmAccess_ends (bytes : List Byte) (h : ready 0x79 jsn e r s = true) (hl : (s.cart.loaded || s.cart.unknown) = true)
    (hi : s.cart.inDrive = some c) :
    ∃ t, exec (.fmtCmAccess jsn bytes) s = .next t
      ∧ EndsR0 jsn (okStatus r) (bits (pktWord e 1) 16 15)
          (if bits (pktWord e 1) 16 15 = 0 then begun jsn e s
           else if bitAt (pktWord e 1) 32 then
             modCart (cmPut (bits (pktWord e 1) 0 14) (slice bytes 0 (bits (pktWord e 1) 16 15))) (begun jsn e s)
           else hostStore (pktWord e 2).toNat (cmSlice c (bits (pktWord e 1) 0 14) (bits (pktWord e 1) 16 15)) (begun jsn e s)) t := by
  refine ⟨_, congrArg Host.Outcome.next ((onBegin_ready h _).trans ?_), ((Held.ofReady h).ofJrn ?_).endR0_ok⟩
  · simp only [begun_cart, hl, hi, if_true] <;> rfl
  · split_ifs
    · rfl
    · rfl
    · exact (hostStore_onlyEvents ..).jrn

/-- Settles O15. -/
theorem formatReports : Obligations.FormatReports :=
  ⟨fun _ _ _ _ _ _ _ => datasetInfo_found, fun _ _ _ _ _ => datasetInfo_beyond, fun _ bytes _ _ _ _ => cmAccess_ends bytes⟩

end Sys2Proof.Proofs
end

section
/-! PROOFS. The starts of WRITE_RECORDS and WRITE_FILEMARKS, and the commands that only wait for others (04 R102-R104, R106, R108). -/

namespace Sys2Proof.Proofs

open Sys2Proof.Machine Sys2Proof.Safety Sys2Proof.Laws

variable {jsn op fm : Nat} {lens : List Nat} {e : JournalEntry} {r : RunInfo} {s u v : State} {c : Cartridge}

/-! ### What a write command takes from its context -/

/-- The grant looks at the context's record and at the mode in force. -/
theorem grantOf_congr (hx : getCtx (entryCtx e) u = getCtx (entryCtx e) s) (hm : u.cmd.compatActive = s.cmd.compatActive) :
    grantOf e r u = grantOf e r s := by
  simp only [grantOf, capLevel, hx, hm]

theorem begun_grantOf (jsn : Nat) (e : JournalEntry) (r : RunInfo) (s : State) : grantOf e r (begun jsn e s) = grantOf e r s :=
  grantOf_congr (begun_getCtx ..) (by rw [begun_cmd])

/-- A format takes an open context to the beginning of partition 0. -/
theorem getCtx_formatContexts_one (x : Nat) (h : (getCtx x s).isOpen = true) :
    getCtx x (formatContexts 1 s) = { getCtx x s with position := 0, partition := 0 } := by
  have zero : (if 1 ≤ (getCtx x s).partition then 0 else (getCtx x s).partition) = 0 := by split <;> omega
  have kept := tabGet_filter_map
    (f := fun c : Context => { c with position := 0, partition := if 1 ≤ c.partition then 0 else c.partition }) (n := x)
    (l := s.ctx.records) rfl
    (fun hz => Bool.noConfusion (h.symm.trans (congrArg Context.isOpen hz : (getCtx x s).isOpen = false)))
  rw [show tabGet .zero s.ctx.records x = getCtx x s from rfl] at kept
  rw [zero] at kept
  exact kept

/-! ### The start of a command with items -/

/-- The partition that the items go to: 0 of a cartridge that is formatted first. -/
def itemPartition (e : JournalEntry) (r : RunInfo) (c : Cartridge) (s : State) : Nat :=
  if isBlank c then 0 else (grantOf e r s).2.2.2

/-- The state in which the items start: a blank cartridge has been formatted, and what was read ahead is gone. -/
def itemState (c : Cartridge) (s : State) : State :=
  dropHeld (if isBlank c then formatContexts 1 (formatCart (evenPairs 1) 0 s) else s)

/-- The command makes POSITION the end of data (04 R103, R117). -/
def movesEnd (e : JournalEntry) (r : RunInfo) (p : Nat) (s u : State) : Bool :=
  entryOp e == opWriteRecords && atPosition e && r.done == 0 && (!u.cmd.compatActive || (getCtx (entryCtx e) s).position == u.fmt.placeEnd.getD p 0)

/-- The state from which the run of a command with items begins. -/
def itemStart (e : JournalEntry) (p : Nat) (moves : Bool) (s u : State) : State :=
  truncateOwed p (if moves then closeOpen (placeAt (getCtx (entryCtx e) s).position p (closeOpen u)) else u)

/-- What the grant of a run rests on: a run on a blank cartridge takes its grant anew. -/
def itemRun (c : Cartridge) (r : RunInfo) : RunInfo := if isBlank c then { r with grant := none } else r

theorem itemState_compat (c : Cartridge) (s : State) : (itemState c s).cmd.compatActive = s.cmd.compatActive := by
  unfold itemState
  rw [front_compat (dropHeld_front _)]
  split
  · exact (formatCart_parts _ _ _).2.2.2.1
  · rfl

theorem itemStart_front (e : JournalEntry) (p : Nat) (moves : Bool) (s u : State) : (itemStart e p moves s u).front = u.front := by
  unfold itemStart
  rw [truncateOwed_front]
  split
  · rw [closeOpen_front, placeAt_front, closeOpen_front]
  · rfl

/-- On a writable cartridge that has the partition the run of a command with items begins. -/
theorem startItems_begins (hd : s.vfy.disabled = false) (hb : formBlockedLong s = false) (hc : loadedCart s = some c)
    (hm : mediaType c ≠ 0x81) (hp : isBlank c = true ∨ (grantOf e r s).2.2.2 < cmPartitions c)
    (hw : isBlank c = false ∨ s.wh.epochValid = true)
    (hbusy : movesEnd e (itemRun c r) (itemPartition e r c s) s (itemState c s) = false
      ∨ partitionBusy (itemPartition e r c s) e.jsn (itemState c s) = false) :
    startItems e r fm lens s = beginRun
      (newWrite e (itemRun c r) fm lens
        (itemStart e (itemPartition e r c s) (movesEnd e (itemRun c r) (itemPartition e r c s) s (itemState c s)) s (itemState c s)))
      (itemStart e (itemPartition e r c s) (movesEnd e (itemRun c r) (itemPartition e r c s) s (itemState c s)) s (itemState c s)) := by
  have free : (movesEnd e (itemRun c r) (itemPartition e r c s) s (itemState c s)
      && partitionBusy (itemPartition e r c s) e.jsn (itemState c s)) = false := by
    rcases hbusy with h | h <;> simp [h]
  unfold startItems
  simp only [hd, hb, hc, hm, Bool.or_self, Bool.false_eq_true, if_false]
  rw [if_neg (by rcases hw with h | h <;> simp [h]), if_neg (by rcases hp with h | h <;> simp [h]), if_neg]
  · rfl
  · exact Bool.eq_false_iff.1 free

theorem itemRun_done (c : Cartridge) (r : RunInfo) : (itemRun c r).done = r.done := by
  unfold itemRun; split <;> rfl

/-- What the run takes: the grant of an earlier start or of the context as it is; partition 0 after a format. -/
theorem grantOf_itemStart (p : Nat) (moves : Bool) (hx : (getCtx (entryCtx e) s).isOpen = true) :
    grantOf e (itemRun c r) (itemStart e p moves s (itemState c s))
      = if isBlank c then ((getCtx (entryCtx e) s).tenant, capLevel (getCtx (entryCtx e) s).level s, (getCtx (entryCtx e) s).persist, 0)
        else grantOf e r s := by
  have front := itemStart_front e p moves s (itemState c s)
  have compat : (itemStart e p moves s (itemState c s)).cmd.compatActive = s.cmd.compatActive :=
    (front_compat front).trans (itemState_compat c s)
  cases hb : isBlank c
  · have same : (itemStart e p moves s (itemState c s)).ctx = s.ctx := by
      rw [front_ctx front, itemState, hb, front_ctx (dropHeld_front _)] <;> rfl
    simp only [itemRun, hb, Bool.false_eq_true, if_false]
    exact grantOf_congr (getCtx_congr (congrArg Ctx.records same) _) compat
  · have same : (itemStart e p moves s (itemState c s)).ctx = (formatContexts 1 (formatCart (evenPairs 1) 0 s)).ctx := by
      rw [front_ctx front, itemState, hb, front_ctx (dropHeld_front _)] <;> rfl
    have formatted : getCtx (entryCtx e) (formatCart (evenPairs 1) 0 s) = getCtx (entryCtx e) s :=
      getCtx_congr (congrArg Ctx.records (formatCart_parts _ _ _).2.1) _
    have record : getCtx (entryCtx e) (itemStart e p moves s (itemState c s)) = { getCtx (entryCtx e) s with position := 0, partition := 0 } := by
      rw [getCtx_congr (congrArg Ctx.records same), getCtx_formatContexts_one _ (by rw [formatted]; exact hx), formatted]
    simp only [grantOf, itemRun, hb, if_true, record, capLevel, compat] <;> rfl

end Sys2Proof.Proofs
end

section
/-! PROOFS. WRITE_RECORDS, WRITE_FILEMARKS and SYNC (04 R102-R104, R106, R108). -/

namespace Sys2Proof.Proofs

open Sys2Proof.Machine Sys2Proof.Safety Sys2Proof.Laws

variable {jsn op : Nat} {e : JournalEntry} {r : RunInfo} {s u : State} {c : Cartridge} {list : Option (List ListEntry)}

/-! ### WRITE_RECORDS -/

/-- A command of before the start fetches its list again (04 R106). -/
def refetching (jsn : Nat) (e : JournalEntry) (r : RunInfo) (s : State) : State :=
  if r.replayed then fetchList e.words (begun jsn e s) else begun jsn e s

/-- The state in which the items of WRITE_RECORDS start: the run holds its list. -/
def listed (jsn : Nat) (e : JournalEntry) (r : RunInfo) (l : List ListEntry) (s : State) : State :=
  setRun jsn (fun r => { r with list := l }) (refetching jsn e r s)

theorem fetchList_shape (ws : List Word) (s : State) : ∃ h o, fetchList ws s = { s with hif := h, out := o } := by
  unfold fetchList
  split
  · exact ⟨_, _, rfl⟩
  · exact ⟨_, _, rfl⟩

theorem refetching_shape (jsn : Nat) (e : JournalEntry) (r : RunInfo) (s : State) :
    ∃ h o, refetching jsn e r s = { begun jsn e s with hif := h, out := o } := by
  unfold refetching
  split
  · exact fetchList_shape _ _
  · exact ⟨_, _, rfl⟩

theorem listed_device (jsn : Nat) (e : JournalEntry) (r : RunInfo) (l : List ListEntry) (s : State) :
    (listed jsn e r l s).device = s.device ∧ (listed jsn e r l s).cmd = s.cmd := by
  obtain ⟨h, o, shape⟩ := refetching_shape jsn e r s
  unfold listed
  rw [shape]
  exact ⟨begun_device jsn e s, begun_cmd jsn e s⟩

theorem listed_grantOf (jsn : Nat) (e : JournalEntry) (r : RunInfo) (l : List ListEntry) (s : State) :
    grantOf e r (listed jsn e r l s) = grantOf e r s :=
  grantOf_congr (getCtx_congr (device_records (listed_device ..).1) _) (by rw [(listed_device ..).2])

/-- The beginning of a command moves translations of the host interface alone. -/
theorem begun_hif (jsn : Nat) (e : JournalEntry) (s : State) : ∃ atc, (begun jsn e s).hif = { s.hif with atc := atc } := by
  have fetched : ∀ (l : List (Nat × Nat)) (u : State), ∃ atc, (l.foldl (fun s p => hostFetch p.1 p.2 s) u).hif = { u.hif with atc := atc } := by
    intro l
    induction l with
    | nil => exact fun u => ⟨_, rfl⟩
    | cons p l ih =>
      intro u
      obtain ⟨atc, rest⟩ := ih (hostFetch p.1 p.2 u)
      refine ⟨atc, rest.trans ?_⟩
      change { atcTouch p.1 p.2 u.hif with atc := atc } = _
      unfold atcTouch
      split <;> rfl
  obtain ⟨atc, all⟩ := fetched (fetchRanges e) (if namesCtx e then (pinCtx jsn (entryCtx e) s).getD s else s)
  refine ⟨atc, all.trans ?_⟩
  split
  · cases found : pinCtx jsn (entryCtx e) s with
    | none => rfl
    | some t =>
      obtain ⟨l, p, w, m, rfl⟩ := pinCtx_shape found
      rfl
  · rfl

theorem begun_hostReachable (jsn : Nat) (e : JournalEntry) (s : State) : hostReachable (begun jsn e s) = hostReachable s := by
  obtain ⟨atc, moved⟩ := begun_hif jsn e s
  simp only [hostReachable, pathOpen, moved]

/-- A list that is at hand starts the items. -/
theorem exec_writeRecords (h : ready opWriteRecords jsn e r s = true) (ht : tapeReady s = true)
    (hr : r.replayed = false ∨ hostReachable s = true) :
    exec (.writeRecords jsn list) s = .next (match refetched e r list with
      | none => endWrite e stInternalFault (refetching jsn e r s)
      | some l => startItems e r 0 (recordLens 0 l) (listed jsn e r l s)) := by
  refine congrArg Host.Outcome.next ((onTape_ready h ht _).trans ?_)
  rw [if_neg (by rcases hr with h | h <;> simp [h, begun_hostReachable])]
  rfl

/-- POSITION becomes the end of data as the packet and the mode say (04 R103, R117). -/
def takesEnd (e : JournalEntry) (r : RunInfo) (p : Nat) (s u : State) : Bool :=
  atPosition e && r.done == 0 && (!s.cmd.compatActive || (getCtx (entryCtx e) s).position == u.fmt.placeEnd.getD p 0)

theorem device_loadedCart {t : State} (h : t.device = s.device) : loadedCart t = loadedCart s := by
  simp only [loadedCart, device_cart h]

theorem device_formBlockedLong {t : State} (h : t.device = s.device) : formBlockedLong t = formBlockedLong s := by
  simp only [formBlockedLong, device_wh h, device_aon h]

/-- A command that needs its context open finds it open when it is ready. -/
theorem ready_isOpen (h : ready op jsn e r s = true) (hn : namesCtx e = true) (ho : needsOpen op = true) :
    (getCtx (entryCtx e) s).isOpen = true := by
  unfold ready at h
  simp only [Bool.and_eq_true, Bool.or_eq_true, Bool.not_eq_true', hn, ho, Bool.true_eq_false, false_or] at h
  exact h.2.2

theorem writeRecords_starts {l : List ListEntry} (h : ready opWriteRecords jsn e r s = true) (ht : tapeReady s = true)
    (hd : s.vfy.disabled = false) (hb : formBlockedLong s = false) (hc : loadedCart s = some c) (hm : mediaType c ≠ 0x81)
    (hp : isBlank c = true ∨ (grantOf e r s).2.2.2 < cmPartitions c) (hw : isBlank c = false ∨ s.wh.epochValid = true)
    (hr : r.replayed = false ∨ hostReachable s = true) (hl : refetched e r list = some l)
    (hbusy : takesEnd e r (itemPartition e r c s) s (itemState c (listed jsn e r l s)) = false
      ∨ partitionBusy (itemPartition e r c s) jsn (itemState c (listed jsn e r l s)) = false) :
    ∃ w, exec (.writeRecords jsn list) s
        = .next (beginRun w (itemStart e (itemPartition e r c s) (takesEnd e r (itemPartition e r c s) s (itemState c (listed jsn e r l s)))
            s (itemState c (listed jsn e r l s))))
      ∧ w.jsn = jsn ∧ w.ctx = entryCtx e ∧ w.lens = recordLens 0 l ∧ w.filemarks = 0
      ∧ (w.tenant, w.level, w.persist, w.partition)
          = (if isBlank c then ((getCtx (entryCtx e) s).tenant, capLevel (getCtx (entryCtx e) s).level s, (getCtx (entryCtx e) s).persist, 0)
             else grantOf e r s)
      ∧ w.input = [] ∧ w.placedBytes = 0 ∧ w.ending = none ∧ w.placedItems ≤ r.done := by
  obtain ⟨device, cmd⟩ := listed_device jsn e r l s
  have named := (Held.ofReady h).jsn_eq
  have writes : namesCtx e = true := by rw [namesCtx, ready_entryOp h]; rfl
  have record : getCtx (entryCtx e) (listed jsn e r l s) = getCtx (entryCtx e) s := getCtx_congr (device_records device) _
  have part : itemPartition e r c (listed jsn e r l s) = itemPartition e r c s := by rw [itemPartition, listed_grantOf] <;> rfl
  have moving : ∀ p, movesEnd e (itemRun c r) p (listed jsn e r l s) (itemState c (listed jsn e r l s))
      = takesEnd e r p s (itemState c (listed jsn e r l s)) := fun p => by
    simp only [movesEnd, takesEnd, ready_entryOp h, beq_self_eq_true, Bool.true_and, itemRun_done, record, itemState_compat, cmd]
  have begins := startItems_begins (e := e) (r := r) (fm := 0) (lens := recordLens 0 l) (s := listed jsn e r l s) (c := c)
    (by rw [device_vfy device]; exact hd) (by rw [device_formBlockedLong device]; exact hb)
    (by rw [device_loadedCart device]; exact hc) hm (by rw [listed_grantOf]; exact hp) (by rw [device_wh device]; exact hw)
    (by rw [part, moving, named]; exact hbusy)
  have grant := grantOf_itemStart (e := e) (r := r) (s := listed jsn e r l s) (c := c) (itemPartition e r c s)
    (takesEnd e r (itemPartition e r c s) s (itemState c (listed jsn e r l s))) (by rw [record]; exact ready_isOpen h writes rfl)
  rw [part, moving] at begins
  rw [record, listed_grantOf] at grant
  have start : itemStart e (itemPartition e r c s) (takesEnd e r (itemPartition e r c s) s (itemState c (listed jsn e r l s)))
      (listed jsn e r l s) (itemState c (listed jsn e r l s)) = itemStart e (itemPartition e r c s)
        (takesEnd e r (itemPartition e r c s) s (itemState c (listed jsn e r l s))) s (itemState c (listed jsn e r l s)) := by
    rw [itemStart, record] <;> rfl
  rw [start] at begins grant
  refine ⟨_, (exec_writeRecords h ht hr).trans (by rw [hl]; exact congrArg _ begins), named, rfl, rfl, rfl, ?_, rfl, rfl, rfl, ?_⟩
  · refine Eq.trans ?_ (grant.trans ?_)
    · rfl
    · simp only [capLevel, cmd]
  · exact (Nat.min_le_left ..).trans (itemRun_done c r).le

/-- A list that differs from the one of before the start ends the command. -/
theorem writeRecords_listDiffers (h : ready opWriteRecords jsn e r s = true) (ht : tapeReady s = true)
    (hr : hostReachable s = true) (hl : refetched e r list = none) :
    ∃ t, exec (.writeRecords jsn list) s = .next t ∧ RetiredWith jsn stInternalFault t ∧ findRun t jsn = none := by
  obtain ⟨hif, out, shape⟩ := refetching_shape jsn e r s
  have held : Held jsn e r (refetching jsn e r s) := (Held.ofReady h).ofJrn (by rw [shape])
  have named := held.jsn_eq
  subst named
  have ends := endsWith_ends ((held.ofJrn (raise_jrn evDurable e.jsn ((findRun (refetching e.jsn e r s) e.jsn).elim 0 (·.done)) _)).endWith_fail
    (st := stInternalFault) (r0 := (findRun (refetching e.jsn e r s) e.jsn).elim 0 (·.done))
    (r1 := ((findRun (refetching e.jsn e r s) e.jsn).bind (·.first)).getD
      ((refetching e.jsn e r s).fmt.durableEnd.getD (getCtx (entryCtx e) (refetching e.jsn e r s)).partition 0)) (by decide))
  exact ⟨_, (exec_writeRecords h ht (.inr hr)).trans (by rw [hl] <;> rfl), ends.1, ends.2.1⟩

/-! ### Commands that only wait for others -/

/-- A change of runs that keeps their names leaves which commands have one. -/
theorem findRun_setRun_isSome (j k : Nat) {f : RunInfo → RunInfo} (hf : ∀ x, (f x).jsn = x.jsn) (s : State) :
    (findRun (setRun j f s) k).isSome = (findRun s k).isSome := by
  have named : ((fun x : RunInfo => x.jsn == k) ∘ fun x => if x.jsn = j then f x else x) = fun x => x.jsn == k := by
    funext x
    simp only [Function.comp]
    split <;> simp [hf]
  change ((s.jrn.runs.map fun x => if x.jsn = j then f x else x).find? (fun x => x.jsn == k)).isSome = _
  rw [List.find?_map, named, Option.isSome_map] <;> rfl

theorem waitsDone_setRun (jsn j : Nat) {f : RunInfo → RunInfo} (hf : ∀ x, (f x).jsn = x.jsn) (s : State) :
    waitsDone jsn (setRun j f s) = waitsDone jsn s := by
  have opened : ∀ c, writesOpen c jsn (setRun j f s) = writesOpen c jsn s := fun c => by
    simp only [writesOpen, findRun_setRun_isSome j _ hf] <;> rfl
  simp only [waitsDone, opened] <;> rfl

/-- The run of a command that only waits for others. -/
def waiter (e : JournalEntry) (r : RunInfo) (s : State) : WriteRun := newWrite e r 0 [] s

/-- The state in which that run has begun. -/
def waiterBegun (e : JournalEntry) (r : RunInfo) (s : State) : State :=
  startRun e.jsn { setRun e.jsn (fun x => { x with grant := some ((waiter e r s).tenant, (waiter e r s).level, (waiter e r s).persist,
      (waiter e r s).partition) }) s with fmt := { s.fmt with writes := s.fmt.writes ++ [waiter e r s] } }

/-- The state in which it is off the list. -/
def waiterCleared (e : JournalEntry) (r : RunInfo) (s : State) : State :=
  { waiterBegun e r s with fmt := { (waiterBegun e r s).fmt with
    writes := (waiterBegun e r s).fmt.writes.filter (·.jsn != e.jsn) } }

theorem waiterCleared_device (hf : s.fmt.writes = []) : (waiterCleared e r s).device = s.device := by
  have none_left : (s.fmt.writes ++ [waiter e r s]).filter (·.jsn != e.jsn) = s.fmt.writes := by
    simp [waiter, newWrite, hf]
  have cleared : (waiterCleared e r s).fmt = s.fmt :=
    congrArg (fun w => ({ s.fmt with writes := w } : Fmt)) none_left
  exact congrArg (fun f : Fmt => ({ s with fmt := f } : State).device) cleared

/-- The run that the command has then. -/
def waiterRun (e : JournalEntry) (r : RunInfo) (s : State) : RunInfo :=
  { r with
    grant := some ((waiter e r s).tenant, (waiter e r s).level, (waiter e r s).persist, (waiter e r s).partition)
    phase := .started, since := s.aon.time }

theorem waiterCleared_held (h : Held e.jsn e r s) : Held e.jsn e (waiterRun e r s) (waiterCleared e r s) :=
  ((h.setRun (f := fun x => { x with grant := some ((waiter e r s).tenant, (waiter e r s).level, (waiter e r s).persist,
      (waiter e r s).partition) }) fun _ => rfl).setRun
    (f := fun x => { x with phase := .started, since := s.aon.time }) fun _ => rfl).ofJrn rfl

/-- With nothing in the pipeline the run ends as soon as those that it waits for have. -/
theorem startWait_eq (hw : waitsDone e.jsn s = true) (hf : s.fmt.writes = []) (ho : s.fmt.opened = none) (hc : s.fmt.closed = [])
    (hg : s.fmt.c3Groups = []) :
    startWait e r s = endWith e.jsn stOk 0 (s.fmt.durableEnd.getD (grantOf e r s).2.2.2 0) (raise evDurable e.jsn 0 (waiterCleared e r s)) := by
  have turn : waitsDone e.jsn (waiterBegun e r s) = true := by
    refine (waitsDone_setRun e.jsn e.jsn (f := fun r => { r with phase := .started, since := s.aon.time }) (fun _ => rfl) _).trans ?_
    exact (waitsDone_setRun e.jsn e.jsn (f := fun x => { x with grant := some ((waiter e r s).tenant, (waiter e r s).level,
      (waiter e r s).persist, (waiter e r s).partition) }) (fun _ => rfl) s).trans hw
  have runs : (waiterBegun e r s).fmt.writes = [waiter e r s] := by
    change s.fmt.writes ++ [waiter e r s] = _
    rw [hf, List.nil_append]
  have still : flushOpen (waiterBegun e r s) = waiterBegun e r s := by
    unfold flushOpen
    rw [show (waiterBegun e r s).fmt.opened = none from ho]
  have none_formed : formAll (waiterBegun e r s) = waiterBegun e r s := by
    unfold formAll
    rw [show (waiterBegun e r s).fmt.closed = [] from hc, show (waiterBegun e r s).fmt.c3Groups = [] from hg] <;> rfl
  have settles : settleWrite (waiterBegun e r s) e.jsn = endWith e.jsn stOk 0 (s.fmt.durableEnd.getD (grantOf e r s).2.2.2 0) (raise evDurable e.jsn 0 (waiterCleared e r s)) := by
    have found : findWrite e.jsn (waiterBegun e r s) = some (waiter e r s) := by
      rw [findWrite, runs, List.find?_cons_of_pos (by exact beq_self_eq_true _)]
    have base : (waiter e r s).placedItems = 0 := Nat.min_zero _
    have durable : (waiter e r s).durable = 0 := Nat.min_zero _
    have first : (waiter e r s).firstItem = none := if_pos (Nat.min_zero _)
    have placed : allPlaced (waiter e r s) = true := by
      simp [allPlaced, base, itemTotal, streamTotal, streamLens, waiter, newWrite, sumNat]
    unfold settleWrite
    rw [found]
    change (if !(allPlaced (waiter e r s) && (waiter e r s).durable == itemTotal (waiter e r s) && waitsDone e.jsn (waiterBegun e r s)) then
      _ else finishWrite (waiter e r s) stOk (firstResult (waiter e r s)) (waiterBegun e r s)) = _
    rw [placed, durable, turn, firstResult, first]
    unfold finishWrite afterLast
    rw [first, durable] <;> rfl
  unfold startWait beginRun
  change afterWrites (waiterBegun e r s) = _
  rw [afterWrites, still, none_formed, settleWrites, runs]
  exact settles

theorem startWait_ends {op : Nat} (h : ready op jsn e r s = true) (hw : waitsDone jsn s = true)
    (hf : s.fmt.writes = []) (ho : s.fmt.opened = none) (hc : s.fmt.closed = []) (hg : s.fmt.c3Groups = []) :
    EndsWith jsn (okStatus r) 0 (s.fmt.durableEnd.getD (grantOf e r s).2.2.2 0) (begun jsn e s) (startWait e r (begun jsn e s)) := by
  have named := (Held.ofReady h).jsn_eq
  subst named
  have fmt := begun_fmt e.jsn e s
  have events := raise_onlyEvents evDurable e.jsn 0 (waiterCleared e r (begun e.jsn e s))
  have held := (waiterCleared_held (Held.ofReady h)).ofJrn events.jrn
  obtain ⟨retired, gone, device, out⟩ := held.endWith_ok (r0 := 0) (r1 := s.fmt.durableEnd.getD (grantOf e r s).2.2.2 0)
  rw [startWait_eq (by simpa only [waitsDone, writesOpen, findEntry, findRun, begun_jrn] using hw) (by rw [fmt, hf]) (by rw [fmt, ho])
    (by rw [fmt, hc]) (by rw [fmt, hg]), fmt, begun_grantOf]
  exact ⟨retired, gone, device.trans (events.device.trans (waiterCleared_device (by rw [fmt, hf]))), List.IsPrefix.trans events.out_prefix out⟩

theorem ready_findEntry (h : ready op jsn e r s = true) : findEntry s jsn = some e := by
  simpa only [findEntry, begun_jrn] using (ready_found h).1

theorem sync_ends (h : ready opSync jsn e r s = true) (hw : writesOpen (if syncAll e then none else some (entryCtx e)) jsn s = false)
    (hf : s.fmt.writes = []) (ho : s.fmt.opened = none) (hc : s.fmt.closed = []) (hg : s.fmt.c3Groups = []) :
    ∃ t, exec (.sync jsn) s = .next t
      ∧ EndsWith jsn (okStatus r) 0 (s.fmt.durableEnd.getD (grantOf e r s).2.2.2 0) (begun jsn e s) t := by
  refine ⟨_, congrArg Host.Outcome.next (onBegin_ready h _), startWait_ends h ?_ hf ho hc hg⟩
  unfold waitsDone
  rw [ready_findEntry h]
  dsimp only
  rw [ready_entryOp h, if_neg (by decide)]
  split at hw <;> simp_all

theorem writeFilemarks_none (h : ready opWriteFilemarks jsn e r s = true) (hn : bits (pktWord e 2) 0 32 = 0) (ha : syncAll e = false)
    (hw : writesOpen (some (entryCtx e)) jsn s = false)
    (hf : s.fmt.writes = []) (ho : s.fmt.opened = none) (hc : s.fmt.closed = []) (hg : s.fmt.c3Groups = []) :
    ∃ t, exec (.writeFilemarks jsn) s = .next t
      ∧ EndsWith jsn (okStatus r) 0 (s.fmt.durableEnd.getD (grantOf e r s).2.2.2 0) (begun jsn e s) t := by
  refine ⟨_, congrArg Host.Outcome.next ((onBegin_ready h _).trans (if_pos hn)), startWait_ends h ?_ hf ho hc hg⟩
  unfold waitsDone
  rw [ready_findEntry h]
  dsimp only
  rw [ready_entryOp h, if_neg (by decide), ha, if_neg (by decide), hw]
  rfl

/-! ### WRITE_FILEMARKS with filemarks to place -/

/-- A tape that is ready is so when the command has begun. -/
theorem begun_tape (ht : tapeReady s = true) : tapeDown (begun jsn e s) = false ∧ tapeHeld (begun jsn e s) = false
    ∧ loadMustWait (begun jsn e s) = false ∧ autoLoad (begun jsn e s) = begun jsn e s := by
  simp only [tapeReady, Bool.and_eq_true, Bool.not_eq_true'] at ht
  obtain ⟨⟨⟨⟨down, held⟩, must⟩, -⟩, loads⟩ := ht
  obtain ⟨h, o, l, p, w, m, shape⟩ := begun_shape jsn e s
  rw [shape]
  exact ⟨down, held, must, if_pos loads⟩

theorem writeFilemarks_starts (h : ready opWriteFilemarks jsn e r s = true) (hn : bits (pktWord e 2) 0 32 ≠ 0) (ht : tapeReady s = true)
    (hd : s.vfy.disabled = false) (hb : formBlockedLong s = false) (hc : loadedCart s = some c) (hm : mediaType c ≠ 0x81)
    (hp : isBlank c = true ∨ (grantOf e r s).2.2.2 < cmPartitions c) (hw : isBlank c = false ∨ s.wh.epochValid = true) :
    ∃ w, exec (.writeFilemarks jsn) s
        = .next (beginRun w (truncateOwed (itemPartition e r c s) (itemState c (begun jsn e s))))
      ∧ w.jsn = jsn ∧ w.filemarks = bits (pktWord e 2) 0 32 ∧ w.lens = [] ∧ w.ctx = entryCtx e
      ∧ w.partition = itemPartition e r c s := by
  have named := (Held.ofReady h).jsn_eq
  have writes : namesCtx e = true := by rw [namesCtx, ready_entryOp h]; rfl
  have part : itemPartition e r c (begun jsn e s) = itemPartition e r c s := by rw [itemPartition, begun_grantOf] <;> rfl
  have stays : ∀ p u, movesEnd e (itemRun c r) p (begun jsn e s) u = false := fun p u => by
    rw [movesEnd, ready_entryOp h] <;> rfl
  have begins := startItems_begins (e := e) (r := r) (fm := bits (pktWord e 2) 0 32) (lens := []) (s := begun jsn e s) (c := c)
    (by rw [begun_vfy]; exact hd) (by rw [device_formBlockedLong (begun_device ..)]; exact hb)
    (by rw [begun_loadedCart]; exact hc) hm (by rw [begun_grantOf]; exact hp) (by rw [begun_wh]; exact hw) (.inl (stays _ _))
  have grant := grantOf_itemStart (e := e) (r := r) (s := begun jsn e s) (c := c) (itemPartition e r c s) false
    (by rw [begun_getCtx]; exact ready_isOpen h writes rfl)
  rw [part, stays] at begins
  rw [begun_grantOf] at grant
  obtain ⟨down, held, must, loads⟩ : tapeDown (begun jsn e s) = false ∧ tapeHeld (begun jsn e s) = false
      ∧ loadMustWait (begun jsn e s) = false ∧ autoLoad (begun jsn e s) = begun jsn e s := begun_tape ht
  have starts : exec (.writeFilemarks jsn) s = .next (startItems e r (bits (pktWord e 2) 0 32) [] (begun jsn e s)) := by
    refine congrArg Host.Outcome.next ((onBegin_ready h _).trans ?_)
    dsimp only
    rw [if_neg hn, down, held, must, loads] <;> rfl
  refine ⟨_, starts.trans (congrArg _ begins), named, rfl, rfl, rfl, ?_⟩
  refine (congrArg (fun g : Nat × Nat × Bool × Nat => g.2.2.2) grant).trans ?_
  unfold itemPartition
  split <;> rfl

/-- Settles O16. -/
theorem writeCommandsStart : Obligations.WriteCommandsStart :=
  ⟨fun _ _ _ _ _ _ _ h ht hd hb hc hm hp hw hr hl hbusy => writeRecords_starts h ht hd hb hc hm hp hw hr hl hbusy,
    fun _ _ _ _ _ h ht _ hr hl => writeRecords_listDiffers h ht hr hl, fun _ _ _ _ => sync_ends, fun _ _ _ _ => writeFilemarks_none,
    fun _ _ _ _ _ h hn ht hd hb hc hm hp hw => writeFilemarks_starts h hn ht hd hb hc hm hp hw⟩

end Sys2Proof.Proofs
end

section
/-! PROOFS. The state word of the Weighhouse (16 R408), LEDGER_READ and METER_STATEMENT (16 R422, R424, R415). -/

namespace Sys2Proof.Proofs

open Sys2Proof.Machine Sys2Proof.Safety Sys2Proof.Laws

variable {jsn : Nat} {e : JournalEntry} {r : RunInfo} {s : State}

/-! ### The state word -/

/-- What was written is in force, one write on. -/
@[simp] theorem stateWord_putStateWord (f : StateWord → StateWord) (s : State) :
    stateWord (putStateWord f s) = { f (stateWord s) with seqNo := (stateWord s).seqNo + 1 } := by
  by_cases h : s.whd.copyA.seqNo < s.whd.copyB.seqNo
  · simp [putStateWord, stateWord, h]
  · simp [putStateWord, stateWord, h]

/-- A write of the state word changes its copies alone. -/
theorem putStateWord_shape (f : StateWord → StateWord) (s : State) :
    ∃ a b, putStateWord f s = { s with whd := { s.whd with copyA := a, copyB := b } } := by
  unfold putStateWord
  dsimp only
  split
  · exact ⟨_, _, rfl⟩
  · exact ⟨_, _, rfl⟩

@[simp] theorem putStateWord_jrn (f : StateWord → StateWord) (s : State) : (putStateWord f s).jrn = s.jrn := by
  obtain ⟨a, b, shape⟩ := putStateWord_shape f s
  rw [shape]

@[simp] theorem putStateWord_meters (f : StateWord → StateWord) (s : State) : (putStateWord f s).whd.meters = s.whd.meters := by
  obtain ⟨a, b, shape⟩ := putStateWord_shape f s
  rw [shape]

/-! ### LEDGER_READ -/

/-- The state in which the entries have been written. -/
def ledgerWritten (jsn : Nat) (e : JournalEntry) (s : State) : State :=
  if ledgerChoice e s = [] then begun jsn e s
  else hostStore (pktWord e 1).toNat ((ledgerChoice e s).flatMap entryBytes) (begun jsn e s)

theorem ledgerWritten_parts (jsn : Nat) (e : JournalEntry) (s : State) :
    (ledgerWritten jsn e s).jrn = (begun jsn e s).jrn ∧ (ledgerWritten jsn e s).whd = (begun jsn e s).whd := by
  unfold ledgerWritten
  split
  · exact ⟨rfl, rfl⟩
  · exact ⟨rfl, rfl⟩

/-- A Weighhouse that runs SEALED serves a message whose condition holds. -/
theorem mbServe_serves {ok : Bool} (h : whServes s = true) (hok : ok = true) (type : Nat) (k : State → State) :
    mbServe type ok k s = k s := by
  simp only [whServes, Bool.and_eq_true, beq_iff_eq] at h
  simp [mbServe, h.1, h.2, hok]

/-- What one asks the Weighhouse for is what it held at the beginning of the command. -/
theorem begun_whServes (jsn : Nat) (e : JournalEntry) (s : State) : whServes (begun jsn e s) = whServes s := by
  simp only [whServes, begun_whd]

theorem begun_ledgerChoice (jsn : Nat) (e : JournalEntry) (s : State) : ledgerChoice e (begun jsn e s) = ledgerChoice e s := by
  simp only [ledgerChoice, entriesFrom, begun_whd]

/-- Whether any entry is asked for: the state that holds what was written, as the command makes it. -/
theorem ledgerWritten_eq (jsn : Nat) (e : JournalEntry) (s : State) :
    ledgerWritten jsn e s = if (ledgerChoice e s).isEmpty then begun jsn e s
      else hostStore (pktWord e 1).toNat ((ledgerChoice e s).flatMap entryBytes) (begun jsn e s) := by
  simp only [ledgerWritten, List.isEmpty_iff]

theorem ledgerRead_answers (h : ready opLedgerRead jsn e r s = true) (ha : s.wh.avail = 1) (hs : whServes s = true) :
    ∃ t, exec (.ledgerRead jsn) s = .next t
      ∧ EndsWith jsn (okStatus r) (ledgerChoice e s).length (ledgerSpan s)
          (doMarkRead ((ledgerChoice e s).map (·.epoch)) (ledgerWritten jsn e s)) t := by
  obtain ⟨jrn, whd⟩ := ledgerWritten_parts jsn e s
  have written : whServes (ledgerWritten jsn e s) = true := by rw [whServes, whd, ← whServes, begun_whServes, hs]
  have marked : (doMarkRead ((ledgerChoice e s).map (·.epoch)) (ledgerWritten jsn e s)).jrn = (ledgerWritten jsn e s).jrn := by
    rw [doMarkRead, mbServe_serves written rfl]
  have held : Held jsn e r (doMarkRead ((ledgerChoice e s).map (·.epoch)) (ledgerWritten jsn e s)) :=
    (Held.ofReady h).ofJrn (marked.trans jrn)
  refine ⟨_, congrArg Host.Outcome.next ((onBegin_ready h _).trans ?_), held.endWith_ok⟩
  have span : ledgerSpan (ledgerWritten jsn e s) = ledgerSpan s := by simp only [ledgerSpan, whd, begun_whd]
  dsimp only
  rw [if_neg (by rw [begun_wh, ha]; decide), if_neg (by rw [begun_whServes, hs]; decide), begun_ledgerChoice, ← ledgerWritten_eq, span]

/-! ### METER_STATEMENT -/

/-- The state in which the statement has its number. -/
def numbered (jsn : Nat) (e : JournalEntry) (s : State) : State := nextStatement (begun jsn e s)

theorem meterStatement_answers (h : ready opMeterStatement jsn e r s = true) (ha : s.wh.avail = 1) (hs : whServes s = true)
    (hd : r.done ≤ s.wh.lastTsn) :
    ∃ t, exec (.meterStatement jsn) s = .next t
      ∧ EndsWith jsn (okStatus r) (statementContent (statementReq e) (numbered jsn e s)).length ((stateWord s).statementNo + 1)
          (hostStore (pktWord e 1).toNat (statementContent (statementReq e) (numbered jsn e s)) (numbered jsn e s)) t
      ∧ t.whd.meters = s.whd.meters := by
  have number : (stateWord (numbered jsn e s)).statementNo = (stateWord s).statementNo + 1 := by
    rw [numbered, nextStatement, stateWord_putStateWord, stateWord, begun_whd] <;> rfl
  have held : Held jsn e r (hostStore (pktWord e 1).toNat (statementContent (statementReq e) (numbered jsn e s)) (numbered jsn e s)) :=
    (Held.ofReady h).ofJrn (putStateWord_jrn ..)
  have ends := held.endWith_ok (r0 := (statementContent (statementReq e) (numbered jsn e s)).length)
    (r1 := (stateWord s).statementNo + 1)
  refine ⟨_, congrArg Host.Outcome.next ((onBegin_ready h _).trans ?_), ends, ?_⟩
  · dsimp only
    rw [if_neg (by rw [begun_wh, ha]; decide), if_neg (by simp [begun_whServes, hs, hd]), ← number] <;> rfl
  · rw [device_whd (endsWith_device ends)]
    exact (putStateWord_meters ..).trans (by rw [begun_whd])

/-! ### An unavailable Weighhouse -/

theorem ledgerRead_unavailable (h : ready opLedgerRead jsn e r s = true) (ha : s.wh.avail ≠ 1) :
    ∃ t, exec (.ledgerRead jsn) s = .next t ∧ Ends jsn stUnitDegraded (begun jsn e s) t :=
  ⟨_, congrArg Host.Outcome.next ((onBegin_ready h _).trans (if_pos (by rwa [begun_wh]))), (Held.ofReady h).endBare_fail (by decide)⟩

theorem meterStatement_unavailable (h : ready opMeterStatement jsn e r s = true) (ha : s.wh.avail ≠ 1) :
    ∃ t, exec (.meterStatement jsn) s = .next t ∧ Ends jsn stUnitDegraded (begun jsn e s) t :=
  ⟨_, congrArg Host.Outcome.next ((onBegin_ready h _).trans (if_pos (by rwa [begun_wh]))), (Held.ofReady h).endBare_fail (by decide)⟩

/-- Settles O18. -/
theorem ledgerAndStatementCommands : Obligations.LedgerAndStatementCommands :=
  ⟨fun _ _ _ _ => ledgerRead_answers, fun _ _ _ _ => meterStatement_answers, fun _ _ _ _ => ledgerRead_unavailable,
    fun _ _ _ _ => meterStatement_unavailable⟩

end Sys2Proof.Proofs
end

section
/-! PROOFS. The expert commands of the Packer (05 R143-R145) and of the tape electronics (08 R231-R235). -/

namespace Sys2Proof.Proofs

open Sys2Proof.Machine Sys2Proof.Safety Sys2Proof.Laws

variable {jsn op : Nat} {e : JournalEntry} {r : RunInfo} {s : State}

/-! ### PKR_ESTIMATE -/

/-- A command that works block by block begins with its own effect. -/
theorem blockwise_ready (h : ready op jsn e r s = true) (k : JournalEntry → State → State) :
    blockwise op jsn s k = .next (k e (begun jsn e s)) := by
  rw [blockwise, ready_not_started h]
  exact congrArg Host.Outcome.next (onBegin_ready h _)

/-- The sizes that PKR_ESTIMATE finds for the packet's bytes, at most so many blocks of them. -/
def estimated (e : JournalEntry) (bytes : List Byte) (blocks : Nat) (s : State) : Nat × Nat × Nat :=
  let level := capLevel (bits (pktWord e 2) 32 4) s
  estimate level (levelParams level s) (decide (s.pkr.cDegraded ≠ BitVec.allOnes 8)) (windowOf level s)
    (slice bytes 0 (bits (pktWord e 2) 0 32)) blocks 0 0 (0, 0, 0)

theorem begun_estimated (jsn : Nat) (e : JournalEntry) (bytes : List Byte) (blocks : Nat) (s : State) :
    estimated e bytes blocks (begun jsn e s) = estimated e bytes blocks s := by
  obtain ⟨h, o, l, p, w, m, shape⟩ := begun_shape jsn e s
  rw [shape]
  rfl

theorem pkrEstimate_answers {bytes : List Byte} {total blocks raws : Nat} (h : ready 0x70 jsn e r s = true)
    (hs : estimated e bytes (bits (pktWord e 2) 0 32 / 65536 + 1) s = (total, blocks, raws)) :
    ∃ t, exec (.pkrEstimate jsn bytes none) s = .next t
      ∧ EndsWith jsn (okStatus r) total (blocks * 2 ^ 32 + raws) (begun jsn e s) t := by
  refine ⟨_, ?_, (Held.ofReady h).endWith_ok⟩
  have sizes := (begun_estimated jsn e bytes _ s).trans hs
  unfold estimated at sizes
  dsimp only at sizes
  change execPkrEstimate jsn bytes none s = _
  rw [execPkrEstimate, blockwise_ready h]
  dsimp only
  rw [Option.getD_none, sizes]
  rfl

/-! ### PKR_SET_LEVEL -/

/-- The values that PKR_SET_LEVEL gives. -/
def levelValues (e : JournalEntry) : LevelParams :=
  if bitAt (pktWord e 1) 34 then levelDefaults.getD (bits (pktWord e 1) 0 4) { depth := 0, window := 0, lazyEval := 0 }
  else { depth := bits (pktWord e 1) 8 11, window := bits (pktWord e 1) 24 5, lazyEval := bits (pktWord e 1) 32 2 }

/-- The values wait for the next tick. -/
def levelGiven (e : JournalEntry) (u : State) : State :=
  { u with pkr := { u.pkr with levelNext := u.pkr.levelNext ++ [(bits (pktWord e 1) 0 4, levelValues e)] } }

theorem pkrSetLevel_sets (h : ready 0x71 jsn e r s = true) (hm : s.cmd.compatActive = false ∨ bits (pktWord e 1) 0 4 ≤ 6) :
    ∃ t, exec (.pkrSetLevel jsn) s = .next t ∧ RetiredWith jsn (okStatus r) t
      ∧ t.pkr = { s.pkr with levelNext := s.pkr.levelNext ++ [(bits (pktWord e 1) 0 4, levelValues e)] }
      ∧ t.ctx.records = s.ctx.records ∧ t.mem = s.mem ∧ t.fmt = s.fmt := by
  have ends := ((Held.ofReady h).ofJrn (v := levelGiven e (begun jsn e s)) rfl).endBare_ok
  have device := ends_device ends
  have same : (s.cmd.compatActive && decide (6 < bits (pktWord e 1) 0 4)) = false := by
    rcases hm with hm | hm
    · simp [hm]
    · simp [Nat.not_lt.2 hm]
  refine ⟨endBare jsn stOk (levelGiven e (begun jsn e s)), congrArg Host.Outcome.next ((onBegin_ready h _).trans (if_neg ?_)), ends.1, ?_, ?_, ?_, ?_⟩
  · rw [begun_cmd, same]
    decide
  · rw [device_pkr device, levelGiven, begun_pkr]
  · exact (device_records device).trans (device_records (begun_device jsn e s) :)
  · exact (device_mem device).trans (begun_mem jsn e s :)
  · exact (device_fmt device).trans (begun_fmt jsn e s :)

theorem pkrSetLevel_limited (h : ready 0x71 jsn e r s = true) (hm : s.cmd.compatActive = true) (hn : 6 < bits (pktWord e 1) 0 4) :
    ∃ t, exec (.pkrSetLevel jsn) s = .next t ∧ Ends jsn (okStatus r) (begun jsn e s) t :=
  ⟨_, congrArg Host.Outcome.next ((onBegin_ready h _).trans (if_pos (by rw [begun_cmd]; simp [hm, hn]))), (Held.ofReady h).endBare_ok⟩

/-! ### PKR_DECODE -/

/-- The blocks that PKR_DECODE decodes of its source, at most so many. -/
def decodedBlocks (e : JournalEntry) (bytes : List Byte) (blocks : Nat) : List Byte × Nat × Bool :=
  decodeBlocks (slice bytes 0 (bits (pktWord e 2) 0 32)) (bits (pktWord e 4) 0 32) blocks 0 [] []

/-- The decoded bytes have been written. -/
def decodeWritten (jsn : Nat) (e : JournalEntry) (out : List Byte) (s : State) : State :=
  if out = [] then begun jsn e s else hostStore (pktWord e 3).toNat out (begun jsn e s)

theorem exec_pkrDecode {bytes out : List Byte} {at_ : Nat} {bad : Bool} (part : Option Nat) (h : ready 0x72 jsn e r s = true)
    (hs : decodedBlocks e bytes (part.getD (bits (pktWord e 2) 0 32 / 17 + 1)) = (out, at_, bad)) :
    exec (.pkrDecode jsn bytes part) s = .next (if part.isSome then keepPart jsn out.length at_ (decodeWritten jsn e out s)
      else if bad then endR1 jsn stMediaError at_ (decodeWritten jsn e out s)
      else endWith jsn stOk out.length at_ (decodeWritten jsn e out s)) := by
  unfold decodedBlocks at hs
  change execPkrDecode jsn bytes part s = _
  rw [execPkrDecode, blockwise_ready h]
  dsimp only
  rw [hs]
  simp only [decodeWritten, List.isEmpty_iff]

theorem decodeWritten_held (out : List Byte) (h : ready op jsn e r s = true) : Held jsn e r (decodeWritten jsn e out s) := by
  refine (Held.ofReady h).ofJrn ?_
  unfold decodeWritten
  split
  · rfl
  · rfl

theorem pkrDecode_answers {bytes out : List Byte} {at_ : Nat} {bad : Bool} (h : ready 0x72 jsn e r s = true)
    (hs : decodedBlocks e bytes (bits (pktWord e 2) 0 32 / 17 + 1) = (out, at_, bad)) :
    ∃ t, exec (.pkrDecode jsn bytes none) s = .next t
      ∧ if bad = true then EndsR1 jsn stMediaError at_ (decodeWritten jsn e out s) t
        else EndsWith jsn (okStatus r) out.length at_ (decodeWritten jsn e out s) t := by
  refine ⟨_, exec_pkrDecode none h hs, ?_⟩
  cases bad
  · exact (decodeWritten_held out h).endWith_ok
  · exact (decodeWritten_held out h).endR1_fail (by decide)

/-- Settles O19. -/
theorem packerCommandsAnswer : Obligations.PackerCommandsAnswer :=
  ⟨fun _ _ _ _ _ _ _ _ => pkrEstimate_answers, fun _ _ _ _ => pkrSetLevel_sets, fun _ _ _ _ => pkrSetLevel_limited,
    fun _ _ _ _ _ _ _ _ => pkrDecode_answers, fun _ _ n _ _ _ _ _ _ h hs => exec_pkrDecode (some n) h hs⟩

/-! ### TEC_SET_DECODE, TEC_SET_DETECTOR, TEC_TRACK_QUALITY, TEC_C1_ENCODE -/

/-- The decode group that the packet gives. -/
def decodeGroup (e : JournalEntry) : Nat × Nat × Nat × Bool × Nat :=
  if bitAt (pktWord e 1) 14 then (8, 24, 4, true, 0xDEB8)
  else (bits (pktWord e 1) 0 4, bits (pktWord e 1) 4 6, bits (pktWord e 1) 10 3, bitAt (pktWord e 1) 13, bits (pktWord e 1) 16 16)

theorem tecSetDecode_answers (h : ready 0x7A jsn e r s = true) :
    ∃ t, exec (.tecSetDecode jsn) s = .next t
      ∧ EndsR0 jsn (okStatus r) (decodeWord s) { begun jsn e s with tec := { s.tec with decodeNext := some (decodeGroup e) } } t := by
  refine ⟨_, congrArg Host.Outcome.next ((onBegin_ready h _).trans ?_), ((Held.ofReady h).ofJrn (by rfl)).endR0_ok⟩
  simp only [decodeWord, begun_tec] <;> rfl

theorem tecSetDetector_sets (h : ready 0x7C jsn e r s = true) :
    ∃ t, exec (.tecSetDetector jsn) s = .next t
      ∧ Ends jsn (okStatus r) { begun jsn e s with tec := { s.tec with
          detectNext := some (bitAt (pktWord e 1) 0, bitAt (pktWord e 1) 1, bits (pktWord e 1) 4 4) } } t := by
  refine ⟨_, congrArg Host.Outcome.next ((onBegin_ready h _).trans ?_), ((Held.ofReady h).ofJrn (by rfl)).endBare_ok⟩
  simp only [begun_tec] <;> rfl

/-- The record of the wrap that TEC_TRACK_QUALITY writes. -/
def qualityPage (e : JournalEntry) (s : State) : List Byte :=
  wrapPage (if bitAt (pktWord e 2) 0 then wrapRecord false s else s.tec.last)

theorem begun_qualityPage (jsn : Nat) (e : JournalEntry) (s : State) : qualityPage e (begun jsn e s) = qualityPage e s := by
  obtain ⟨h, o, l, p, w, m, shape⟩ := begun_shape jsn e s
  rw [shape]
  rfl

theorem tecTrackQuality_answers (h : ready 0x7B jsn e r s = true) :
    ∃ t, exec (.tecTrackQuality jsn) s = .next t
      ∧ EndsR0 jsn (okStatus r) 1040 (hostStore (pktWord e 1).toNat (qualityPage e s) (begun jsn e s)) t := by
  have ends : EndsR0 jsn (okStatus r) 1040 _ _ :=
    ((Held.ofReady h).ofJrn (v := hostStore (pktWord e 1).toNat (qualityPage e s) (drawFree (begun jsn e s))) rfl).endR0_ok
  refine ⟨endR0 jsn stOk 1040 (hostStore (pktWord e 1).toNat (qualityPage e s) (drawFree (begun jsn e s))),
    congrArg Host.Outcome.next ((onBegin_ready h _).trans ?_), ends⟩
  rw [← begun_qualityPage jsn e s]
  rfl

theorem tecC1Encode_writes {bytes : List Byte} (h : ready 0x7E jsn e r s = true) :
    ∃ t, exec (.tecC1Encode jsn bytes) s = .next t
      ∧ Ends jsn (okStatus r) (hostStore (pktWord e 2).toNat (c1Bytes bytes) (begun jsn e s)) t :=
  ⟨_, congrArg Host.Outcome.next (onBegin_ready h _), ((Held.ofReady h).ofJrn (by rfl)).endBare_ok⟩

/-! ### TEC_CAPTURE -/

/-- What is captured does not look at the journal. -/
theorem captureSlots_withJrn (e : JournalEntry) (done : Nat) (slots : List (List Int)) (s : State) (j : Journal) :
    captureSlots e done slots { s with jrn := j } = { captureSlots e done slots s with jrn := j } := by
  unfold captureSlots
  dsimp only
  generalize slots.zipIdx = l
  induction l generalizing s with
  | nil => rfl
  | cons p l ih => exact ih (hostStore _ _ s)

theorem captureSlots_jrn (e : JournalEntry) (done : Nat) (slots : List (List Int)) (s : State) :
    (captureSlots e done slots s).jrn = s.jrn :=
  (congrArg State.jrn (captureSlots_withJrn e done slots s s.jrn) :)

/-- One capture of TEC_CAPTURE: the slots that are still wanted are written, and the run holds how many there are. -/
def captured (e : JournalEntry) (r : RunInfo) (slots : List (List Int)) (s : State) : State :=
  setRun e.jsn (fun x => { x with done := r.done + slots.length }) (captureSlots e r.done slots s)

theorem captured_held {slots : List (List Int)} {x : RunInfo} (h : Held e.jsn e x s) :
    Held e.jsn e { x with done := r.done + slots.length } (captured e r slots s) :=
  (h.ofJrn (captureSlots_jrn e r.done slots s)).setRun (f := fun x => { x with done := r.done + slots.length }) fun _ => rfl

/-- The state in which TEC_CAPTURE has started with nothing captured. -/
def captureBegun (e : JournalEntry) (s : State) : State := setRun e.jsn (fun r => { r with done := 0 }) (startRun e.jsn s)

theorem captured_onlyAnswers (e : JournalEntry) (r : RunInfo) (slots : List (List Int)) (s : State) :
    OnlyAnswers (captureSlots e r.done slots s) (captured e r slots (captureBegun e s)) := by
  have after := captureSlots_withJrn e r.done slots s (captureBegun e s).jrn
  have before := captureSlots_withJrn e r.done slots s s.jrn
  have same : captureSlots e r.done slots (captureBegun e s) = { captureSlots e r.done slots s with jrn := (captureBegun e s).jrn } := after
  rw [captured, same]
  refine ⟨?_, List.prefix_rfl⟩
  rw [show captureSlots e r.done slots s = { captureSlots e r.done slots s with jrn := s.jrn } from before]
  rfl

/-- An end counts from any earlier state from which only answers have gone out. -/
theorem endsR0_from {u v t : State} {st r0 : Nat} (h : EndsR0 jsn st r0 v t) (ho : OnlyAnswers u v) : EndsR0 jsn st r0 u t := by
  obtain ⟨r1, retired, gone, device, out⟩ := h
  exact ⟨r1, retired, gone, device.trans ho.1, List.IsPrefix.trans ho.2 out⟩

/-- TEC_CAPTURE with the slots that have passed: it ends when it has COUNT of them. -/
def captureStep (e : JournalEntry) (r : RunInfo) (slots : List (List Int)) (s : State) : State :=
  let new := slots.take (bits (pktWord e 3) 0 8 - r.done)
  if r.done + new.length = bits (pktWord e 3) 0 8 then endR0 e.jsn stOk (r.done + new.length) (captured e r new s) else captured e r new s

theorem exec_tecCapture_first (slots : List (List Int)) (h : ready 0x7D jsn e r s = true) :
    exec (.tecCapture jsn slots) s = .next (captureStep e { r with done := 0 } slots (captureBegun e (begun jsn e s))) := by
  have named := (Held.ofReady h).jsn_eq
  subst named
  change execTecCapture e.jsn slots s = _
  rw [execTecCapture, ready_not_started h]
  exact congrArg Host.Outcome.next (onBegin_ready h _)

theorem exec_tecCapture_next (slots : List (List Int)) (h : started 0x7D jsn s = some (e, r)) :
    exec (.tecCapture jsn slots) s = .next (captureStep e r slots s) := by
  have named := findEntry_jsn (started_found h).1
  subst named
  change execTecCapture e.jsn slots s = _
  rw [execTecCapture, h]
  rfl

theorem captureBegun_held (h : Held e.jsn e r s) :
    Held e.jsn e { r with phase := .started, since := s.aon.time, done := 0 } (captureBegun e s) :=
  (h.setRun (f := fun r => { r with phase := .started, since := s.aon.time }) fun _ => rfl).setRun
    (f := fun r => { r with done := 0 }) fun _ => rfl

theorem tecCapture_whole {slots : List (List Int)} (h : ready 0x7D jsn e r s = true) (hn : bits (pktWord e 3) 0 8 ≤ slots.length) :
    ∃ t, exec (.tecCapture jsn slots) s = .next t
      ∧ EndsR0 jsn (okStatus r) (bits (pktWord e 3) 0 8) (captureSlots e 0 (slots.take (bits (pktWord e 3) 0 8)) (begun jsn e s)) t := by
  have named := (Held.ofReady h).jsn_eq
  subst named
  have held := captured_held (r := { r with done := 0 }) (slots := slots.take (bits (pktWord e 3) 0 8)) (captureBegun_held (Held.ofReady h))
  have taken : 0 + (slots.take (bits (pktWord e 3) 0 8 - 0)).length = bits (pktWord e 3) 0 8 := by
    rw [Nat.zero_add, Nat.sub_zero, List.length_take, Nat.min_eq_left hn]
  refine ⟨_, (exec_tecCapture_first slots h).trans (congrArg _ ?_), endsR0_from held.endR0_ok
    (captured_onlyAnswers e { r with done := 0 } (slots.take (bits (pktWord e 3) 0 8)) (begun e.jsn e s))⟩
  rw [captureStep]
  dsimp only
  rw [if_pos taken, taken, Nat.sub_zero]

theorem tecCapture_goesOn {slots : List (List Int)} (h : ready 0x7D jsn e r s = true) (hn : slots.length < bits (pktWord e 3) 0 8) :
    ∃ t, exec (.tecCapture jsn slots) s = .next t ∧ OnlyAnswers (captureSlots e 0 slots (begun jsn e s)) t
      ∧ (findRun t jsn).any (fun x => x.done == slots.length && x.phase == .started) = true := by
  have named := (Held.ofReady h).jsn_eq
  subst named
  have held := captured_held (r := { r with done := 0 }) (slots := slots) (captureBegun_held (Held.ofReady h))
  refine ⟨captured e { r with done := 0 } slots (captureBegun e (begun e.jsn e s)), (exec_tecCapture_first slots h).trans (congrArg _ ?_), ?_, ?_⟩
  · rw [captureStep]
    dsimp only
    rw [Nat.sub_zero, List.take_of_length_le hn.le, if_neg (by omega)]
  · exact captured_onlyAnswers e { r with done := 0 } slots (begun e.jsn e s)
  · rw [held.2.1]
    simp

theorem tecCapture_last {slots : List (List Int)} (h : started 0x7D jsn s = some (e, r)) (hf : retireFree s = true)
    (hn : r.done + slots.length = bits (pktWord e 3) 0 8) :
    ∃ t, exec (.tecCapture jsn slots) s = .next t
      ∧ EndsR0 jsn (okStatus r) (bits (pktWord e 3) 0 8) (captureSlots e r.done slots s) t := by
  have named := (Held.ofStarted h hf).jsn_eq
  subst named
  have held := captured_held (r := r) (slots := slots) (Held.ofStarted h hf)
  refine ⟨_, (exec_tecCapture_next slots h).trans (congrArg _ ?_), held.endR0_ok (r0 := bits (pktWord e 3) 0 8)⟩
  rw [captureStep, List.take_of_length_le (by omega), if_pos hn, hn]

theorem tecCapture_timeout {at_ : Nat} (h : started 0x7D jsn s = some (e, r)) (hf : retireFree s = true)
    (ht : passedMs r.since (max s.aon.time at_) 10000 = true) :
    ∃ t, exec (.tecCaptureTimeout jsn at_) s = .next t ∧ EndsR0 jsn (okStatus r) r.done (atTime at_ s) t := by
  refine ⟨_, ?_, ((Held.ofStarted h hf).ofJrn (by rfl)).endR0_ok⟩
  change execTecCaptureTimeout jsn at_ s = _
  have found : started 0x7D jsn (atTime at_ s) = some (e, r) := h
  rw [execTecCaptureTimeout]
  dsimp only
  rw [found]
  exact congrArg Host.Outcome.next (if_pos ht)

/-- Settles O20. -/
theorem tecCommandsAndCapture : Obligations.TecCommandsAndCapture :=
  ⟨⟨fun _ _ _ _ => tecSetDecode_answers, fun _ _ _ _ => tecSetDetector_sets, fun _ _ _ _ => tecTrackQuality_answers,
    fun _ _ _ _ _ => tecC1Encode_writes⟩, fun _ _ _ _ _ => tecCapture_whole, fun _ _ _ _ _ => tecCapture_goesOn,
    fun _ _ _ _ _ => tecCapture_last, fun _ _ _ _ _ => tecCapture_timeout⟩

end Sys2Proof.Proofs
end

section
/-! PROOFS. DRV_SET_SECTION, DRV_SET_MODE, DRV_MOVE and DRV_CAPTURE (12 R325-R328). -/

namespace Sys2Proof.Proofs

open Sys2Proof.Machine Sys2Proof.Safety Sys2Proof.Laws

variable {jsn op at_ : Nat} {e : JournalEntry} {r : RunInfo} {s u : State}

/-- The run of a command that has started is found started. -/
theorem startRun_phase (h : Held jsn e r u) : (findRun (startRun jsn u) jsn).any (fun x => x.phase == .started) = true := by
  have held := h.setRun (f := fun r => { r with phase := .started, since := u.aon.time }) fun _ => rfl
  exact (congrArg _ held.2.1).trans rfl

/-- A command of the Drover has started: its run is, and the Drover holds what it gave; nothing else has changed. -/
def drvStarted (jsn : Nat) (e : JournalEntry) (d : Drv) (s : State) : State :=
  { startRun jsn (begun jsn e s) with drv := d }

theorem drvStarted_parts (h : ready op jsn e r s = true) (d : Drv) :
    (findRun (drvStarted jsn e d s) jsn).any (fun x => x.phase == .started) = true
      ∧ (drvStarted jsn e d s).mem = s.mem ∧ (drvStarted jsn e d s).mon = s.mon ∧ (drvStarted jsn e d s).cart = s.cart
      ∧ (drvStarted jsn e d s).ctx.records = s.ctx.records :=
  ⟨startRun_phase (Held.ofReady h), (begun_mem jsn e s :), (begun_mon jsn e s :), (begun_cart jsn e s :),
    (device_records (begun_device jsn e s) :)⟩

/-- A Drover that is neither degraded nor offline nor busy serves the command. -/
theorem needUnits_drover (hu : unitState unDrover s = 0) (k : State → State) :
    needUnits [unDrover] jsn (begun jsn e s) k = k (begun jsn e s) := by
  have same : unitState unDrover (begun jsn e s) = 0 := by rw [unitState, begun_sys]; exact hu
  simp [needUnits, unitDown, same]

/-! ### DRV_SET_SECTION, DRV_SET_MODE, DRV_MOVE -/

theorem drvSetSection_gives (h : ready 0x60 jsn e r s = true) (hu : unitState unDrover s = 0) :
    ∃ t, exec (.drvSetSection jsn) s = .next t
      ∧ t.drv.loops = s.drv.loops.modify (jobLoop e) (fun l => { l with
          loads := l.loads ++ [(bits (pktWord e 1) 8 3, setSectionOf e)], hostCoef := true })
      ∧ (findRun t jsn).any (fun x => x.phase == .started) = true ∧ (∃ j ∈ t.drv.sets, j.jsn = jsn ∧ j.loop = jobLoop e)
      ∧ t.mem = s.mem ∧ t.mon = s.mon ∧ t.cart = s.cart ∧ t.ctx.records = s.ctx.records := by
  obtain ⟨phase, rest⟩ := drvStarted_parts h { (begun jsn e s).drv with
    loops := (begun jsn e s).drv.loops.modify (jobLoop e) fun l => { l with
      loads := l.loads ++ [(bits (pktWord e 1) 8 3, setSectionOf e)], hostCoef := true }
    sets := (begun jsn e s).drv.sets ++ [mkJob e (setSectionOf e).exp (begun jsn e s)] }
  refine ⟨_, congrArg Host.Outcome.next ((onBegin_ready h _).trans (needUnits_drover hu _)), ?_, phase,
    ⟨_, List.mem_append_right _ (List.mem_singleton_self _), (Held.ofReady h).jsn_eq, rfl⟩, rest⟩
  exact congrArg (fun d : Drv => d.loops.modify (jobLoop e) _) (begun_drv jsn e s)

theorem drvSetMode_gives (h : ready 0x61 jsn e r s = true) (ht : tapeReady s = true) :
    ∃ t, exec (.drvSetMode jsn) s = .next t
      ∧ t.drv.loops = s.drv.loops.modify (jobLoop e) (fun l => { l with modeReq := bits (pktWord e 1) 8 2 })
      ∧ (findRun t jsn).any (fun x => x.phase == .started) = true ∧ (∃ j ∈ t.drv.modes, j.jsn = jsn ∧ j.loop = jobLoop e)
      ∧ t.mem = s.mem ∧ t.mon = s.mon ∧ t.cart = s.cart ∧ t.ctx.records = s.ctx.records := by
  obtain ⟨phase, rest⟩ := drvStarted_parts h { (begun jsn e s).drv with
    loops := (begun jsn e s).drv.loops.modify (jobLoop e) fun l => { l with modeReq := bits (pktWord e 1) 8 2 }
    modes := (begun jsn e s).drv.modes ++
      [{ mkJob e (bits (pktWord e 1) 8 2) (begun jsn e s) with at_ := (getLoop (jobLoop e) (begun jsn e s)).mode }] }
  refine ⟨_, congrArg Host.Outcome.next (onTape_ready h ht _), ?_, phase,
    ⟨_, List.mem_append_right _ (List.mem_singleton_self _), (Held.ofReady h).jsn_eq, rfl⟩, rest⟩
  exact congrArg (fun d : Drv => d.loops.modify (jobLoop e) _) (begun_drv jsn e s)

theorem drvMove_gives (h : ready 0x62 jsn e r (atTime at_ s) = true) (ht : tapeReady (atTime at_ s) = true) :
    ∃ t, exec (.drvMove jsn at_) s = .next t
      ∧ t.drv.loops = s.drv.loops.modify (jobLoop e) (fun l => { l with targetNext := some (moveTarget e) })
      ∧ (findRun t jsn).any (fun x => x.phase == .started) = true ∧ (∃ j ∈ t.drv.moves, j.jsn = jsn ∧ j.target = moveTarget e)
      ∧ t.mem = s.mem ∧ t.mon = s.mon ∧ t.cart = s.cart ∧ t.ctx.records = s.ctx.records := by
  obtain ⟨phase, rest⟩ := drvStarted_parts h { (begun jsn e (atTime at_ s)).drv with
    loops := (begun jsn e (atTime at_ s)).drv.loops.modify (jobLoop e) fun l => { l with targetNext := some (moveTarget e) }
    moves := (begun jsn e (atTime at_ s)).drv.moves ++ [mkJob e (moveTarget e) (begun jsn e (atTime at_ s))] }
  refine ⟨_, congrArg Host.Outcome.next (onTape_ready h ht _), ?_, phase,
    ⟨_, List.mem_append_right _ (List.mem_singleton_self _), (Held.ofReady h).jsn_eq, rfl⟩, rest⟩
  exact congrArg (fun d : Drv => d.loops.modify (jobLoop e) _) (begun_drv jsn e (atTime at_ s))

theorem drvMove_timeout (h : started 0x62 jsn (atTime at_ s) = some (e, r)) (hf : retireFree s = true) (hn : moveTimeout e ≠ 0)
    (ht : passedMs r.since (max s.aon.time at_) (moveTimeout e) = true) :
    ∃ t, exec (.drvMoveTimeout jsn at_) s = .next t ∧ EndsR1 jsn (okStatus r) 1 (dropMove jsn (atTime at_ s)) t
      ∧ ∀ j ∈ t.drv.moves, j.jsn ≠ jsn := by
  have ends : EndsR1 jsn (okStatus r) 1 (dropMove jsn (atTime at_ s)) _ := ((Held.ofStarted h hf).ofJrn (by rfl)).endR1_ok
  refine ⟨endR1 jsn stOk 1 (dropMove jsn (atTime at_ s)), ?_, ends, ?_⟩
  · change execDrvMoveTimeout jsn at_ s = _
    rw [execDrvMoveTimeout]
    dsimp only
    rw [h]
    exact congrArg Host.Outcome.next (if_pos ⟨hn, ht⟩)
  · rw [device_drv (endsR1_device ends)]
    intro j hj
    simpa using (List.mem_filter.1 hj).2

/-! ### DRV_CAPTURE -/

theorem drvCapture_none (h : ready 0x63 jsn e r s = true) (hu : unitState unDrover s = 0) (hn : bits (pktWord e 3) 0 24 = 0) :
    ∃ t, exec (.drvCapture jsn) s = .next t ∧ EndsR0 jsn (okStatus r) 0 (begun jsn e s) t :=
  ⟨_, congrArg Host.Outcome.next ((onBegin_ready h _).trans ((needUnits_drover hu _).trans (if_pos hn))), (Held.ofReady h).endR0_ok⟩

/-- A command that names no context and fetches nothing begins in the state that it finds. -/
theorem begun_self (hc : namesCtx e = false) (hf : fetchRanges e = []) (jsn : Nat) (s : State) : begun jsn e s = s := by
  rw [begun, hc, fetchHost, hf]
  rfl

theorem drvCapture_begins (h : ready 0x63 jsn e r s = true) (hu : unitState unDrover s = 0) (hn : bits (pktWord e 3) 0 24 ≠ 0) :
    ∃ t, exec (.drvCapture jsn) s = .next t
      ∧ (findRun t jsn).any (fun x => x.phase == .started && x.done == 0) = true
      ∧ (∃ j ∈ t.drv.captures, j.jsn = jsn ∧ j.loop = jobLoop e)
      ∧ t.drv.loops = s.drv.loops ∧ t.mem = s.mem ∧ t.mon = s.mon ∧ t.out = s.out := by
  have same : begun jsn e s = s := begun_self (by simp [namesCtx, ready_entryOp h, isWriteOp]) (by simp [fetchRanges, ready_entryOp h]) jsn s
  have held := (((Held.ofReady h).setRun (f := fun r => { r with phase := .started, since := (begun jsn e s).aon.time }) fun _ => rfl).setRun
    (f := fun r => { r with done := 0 }) fun _ => rfl)
  refine ⟨_, congrArg Host.Outcome.next ((onBegin_ready h _).trans ((needUnits_drover hu _).trans (if_neg hn))), ?_,
    ⟨_, List.mem_append_right _ (List.mem_singleton_self _), (Held.ofReady h).jsn_eq, rfl⟩, ?_, ?_, ?_, ?_⟩
  · exact (congrArg _ held.2.1).trans rfl
  · exact (congrArg (·.drv.loops) same :)
  · exact (congrArg State.mem same :)
  · exact (congrArg State.mon same :)
  · exact (congrArg State.out same :)

/-- Settles O21. -/
theorem droverCommands : Obligations.DroverCommands :=
  ⟨⟨fun _ _ _ _ => drvSetSection_gives, fun _ _ _ _ => drvSetMode_gives, fun _ _ _ _ _ => drvMove_gives⟩,
    fun _ _ _ _ _ => drvMove_timeout, fun _ _ _ _ => drvCapture_none, fun _ _ _ _ => drvCapture_begins⟩

end Sys2Proof.Proofs
end

section
/-! PROOFS. The Drover, the transport monitor, the thermal and power blocks and the Weighhouse: `f_gear` says that an operation of the write
pipeline leaves them as they are, the end of a writing run among them. -/

namespace Sys2Proof.Machine

def State.gear (s : State) : Drv × Mon × Thm × Pwr × Weighhouse := (s.drv, s.mon, s.thm, s.pwr, s.whd)

end Sys2Proof.Machine

namespace Sys2Proof.Proofs

open Sys2Proof.Machine Sys2Proof.Safety Sys2Proof.Laws

@[simp] theorem gear_mk sys hif cmd jrn ctx pkr cph fmt tec vfy hlk drv mon spm prt mem thm pwr aon wh whd mram cart mgt pending out freeCount :
    (State.mk sys hif cmd jrn ctx pkr cph fmt tec vfy hlk drv mon spm prt mem thm pwr aon wh whd mram cart mgt pending out freeCount).gear = (drv, mon, thm, pwr, whd) := rfl

@[simp] theorem gear_fold (s : State) : (s.drv, s.mon, s.thm, s.pwr, s.whd) = s.gear := rfl

@[simp] theorem foldl_gear {α : Type} {f : State → α → State} (hf : ∀ s x, (f s x).gear = s.gear) (l : List α) (s : State) :
    (l.foldl f s).gear = s.gear := by
  induction l generalizing s with
  | nil => rfl
  | cons a t ih => rw [List.foldl_cons, ih, hf]

@[simp] theorem ite_gear (c : Prop) [Decidable c] (a b : State) : (if c then a else b).gear = if c then a.gear else b.gear :=
  apply_ite State.gear c a b

theorem optMap_gear {f : State → State} (hf : ∀ s, (f s).gear = s.gear) {o : Option State} {m : Drv × Mon × Thm × Pwr × Weighhouse}
    (ho : ∀ r, o = some r → r.gear = m) (r : State) (h : o.map f = some r) : r.gear = m := by
  obtain ⟨u, hu, rfl⟩ := Option.map_eq_some_iff.1 h
  rw [hf, ho u hu]

theorem getD_gear {o : Option State} {m : Drv × Mon × Thm × Pwr × Weighhouse} (ho : ∀ r, o = some r → r.gear = m) (s : State) (hs : s.gear = m) :
    (o.getD s).gear = m := by
  cases o with
  | none => exact hs
  | some u => exact ho u rfl

/-! ### Events and buffers -/

theorem OnlyEvents.gear {s t : State} (h : OnlyEvents s t) : t.gear = s.gear := by
  obtain ⟨_, _, _, _, _, _, rfl, -⟩ := h; rfl

theorem OnlyPorter.gear {s t : State} (h : OnlyPorter s t) : t.gear = s.gear := h.elim fun _ h => h.gear

@[simp] theorem emit_gear (o : Output) (s : State) : (emit o s).gear = s.gear := (emit_onlyEvents o s).gear
@[simp] theorem drawFree_gear (s : State) : (drawFree s).gear = s.gear := rfl
@[simp] theorem msixTrigger_gear (vec : Nat) (en : Bool) (s : State) : (msixTrigger vec en s).gear = s.gear := (msixTrigger_onlyEvents vec en s).gear
@[simp] theorem hostStore_gear (addr : Nat) (l : List Byte) (s : State) : (hostStore addr l s).gear = s.gear := (hostStore_onlyEvents addr l s).gear
@[simp] theorem raise_gear (src p0 p1 : Nat) (s : State) : (raise src p0 p1 s).gear = s.gear := (raise_onlyEvents ..).gear
@[simp] theorem raiseP_gear (src p0 : Nat) (s : State) : (raiseP src p0 s).gear = s.gear := (raiseP_onlyEvents ..).gear
@[simp] theorem raiseN_gear (src : Nat) (s : State) : (raiseN src s).gear = s.gear := (raiseN_onlyEvents ..).gear
@[simp] theorem freeBuffer_gear (o : Nat) (h : Word) (s : State) : (freeBuffer o h s).gear = s.gear :=
  (freeBuffer_onlyPorter o h s).gear

@[simp] theorem setCq_gear (n : Nat) (f : CplRing → CplRing) (s : State) : (setCq n f s).gear = s.gear := by
  unfold setCq; simp
@[simp] theorem cplWrite_gear (n : Nat) (c : Completion) (s : State) : (cplWrite n c s).gear = s.gear := by
  unfold cplWrite; simp
@[simp] theorem cplPost_gear (n : Nat) (c : Completion) (s : State) : (cplPost n c s).gear = s.gear := by
  unfold cplPost; simp
@[simp] theorem mgtReturn_gear (c : Completion) (s : State) : (mgtReturn c s).gear = s.gear := by
  unfold mgtReturn; simp
@[simp] theorem postTo_gear (ring : Nat) (c : Completion) (s : State) : (postTo ring c s).gear = s.gear := by
  unfold postTo; simp
@[simp] theorem setRun_gear (jsn : Nat) (f : RunInfo → RunInfo) (s : State) : (setRun jsn f s).gear = s.gear := by
  unfold setRun; simp
@[simp] theorem setEntry_gear (jsn : Nat) (f : JournalEntry → JournalEntry) (s : State) : (setEntry jsn f s).gear =
    s.gear := by
  unfold setEntry; simp
@[simp] theorem postAccepted_gear (e : JournalEntry) (s : State) : (postAccepted e s).gear = s.gear := by
  unfold postAccepted; simp
@[simp] theorem beginFree_gear (jsn : Nat) (s : State) : (beginFree jsn s).gear = s.gear := by
  unfold beginFree; simp
@[simp] theorem setSlot_gear (t : Bool × Nat) (k : KeySlot) (s : State) : (setSlot t k s).gear = s.gear := by
  unfold setSlot; simp
@[simp] theorem freePending_gear (e : JournalEntry) (s : State) : (freePending e s).gear = s.gear := by
  unfold freePending; simp
@[simp] theorem endPhase_gear (s : State) : (endPhase s).gear = s.gear := by
  unfold endPhase; simp
@[simp] theorem replayDone_gear (s : State) : (replayDone s).gear = s.gear := by
  unfold replayDone; simp
@[simp] theorem replayEnded_gear (wasReplayed : Bool) (s : State) : (replayEnded wasReplayed s).gear = s.gear := by
  unfold replayEnded; simp
@[simp] theorem abortMissed_gear (jsn : Nat) (s : State) : (abortMissed jsn s).gear = s.gear := by
  unfold abortMissed; simp
@[simp] theorem reportFirst_gear (e : JournalEntry) (s : State) : (reportFirst e s).gear = s.gear := by
  unfold reportFirst; simp
@[simp] theorem unpin_gear (e : JournalEntry) (s : State) : (unpin e s).gear = s.gear := by
  unfold unpin; simp
@[simp] theorem retireNow_gear (e : JournalEntry) (r : RunInfo) (status : Nat) (r0 r1 : Word) (s : State) :
    (retireNow e r status r0 r1 s).gear = s.gear := by
  unfold retireNow; simp
@[simp] theorem endCommand_gear (jsn status : Nat) (r0 r1 : Word) (s : State) : (endCommand jsn status r0 r1
    s).gear = s.gear := by
  unfold endCommand; (repeat' split) <;> simp
@[simp] theorem endWith_gear (jsn status r0 r1 : Nat) (s : State) : (endWith jsn status r0 r1 s).gear = s.gear := by
  unfold endWith; simp
@[simp] theorem modLane_gear (n : Nat) (f : HlkLane → HlkLane) (s : State) : (modLane n f s).gear = s.gear := by
  unfold modLane; simp
@[simp] theorem sendBlocks_gear (lane : Nat) (l : List (BitVec 2 × Word)) (s : State) : (sendBlocks lane l s).gear = s.gear := by
  unfold sendBlocks; simp
@[simp] theorem sendFrame_gear (ftype source index : Nat) (data : List Word) (s : State) : (sendFrame ftype source index data s).gear = s.gear := by
  unfold sendFrame; (repeat' split) <;> simp
@[simp] theorem sendControl_gear (ftype : Nat) (data : List Word) (s : State) : (sendControl ftype data s).gear = s.gear := by
  unfold sendControl; simp
@[simp] theorem setPool_gear (p : Nat) (f : Pool → Pool) (s : State) : (setPool p f s).gear = s.gear := by
  unfold setPool; simp
@[simp] theorem setBuf_gear (p i : Nat) (b : BufRec) (s : State) : (setBuf p i b s).gear = s.gear := by
  unfold setBuf; simp
@[simp] theorem takeBuf_gear (p owner : Nat) (s : State) : (takeBuf p owner s).2.gear = s.gear := by
  unfold takeBuf; simp
theorem porterTry_gear (owner size : Nat) (s : State) (q : (Word × State)) (hr : porterTry owner size s = some q) :
    q.2.gear = s.gear := by
  unfold porterTry at hr; dsimp only at hr; split at hr
  · cases hr; rw [takeBuf_gear]; split <;> rfl
  · cases hr
@[simp] theorem setCtx_gear (n : Nat) (f : Context → Context) (s : State) : (setCtx n f s).gear = s.gear := by
  unfold setCtx; simp
@[simp] theorem endWriteAt_gear (e : JournalEntry) (st r1 : Nat) (s : State) : (endWriteAt e st r1 s).gear = s.gear := by
  unfold endWriteAt; simp
@[simp] theorem endWrite_gear (e : JournalEntry) (st : Nat) (s : State) : (endWrite e st s).gear = s.gear := by
  unfold endWrite; simp
@[simp] theorem burnIv_gear (n : Nat) (s : State) : (burnIv n s).gear = s.gear := by
  unfold burnIv; simp
@[simp] theorem writeGate_gear (on : Bool) (s : State) : (writeGate on s).gear = s.gear := by
  unfold writeGate; simp
@[simp] theorem modCart_gear (f : Cartridge → Cartridge) (s : State) : (modCart f s).gear = s.gear := by
  unfold modCart; simp
@[simp] theorem cutEnd_gear (p n : Nat) (s : State) : (cutEnd p n s).gear = s.gear := by
  unfold cutEnd; simp
theorem openDataset_gear (p : Nat) (s : State) (q : State) (hr : openDataset p s = some q) : q.gear = s.gear := by
  unfold openDataset at hr; split at hr
  · cases hr
  · split at hr
    · cases hr
    · rename_i heq
      have := porterTry_gear _ _ _ _ heq
      cases hr; simpa using this
@[simp] theorem parkOpened_gear (s : State) : (parkOpened s).gear = s.gear := by
  unfold parkOpened; (repeat' split) <;> simp
@[simp] theorem modOpened_gear (f : OpenDataset → OpenDataset) (s : State) : (modOpened f s).gear = s.gear := by
  unfold modOpened; simp
@[simp] theorem setWrite_gear (jsn : Nat) (f : WriteRun → WriteRun) (s : State) : (setWrite jsn f s).gear = s.gear
    := by
  unfold setWrite; simp
theorem putFrameBytes_gear (n : Nat) (meter : Option Nat) (w : WriteRun) (first : Nat) (s : State) (q : State) (hr
    : putFrameBytes n meter w first s = some q) : q.gear = s.gear := by
  unfold putFrameBytes at hr; split at hr
  · cases hr
  · dsimp only at hr; split at hr
    · cases hr; simp
    · refine optMap_gear (fun _ => by simp) (fun r h => ?_) q hr
      have := openDataset_gear _ _ _ h; simpa using this
@[simp] theorem noteDone_gear (jsn : Nat) (s : State) : (noteDone jsn s).gear = s.gear := by
  unfold noteDone; (repeat' split) <;> simp
@[simp] theorem sealOpen_gear (ctx : Nat) (s : State) : (sealOpen ctx s).gear = s.gear := by
  unfold sealOpen; (repeat' split) <;> simp
theorem closeFrame_gear (s : State) (q : State) (hr : closeFrame s = some q) : q.gear = s.gear := by
  unfold closeFrame at hr; split at hr
  · cases hr; rfl
  · split at hr
    · cases hr; rfl
    · dsimp only at hr; split at hr
      · cases hr; simp
      · exact optMap_gear (fun _ => by simp) (fun r h => putFrameBytes_gear _ _ _ _ _ _ h) q hr
theorem closeDataset_gear (s : State) (q : State) (hr : closeDataset s = some q) : q.gear = s.gear := by
  unfold closeDataset at hr; split at hr
  · cases hr
  · rename_i heq
    have := closeFrame_gear _ _ heq
    split at hr <;> cases hr <;> simp [this]
@[simp] theorem closeOpen_gear (s : State) : (closeOpen s).gear = s.gear := getD_gear (fun r h => closeDataset_gear
    _ _ h) _ rfl
@[simp] theorem noteSeq_gear (seq : Nat) (marks : List (Nat × Nat)) (s : State) : (noteSeq seq marks s).gear =
    s.gear := by
  unfold noteSeq; simp
@[simp] theorem formWith_gear (ds : Dataset) (w : WrittenDataset) (s : State) : (formWith ds w s).gear = s.gear := by
  unfold formWith; simp
@[simp] theorem closeGroup_gear (p : Nat) (s : State) : (closeGroup p s).gear = s.gear := by
  unfold closeGroup; simp
@[simp] theorem joinGroup_gear (p : Nat) (trunc : Bool) (s : State) : (joinGroup p trunc s).2.2.gear = s.gear := by
  unfold joinGroup; dsimp only; (repeat' split) <;> simp
@[simp] theorem formData_gear (o : OpenDataset) (s : State) : (formData o s).gear = s.gear := by
  unfold formData; simp
theorem formBare_gear (ds : Dataset) (s : State) (q : State) (hr : formBare ds s = some q) : q.gear = s.gear := by
  unfold formBare at hr; split at hr
  · cases hr
  · cases hp : porterTry 6 8388608 s with
    | none => rw [hp] at hr; cases hr
    | some p => rw [hp] at hr; cases hr; exact porterTry_gear _ _ _ _ hp
theorem formParity_gear (g : C3Group) (y0 : Nat) (s : State) (q : State) (hr : formParity g y0 s = some q) : q.gear
    = s.gear := by
  induction y0 generalizing s with
  | zero => unfold formParity at hr; cases hr; rfl
  | succ n ih =>
    unfold formParity at hr; dsimp only at hr; split at hr
    · cases hr
    · rename_i heq; rw [ih _ hr, formBare_gear _ _ _ heq]
@[simp] theorem formNext_gear (y0 : Nat) (s : State) : (formNext y0 s).gear = s.gear := by
  induction y0 generalizing s with
  | zero => rfl
  | succ n ih =>
    unfold formNext; split
    · split
      · rename_i heq; rw [ih, formParity_gear _ _ _ _ heq]
      · rfl
    · split
      · rfl
      · split
        · rw [ih]; simp
        · rfl
@[simp] theorem formAll_gear (s : State) : (formAll s).gear = s.gear := by
  unfold formAll; simp
@[simp] theorem putInRun_gear (d : Dataset) (s : State) : (putInRun d s).gear = s.gear := by
  unfold putInRun; simp
@[simp] theorem markRetried_gear (jsn : Nat) (s : State) : (markRetried jsn s).gear = s.gear := by
  unfold markRetried; simp
@[simp] theorem finishWrite_gear (w : WriteRun) (st : Nat) (r1 : Nat) (s : State) : (finishWrite w st r1 s).gear =
    s.gear := by
  unfold finishWrite; (repeat' split) <;> simp
@[simp] theorem settleWrite_gear (s : State) (jsn : Nat) : (settleWrite s jsn).gear = s.gear := by
  unfold settleWrite; (repeat' split) <;> simp
@[simp] theorem settleWrites_gear (s : State) : (settleWrites s).gear = s.gear := by
  unfold settleWrites; simp
@[simp] theorem stopWrite_gear (jsn st : Nat) (r1 : Option Nat) (s : State) : (stopWrite jsn st r1 s).gear = s.gear := by
  have hs : ∀ (c : Nat) (u : State), ((closeFrame u).getD (sealOpen c u)).gear = u.gear :=
    fun c u => getD_gear (fun r h => closeFrame_gear _ _ h) _ (by simp)
  unfold stopWrite; dsimp only; (repeat' split) <;> simp [hs]
@[simp] theorem stopAllWrites_gear (st : Nat) (s : State) : (stopAllWrites st s).gear = s.gear := by
  unfold stopAllWrites; simp
@[simp] theorem flushOpen_gear (s : State) : (flushOpen s).gear = s.gear := by
  unfold flushOpen; dsimp only; (repeat' split) <;> simp
@[simp] theorem afterWrites_gear (s : State) : (afterWrites s).gear = s.gear := by
  unfold afterWrites; simp
@[simp] theorem retractEvent_gear (jsn seq p reason : Nat) (repl : Bool) (s : State) : (retractEvent jsn seq p
    reason repl s).gear = s.gear := by
  unfold retractEvent; simp
@[simp] theorem retract_gear (d : WrittenDataset) (reason : Nat) (s : State) : (retract d reason s).gear = s.gear
    := by
  unfold retract; simp
@[simp] theorem dropDataset_gear (d : WrittenDataset) (s : State) : (dropDataset d s).gear = s.gear := by
  unfold dropDataset; simp
@[simp] theorem dropAssembled_gear (p : Nat) (s : State) : (dropAssembled p s).gear = s.gear := by
  unfold dropAssembled; simp
@[simp] theorem fitBuffers_gear (jsn : Nat) (s : State) : (fitBuffers jsn s).gear = s.gear := by
  unfold fitBuffers; split
  · rfl
  · dsimp only; split
    · rw [foldl_gear (fun s h => freeBuffer_gear _ _ _)]; simp
    · refine foldl_gear (fun s _ => ?_) _ _; split
      · rename_i heq; rw [setWrite_gear, porterTry_gear _ _ _ _ heq]
      · rfl
@[simp] theorem fitAll_gear (s : State) : (fitAll s).gear = s.gear := by
  unfold fitAll; simp
@[simp] theorem setActive_gear (seq : Nat) (f : WrittenDataset → WrittenDataset) (s : State) : (setActive seq f
    s).gear = s.gear := by
  unfold setActive; simp
@[simp] theorem renameMarks_gear (old new : Nat) (s : State) : (renameMarks old new s).gear = s.gear := by
  unfold renameMarks; simp
@[simp] theorem layDown_gear (d : WrittenDataset) (reason : Nat) (s : State) : (layDown d reason s).gear = s.gear
    := by
  unfold layDown; simp
@[simp] theorem replaceDataset_gear (d : WrittenDataset) (s : State) : (replaceDataset d s).gear = s.gear := by
  unfold replaceDataset; simp
@[simp] theorem truncateAway_gear (s : State) (d : WrittenDataset) : (truncateAway s d).gear = s.gear := by
  unfold truncateAway; simp
@[simp] theorem failFrom_gear (p n : Nat) (s : State) : (failFrom p n s).gear = s.gear := by
  unfold failFrom; simp
@[simp] theorem endRunSoon_gear (s : State) : (endRunSoon s).gear = s.gear := by
  unfold endRunSoon; simp
@[simp] theorem lastingFailure_gear (d : WrittenDataset) (s : State) : (lastingFailure d s).gear = s.gear := by
  unfold lastingFailure; simp
@[simp] theorem wholeRewrite_gear (seq : Nat) (s : State) : (wholeRewrite seq s).gear = s.gear := by
  unfold wholeRewrite; (repeat' split) <;> simp
@[simp] theorem countFail_gear (margin : Bool) (track : Nat) (s : State) : (countFail margin track s).gear = s.gear
    := by
  unfold countFail; simp
@[simp] theorem failFirst_gear (seq m track : Nat) (margin : Bool) (s : State) : (failFirst seq m track margin
    s).gear = s.gear := by
  unfold failFirst; simp
@[simp] theorem failCopy_gear (f : FailedCw) (c : Nat) (s : State) : (failCopy f c s).gear = s.gear := by
  unfold failCopy; simp
@[simp] theorem failSlots_gear (seq : Nat) (p : Nat → Bool) (s : State) : (failSlots seq p s).gear = s.gear := by
  unfold failSlots; refine foldl_gear (fun s x => ?_) _ _; split
  · rfl
  · split <;> simp
@[simp] theorem failCopies_gear (seq : Nat) (p : Nat → Bool) (s : State) : (failCopies seq p s).gear = s.gear := by
  unfold failCopies; refine foldl_gear (fun s x => ?_) _ _; split <;> simp
@[simp] theorem failWindow_gear (seq lo hi : Nat) (s : State) : (failWindow seq lo hi s).gear = s.gear := by
  unfold failWindow; simp
@[simp] theorem finishRun_gear (p : Nat) (s : State) : (finishRun p s).gear = s.gear := by
  unfold finishRun; simp
@[simp] theorem interruptRun_gear (s : State) : (interruptRun s).gear = s.gear := by
  unfold interruptRun; dsimp only; (repeat' split) <;> simp
@[simp] theorem lastingServoLoss_gear (s : State) : (lastingServoLoss s).gear = s.gear := by
  unfold lastingServoLoss; simp
@[simp] theorem giveUpDataset_gear (s : State) (d : WrittenDataset) : (giveUpDataset s d).gear = s.gear := by
  unfold giveUpDataset; simp
@[simp] theorem giveUp_gear (s : State) (p : Nat) : (giveUp s p).gear = s.gear := by
  unfold giveUp; simp
@[simp] theorem endWritesNow_gear (js : List Nat) (st : Nat) (r1 : Option Nat) (s : State) :
    (endWritesNow js st r1 s).gear = s.gear := by
  unfold endWritesNow; dsimp only
  rw [settleWrites_gear, foldl_gear (fun s j => by split <;> simp)]; simp
@[simp] theorem loseTape_gear (st : Nat) (s : State) : (loseTape st s).gear = s.gear := by
  unfold loseTape; simp

end Sys2Proof.Proofs
end

section
/-! PROOFS. Whether a writing run is in progress, the speed step, the units, the phase and the ticks: `f_course` says that an operation of the
write pipeline that does not end the run leaves them as they are. -/

namespace Sys2Proof.Machine

def State.course (s : State) : Bool × Nat × List SysUnit × BootPhase × Bool × Word := (s.fmt.run.isSome, s.sys.step, s.sys.units, s.sys.phase, s.sys.synth, s.sys.tickCount)

end Sys2Proof.Machine

namespace Sys2Proof.Proofs

open Sys2Proof.Machine Sys2Proof.Safety Sys2Proof.Laws

@[simp] theorem course_mk sys hif cmd jrn ctx pkr cph fmt tec vfy hlk drv mon spm prt mem thm pwr aon wh whd mram cart mgt pending out freeCount :
    (State.mk sys hif cmd jrn ctx pkr cph fmt tec vfy hlk drv mon spm prt mem thm pwr aon wh whd mram
      cart mgt pending out freeCount).course =
      (fmt.run.isSome, sys.step, sys.units, sys.phase, sys.synth, sys.tickCount) := rfl

@[simp] theorem course_fold (s : State) : (s.fmt.run.isSome, s.sys.step, s.sys.units, s.sys.phase, s.sys.synth, s.sys.tickCount) = s.course := rfl

@[simp] theorem foldl_course {α : Type} {f : State → α → State} (hf : ∀ s x, (f s x).course = s.course) (l : List α) (s : State) :
    (l.foldl f s).course = s.course := by
  induction l generalizing s with
  | nil => rfl
  | cons a t ih => rw [List.foldl_cons, ih, hf]

@[simp] theorem ite_course (c : Prop) [Decidable c] (a b : State) : (if c then a else b).course = if c then a.course else b.course :=
  apply_ite State.course c a b

theorem optMap_course {f : State → State} (hf : ∀ s, (f s).course = s.course) {o : Option State} {m : Bool × Nat × List SysUnit × BootPhase × Bool × Word}
    (ho : ∀ r, o = some r → r.course = m) (r : State) (h : o.map f = some r) : r.course = m := by
  obtain ⟨u, hu, rfl⟩ := Option.map_eq_some_iff.1 h
  rw [hf, ho u hu]

theorem getD_course {o : Option State} {m : Bool × Nat × List SysUnit × BootPhase × Bool × Word} (ho : ∀ r, o =
    some r → r.course = m) (s : State) (hs : s.course = m) :
    (o.getD s).course = m := by
  cases o with
  | none => exact hs
  | some u => exact ho u rfl

/-! ### Events and buffers -/

theorem OnlyEvents.course {s t : State} (h : OnlyEvents s t) : t.course = s.course := by
  obtain ⟨_, _, _, _, _, _, rfl, -⟩ := h; rfl

theorem OnlyPorter.course {s t : State} (h : OnlyPorter s t) : t.course = s.course := h.elim fun _ h => h.course

@[simp] theorem emit_course (o : Output) (s : State) : (emit o s).course = s.course := (emit_onlyEvents o s).course
@[simp] theorem drawFree_course (s : State) : (drawFree s).course = s.course := rfl
@[simp] theorem msixTrigger_course (vec : Nat) (en : Bool) (s : State) : (msixTrigger vec en s).course = s.course := (msixTrigger_onlyEvents vec en s).course
@[simp] theorem hostStore_course (addr : Nat) (l : List Byte) (s : State) : (hostStore addr l s).course = s.course := (hostStore_onlyEvents addr l s).course
@[simp] theorem raise_course (src p0 p1 : Nat) (s : State) : (raise src p0 p1 s).course = s.course := (raise_onlyEvents ..).course
@[simp] theorem raiseP_course (src p0 : Nat) (s : State) : (raiseP src p0 s).course = s.course := (raiseP_onlyEvents ..).course
@[simp] theorem raiseN_course (src : Nat) (s : State) : (raiseN src s).course = s.course := (raiseN_onlyEvents ..).course
@[simp] theorem freeBuffer_course (o : Nat) (h : Word) (s : State) : (freeBuffer o h s).course = s.course :=
  (freeBuffer_onlyPorter o h s).course

@[simp] theorem setCq_course (n : Nat) (f : CplRing → CplRing) (s : State) : (setCq n f s).course = s.course := by
  unfold setCq; simp
@[simp] theorem cplWrite_course (n : Nat) (c : Completion) (s : State) : (cplWrite n c s).course = s.course := by
  unfold cplWrite; simp
@[simp] theorem cplPost_course (n : Nat) (c : Completion) (s : State) : (cplPost n c s).course = s.course := by
  unfold cplPost; simp
@[simp] theorem mgtReturn_course (c : Completion) (s : State) : (mgtReturn c s).course = s.course := by
  unfold mgtReturn; simp
@[simp] theorem postTo_course (ring : Nat) (c : Completion) (s : State) : (postTo ring c s).course = s.course := by
  unfold postTo; simp
@[simp] theorem setRun_course (jsn : Nat) (f : RunInfo → RunInfo) (s : State) : (setRun jsn f s).course = s.course := by
  unfold setRun; simp
@[simp] theorem setEntry_course (jsn : Nat) (f : JournalEntry → JournalEntry) (s : State) : (setEntry jsn f s).course =
    s.course := by
  unfold setEntry; simp
@[simp] theorem postAccepted_course (e : JournalEntry) (s : State) : (postAccepted e s).course = s.course := by
  unfold postAccepted; simp
@[simp] theorem beginFree_course (jsn : Nat) (s : State) : (beginFree jsn s).course = s.course := by
  unfold beginFree; simp
@[simp] theorem setSlot_course (t : Bool × Nat) (k : KeySlot) (s : State) : (setSlot t k s).course = s.course := by
  unfold setSlot; simp
@[simp] theorem freePending_course (e : JournalEntry) (s : State) : (freePending e s).course = s.course := by
  unfold freePending; simp
@[simp] theorem endPhase_course (s : State) : (endPhase s).course = s.course := by
  unfold endPhase; simp
@[simp] theorem replayDone_course (s : State) : (replayDone s).course = s.course := by
  unfold replayDone; simp
@[simp] theorem replayEnded_course (wasReplayed : Bool) (s : State) : (replayEnded wasReplayed s).course = s.course := by
  unfold replayEnded; simp
@[simp] theorem abortMissed_course (jsn : Nat) (s : State) : (abortMissed jsn s).course = s.course := by
  unfold abortMissed; simp
@[simp] theorem reportFirst_course (e : JournalEntry) (s : State) : (reportFirst e s).course = s.course := by
  unfold reportFirst; simp
@[simp] theorem unpin_course (e : JournalEntry) (s : State) : (unpin e s).course = s.course := by
  unfold unpin; simp
@[simp] theorem retireNow_course (e : JournalEntry) (r : RunInfo) (status : Nat) (r0 r1 : Word) (s : State) :
    (retireNow e r status r0 r1 s).course = s.course := by
  unfold retireNow; simp
@[simp] theorem endCommand_course (jsn status : Nat) (r0 r1 : Word) (s : State) : (endCommand jsn status r0 r1
    s).course = s.course := by
  unfold endCommand; (repeat' split) <;> simp
@[simp] theorem endWith_course (jsn status r0 r1 : Nat) (s : State) : (endWith jsn status r0 r1 s).course = s.course := by
  unfold endWith; simp
@[simp] theorem setPool_course (p : Nat) (f : Pool → Pool) (s : State) : (setPool p f s).course = s.course := by
  unfold setPool; simp
@[simp] theorem setBuf_course (p i : Nat) (b : BufRec) (s : State) : (setBuf p i b s).course = s.course := by
  unfold setBuf; simp
@[simp] theorem takeBuf_course (p owner : Nat) (s : State) : (takeBuf p owner s).2.course = s.course := by
  unfold takeBuf; simp
theorem porterTry_course (owner size : Nat) (s : State) (q : (Word × State)) (hr : porterTry owner size s = some q) :
    q.2.course = s.course := by
  unfold porterTry at hr; dsimp only at hr; split at hr
  · cases hr; rw [takeBuf_course]; split <;> rfl
  · cases hr
@[simp] theorem setCtx_course (n : Nat) (f : Context → Context) (s : State) : (setCtx n f s).course = s.course := by
  unfold setCtx; simp
@[simp] theorem endWriteAt_course (e : JournalEntry) (st r1 : Nat) (s : State) : (endWriteAt e st r1 s).course = s.course := by
  unfold endWriteAt; simp
@[simp] theorem endWrite_course (e : JournalEntry) (st : Nat) (s : State) : (endWrite e st s).course = s.course := by
  unfold endWrite; simp
@[simp] theorem cutEnd_course (p n : Nat) (s : State) : (cutEnd p n s).course = s.course := by
  unfold cutEnd; simp
theorem openDataset_course (p : Nat) (s : State) (q : State) (hr : openDataset p s = some q) : q.course = s.course := by
  unfold openDataset at hr; split at hr
  · cases hr
  · split at hr
    · cases hr
    · rename_i heq
      have := porterTry_course _ _ _ _ heq
      cases hr; simpa using this
@[simp] theorem parkOpened_course (s : State) : (parkOpened s).course = s.course := by
  unfold parkOpened; (repeat' split) <;> simp
@[simp] theorem modOpened_course (f : OpenDataset → OpenDataset) (s : State) : (modOpened f s).course = s.course := by
  unfold modOpened; simp
@[simp] theorem setWrite_course (jsn : Nat) (f : WriteRun → WriteRun) (s : State) : (setWrite jsn f s).course = s.course
    := by
  unfold setWrite; simp
theorem putFrameBytes_course (n : Nat) (meter : Option Nat) (w : WriteRun) (first : Nat) (s : State) (q : State) (hr
    : putFrameBytes n meter w first s = some q) : q.course = s.course := by
  unfold putFrameBytes at hr; split at hr
  · cases hr
  · dsimp only at hr; split at hr
    · cases hr; simp
    · refine optMap_course (fun _ => by simp) (fun r h => ?_) q hr
      have := openDataset_course _ _ _ h; simpa using this
@[simp] theorem noteDone_course (jsn : Nat) (s : State) : (noteDone jsn s).course = s.course := by
  unfold noteDone; (repeat' split) <;> simp
@[simp] theorem sealOpen_course (ctx : Nat) (s : State) : (sealOpen ctx s).course = s.course := by
  unfold sealOpen; (repeat' split) <;> simp
theorem closeFrame_course (s : State) (q : State) (hr : closeFrame s = some q) : q.course = s.course := by
  unfold closeFrame at hr; split at hr
  · cases hr; rfl
  · split at hr
    · cases hr; rfl
    · dsimp only at hr; split at hr
      · cases hr; simp
      · exact optMap_course (fun _ => by simp) (fun r h => putFrameBytes_course _ _ _ _ _ _ h) q hr
theorem closeDataset_course (s : State) (q : State) (hr : closeDataset s = some q) : q.course = s.course := by
  unfold closeDataset at hr; split at hr
  · cases hr
  · rename_i heq
    have := closeFrame_course _ _ heq
    split at hr <;> cases hr <;> simp [this]
@[simp] theorem closeOpen_course (s : State) : (closeOpen s).course = s.course := getD_course (fun r h => closeDataset_course
    _ _ h) _ rfl
@[simp] theorem noteSeq_course (seq : Nat) (marks : List (Nat × Nat)) (s : State) : (noteSeq seq marks s).course =
    s.course := by
  unfold noteSeq; simp
@[simp] theorem formWith_course (ds : Dataset) (w : WrittenDataset) (s : State) : (formWith ds w s).course = s.course := by
  unfold formWith; simp
@[simp] theorem closeGroup_course (p : Nat) (s : State) : (closeGroup p s).course = s.course := by
  unfold closeGroup; simp
@[simp] theorem joinGroup_course (p : Nat) (trunc : Bool) (s : State) : (joinGroup p trunc s).2.2.course = s.course := by
  unfold joinGroup; dsimp only; (repeat' split) <;> simp
@[simp] theorem formData_course (o : OpenDataset) (s : State) : (formData o s).course = s.course := by
  unfold formData; simp
theorem formBare_course (ds : Dataset) (s : State) (q : State) (hr : formBare ds s = some q) : q.course = s.course := by
  unfold formBare at hr; split at hr
  · cases hr
  · cases hp : porterTry 6 8388608 s with
    | none => rw [hp] at hr; cases hr
    | some p => rw [hp] at hr; cases hr; exact porterTry_course _ _ _ _ hp
theorem formParity_course (g : C3Group) (y0 : Nat) (s : State) (q : State) (hr : formParity g y0 s = some q) : q.course
    = s.course := by
  induction y0 generalizing s with
  | zero => unfold formParity at hr; cases hr; rfl
  | succ n ih =>
    unfold formParity at hr; dsimp only at hr; split at hr
    · cases hr
    · rename_i heq; rw [ih _ hr, formBare_course _ _ _ heq]
@[simp] theorem formNext_course (y0 : Nat) (s : State) : (formNext y0 s).course = s.course := by
  induction y0 generalizing s with
  | zero => rfl
  | succ n ih =>
    unfold formNext; split
    · split
      · rename_i heq; rw [ih, formParity_course _ _ _ _ heq]
      · rfl
    · split
      · rfl
      · split
        · rw [ih]; simp
        · rfl
@[simp] theorem formAll_course (s : State) : (formAll s).course = s.course := by
  unfold formAll; simp
@[simp] theorem finishWrite_course (w : WriteRun) (st : Nat) (r1 : Nat) (s : State) : (finishWrite w st r1 s).course =
    s.course := by
  unfold finishWrite; (repeat' split) <;> simp
@[simp] theorem settleWrite_course (s : State) (jsn : Nat) : (settleWrite s jsn).course = s.course := by
  unfold settleWrite; (repeat' split) <;> simp
@[simp] theorem settleWrites_course (s : State) : (settleWrites s).course = s.course := by
  unfold settleWrites; simp
@[simp] theorem stopWrite_course (jsn st : Nat) (r1 : Option Nat) (s : State) : (stopWrite jsn st r1 s).course = s.course := by
  have hs : ∀ (c : Nat) (u : State), ((closeFrame u).getD (sealOpen c u)).course = u.course :=
    fun c u => getD_course (fun r h => closeFrame_course _ _ h) _ (by simp)
  unfold stopWrite; dsimp only; (repeat' split) <;> simp [hs]
@[simp] theorem stopAllWrites_course (st : Nat) (s : State) : (stopAllWrites st s).course = s.course := by
  unfold stopAllWrites; simp
@[simp] theorem flushOpen_course (s : State) : (flushOpen s).course = s.course := by
  unfold flushOpen; dsimp only; (repeat' split) <;> simp
@[simp] theorem afterWrites_course (s : State) : (afterWrites s).course = s.course := by
  unfold afterWrites; simp
@[simp] theorem lastingServoLoss_course (s : State) : (lastingServoLoss s).course = s.course := by
  unfold lastingServoLoss; simp

end Sys2Proof.Proofs
end

section
/-! PROOFS. Write inhibit (11 R291, 13 R345) and the start of a safe stop (13 R342): what goes out on the head link, and what stays. -/

namespace Sys2Proof.Proofs

open Sys2Proof.Machine Sys2Proof.Safety Sys2Proof.Laws

variable {s t : State}

theorem gear_drv (h : t.gear = s.gear) : t.drv = s.drv := congrArg (·.1) h
theorem gear_mon (h : t.gear = s.gear) : t.mon = s.mon := congrArg (·.2.1) h
theorem gear_whd (h : t.gear = s.gear) : t.whd = s.whd := congrArg (·.2.2.2.2) h

/-- From s to t blocks have gone out on the head link and nothing else has changed. -/
def OnlyLink (s t : State) : Prop := ∃ h o, t = { s with hlk := h, out := o } ∧ s.out <+: o

namespace OnlyLink

theorem refl (s : State) : OnlyLink s s := ⟨_, _, rfl, List.prefix_rfl⟩

theorem trans {u : State} (h : OnlyLink s t) (h' : OnlyLink t u) : OnlyLink s u := by
  obtain ⟨l, o, rfl, sent⟩ := h
  obtain ⟨l', o', rfl, sent'⟩ := h'
  exact ⟨l', o', rfl, List.IsPrefix.trans sent sent'⟩

theorem foldl {α : Type} {f : State → α → State} (hf : ∀ s x, OnlyLink s (f s x)) (l : List α) (s : State) : OnlyLink s (l.foldl f s) := by
  induction l generalizing s with
  | nil => exact refl s
  | cons x l ih => exact (hf s x).trans (ih _)

end OnlyLink

theorem sendBlocks_onlyLink (lane : Nat) (l : List (BitVec 2 × Word)) (s : State) : OnlyLink s (sendBlocks lane l s) :=
  ⟨_, _, rfl, List.prefix_append _ _⟩

theorem sendInhibit_onlyLink (s : State) : OnlyLink s (sendInhibit s) := by
  refine OnlyLink.trans (OnlyLink.foldl (fun s n => ?_) _ s) ⟨_, _, rfl, List.prefix_append _ _⟩
  split
  · exact sendBlocks_onlyLink _ _ s
  · exact .refl s

/-- A source of write inhibit asserts it; INHIBIT goes out where none was asserted before, and an event is raised. -/
theorem inhibitOn_shape (src : Nat) (s : State) :
    ∃ u, OnlyLink { s with mon := { s.mon with inhibit := true, inhSrc := s.mon.inhSrc ||| BitVec.ofNat 5 (2 ^ src) } } u
      ∧ OnlyEvents u (inhibitOn src s) ∧ (s.mon.inhibit = false → .inhibit ∈ u.out) := by
  unfold inhibitOn
  dsimp only
  split
  · next h => exact ⟨_, .refl _, .refl _, fun h' => by simp [h] at h'⟩
  · exact ⟨_, sendInhibit_onlyLink _, raiseP_onlyEvents .., fun _ => List.mem_append_right _ (List.mem_singleton_self _)⟩

theorem inhibitOn_mon (src : Nat) (s : State) :
    (inhibitOn src s).mon = { s.mon with inhibit := true, inhSrc := s.mon.inhSrc ||| BitVec.ofNat 5 (2 ^ src) } := by
  obtain ⟨u, ⟨h, o, rfl, -⟩, events, -⟩ := inhibitOn_shape src s
  exact gear_mon events.gear

/-- Loops whose current ADC has failed, and loop 0, take their values for the stop: the loops alone change. -/
theorem stopCurrents_mon (s : State) : (stopCurrents s).mon = s.mon := by
  unfold stopCurrents
  refine List.foldlRecOn (motive := fun t : State => t.mon = s.mon) _ _ rfl fun t h i _ => ?_
  split
  · exact h
  · exact h

theorem stopLoop_mon (o : Bool) (s : State) : (stopLoop o s).mon = s.mon := by
  unfold stopLoop
  split
  · rfl
  · rfl

/-- A safe stop has begun: its cause is held and write inhibit asserted. -/
theorem beginStop_stopped (cause : Nat) (s : State) :
    (beginStop cause s).drv.safeStop = true ∧ (beginStop cause s).mon.safeCause = cause ∧ (beginStop cause s).mon.inhibit = true := by
  refine ⟨rfl, rfl, ?_⟩
  change (stopCurrents (stopLoop _ (inhibitOn 3 s))).mon.inhibit = true
  rw [stopCurrents_mon, stopLoop_mon, inhibitOn_mon]

/-- What follows a stop, the end of a writing run among it, leaves the Drover and the monitor. -/
theorem stopRunIfStopped_gear (was : Bool) (s : State) : (stopRunIfStopped was s).gear = s.gear := by
  unfold stopRunIfStopped
  split
  · dsimp only
    split
    · rw [loseTape_gear, interruptRun_gear]
    · exact interruptRun_gear s
  · rfl

end Sys2Proof.Proofs
end

section
/-! PROOFS. The functions of DIAG (17 R447, Table 17-8). -/

namespace Sys2Proof.Proofs

open Sys2Proof.Machine Sys2Proof.Safety Sys2Proof.Laws

variable {jsn op : Nat} {e : JournalEntry} {r : RunInfo} {s u : State}

theorem ready_names (h : ready opDiag jsn e r s = true) {f : Nat} (hf : diagFunction e.words = f) :
    ((findEntry s jsn).any fun e => diagFunction e.words == f) = true := by
  rw [ready_findEntry h]
  simpa using hf

/-- A DIAG command of the function begins with its own effect. -/
theorem onDiag_ready (h : ready opDiag jsn e r s = true) {f : Nat} (hf : diagFunction e.words = f) (k : JournalEntry → RunInfo → State → State) :
    onDiag f jsn s k = k e r (begun jsn e s) := by
  rw [onDiag, ready_names h hf]
  exact onBegin_ready h k

/-! ### SAFE_STOP -/

theorem safeStop_begins (loop : Nat) (h : s.drv.safeStop = false) :
    safeStop loop causeDiag s = raise evDrvSafeStop loop causeDiag (beginStop causeDiag s) := by
  rw [safeStop, if_neg (by simp [h]), recurringStop, if_pos (by decide)]

theorem diagSafeStop_stops (h : ready opDiag jsn e r s = true) (ht : tapeReady s = true) (hf : diagFunction e.words = 1) :
    ∃ t, exec (.diagSafeStop jsn) s = .next t ∧ t.drv.safeStop = true ∧ t.mon.safeCause = causeDiag ∧ t.mon.inhibit = true := by
  have calm : (startRun jsn (begun jsn e s)).drv.safeStop = false := by
    simp only [tapeReady, tapeHeld, Bool.and_eq_true, Bool.not_eq_true', Bool.or_eq_false_iff] at ht
    exact (congrArg Drv.safeStop (begun_drv jsn e s)).trans ht.1.1.1.2.1.1.1
  refine ⟨_, congrArg Host.Outcome.next ((if_neg ?_).trans (onTape_ready h ht _)), ?_⟩
  · rw [ready_names h hf]
    decide
  · have kept : (stopRunIfStopped (begun jsn e s).drv.safeStop (safeStop 0x3F causeDiag (startRun jsn (begun jsn e s)))).gear
        = (beginStop causeDiag (startRun jsn (begun jsn e s))).gear := by
      rw [stopRunIfStopped_gear, safeStop_begins 0x3F calm, raise_gear]
    rw [gear_drv kept, gear_mon kept]
    exact beginStop_stopped causeDiag _

/-! ### CIPHER_SELFTEST -/

theorem diagCipherSelftest_starts (passed : BitVec 8) (h : ready opDiag jsn e r s = true) (hf : diagFunction e.words = 2) :
    exec (.diagCipherSelftest jsn passed false) s
      = .next (startRun jsn { begun jsn e s with cph := { s.cph with testing := true } }) := by
  change execDiagCipherSelftest jsn passed false s = _
  rw [execDiagCipherSelftest, ready_not_started h, ← begun_cph jsn e s]
  exact congrArg Host.Outcome.next (onDiag_ready h hf _)

theorem setUnit_jrn (u st cause : Nat) (s : State) : (setUnit u st cause s).jrn = s.jrn := by
  unfold setUnit
  dsimp only
  split
  · rfl
  · exact (raise_jrn ..).trans rfl

theorem startLanes_jrn (passed : BitVec 8) (s : State) : (startLanes passed s).jrn = s.jrn := by
  unfold startLanes
  refine List.foldlRecOn (motive := fun t : State => t.jrn = s.jrn) _ _ rfl fun t h n _ => ?_
  split
  · exact h
  · exact (setUnit_jrn ..).trans ((raiseP_jrn ..).trans h)

theorem endPhase_jrn (s : State) : (endPhase s).jrn = s.jrn := by
  unfold endPhase
  split
  · rfl
  · rfl

theorem endStarting_jrn (s : State) : (endStarting s).jrn = s.jrn := by
  unfold endStarting
  split
  · exact endPhase_jrn _
  · rfl

/-- The state that the end of the self-test leaves to its answer. -/
def selftested (passed : BitVec 8) (s : State) : State :=
  endStarting (endPhase (noteKat (startLanes passed { s with cph := { s.cph with testing := false } })))

theorem selftested_jrn (passed : BitVec 8) (s : State) : (selftested passed s).jrn = s.jrn := by
  rw [selftested, endStarting_jrn, endPhase_jrn]
  exact startLanes_jrn ..

theorem ready_phase (h : ready op jsn e r s = true) : r.phase ≠ .started := by
  intro hp
  have none_started := ready_not_started h
  have entry := ready_findEntry h
  have found : findRun s jsn = some r := by simpa only [findRun, begun_jrn] using (ready_found h).2.1
  have runs : firmwareRuns s = true := by
    unfold ready runnable at h
    simp only [entry, found, Bool.and_eq_true, decide_eq_true_eq] at h
    obtain ⟨⟨⟨⟨⟨h, -⟩, -⟩, -⟩, -⟩, -⟩ := h
    split at h
    · next c => exact c.1.1.1.1
    · cases h
  simp [started, entry, found, runs, hp, ready_entryOp h] at none_started

theorem diagCipherSelftest_answers (passed : BitVec 8) (h : ready opDiag jsn e r s = true ∨ started opDiag jsn s = some (e, r))
    (hf : diagFunction e.words = 2) (hr : retireFree s = true) :
    ∃ t, exec (.diagCipherSelftest jsn passed true) s = .next t
      ∧ EndsR0 jsn (okStatus r) (passed &&& ~~~s.cph.degraded).toNat
          (endStarting (endPhase (noteKat (startLanes passed
            { (if r.phase = .started then s else begun jsn e s) with cph := { s.cph with testing := false } })))) t := by
  rcases h with h | h
  · rw [if_neg (ready_phase h), ← begun_cph jsn e s]
    refine ⟨_, ?_, ((Held.ofReady h).ofJrn (selftested_jrn passed _)).endR0_ok⟩
    change execDiagCipherSelftest jsn passed true s = _
    rw [execDiagCipherSelftest, ready_not_started h]
    exact congrArg Host.Outcome.next (onDiag_ready h hf _)
  · have phase : r.phase = .started := by
      unfold started at h
      split at h
      · split at h
        · next c =>
          cases h
          simp only [Bool.and_eq_true, decide_eq_true_eq] at c
          exact c.2
        · cases h
      · cases h
    rw [if_pos phase]
    refine ⟨_, ?_, ((Held.ofStarted h hr).ofJrn (selftested_jrn passed _)).endR0_ok⟩
    change execDiagCipherSelftest jsn passed true s = _
    rw [execDiagCipherSelftest, h]
    exact congrArg Host.Outcome.next (if_pos (by simp [hf]))

/-! ### UNIT_OFFLINE, UNIT_ONLINE -/

/-- A command whose end leaves the journal alone holds its entry then. -/
theorem setUnit_held (u st cause : Nat) (h : Held jsn e r s) : Held jsn e r (setUnit u st cause s) := h.ofJrn (setUnit_jrn ..)

theorem begun_unitBusy (u jsn j : Nat) (e : JournalEntry) (s : State) : unitBusy u j (begun jsn e s) = unitBusy u j s := by
  simp only [unitBusy, findRun, begun_jrn]

theorem diagUnitOffline_takes (h : ready opDiag jsn e r s = true) (hf : diagFunction e.words = 3)
    (hb : unitBusy (diagUnit e.words) jsn s = false) (hr : s.fmt.run = none ∨ (diagUnit e.words ≠ unHeadLink ∧ diagUnit e.words ≠ unDrover))
    (hc : diagUnit e.words < unCore0 ∨ unCore0 + 3 < diagUnit e.words) :
    ∃ t, exec (.diagUnitOffline jsn) s = .next t ∧ Ends jsn (okStatus r) (setUnit (diagUnit e.words) 3 0xFE (begun jsn e s)) t := by
  refine ⟨_, congrArg Host.Outcome.next ((onDiag_ready h hf _).trans ?_), (setUnit_held _ _ _ (Held.ofReady h)).endBare_ok⟩
  dsimp only
  rw [if_neg (by simp [begun_unitBusy, hb]), if_neg, if_neg (by omega)]
  rw [begun_fmt]
  rintro ⟨unit, run⟩
  rcases hr with hr | hr
  · simp [hr] at run
  · exact unit.elim hr.1 hr.2

theorem begun_coresAfter (c jsn : Nat) (e : JournalEntry) (s : State) : coresAfter c (begun jsn e s) = coresAfter c s := by
  simp only [coresAfter, coreOut, unitState, begun_sys]

theorem diagUnitOffline_core (h : ready opDiag jsn e r s = true) (hf : diagFunction e.words = 3)
    (hb : unitBusy (diagUnit e.words) jsn s = false) (h0 : unCore0 ≤ diagUnit e.words) (h3 : diagUnit e.words ≤ unCore0 + 3) :
    ∃ t, exec (.diagUnitOffline jsn) s = .next t
      ∧ (if coresAfter (diagUnit e.words - unCore0) s < 3 then Ends jsn stUnitDegraded (begun jsn e s) t
         else Ends jsn (okStatus r) (assignRoles (setUnit (diagUnit e.words) 3 0xFE (begun jsn e s))) t) := by
  have other : ¬((diagUnit e.words = unHeadLink ∨ diagUnit e.words = unDrover) ∧ (begun jsn e s).fmt.run.isSome = true) := by
    rintro ⟨unit | unit, -⟩
    · exact absurd (unit ▸ h3) (by decide)
    · exact absurd (unit ▸ h3) (by decide)
  have takes : exec (.diagUnitOffline jsn) s = .next (if coresAfter (diagUnit e.words - unCore0) s < 3 then
      endBare jsn stUnitDegraded (begun jsn e s)
      else endBare jsn stOk (assignRoles (setUnit (diagUnit e.words) 3 0xFE (begun jsn e s)))) := by
    refine congrArg Host.Outcome.next ((onDiag_ready h hf _).trans ?_)
    dsimp only
    rw [if_neg (by simp [begun_unitBusy, hb]), if_neg other, if_pos ⟨h0, h3⟩, begun_coresAfter]
  refine ⟨_, takes, ?_⟩
  split
  · exact (Held.ofReady h).endBare_fail (by decide)
  · exact ((setUnit_held _ _ _ (Held.ofReady h)).ofJrn (by rfl)).endBare_ok

theorem diagUnitOnline_brings (h : ready opDiag jsn e r s = true) (hf : diagFunction e.words = 4) :
    ∃ t, exec (.diagUnitOnline jsn) s = .next t
      ∧ (if unitState (diagUnit e.words) s = 3 then
           Ends jsn (okStatus r)
             (if unCore0 ≤ diagUnit e.words ∧ diagUnit e.words ≤ unCore0 + 3 then
                assignRoles (setUnit (diagUnit e.words) 0 0 (begun jsn e s))
              else setUnit (diagUnit e.words) 0 0 (begun jsn e s)) t
         else if unitState (diagUnit e.words) s = 2 then Ends jsn stUnitDegraded (begun jsn e s) t
         else Ends jsn (okStatus r) (begun jsn e s) t) := by
  refine ⟨_, congrArg Host.Outcome.next (onDiag_ready h hf _), ?_⟩
  dsimp only
  rw [show unitState (diagUnit e.words) (begun jsn e s) = unitState (diagUnit e.words) s by rw [unitState, begun_sys] <;> rfl]
  split
  · refine ((setUnit_held (diagUnit e.words) 0 0 (Held.ofReady h)).ofJrn ?_).endBare_ok
    split
    · rfl
    · rfl
  · split
    · exact (Held.ofReady h).endBare_fail (by decide)
    · exact (Held.ofReady h).endBare_ok

/-! ### CLEAR_RETIREMENT and RESET -/

theorem diagClearRetirement_clears (h : ready opDiag jsn e r s = true) (hf : diagFunction e.words = 5) :
    ∃ t, exec (.diagClearRetirement jsn) s = .next t
      ∧ Ends jsn (okStatus r) { begun jsn e s with mem := { s.mem with retiredPc := none } } t := by
  rw [← begun_mem jsn e s]
  exact ⟨_, congrArg Host.Outcome.next (onDiag_ready h hf _), ((Held.ofReady h).ofJrn (by rfl)).endBare_ok⟩

theorem diagReset_resets (h : ready opDiag jsn e r s = true) (hf : diagFunction e.words = 6) :
    ∃ w u, exec (.diagReset jsn) s = .next (if diagArg e.words then coldReset 3 u else warmReset false 3 u)
      ∧ w ∈ u.jrn.retire ∧ w.jsn = jsn ∧ w.state = 2 ∧ w.status = stOk ∧ u.device = s.device := by
  refine ⟨_, _, congrArg Host.Outcome.next ((onDiag_ready h hf _).trans (if_neg ?_)),
    List.mem_append_right _ (List.mem_singleton_self _), rfl, rfl, rfl, ?_⟩
  · rw [(Held.ofReady h).2.2]
    decide
  · exact begun_device jsn e s

/-- Settles O22. -/
theorem diagFunctions : Obligations.DiagFunctions :=
  ⟨fun _ _ _ _ => diagSafeStop_stops, fun _ p _ _ _ => diagCipherSelftest_starts p, fun _ p _ _ _ => diagCipherSelftest_answers p,
    fun _ _ _ _ => diagUnitOffline_takes, fun _ _ _ _ => diagUnitOffline_core, fun _ _ _ _ => diagUnitOnline_brings,
    fun _ _ _ _ => diagClearRetirement_clears, fun _ _ _ _ => diagReset_resets⟩

end Sys2Proof.Proofs
end

section
/-! PROOFS. SET_WAKE_TOLERANCE (15 R394), and the waits that end with THERMAL_LIMIT or UNIT_DEGRADED (15 R387, 16 R418). -/

namespace Sys2Proof.Proofs

open Sys2Proof.Machine Sys2Proof.Safety Sys2Proof.Laws

variable {jsn at_ st : Nat} {e : JournalEntry} {r : RunInfo} {s u t : State}

/-! ### Ends that come early -/

theorem endsR0_ends {r0 : Nat} (h : EndsR0 jsn st r0 u t) : Ends jsn st u t := h.elim fun _ h => endsWith_ends h
theorem endsR1_ends {r1 : Nat} (h : EndsR1 jsn st r1 u t) : Ends jsn st u t := h.elim fun _ h => endsWith_ends h

/-- A write command without a run ends with its durable count, its DURABLE event before it. -/
theorem endWrite_fail (h : Held jsn e r u) (hst : st ≠ stOk) : EndsR0 jsn st r.done u (endWrite e st u) := by
  have named := h.jsn_eq
  subst named
  have events := raise_onlyEvents evDurable e.jsn r.done u
  refine ⟨((findRun u e.jsn).bind (·.first)).getD (u.fmt.durableEnd.getD (getCtx (entryCtx e) u).partition 0), ?_⟩
  obtain ⟨retired, gone, device, out⟩ := (h.ofJrn events.jrn).endWith_fail hst (r0 := r.done)
    (r1 := ((findRun u e.jsn).bind (·.first)).getD (u.fmt.durableEnd.getD (getCtx (entryCtx e) u).partition 0))
  have ended : endWrite e st u = endWith e.jsn st r.done
      (((findRun u e.jsn).bind (·.first)).getD (u.fmt.durableEnd.getD (getCtx (entryCtx e) u).partition 0))
      (raise evDurable e.jsn r.done u) := by
    rw [endWrite, endWriteAt, h.2.1] <;> rfl
  rw [ended]
  exact ⟨retired, gone, device.trans events.device, List.IsPrefix.trans events.out_prefix out⟩

/-- A command other than a write or SYNC ends early with the status. -/
theorem endEarly_fail (h : Held jsn e r u) (hw : isWriteLike e = false) (hst : st ≠ stOk) : Ends jsn st u (endEarly e st u) := by
  have named := h.jsn_eq
  subst named
  unfold endEarly
  dsimp only
  rw [hw, if_neg (by decide)]
  split_ifs
  · exact endsWith_ends (h.endWith_fail hst)
  · exact endsR1_ends (h.endR1_fail hst)
  · exact endsR1_ends (h.endR1_fail hst)
  · exact endsR0_ends (h.endR0_fail hst)
  · exact h.endBare_fail hst

/-! ### SET_WAKE_TOLERANCE -/

/-- The state in which the tolerance is taken. -/
def tolerant (jsn : Nat) (e : JournalEntry) (s : State) : State :=
  { begun jsn e s with pwr := { s.pwr with
    tolerance := bits (pktWord e 1) 0 32, allowedMax := if entryExpert e then bits (pktWord e 2) 0 3 else 4
    now := entryExpert e && bitAt (pktWord e 2) 3 } }

theorem setWakeTolerance_answers (h : ready opSetWake jsn e r s = true) :
    ∃ v, exec (.setWakeTolerance jsn) s = .next (enterIfNow v)
      ∧ EndsWith jsn (okStatus r) (deepest (tolerant jsn e s)) s.pwr.tolerance (tolerant jsn e s) v := by
  refine ⟨_, congrArg Host.Outcome.next ((onBegin_ready h _).trans ?_), ((Held.ofReady h).ofJrn (by rfl)).endWith_ok⟩
  simp only [tolerant, ← begun_pwr jsn e s]

/-! ### Waits that end -/

theorem thermalLimit_ends (he : findEntry s jsn = some e) (hr : findRun s jsn = some r) (hf : retireFree s = true)
    (hp : r.phase ≠ .unretired) (ht : s.thm.stopped = true) (hu : usesTape e = true) (hw : isWriteLike e = false)
    (hn : findWrite jsn s = none) (hms : passedMs (max r.since (s.thm.critFrom.getD 0)) (max s.aon.time at_) 60000 = true) :
    ∃ t, exec (.thermalLimitTimeout jsn at_) s = .next t
      ∧ Ends jsn stThermalLimit (if r.phase = .started then liftCap (atTime at_ s) else atTime at_ s) t := by
  have held : Held jsn e r (atTime at_ s) := ⟨he, hr, hf⟩
  have lifted : Held jsn e r (if r.phase = .started then liftCap (atTime at_ s) else atTime at_ s) := by
    split
    · exact held.ofJrn rfl
    · exact held
  refine ⟨_, ?_, endEarly_fail lifted hw (by decide)⟩
  change execThermalLimitTimeout jsn at_ s = _
  have due : (!(atTime at_ s).thm.stopped || !usesTape e || !passedMs (max r.since ((atTime at_ s).thm.critFrom.getD 0)) (atTime at_ s).aon.time 60000
      || r.phase == .unretired) = false := by
    simp only [Bool.or_eq_false_iff, Bool.not_eq_false', beq_eq_false_iff_ne]
    exact ⟨⟨⟨ht, hu⟩, hms⟩, hp⟩
  rw [execThermalLimitTimeout]
  dsimp only
  rw [held.1, held.2.1]
  dsimp only
  rw [due, if_neg (by decide), show findWrite jsn (atTime at_ s) = none from hn]

theorem epochWait_ends (he : findEntry s jsn = some e) (hr : findRun s jsn = some r) (hf : retireFree s = true)
    (hp : r.phase ≠ .unretired) (hv : s.wh.epochValid = false) (hw : isWriteOp (entryOp e) = true) (hrun : firmwareRuns s = true)
    (hn : findWrite jsn s = none) (hms : passedMs s.sys.readyAt (max s.aon.time at_) 10000 = true) :
    ∃ t, exec (.epochWaitTimeout jsn at_) s = .next t ∧ EndsR0 jsn stUnitDegraded r.done (atTime at_ s) t := by
  have held : Held jsn e r (atTime at_ s) := ⟨he, hr, hf⟩
  refine ⟨_, ?_, endWrite_fail held (by decide)⟩
  change execEpochWaitTimeout jsn at_ s = _
  have due : ((atTime at_ s).wh.epochValid || !isWriteOp (entryOp e) || !firmwareRuns (atTime at_ s)
      || !passedMs (atTime at_ s).sys.readyAt (atTime at_ s).aon.time 10000 || r.phase == .unretired) = false := by
    simp only [Bool.or_eq_false_iff, Bool.not_eq_false', beq_eq_false_iff_ne]
    exact ⟨⟨⟨⟨hv, hw⟩, hrun⟩, hms⟩, hp⟩
  rw [execEpochWaitTimeout]
  dsimp only
  rw [held.1, held.2.1]
  dsimp only
  rw [due, if_neg (by decide), show findWrite jsn (atTime at_ s) = none from hn]
  rfl

/-- Settles O23. -/
theorem toleranceAndTimeouts : Obligations.ToleranceAndTimeouts :=
  ⟨fun _ _ _ _ => setWakeTolerance_answers, fun _ _ _ _ _ => thermalLimit_ends, fun _ _ _ _ _ => epochWait_ends⟩

end Sys2Proof.Proofs
end

section
/-! PROOFS. The rings (03 R81-R85): no event and no completion moves the head of the event ring or its configuration (`f_bell`), and a
completion that is posted or written changes the rings alone (`f_onlyRings`). -/

namespace Sys2Proof.Machine

def State.bell (s : State) : Nat × RingCfg := (s.cmd.evt.head, s.cmd.evt.cfg)

end Sys2Proof.Machine

namespace Sys2Proof.Proofs

open Sys2Proof.Machine Sys2Proof.Safety Sys2Proof.Laws

/-! ### The head and the configuration of the event ring -/

@[simp] theorem bell_mk sys hif cmd jrn ctx pkr cph fmt tec vfy hlk drv mon spm prt mem thm pwr aon wh whd mram cart mgt pending out freeCount :
    (State.mk sys hif cmd jrn ctx pkr cph fmt tec vfy hlk drv mon spm prt mem thm pwr aon wh whd mram cart mgt pending out freeCount).bell = (cmd.evt.head, cmd.evt.cfg) := rfl

@[simp] theorem bell_fold (s : State) : (s.cmd.evt.head, s.cmd.evt.cfg) = s.bell := rfl

@[simp] theorem foldl_bell {α : Type} {f : State → α → State} (hf : ∀ s x, (f s x).bell = s.bell) (l : List α) (s : State) :
    (l.foldl f s).bell = s.bell := by
  induction l generalizing s with
  | nil => rfl
  | cons a t ih => rw [List.foldl_cons, ih, hf]

@[simp] theorem ite_bell (c : Prop) [Decidable c] (a b : State) : (if c then a else b).bell = if c then a.bell else b.bell :=
  apply_ite State.bell c a b

@[simp] theorem emit_bell (o : Output) (s : State) : (emit o s).bell = s.bell := by
  unfold emit; simp
@[simp] theorem msixTrigger_bell (v : Nat) (en : Bool) (s : State) : (msixTrigger v en s).bell = s.bell := by
  unfold msixTrigger; simp
@[simp] theorem hostStore_bell (addr : Nat) (l : List Byte) (s : State) : (hostStore addr l s).bell = s.bell := by
  unfold hostStore; simp
@[simp] theorem evtWrite_bell (e : EventEntry) (s : State) : (evtWrite e s).bell = s.bell := by
  unfold evtWrite
  dsimp only
  rw [msixTrigger_bell] <;> rfl
@[simp] theorem setWaiting_bell (w : List EventEntry) (s : State) : (setWaiting w s).bell = s.bell := by
  unfold setWaiting; simp
@[simp] theorem setGroup_bell (g : Nat) (f : EventGroup → EventGroup) (s : State) : (setGroup g f s).bell = s.bell
    := by
  unfold setGroup; simp
@[simp] theorem setStatusBit_bell (src : Nat) (s : State) : (setStatusBit src s).bell = s.bell := by
  unfold setStatusBit; simp
@[simp] theorem groupVector_bell (src : Nat) (was : Bool) (s : State) : (groupVector src was s).bell = s.bell := by
  unfold groupVector; simp
@[simp] theorem raiseStatus_bell (src p0 p1 : Nat) (s : State) : (raiseStatus src p0 p1 s).bell = s.bell := by
  unfold raiseStatus; simp
@[simp] theorem orderedWait_bell (e : EventEntry) (s : State) : (orderedWait e s).bell = s.bell := by
  unfold orderedWait; simp
@[simp] theorem raiseOrdered_bell (src p0 p1 : Nat) (s : State) : (raiseOrdered src p0 p1 s).bell = s.bell := by
  unfold raiseOrdered; simp
@[simp] theorem raise_bell (src p0 p1 : Nat) (s : State) : (raise src p0 p1 s).bell = s.bell := by
  unfold raise; simp
@[simp] theorem setCq_bell (n : Nat) (f : CplRing → CplRing) (s : State) : (setCq n f s).bell = s.bell := by
  unfold setCq; simp
@[simp] theorem cplWrite_bell (n : Nat) (c : Completion) (s : State) : (cplWrite n c s).bell = s.bell := by
  unfold cplWrite; simp
@[simp] theorem cplPost_bell (n : Nat) (c : Completion) (s : State) : (cplPost n c s).bell = s.bell := by
  unfold cplPost; simp
@[simp] theorem cplPump_bell (n : Nat) (y0 : Nat) (s : State) : (cplPump n y0 s).bell = s.bell := by
  induction y0 generalizing s with
  | zero => rfl
  | succ n ih => unfold cplPump; (repeat' split) <;> simp [ih]
@[simp] theorem releaseLate_bell (jsn : Nat) (s : State) : (releaseLate jsn s).bell = s.bell := by
  unfold releaseLate; simp
@[simp] theorem evtRefill_bell (s : State) : (evtRefill s).bell = s.bell := by
  unfold evtRefill; (repeat' split) <;> simp
@[simp] theorem evtDrain_bell (y0 : Nat) (s : State) : (evtDrain y0 s).bell = s.bell := by
  induction y0 generalizing s with
  | zero => rfl
  | succ n ih => unfold evtDrain; (repeat' split) <;> simp [ih]
@[simp] theorem evtPump_bell (s : State) : (evtPump s).bell = s.bell := by
  unfold evtPump; simp

/-! ### What a completion changes -/

/-- From s to t rings have been written and nothing else has changed. -/
def OnlyRings (s t : State) : Prop :=
  ∃ c e g l a p o n, t = { s with
    cmd := { s.cmd with cplRings := c, evt := e, groups := g, lateFinals := l }
    hif := { s.hif with atc := a, pba := p }, out := o, freeCount := n } ∧ s.out <+: o

namespace OnlyRings

theorem refl (s : State) : OnlyRings s s := ⟨_, _, _, _, _, _, _, _, rfl, List.prefix_rfl⟩

theorem of_onlyEvents {s t : State} (h : OnlyEvents s t) : OnlyRings s t := by
  obtain ⟨e, g, a, p, o, n, rfl, sent⟩ := h
  exact ⟨_, e, g, _, a, p, o, n, rfl, sent⟩

theorem trans {s t u : State} (h : OnlyRings s t) (h' : OnlyRings t u) : OnlyRings s u := by
  obtain ⟨c, e, g, l, a, p, o, n, rfl, sent⟩ := h
  obtain ⟨c', e', g', l', a', p', o', n', rfl, sent'⟩ := h'
  exact ⟨c', e', g', l', a', p', o', n', rfl, List.IsPrefix.trans sent sent'⟩

theorem foldl {α : Type} {f : State → α → State} (hf : ∀ s x, OnlyRings s (f s x)) (l : List α) (s : State) : OnlyRings s (l.foldl f s) := by
  induction l generalizing s with
  | nil => exact refl s
  | cons x l ih => exact (hf s x).trans (ih _)

theorem device {s t : State} (h : OnlyRings s t) : t.device = s.device := by
  obtain ⟨_, _, _, _, _, _, _, _, rfl, -⟩ := h; rfl

theorem jrn {s t : State} (h : OnlyRings s t) : t.jrn = s.jrn := by
  obtain ⟨_, _, _, _, _, _, _, _, rfl, -⟩ := h; rfl

theorem sys {s t : State} (h : OnlyRings s t) : t.sys = s.sys := by
  obtain ⟨_, _, _, _, _, _, _, _, rfl, -⟩ := h; rfl

theorem subRings {s t : State} (h : OnlyRings s t) : t.cmd.subRings = s.cmd.subRings := by
  obtain ⟨_, _, _, _, _, _, _, _, rfl, -⟩ := h; rfl

theorem out_prefix {s t : State} (h : OnlyRings s t) : s.out <+: t.out := by
  obtain ⟨_, _, _, _, _, _, _, _, rfl, sent⟩ := h; exact sent

end OnlyRings

theorem setCq_onlyRings (n : Nat) (f : CplRing → CplRing) (s : State) : OnlyRings s (setCq n f s) :=
  ⟨_, _, _, _, _, _, _, _, rfl, List.prefix_rfl⟩

theorem cplWrite_onlyRings (n : Nat) (c : Completion) (s : State) : OnlyRings s (cplWrite n c s) :=
  (OnlyRings.of_onlyEvents (hostStore_onlyEvents _ _ s)).trans
    ((setCq_onlyRings _ _ _).trans (.of_onlyEvents (msixTrigger_onlyEvents _ _ _)))

theorem cplPost_onlyRings (n : Nat) (c : Completion) (s : State) : OnlyRings s (cplPost n c s) := by
  unfold cplPost
  dsimp only
  split_ifs
  · exact cplWrite_onlyRings n c s
  · exact (setCq_onlyRings _ _ s).trans (.of_onlyEvents (raise_onlyEvents ..))
  · exact setCq_onlyRings _ _ s

theorem cplPump_onlyRings (n k : Nat) (s : State) : OnlyRings s (cplPump n k s) := by
  induction k generalizing s with
  | zero => exact .refl s
  | succ k ih =>
    unfold cplPump
    split
    · exact .refl s
    · split
      · exact ((setCq_onlyRings _ _ s).trans (cplWrite_onlyRings _ _ _)).trans (ih _)
      · exact .refl s

theorem releaseLate_onlyRings (jsn : Nat) (s : State) : OnlyRings s (releaseLate jsn s) := by
  unfold releaseLate
  dsimp only
  split
  · exact .refl s
  · exact OnlyRings.trans ⟨_, _, _, _, _, _, _, _, rfl, List.prefix_rfl⟩ (OnlyRings.foldl (fun s p => cplPost_onlyRings _ _ s) _ _)

theorem evtRefill_onlyRings (s : State) : OnlyRings s (evtRefill s) := by
  unfold evtRefill
  split
  · exact .refl s
  · split
    · exact .refl s
    · exact .of_onlyEvents ((setEvt_onlyEvents _ s).trans (orderedWait_onlyEvents _ _))

theorem evtDrain_onlyRings (k : Nat) (s : State) : OnlyRings s (evtDrain k s) := by
  induction k generalizing s with
  | zero => exact .refl s
  | succ k ih =>
    unfold evtDrain
    split
    · exact .refl s
    · next e t _ =>
      split
      · have written := (OnlyRings.of_onlyEvents ((setWaiting_onlyEvents t s).trans
          (evtWrite_onlyEvents e (setWaiting t s)))).trans (evtRefill_onlyRings _)
        refine OnlyRings.trans ?_ (ih _)
        split
        · exact written.trans (releaseLate_onlyRings _ _)
        · exact written
      · exact .refl s

theorem evtPump_onlyRings (s : State) : OnlyRings s (evtPump s) := evtDrain_onlyRings _ s

end Sys2Proof.Proofs
end

section
/-! PROOFS. Doorbells, the fetch of submission entries and the Counter (03 R65-R71, R81-R83, Table 3-6). -/

namespace Sys2Proof.Proofs

open Sys2Proof.Machine Sys2Proof.Safety Sys2Proof.Laws

/-- A wake trigger touches the power state alone (15 R395). -/
theorem wakeNow_shape (s : State) : ∃ p, wakeNow s = { s with pwr := p } := by
  unfold wakeNow
  split
  · exact ⟨_, rfl⟩
  · exact ⟨_, rfl⟩

/-- The command block is not the power unit's. -/
@[simp] theorem wakeNow_cmd (s : State) : (wakeNow s).cmd = s.cmd := by
  obtain ⟨p, hp⟩ := wakeNow_shape s; rw [hp]

/-- A ring that is there is the one that is read. -/
theorem getCq_of_some {ring : Nat} {r : CplRing} {s : State} (h : s.cmd.cplRings[ring]? = some r) : getCq ring s = r := by
  simp only [getCq, List.getD_eq_getElem?_getD, h, Option.getD_some]

theorem getD_of_some {α : Type} {l : List α} {n : Nat} {a d : α} (h : l[n]? = some a) : l.getD n d = a := by
  simp only [List.getD_eq_getElem?_getD, h, Option.getD_some]

/-! ### Completion rings: whose ring an entry is written to -/

/-- From s to t the completion ring takes entries that waited; its head, its configuration and every other ring stay. -/
def OnlyRing (ring : Nat) (s t : State) : Prop :=
  (∀ r, s.cmd.cplRings[ring]? = some r → ∃ r', t.cmd.cplRings[ring]? = some r' ∧ r'.head = r.head ∧ r'.cfg = r.cfg)
    ∧ (∀ n, n ≠ ring → t.cmd.cplRings[n]? = s.cmd.cplRings[n]?) ∧ t.cmd.evt = s.cmd.evt

namespace OnlyRing

variable {ring : Nat} {s t u : State}

theorem refl (s : State) : OnlyRing ring s s := ⟨fun r h => ⟨r, h, rfl, rfl⟩, fun _ _ => rfl, rfl⟩

theorem of_cmd (h : t.cmd = s.cmd) : OnlyRing ring s t := by
  refine ⟨fun r hr => ⟨r, by rw [h]; exact hr, rfl, rfl⟩, fun n _ => by rw [h], by rw [h]⟩

theorem trans (h : OnlyRing ring s t) (h' : OnlyRing ring t u) : OnlyRing ring s u := by
  obtain ⟨own, others, evt⟩ := h
  obtain ⟨own', others', evt'⟩ := h'
  refine ⟨fun r hr => ?_, fun n hn => (others' n hn).trans (others n hn), evt'.trans evt⟩
  obtain ⟨r₁, hr₁, head₁, cfg₁⟩ := own r hr
  obtain ⟨r₂, hr₂, head₂, cfg₂⟩ := own' r₁ hr₁
  exact ⟨r₂, hr₂, head₂.trans head₁, cfg₂.trans cfg₁⟩

end OnlyRing

theorem setCq_onlyRing {f : CplRing → CplRing} (hf : ∀ r, (f r).head = r.head ∧ (f r).cfg = r.cfg) (ring : Nat) (s : State) :
    OnlyRing ring s (setCq ring f s) := by
  refine ⟨fun r hr => ⟨f r, ?_, hf r⟩, fun n hn => ?_, rfl⟩
  · exact (List.getElem?_modify_eq ..).trans (by rw [hr]; rfl)
  · exact List.getElem?_modify_ne _ _ (Ne.symm hn)

theorem hostStore_cmd (addr : Nat) (l : List Byte) (s : State) : (hostStore addr l s).cmd = s.cmd := by
  unfold hostStore atcTouch; split <;> rfl

theorem cplWrite_onlyRing (ring : Nat) (c : Completion) (s : State) : OnlyRing ring s (cplWrite ring c s) :=
  ((OnlyRing.of_cmd (hostStore_cmd _ _ s)).trans (setCq_onlyRing (f := cplAdvance c) (fun _ => ⟨rfl, rfl⟩) ring _)).trans
    (OnlyRing.of_cmd (msixTrigger_cmd _ _ _))

theorem cplPump_onlyRing (ring k : Nat) (s : State) : OnlyRing ring s (cplPump ring k s) := by
  induction k generalizing s with
  | zero => exact .refl s
  | succ k ih =>
    unfold cplPump
    split
    · exact .refl s
    · next c t _ =>
      split
      · have moved : OnlyRing ring s (setCq ring (fun r => { r with waiting := t }) s) :=
          setCq_onlyRing (f := fun r => { r with waiting := t }) (fun _ => ⟨rfl, rfl⟩) ring s
        exact (moved.trans (cplWrite_onlyRing _ c _)).trans (ih _)
      · exact .refl s

/-- Released entries reach the journal alone, and look at it alone. -/
theorem releaseLive_shape (l : List (Nat × Bool)) (s : State) : ∃ j, ∀ c, releaseLive l { s with cmd := c } = { s with cmd := c, jrn := j } := by
  induction l generalizing s with
  | nil => exact ⟨s.jrn, fun _ => rfl⟩
  | cons p l ih =>
    by_cases hp : (p.2 && p.1 != 0) = true
    · obtain ⟨j, hj⟩ := ih (beginFree p.1 s)
      refine ⟨j, fun c => ?_⟩
      refine Eq.trans ?_ (hj c)
      change releaseLive l (if _ then _ else _) = _
      rw [if_pos hp]
      rfl
    · obtain ⟨j, hj⟩ := ih s
      refine ⟨j, fun c => ?_⟩
      refine Eq.trans ?_ (hj c)
      change releaseLive l (if _ then _ else _) = _
      rw [if_neg hp]

/-! ### The doorbells -/

/-- A submission tail within an enabled ring is taken. -/
theorem sqTail_taken {ring v : Nat} {s : State} {r : SubRing} (hopen : mmioOpen s) (hr : s.cmd.subRings[ring]? = some r)
    (hen : r.cfg.en = true) (hv : v < 2 ^ r.cfg.sizeLog2) :
    ∃ t, exec (.cmdSqTailWrite ring v) s = .next t ∧ t.cmd.subRings[ring]? = some { r with tail := v }
        ∧ (∀ n, n ≠ ring → t.cmd.subRings[n]? = s.cmd.subRings[n]?) ∧ t.cmd.cplRings = s.cmd.cplRings ∧ t.cmd.evt = s.cmd.evt
        ∧ t.out = s.out ∧ t.jrn = s.jrn ∧ t.mem = s.mem := by
  obtain ⟨p, hp⟩ := wakeNow_shape s
  have below : v < ringSize r.cfg := hv
  have fits : ¬ (!r.cfg.en || decide (ringSize r.cfg ≤ v)) = true := by simp [hen, below]
  refine ⟨{ s with pwr := p, cmd := { s.cmd with subRings := s.cmd.subRings.modify ring fun r => { r with tail := v } } }, ?_, ?_, ?_,
    rfl, rfl, rfl, rfl, rfl⟩
  · change execCmdSqTailWrite ring v s = _
    rw [execCmdSqTailWrite, onMmio_of_open hopen]
    dsimp only
    rw [wakeNow_cmd, getD_of_some hr, if_neg fits, hp]
  · exact (List.getElem?_modify_eq ..).trans (by rw [hr]; rfl)
  · exact fun n hn => List.getElem?_modify_ne _ _ (Ne.symm hn)

/-- A submission tail beyond the ring, or for a ring not enabled, is an error. -/
theorem sqTail_refused {ring v : Nat} {s : State} {r : SubRing} (hopen : mmioOpen s) (hr : s.cmd.subRings[ring]? = some r)
    (hbad : r.cfg.en = false ∨ 2 ^ r.cfg.sizeLog2 ≤ v) :
    exec (.cmdSqTailWrite ring v) s = .next (raise evCmdDoorbellErr ring v (wakeNow s)) := by
  replace hbad : r.cfg.en = false ∨ ringSize r.cfg ≤ v := hbad
  have bad : (!r.cfg.en || decide (ringSize r.cfg ≤ v)) = true := by simpa using hbad
  change execCmdSqTailWrite ring v s = _
  rw [execCmdSqTailWrite, onMmio_of_open hopen]
  dsimp only
  rw [wakeNow_cmd, getD_of_some hr, if_pos bad]
  rfl

/-- A completion head up to the tail releases entries, and waiting ones find room. -/
theorem cqHead_taken {ring v : Nat} {s : State} {r : CplRing} (hopen : mmioOpen s) (hr : s.cmd.cplRings[ring]? = some r)
    (hen : r.cfg.en = true) (hv : v < 2 ^ r.cfg.sizeLog2)
    (hspan : ringSpan (2 ^ r.cfg.sizeLog2) r.head v ≤ ringSpan (2 ^ r.cfg.sizeLog2) r.head r.tail) :
    ∃ t, exec (.cmdCqHeadWrite ring v) s = .next t ∧ (∃ r', t.cmd.cplRings[ring]? = some r' ∧ r'.head = v ∧ r'.cfg = r.cfg)
        ∧ t.jrn = (releaseLive (r.live.take (ringSpan (2 ^ r.cfg.sizeLog2) r.head v)) s).jrn
        ∧ (∀ n, n ≠ ring → t.cmd.cplRings[n]? = s.cmd.cplRings[n]?) ∧ t.cmd.subRings = s.cmd.subRings
        ∧ t.cmd.evt = s.cmd.evt ∧ t.mem = s.mem := by
  replace hv : v < ringSize r.cfg := hv
  replace hspan : ringSpan (ringSize r.cfg) r.head v ≤ ringSpan (ringSize r.cfg) r.head r.tail := hspan
  have fits : ¬ (!r.cfg.en || decide (ringSize r.cfg ≤ v)
      || decide (ringSpan (ringSize r.cfg) r.head r.tail < ringSpan (ringSize r.cfg) r.head v)) = true := by
    simp [hen, hv, hspan]
  obtain ⟨j, hj⟩ := releaseLive_shape (r.live.take (ringSpan (ringSize r.cfg) r.head v)) s
  generalize hu : setCq ring (fun r' => { r' with head := v, live := r'.live.drop (ringSpan (ringSize r.cfg) r.head v) }) s = u
  have taken : u.cmd.cplRings[ring]? = some { r with head := v, live := r.live.drop (ringSpan (ringSize r.cfg) r.head v) } := by
    rw [← hu]; exact (List.getElem?_modify_eq ..).trans (by rw [hr]; rfl)
  have others : ∀ n, n ≠ ring → u.cmd.cplRings[n]? = s.cmd.cplRings[n]? := by
    intro n hn; rw [← hu]; exact List.getElem?_modify_ne _ _ (Ne.symm hn)
  have released : releaseLive (r.live.take (ringSpan (ringSize r.cfg) r.head v)) u = { u with jrn := j } := by
    rw [← hu]; exact hj _
  have own : releaseLive (r.live.take (ringSpan (ringSize r.cfg) r.head v)) s = { s with jrn := j } := hj s.cmd
  have pumped := cplPump_onlyRing ring (getCq ring { u with jrn := j }).waiting.length { u with jrn := j }
  have answered := cplPump_onlyRings ring (getCq ring { u with jrn := j }).waiting.length { u with jrn := j }
  obtain ⟨head, rest, evt⟩ := pumped
  refine ⟨_, ?_, head _ taken, ?_, fun n hn => (rest n hn).trans (others n hn), ?_, evt.trans (by rw [← hu]; rfl), ?_⟩
  · change execCmdCqHeadWrite ring v s = _
    rw [execCmdCqHeadWrite, onMmio_of_open hopen]
    dsimp only
    rw [getCq_of_some hr, if_neg fits, hu, released]
  · rw [answered.jrn]; exact (congrArg State.jrn own).symm
  · rw [answered.subRings, ← hu]; rfl
  · rw [device_mem answered.device, ← hu]; rfl

/-- A completion head beyond the tail, or for a ring not enabled, is an error. -/
theorem cqHead_refused {ring v : Nat} {s : State} {r : CplRing} (hopen : mmioOpen s) (hr : s.cmd.cplRings[ring]? = some r)
    (hbad : r.cfg.en = false ∨ 2 ^ r.cfg.sizeLog2 ≤ v
      ∨ ringSpan (2 ^ r.cfg.sizeLog2) r.head r.tail < ringSpan (2 ^ r.cfg.sizeLog2) r.head v) :
    exec (.cmdCqHeadWrite ring v) s = .next (raise evCmdDoorbellErr (64 + ring) v s) := by
  replace hbad : r.cfg.en = false ∨ ringSize r.cfg ≤ v
      ∨ ringSpan (ringSize r.cfg) r.head r.tail < ringSpan (ringSize r.cfg) r.head v := hbad
  have bad : (!r.cfg.en || decide (ringSize r.cfg ≤ v)
      || decide (ringSpan (ringSize r.cfg) r.head r.tail < ringSpan (ringSize r.cfg) r.head v)) = true := by
    simpa [or_assoc] using hbad
  change execCmdCqHeadWrite ring v s = _
  rw [execCmdCqHeadWrite, onMmio_of_open hopen]
  dsimp only
  rw [getCq_of_some hr, if_pos bad]
  rfl

/-- An event head up to the tail is taken, and waiting events find room. -/
theorem evqHead_taken {v : Nat} {s : State} (hopen : mmioOpen s) (hen : s.cmd.evt.cfg.en = true)
    (hv : v < 2 ^ s.cmd.evt.cfg.sizeLog2)
    (hspan : ringSpan (2 ^ s.cmd.evt.cfg.sizeLog2) s.cmd.evt.head v
      ≤ ringSpan (2 ^ s.cmd.evt.cfg.sizeLog2) s.cmd.evt.head s.cmd.evt.tail) :
    exec (.cmdEvqHeadWrite v) s = .next (evtPump { s with cmd := { s.cmd with evt := { s.cmd.evt with head := v } } }) := by
  replace hv : v < ringSize s.cmd.evt.cfg := hv
  replace hspan : ringSpan (ringSize s.cmd.evt.cfg) s.cmd.evt.head v
    ≤ ringSpan (ringSize s.cmd.evt.cfg) s.cmd.evt.head s.cmd.evt.tail := hspan
  have fits : ¬ (!s.cmd.evt.cfg.en || decide (ringSize s.cmd.evt.cfg ≤ v)
      || decide (ringSpan (ringSize s.cmd.evt.cfg) s.cmd.evt.head s.cmd.evt.tail
        < ringSpan (ringSize s.cmd.evt.cfg) s.cmd.evt.head v)) = true := by
    simp [hen, hv, hspan]
  change execCmdEvqHeadWrite v s = _
  rw [execCmdEvqHeadWrite, onMmio_of_open hopen]
  dsimp only
  rw [if_neg fits]

/-- An event head beyond the tail, or for a ring not enabled, is an error. -/
theorem evqHead_refused {v : Nat} {s : State} (hopen : mmioOpen s)
    (hbad : s.cmd.evt.cfg.en = false ∨ 2 ^ s.cmd.evt.cfg.sizeLog2 ≤ v
      ∨ ringSpan (2 ^ s.cmd.evt.cfg.sizeLog2) s.cmd.evt.head s.cmd.evt.tail
        < ringSpan (2 ^ s.cmd.evt.cfg.sizeLog2) s.cmd.evt.head v) :
    exec (.cmdEvqHeadWrite v) s = .next (raise evCmdDoorbellErr 128 v s) := by
  replace hbad : s.cmd.evt.cfg.en = false ∨ ringSize s.cmd.evt.cfg ≤ v
      ∨ ringSpan (ringSize s.cmd.evt.cfg) s.cmd.evt.head s.cmd.evt.tail
        < ringSpan (ringSize s.cmd.evt.cfg) s.cmd.evt.head v := hbad
  have bad : (!s.cmd.evt.cfg.en || decide (ringSize s.cmd.evt.cfg ≤ v)
      || decide (ringSpan (ringSize s.cmd.evt.cfg) s.cmd.evt.head s.cmd.evt.tail
        < ringSpan (ringSize s.cmd.evt.cfg) s.cmd.evt.head v)) = true := by
    simpa [or_assoc] using hbad
  change execCmdEvqHeadWrite v s = _
  rw [execCmdEvqHeadWrite, onMmio_of_open hopen]
  dsimp only
  rw [if_pos bad]
  rfl

/-! ### The fetch of submission entries -/

/-- A read of host memory is sent, and reaches the translations alone. -/
theorem hostFetch_shape (addr len : Nat) (s : State) : ∃ a o, hostFetch addr len s = { s with hif := { s.hif with atc := a }, out := s.out ++ o } := by
  unfold hostFetch atcTouch
  split
  · exact ⟨_, _, rfl⟩
  · exact ⟨_, _, rfl⟩

/-- What the entries of a packet are fetched with: one read of host memory, or two. -/
theorem fetchEntries_shape (c : Prop) [Decidable c] (a a' : Nat) (s : State) :
    ∃ h o, (if c then hostFetch a' 64 (hostFetch a 64 s) else hostFetch a 64 s) = { s with hif := h, out := s.out ++ o } := by
  obtain ⟨h, o, first⟩ := hostFetch_shape a 64 s
  rw [first]
  split
  · obtain ⟨h', o', second⟩ := hostFetch_shape a' 64 { s with hif := { s.hif with atc := h }, out := s.out ++ o }
    refine ⟨{ s.hif with atc := h' }, o ++ o', ?_⟩
    rw [second, ← List.append_assoc]
  · exact ⟨_, o, rfl⟩

/-- A packet whose entries all lie before the tail is copied. -/
theorem sqEntryFetch_copies {ring : Nat} {words : List Word} {s : State} {r : SubRing} (hr : s.cmd.subRings[ring]? = some r)
    (hfw : firmwareRuns s = true) (hbm : s.hif.busMaster = true) (hpath : pathOpen s = true) (hen : r.cfg.en = true)
    (hrange : hostRangeOk (r.cfg.base.toNat + 64 * r.head) 64 = true)
    (hlies : (if pktLen (words.getD 0 0) ≤ 8 then 1 else 2) ≤ ringSpan (2 ^ r.cfg.sizeLog2) r.head r.tail) :
    ∃ t, exec (.sqEntryFetch ring words) s = .next t
        ∧ t.cmd.subRings[ring]? = some { r with
            head := (r.head + if pktLen (words.getD 0 0) ≤ 8 then 1 else 2) % 2 ^ r.cfg.sizeLog2
            copied := r.copied ++ [{ words := words.take (max 1 (min 16 (pktLen (words.getD 0 0)))), index := r.head }] }
        ∧ (∀ n, n ≠ ring → t.cmd.subRings[n]? = s.cmd.subRings[n]?) ∧ t.jrn = s.jrn ∧ t.mem = s.mem ∧ s.out <+: t.out := by
  replace hlies : entriesOf (words.getD 0 0) ≤ ringSpan (ringSize r.cfg) r.head r.tail := hlies
  have goes : ¬ (!(firmwareRuns s) || !s.hif.busMaster || !pathOpen s || !r.cfg.en
      || decide (ringSpan (ringSize r.cfg) r.head r.tail < entriesOf (words.getD 0 0))) = true := by
    simp only [hfw, hbm, hpath, hen, decide_eq_false (Nat.not_lt.2 hlies), Bool.not_true, Bool.or_self, Bool.false_eq_true,
      not_false_eq_true]
  obtain ⟨h, o, fetched⟩ := fetchEntries_shape (entriesOf (words.getD 0 0) = 2) (r.cfg.base.toNat + 64 * r.head)
    (r.cfg.base.toNat + 64 * ((r.head + 1) % ringSize r.cfg)) s
  refine ⟨{ s with
      hif := h, out := s.out ++ o
      cmd := { s.cmd with subRings := s.cmd.subRings.modify ring fun x => { x with
        head := (x.head + entriesOf (words.getD 0 0)) % ringSize r.cfg
        copied := x.copied ++ [{ words := words.take (max 1 (min 16 (pktLen (words.getD 0 0)))), index := r.head }] } } },
    ?_, (List.getElem?_modify_eq ..).trans (by rw [hr]; rfl), fun n hn => List.getElem?_modify_ne _ _ (Ne.symm hn),
    rfl, rfl, List.prefix_append _ o⟩
  change execSqEntryFetch ring words s = _
  rw [execSqEntryFetch]
  dsimp only
  rw [getD_of_some hr, if_neg goes, if_neg (by simp [hrange]), fetched]

/-- A packet that is not all there, or out of reach, is left. -/
theorem sqEntryFetch_waits {ring : Nat} {words : List Word} {s : State} {r : SubRing} (hr : s.cmd.subRings[ring]? = some r)
    (hwaits : firmwareRuns s = false ∨ s.hif.busMaster = false ∨ pathOpen s = false ∨ r.cfg.en = false
      ∨ hostRangeOk (r.cfg.base.toNat + 64 * r.head) 64 = false
      ∨ ringSpan (2 ^ r.cfg.sizeLog2) r.head r.tail < if pktLen (words.getD 0 0) ≤ 8 then 1 else 2) :
    exec (.sqEntryFetch ring words) s = .next s := by
  change execSqEntryFetch ring words s = _
  rw [execSqEntryFetch]
  dsimp only
  rw [getD_of_some hr]
  by_cases hrange : hostRangeOk (r.cfg.base.toNat + 64 * r.head) 64 = true
  · rw [if_pos]
    simp only [hrange, Bool.true_eq_false, false_or] at hwaits
    obtain h | h | h | h | h := hwaits
    · simp [h]
    · simp [h]
    · simp [h]
    · simp [h]
    · have less : ringSpan (ringSize r.cfg) r.head r.tail < entriesOf (words.getD 0 0) := h
      simp only [decide_eq_true less, Bool.or_true]
  · split
    · rfl
    · rw [if_pos (by simpa using hrange)]

/-- Settles O25: each doorbell is taken or refused by its range check, and a packet is copied or left. -/
theorem doorbellsAndFetch : Obligations.DoorbellsAndFetch := by
  refine ⟨⟨?_, ?_, ?_, ?_, ?_, ?_⟩, ?_, ?_⟩
  · exact fun ring v s r hopen hr hen hv => sqTail_taken hopen hr hen hv
  · exact fun ring v s r hopen hr hbad => sqTail_refused hopen hr hbad
  · exact fun ring v s r hopen hr hen hv hspan => cqHead_taken hopen hr hen hv hspan
  · intro ring v s r hopen hr hbad
    have raised := raise_onlyEvents evCmdDoorbellErr (64 + ring) v s
    obtain ⟨_, _, hcmd⟩ := raised.cmd
    exact ⟨_, cqHead_refused hopen hr hbad, rfl, by rw [hcmd], raised.jrn⟩
  · intro v s hopen hen hv hspan
    have moved := evtPump_bell { s with cmd := { s.cmd with evt := { s.cmd.evt with head := v } } }
    have pumped := evtPump_onlyRings { s with cmd := { s.cmd with evt := { s.cmd.evt with head := v } } }
    exact ⟨_, evqHead_taken hopen hen hv hspan, congrArg Prod.fst moved, congrArg Prod.snd moved, pumped.subRings, pumped.jrn,
      device_mem pumped.device⟩
  · intro v s hopen hbad
    exact ⟨_, evqHead_refused hopen hbad, rfl, congrArg Prod.fst (raise_bell ..)⟩
  · exact fun ring words s r hr hfw hbm hpath hen hrange hlies => sqEntryFetch_copies hr hfw hbm hpath hen hrange hlies
  · exact fun ring words s r hr hwaits => sqEntryFetch_waits hr hwaits

/-! ### The Counter -/

/-- A word of the Counter is a write that the CXL.io stream carries. -/
theorem exec_cmdCtrSopWrite {w : Word} {s : State} (hopen : mmioOpen s) (hlen : 2 ≤ pktLen w) (hmax : pktLen w ≤ 16) :
    exec (.cmdCtrSopWrite w) s = .next (if s.cmd.counter.state = .opened then
      sopWord w (raise evIntakeTruncated w.toNat s.cmd.counter.openWords
        (setCounter (fun c => { discardOne (dropOpen c) with state := .idle }) (wakeNow s)))
      else sopWord w (wakeNow s)) := by
  change execCmdCtrSopWrite w s = _
  rw [execCmdCtrSopWrite, onMmio_of_open hopen]
  dsimp only
  rw [if_neg (by omega)]
  simp only [wakeNow_cmd, decide_eq_true_eq]

/-- A word with a bad LEN drops the packet that is open, and is dropped. -/
theorem exec_cmdCtrSopWrite_bad {w : Word} {s : State} (hopen : mmioOpen s) (hbad : pktLen w < 2 ∨ 16 < pktLen w) :
    exec (.cmdCtrSopWrite w) s = .next (raise evIntakeMalformed w.toNat
      (if s.cmd.counter.state = .opened then s.cmd.counter.openWords else 0)
      (setCounter (fun c => { (if s.cmd.counter.state = .opened then discardOne (dropOpen c) else c) with state := .dropping })
        (wakeNow s))) := by
  change execCmdCtrSopWrite w s = _
  rw [execCmdCtrSopWrite, onMmio_of_open hopen]
  dsimp only
  rw [if_pos hbad]
  simp only [wakeNow_cmd, decide_eq_true_eq]

theorem exec_cmdCtrDataWrite {w : Word} {s : State} (hopen : mmioOpen s) :
    exec (.cmdCtrDataWrite w) s = .next (if s.cmd.counter.state = .opened then
        if 1 ≤ ctrFree s.cmd.counter then
          setCounter (fun c => if openLen c ≤ c.openWords + 1
            then { c with stages := c.stages ++ [w], openWords := 0, state := .idle }
            else { c with stages := c.stages ++ [w], openWords := c.openWords + 1 }) (wakeNow s)
        else raise evIntakeOversize w.toNat s.cmd.counter.openWords
          (setCounter (fun c => { discardOne (dropOpen c) with state := .dropping }) (wakeNow s))
      else setCounter (fun c => { c with dropped := satAdd 65535 c.dropped 1 }) (wakeNow s)) := by
  change execCmdCtrDataWrite w s = _
  rw [execCmdCtrDataWrite, onMmio_of_open hopen]
  dsimp only
  simp only [wakeNow_cmd]

/-- An event does not reach the Counter. -/
@[simp] theorem raise_counter (src p0 p1 : Nat) (s : State) : (raise src p0 p1 s).cmd.counter = s.cmd.counter := by
  obtain ⟨_, _, h⟩ := (raise_onlyEvents src p0 p1 s).cmd
  rw [h]

@[simp] theorem setCounter_counter (f : Counter → Counter) (s : State) :
    (setCounter f s).cmd.counter = f s.cmd.counter := rfl

/-- A valid SOP word opens a packet where a stage is free. -/
theorem sopWord_opens {w : Word} {s : State} (h : s.cmd.counter.stages.length < 64) :
    sopWord w s = setCounter (fun c => { c with stages := c.stages ++ [w], openWords := 1, state := .opened }) s := by
  have free : 1 ≤ ctrFree s.cmd.counter := by simp only [ctrFree]; omega
  simp only [sopWord, if_pos free]

/-- With no stage free it is dropped and counted. -/
theorem sopWord_drops {w : Word} {s : State} (h : 64 ≤ s.cmd.counter.stages.length) :
    sopWord w s = raise evIntakeOversize w.toNat 0 (setCounter (fun c => { discardOne c with state := .dropping }) s) := by
  have full : ¬ 1 ≤ ctrFree s.cmd.counter := by simp only [ctrFree]; omega
  simp only [sopWord, if_neg full]

/-- Settles O26: the words by the rows of Table 3-6. -/
theorem counterFollowsItsTable : Obligations.CounterFollowsItsTable := by
  refine ⟨?_, ?_, ?_, ?_, ?_, ?_, ?_, ?_, ?_⟩
  · intro w s hopen hclosed hlen hmax hfree
    rw [exec_cmdCtrSopWrite hopen hlen hmax, if_neg hclosed, sopWord_opens (by rwa [wakeNow_cmd])]
  · intro w s hopen hclosed hlen hmax hfull
    refine ⟨_, by rw [exec_cmdCtrSopWrite hopen hlen hmax, if_neg hclosed, sopWord_drops (by rwa [wakeNow_cmd])], ?_⟩
    simp [discardOne, satAdd]
  · intro w s hopen hbad
    refine ⟨_, exec_cmdCtrSopWrite_bad hopen hbad, by simp, fun hclosed => by simp [hclosed], fun hopened => ?_⟩
    simp [hopened, discardOne, dropOpen, satAdd, committedWords]
  · intro w s hopen hopened hlen hmax hfree
    refine ⟨_, by rw [exec_cmdCtrSopWrite hopen hlen hmax, if_pos hopened, sopWord_opens (by simpa [discardOne, dropOpen] using hfree)],
      ?_⟩
    simp [discardOne, dropOpen, satAdd]
  · intro w s hopen hopened hfree
    have free : 1 ≤ ctrFree s.cmd.counter := by simp only [ctrFree]; omega
    rw [exec_cmdCtrDataWrite hopen, if_pos hopened, if_pos free]
    simp only [setCounter, wakeNow_cmd, hopened]
    split <;> rfl
  · intro w s hopen hopened hfull
    have full : ¬ 1 ≤ ctrFree s.cmd.counter := by simp only [ctrFree]; omega
    refine ⟨_, by rw [exec_cmdCtrDataWrite hopen, if_pos hopened, if_neg full], by simp, by simp [discardOne, dropOpen], ?_⟩
    obtain ⟨p, hp⟩ := wakeNow_shape s
    rw [(raise_onlyEvents ..).jrn, hp]
    rfl
  · intro w s hopen hclosed
    rw [exec_cmdCtrDataWrite hopen, if_neg hclosed]
    rfl
  · intro s hopen
    refine ⟨_, congrArg Host.Outcome.next (onMmio_of_open hopen _), rfl, rfl, ?_, rfl⟩
    simp
  · intro s hopen
    exact congrArg Host.Outcome.next (onMmio_of_open hopen _)

end Sys2Proof.Proofs
end

section
/-! PROOFS. JOURNAL_TAKE, the journal's slots, aborts and the management port (03 R60, R72-R80, 06 R162, 17 R445, R446). -/

namespace Sys2Proof.Proofs

open Sys2Proof.Machine Sys2Proof.Safety Sys2Proof.Laws

/-! ### What taking a packet changes -/

/-- From s to t the command block and the host interface have changed, and something may have been sent. -/
def OnlyCommand (s t : State) : Prop :=
  ∃ c h o n, t = { s with cmd := c, hif := h, out := o, freeCount := n }

namespace OnlyCommand

theorem refl (s : State) : OnlyCommand s s := ⟨_, _, _, _, rfl⟩

theorem setCmd (c : Cmd) (s : State) : OnlyCommand s { s with cmd := c } := ⟨_, _, _, _, rfl⟩

theorem trans {s t u : State} (h : OnlyCommand s t) (h' : OnlyCommand t u) : OnlyCommand s u := by
  obtain ⟨c, h, o, n, rfl⟩ := h
  obtain ⟨c', h', o', n', rfl⟩ := h'
  exact ⟨c', h', o', n', rfl⟩

theorem of_onlyEvents {s t : State} (h : OnlyEvents s t) : OnlyCommand s t := by
  obtain ⟨e, g, a, p, o, n, rfl, -⟩ := h; exact ⟨_, _, _, _, rfl⟩

theorem device {s t : State} (h : OnlyCommand s t) : t.device = s.device := by
  obtain ⟨_, _, _, _, rfl⟩ := h; rfl

theorem jrn {s t : State} (h : OnlyCommand s t) : t.jrn = s.jrn := by
  obtain ⟨_, _, _, _, rfl⟩ := h; rfl

theorem blocks {s t : State} (h : OnlyCommand s t) :
    t.ctx = s.ctx ∧ t.fmt = s.fmt ∧ t.mem = s.mem ∧ t.cart = s.cart ∧ t.mram = s.mram ∧ t.sys = s.sys := by
  obtain ⟨_, _, _, _, rfl⟩ := h; exact ⟨rfl, rfl, rfl, rfl, rfl, rfl⟩

end OnlyCommand

theorem noteFull_onlyCommand (src : Nat) (s : State) : OnlyCommand s (noteFull src s) := by
  unfold noteFull
  split
  · split
    · exact .refl s
    · exact (OnlyCommand.setCmd _ s).trans (.of_onlyEvents (raise_onlyEvents ..))
  · split
    · exact .refl s
    · exact (OnlyCommand.setCmd _ s).trans (.of_onlyEvents (raise_onlyEvents ..))
  · exact .refl s

theorem nextTurn_onlyCommand (s : State) : OnlyCommand s (nextTurn s) := .setCmd _ s

theorem ringTurn_onlyCommand (k : Nat) (s : State) : OnlyCommand s (ringTurn k s).1 := by
  induction k generalizing s with
  | zero => exact .refl s
  | succ k ih =>
    unfold ringTurn
    dsimp only
    split
    · exact (nextTurn_onlyCommand s).trans (ih _)
    · split_ifs
      · exact (nextTurn_onlyCommand s).trans (ih _)
      · exact ((noteFull_onlyCommand _ s).trans (nextTurn_onlyCommand _)).trans (ih _)
      · exact .setCmd _ s

/-- Taking a packet moves queues and notes the sources that wait (R72, R85). -/
theorem takePacket_onlyCommand (s : State) : OnlyCommand s (takePacket s).1 := by
  have mgt (u : State) : OnlyCommand u (match u.cmd.mgtQueue with
      | ws :: t =>
        if sourceWaits 65 ws u then ringTurn 65 (noteFull 65 u)
        else ({ u with cmd := { u.cmd with mgtQueue := t } }, some (65, { words := ws, index := 0 }))
      | [] => ringTurn 65 u).1 := by
    split
    · split
      · exact (noteFull_onlyCommand _ u).trans (ringTurn_onlyCommand _ _)
      · exact .setCmd _ u
    · exact ringTurn_onlyCommand _ u
  unfold takePacket
  dsimp only
  split
  · split
    · exact (noteFull_onlyCommand _ s).trans (mgt _)
    · exact .setCmd _ s
  · exact mgt s

theorem takePacket_kept_blocks {s u : State} {x : Option (Nat × Packet)} (h : takePacket s = (u, x)) : OnlyCommand s u := by
  have := takePacket_onlyCommand s
  rwa [h] at this

/-! ### The packet that has been taken -/

section

variable {i : TakeInput} {s u : State} {src : Nat} {p : Packet}

theorem journalTake_none (hfw : firmwareRuns s = true) (hrep : s.sys.toReport = []) (ht : takePacket s = (u, none)) :
    exec (.journalTake i) s = .next u := by
  change execJournalTake i s = _
  simp [execJournalTake, hfw, hrep, ht]

theorem journalTake_noCq (hfw : firmwareRuns s = true) (hrep : s.sys.toReport = []) (ht : takePacket s = (u, some (src, p)))
    (hsrc : src ≠ 65) (hen : (getCq (pktCq (p.words.getD 0 0)) u).cfg.en = false) :
    exec (.journalTake i) s = .next (raise evCmdNoCq src (pktCid (p.words.getD 0 0)) u) := by
  change execJournalTake i s = _
  have off : src ≠ 65 ∧ (!(getCq (pktCq (p.words.getD 0 0)) u).cfg.en) = true := ⟨hsrc, by rw [hen]; rfl⟩
  simp only [execJournalTake, hfw, hrep, ht, if_pos off]
  rfl

theorem journalTake_checked (hfw : firmwareRuns s = true) (hrep : s.sys.toReport = []) (ht : takePacket s = (u, some (src, p)))
    (hen : src = 65 ∨ (getCq (pktCq (p.words.getD 0 0)) u).cfg.en = true) :
    exec (.journalTake i) s = .next ((rejectStatus src p.words i u).elim
      (journalPacket src p (i.list.getD []) (fetchList p.words u)) fun st => rejectPacket src p.words st u) := by
  change execJournalTake i s = _
  have on : ¬ (src ≠ 65 ∧ (!(getCq (pktCq (p.words.getD 0 0)) u).cfg.en) = true) := by
    rintro ⟨hsrc, hoff⟩
    obtain h | h := hen
    · exact hsrc h
    · rw [h] at hoff; cases hoff
  simp only [execJournalTake, hfw, hrep, ht, if_neg on]
  cases rejectStatus src p.words i u <;> rfl

end

/-- A packet that is rejected gets a completion and no slot (R60). -/
theorem rejectPacket_leaves (src : Nat) (ws : List Word) (st : Nat) (s : State) :
    (rejectPacket src ws st s).jrn = s.jrn ∧ (rejectPacket src ws st s).device = s.device := by
  unfold rejectPacket
  dsimp only
  split
  · exact ⟨by rw [raise_jrn, postTo_jrn], by rw [raise_device, postTo_device]⟩
  · exact ⟨postTo_jrn .., postTo_device ..⟩

/-- A buffer list is fetched by a read of host memory. -/
theorem fetchList_onlyCommand (ws : List Word) (s : State) : OnlyCommand s (fetchList ws s) := by
  unfold fetchList
  split
  · obtain ⟨a, o, h⟩ := hostFetch_shape (ws.getD 2 0).toNat (16 * bits (ws.getD 3 0) 0 17) s
    rw [h]; exact ⟨_, _, _, _, rfl⟩
  · exact .refl s

/-- A packet with a slot changes the journal, and the pending area of a key. -/
theorem journalPacket_shape (src : Nat) (p : Packet) (l : List ListEntry) (s : State) :
    ∃ k, journalPacket src p l s = { s with
      cph := k
      jrn := { s.jrn with
        entries := s.jrn.entries ++ [{
          jsn := s.jrn.nextJsn, source := src, sqIndex := p.index, words := journalWords p.words
          reserved := decide (64 ≤ src) && decide (reservedSlots s < 256), slot := .writing }]
        nextJsn := s.jrn.nextJsn + 1, runs := s.jrn.runs ++ [newRun s.jrn.nextJsn l false] } } := by
  unfold journalPacket setSlot
  dsimp only
  split_ifs
  · exact ⟨_, rfl⟩
  · exact ⟨_, rfl⟩
  · exact ⟨_, rfl⟩

/-- Key material stands in the journal as zeros (06 R162). -/
theorem journalWords_key {ws : List Word} {k : Nat} (hop : pktOp (ws.getD 0 0) = opSetKey)
    (hk : if pktExpert (ws.getD 0 0) = false ∧ pktLen (ws.getD 0 0) = 6 then 2 ≤ k ∧ k ≤ 5 else 3 ≤ k ∧ k ≤ 10) :
    (journalWords ws).getD k 0 = 0 := by
  unfold journalWords
  dsimp only
  rw [if_neg (not_not.2 hop)]
  clear hop
  generalize ws.getD 0 0 = w0 at hk ⊢
  rw [List.getD_eq_getElem?_getD, List.getElem?_map, List.getElem?_zipIdx]
  cases ws[k]? with
  | none => rfl
  | some w =>
    simp only [Option.map_some, Option.getD_some, Nat.zero_add]
    by_cases hbasic : pktExpert w0 = false ∧ pktLen w0 = 6
    · rw [if_pos hbasic] at hk
      rw [if_pos (by simp [hbasic]), if_pos (by simp [hk])]
    · rw [if_neg hbasic] at hk
      rw [if_neg (by simpa using hbasic), if_pos (by simp [hk])]

/-- Settles O28: the packet that the order gives is journaled, rejected or dropped. -/
theorem journalTakeEntersPackets : Obligations.JournalTakeEntersPackets := by
  refine ⟨?_, fun ws k => journalWords_key, ?_, ?_, ?_⟩
  · intro i s u src p hfw hrep ht hen hok
    have taken := (takePacket_kept_blocks ht).trans (fetchList_onlyCommand p.words u)
    obtain ⟨k, shape⟩ := journalPacket_shape src p (i.list.getD []) (fetchList p.words u)
    obtain ⟨hctx, hfmt, hmem, hcart, hmram, hsys⟩ := taken.blocks
    have slots : reservedSlots (fetchList p.words u) = reservedSlots s := by simp only [reservedSlots, taken.jrn]
    have enters : exec (.journalTake i) s = .next (journalPacket src p (i.list.getD []) (fetchList p.words u)) := by
      rw [journalTake_checked hfw hrep ht hen, hok]; rfl
    refine ⟨_, enters.trans (congrArg Host.Outcome.next shape), ?_, ?_, ?_, rfl, hctx, hfmt, hmem, hcart, hmram, hsys⟩
    · change (fetchList p.words u).jrn.entries ++ _ = _
      rw [taken.jrn, slots]
    · change (fetchList p.words u).jrn.nextJsn + 1 = _
      rw [taken.jrn]
    · change (fetchList p.words u).jrn.retire = _
      rw [taken.jrn]
  · intro i s u src p st hfw hrep ht hen hbad
    have taken := takePacket_kept_blocks ht
    obtain ⟨hjrn, hdevice⟩ := rejectPacket_leaves src p.words st u
    exact ⟨_, (journalTake_checked hfw hrep ht hen).trans (by rw [hbad]; rfl), rfl, hjrn.trans taken.jrn, hdevice.trans taken.device⟩
  · intro i s u src p hfw hrep ht hsrc hoff
    have taken := (takePacket_kept_blocks ht).trans
      (.of_onlyEvents (raise_onlyEvents evCmdNoCq src (pktCid (p.words.getD 0 0)) u))
    exact ⟨_, journalTake_noCq hfw hrep ht hsrc hoff, rfl, taken.jrn, taken.device⟩
  · intro i s u hfw hrep ht
    have taken := takePacket_kept_blocks ht
    exact ⟨journalTake_none hfw hrep ht, taken.jrn, taken.device⟩

/-! ### The journal's slots -/

/-- The entry that is found is the one that a change reaches. -/
theorem findEntry_setEntry_same {jsn : Nat} {f : JournalEntry → JournalEntry} (hf : ∀ e, (f e).jsn = e.jsn) (s : State) :
    findEntry (setEntry jsn f s) jsn = (findEntry s jsn).map f := by
  have named : ∀ x : JournalEntry, ((if x.jsn = jsn then f x else x).jsn == jsn) = (x.jsn == jsn) := by
    intro x; split <;> simp [hf]
  change (s.jrn.entries.map fun x => if x.jsn = jsn then f x else x).find? (fun x => x.jsn == jsn) = _
  rw [List.find?_map, show ((fun x : JournalEntry => x.jsn == jsn) ∘ fun x => if x.jsn = jsn then f x else x)
    = fun x => x.jsn == jsn from funext named]
  change (findEntry s jsn).map _ = _
  cases he : findEntry s jsn with
  | none => rfl
  | some e => exact congrArg some (if_pos (findEntry_jsn he))

theorem findEntry_congr {s t : State} (h : t.jrn = s.jrn) (j : Nat) : findEntry t j = findEntry s j := by simp only [findEntry, h]

theorem findRun_congr {s t : State} (h : t.jrn = s.jrn) (j : Nat) : findRun t j = findRun s j := by simp only [findRun, h]

/-- A change of an entry takes none out and puts none in. -/
theorem setEntry_jsns {jsn : Nat} {f : JournalEntry → JournalEntry} (hf : ∀ e, (f e).jsn = e.jsn) (s : State) :
    (setEntry jsn f s).jrn.entries.map (·.jsn) = s.jrn.entries.map (·.jsn) := by
  change (s.jrn.entries.map fun x => if x.jsn = jsn then f x else x).map (·.jsn) = _
  rw [List.map_map]
  refine List.map_congr_left fun x _ => ?_
  simp only [Function.comp_apply]
  split
  · exact hf x
  · rfl

/-- Whether a command has an entry is said by the JSNs of the journal. -/
theorem findEntry_isSome (s : State) (j : Nat) : (findEntry s j).isSome = (s.jrn.entries.map (·.jsn)).contains j := by
  rw [Bool.eq_iff_iff]
  simp [findEntry, List.find?_isSome]

theorem findEntry_none_iff (s : State) (j : Nat) : findEntry s j = none ↔ j ∉ s.jrn.entries.map (·.jsn) := by
  have := findEntry_isSome s j
  cases h : findEntry s j <;> simp [h] at this ⊢
  · simpa using this
  · simpa using this

/-- The retire word of a command that ends is its own, and every entry stays. -/
theorem retireNow_frame (e : JournalEntry) (r : RunInfo) (st : Nat) (r0 r1 : Word) (s : State) :
    (retireNow e r st r0 r1 s).jrn.entries.map (·.jsn) = s.jrn.entries.map (·.jsn)
      ∧ ∀ w ∈ (retireNow e r st r0 r1 s).jrn.retire, w ∈ s.jrn.retire ∨ w.jsn = e.jsn := by
  have freed : ∀ u : State, (if e.source = 65 then beginFree e.jsn u else u).jrn.retire = u.jrn.retire
      ∧ (if e.source = 65 then beginFree e.jsn u else u).jrn.entries.map (·.jsn) = u.jrn.entries.map (·.jsn) := by
    intro u
    split
    · exact ⟨rfl, setEntry_jsns (f := fun e => { e with slot := .freeing }) (fun _ => rfl) u⟩
    · exact ⟨rfl, rfl⟩
  have reported : ∀ u : State, (reportFirst e u).jrn.entries = u.jrn.entries := by
    intro u
    unfold reportFirst
    split
    · exact (congrArg Journal.entries (postTo_jrn (entryCq e) (mkCpl e 1 0 0 0 false)
        { u with sys := { u.sys with toReport := u.sys.toReport.filter (· != e.jsn) } }) :)
    · rfl
  unfold retireNow
  dsimp only
  simp only [abortMissed_jrn, replayEnded_jrn, (freed _).1, (freed _).2, postTo_jrn, freePending_jrn, unpin_jrn, reportFirst_retire,
    reported]
  refine ⟨trivial, fun w hw => ?_⟩
  obtain h | h := List.mem_append.1 hw
  · exact .inl h
  · exact .inr (by rw [List.mem_singleton.1 h])

/-- Commands that waited for a retire word write their own. -/
theorem retireWaiting_frame (l : List Nat) (s : State) :
    (retireWaiting l s).jrn.entries.map (·.jsn) = s.jrn.entries.map (·.jsn)
      ∧ (retireWaiting l s).device = s.device ∧ ∀ w ∈ (retireWaiting l s).jrn.retire, w ∈ s.jrn.retire ∨ w.jsn ∈ l := by
  induction l generalizing s with
  | nil => exact ⟨rfl, rfl, fun w hw => .inl hw⟩
  | cons j l ih =>
    have later (u : State) (w : RetireWord) (h : w ∈ u.jrn.retire ∨ w.jsn ∈ l) : w ∈ u.jrn.retire ∨ w.jsn ∈ j :: l :=
      h.imp id (List.mem_cons_of_mem _)
    have skip : (retireWaiting l s).jrn.entries.map (·.jsn) = s.jrn.entries.map (·.jsn)
        ∧ (retireWaiting l s).device = s.device ∧ ∀ w ∈ (retireWaiting l s).jrn.retire, w ∈ s.jrn.retire ∨ w.jsn ∈ j :: l := by
      obtain ⟨entries, device, retire⟩ := ih s
      exact ⟨entries, device, fun w hw => later s w (retire w hw)⟩
    unfold retireWaiting
    split
    · next e r he hr =>
      split
      · next st r0 r1 _ _ =>
        split
        · obtain ⟨entries, device, retire⟩ := ih (retireNow e r st r0 r1 s)
          obtain ⟨entries', retire'⟩ := retireNow_frame e r st r0 r1 s
          refine ⟨entries.trans entries', device.trans (retireNow_device ..), fun w hw => ?_⟩
          obtain h | h := retire w hw
          · exact (retire' w h).imp id fun own => by rw [own, findEntry_jsn he]; exact List.mem_cons_self
          · exact .inr (List.mem_cons_of_mem _ h)
        · exact ⟨rfl, rfl, fun w hw => .inl hw⟩
      · exact skip
    · exact skip

/-- What an acceptance says of the run. -/
theorem setRun_runs {jsn : Nat} {f : RunInfo → RunInfo} (hf : ∀ r, (f r).jsn = r.jsn) (s : State) :
    findRun (setRun jsn f s) jsn = (findRun s jsn).map f := by
  have named : ∀ x : RunInfo, ((if x.jsn = jsn then f x else x).jsn == jsn) = (x.jsn == jsn) := by
    intro x; split <;> simp [hf]
  change (s.jrn.runs.map fun x => if x.jsn = jsn then f x else x).find? (fun x => x.jsn == jsn) = _
  rw [List.find?_map, show ((fun x : RunInfo => x.jsn == jsn) ∘ fun x => if x.jsn = jsn then f x else x)
    = fun x => x.jsn == jsn from funext named]
  change (findRun s jsn).map _ = _
  cases hr : findRun s jsn with
  | none => rfl
  | some r => exact congrArg some (if_pos (by simpa using List.find?_some hr))

/-- The acceptance of a durable entry, before the events that go with it. -/
def accept (jsn : Nat) (e : JournalEntry) (s : State) : State :=
  let u := postAccepted e (setEntry jsn (fun e => { e with slot := .valid }) s)
  if entryOp e = opMeterStatement then setRun jsn (fun r => { r with done := s.mram.nextTsn - 1 }) u else u

/-- What the acceptance leaves of the journal, and of the device. -/
theorem accept_leaves {jsn : Nat} {e : JournalEntry} {s : State} (he : findEntry s jsn = some e) :
    findEntry (accept jsn e s) jsn = some { e with slot := .valid } ∧ (∀ r, findRun (accept jsn e s) jsn = some r → r.announced = true)
      ∧ (findRun (accept jsn e s) jsn).isSome = (findRun s jsn).isSome ∧ (accept jsn e s).jrn.retire = s.jrn.retire
      ∧ (accept jsn e s).device = s.device := by
  have own := findEntry_jsn he
  subst own
  let v := setEntry e.jsn (fun e => { e with slot := .valid }) s
  let u := postTo (entryCq e) (mkCpl e 1 0 0 0 false) v
  have journal : u.jrn = v.jrn := postTo_jrn ..
  have device : u.device = s.device := postTo_device (entryCq e) (mkCpl e 1 0 0 0 false) v
  have entry : findEntry u e.jsn = some { e with slot := .valid } := by
    have valid := findEntry_setEntry_same (jsn := e.jsn) (f := fun e => { e with slot := .valid }) (fun _ => rfl) s
    rw [he] at valid
    exact (findEntry_congr journal e.jsn).trans valid
  have run : findRun u e.jsn = findRun s e.jsn := findRun_congr journal e.jsn
  have announced := setRun_runs (jsn := e.jsn) (f := fun r => { r with announced := true }) (fun _ => rfl) u
  have retire : u.jrn.retire = s.jrn.retire := (congrArg Journal.retire journal :)
  unfold accept
  dsimp only
  split
  · have numbered := setRun_runs (jsn := e.jsn) (f := fun r => { r with done := s.mram.nextTsn - 1 }) (fun _ => rfl)
      (setRun e.jsn (fun r => { r with announced := true }) u)
    refine ⟨entry, fun r hr => ?_, ?_, retire, device⟩
    · have both := numbered.symm.trans hr
      rw [announced] at both
      cases h : findRun u e.jsn <;> rw [h] at both <;> cases both
      rfl
    · refine (congrArg Option.isSome numbered).trans ?_
      rw [announced, run, Option.isSome_map, Option.isSome_map]
  · refine ⟨entry, fun r hr => ?_, ?_, retire, device⟩
    · have both := announced.symm.trans hr
      cases h : findRun u e.jsn <;> rw [h] at both <;> cases both
      rfl
    · refine (congrArg Option.isSome announced).trans ?_
      rw [run, Option.isSome_map]

/-- An entry whose writes are durable is valid. -/
theorem journalEntryDurable_accepts {jsn : Nat} {s : State} {e : JournalEntry} (he : findEntry s jsn = some e) (hw : e.slot = .writing) :
    ∃ t, exec (.journalEntryDurable jsn) s = .next t ∧ OnlyEvents (accept jsn e s) t := by
  have runs : exec (.journalEntryDurable jsn) s = .next (if e.source = 65 then
      raise evMgtPacketJournaled jsn (entryOp e + (if entryOp e = opDiag then diagFunction e.words else 0) * 256) (accept jsn e s)
      else accept jsn e s) := by
    change execJournalEntryDurable jsn s = _
    have mram : (postAccepted e (setEntry jsn (fun e => { e with slot := .valid }) s)).mram = s.mram :=
      device_mram (postTo_device (entryCq e) (mkCpl e 1 0 0 0 false) (setEntry jsn (fun e => { e with slot := .valid }) s))
    simp only [execJournalEntryDurable, he, if_neg (not_not.2 hw), accept, mram]
  refine ⟨_, runs, ?_⟩
  split
  · exact raise_onlyEvents ..
  · exact .refl _

/-- The journal without a slot and its retire words. -/
def slotFreed (jsn : Nat) (e : JournalEntry) (s : State) : State :=
  { s with
    jrn := { s.jrn with entries := s.jrn.entries.filter (·.jsn != jsn), retire := s.jrn.retire.filter (·.jsn != jsn) }
    cmd := { s.cmd with fullRing := s.cmd.fullRing && e.reserved, fullRes := false } }

/-- A slot that is freed leaves the journal. -/
theorem journalSlotFreed_leaves {jsn : Nat} {s : State} {e : JournalEntry} (he : findEntry s jsn = some e) (hf : e.slot = .freeing) :
    ∃ t, exec (.journalSlotFreed jsn) s = .next t ∧ findEntry t jsn = none ∧ (∀ w ∈ t.jrn.retire, w.jsn ≠ jsn)
      ∧ (∀ j, j ≠ jsn → (findEntry t j).isSome = (findEntry s j).isSome) ∧ t.device = s.device := by
  let u := slotFreed jsn e s
  obtain ⟨entries, device, retire⟩ := retireWaiting_frame (u.jrn.entries.map (·.jsn)) u
  have jsns : u.jrn.entries.map (·.jsn) = (s.jrn.entries.map (·.jsn)).filter (· != jsn) := by
    simp only [u, slotFreed, List.filter_map]
    rfl
  have gone : jsn ∉ u.jrn.entries.map (·.jsn) := by rw [jsns]; simp
  refine ⟨retireWaiting (u.jrn.entries.map (·.jsn)) u, ?_, ?_, fun w hw => ?_, fun j hj => ?_, device⟩
  · change execJournalSlotFreed jsn s = _
    simp only [execJournalSlotFreed, he, if_neg (not_not.2 hf)]
    rfl
  · rw [findEntry_none_iff, entries]; exact gone
  · obtain h | h := retire w hw
    · simpa using (List.mem_filter.1 h).2
    · exact fun own => gone (own ▸ h)
  · rw [findEntry_isSome, findEntry_isSome, entries, jsns, Bool.eq_iff_iff]
    simp [hj]

/-- Settles O29: a durable entry is accepted, a slot being freed leaves. -/
theorem journalSlotsFollowMram : Obligations.JournalSlotsFollowMram := by
  refine ⟨fun jsn s e he hw => ?_, fun jsn s e => journalSlotFreed_leaves, fun jsn s hvalid => ?_⟩
  · obtain ⟨t, ht, events⟩ := journalEntryDurable_accepts he hw
    obtain ⟨entry, announced, run, retire, device⟩ := accept_leaves he
    refine ⟨t, ht, ?_, ?_, ?_, ?_, events.device.trans device⟩
    · rw [findEntry, events.jrn]; exact entry
    · rw [findRun, events.jrn]; exact announced
    · rw [findRun, events.jrn]; exact run
    · rw [events.jrn]; exact retire
  · change execJournalEntryDurable jsn s = _ ∧ execJournalSlotFreed jsn s = _
    cases he : findEntry s jsn with
    | none => exact ⟨by simp only [execJournalEntryDurable, he], by simp only [execJournalSlotFreed, he]⟩
    | some e =>
      have valid := hvalid e he
      exact ⟨by simp [execJournalEntryDurable, he, valid], by simp [execJournalSlotFreed, he, valid]⟩

end Sys2Proof.Proofs
end

section
/-! PROOFS. Aborts and the messages of the management port (03 R77-R79, 17 R445, R446, 18 Table 18-4). -/

namespace Sys2Proof.Proofs

open Sys2Proof.Machine Sys2Proof.Safety Sys2Proof.Laws

/-! ### The answer of a recorded abort stays -/

theorem OnlyRings.abortResult {s t : State} (h : OnlyRings s t) : t.cmd.abortResult = s.cmd.abortResult := by
  obtain ⟨_, _, _, _, _, _, _, _, rfl, -⟩ := h; rfl

theorem OnlyEvents.abortResult {s t : State} (h : OnlyEvents s t) : t.cmd.abortResult = s.cmd.abortResult :=
  (OnlyRings.of_onlyEvents h).abortResult

theorem postTo_abortResult (ring : Nat) (c : Completion) (s : State) : (postTo ring c s).cmd.abortResult = s.cmd.abortResult := by
  unfold postTo
  split_ifs
  · rfl
  · rfl
  · exact (cplPost_onlyRings ring c s).abortResult

theorem freePending_cmd (e : JournalEntry) (s : State) : (freePending e s).cmd = s.cmd := by
  unfold freePending setSlot
  dsimp only
  split_ifs <;> rfl

theorem replayEnded_abortResult (b : Bool) (s : State) : (replayEnded b s).cmd.abortResult = s.cmd.abortResult := by
  unfold replayEnded
  dsimp only
  split_ifs
  · rfl
  · unfold replayDone endPhase
    split
    · exact (raiseN_onlyEvents ..).abortResult
    · exact (raiseN_onlyEvents ..).abortResult
  · rfl

theorem reportFirst_abortResult (e : JournalEntry) (s : State) : (reportFirst e s).cmd.abortResult = s.cmd.abortResult := by
  unfold reportFirst
  split
  · exact postTo_abortResult (entryCq e) _ _
  · rfl

/-- Only a pending abort is missed. -/
theorem abortMissed_recorded {jsn : Nat} {s : State} (h : s.cmd.abortResult = 2) : abortMissed jsn s = s :=
  if_neg fun c => by rw [h] at c; exact absurd c.1 (by decide)

/-- An abort that is recorded stays so over the end of its command. -/
theorem retireNow_abortResult {e : JournalEntry} {r : RunInfo} {st : Nat} {r0 r1 : Word} {s : State} (h : s.cmd.abortResult = 2) :
    (retireNow e r st r0 r1 s).cmd.abortResult = 2 := by
  have freed : ∀ u : State, (if e.source = 65 then beginFree e.jsn u else u).cmd = u.cmd := by
    intro u; split <;> rfl
  unfold retireNow
  dsimp only
  rw [abortMissed_recorded] <;> rw [replayEnded_abortResult, freed, postTo_abortResult, freePending_cmd] <;>
    exact (reportFirst_abortResult e _).trans h

theorem endWith_abortResult {jsn st r0 r1 : Nat} {s : State} (h : s.cmd.abortResult = 2) :
    (endWith jsn st r0 r1 s).cmd.abortResult = 2 := by
  unfold endWith endCommand
  split
  · dsimp only
    split_ifs
    · exact retireNow_abortResult h
    · exact retireNow_abortResult h
    · exact h
    · exact h
  · exact h

theorem endEarly_abortResult {e : JournalEntry} {st : Nat} {s : State} (h : s.cmd.abortResult = 2) :
    (endEarly e st s).cmd.abortResult = 2 := by
  unfold endEarly
  dsimp only
  split_ifs
  · exact endWith_abortResult ((raise_onlyEvents ..).abortResult.trans h)
  all_goals exact endWith_abortResult h

/-! ### Aborts -/

/-- A command that has not begun ends with the status that it is given. -/
theorem abortWaiting_ends {jsn : Nat} {e : JournalEntry} {r : RunInfo} {u : State} (h : Held jsn e r u) :
    Ends jsn stAbortedByHost u (abortWaiting e u) := by
  have named := h.jsn_eq
  subst named
  unfold abortWaiting
  split
  · exact endsR0_ends (h.endR0_fail (by decide))
  · cases hw : isWriteLike e with
    | false => exact endEarly_fail h hw (by decide)
    | true =>
      rw [endEarly, if_pos hw]
      exact endsR0_ends (endWrite_fail h (by decide))

theorem abortable_found {jsn : Nat} {s : State} {e : JournalEntry} {r : RunInfo} (h : abortable jsn s = some (e, r)) :
    findEntry s jsn = some e ∧ findRun s jsn = some r := by
  unfold abortable at h
  split at h
  · next he hr =>
    split at h
    · cases h; exact ⟨he, hr⟩
    · cases h
  · cases h

/-- The abort record of a command. -/
def abortWord (jsn : Nat) : RetireWord := { jsn := jsn, state := 1, status := stAbortedByHost, result0 := 0, result1 := 0 }

/-- The state in which an abort has been recorded. -/
def abortWritten (jsn : Nat) (s : State) : State :=
  setAbort 2 { s with jrn := { s.jrn with retire := s.jrn.retire ++ [abortWord jsn] } }

/-- A retire word stays over the end of a command. -/
theorem retireNow_keeps_retire {e : JournalEntry} {r : RunInfo} {st : Nat} {r0 r1 : Word} {s : State} {w : RetireWord}
    (hw : w ∈ s.jrn.retire) : w ∈ (retireNow e r st r0 r1 s).jrn.retire := by
  have freed : ∀ u : State, (if e.source = 65 then beginFree e.jsn u else u).jrn.retire = u.jrn.retire := by
    intro u; split <;> rfl
  unfold retireNow
  dsimp only
  simp only [abortMissed_jrn, replayEnded_jrn, freed, postTo_jrn, freePending_jrn, unpin_jrn, reportFirst_retire]
  exact List.mem_append_left _ hw

theorem endWith_keeps_retire {jsn st r0 r1 : Nat} {s : State} {w : RetireWord} (hw : w ∈ s.jrn.retire) :
    w ∈ (endWith jsn st r0 r1 s).jrn.retire := by
  unfold endWith endCommand
  split
  · dsimp only
    split_ifs
    · exact retireNow_keeps_retire hw
    · exact retireNow_keeps_retire hw
    · exact hw
    · exact hw
  · exact hw

theorem abortWaiting_keeps_retire {e : JournalEntry} {s : State} {w : RetireWord} (hw : w ∈ s.jrn.retire) :
    w ∈ (abortWaiting e s).jrn.retire := by
  unfold abortWaiting endEarly
  dsimp only
  split_ifs
  · exact endWith_keeps_retire hw
  · exact endWith_keeps_retire (by rw [raise_jrn]; exact hw)
  all_goals exact endWith_keeps_retire hw

/-- Settles O30: the record precedes the end. -/
theorem abortIsRecordedFirst : Obligations.AbortIsRecordedFirst := by
  refine ⟨fun jsn s hp => ?_, fun jsn s hopen hp => ?_, fun s e r hp hab hph hroom hwords => ?_, fun s hp hnone => ?_⟩
  · change execCmdAbortWrite jsn s = _
    simp only [execCmdAbortWrite, if_pos hp, onMmio, ite_self]
  · change execCmdAbortWrite jsn s = _
    rw [execCmdAbortWrite, onMmio_of_open hopen, if_neg hp]
    rfl
  · obtain ⟨he, hr⟩ := abortable_found hab
    have own := findEntry_jsn he
    have held : Held s.cmd.abortJsn e r (abortWritten s.cmd.abortJsn s) := by
      refine ⟨he, hr, ?_⟩
      simp only [retireFree, abortWritten, setAbort, List.length_append, List.length_singleton, decide_eq_true_eq]
      omega
    obtain ⟨retired, gone, device, -⟩ := abortWaiting_ends held
    have free : ¬ (!retireFree s || decide (8192 ≤ abortWords s)) = true := by
      have room : s.jrn.retire.length < 16384 := by omega
      replace hwords : abortWords s < 8192 := hwords
      simp [retireFree, room, hwords]
    refine ⟨abortWaiting e (abortWritten s.cmd.abortJsn s), ?_, ?_, ⟨abortWord s.cmd.abortJsn, ?_, rfl, rfl⟩, retired, gone, device⟩
    · change execAbortRecorded s = _
      simp only [execAbortRecorded, if_neg (not_not.2 hp), hab, if_neg free]
      simp only [abortNow, hph, own]
      rfl
    · unfold abortWaiting
      split
      · exact endWith_abortResult rfl
      · exact endEarly_abortResult rfl
    · exact abortWaiting_keeps_retire (List.mem_append_right _ List.mem_cons_self)
  · change execAbortRecorded s = _
    simp only [execAbortRecorded, if_neg (not_not.2 hp), hnone]
    rfl

/-! ### The management port -/

theorem mgtDrop_shape (ty code : Nat) (s : State) :
    OnlyEvents { s with mgt := { s.mgt with dropped := sat64 s.mgt.dropped 1 } } (mgtDrop ty code s) := raise_onlyEvents ..

theorem OnlyEvents.mgt {s t : State} (h : OnlyEvents s t) : t.mgt = s.mgt := by
  obtain ⟨_, _, _, _, _, _, rfl, -⟩ := h; rfl

/-- Settles O31: each message as its row says. -/
theorem managementPortMessages : Obligations.ManagementPortMessages := by
  refine ⟨?_, ?_, ?_, ?_, ?_, ?_, ?_, ?_⟩
  · intro words s hw
    obtain ⟨p, hp⟩ := wakeNow_shape
      { mgtArrive s with cmd := { s.cmd with mgtQueue := s.cmd.mgtQueue ++ [words.take 16] } }
    have runs : exec (.managementPacket words) s
        = .next (wakeNow { mgtArrive s with cmd := { s.cmd with mgtQueue := s.cmd.mgtQueue ++ [words.take 16] } }) := by
      change execManagementPacket words s = _
      have some_words : ¬ words.isEmpty = true := by simpa using hw
      rw [execManagementPacket]
      dsimp only
      rw [if_neg some_words]
      rfl
    exact ⟨_, runs.trans (congrArg Host.Outcome.next hp), rfl, rfl, rfl, rfl, rfl⟩
  · intro s
    have dropped := mgtDrop_shape 0x7E 0x10 (mgtArrive s)
    obtain ⟨_, _, cmd⟩ := dropped.cmd
    exact ⟨mgtDrop 0x7E 0x10 (mgtArrive s), rfl, rfl, by rw [cmd]; rfl, by rw [dropped.mgt]; rfl⟩
  · intro u st s same
    change execUnitReport u st s = _
    exact congrArg Host.Outcome.next (if_pos same)
  · intro u st s differs
    have raised := raise_onlyEvents evUnitStateConflict u (unitState u s + st % 4 * 4) (mgtArrive s)
    exact ⟨_, congrArg Host.Outcome.next (if_neg differs), rfl, raised.sys⟩
  · intro eid addr s
    have raised := raise_onlyEvents evMgtEidAssigned eid addr
      { mgtArrive s with mgt := { (mgtArrive s).mgt with eid := some eid, dynAddr := some addr } }
    exact ⟨raise .., rfl, by rw [raised.mgt], by rw [raised.mgt], raised.jrn, raised.device⟩
  · intro ty msg s hup h5 h6
    have dropped := mgtDrop_shape ty (byteAt msg 0) (mgtArrive s)
    refine ⟨mgtDrop ty (byteAt msg 0) (mgtArrive s), ?_, by rw [dropped.mgt]; rfl, dropped.device⟩
    change execMctpSpdmRequest ty msg s = _
    simp [execMctpSpdmRequest, hup, h5, h6]
  · intro ty msg s hup hty hav
    have spdm : ¬ (ty ≠ 5 ∧ ty ≠ 6) := by omega
    have away : (mgtArrive s).wh.avail ≠ 1 := hav
    refine ⟨_, ?_, rfl, rfl⟩
    change execMctpSpdmRequest ty msg s = _
    simp only [execMctpSpdmRequest, hup, if_neg spdm, if_pos away]
    rfl
  · intro ty msg s hup hty hav
    have spdm : ¬ (ty ≠ 5 ∧ ty ≠ 6) := by omega
    have there : ¬ (mgtArrive s).wh.avail ≠ 1 := not_not.2 hav
    refine ⟨_, ?_, rfl⟩
    change execMctpSpdmRequest ty msg s = _
    simp only [execMctpSpdmRequest, hup, if_neg spdm, if_neg there]
    rfl

end Sys2Proof.Proofs
end

section
/-! PROOFS. Tally frames (16 R411-R413), the mailbox (R417-R424) and SPDM (R425-R427). -/

namespace Sys2Proof.Proofs

open Sys2Proof.Machine Sys2Proof.Safety Sys2Proof.Laws

variable {s : State}

/-! ### Meters -/

/-- The meter of an entry's tenant takes its bytes. -/
theorem meterEntry_same (tsn : Nat) (m : Table Meter) (e : Nat × Nat) :
    (tabGet .zero (meterEntry tsn m e) e.1).count = ((tabGet .zero m e.1).count + e.2) % 2 ^ 96 := by
  rw [meterEntry, tabUpd, tabGet_tabSet]

theorem meterEntry_other (tsn : Nat) (m : Table Meter) {e : Nat × Nat} {x : Nat} (h : x ≠ e.1) :
    tabGet .zero (meterEntry tsn m e) x = tabGet .zero m x := by
  rw [meterEntry, tabUpd, tabGet_tabSet_ne _ _ _ h]

/-- The meter of a tenant that a frame does not name stays. -/
theorem meterEntries_other (tsn : Nat) (l : List (Nat × Nat)) (m : Table Meter) {x : Nat} (h : x ∉ l.map (·.1)) :
    tabGet .zero (l.foldl (meterEntry tsn) m) x = tabGet .zero m x := by
  induction l generalizing m with
  | nil => rfl
  | cons e l ih =>
    simp only [List.map_cons, List.mem_cons, not_or] at h
    rw [List.foldl_cons, ih _ h.2, meterEntry_other tsn m h.1]

/-- A frame with distinct tenants is added tenant by tenant. -/
theorem meterEntries_own (tsn : Nat) (l : List (Nat × Nat)) (m : Table Meter) (h : (l.map (·.1)).Nodup) :
    ∀ e ∈ l, (tabGet .zero (l.foldl (meterEntry tsn) m) e.1).count = ((tabGet .zero m e.1).count + e.2) % 2 ^ 96 := by
  induction l generalizing m with
  | nil => intro e he; cases he
  | cons a l ih =>
    obtain ⟨fresh, rest⟩ := List.nodup_cons.1 h
    intro e he
    rw [List.foldl_cons]
    obtain rfl | later := List.mem_cons.1 he
    · rw [meterEntries_other tsn l _ fresh, meterEntry_same]
    · have other : e.1 ≠ a.1 := fun same => fresh (List.mem_map.2 ⟨e, later, same⟩)
      rw [ih _ rest e later, meterEntry_other tsn m other]

/-! ### Tally frames -/

/-- A queue with room, or without it, is noted; nothing of the Weighhouse and nothing of the link changes. -/
theorem noteBlocked_parts (s : State) : (noteBlocked s).whd = s.whd ∧ (noteBlocked s).wh.link = s.wh.link
    ∧ (noteBlocked s).wh.lastTsn = s.wh.lastTsn ∧ (noteBlocked s).mram = s.mram := by
  unfold noteBlocked
  split_ifs
  · exact ⟨rfl, rfl, rfl, rfl⟩
  · exact ⟨rfl, rfl, rfl, rfl⟩
  · have raised := raiseP_onlyEvents evWhFormBlocked s.mram.tallies.length
      { s with wh := { s.wh with blocked := true, blockedAt := some s.aon.time } }
    obtain ⟨_, _, _, _, _, _, shape, -⟩ := raised
    rw [shape]
    exact ⟨rfl, rfl, rfl, rfl⟩

/-- The published LAST_TSN, as the formatter die holds it. -/
def tsnTaken (n : Nat) (s : State) : State :=
  { s with
    wh := { s.wh with lastTsn := n, lastRise := if s.wh.lastTsn < n then s.aon.time else s.wh.lastRise }
    mram := { s.mram with tallies := s.mram.tallies.filter fun f => n < f.tsn } }

theorem takeTsn_eq (n : Nat) (s : State) : takeTsn n s = if !dieUp s then s else noteBlocked (tsnTaken n s) := rfl

theorem takeTsn_parts (n : Nat) (s : State) : (takeTsn n s).whd = s.whd ∧ (takeTsn n s).wh.link = s.wh.link := by
  rw [takeTsn_eq]
  split
  · exact ⟨rfl, rfl⟩
  · obtain ⟨whd, link, -, -⟩ := noteBlocked_parts (tsnTaken n s)
    exact ⟨whd, link⟩

theorem stateWord_congr {s t : State} (h : t.whd = s.whd) : stateWord t = stateWord s := by simp only [stateWord, h]

/-- A frame that has come over the link reaches a Weighhouse that serves. -/
theorem tallyFrameReceive_takes {bytes : List Byte} (hs : whServes s = true) (hin : s.wh.link = [] → frameCrcOk bytes = false) :
    exec (.tallyFrameReceive bytes) s = .next (receiveFrame bytes { s with wh := { s.wh with link := s.wh.link.tail } }) := by
  have arrives : ¬ (s.wh.link.isEmpty && frameCrcOk bytes) = true := by
    simp only [Bool.and_eq_true, List.isEmpty_iff, not_and, Bool.not_eq_true]
    exact hin
  change execTallyFrameReceive bytes s = _
  rw [execTallyFrameReceive, if_neg arrives]
  exact congrArg Host.Outcome.next (if_pos hs)

/-- Settles O32: CRC, order and fields decide what a frame does. -/
theorem tallyFramesMeteredOnceInOrder : Obligations.TallyFramesMeteredOnceInOrder := by
  refine ⟨?_, ?_, ?_, ?_⟩
  · intro bytes s hs hlink hcrc hfields htsn
    have distinct : ((parseFrame bytes).entries.map (·.1)).Nodup := by
      simp only [frameFieldsOk, Bool.and_eq_true, decide_eq_true_eq] at hfields
      exact hfields.2
    refine ⟨commitFrame (parseFrame bytes) { s with wh := { s.wh with link := s.wh.link.tail } }, ?_, ?_⟩
    · rw [tallyFrameReceive_takes hs fun h => absurd h hlink]
      have last : stateWord { s with wh := { s.wh with link := s.wh.link.tail } } = stateWord s := rfl
      rw [receiveFrame]
      dsimp only
      rw [hcrc, last, if_neg (by decide), if_neg (by omega), if_neg (by omega), if_pos hfields]
    · generalize hu : ({ s with
          wh := { s.wh with link := s.wh.link.tail }
          whd := { s.whd with
            meters := (parseFrame bytes).entries.foldl (meterEntry (parseFrame bytes).tsn) s.whd.meters } } : State) = u
      generalize hf : (fun w : StateWord => { w with
        lastTsn := (parseFrame bytes).tsn, datasets := w.datasets + boolNat (parseFrame bytes).last
        lost := w.lost + boolNat (parseFrame bytes).bad }) = f
      have commits : commitFrame (parseFrame bytes) { s with wh := { s.wh with link := s.wh.link.tail } }
          = takeTsn (parseFrame bytes).tsn (putStateWord f u) := by rw [← hu, ← hf]; rfl
      obtain ⟨taken, link⟩ := takeTsn_parts (parseFrame bytes).tsn (putStateWord f u)
      obtain ⟨a, b, shape⟩ := putStateWord_shape f u
      have meters : (commitFrame (parseFrame bytes) { s with wh := { s.wh with link := s.wh.link.tail } }).whd.meters
          = (parseFrame bytes).entries.foldl (meterEntry (parseFrame bytes).tsn) s.whd.meters := by
        rw [commits, taken, putStateWord_meters, ← hu]
      have word : stateWord (commitFrame (parseFrame bytes) { s with wh := { s.wh with link := s.wh.link.tail } })
          = { f (stateWord u) with seqNo := (stateWord u).seqNo + 1 } := by
        rw [commits, stateWord_congr taken, stateWord_putStateWord]
      refine ⟨?_, ?_, ?_, ?_, ?_, ?_⟩
      · rw [meters]; exact meterEntries_own _ _ _ distinct
      · intro x hx; rw [meters]; exact meterEntries_other _ _ _ hx
      · rw [word, ← hf]; exact htsn
      · rw [word, ← hf, ← hu]; rfl
      · rw [commits, taken, shape, ← hu]
      · rw [commits, link, shape, ← hu]
  · intro bytes s hs hlink hcrc htsn
    rw [tallyFrameReceive_takes hs fun h => absurd h hlink]
    have last : stateWord { s with wh := { s.wh with link := s.wh.link.tail } } = stateWord s := rfl
    rw [receiveFrame]
    dsimp only
    rw [hcrc, last, if_neg (by decide), if_pos htsn]
    rfl
  · intro bytes s hs hlink hcrc htsn
    rw [tallyFrameReceive_takes hs fun h => absurd h hlink]
    have last : stateWord { s with wh := { s.wh with link := s.wh.link.tail } } = stateWord s := rfl
    rw [receiveFrame]
    dsimp only
    rw [hcrc, last, if_neg (by decide), if_neg (by omega), if_pos htsn]
    rfl
  · intro bytes s hs hcrc
    rw [tallyFrameReceive_takes hs fun _ => hcrc, receiveFrame]
    dsimp only
    rw [hcrc, if_pos (by decide)]
    rfl

/-! ### The mailbox -/

/-- A message out of turn is refused. -/
theorem mbServe_refuses {ok : Bool} (h : whServes s = true) (hok : ok = false) (type : Nat) (k : State → State) :
    mbServe type ok k s = raiseP evWhMbRefused type s := by
  simp only [whServes, Bool.and_eq_true, beq_iff_eq] at h
  simp [mbServe, h.1, h.2, hok, mbRefused]

/-- A Weighhouse without power or in FAULT answers nothing. -/
theorem mbServe_silent {ok : Bool} (h : s.whd.powered = false ∨ s.whd.lifecycle = 2) (type : Nat) (k : State → State) :
    mbServe type ok k s = s :=
  if_pos (by simpa using h)

/-- What an event leaves of the Weighhouse and its mailbox. -/
theorem OnlyEvents.whd {s t : State} (h : OnlyEvents s t) : t.whd = s.whd := device_whd h.device

theorem OnlyEvents.wh {s t : State} (h : OnlyEvents s t) : t.wh = s.wh := by
  obtain ⟨_, _, _, _, _, _, rfl, -⟩ := h; rfl

/-- The entry of the boot is the newest, and has not ended. -/
theorem currentEntry_some {e : LedgerEntry} (h : currentEntry s = some e) :
    ∃ rest, s.whd.ledger = e :: rest ∧ entryOpen e = true := by
  unfold currentEntry at h
  cases hl : s.whd.ledger with
  | nil => rw [hl] at h; cases h
  | cons a rest =>
    rw [hl] at h
    obtain ⟨own, isOpen⟩ := (Option.filter_eq_some_iff.1 h :)
    cases own
    exact ⟨rest, rfl, isOpen⟩

/-- The entry of the boot with a change. -/
def withCurrent (f : LedgerEntry → LedgerEntry) (s : State) : State :=
  { s with whd := { s.whd with ledger := (s.whd.ledger.head?.map f).toList ++ s.whd.ledger.tail } }

theorem modCurrent_changes {e : LedgerEntry} (h : currentEntry s = some e) (f : LedgerEntry → LedgerEntry) :
    modCurrent f s = withCurrent f s := by
  obtain ⟨rest, ledger, isOpen⟩ := currentEntry_some h
  simp only [modCurrent, withCurrent, ledger, isOpen, if_true]
  rfl

theorem withCurrent_current {e : LedgerEntry} (h : currentEntry s = some e) {f : LedgerEntry → LedgerEntry}
    (hf : entryOpen (f e) = true) : currentEntry (withCurrent f s) = some (f e) := by
  obtain ⟨rest, ledger, -⟩ := currentEntry_some h
  simp [currentEntry, withCurrent, ledger, hf]

theorem withCurrent_tail (f : LedgerEntry → LedgerEntry) (s : State) : (withCurrent f s).whd.ledger.tail = s.whd.ledger.tail := by
  cases h : s.whd.ledger <;> simp [withCurrent, h]

/-- An EXTEND in its turn. -/
theorem extendOk_iff {stage : Nat} {e : LedgerEntry} (h : currentEntry s = some e) :
    extendOk stage s = true ↔ e.state = 0 ∧ stage = e.stages.length ∧ stage < 4 ∧ s.wh.romPhase = decide (stage ≤ 1) := by
  simp only [extendOk, h, Bool.and_eq_true, beq_iff_eq, decide_eq_true_eq, and_assoc]
  refine and_congr_right fun _ => and_congr_right fun _ => and_congr_right fun _ => ?_
  by_cases early : stage ≤ 1
  · simp [early]
  · simp [early]

/-- An EXTEND in its turn appends its digest. -/
theorem extend_appends {stage : Nat} {digest : List Byte} {e : LedgerEntry} (hs : whServes s = true) (he : currentEntry s = some e)
    (hok : extendOk stage s = true) :
    exec (.extend stage digest) s = .next (withCurrent (fun e => { e with stages := e.stages ++ [padTo 48 digest] }) s) := by
  change Host.Outcome.next (doExtend stage digest s) = _
  rw [doExtend, mbServe_serves hs hok, modCurrent_changes he]

/-- The state after a CLOSE. -/
def closedEntry (e : LedgerEntry) (s : State) : State :=
  let u := withCurrent (fun e => { e with state := 1, timeClose := whTime s }) s
  let u := { u with whd := { u.whd with released := some e.epoch } }
  if dieUp s then { u with wh := { s.wh with epochValid := true, epoch := e.epoch } } else u

/-- A CLOSE with all four digests makes the entry RUNNING and releases its epoch. -/
theorem close_releases {e : LedgerEntry} (hs : whServes s = true) (he : currentEntry s = some e) (hstate : e.state = 0)
    (hstages : e.stages.length = 4) (hepoch : e.epoch ≠ 0xFFFFFFFF) : exec .close s = .next (closedEntry e s) := by
  have ok : ((currentEntry s).any fun e => e.state == 0 && e.stages.length == 4) = true := by
    rw [he]; simp [hstate, hstages]
  have current := withCurrent_current he (f := fun e => { e with state := 1, timeClose := whTime s }) rfl
  change Host.Outcome.next (doClose s) = _
  rw [doClose, mbServe_serves hs ok, closeEntry, modCurrent_changes he]
  dsimp only
  rw [current]
  dsimp only
  rw [if_neg hepoch]
  rfl

theorem closedEntry_leaves {e : LedgerEntry} (he : currentEntry s = some e) :
    currentEntry (closedEntry e s) = some { e with state := 1, timeClose := whTime s }
      ∧ (closedEntry e s).whd.released = some e.epoch
      ∧ (dieUp s = true → (closedEntry e s).wh.epochValid = true ∧ (closedEntry e s).wh.epoch = e.epoch)
      ∧ (closedEntry e s).whd.ledger.tail = s.whd.ledger.tail ∧ (closedEntry e s).whd.meters = s.whd.meters := by
  have current := withCurrent_current he (f := fun e => { e with state := 1, timeClose := whTime s }) rfl
  have tail := withCurrent_tail (fun e => { e with state := 1, timeClose := whTime s }) s
  unfold closedEntry
  dsimp only
  split
  · exact ⟨current, rfl, fun _ => ⟨rfl, rfl⟩, tail, rfl⟩
  · next down => exact ⟨current, rfl, fun up => absurd up down, tail, rfl⟩

/-- The part in front and the rest are the stream. -/
theorem mbFront_append (l : List Byte) : (mbFront l).1.getD [] ++ (mbFront l).2 = l := by
  unfold mbFront
  split
  · next h => exact (List.isEmpty_iff.1 h).symm
  · exact List.take_append_drop _ l

/-- A response waits behind what is held. -/
theorem mbRespond_rx (type : Nat) (l : List Byte) (s : State) :
    (mbRespond type l s).wh.rx.getD [] ++ (mbRespond type l s).wh.rxRest
      = s.wh.rx.getD [] ++ s.wh.rxRest ++ mbParts type (l.length / 1016 + 1) 0 l := mbFront_append _

theorem mem_insertNat {a x : Nat} {l : List Nat} : x ∈ insertNat a l ↔ x = a ∨ x ∈ l := by
  induction l with
  | nil => simp [insertNat]
  | cons b l ih =>
    unfold insertNat
    split_ifs with hlt heq
    · simp
    · subst heq; simp
    · simp only [List.mem_cons, ih]; tauto

theorem mem_insertNats {x : Nat} (l m : List Nat) : x ∈ l.foldl (fun m e => insertNat e m) m ↔ x ∈ m ∨ x ∈ l := by
  induction l generalizing m with
  | nil => simp
  | cons a l ih => rw [List.foldl_cons, ih, mem_insertNat, List.mem_cons]; tauto

/-- A LEDGER_GET answers through WH_MB_RX. -/
theorem ledgerGet_answers (first count : Nat) (hs : whServes s = true) :
    exec (.ledgerGet first count) s = .next (mbRespond 3 ((entriesFrom first count s).flatMap entryBytes) s) :=
  congrArg Host.Outcome.next (mbServe_serves hs rfl 3 _)

/-- A STATEMENT takes the next number and answers through WH_MB_RX. -/
theorem statement_answers {r : StatementReq} (hs : whServes s = true) (hr : r.firstTenant + r.count ≤ 4096) :
    exec (.statement r) s = .next (mbRespond 4 (statementContent r (nextStatement s)) (nextStatement s)) :=
  congrArg Host.Outcome.next (mbServe_serves hs (decide_eq_true hr) 4 _)

theorem nextStatement_leaves (s : State) : (stateWord (nextStatement s)).statementNo = (stateWord s).statementNo + 1
    ∧ (nextStatement s).whd.meters = s.whd.meters ∧ (nextStatement s).whd.ledger = s.whd.ledger
    ∧ (nextStatement s).wh = s.wh := by
  obtain ⟨a, b, shape⟩ := putStateWord_shape (fun w => { w with statementNo := w.statementNo + 1 }) s
  refine ⟨by rw [nextStatement, stateWord_putStateWord], putStateWord_meters .., ?_, ?_⟩
  · rw [nextStatement, shape]
  · rw [nextStatement, shape]

/-- The state in which retained entries are marked read. -/
def markedRead (epochs : List Nat) (s : State) : State :=
  { s with whd := { s.whd with
    readEpochs := (epochs.filter fun e => s.whd.ledger.any (·.epoch == e)).foldl (fun l e => insertNat e l) s.whd.readEpochs } }

theorem markRead_marks (epochs : List Nat) (hs : whServes s = true) : exec (.markRead epochs) s = .next (markedRead epochs s) :=
  congrArg Host.Outcome.next (mbServe_serves hs rfl 6 _)

theorem mem_markedRead (epochs : List Nat) (s : State) (x : Nat) :
    x ∈ (markedRead epochs s).whd.readEpochs ↔ x ∈ s.whd.readEpochs ∨ (x ∈ epochs ∧ ∃ e ∈ s.whd.ledger, e.epoch = x) := by
  simp [markedRead, mem_insertNats]

/-- Settles O33: each message in its turn, or refused. -/
theorem mailboxServesLedgerAndMeters : Obligations.MailboxServesLedgerAndMeters := by
  refine ⟨?_, ?_, ?_, ?_, ?_, ?_, ?_, ?_⟩
  · intro stage digest s e hs he hstate hstage hlt hrom
    have ok : extendOk stage s = true := (extendOk_iff he).2 ⟨hstate, hstage, hlt, hrom⟩
    exact ⟨_, extend_appends hs he ok, withCurrent_current he (currentEntry_some he).choose_spec.2, withCurrent_tail _ s, rfl, rfl, rfl⟩
  · intro stage digest s e hs he hbad
    have refused : extendOk stage s = false := by
      rw [Bool.eq_false_iff, ne_eq, extendOk_iff he]
      rintro ⟨hstate, hstage, hlt, hrom⟩
      obtain h | h | h | h := hbad
      · exact h hstate
      · exact h hstage
      · omega
      · exact h hrom
    exact ⟨_, congrArg Host.Outcome.next (mbServe_refuses hs refused 1 _), rfl, (raiseP_onlyEvents ..).whd⟩
  · intro s e hs he hstate hstages hepoch
    exact ⟨_, close_releases hs he hstate hstages hepoch, closedEntry_leaves he⟩
  · intro s e hs he hbad
    have refused : ((currentEntry s).any fun e => e.state == 0 && e.stages.length == 4) = false := by
      rw [he]
      obtain h | h := hbad
      · simp [h]
      · simp [h]
    exact ⟨_, congrArg Host.Outcome.next (mbServe_refuses hs refused 2 _), rfl, (raiseP_onlyEvents ..).whd⟩
  · exact fun first count s hs => ⟨_, ledgerGet_answers first count hs, rfl, mbRespond_rx ..⟩
  · intro r s hs hr
    obtain ⟨number, meters, ledger, wh⟩ := nextStatement_leaves s
    refine ⟨_, statement_answers hs hr, number, meters, ledger, ?_⟩
    exact (mbRespond_rx ..).trans (by rw [wh])
  · intro r s hs hr
    have refused : decide (r.firstTenant + r.count ≤ 4096) = false := decide_eq_false (by omega)
    exact ⟨_, congrArg Host.Outcome.next (mbServe_refuses hs refused 4 _), rfl, (raiseP_onlyEvents ..).whd⟩
  · exact fun epochs s hs => ⟨_, markRead_marks epochs hs, mem_markedRead epochs s, rfl⟩

end Sys2Proof.Proofs
end

section
/-! PROOFS. SPDM, the key messages and the registers of the mailbox (16 R403, R425-R427, Tables 16-10, 16-13). -/

namespace Sys2Proof.Proofs

open Sys2Proof.Machine Sys2Proof.Safety Sys2Proof.Laws

variable {s : State}

/-! ### SPDM -/

/-- A response by the transport of its request changes the port's count, or the DOE mailbox. -/
theorem spdmReply_whd (mctp : Bool) (l : List Byte) (s : State) : (spdmReply mctp l s).whd = s.whd := by cases mctp <;> rfl

theorem spdmReply_out (mctp : Bool) (l : List Byte) (s : State) :
    (spdmReply mctp l s).out = s.out ++ [if mctp then .mctp l else .doeResponse l] := by cases mctp <;> rfl

theorem setSpdm_leaves (mctp : Bool) (n : Nat) (s : State) :
    (setSpdm mctp n s).whd.ledger = s.whd.ledger ∧ (setSpdm mctp n s).whd.meters = s.whd.meters ∧ (setSpdm mctp n s).out = s.out
      ∧ (if mctp then (setSpdm mctp n s).whd.spdmMctp = n else (setSpdm mctp n s).whd.spdmDoe = n)
      ∧ (if mctp then (setSpdm mctp n s).whd.spdmDoe = s.whd.spdmDoe else (setSpdm mctp n s).whd.spdmMctp = s.whd.spdmMctp) := by
  cases mctp <;> exact ⟨rfl, rfl, rfl, rfl, rfl⟩

/-- A message to a Weighhouse that serves. -/
theorem spdm_served (mctp : Bool) (msg : List Byte) (hs : whServes s = true) :
    exec (.spdm mctp msg) s = .next (spdmServe mctp msg s) := congrArg Host.Outcome.next (mbServe_serves hs rfl 5 _)

/-- A request outside Table 16-9. -/
theorem spdmServe_unsupported {mctp : Bool} {msg : List Byte} (h : spdmSupported (byteAt msg 1) = false) :
    spdmServe mctp msg s = spdmReply mctp (spdmError 0x07) s := by
  rw [spdmServe]
  dsimp only
  rw [if_pos (by rw [h]; rfl)]

/-- A request that is out of turn. -/
theorem spdmServe_outOfTurn {mctp : Bool} {msg : List Byte} (h : spdmSupported (byteAt msg 1) = true)
    (hn : spdmNext (if mctp then s.whd.spdmMctp else s.whd.spdmDoe) (byteAt msg 1) = none) :
    spdmServe mctp msg s = spdmReply mctp (spdmError 0x04) s := by
  rw [spdmServe]
  dsimp only
  rw [if_neg (by rw [h]; decide), hn]

/-- The state in which a request has been taken. -/
def spdmTaken (mctp : Bool) (n : Nat) (ss : List (Bool × Bool)) (s : State) : State :=
  { setSpdm mctp n s with whd := { (setSpdm mctp n s).whd with sessions := ss } }

theorem spdmTaken_leaves (mctp : Bool) (n : Nat) (ss : List (Bool × Bool)) (s : State) :
    (spdmTaken mctp n ss s).whd.ledger = s.whd.ledger ∧ (spdmTaken mctp n ss s).whd.meters = s.whd.meters
      ∧ (spdmTaken mctp n ss s).out = s.out
      ∧ (if mctp then (spdmTaken mctp n ss s).whd.spdmMctp = n else (spdmTaken mctp n ss s).whd.spdmDoe = n)
      ∧ (if mctp then (spdmTaken mctp n ss s).whd.spdmDoe = s.whd.spdmDoe
          else (spdmTaken mctp n ss s).whd.spdmMctp = s.whd.spdmMctp) := setSpdm_leaves mctp n s

/-- What a message can do: an answer, and before it a move of the connection. -/
theorem spdmServe_cases (mctp : Bool) (msg : List Byte) (s : State) :
    ∃ l u, spdmServe mctp msg s = spdmReply mctp l u ∧ (u = s ∨ ∃ n ss, u = spdmTaken mctp n ss s) := by
  unfold spdmServe
  dsimp only
  split
  · exact ⟨_, s, rfl, .inl rfl⟩
  · split
    · exact ⟨_, s, rfl, .inl rfl⟩
    · split
      · exact ⟨_, s, rfl, .inl rfl⟩
      · exact ⟨_, _, rfl, .inr ⟨_, _, rfl⟩⟩

/-- Every message is answered, and no meter and no entry changes. -/
theorem spdmServe_answers (mctp : Bool) (msg : List Byte) (s : State) :
    ∃ l, (spdmServe mctp msg s).out = s.out ++ [if mctp then .mctp l else .doeResponse l]
      ∧ (spdmServe mctp msg s).whd.ledger = s.whd.ledger ∧ (spdmServe mctp msg s).whd.meters = s.whd.meters := by
  obtain ⟨l, u, answer, hu⟩ := spdmServe_cases mctp msg s
  refine ⟨l, ?_⟩
  rw [answer, spdmReply_whd, spdmReply_out]
  obtain rfl | ⟨n, ss, rfl⟩ := hu
  · exact ⟨rfl, rfl, rfl⟩
  · obtain ⟨ledger, meters, out, -⟩ := spdmTaken_leaves mctp n ss s
    exact ⟨by rw [out], ledger, meters⟩

/-- GET_VERSION begins a connection. -/
theorem spdmServe_version {mctp : Bool} {msg : List Byte} (h : byteAt msg 1 = 0x84) (s : State) :
    ∃ l ss, spdmServe mctp msg s = spdmReply mctp l (spdmTaken mctp 1 ss s) := by
  unfold spdmServe
  dsimp only
  rw [h]
  exact ⟨_, _, rfl⟩

/-! ### SEND -/

/-- The content of the message in WH_MB_TX. -/
def posting (s : State) : List Byte := ((padTo 1024 s.wh.tx).drop 4).take (leNat (slice s.wh.tx 2 2))

section

variable {n : Nat} (h : leNat (slice s.wh.tx 0 2) = n)

include h

theorem send_posts : exec .send s = .next (postMessage n (posting s) s) := by
  rw [← h]; rfl

end

theorem send_extend (h : leNat (slice s.wh.tx 0 2) = 1) :
    exec .send s = exec (.extend (byteAt (posting s) 0) (slice (posting s) 1 48)) s := send_posts h
theorem send_close (h : leNat (slice s.wh.tx 0 2) = 2) : exec .send s = exec .close s := send_posts h
theorem send_ledgerGet (h : leNat (slice s.wh.tx 0 2) = 3) :
    exec .send s = exec (.ledgerGet (leNat (slice (posting s) 0 4)) (leNat (slice (posting s) 4 4))) s := send_posts h
theorem send_statement (h : leNat (slice s.wh.tx 0 2) = 4) :
    exec .send s = exec (.statement (statementOf (leNat (slice (posting s) 0 8)) (slice (posting s) 8 16))) s := send_posts h
theorem send_spdm (h : leNat (slice s.wh.tx 0 2) = 5) :
    exec .send s = exec (.spdm (byteAt (posting s) 0 == 1) ((posting s).drop 1)) s := send_posts h
theorem send_markRead (h : leNat (slice s.wh.tx 0 2) = 6) : exec .send s = exec (.markRead (nats4 (posting s))) s := send_posts h

/-- A type that no message has is refused. -/
theorem send_refused (hs : whServes s = true) (h : leNat (slice s.wh.tx 0 2) = 0 ∨ 7 ≤ leNat (slice s.wh.tx 0 2)) :
    exec .send s = .next (raiseP evWhMbRefused (leNat (slice s.wh.tx 0 2)) s) := by
  rw [send_posts rfl, postMessage, if_neg, if_neg, if_neg, if_neg, if_neg, if_neg, mbServe_refuses hs rfl] <;>
    simp only [mbExtend, mbClose, mbLedgerGet, mbStatement, mbSpdm, mbMarkRead] <;> omega

/-- Settles O34: each request and each message by its type. -/
theorem mailboxSpdmAndRegisters : Obligations.MailboxSpdmAndRegisters := by
  refine ⟨?_, ?_, ?_, ?_, ?_, fun s => rfl, ?_, ?_, ?_, ?_, ?_⟩
  · intro mctp msg s hs hno
    exact ⟨_, (spdm_served mctp msg hs).trans (congrArg Host.Outcome.next (spdmServe_unsupported hno)), rfl, spdmReply_whd ..⟩
  · intro mctp msg s hs hver
    obtain ⟨l, ss, answer⟩ := spdmServe_version (mctp := mctp) hver s
    obtain ⟨ledger, meters, out, own, other⟩ := spdmTaken_leaves mctp 1 ss s
    refine ⟨_, l, (spdm_served mctp msg hs).trans (by rw [answer]), ?_, ?_, ?_, ?_, ?_⟩
    · rw [spdmReply_whd]; exact own
    · rw [spdmReply_whd]; exact other
    · rw [spdmReply_out, out]
    · rw [spdmReply_whd]; exact ledger
    · rw [spdmReply_whd]; exact meters
  · intro mctp msg s hs hreq hst
    have late : spdmNext (if mctp then s.whd.spdmMctp else s.whd.spdmDoe) (byteAt msg 1) = none := by
      rw [hreq]; exact if_neg hst
    have served : spdmSupported (byteAt msg 1) = true := by rw [hreq]; rfl
    exact ⟨_, (spdm_served mctp msg hs).trans (congrArg Host.Outcome.next (spdmServe_outOfTurn served late)), rfl, spdmReply_whd ..⟩
  · exact fun mctp index s hs => ⟨_, congrArg Host.Outcome.next (mbServe_serves hs rfl 5 _), rfl, spdmReply_whd ..⟩
  · intro st msg s hs
    refine ⟨_, Config.signed keyAnswer msg, congrArg Host.Outcome.next (mbServe_serves hs rfl 5 _), ?_, rfl, rfl, rfl⟩
    rw [spdmReply_out]
    exact List.append_assoc ..
  · intro s
    refine ⟨_, rfl, rfl, fun hrest => ?_, mbFront_append s.wh.rxRest⟩
    have empty : mbFront s.wh.rxRest = (none, []) := by rw [hrest]; rfl
    exact ⟨congrArg Prod.fst empty, congrArg Prod.snd empty⟩
  · exact fun s => ⟨send_extend, send_close, send_ledgerGet, send_statement, send_spdm, send_markRead⟩
  · intro s hs
    refine ⟨fun e h he hstate hstage hlt hrom => ?_, fun e h he hstate hstages hepoch => ?_, fun h => ?_, fun h hr => ?_,
      fun h => ?_, fun h => ?_⟩
    · have ok := (extendOk_iff he).2 ⟨hstate, hstage, hlt, hrom⟩
      exact ⟨_, (send_extend h).trans (extend_appends hs he ok),
        withCurrent_current he (currentEntry_some he).choose_spec.2, rfl, rfl, rfl⟩
    · obtain ⟨current, released, -, -, meters⟩ := closedEntry_leaves he
      exact ⟨_, (send_close h).trans (close_releases hs he hstate hstages hepoch), current, released, meters⟩
    · exact ⟨_, (send_ledgerGet h).trans (ledgerGet_answers _ _ hs), rfl, mbRespond_rx ..⟩
    · obtain ⟨number, meters, ledger, -⟩ := nextStatement_leaves s
      exact ⟨_, (send_statement h).trans (statement_answers hs hr), number, meters, ledger⟩
    · obtain ⟨l, out, ledger, meters⟩ := spdmServe_answers (byteAt (posting s) 0 == 1) ((posting s).drop 1) s
      exact ⟨_, l, (send_spdm h).trans (spdm_served _ _ hs), out, ledger, meters⟩
    · exact ⟨_, (send_markRead h).trans (markRead_marks _ hs), mem_markedRead _ s, rfl⟩
  · intro s hs h
    have raised := raiseP_onlyEvents evWhMbRefused (leNat (slice s.wh.tx 0 2)) s
    exact ⟨_, send_refused hs h, raised.whd, raised.wh⟩
  · intro stage d m r mctp msg i st es s hsilent
    have silent (type : Nat) (ok : Bool) (k : State → State) : Host.Outcome.next (mbServe type ok k s) = (.next s : Out) :=
      congrArg Host.Outcome.next (mbServe_silent hsilent type k)
    exact ⟨silent .., silent .., silent .., silent .., silent .., silent .., silent .., silent ..⟩

end Sys2Proof.Proofs
end

section
/-! PROOFS. What a thermal sample, a fault of a unit and an event leave of the Weighhouse (15 R378-R384): `f_weigh`. -/

namespace Sys2Proof.Machine

def State.weigh (s : State) : Wh × Weighhouse × Mram × BootPhase := (s.wh, s.whd, s.mram, s.sys.phase)

end Sys2Proof.Machine

namespace Sys2Proof.Proofs

open Sys2Proof.Machine Sys2Proof.Safety Sys2Proof.Laws

@[simp] theorem weigh_mk sys hif cmd jrn ctx pkr cph fmt tec vfy hlk drv mon spm prt mem thm pwr aon wh whd mram cart mgt pending out freeCount :
    (State.mk sys hif cmd jrn ctx pkr cph fmt tec vfy hlk drv mon spm prt mem thm pwr aon wh whd mram cart mgt pending out freeCount).weigh = (wh, whd, mram, sys.phase) := rfl

@[simp] theorem weigh_fold (s : State) : (s.wh, s.whd, s.mram, s.sys.phase) = s.weigh := rfl

@[simp] theorem foldl_weigh {α : Type} {f : State → α → State} (hf : ∀ s x, (f s x).weigh = s.weigh) (l : List α) (s : State) :
    (l.foldl f s).weigh = s.weigh := by
  induction l generalizing s with
  | nil => rfl
  | cons a t ih => rw [List.foldl_cons, ih, hf]

@[simp] theorem ite_weigh (c : Prop) [Decidable c] (a b : State) : (if c then a else b).weigh = if c then a.weigh else b.weigh :=
  apply_ite State.weigh c a b

theorem optMap_weigh {f : State → State} (hf : ∀ s, (f s).weigh = s.weigh) {o : Option State} {m : Wh × Weighhouse × Mram × BootPhase}
    (ho : ∀ r, o = some r → r.weigh = m) (r : State) (h : o.map f = some r) : r.weigh = m := by
  obtain ⟨u, hu, rfl⟩ := Option.map_eq_some_iff.1 h
  rw [hf, ho u hu]

theorem getD_weigh {o : Option State} {m : Wh × Weighhouse × Mram × BootPhase} (ho : ∀ r, o = some r → r.weigh = m) (s : State) (hs : s.weigh = m) :
    (o.getD s).weigh = m := by
  cases o with
  | none => exact hs
  | some u => exact ho u rfl

/-! ### Events and buffers -/

theorem OnlyEvents.weigh {s t : State} (h : OnlyEvents s t) : t.weigh = s.weigh := by
  obtain ⟨_, _, _, _, _, _, rfl, -⟩ := h; rfl

theorem OnlyPorter.weigh {s t : State} (h : OnlyPorter s t) : t.weigh = s.weigh := h.elim fun _ h => h.weigh

@[simp] theorem emit_weigh (o : Output) (s : State) : (emit o s).weigh = s.weigh := (emit_onlyEvents o s).weigh
@[simp] theorem drawFree_weigh (s : State) : (drawFree s).weigh = s.weigh := rfl
@[simp] theorem msixTrigger_weigh (vec : Nat) (en : Bool) (s : State) : (msixTrigger vec en s).weigh = s.weigh := (msixTrigger_onlyEvents vec en s).weigh
@[simp] theorem hostStore_weigh (addr : Nat) (l : List Byte) (s : State) : (hostStore addr l s).weigh = s.weigh := (hostStore_onlyEvents addr l s).weigh
@[simp] theorem raise_weigh (src p0 p1 : Nat) (s : State) : (raise src p0 p1 s).weigh = s.weigh := (raise_onlyEvents ..).weigh
@[simp] theorem raiseP_weigh (src p0 : Nat) (s : State) : (raiseP src p0 s).weigh = s.weigh := (raiseP_onlyEvents ..).weigh
@[simp] theorem raiseN_weigh (src : Nat) (s : State) : (raiseN src s).weigh = s.weigh := (raiseN_onlyEvents ..).weigh
@[simp] theorem freeBuffer_weigh (o : Nat) (h : Word) (s : State) : (freeBuffer o h s).weigh = s.weigh :=
  (freeBuffer_onlyPorter o h s).weigh

@[simp] theorem modUnit_weigh (u : Nat) (f : SysUnit → SysUnit) (s : State) : (modUnit u f s).weigh = s.weigh := by
  unfold modUnit; simp
@[simp] theorem setUnit_weigh (u st cause : Nat) (s : State) : (setUnit u st cause s).weigh = s.weigh := by
  unfold setUnit; simp
@[simp] theorem addTransient_weigh (u : Nat) (s : State) : (addTransient u s).weigh = s.weigh := by
  unfold addTransient; simp
@[simp] theorem modThm_weigh (n : Nat) (f : ThmSensor → ThmSensor) (s : State) : (modThm n f s).weigh = s.weigh := by
  unfold modThm; simp
@[simp] theorem refreshEff_weigh (s : State) : (refreshEff s).weigh = s.weigh := by
  unfold refreshEff; simp
@[simp] theorem refreshRates_weigh (s : State) : (refreshRates s).weigh = s.weigh := by
  unfold refreshRates; refine foldl_weigh (fun s x => ?_) _ _; (repeat' split) <;> simp
@[simp] theorem sensorStays_weigh (n : Nat) (s : State) : (sensorStays n s).weigh = s.weigh := by
  unfold sensorStays; simp
@[simp] theorem failSensor_weigh (n : Nat) (c2 : Option Int) (s : State) : (failSensor n c2 s).weigh = s.weigh := by
  unfold failSensor; (repeat' split) <;> simp
@[simp] theorem readmit_weigh (n : Nat) (raw : Int) (s : State) : (readmit n raw s).weigh = s.weigh := by
  unfold readmit; simp
@[simp] theorem checkGrid_weigh (n : Nat) (raw : Int) (s : State) : (checkGrid n raw s).weigh = s.weigh := by
  unfold checkGrid; (repeat' split) <;> simp
@[simp] theorem checkWeighhouse_weigh (raw : Int) (s : State) : (checkWeighhouse raw s).weigh = s.weigh := by
  unfold checkWeighhouse; simp
@[simp] theorem chooseRate_weigh (s : State) : (chooseRate s).weigh = s.weigh := by
  unfold chooseRate; simp
@[simp] theorem sampleSensor_weigh (sensor : Nat) (raw : Int) (s : State) : (sampleSensor sensor raw s).weigh =
    s.weigh := by
  unfold sampleSensor; dsimp only; (repeat' split) <;> simp

end Sys2Proof.Proofs
end

section
/-! PROOFS. The Weighhouse's start, its status and its watch (16 R406-R408, R411, R413-R415, 19 R465). -/

namespace Sys2Proof.Proofs

open Sys2Proof.Machine Sys2Proof.Safety Sys2Proof.Laws

variable {s t : State}

/-! ### Start, reset, supply -/

/-- What a start finds: the state word of before, or that of a power-on. -/
def whFound (s : State) : State := if s.whd.supplied then s else whPowerUp s

/-- The die that has started, before it drops the entry of the formatter's boot. -/
def whStarted (ok : Bool) (s : State) : State :=
  { whFound s with whd := { (whFound s).whd with
    powered := true, lifecycle := if (whFound s).whd.lifecycle = 0 then 0 else if ok then 1 else 2
    meters := restoreMeters (stateWord (whFound s)).lastTsn (whFound s).whd.meters } }

theorem weighhousePowerOn_starts (ok : Bool) (h : s.whd.powered = false) :
    exec (.weighhousePowerOn ok) s = .next (dropEpoch (endEntry 3 (whStarted ok s))) := by
  change execWeighhousePowerOn ok s = _
  rw [execWeighhousePowerOn, h]
  rfl

/-- The die after a power-on, with the state word that it writes. -/
def poweredUp (time : Nat) (f : StateWord → StateWord) (s : State) : State :=
  { putStateWord f s with whd := { (putStateWord f s).whd with
    supplied := true, time := time, timeFrom := (putStateWord f s).aon.time, bad := 0, gap := 0, dup := 0 } }

theorem whPowerUp_eq (s : State) :
    ∃ time f, (∀ w : StateWord, f w = { w with powerOns := w.powerOns + 1, timeCheck := time }) ∧ whPowerUp s = poweredUp time f s :=
  ⟨(stateWord s).timeCheck + 32768, fun w => { w with powerOns := w.powerOns + 1, timeCheck := (stateWord s).timeCheck + 32768 },
    fun _ => rfl, rfl⟩

theorem poweredUp_leaves {time : Nat} {f : StateWord → StateWord}
    (on : ∀ w : StateWord, f w = { w with powerOns := w.powerOns + 1, timeCheck := time }) (s : State) :
    (stateWord (poweredUp time f s)).lastTsn = (stateWord s).lastTsn
      ∧ (stateWord (poweredUp time f s)).statementNo = (stateWord s).statementNo
      ∧ (stateWord (poweredUp time f s)).powerOns = (stateWord s).powerOns + 1 := by
  have word : stateWord (poweredUp time f s) = stateWord (putStateWord f s) := rfl
  rw [word, stateWord_putStateWord, on]
  exact ⟨rfl, rfl, rfl⟩

theorem poweredUp_die (time : Nat) (f : StateWord → StateWord) (s : State) :
    (poweredUp time f s).whd.lifecycle = s.whd.lifecycle ∧ (poweredUp time f s).whd.meters = s.whd.meters
      ∧ (poweredUp time f s).whd.ledger = s.whd.ledger ∧ (poweredUp time f s).whd.supplied = true := by
  obtain ⟨a, b, shape⟩ := putStateWord_shape f s
  rw [poweredUp, shape]
  exact ⟨rfl, rfl, rfl, rfl⟩

theorem whFound_eq (s : State) :
    ∃ time f, (∀ w : StateWord, f w = { w with powerOns := w.powerOns + 1, timeCheck := time })
      ∧ whFound s = if s.whd.supplied then s else poweredUp time f s := by
  obtain ⟨time, f, on, powered⟩ := whPowerUp_eq s
  exact ⟨time, f, on, by rw [whFound, powered]⟩

/-- A power-on counts, and a reset counts nothing. -/
theorem whFound_leaves (s : State) :
    (stateWord (whFound s)).lastTsn = (stateWord s).lastTsn ∧ (stateWord (whFound s)).statementNo = (stateWord s).statementNo
      ∧ (stateWord (whFound s)).powerOns = (stateWord s).powerOns + (if s.whd.supplied then 0 else 1)
      ∧ (whFound s).whd.lifecycle = s.whd.lifecycle ∧ (whFound s).whd.meters = s.whd.meters
      ∧ (whFound s).whd.ledger = s.whd.ledger ∧ (whFound s).whd.supplied = true := by
  obtain ⟨time, f, on, found⟩ := whFound_eq s
  rw [found]
  by_cases hs : s.whd.supplied = true
  · rw [if_pos hs, if_pos hs]
    exact ⟨rfl, rfl, rfl, rfl, rfl, rfl, hs⟩
  · obtain ⟨tsn, number, ons⟩ := poweredUp_leaves on s
    rw [if_neg hs, if_neg hs]
    exact ⟨tsn, number, ons, poweredUp_die time f s⟩

/-- A change of the newest entry takes none out. -/
theorem modCurrent_shape (f : LedgerEntry → LedgerEntry) (s : State) :
    ∃ l, modCurrent f s = { s with whd := { s.whd with ledger := l } } ∧ l.length = s.whd.ledger.length := by
  unfold modCurrent
  split
  · next ledger =>
    split
    · exact ⟨_, rfl, by rw [ledger, List.length_cons, List.length_cons]⟩
    · exact ⟨_, rfl, rfl⟩
  · exact ⟨_, rfl, rfl⟩

theorem endEntry_shape (cause : Nat) (s : State) :
    ∃ l, endEntry cause s = { s with whd := { s.whd with ledger := l } } ∧ l.length = s.whd.ledger.length := by
  unfold endEntry
  dsimp only
  split
  · exact modCurrent_shape _ s
  · exact ⟨_, rfl, rfl⟩

/-- Meters of committed frames stay as they are. -/
theorem restoreMeters_committed {last : Nat} {m : Table Meter} (h : ∀ p ∈ m, p.2.tsn ≤ last ∧ p.2 ≠ .zero) :
    restoreMeters last m = m := by
  have same : (m.map fun p => (p.1, if last < p.2.tsn then { p.2 with count := p.2.prevCount, tsn := p.2.prevTsn } else p.2)) = m := by
    refine (List.map_congr_left fun p hp => ?_).trans (List.map_id m)
    rw [if_neg (Nat.not_lt.2 (h p hp).1)]
    rfl
  rw [restoreMeters, same, List.filter_eq_self]
  exact fun p hp => by simpa using (h p hp).2

theorem weighhousePowerOn_leaves (ok : Bool) (h : s.whd.powered = false) :
    ∃ t, exec (.weighhousePowerOn ok) s = .next t ∧ t.whd.powered = true ∧ t.whd.supplied = true
      ∧ t.whd.lifecycle = (if s.whd.lifecycle = 0 then 0 else if ok then 1 else 2)
      ∧ t.wh.epochValid = false ∧ t.whd.released = none
      ∧ (stateWord t).lastTsn = (stateWord s).lastTsn ∧ (stateWord t).statementNo = (stateWord s).statementNo
      ∧ (stateWord t).powerOns = (stateWord s).powerOns + (if s.whd.supplied then 0 else 1)
      ∧ ((∀ p ∈ s.whd.meters, p.2.tsn ≤ (stateWord s).lastTsn ∧ p.2 ≠ .zero) → t.whd.meters = s.whd.meters)
      ∧ t.whd.ledger.length = s.whd.ledger.length := by
  obtain ⟨tsn, number, ons, life, meters, ledger, supplied⟩ := whFound_leaves s
  obtain ⟨l, ended, len⟩ := endEntry_shape 3 (whStarted ok s)
  refine ⟨_, (weighhousePowerOn_starts ok h).trans (congrArg (fun x => Host.Outcome.next (dropEpoch x)) ended), rfl, supplied, ?_, rfl, rfl, tsn, number, ons, fun hm => ?_, ?_⟩
  · change (if (whFound s).whd.lifecycle = 0 then 0 else if ok then 1 else 2) = _
    rw [life]
  · change restoreMeters (stateWord (whFound s)).lastTsn (whFound s).whd.meters = _
    rw [tsn, meters, restoreMeters_committed hm]
  · exact len.trans (congrArg List.length ledger)

/-! ### Status -/

/-- What the Weighhouse publishes, as both sides hold it: neither its availability nor an event changes it. -/
def State.status (s : State) :=
  ((s.wh.lifecycle, s.wh.lastStatus, s.wh.lastTsn), (s.whd.copyA, s.whd.copyB, s.whd.meters, s.whd.lifecycle), s.mram, s.sys.phase)

theorem status_of_weigh (h : t.weigh = s.weigh) : State.status t = State.status s := by
  have wh : t.wh = s.wh := congrArg (·.1) h
  have whd : t.whd = s.whd := congrArg (·.2.1) h
  have mram : t.mram = s.mram := congrArg (·.2.2.1) h
  have phase : t.sys.phase = s.sys.phase := congrArg (·.2.2.2) h
  simp only [State.status, wh, whd, mram, phase]

theorem avail_of_weigh (h : t.weigh = s.weigh) : t.wh.avail = s.wh.avail := congrArg (·.1.avail) h

/-- Unread entries are reported. -/
theorem reportUnread_leaves (s : State) : State.status (reportUnread s) = State.status s ∧ (reportUnread s).wh.avail = s.wh.avail := by
  have reported := foldl_weigh (f := fun s e => raiseP evWhLedgerUnread e s) (fun s e => raiseP_weigh ..) s.whd.unread
    { s with whd := { s.whd with unread := [] } }
  exact ⟨(status_of_weigh reported :), (avail_of_weigh reported :)⟩

theorem resendTally_leaves (s : State) : State.status (resendTally s) = State.status s ∧ (resendTally s).wh.avail = s.wh.avail :=
  ⟨rfl, rfl⟩

theorem whResumes_leaves (s : State) : State.status (whResumes s) = State.status s ∧ (whResumes s).wh.avail = 1 := by
  generalize hu : (if s.wh.avail = 2 then addTransient unWeighhouse s else s) = u
  have noted : u.weigh = s.weigh := by
    rw [← hu]; split
    · exact addTransient_weigh ..
    · rfl
  have resumed : (whResumes s).weigh = ({ u with wh := { u.wh with avail := 1 } } : State).weigh := by
    rw [← hu, whResumes, raiseN_weigh, setUnit_weigh]
  exact ⟨(status_of_weigh resumed).trans (status_of_weigh noted :), (avail_of_weigh resumed :)⟩

/-- A status of a Weighhouse that is not in FAULT makes it available. -/
theorem becomeAvailable_leaves (s : State) :
    State.status (becomeAvailable s) = State.status s ∧ (s.whd.lifecycle ≠ 2 → (becomeAvailable s).wh.avail = 1) := by
  unfold becomeAvailable
  split
  · next h => exact ⟨rfl, fun sealed => h.resolve_left sealed⟩
  · dsimp only
    split
    · generalize hu : ({ s with wh := { s.wh with avail := 1 } } : State) = u
      have first : State.status u = State.status s ∧ u.wh.avail = 1 := by rw [← hu]; exact ⟨rfl, rfl⟩
      generalize hv : (if unitState unWeighhouse u = 1 ∨ unitState unWeighhouse u = 2 then setUnit unWeighhouse 0 0 u else u) = v
      have second : State.status v = State.status s ∧ v.wh.avail = 1 := by
        rw [← hv]; split
        · exact ⟨(status_of_weigh (setUnit_weigh ..)).trans first.1, (avail_of_weigh (setUnit_weigh ..)).trans first.2⟩
        · exact first
      generalize hw : (if v.mram.tallies.isEmpty then v else resendTally v) = w
      have third : State.status w = State.status s ∧ w.wh.avail = 1 := by
        rw [← hw]; split
        · exact second
        · exact second
      exact ⟨(reportUnread_leaves w).1.trans third.1, fun _ => (reportUnread_leaves w).2.trans third.2⟩
    · obtain ⟨status, avail⟩ := whResumes_leaves s
      have reported := reportUnread_leaves (resendTally (whResumes s))
      exact ⟨reported.1.trans status, fun _ => reported.2.trans avail⟩

/-- A queue with room, or without it, is noted in BLOCKED. -/
theorem noteBlocked_leaves (s : State) : State.status (noteBlocked s) = State.status s ∧ (noteBlocked s).wh.avail = s.wh.avail := by
  unfold noteBlocked
  split_ifs
  · exact ⟨rfl, rfl⟩
  · exact ⟨rfl, rfl⟩
  · have raised := raiseP_weigh evWhFormBlocked s.mram.tallies.length
      { s with wh := { s.wh with blocked := true, blockedAt := some s.aon.time } }
    exact ⟨(status_of_weigh raised :), (avail_of_weigh raised :)⟩

/-- A die that is up takes LAST_TSN. -/
theorem takeTsn_takes (n : Nat) (h : dieUp s = true) :
    State.status (takeTsn n s) = State.status (tsnTaken n s) ∧ (takeTsn n s).wh.avail = s.wh.avail := by
  rw [takeTsn_eq, if_neg (by rw [h]; decide)]
  exact noteBlocked_leaves _

theorem dieUp_of_status (h : State.status t = State.status s) : dieUp t = dieUp s := by
  have phase : t.sys.phase = s.sys.phase := congrArg (·.2.2.2) h
  simp only [dieUp, phase]

theorem stateWord_of_status (h : State.status t = State.status s) : stateWord t = stateWord s := by
  have a : t.whd.copyA = s.whd.copyA := congrArg (·.2.1.1) h
  have b : t.whd.copyB = s.whd.copyB := congrArg (·.2.1.2.1) h
  simp only [stateWord, a, b]

/-- What is noted of a status depends on what was noted before. -/
theorem tsnTaken_status (n : Nat) (h : State.status t = State.status s) :
    State.status (tsnTaken n t) = State.status (tsnTaken n s) := by
  have life : t.wh.lifecycle = s.wh.lifecycle := congrArg (·.1.1) h
  have last : t.wh.lastStatus = s.wh.lastStatus := congrArg (·.1.2.1) h
  have die : (t.whd.copyA, t.whd.copyB, t.whd.meters, t.whd.lifecycle) = (s.whd.copyA, s.whd.copyB, s.whd.meters, s.whd.lifecycle) :=
    congrArg (·.2.1) h
  have mram : t.mram = s.mram := congrArg (·.2.2.1) h
  have phase : t.sys.phase = s.sys.phase := congrArg (·.2.2.2) h
  simp only [State.status, tsnTaken, life, last, mram, phase, die]

/-- Noted twice is noted once. -/
theorem tsnTaken_tsnTaken (n : Nat) (s : State) : State.status (tsnTaken n (tsnTaken n s)) = State.status (tsnTaken n s) := by
  simp only [State.status, tsnTaken, List.filter_filter, Bool.and_self]

/-- A status is taken, and makes the Weighhouse available. -/
theorem whStatusPublish_takes (at_ : Nat) (temp : Int) (hp : s.whd.powered = true) (hd : dieUp s = true) :
    ∃ t, exec (.whStatusPublish at_ temp) s = .next t
      ∧ State.status t = State.status (tsnTaken (stateWord s).lastTsn (takeWhStatus (atTime at_ s)))
      ∧ (s.whd.lifecycle ≠ 2 → t.wh.avail = 1) := by
  have taken : ∀ x, takeWhStatus x = { x with wh := (takeWhStatus x).wh } := by
    intro x; unfold takeWhStatus; dsimp only; split <;> rfl
  let u := takeWhStatus (atTime at_ s)
  have whd : u.whd = s.whd := (congrArg State.whd (taken (atTime at_ s)) :)
  have phase : u.sys = s.sys := (congrArg State.sys (taken (atTime at_ s)) :)
  have up : dieUp u = true := by simp only [dieUp, phase]; exact hd
  let n := (stateWord s).lastTsn
  let v := takeTsn n u
  have hv : State.status v = State.status (tsnTaken n u) := (takeTsn_takes n up).1
  let w := becomeAvailable v
  obtain ⟨hw, avail⟩ := becomeAvailable_leaves v
  have upw : dieUp w = true := (dieUp_of_status (hw.trans hv)).trans up
  obtain ⟨hx, kept⟩ := takeTsn_takes n upw
  have word : stateWord w = stateWord s := (stateWord_of_status (hw.trans hv)).trans (stateWord_congr whd)
  have sampled := sampleSensor_weigh 32 temp (takeTsn n w)
  refine ⟨sampleSensor 32 temp (takeTsn n w), ?_, ?_, fun sealed => ?_⟩
  · have runs : ¬ (!(atTime at_ s).whd.powered || !dieUp (atTime at_ s)) = true := by
      have here : dieUp (atTime at_ s) = true := hd
      have powered : (atTime at_ s).whd.powered = true := hp
      rw [here, powered]
      decide
    have first : (stateWord (takeWhStatus (atTime at_ s))).lastTsn = n := congrArg StateWord.lastTsn (stateWord_congr whd)
    have second : (stateWord (becomeAvailable (takeTsn n (takeWhStatus (atTime at_ s))))).lastTsn = n :=
      congrArg StateWord.lastTsn word
    change execWhStatusPublish at_ temp s = _
    rw [execWhStatusPublish]
    dsimp only
    rw [if_neg runs]
    rw [show (stateWord (atTime at_ s)).lastTsn = n from rfl]
  · exact (status_of_weigh sampled).trans (hx.trans ((tsnTaken_status n (hw.trans hv)).trans (tsnTaken_tsnTaken n u)))
  · have life : v.whd.lifecycle = s.whd.lifecycle := (congrArg (·.2.1.2.2.2) hv).trans (congrArg Weighhouse.lifecycle whd)
    exact (avail_of_weigh sampled).trans (kept.trans (avail (by rw [life]; exact sealed)))

end Sys2Proof.Proofs
end

section
/-! PROOFS. The watch over the Weighhouse (16 R411, R414, R415). -/

namespace Sys2Proof.Proofs

open Sys2Proof.Machine Sys2Proof.Safety Sys2Proof.Laws

variable {s : State}

theorem weigh_blocks {s t : State} (h : t.weigh = s.weigh) : t.wh = s.wh ∧ t.whd = s.whd ∧ t.mram = s.mram :=
  ⟨congrArg (·.1) h, congrArg (·.2.1) h, congrArg (·.2.2.1) h⟩

/-! ### Unavailability -/

/-- The formatter's side once the Weighhouse is unavailable. -/
def whGone (s : State) : State :=
  { emptyFifos s with wh := { (emptyFifos s).wh with
    avail := 2, failedAt := s.aon.time, unavailCnt := sat64 s.wh.unavailCnt 1 } }

theorem whUnavailable_notes (at_ : Nat) (ha : s.wh.avail < 2) (hp : s.sys.phase = .running)
    (hw : s.wh.lifecycle = 2 ∨ passedMs s.wh.lastStatus (max s.aon.time at_) 10 = true) :
    exec (.whUnavailable at_) s = .next (raiseN evWhUnavailable (setUnit unWeighhouse 1 0 (whGone (atTime at_ s)))) := by
  have due : ¬ (decide (2 ≤ (atTime at_ s).wh.avail) || decide ((atTime at_ s).sys.phase ≠ .running)
      || !((atTime at_ s).wh.lifecycle == 2 || passedMs (atTime at_ s).wh.lastStatus (atTime at_ s).aon.time 10)) = true := by
    have away : ¬ 2 ≤ s.wh.avail := by omega
    obtain h | h := hw
    · simp [atTime, away, hp, h]
    · simp [atTime, away, hp, h]
  change execWhUnavailable at_ s = _
  rw [execWhUnavailable]
  dsimp only
  rw [if_neg due]
  rfl

/-! ### Writes that may form nothing -/

/-- The one write command there is, given its end. -/
def oneStopped (w : WriteRun) (s : State) : State :=
  { s with fmt := { s.fmt with writes := [{ w with ending := some (stUnitDegraded, none), blocks := [] }] } }

/-- A command that has placed nothing stops where it is. -/
theorem stopWrite_unplaced {w : WriteRun} (hw : s.fmt.writes = [w]) (ho : s.fmt.opened = none) (hi : w.placedItems = 0) :
    stopWrite w.jsn stUnitDegraded none s = oneStopped w s := by
  have found : findWrite w.jsn s = some w := by simp [findWrite, hw]
  have closed : (s.fmt.opened.any fun o => o.frameOpen && o.frameJsn == w.jsn) = false := by rw [ho]; rfl
  simp [stopWrite, found, closed, hi, setWrite, oneStopped, hw]

/-- With no dataset in the pipeline nothing is flushed and nothing is formed. -/
theorem afterWrites_empty (ho : s.fmt.opened = none) (hc : s.fmt.closed = []) (hg : s.fmt.c3Groups = []) :
    afterWrites s = settleWrites s := by
  have unopened : flushOpen s = s := by rw [flushOpen, ho]
  have formed : formAll s = s := by rw [formAll, hc, hg]; rfl
  rw [afterWrites, unopened, formed]

/-- No dataset holds a part of the command. -/
theorem holdsPart_none {jsn : Nat} (ho : s.fmt.opened = none) (hc : s.fmt.closed = []) (ha : ∀ d ∈ s.fmt.active, jsn ∉ d.jsns) :
    holdsPart jsn s = false := by
  have active : (s.fmt.active.any fun d => d.jsns.contains jsn) = false := by
    rw [List.any_eq_false]
    exact fun d hd => by simpa using ha d hd
  rw [holdsPart, active, ho, hc]
  rfl

/-- A command that has placed nothing ends with its status, nothing done and the end of data at its start. -/
theorem finishWrite_unplaced {w : WriteRun} {e : JournalEntry} {r : RunInfo} {st r1 : Nat} (hst : st ≠ stOk)
    (hf : w.firstItem = none) (hd : w.durable = 0) (held : Held w.jsn e r s) :
    RetiredResults w.jsn st 0 r1 (finishWrite w st r1 s)
      ∧ (finishWrite w st r1 s).fmt.writes = s.fmt.writes.filter (·.jsn != w.jsn) := by
  generalize hu : ({ s with fmt := { s.fmt with writes := s.fmt.writes.filter (·.jsn != w.jsn) } } : State) = u
  have freed : OnlyPorter u (w.bufs.foldl (fun s h => freeBuffer 1 h s) u) := OnlyPorter.foldl (fun s h => freeBuffer_onlyPorter 1 h s) _ _
  have unmoved : afterLast w = none := by rw [afterLast, hf]; rfl
  have finishes : finishWrite w st r1 s
      = endWith w.jsn st 0 r1 (raise evDurable w.jsn 0 (w.bufs.foldl (fun s h => freeBuffer 1 h s) u)) := by
    rw [finishWrite, unmoved, hd, hu]
  have reported := freed.trans (.of_onlyEvents (raise_onlyEvents evDurable w.jsn 0 _))
  obtain ⟨q, events⟩ := reported
  have there : Held w.jsn e r (raise evDurable w.jsn 0 (w.bufs.foldl (fun s h => freeBuffer 1 h s) u)) :=
    held.ofJrn (events.jrn.trans (by rw [← hu]))
  have ends := there.endWith_fail hst (r0 := 0) (r1 := r1)
  rw [finishes]
  refine ⟨ends.1, ?_⟩
  rw [device_fmt (endsWith_device ends), device_fmt events.device, ← hu]

/-- The write of a Weighhouse that has been away for 60 s ends. -/
theorem formationBlockTimeout_ends (at_ : Nat) {w : WriteRun} {e : JournalEntry} {r : RunInfo}
    (hlong : formBlockedLong (atTime at_ s) = true) (hw : s.fmt.writes = [w]) (hend : w.ending = none) (hi : w.placedItems = 0)
    (hall : allPlaced w = false) (hd : w.durable = 0) (hf : w.firstItem = none) (ho : s.fmt.opened = none)
    (hc : s.fmt.closed = []) (hg : s.fmt.c3Groups = []) (ha : ∀ d ∈ s.fmt.active, w.jsn ∉ d.jsns)
    (held : Held w.jsn e r s) :
    ∃ t, exec (.formationBlockTimeout at_) s = .next t ∧ RetiredResults w.jsn stUnitDegraded 0 w.startEnd t ∧ t.fmt.writes = [] := by
  let u := oneStopped w (atTime at_ s)
  let w' : WriteRun := { w with ending := some (stUnitDegraded, none), blocks := [] }
  have stopped : stopWrite w.jsn stUnitDegraded none (atTime at_ s) = u := stopWrite_unplaced hw ho hi
  have settled : settleWrites u = finishWrite w' stUnitDegraded w.startEnd u := by
    have named : sortBy (· ≤ ·) (u.fmt.writes.map (·.jsn)) = [w.jsn] := rfl
    have found : findWrite w.jsn u = some w' := by simp [findWrite, u, w', oneStopped]
    have free : holdsPart w.jsn u = false := holdsPart_none ho hc ha
    have first : firstResult w' = w.startEnd := by simp [firstResult, w', hf]
    rw [settleWrites, named, List.foldl_cons, List.foldl_nil, settleWrite, found]
    dsimp only [w']
    rw [free]
    exact congrArg (fun n => finishWrite w' stUnitDegraded n u) first
  obtain ⟨retired, writes⟩ := finishWrite_unplaced (s := u) (w := w') (st := stUnitDegraded) (r1 := w.startEnd) (by decide) hf hd held
  refine ⟨_, ?_, retired, writes.trans (by simp [u, w', oneStopped])⟩
  have js : (((atTime at_ s).fmt.writes.filter fun w => w.ending.isNone && !allPlaced w).map (·.jsn)) = [w.jsn] := by
    simp [atTime, hw, hend, hall]
  change execFormationBlockTimeout at_ s = _
  rw [execFormationBlockTimeout]
  dsimp only
  rw [if_neg (by rw [hlong]; decide), js, List.foldl_cons, List.foldl_nil, stopped, afterWrites_empty (s := u) ho hc hg, settled]

/-- Settles O35: the Weighhouse's own events, and the watch over it. -/
theorem weighhouseStartsAndIsWatched : Obligations.WeighhouseStartsAndIsWatched := by
  refine ⟨?_, ?_, ?_, ?_, ?_, ?_, ?_, ?_, ?_⟩
  · exact fun s => ⟨_, rfl, rfl, rfl, rfl, rfl, rfl, rfl, rfl, rfl⟩
  · exact fun s => ⟨_, rfl, rfl, rfl, rfl, rfl, rfl, rfl, rfl, rfl⟩
  · exact fun ok s h => weighhousePowerOn_leaves ok h
  · intro s hp
    obtain ⟨a, b, shape⟩ := putStateWord_shape (fun w => { w with timeCheck := whTime s }) s
    refine ⟨putStateWord (fun w => { w with timeCheck := whTime s }) s, congrArg Host.Outcome.next (if_pos hp), ?_, ?_, ?_,
      putStateWord_meters .., by rw [shape]⟩
    · rw [stateWord_putStateWord]
    · rw [stateWord_putStateWord]
    · rw [stateWord_putStateWord]
  · intro at_ temp s hp hd
    obtain ⟨t, publishes, status, avail⟩ := whStatusPublish_takes at_ temp hp hd
    have taken : State.status (tsnTaken (stateWord s).lastTsn (takeWhStatus (atTime at_ s)))
        = ((s.whd.lifecycle, max s.aon.time at_, (stateWord s).lastTsn),
          (s.whd.copyA, s.whd.copyB, s.whd.meters, s.whd.lifecycle),
          { s.mram with tallies := s.mram.tallies.filter fun f => (stateWord s).lastTsn < f.tsn }, s.sys.phase) := by
      unfold takeWhStatus
      dsimp only
      split <;> rfl
    replace status := status.trans taken
    exact ⟨t, publishes, congrArg (·.1.2.2) status, congrArg (·.1.1) status, avail, congrArg (·.1.2.1) status,
      congrArg (·.2.2.1.tallies) status, congrArg (·.2.1.2.2.1) status⟩
  · intro at_ s ha hp hw
    obtain ⟨wh, whd, mram⟩ := weigh_blocks (((raiseN_weigh evWhUnavailable _).trans
      (setUnit_weigh unWeighhouse 1 0 (whGone (atTime at_ s)))))
    exact ⟨_, whUnavailable_notes at_ ha hp hw, by rw [wh]; rfl, by rw [wh]; rfl, by rw [wh]; rfl, by rw [wh]; rfl, whd, mram⟩
  · intro at_ s ha hms
    obtain ⟨wh, whd, mram⟩ := weigh_blocks (setUnit_weigh unWeighhouse 2 0
      { atTime at_ s with wh := { (atTime at_ s).wh with avail := 3 } })
    exact ⟨_, congrArg Host.Outcome.next (if_pos ⟨ha, hms⟩), by rw [wh], whd, mram⟩
  · intro at_ s ha ht hms
    have due : (decide ((atTime at_ s).wh.avail = 1) && !(atTime at_ s).mram.tallies.isEmpty
        && passedMs (atTime at_ s).wh.lastRise (atTime at_ s).aon.time 10) = true := by
      have some_tally : s.mram.tallies.isEmpty = false := by simpa using ht
      simp [atTime, ha, some_tally, hms]
    refine ⟨_, congrArg Host.Outcome.next (if_pos due), ?_, rfl, rfl⟩
    change (s.wh.link ++ List.map _ (s.mram.tallies.filter fun f : TallyFrame => s.wh.lastTsn < f.tsn)).length = _
    rw [List.length_append, List.length_map]
  · intro at_ s w e r hlong hw hend hi hall _ hd hf ho hc hg ha he hr hfree
    exact formationBlockTimeout_ends at_ hlong hw hend hi hall hd hf ho hc hg ha ⟨he, hr, hfree⟩

end Sys2Proof.Proofs
end

section
/-! PROOFS. What the end of a writing run leaves of PRT_EPOCH, the compatibility mode and the link (17 R429): `f_stays`. -/

namespace Sys2Proof.Machine

def State.stays (s : State) : Nat × Bool × Bool × Nat × Nat × Nat := (s.mram.prtEpoch, s.cmd.compatT4, s.cmd.compatActive, s.hif.mode, s.hif.rate, s.hif.width)

end Sys2Proof.Machine

namespace Sys2Proof.Proofs

open Sys2Proof.Machine Sys2Proof.Safety Sys2Proof.Laws

@[simp] theorem stays_mk sys hif cmd jrn ctx pkr cph fmt tec vfy hlk drv mon spm prt mem thm pwr aon wh whd mram cart mgt pending out freeCount :
    (State.mk sys hif cmd jrn ctx pkr cph fmt tec vfy hlk drv mon spm prt mem thm pwr aon wh whd mram
      cart mgt pending out freeCount).stays =
      (mram.prtEpoch, cmd.compatT4, cmd.compatActive, hif.mode, hif.rate, hif.width) := rfl

@[simp] theorem stays_fold (s : State) : (s.mram.prtEpoch, s.cmd.compatT4, s.cmd.compatActive, s.hif.mode, s.hif.rate, s.hif.width) = s.stays := rfl

@[simp] theorem foldl_stays {α : Type} {f : State → α → State} (hf : ∀ s x, (f s x).stays = s.stays) (l : List α) (s : State) :
    (l.foldl f s).stays = s.stays := by
  induction l generalizing s with
  | nil => rfl
  | cons a t ih => rw [List.foldl_cons, ih, hf]

@[simp] theorem ite_stays (c : Prop) [Decidable c] (a b : State) : (if c then a else b).stays = if c then a.stays else b.stays :=
  apply_ite State.stays c a b

theorem optMap_stays {f : State → State} (hf : ∀ s, (f s).stays = s.stays) {o : Option State} {m : Nat × Bool × Bool × Nat × Nat × Nat}
    (ho : ∀ r, o = some r → r.stays = m) (r : State) (h : o.map f = some r) : r.stays = m := by
  obtain ⟨u, hu, rfl⟩ := Option.map_eq_some_iff.1 h
  rw [hf, ho u hu]

theorem getD_stays {o : Option State} {m : Nat × Bool × Bool × Nat × Nat × Nat} (ho : ∀ r, o = some r → r.stays = m) (s : State) (hs : s.stays = m) :
    (o.getD s).stays = m := by
  cases o with
  | none => exact hs
  | some u => exact ho u rfl

/-! ### Events and buffers -/

theorem OnlyEvents.stays {s t : State} (h : OnlyEvents s t) : t.stays = s.stays := by
  obtain ⟨_, _, _, _, _, _, rfl, -⟩ := h; rfl

theorem OnlyPorter.stays {s t : State} (h : OnlyPorter s t) : t.stays = s.stays := h.elim fun _ h => h.stays

@[simp] theorem emit_stays (o : Output) (s : State) : (emit o s).stays = s.stays := (emit_onlyEvents o s).stays
@[simp] theorem drawFree_stays (s : State) : (drawFree s).stays = s.stays := rfl
@[simp] theorem msixTrigger_stays (vec : Nat) (en : Bool) (s : State) : (msixTrigger vec en s).stays = s.stays := (msixTrigger_onlyEvents vec en s).stays
@[simp] theorem hostStore_stays (addr : Nat) (l : List Byte) (s : State) : (hostStore addr l s).stays = s.stays := (hostStore_onlyEvents addr l s).stays
@[simp] theorem raise_stays (src p0 p1 : Nat) (s : State) : (raise src p0 p1 s).stays = s.stays := (raise_onlyEvents ..).stays
@[simp] theorem raiseP_stays (src p0 : Nat) (s : State) : (raiseP src p0 s).stays = s.stays := (raiseP_onlyEvents ..).stays
@[simp] theorem raiseN_stays (src : Nat) (s : State) : (raiseN src s).stays = s.stays := (raiseN_onlyEvents ..).stays
@[simp] theorem freeBuffer_stays (o : Nat) (h : Word) (s : State) : (freeBuffer o h s).stays = s.stays :=
  (freeBuffer_onlyPorter o h s).stays

@[simp] theorem setCq_stays (n : Nat) (f : CplRing → CplRing) (s : State) : (setCq n f s).stays = s.stays := by
  unfold setCq; simp
@[simp] theorem cplWrite_stays (n : Nat) (c : Completion) (s : State) : (cplWrite n c s).stays = s.stays := by
  unfold cplWrite; simp
@[simp] theorem cplPost_stays (n : Nat) (c : Completion) (s : State) : (cplPost n c s).stays = s.stays := by
  unfold cplPost; simp
@[simp] theorem mgtReturn_stays (c : Completion) (s : State) : (mgtReturn c s).stays = s.stays := by
  unfold mgtReturn; simp
@[simp] theorem postTo_stays (ring : Nat) (c : Completion) (s : State) : (postTo ring c s).stays = s.stays := by
  unfold postTo; simp
@[simp] theorem setRun_stays (jsn : Nat) (f : RunInfo → RunInfo) (s : State) : (setRun jsn f s).stays = s.stays := by
  unfold setRun; simp
@[simp] theorem setEntry_stays (jsn : Nat) (f : JournalEntry → JournalEntry) (s : State) : (setEntry jsn f s).stays =
    s.stays := by
  unfold setEntry; simp
@[simp] theorem postAccepted_stays (e : JournalEntry) (s : State) : (postAccepted e s).stays = s.stays := by
  unfold postAccepted; simp
@[simp] theorem beginFree_stays (jsn : Nat) (s : State) : (beginFree jsn s).stays = s.stays := by
  unfold beginFree; simp
@[simp] theorem setSlot_stays (t : Bool × Nat) (k : KeySlot) (s : State) : (setSlot t k s).stays = s.stays := by
  unfold setSlot; simp
@[simp] theorem freePending_stays (e : JournalEntry) (s : State) : (freePending e s).stays = s.stays := by
  unfold freePending; simp
@[simp] theorem endPhase_stays (s : State) : (endPhase s).stays = s.stays := by
  unfold endPhase; simp
@[simp] theorem replayDone_stays (s : State) : (replayDone s).stays = s.stays := by
  unfold replayDone; simp
@[simp] theorem replayEnded_stays (wasReplayed : Bool) (s : State) : (replayEnded wasReplayed s).stays = s.stays := by
  unfold replayEnded; simp
@[simp] theorem abortMissed_stays (jsn : Nat) (s : State) : (abortMissed jsn s).stays = s.stays := by
  unfold abortMissed; simp
@[simp] theorem reportFirst_stays (e : JournalEntry) (s : State) : (reportFirst e s).stays = s.stays := by
  unfold reportFirst; simp
@[simp] theorem unpin_stays (e : JournalEntry) (s : State) : (unpin e s).stays = s.stays := by
  unfold unpin; simp
@[simp] theorem retireNow_stays (e : JournalEntry) (r : RunInfo) (status : Nat) (r0 r1 : Word) (s : State) :
    (retireNow e r status r0 r1 s).stays = s.stays := by
  unfold retireNow; simp
@[simp] theorem endCommand_stays (jsn status : Nat) (r0 r1 : Word) (s : State) : (endCommand jsn status r0 r1
    s).stays = s.stays := by
  unfold endCommand; (repeat' split) <;> simp
@[simp] theorem endWith_stays (jsn status r0 r1 : Nat) (s : State) : (endWith jsn status r0 r1 s).stays = s.stays := by
  unfold endWith; simp
@[simp] theorem modLane_stays (n : Nat) (f : HlkLane → HlkLane) (s : State) : (modLane n f s).stays = s.stays := by
  unfold modLane; simp
@[simp] theorem sendBlocks_stays (lane : Nat) (l : List (BitVec 2 × Word)) (s : State) : (sendBlocks lane l s).stays = s.stays := by
  unfold sendBlocks; simp
@[simp] theorem sendFrame_stays (ftype source index : Nat) (data : List Word) (s : State) : (sendFrame ftype source index data s).stays = s.stays := by
  unfold sendFrame; (repeat' split) <;> simp
@[simp] theorem sendControl_stays (ftype : Nat) (data : List Word) (s : State) : (sendControl ftype data s).stays = s.stays := by
  unfold sendControl; simp
@[simp] theorem setPool_stays (p : Nat) (f : Pool → Pool) (s : State) : (setPool p f s).stays = s.stays := by
  unfold setPool; simp
@[simp] theorem setBuf_stays (p i : Nat) (b : BufRec) (s : State) : (setBuf p i b s).stays = s.stays := by
  unfold setBuf; simp
@[simp] theorem takeBuf_stays (p owner : Nat) (s : State) : (takeBuf p owner s).2.stays = s.stays := by
  unfold takeBuf; simp
theorem porterTry_stays (owner size : Nat) (s : State) (q : (Word × State)) (hr : porterTry owner size s = some q) :
    q.2.stays = s.stays := by
  unfold porterTry at hr; dsimp only at hr; split at hr
  · cases hr; rw [takeBuf_stays]; split <;> rfl
  · cases hr
@[simp] theorem setCtx_stays (n : Nat) (f : Context → Context) (s : State) : (setCtx n f s).stays = s.stays := by
  unfold setCtx; simp
@[simp] theorem burnIv_stays (n : Nat) (s : State) : (burnIv n s).stays = s.stays := by
  unfold burnIv; simp
@[simp] theorem writeGate_stays (on : Bool) (s : State) : (writeGate on s).stays = s.stays := by
  unfold writeGate; simp
@[simp] theorem modCart_stays (f : Cartridge → Cartridge) (s : State) : (modCart f s).stays = s.stays := by
  unfold modCart; simp
@[simp] theorem cutEnd_stays (p n : Nat) (s : State) : (cutEnd p n s).stays = s.stays := by
  unfold cutEnd; simp
theorem openDataset_stays (p : Nat) (s : State) (q : State) (hr : openDataset p s = some q) : q.stays = s.stays := by
  unfold openDataset at hr; split at hr
  · cases hr
  · split at hr
    · cases hr
    · rename_i heq
      have := porterTry_stays _ _ _ _ heq
      cases hr; simpa using this
@[simp] theorem parkOpened_stays (s : State) : (parkOpened s).stays = s.stays := by
  unfold parkOpened; (repeat' split) <;> simp
@[simp] theorem modOpened_stays (f : OpenDataset → OpenDataset) (s : State) : (modOpened f s).stays = s.stays := by
  unfold modOpened; simp
@[simp] theorem setWrite_stays (jsn : Nat) (f : WriteRun → WriteRun) (s : State) : (setWrite jsn f s).stays = s.stays
    := by
  unfold setWrite; simp
theorem putFrameBytes_stays (n : Nat) (meter : Option Nat) (w : WriteRun) (first : Nat) (s : State) (q : State) (hr
    : putFrameBytes n meter w first s = some q) : q.stays = s.stays := by
  unfold putFrameBytes at hr; split at hr
  · cases hr
  · dsimp only at hr; split at hr
    · cases hr; simp
    · refine optMap_stays (fun _ => by simp) (fun r h => ?_) q hr
      have := openDataset_stays _ _ _ h; simpa using this
@[simp] theorem noteDone_stays (jsn : Nat) (s : State) : (noteDone jsn s).stays = s.stays := by
  unfold noteDone; (repeat' split) <;> simp
@[simp] theorem sealOpen_stays (ctx : Nat) (s : State) : (sealOpen ctx s).stays = s.stays := by
  unfold sealOpen; (repeat' split) <;> simp
theorem closeFrame_stays (s : State) (q : State) (hr : closeFrame s = some q) : q.stays = s.stays := by
  unfold closeFrame at hr; split at hr
  · cases hr; rfl
  · split at hr
    · cases hr; rfl
    · dsimp only at hr; split at hr
      · cases hr; simp
      · exact optMap_stays (fun _ => by simp) (fun r h => putFrameBytes_stays _ _ _ _ _ _ h) q hr
theorem closeDataset_stays (s : State) (q : State) (hr : closeDataset s = some q) : q.stays = s.stays := by
  unfold closeDataset at hr; split at hr
  · cases hr
  · rename_i heq
    have := closeFrame_stays _ _ heq
    split at hr <;> cases hr <;> simp [this]
@[simp] theorem closeOpen_stays (s : State) : (closeOpen s).stays = s.stays := getD_stays (fun r h => closeDataset_stays
    _ _ h) _ rfl
@[simp] theorem noteSeq_stays (seq : Nat) (marks : List (Nat × Nat)) (s : State) : (noteSeq seq marks s).stays =
    s.stays := by
  unfold noteSeq; simp
@[simp] theorem formWith_stays (ds : Dataset) (w : WrittenDataset) (s : State) : (formWith ds w s).stays = s.stays := by
  unfold formWith; simp
@[simp] theorem closeGroup_stays (p : Nat) (s : State) : (closeGroup p s).stays = s.stays := by
  unfold closeGroup; simp
@[simp] theorem joinGroup_stays (p : Nat) (trunc : Bool) (s : State) : (joinGroup p trunc s).2.2.stays = s.stays := by
  unfold joinGroup; dsimp only; (repeat' split) <;> simp
@[simp] theorem formData_stays (o : OpenDataset) (s : State) : (formData o s).stays = s.stays := by
  unfold formData; simp
theorem formBare_stays (ds : Dataset) (s : State) (q : State) (hr : formBare ds s = some q) : q.stays = s.stays := by
  unfold formBare at hr; split at hr
  · cases hr
  · cases hp : porterTry 6 8388608 s with
    | none => rw [hp] at hr; cases hr
    | some p => rw [hp] at hr; cases hr; exact porterTry_stays _ _ _ _ hp
theorem formParity_stays (g : C3Group) (y0 : Nat) (s : State) (q : State) (hr : formParity g y0 s = some q) : q.stays
    = s.stays := by
  induction y0 generalizing s with
  | zero => unfold formParity at hr; cases hr; rfl
  | succ n ih =>
    unfold formParity at hr; dsimp only at hr; split at hr
    · cases hr
    · rename_i heq; rw [ih _ hr, formBare_stays _ _ _ heq]
@[simp] theorem formNext_stays (y0 : Nat) (s : State) : (formNext y0 s).stays = s.stays := by
  induction y0 generalizing s with
  | zero => rfl
  | succ n ih =>
    unfold formNext; split
    · split
      · rename_i heq; rw [ih, formParity_stays _ _ _ _ heq]
      · rfl
    · split
      · rfl
      · split
        · rw [ih]; simp
        · rfl
@[simp] theorem formAll_stays (s : State) : (formAll s).stays = s.stays := by
  unfold formAll; simp
@[simp] theorem putInRun_stays (d : Dataset) (s : State) : (putInRun d s).stays = s.stays := by
  unfold putInRun; simp
@[simp] theorem markRetried_stays (jsn : Nat) (s : State) : (markRetried jsn s).stays = s.stays := by
  unfold markRetried; simp
@[simp] theorem finishWrite_stays (w : WriteRun) (st : Nat) (r1 : Nat) (s : State) : (finishWrite w st r1 s).stays =
    s.stays := by
  unfold finishWrite; (repeat' split) <;> simp
@[simp] theorem settleWrite_stays (s : State) (jsn : Nat) : (settleWrite s jsn).stays = s.stays := by
  unfold settleWrite; (repeat' split) <;> simp
@[simp] theorem settleWrites_stays (s : State) : (settleWrites s).stays = s.stays := by
  unfold settleWrites; simp
@[simp] theorem flushOpen_stays (s : State) : (flushOpen s).stays = s.stays := by
  unfold flushOpen; dsimp only; (repeat' split) <;> simp
@[simp] theorem afterWrites_stays (s : State) : (afterWrites s).stays = s.stays := by
  unfold afterWrites; simp
@[simp] theorem retractEvent_stays (jsn seq p reason : Nat) (repl : Bool) (s : State) : (retractEvent jsn seq p
    reason repl s).stays = s.stays := by
  unfold retractEvent; simp
@[simp] theorem retract_stays (d : WrittenDataset) (reason : Nat) (s : State) : (retract d reason s).stays = s.stays
    := by
  unfold retract; simp
@[simp] theorem dropDataset_stays (d : WrittenDataset) (s : State) : (dropDataset d s).stays = s.stays := by
  unfold dropDataset; simp
@[simp] theorem dropAssembled_stays (p : Nat) (s : State) : (dropAssembled p s).stays = s.stays := by
  unfold dropAssembled; simp
@[simp] theorem setActive_stays (seq : Nat) (f : WrittenDataset → WrittenDataset) (s : State) : (setActive seq f
    s).stays = s.stays := by
  unfold setActive; simp
@[simp] theorem renameMarks_stays (old new : Nat) (s : State) : (renameMarks old new s).stays = s.stays := by
  unfold renameMarks; simp
@[simp] theorem layDown_stays (d : WrittenDataset) (reason : Nat) (s : State) : (layDown d reason s).stays = s.stays
    := by
  unfold layDown; simp
@[simp] theorem replaceDataset_stays (d : WrittenDataset) (s : State) : (replaceDataset d s).stays = s.stays := by
  unfold replaceDataset; simp
@[simp] theorem truncateAway_stays (s : State) (d : WrittenDataset) : (truncateAway s d).stays = s.stays := by
  unfold truncateAway; simp
@[simp] theorem failFrom_stays (p n : Nat) (s : State) : (failFrom p n s).stays = s.stays := by
  unfold failFrom; simp
@[simp] theorem endRunSoon_stays (s : State) : (endRunSoon s).stays = s.stays := by
  unfold endRunSoon; simp
@[simp] theorem lastingFailure_stays (d : WrittenDataset) (s : State) : (lastingFailure d s).stays = s.stays := by
  unfold lastingFailure; simp
@[simp] theorem wholeRewrite_stays (seq : Nat) (s : State) : (wholeRewrite seq s).stays = s.stays := by
  unfold wholeRewrite; (repeat' split) <;> simp
@[simp] theorem countFail_stays (margin : Bool) (track : Nat) (s : State) : (countFail margin track s).stays = s.stays
    := by
  unfold countFail; simp
@[simp] theorem failFirst_stays (seq m track : Nat) (margin : Bool) (s : State) : (failFirst seq m track margin
    s).stays = s.stays := by
  unfold failFirst; simp
@[simp] theorem failCopy_stays (f : FailedCw) (c : Nat) (s : State) : (failCopy f c s).stays = s.stays := by
  unfold failCopy; simp
@[simp] theorem failSlots_stays (seq : Nat) (p : Nat → Bool) (s : State) : (failSlots seq p s).stays = s.stays := by
  unfold failSlots; refine foldl_stays (fun s x => ?_) _ _; split
  · rfl
  · split <;> simp
@[simp] theorem failCopies_stays (seq : Nat) (p : Nat → Bool) (s : State) : (failCopies seq p s).stays = s.stays := by
  unfold failCopies; refine foldl_stays (fun s x => ?_) _ _; split <;> simp
@[simp] theorem failWindow_stays (seq lo hi : Nat) (s : State) : (failWindow seq lo hi s).stays = s.stays := by
  unfold failWindow; simp
@[simp] theorem finishRun_stays (p : Nat) (s : State) : (finishRun p s).stays = s.stays := by
  unfold finishRun; simp
@[simp] theorem interruptRun_stays (s : State) : (interruptRun s).stays = s.stays := by
  unfold interruptRun; dsimp only; (repeat' split) <;> simp

end Sys2Proof.Proofs
end

section
/-! PROOFS. Trips, supply loss, power-on and the resets (15 R388-R391, R399, R400, 17 R428-R430, R473, 14 R362). -/

namespace Sys2Proof.Proofs

open Sys2Proof.Machine Sys2Proof.Safety Sys2Proof.Laws

variable {s : State}

/-! ### Power events -/

theorem powerDown_meters (s : State) : (powerDown s).whd.meters = s.whd.meters := congrArg (·.1) (powerDown_kept s)

/-- The state that a trip of a die with its supplies leaves. -/
theorem thermalTrip_leaves (at_ : Nat) (hon : s.sys.phase ≠ .off) :
    ∃ t, exec (.thermalTrip at_) s = .next t ∧ t.sys.phase = .off ∧ t.aon.tripLatch = true ∧ t.aon.tripped = true
      ∧ t.aon.trips = sat64 s.aon.trips 1 ∧ t.aon.coreEn = false ∧ t.aon.hbmEn = false ∧ t.aon.reelEn = false ∧ t.aon.brake = true
      ∧ t.aon.time = max s.aon.time at_ ∧ t.whd.meters = s.whd.meters := by
  have stillOn : (atTime at_ s).sys.phase ≠ .off := hon
  change ∃ t, execThermalTrip at_ s = .next t ∧ _
  simp only [execThermalTrip, if_neg stillOn, powerDown_aon]
  exact ⟨_, rfl, rfl, rfl, rfl, rfl, rfl, rfl, rfl, rfl, rfl, powerDown_meters (atTime at_ s)⟩

/-- The state that a loss of the core supply leaves. -/
theorem supplyLoss_leaves (s : State) :
    ∃ t, exec .supplyLoss s = .next t ∧ t.sys.phase = .off ∧ t.aon.supplyLatch = true ∧ t.aon.supplyOk = false
      ∧ t.aon.time = s.aon.time ∧ t.whd.meters = s.whd.meters
      ∧ (s.sys.phase ≠ .off → t.aon.reelEn = false ∧ t.aon.brake = true) := by
  change ∃ t, execSupplyLoss s = .next t ∧ _
  by_cases hoff : s.sys.phase = .off
  · simp only [execSupplyLoss, if_pos hoff]
    exact ⟨_, rfl, hoff, rfl, rfl, rfl, rfl, fun h => absurd hoff h⟩
  · simp only [execSupplyLoss, if_neg hoff, powerDown_aon]
    exact ⟨_, rfl, rfl, rfl, rfl, rfl, powerDown_meters s, fun _ => ⟨rfl, rfl⟩⟩

/-- WH_TIME goes on where device time begins anew. -/
theorem whTime_restart {t : State} (htime : t.whd.time = whTime s) (hfrom : t.whd.timeFrom = 0) (hzero : t.aon.time = 0) :
    whTime t = whTime s := by
  rw [whTime, htime, hfrom, hzero, Nat.sub_self, Nat.zero_mul, Nat.zero_div, Nat.add_zero]

/-- Settles O37: each event and start as its rule says. -/
theorem powerEventsAndStarts : Obligations.PowerEventsAndStarts := by
  refine ⟨fun at_ s => thermalTrip_leaves at_, supplyLoss_leaves, fun at_ s hoff htrip hauto => ?_, fun s hoff hstart => ?_⟩
  · have restarts : ¬ (decide ((atTime at_ s).sys.phase ≠ .off) || !(atTime at_ s).aon.tripped || (atTime at_ s).aon.autoOff) = true := by
      simp [atTime, hoff, htrip, hauto]
    change ∃ t, execTripRestart at_ s = .next t ∧ _
    simp only [execTripRestart, if_neg restarts]
    exact ⟨_, rfl, rfl, rfl, rfl, rfl, rfl, rfl, rfl, rfl, rfl, rfl, rfl⟩
  · have starts : ¬ (decide (s.sys.phase ≠ .off) || (s.aon.tripped && !s.aon.autoOff)) = true := by
      obtain h | h := hstart
      · simp [hoff, h]
      · simp [hoff, h]
    change ∃ t, execPowerOn s = .next t ∧ _
    simp only [execPowerOn, if_neg starts]
    exact ⟨_, rfl, rfl, rfl, rfl, rfl, rfl, rfl, rfl, rfl, rfl, whTime_restart rfl rfl rfl, rfl, rfl, rfl⟩

/-! ### What an interruption leaves -/

@[simp] theorem strike_stays (s : State) : (strike s).stays = s.stays := interruptRun_stays s

@[simp] theorem endEntry_stays (cause : Nat) (s : State) : (endEntry cause s).stays = s.stays := by
  obtain ⟨l, shape, -⟩ := endEntry_shape cause s
  rw [shape]; rfl

/-- The formatter die as an interruption leaves it, once the boot's entry has ended. -/
def struck (cause : Nat) (s : State) : State := strike (endEntry cause s)

theorem struck_stays (cause : Nat) (s : State) : (struck cause s).stays = s.stays := (strike_stays _).trans (endEntry_stays ..)

theorem struck_aon (cause : Nat) (s : State) : (struck cause s).aon = s.aon := (strike_aon _).trans (endEntry_aon ..)

/-- With no writing run only the journal is scanned. -/
theorem struck_records (cause : Nat) (h : s.fmt.run = none) : (struck cause s).ctx.records = s.ctx.records := by
  obtain ⟨l, shape, -⟩ := endEntry_shape cause s
  have still : interruptRun (endEntry cause s) = endEntry cause s := by
    rw [interruptRun, shape]
    change (match s.fmt.run with | none => _ | some _ => _) = _
    rw [h]
  rw [struck, strike, still, shape]
  rfl

/-! ### Warm resets -/

/-- What a warm reset leaves that the journal's scan does not bear on. -/
theorem warmReset_leaves (down : Bool) (source : Nat) (s : State) :
    (warmReset down source s).sys.phase = .stepOne ∧ (warmReset down source s).sys.kind = 2
      ∧ (warmReset down source s).sys.ready = false ∧ (warmReset down source s).sys.source = source
      ∧ (warmReset down source s).prt = .reset ∧ (warmReset down source s).mram.prtEpoch = (s.mram.prtEpoch + 1) % 65536
      ∧ (warmReset down source s).pwr = .reset ∧ (warmReset down source s).aon = s.aon ∧ (warmReset down source s).ctx.pins = [] := by
  have epoch : (struck 1 s).mram.prtEpoch = s.mram.prtEpoch := congrArg (·.1) (struck_stays 1 s)
  refine ⟨rfl, rfl, rfl, rfl, rfl, ?_, rfl, struck_aon 1 s, rfl⟩
  rw [← epoch]; rfl

/-- A link that goes down is reset, one that stays keeps its mode. -/
theorem warmReset_hif (down : Bool) (source : Nat) (s : State) :
    (warmReset down source s).hif
      = if down then .reset else { Hif.reset with mode := s.hif.mode, rate := s.hif.rate, width := s.hif.width } := by
  have mode : (struck 1 s).hif.mode = s.hif.mode := congrArg (·.2.2.2.1) (struck_stays 1 s)
  have rate : (struck 1 s).hif.rate = s.hif.rate := congrArg (·.2.2.2.2.1) (struck_stays 1 s)
  have width : (struck 1 s).hif.width = s.hif.width := congrArg (·.2.2.2.2.2) (struck_stays 1 s)
  rw [← mode, ← rate, ← width]; rfl

theorem warmReset_cmd (down : Bool) (source : Nat) (s : State) :
    (warmReset down source s).cmd = { Cmd.reset with compatT4 := s.cmd.compatT4, compatActive := s.cmd.compatActive } := by
  have t4 : (struck 1 s).cmd.compatT4 = s.cmd.compatT4 := congrArg (·.2.1) (struck_stays 1 s)
  have active : (struck 1 s).cmd.compatActive = s.cmd.compatActive := congrArg (·.2.2.1) (struck_stays 1 s)
  rw [← t4, ← active]; rfl

/-- A context without its history. -/
def withoutHistory (c : Context) : Context := { c with dict := 0 }

theorem warmReset_records (down : Bool) (source : Nat) (s : State) :
    (warmReset down source s).ctx.records
      = ((struck 1 s).ctx.records.map fun p => (p.1, withoutHistory p.2)).filter fun p => decide (p.2 ≠ Context.zero) := rfl

theorem warmReset_histories (down : Bool) (source : Nat) (s : State) : ∀ p ∈ (warmReset down source s).ctx.records, p.2.dict = 0 := by
  intro p hp
  rw [warmReset_records] at hp
  obtain ⟨q, -, rfl⟩ := List.mem_map.1 (List.mem_filter.1 hp).1
  rfl

/-- An open context stays, without a history. -/
theorem warmReset_context (down : Bool) (source : Nat) (hrun : s.fmt.run = none) (x : Nat) (hx : (getCtx x s).isOpen = true) :
    getCtx x (warmReset down source s) = { getCtx x s with dict := 0 } := by
  have stays : withoutHistory (tabGet .zero s.ctx.records x) ≠ .zero := fun h =>
    absurd ((congrArg Context.isOpen h).symm.trans hx) (by decide)
  rw [getCtx, warmReset_records, struck_records 1 hrun, tabGet_filter_map rfl stays]
  rfl

/-- The state after a warm reset of a running device. -/
theorem warmReset_result (down : Bool) (source : Nat) (s : State) :
    (warmReset down source s).sys.phase = .stepOne ∧ (warmReset down source s).sys.kind = 2
      ∧ (warmReset down source s).sys.ready = false ∧ (warmReset down source s).sys.source = source
      ∧ (warmReset down source s).hif
        = (if down then .reset else { Hif.reset with mode := s.hif.mode, rate := s.hif.rate, width := s.hif.width })
      ∧ (warmReset down source s).cmd = { Cmd.reset with compatT4 := s.cmd.compatT4, compatActive := s.cmd.compatActive }
      ∧ (warmReset down source s).prt = .reset ∧ (warmReset down source s).mram.prtEpoch = (s.mram.prtEpoch + 1) % 65536
      ∧ (warmReset down source s).pwr = .reset ∧ (warmReset down source s).aon = s.aon
      ∧ (∀ p ∈ (warmReset down source s).ctx.records, p.2.dict = 0) ∧ (warmReset down source s).ctx.pins = []
      ∧ (s.fmt.run = none → ∀ x, (getCtx x s).isOpen = true →
          getCtx x (warmReset down source s) = { getCtx x s with dict := 0 }) := by
  obtain ⟨phase, kind, ready, src, prt, epoch, pwr, aon, pins⟩ := warmReset_leaves down source s
  exact ⟨phase, kind, ready, src, warmReset_hif .., warmReset_cmd .., prt, epoch, pwr, aon, warmReset_histories down source s, pins,
    fun hno x hx => warmReset_context down source hno x hx⟩

/-! ### Cold resets -/

/-- What a start other than a warm reset leaves, before the tape is at rest. -/
def cleared (source : Nat) (s : State) : State := setCause 1 source (clearCold (struck 1 s))

theorem coldReset_eq (source : Nat) (s : State) :
    coldReset source s = if tapeMoves s then coldStop s (cleared source s)
      else toStepOne { cleared source s with aon := { (cleared source s).aon with reelEn := false, brake := true } } := rfl

theorem keepTruncs_epoch (s : State) : (keepTruncs s).mram.prtEpoch = s.mram.prtEpoch := by
  unfold keepTruncs
  split
  · split
    · rfl
    · rfl
  · rfl

theorem cleared_epoch (source : Nat) (s : State) : (cleared source s).mram.prtEpoch = (s.mram.prtEpoch + 1) % 65536 := by
  have epoch : (keepTruncs (struck 1 s)).mram.prtEpoch = s.mram.prtEpoch :=
    (keepTruncs_epoch _).trans (congrArg (·.1) (struck_stays 1 s))
  rw [← epoch]; rfl

theorem cleared_aon (source : Nat) (s : State) : (cleared source s).aon = s.aon := (clearCold_aon _).trans (struck_aon 1 s)

/-- The loops alone take their values for the stop. -/
theorem setLoop_shape (n : Nat) (f : Loop → Loop) (s : State) : ∃ d, setLoop n f s = { s with drv := d } := ⟨_, rfl⟩

theorem stopCurrents_shape (s : State) : ∃ d, stopCurrents s = { s with drv := d } := by
  unfold stopCurrents
  refine List.foldlRecOn (motive := fun t : State => ∃ d, t = { s with drv := d }) _ _ ⟨_, rfl⟩ fun t h i _ => ?_
  obtain ⟨d, rfl⟩ := h
  split
  · exact ⟨_, rfl⟩
  · exact ⟨_, rfl⟩

/-- A cold reset of a moving tape brings it to rest first. -/
theorem coldStop_leaves (old s : State) :
    (coldStop old s).sys.phase = .coldStop ∧ (coldStop old s).sys.kind = s.sys.kind ∧ (coldStop old s).sys.source = s.sys.source
      ∧ (coldStop old s).sys.ready = s.sys.ready ∧ (coldStop old s).mon.inhibit = true ∧ (coldStop old s).drv.safeStop = true
      ∧ (coldStop old s).ctx = s.ctx ∧ (coldStop old s).prt = s.prt ∧ (coldStop old s).mram = s.mram := by
  unfold coldStop
  dsimp only
  obtain ⟨d, stopped⟩ := stopCurrents_shape (stopLoop false { s with
    drv := old.drv
    mon := { old.mon with
      inhibit := true, inhSrc := old.mon.inhSrc ||| 8, safeCause := causeCold, openLoop := false, slowFrom := none } })
  rw [stopped]
  split
  · exact ⟨rfl, rfl, rfl, rfl, rfl, rfl, rfl, rfl, rfl⟩
  · exact ⟨rfl, rfl, rfl, rfl, rfl, rfl, rfl, rfl, rfl⟩

/-- A tape at rest. -/
theorem tapeMoves_rest (hstep : s.sys.step = 0x1F) (hspeed : s.mon.speed = 0) : tapeMoves s = false := by
  simp [tapeMoves, hstep, hspeed]

theorem coldReset_rest (source : Nat) (h : tapeMoves s = false) :
    (coldReset source s).sys.phase = .stepOne ∧ (coldReset source s).sys.kind = 1 ∧ (coldReset source s).sys.source = source
      ∧ (coldReset source s).sys.ready = false ∧ (coldReset source s).hif = .reset ∧ (coldReset source s).cmd = .reset
      ∧ (coldReset source s).ctx = .reset ∧ (coldReset source s).prt = .reset
      ∧ (coldReset source s).mram.prtEpoch = (s.mram.prtEpoch + 1) % 65536
      ∧ (coldReset source s).aon.reelEn = false ∧ (coldReset source s).aon.brake = true
      ∧ (coldReset source s).aon.time = s.aon.time ∧ (coldReset source s).cart.loaded = false := by
  rw [coldReset_eq, if_neg (by rw [h]; decide)]
  exact ⟨rfl, rfl, rfl, rfl, rfl, rfl, rfl, rfl, cleared_epoch source s, rfl, rfl, (congrArg Aon.time (cleared_aon source s) :), rfl⟩

/-- Settles O38: warm and cold resets, and the end of a stop. -/
theorem resetsLeaveStateOfTables : Obligations.ResetsLeaveStateOfTables := by
  refine ⟨?_, ?_, ?_, ?_, ?_, ?_, ?_, ?_⟩
  · intro c s hrun
    have resets : exec (.warmReset c) s = .next (match c with
        | .flr => warmReset false 4 s
        | .hotReset => warmReset true 5 s
        | .dlDown => warmReset true 6 s) := congrArg Host.Outcome.next (if_neg (not_not.2 hrun))
    refine ⟨_, resets, ?_⟩
    cases c
    · exact warmReset_result false 4 s
    · exact warmReset_result true 5 s
    · exact warmReset_result true 6 s
  · intro s hopen hready _
    obtain ⟨phase, kind, ready, source, prt, epoch, -, aon, -⟩ := warmReset_leaves false 2 s
    exact ⟨_, congrArg Host.Outcome.next ((onMmio_of_open hopen _).trans (if_pos hready)), phase, kind, source, ready, prt, epoch, aon⟩
  · intro s hready
    have ignored (t : State) : Host.Outcome.next (onMmio s (if s.sys.ready then t else s)) = (.next s : Out) := by
      rw [hready, if_neg (by decide), onMmio, ite_self]
    exact ⟨ignored _, ignored _⟩
  · intro s hopen hready hstep hspeed
    exact ⟨_, congrArg Host.Outcome.next ((onMmio_of_open hopen _).trans (if_pos hready)), coldReset_rest 2 (tapeMoves_rest hstep hspeed)⟩
  · intro s hopen hready hmoves
    have moves : tapeMoves s = true := by
      obtain h | h := hmoves
      · simp [tapeMoves, h]
      · simp [tapeMoves, h]
    obtain ⟨phase, kind, source, ready, inhibit, stop, ctx, prt, mram⟩ := coldStop_leaves s (cleared 2 s)
    exact ⟨_, congrArg Host.Outcome.next ((onMmio_of_open hopen _).trans ((if_pos hready).trans ((coldReset_eq 2 s).trans (if_pos moves)))),
      phase, kind, source, ready, inhibit, stop, ctx, prt, by rw [mram]; exact cleared_epoch 2 s⟩
  · intro s hen hrun hstep hspeed
    obtain ⟨phase, kind, source, ready, -, cmd, ctx, prt, -, -, -, -, cart⟩ := coldReset_rest 1 (tapeMoves_rest hstep hspeed)
    exact ⟨_, congrArg Host.Outcome.next (if_pos ⟨hen, hrun⟩), phase, kind, source, ready, cmd, ctx, prt, cart⟩
  · intro s hen
    exact congrArg Host.Outcome.next (if_neg fun h => by rw [hen] at h; exact absurd h.1 (by decide))
  · intro at_ s hph hend
    have due : ¬ (decide ((atTime at_ s).sys.phase ≠ .coldStop)
        || !((match (atTime at_ s).mon.slowFrom with | some t => passedMs t (atTime at_ s).aon.time 100 | none => false)
          || passedMs (atTime at_ s).sys.stopBegan (atTime at_ s).aon.time 2200)) = true := by
      obtain ⟨x, hx, hpassed⟩ | h := hend
      · simp [atTime, hph, hx, hpassed]
      · simp [atTime, hph, h]
    change ∃ t, execColdResetStopEnd at_ s = .next t ∧ _
    refine ⟨_, congrArg Host.Outcome.next (if_neg due), rfl, rfl, rfl, rfl, rfl, rfl, rfl, rfl, rfl, rfl⟩

end Sys2Proof.Proofs
end

section
/-! PROOFS. What the parts of the start-up sequence and of replay leave of the start's cause, its ledger entry and its epoch (17 R431): `f_boot`;
and of the always-on domain (`f_aon`). -/

namespace Sys2Proof.Machine

def State.boot (s : State) : BootPhase × Bool × Nat × Nat × BitVec 32 × Bool × Bool × Bool × Nat × Weighhouse := (s.sys.phase,
    s.sys.ready, s.sys.readyAt, s.sys.kind, s.sys.subsysId, s.mram.cleanMark, s.wh.romPhase, s.wh.epochValid, s.wh.epoch, s.whd)

end Sys2Proof.Machine

namespace Sys2Proof.Proofs

open Sys2Proof.Machine Sys2Proof.Safety Sys2Proof.Laws

@[simp] theorem boot_mk sys hif cmd jrn ctx pkr cph fmt tec vfy hlk drv mon spm prt mem thm pwr aon wh whd mram cart mgt pending out freeCount :
    (State.mk sys hif cmd jrn ctx pkr cph fmt tec vfy hlk drv mon spm prt mem thm pwr aon wh whd mram
      cart mgt pending out freeCount).boot =
      (sys.phase, sys.ready, sys.readyAt, sys.kind, sys.subsysId, mram.cleanMark, wh.romPhase, wh.epochValid, wh.epoch, whd) :=
          rfl

@[simp] theorem boot_fold (s : State) : (s.sys.phase, s.sys.ready, s.sys.readyAt, s.sys.kind, s.sys.subsysId, s.mram.cleanMark,
    s.wh.romPhase, s.wh.epochValid, s.wh.epoch, s.whd) = s.boot := rfl

@[simp] theorem foldl_boot {α : Type} {f : State → α → State} (hf : ∀ s x, (f s x).boot = s.boot) (l : List α) (s : State) :
    (l.foldl f s).boot = s.boot := by
  induction l generalizing s with
  | nil => rfl
  | cons a t ih => rw [List.foldl_cons, ih, hf]

@[simp] theorem ite_boot (c : Prop) [Decidable c] (a b : State) : (if c then a else b).boot = if c then a.boot else b.boot :=
  apply_ite State.boot c a b

theorem optMap_boot {f : State → State} (hf : ∀ s, (f s).boot = s.boot) {o : Option State} {m : BootPhase × Bool × Nat × Nat ×
    BitVec 32 × Bool × Bool × Bool × Nat × Weighhouse}
    (ho : ∀ r, o = some r → r.boot = m) (r : State) (h : o.map f = some r) : r.boot = m := by
  obtain ⟨u, hu, rfl⟩ := Option.map_eq_some_iff.1 h
  rw [hf, ho u hu]

theorem getD_boot {o : Option State} {m : BootPhase × Bool × Nat × Nat × BitVec 32 × Bool × Bool × Bool × Nat × Weighhouse}
    (ho : ∀ r, o = some r → r.boot = m) (s : State) (hs : s.boot = m) :
    (o.getD s).boot = m := by
  cases o with
  | none => exact hs
  | some u => exact ho u rfl

/-! ### Events and buffers -/

theorem OnlyEvents.boot {s t : State} (h : OnlyEvents s t) : t.boot = s.boot := by
  obtain ⟨_, _, _, _, _, _, rfl, -⟩ := h; rfl

theorem OnlyPorter.boot {s t : State} (h : OnlyPorter s t) : t.boot = s.boot := h.elim fun _ h => h.boot

@[simp] theorem emit_boot (o : Output) (s : State) : (emit o s).boot = s.boot := (emit_onlyEvents o s).boot
@[simp] theorem drawFree_boot (s : State) : (drawFree s).boot = s.boot := rfl
@[simp] theorem msixTrigger_boot (vec : Nat) (en : Bool) (s : State) : (msixTrigger vec en s).boot = s.boot := (msixTrigger_onlyEvents vec en s).boot
@[simp] theorem hostStore_boot (addr : Nat) (l : List Byte) (s : State) : (hostStore addr l s).boot = s.boot := (hostStore_onlyEvents addr l s).boot
@[simp] theorem raise_boot (src p0 p1 : Nat) (s : State) : (raise src p0 p1 s).boot = s.boot := (raise_onlyEvents ..).boot
@[simp] theorem raiseP_boot (src p0 : Nat) (s : State) : (raiseP src p0 s).boot = s.boot := (raiseP_onlyEvents ..).boot
@[simp] theorem raiseN_boot (src : Nat) (s : State) : (raiseN src s).boot = s.boot := (raiseN_onlyEvents ..).boot
@[simp] theorem freeBuffer_boot (o : Nat) (h : Word) (s : State) : (freeBuffer o h s).boot = s.boot :=
  (freeBuffer_onlyPorter o h s).boot

@[simp] theorem setCq_boot (n : Nat) (f : CplRing → CplRing) (s : State) : (setCq n f s).boot = s.boot := by
  unfold setCq; simp
@[simp] theorem cplWrite_boot (n : Nat) (c : Completion) (s : State) : (cplWrite n c s).boot = s.boot := by
  unfold cplWrite; simp
@[simp] theorem cplPost_boot (n : Nat) (c : Completion) (s : State) : (cplPost n c s).boot = s.boot := by
  unfold cplPost; simp
@[simp] theorem mgtReturn_boot (c : Completion) (s : State) : (mgtReturn c s).boot = s.boot := by
  unfold mgtReturn; simp
@[simp] theorem postTo_boot (ring : Nat) (c : Completion) (s : State) : (postTo ring c s).boot = s.boot := by
  unfold postTo; simp
@[simp] theorem setRun_boot (jsn : Nat) (f : RunInfo → RunInfo) (s : State) : (setRun jsn f s).boot = s.boot := by
  unfold setRun; simp
@[simp] theorem setEntry_boot (jsn : Nat) (f : JournalEntry → JournalEntry) (s : State) : (setEntry jsn f s).boot =
    s.boot := by
  unfold setEntry; simp
@[simp] theorem postAccepted_boot (e : JournalEntry) (s : State) : (postAccepted e s).boot = s.boot := by
  unfold postAccepted; simp
@[simp] theorem beginFree_boot (jsn : Nat) (s : State) : (beginFree jsn s).boot = s.boot := by
  unfold beginFree; simp
@[simp] theorem setSlot_boot (t : Bool × Nat) (k : KeySlot) (s : State) : (setSlot t k s).boot = s.boot := by
  unfold setSlot; simp
@[simp] theorem freePending_boot (e : JournalEntry) (s : State) : (freePending e s).boot = s.boot := by
  unfold freePending; simp
@[simp] theorem endPhase_boot (s : State) : (endPhase s).boot = s.boot := by
  unfold endPhase; simp
@[simp] theorem replayDone_boot (s : State) : (replayDone s).boot = s.boot := by
  unfold replayDone; simp
@[simp] theorem replayEnded_boot (wasReplayed : Bool) (s : State) : (replayEnded wasReplayed s).boot = s.boot := by
  unfold replayEnded; simp
@[simp] theorem abortMissed_boot (jsn : Nat) (s : State) : (abortMissed jsn s).boot = s.boot := by
  unfold abortMissed; simp
@[simp] theorem reportFirst_boot (e : JournalEntry) (s : State) : (reportFirst e s).boot = s.boot := by
  unfold reportFirst; simp
@[simp] theorem unpin_boot (e : JournalEntry) (s : State) : (unpin e s).boot = s.boot := by
  unfold unpin; simp
@[simp] theorem retireNow_boot (e : JournalEntry) (r : RunInfo) (status : Nat) (r0 r1 : Word) (s : State) :
    (retireNow e r status r0 r1 s).boot = s.boot := by
  unfold retireNow; simp
@[simp] theorem endCommand_boot (jsn status : Nat) (r0 r1 : Word) (s : State) : (endCommand jsn status r0 r1
    s).boot = s.boot := by
  unfold endCommand; (repeat' split) <;> simp
@[simp] theorem endWith_boot (jsn status r0 r1 : Nat) (s : State) : (endWith jsn status r0 r1 s).boot = s.boot := by
  unfold endWith; simp
@[simp] theorem modUnit_boot (u : Nat) (f : SysUnit → SysUnit) (s : State) : (modUnit u f s).boot = s.boot := by
  unfold modUnit; simp
@[simp] theorem setUnit_boot (u st cause : Nat) (s : State) : (setUnit u st cause s).boot = s.boot := by
  unfold setUnit; simp
@[simp] theorem addTransient_boot (u : Nat) (s : State) : (addTransient u s).boot = s.boot := by
  unfold addTransient; simp
@[simp] theorem modLane_boot (n : Nat) (f : HlkLane → HlkLane) (s : State) : (modLane n f s).boot = s.boot := by
  unfold modLane; simp
@[simp] theorem sendBlocks_boot (lane : Nat) (l : List (BitVec 2 × Word)) (s : State) : (sendBlocks lane l s).boot = s.boot := by
  unfold sendBlocks; simp
@[simp] theorem sendFrame_boot (ftype source index : Nat) (data : List Word) (s : State) : (sendFrame ftype source index data s).boot = s.boot := by
  unfold sendFrame; (repeat' split) <;> simp
@[simp] theorem sendControl_boot (ftype : Nat) (data : List Word) (s : State) : (sendControl ftype data s).boot = s.boot := by
  unfold sendControl; simp
@[simp] theorem setPool_boot (p : Nat) (f : Pool → Pool) (s : State) : (setPool p f s).boot = s.boot := by
  unfold setPool; simp
@[simp] theorem setBuf_boot (p i : Nat) (b : BufRec) (s : State) : (setBuf p i b s).boot = s.boot := by
  unfold setBuf; simp
@[simp] theorem takeBuf_boot (p owner : Nat) (s : State) : (takeBuf p owner s).2.boot = s.boot := by
  unfold takeBuf; simp
theorem porterTry_boot (owner size : Nat) (s : State) (q : (Word × State)) (hr : porterTry owner size s = some q) :
    q.2.boot = s.boot := by
  unfold porterTry at hr; dsimp only at hr; split at hr
  · cases hr; rw [takeBuf_boot]; split <;> rfl
  · cases hr
@[simp] theorem setCtx_boot (n : Nat) (f : Context → Context) (s : State) : (setCtx n f s).boot = s.boot := by
  unfold setCtx; simp
@[simp] theorem openCtx_boot (e : JournalEntry) (s : State) : (openCtx e s).boot = s.boot := by
  unfold openCtx; simp
@[simp] theorem closeCtx_boot (e : JournalEntry) (s : State) : (closeCtx e s).boot = s.boot := by
  unfold closeCtx; simp
@[simp] theorem profileCtx_boot (e : JournalEntry) (s : State) : (profileCtx e s).boot = s.boot := by
  unfold profileCtx; (repeat' split) <;> simp
@[simp] theorem raiseCeil_boot (s : State) : (raiseCeil s).boot = s.boot := by
  unfold raiseCeil; simp
@[simp] theorem burnIv_boot (n : Nat) (s : State) : (burnIv n s).boot = s.boot := by
  unfold burnIv; simp
@[simp] theorem loadDefaults_boot (s : State) : (loadDefaults s).boot = s.boot := by
  unfold loadDefaults; simp
@[simp] theorem writeGate_boot (on : Bool) (s : State) : (writeGate on s).boot = s.boot := by
  unfold writeGate; simp
@[simp] theorem modCart_boot (f : Cartridge → Cartridge) (s : State) : (modCart f s).boot = s.boot := by
  unfold modCart; simp
@[simp] theorem noteBlocked_boot (s : State) : (noteBlocked s).boot = s.boot := by
  unfold noteBlocked; simp
@[simp] theorem cutEnd_boot (p n : Nat) (s : State) : (cutEnd p n s).boot = s.boot := by
  unfold cutEnd; simp
theorem openDataset_boot (p : Nat) (s : State) (q : State) (hr : openDataset p s = some q) : q.boot = s.boot := by
  unfold openDataset at hr; split at hr
  · cases hr
  · split at hr
    · cases hr
    · rename_i heq
      have := porterTry_boot _ _ _ _ heq
      cases hr; simpa using this
@[simp] theorem parkOpened_boot (s : State) : (parkOpened s).boot = s.boot := by
  unfold parkOpened; (repeat' split) <;> simp
@[simp] theorem modOpened_boot (f : OpenDataset → OpenDataset) (s : State) : (modOpened f s).boot = s.boot := by
  unfold modOpened; simp
@[simp] theorem setWrite_boot (jsn : Nat) (f : WriteRun → WriteRun) (s : State) : (setWrite jsn f s).boot = s.boot
    := by
  unfold setWrite; simp
theorem putFrameBytes_boot (n : Nat) (meter : Option Nat) (w : WriteRun) (first : Nat) (s : State) (q : State) (hr
    : putFrameBytes n meter w first s = some q) : q.boot = s.boot := by
  unfold putFrameBytes at hr; split at hr
  · cases hr
  · dsimp only at hr; split at hr
    · cases hr; simp
    · refine optMap_boot (fun _ => by simp) (fun r h => ?_) q hr
      have := openDataset_boot _ _ _ h; simpa using this
@[simp] theorem noteDone_boot (jsn : Nat) (s : State) : (noteDone jsn s).boot = s.boot := by
  unfold noteDone; (repeat' split) <;> simp
@[simp] theorem sealOpen_boot (ctx : Nat) (s : State) : (sealOpen ctx s).boot = s.boot := by
  unfold sealOpen; (repeat' split) <;> simp
theorem closeFrame_boot (s : State) (q : State) (hr : closeFrame s = some q) : q.boot = s.boot := by
  unfold closeFrame at hr; split at hr
  · cases hr; rfl
  · split at hr
    · cases hr; rfl
    · dsimp only at hr; split at hr
      · cases hr; simp
      · exact optMap_boot (fun _ => by simp) (fun r h => putFrameBytes_boot _ _ _ _ _ _ h) q hr
theorem closeDataset_boot (s : State) (q : State) (hr : closeDataset s = some q) : q.boot = s.boot := by
  unfold closeDataset at hr; split at hr
  · cases hr
  · rename_i heq
    have := closeFrame_boot _ _ heq
    split at hr <;> cases hr <;> simp [this]
@[simp] theorem closeOpen_boot (s : State) : (closeOpen s).boot = s.boot := getD_boot (fun r h => closeDataset_boot
    _ _ h) _ rfl
@[simp] theorem noteSeq_boot (seq : Nat) (marks : List (Nat × Nat)) (s : State) : (noteSeq seq marks s).boot =
    s.boot := by
  unfold noteSeq; simp
@[simp] theorem formWith_boot (ds : Dataset) (w : WrittenDataset) (s : State) : (formWith ds w s).boot = s.boot := by
  unfold formWith; simp
@[simp] theorem closeGroup_boot (p : Nat) (s : State) : (closeGroup p s).boot = s.boot := by
  unfold closeGroup; simp
@[simp] theorem joinGroup_boot (p : Nat) (trunc : Bool) (s : State) : (joinGroup p trunc s).2.2.boot = s.boot := by
  unfold joinGroup; dsimp only; (repeat' split) <;> simp
@[simp] theorem formData_boot (o : OpenDataset) (s : State) : (formData o s).boot = s.boot := by
  unfold formData; simp
theorem formBare_boot (ds : Dataset) (s : State) (q : State) (hr : formBare ds s = some q) : q.boot = s.boot := by
  unfold formBare at hr; split at hr
  · cases hr
  · cases hp : porterTry 6 8388608 s with
    | none => rw [hp] at hr; cases hr
    | some p => rw [hp] at hr; cases hr; exact porterTry_boot _ _ _ _ hp
theorem formParity_boot (g : C3Group) (y0 : Nat) (s : State) (q : State) (hr : formParity g y0 s = some q) : q.boot
    = s.boot := by
  induction y0 generalizing s with
  | zero => unfold formParity at hr; cases hr; rfl
  | succ n ih =>
    unfold formParity at hr; dsimp only at hr; split at hr
    · cases hr
    · rename_i heq; rw [ih _ hr, formBare_boot _ _ _ heq]
@[simp] theorem formNext_boot (y0 : Nat) (s : State) : (formNext y0 s).boot = s.boot := by
  induction y0 generalizing s with
  | zero => rfl
  | succ n ih =>
    unfold formNext; split
    · split
      · rename_i heq; rw [ih, formParity_boot _ _ _ _ heq]
      · rfl
    · split
      · rfl
      · split
        · rw [ih]; simp
        · rfl
@[simp] theorem formAll_boot (s : State) : (formAll s).boot = s.boot := by
  unfold formAll; simp
@[simp] theorem putInRun_boot (d : Dataset) (s : State) : (putInRun d s).boot = s.boot := by
  unfold putInRun; simp
@[simp] theorem formatContexts_boot (count : Nat) (s : State) : (formatContexts count s).boot = s.boot := by
  unfold formatContexts; simp
@[simp] theorem markRetried_boot (jsn : Nat) (s : State) : (markRetried jsn s).boot = s.boot := by
  unfold markRetried; simp
@[simp] theorem finishWrite_boot (w : WriteRun) (st : Nat) (r1 : Nat) (s : State) : (finishWrite w st r1 s).boot =
    s.boot := by
  unfold finishWrite; (repeat' split) <;> simp
@[simp] theorem settleWrite_boot (s : State) (jsn : Nat) : (settleWrite s jsn).boot = s.boot := by
  unfold settleWrite; (repeat' split) <;> simp
@[simp] theorem settleWrites_boot (s : State) : (settleWrites s).boot = s.boot := by
  unfold settleWrites; simp
@[simp] theorem flushOpen_boot (s : State) : (flushOpen s).boot = s.boot := by
  unfold flushOpen; dsimp only; (repeat' split) <;> simp
@[simp] theorem afterWrites_boot (s : State) : (afterWrites s).boot = s.boot := by
  unfold afterWrites; simp
@[simp] theorem retractEvent_boot (jsn seq p reason : Nat) (repl : Bool) (s : State) : (retractEvent jsn seq p
    reason repl s).boot = s.boot := by
  unfold retractEvent; simp
@[simp] theorem retract_boot (d : WrittenDataset) (reason : Nat) (s : State) : (retract d reason s).boot = s.boot
    := by
  unfold retract; simp
@[simp] theorem dropDataset_boot (d : WrittenDataset) (s : State) : (dropDataset d s).boot = s.boot := by
  unfold dropDataset; simp
@[simp] theorem dropAssembled_boot (p : Nat) (s : State) : (dropAssembled p s).boot = s.boot := by
  unfold dropAssembled
  refine foldl_boot (fun s (o : OpenDataset) => ?_) _ s
  have kept : (freeBuffer 6 o.buf s).wh = s.wh := by
    obtain ⟨_, _, _, _, _, _, _, shape, -⟩ := freeBuffer_onlyPorter 6 o.buf s
    rw [shape]
  rw [burnIv_boot, ← kept]
  exact freeBuffer_boot 6 o.buf s
@[simp] theorem fitBuffers_boot (jsn : Nat) (s : State) : (fitBuffers jsn s).boot = s.boot := by
  unfold fitBuffers; split
  · rfl
  · dsimp only; split
    · rw [foldl_boot (fun s h => freeBuffer_boot _ _ _)]; simp
    · refine foldl_boot (fun s _ => ?_) _ _; split
      · rename_i heq; rw [setWrite_boot, porterTry_boot _ _ _ _ heq]
      · rfl
@[simp] theorem fitAll_boot (s : State) : (fitAll s).boot = s.boot := by
  unfold fitAll; simp
@[simp] theorem setActive_boot (seq : Nat) (f : WrittenDataset → WrittenDataset) (s : State) : (setActive seq f
    s).boot = s.boot := by
  unfold setActive; simp
@[simp] theorem renameMarks_boot (old new : Nat) (s : State) : (renameMarks old new s).boot = s.boot := by
  unfold renameMarks; simp
@[simp] theorem layDown_boot (d : WrittenDataset) (reason : Nat) (s : State) : (layDown d reason s).boot = s.boot
    := by
  unfold layDown; simp
@[simp] theorem replaceDataset_boot (d : WrittenDataset) (s : State) : (replaceDataset d s).boot = s.boot := by
  unfold replaceDataset; simp
@[simp] theorem truncateAway_boot (s : State) (d : WrittenDataset) : (truncateAway s d).boot = s.boot := by
  unfold truncateAway; simp
@[simp] theorem failFrom_boot (p n : Nat) (s : State) : (failFrom p n s).boot = s.boot := by
  unfold failFrom; simp
@[simp] theorem endRunSoon_boot (s : State) : (endRunSoon s).boot = s.boot := by
  unfold endRunSoon; simp
@[simp] theorem lastingFailure_boot (d : WrittenDataset) (s : State) : (lastingFailure d s).boot = s.boot := by
  unfold lastingFailure; simp
@[simp] theorem wholeRewrite_boot (seq : Nat) (s : State) : (wholeRewrite seq s).boot = s.boot := by
  unfold wholeRewrite; (repeat' split) <;> simp
@[simp] theorem countFail_boot (margin : Bool) (track : Nat) (s : State) : (countFail margin track s).boot = s.boot
    := by
  unfold countFail; simp
@[simp] theorem failFirst_boot (seq m track : Nat) (margin : Bool) (s : State) : (failFirst seq m track margin
    s).boot = s.boot := by
  unfold failFirst; simp
@[simp] theorem failCopy_boot (f : FailedCw) (c : Nat) (s : State) : (failCopy f c s).boot = s.boot := by
  unfold failCopy; simp
@[simp] theorem failSlots_boot (seq : Nat) (p : Nat → Bool) (s : State) : (failSlots seq p s).boot = s.boot := by
  unfold failSlots; refine foldl_boot (fun s x => ?_) _ _; split
  · rfl
  · split <;> simp
@[simp] theorem failCopies_boot (seq : Nat) (p : Nat → Bool) (s : State) : (failCopies seq p s).boot = s.boot := by
  unfold failCopies; refine foldl_boot (fun s x => ?_) _ _; split <;> simp
@[simp] theorem failWindow_boot (seq lo hi : Nat) (s : State) : (failWindow seq lo hi s).boot = s.boot := by
  unfold failWindow; simp
@[simp] theorem finishRun_boot (p : Nat) (s : State) : (finishRun p s).boot = s.boot := by
  unfold finishRun; simp
@[simp] theorem interruptRun_boot (s : State) : (interruptRun s).boot = s.boot := by
  unfold interruptRun; dsimp only; (repeat' split) <;> simp
@[simp] theorem rewindContexts_boot (s : State) : (rewindContexts s).boot = s.boot := by
  unfold rewindContexts; simp
@[simp] theorem giveUpDataset_boot (s : State) (d : WrittenDataset) : (giveUpDataset s d).boot = s.boot := by
  unfold giveUpDataset; simp
@[simp] theorem giveUp_boot (s : State) (p : Nat) : (giveUp s p).boot = s.boot := by
  unfold giveUp; simp
@[simp] theorem endWritesNow_boot (js : List Nat) (st : Nat) (r1 : Option Nat) (s : State) :
    (endWritesNow js st r1 s).boot = s.boot := by
  unfold endWritesNow; dsimp only
  rw [settleWrites_boot, foldl_boot (fun s j => by split <;> simp)]; simp
@[simp] theorem loseTape_boot (st : Nat) (s : State) : (loseTape st s).boot = s.boot := by
  unfold loseTape; simp
@[simp] theorem updateCaps_boot (s : State) : (updateCaps s).boot = s.boot := by
  unfold updateCaps; simp
@[simp] theorem sendMask_boot (s : State) : (sendMask s).boot = s.boot := by
  unfold sendMask; simp
@[simp] theorem laneFailing_boot (n : Nat) (c : LaneFault) (s : State) : (laneFailing n c s).boot = s.boot := by
  unfold laneFailing; simp
@[simp] theorem failLink_boot (s : State) : (failLink s).boot = s.boot := by
  unfold failLink; simp
@[simp] theorem linkFails_boot (s : State) : (linkFails s).boot = s.boot := by
  unfold linkFails; simp
@[simp] theorem mismatch_boot (i : BitVec 40) (s : State) : (mismatch i s).boot = s.boot := by
  unfold mismatch; simp
@[simp] theorem trainLane_boot (t : TrainResult) (s : State) (n : Nat) : (trainLane t s n).boot = s.boot := by
  unfold trainLane; simp
@[simp] theorem trainLink_boot (t : TrainResult) (s : State) : (trainLink t s).boot = s.boot := by
  unfold trainLink; simp
@[simp] theorem takeTsn_boot (n : Nat) (s : State) : (takeTsn n s).boot = s.boot := by
  unfold takeTsn; simp
@[simp] theorem assignRoles_boot (s : State) : (assignRoles s).boot = s.boot := by
  unfold assignRoles; simp
@[simp] theorem coreRetry_boot (c : Nat) (s : State) : (coreRetry c s).boot = s.boot := by
  unfold coreRetry; simp
@[simp] theorem startCores_boot (ok : BitVec 4) (s : State) : (startCores ok s).boot = s.boot := by
  unfold startCores; simp
@[simp] theorem startLanes_boot (ok : BitVec 8) (s : State) : (startLanes ok s).boot = s.boot := by
  unfold startLanes; simp
@[simp] theorem noteKat_boot (s : State) : (noteKat s).boot = s.boot := by
  unfold noteKat; simp
@[simp] theorem startCeil_boot (s : State) : (startCeil s).boot = s.boot := by
  unfold startCeil; (repeat' split) <;> simp
@[simp] theorem startRetract_boot (s : State) : (startRetract s).boot = s.boot := by
  unfold startRetract; simp
@[simp] theorem startReplay_boot (s : State) : (startReplay s).boot = s.boot := by
  unfold startReplay; simp
@[simp] theorem redoRecord_boot (e : JournalEntry) (w : RetireWord) (s : State) : (redoRecord e w s).boot = s.boot := by
  unfold redoRecord; dsimp only; (repeat' split) <;> simp
@[simp] theorem moveContext_boot (c n : Nat) (s : State) : (moveContext c n s).boot = s.boot := by
  unfold moveContext; split <;> simp
@[simp] theorem redoPosition_boot (e : JournalEntry) (w : RetireWord) (s : State) : (redoPosition e w s).boot = s.boot := by
  unfold redoPosition; dsimp only; (repeat' split) <;> simp
@[simp] theorem redoContext_boot (s : State) (e : JournalEntry) : (redoContext s e).boot = s.boot := by
  unfold redoContext; split <;> simp
@[simp] theorem redoContexts_boot (s : State) : (redoContexts s).boot = s.boot := by
  unfold redoContexts; simp
@[simp] theorem startEvents_boot (s : State) : (startEvents s).boot = s.boot := by
  unfold startEvents; simp

/-! ### The always-on domain -/

@[simp] theorem raiseP_aon (src p0 : Nat) (s : State) : (raiseP src p0 s).aon = s.aon := by
  unfold raiseP; simp
@[simp] theorem raiseN_aon (src : Nat) (s : State) : (raiseN src s).aon = s.aon := by
  unfold raiseN; simp
@[simp] theorem setUnit_aon (u st cause : Nat) (s : State) : (setUnit u st cause s).aon = s.aon := by
  unfold setUnit; simp
@[simp] theorem addTransient_aon (u : Nat) (s : State) : (addTransient u s).aon = s.aon := by
  unfold addTransient; simp
@[simp] theorem sendFrame_aon (ftype source index : Nat) (data : List Word) (s : State) : (sendFrame ftype source index data s).aon = s.aon := by
  unfold sendFrame; (repeat' split) <;> simp
@[simp] theorem sendControl_aon (ftype : Nat) (data : List Word) (s : State) : (sendControl ftype data s).aon = s.aon := by
  unfold sendControl; simp
@[simp] theorem raiseCeil_aon (s : State) : (raiseCeil s).aon = s.aon := by
  unfold raiseCeil; simp
@[simp] theorem burnIv_aon (n : Nat) (s : State) : (burnIv n s).aon = s.aon := by
  unfold burnIv; simp
@[simp] theorem modCart_aon (f : Cartridge → Cartridge) (s : State) : (modCart f s).aon = s.aon := by
  unfold modCart; simp
@[simp] theorem noteBlocked_aon (s : State) : (noteBlocked s).aon = s.aon := by
  unfold noteBlocked; simp
@[simp] theorem cutEnd_aon (p n : Nat) (s : State) : (cutEnd p n s).aon = s.aon := by
  unfold cutEnd; simp
@[simp] theorem formAll_aon (s : State) : (formAll s).aon = s.aon := by
  unfold formAll; simp
@[simp] theorem putInRun_aon (d : Dataset) (s : State) : (putInRun d s).aon = s.aon := by
  unfold putInRun; simp
@[simp] theorem markRetried_aon (jsn : Nat) (s : State) : (markRetried jsn s).aon = s.aon := by
  unfold markRetried; simp
@[simp] theorem settleWrites_aon (s : State) : (settleWrites s).aon = s.aon := by
  unfold settleWrites; exact foldl_aon settleWrite_aon _ s
@[simp] theorem retractEvent_aon (jsn seq p reason : Nat) (repl : Bool) (s : State) : (retractEvent jsn seq p
    reason repl s).aon = s.aon := by
  unfold retractEvent; simp
@[simp] theorem fitBuffers_aon (jsn : Nat) (s : State) : (fitBuffers jsn s).aon = s.aon := by
  unfold fitBuffers; split
  · rfl
  · dsimp only; split
    · rw [foldl_aon (fun s h => freeBuffer_aon _ _ _)]; simp
    · refine foldl_aon (fun s _ => ?_) _ _; split
      · rename_i heq; rw [setWrite_aon, porterTry_aon heq]
      · rfl
@[simp] theorem fitAll_aon (s : State) : (fitAll s).aon = s.aon := by
  unfold fitAll; exact foldl_aon (fun s j => fitBuffers_aon j s) _ s
@[simp] theorem renameMarks_aon (old new : Nat) (s : State) : (renameMarks old new s).aon = s.aon := by
  unfold renameMarks; simp
@[simp] theorem failFrom_aon (p n : Nat) (s : State) : (failFrom p n s).aon = s.aon := by
  unfold failFrom; simp
@[simp] theorem endRunSoon_aon (s : State) : (endRunSoon s).aon = s.aon := by
  unfold endRunSoon; simp
@[simp] theorem countFail_aon (margin : Bool) (track : Nat) (s : State) : (countFail margin track s).aon = s.aon
    := by
  unfold countFail; simp
@[simp] theorem failSlots_aon (seq : Nat) (p : Nat → Bool) (s : State) : (failSlots seq p s).aon = s.aon := by
  unfold failSlots; refine foldl_aon (fun s x => ?_) _ _; split
  · rfl
  · split <;> simp
@[simp] theorem failCopies_aon (seq : Nat) (p : Nat → Bool) (s : State) : (failCopies seq p s).aon = s.aon := by
  unfold failCopies; refine foldl_aon (fun s x => ?_) _ _; split <;> simp
@[simp] theorem giveUpDataset_aon (s : State) (d : WrittenDataset) : (giveUpDataset s d).aon = s.aon := by
  unfold giveUpDataset; simp
@[simp] theorem giveUp_aon (s : State) (p : Nat) : (giveUp s p).aon = s.aon := by
  unfold giveUp; simp [foldl_aon]
@[simp] theorem endWritesNow_aon (js : List Nat) (st : Nat) (r1 : Option Nat) (s : State) :
    (endWritesNow js st r1 s).aon = s.aon := by
  unfold endWritesNow; dsimp only
  rw [settleWrites_aon, foldl_aon (fun s j => by split <;> simp)]; simp [foldl_aon]
@[simp] theorem loseTape_aon (st : Nat) (s : State) : (loseTape st s).aon = s.aon := by
  unfold loseTape; simp
@[simp] theorem updateCaps_aon (s : State) : (updateCaps s).aon = s.aon := by
  unfold updateCaps; simp
@[simp] theorem sendMask_aon (s : State) : (sendMask s).aon = s.aon := by
  unfold sendMask; simp
@[simp] theorem laneFailing_aon (n : Nat) (c : LaneFault) (s : State) : (laneFailing n c s).aon = s.aon := by
  unfold laneFailing; simp
@[simp] theorem failLink_aon (s : State) : (failLink s).aon = s.aon := by
  unfold failLink; simp
@[simp] theorem linkFails_aon (s : State) : (linkFails s).aon = s.aon := by
  unfold linkFails; simp
@[simp] theorem mismatch_aon (i : BitVec 40) (s : State) : (mismatch i s).aon = s.aon := by
  unfold mismatch; simp
@[simp] theorem trainLane_aon (t : TrainResult) (s : State) (n : Nat) : (trainLane t s n).aon = s.aon := by
  unfold trainLane; simp
@[simp] theorem trainLink_aon (t : TrainResult) (s : State) : (trainLink t s).aon = s.aon := by
  unfold trainLink; simp [foldl_aon]
@[simp] theorem takeTsn_aon (n : Nat) (s : State) : (takeTsn n s).aon = s.aon := by
  unfold takeTsn; simp
@[simp] theorem assignRoles_aon (s : State) : (assignRoles s).aon = s.aon := by
  unfold assignRoles; simp
@[simp] theorem coreRetry_aon (c : Nat) (s : State) : (coreRetry c s).aon = s.aon := by
  unfold coreRetry; simp
@[simp] theorem startCores_aon (ok : BitVec 4) (s : State) : (startCores ok s).aon = s.aon := by
  unfold startCores; simp [foldl_aon]
@[simp] theorem startLanes_aon (ok : BitVec 8) (s : State) : (startLanes ok s).aon = s.aon := by
  unfold startLanes; simp [foldl_aon]
@[simp] theorem noteKat_aon (s : State) : (noteKat s).aon = s.aon := by
  unfold noteKat; simp
@[simp] theorem startCeil_aon (s : State) : (startCeil s).aon = s.aon := by
  unfold startCeil; (repeat' split) <;> simp

end Sys2Proof.Proofs
end

section
/-! PROOFS. The start-up sequence (17 R431, 16 R416-R418). -/

namespace Sys2Proof.Proofs

open Sys2Proof.Machine Sys2Proof.Safety Sys2Proof.Laws

variable {s t : State}

/-! ### The ledger entry of the boot -/

/-- An entry is opened in the Weighhouse's state alone. -/
theorem openEntry_shape (start : Nat) (s : State) : ∃ w, openEntry start s = { s with whd := w } := by
  unfold openEntry
  split
  · exact ⟨_, rfl⟩
  · dsimp only
    split
    · exact ⟨_, rfl⟩
    · obtain ⟨a, b, shape⟩ := putStateWord_shape (fun w => { w with nextEpoch := (stateWord s).nextEpoch + 1 }) s
      rw [shape]
      exact ⟨_, rfl⟩

/-- The entry of the boot, without the hash of the one before it. -/
def isOpened (start epoch : Nat) (e : LedgerEntry) : Prop := e.epoch = epoch ∧ e.state = 0 ∧ e.stages = [] ∧ e.start = start

/-- A Weighhouse that serves opens an entry with the next epoch. -/
theorem openEntry_opens (start : Nat) (hs : whServes s = true) (hn : (stateWord s).nextEpoch ≠ 0xFFFFFFFF) :
    ∃ e, currentEntry (openEntry start s) = some e ∧ isOpened start (stateWord s).nextEpoch e
      ∧ (stateWord (openEntry start s)).nextEpoch = (stateWord s).nextEpoch + 1
      ∧ (openEntry start s).whd.ledger.tail = s.whd.ledger.take 4095 ∧ whServes (openEntry start s) = true := by
  obtain ⟨a, b, shape⟩ := putStateWord_shape (fun w => { w with nextEpoch := (stateWord s).nextEpoch + 1 }) s
  have word := stateWord_putStateWord (fun w => { w with nextEpoch := (stateWord s).nextEpoch + 1 }) s
  rw [shape] at word
  unfold openEntry
  rw [if_neg (by rw [hs]; decide)]
  dsimp only
  rw [if_neg hn, shape]
  exact ⟨_, rfl, ⟨rfl, rfl, rfl, rfl⟩, (congrArg StateWord.nextEpoch word :), rfl, hs⟩

/-- A message of the mailbox: what its service does, or an event. -/
theorem mbServe_cases (type : Nat) (ok : Bool) (k : State → State) (s : State) :
    mbServe type ok k s = s ∨ mbServe type ok k s = k s ∨ mbServe type ok k s = raiseP evWhMbRefused type s := by
  unfold mbServe
  split
  · exact .inl rfl
  · split
    · exact .inr (.inl rfl)
    · exact .inr (.inr rfl)

/-- What an EXTEND and a CLOSE leave: the start's cause, the ROM phase and device time. -/
def State.cause (s : State) := (s.sys, s.mram, s.wh.romPhase, s.aon)

theorem cause_of_onlyEvents (h : OnlyEvents s t) : State.cause t = State.cause s := by
  obtain ⟨_, _, _, _, _, _, rfl, -⟩ := h; rfl

theorem modCurrent_cause (f : LedgerEntry → LedgerEntry) (s : State) : State.cause (modCurrent f s) = State.cause s := by
  obtain ⟨l, shape, -⟩ := modCurrent_shape f s
  rw [shape]; rfl

theorem doExtend_cause (stage : Nat) (digest : List Byte) (s : State) : State.cause (doExtend stage digest s) = State.cause s := by
  obtain h | h | h := mbServe_cases mbExtend (extendOk stage s) (modCurrent fun e => { e with stages := e.stages ++ [padTo 48 digest] }) s
  · exact congrArg State.cause h
  · exact (congrArg State.cause h).trans (modCurrent_cause ..)
  · exact (congrArg State.cause h).trans (cause_of_onlyEvents (raiseP_onlyEvents ..))

theorem closeEntry_cause (s : State) : State.cause (closeEntry s) = State.cause s := by
  have changed := modCurrent_cause (fun e => { e with state := 1, timeClose := whTime s }) s
  unfold closeEntry
  dsimp only
  split
  · split
    · exact changed
    · split
      · exact changed
      · exact changed
  · exact changed

theorem doClose_cause (s : State) : State.cause (doClose s) = State.cause s := by
  obtain h | h | h := mbServe_cases mbClose ((currentEntry s).any fun e => e.state == 0 && e.stages.length == 4) closeEntry s
  · exact congrArg State.cause h
  · exact (congrArg State.cause h).trans (closeEntry_cause s)
  · exact (congrArg State.cause h).trans (cause_of_onlyEvents (raiseP_onlyEvents ..))

/-! ### The steps -/

/-- What a start's parts leave, block by block. -/
theorem boot_parts (h : t.boot = s.boot) :
    t.sys.phase = s.sys.phase ∧ t.sys.ready = s.sys.ready ∧ t.sys.readyAt = s.sys.readyAt ∧ t.sys.kind = s.sys.kind
      ∧ t.sys.subsysId = s.sys.subsysId ∧ t.mram.cleanMark = s.mram.cleanMark ∧ t.wh.romPhase = s.wh.romPhase
      ∧ t.wh.epochValid = s.wh.epochValid ∧ t.wh.epoch = s.wh.epoch ∧ t.whd = s.whd := by
  simpa only [State.boot, Prod.mk.injEq] using h

theorem cause_parts (h : State.cause t = State.cause s) :
    t.sys = s.sys ∧ t.mram = s.mram ∧ t.wh.romPhase = s.wh.romPhase ∧ t.aon = s.aon := by
  simpa only [State.cause, Prod.mk.injEq] using h

theorem loadDefaults_aon (s : State) : (loadDefaults s).aon = s.aon := by
  unfold loadDefaults; simp

/-- The die once memory is swept and the ROM phase has begun. -/
def swept (b : BootInput) (s : State) : State :=
  { openEntry s.sys.kind s with
    sys := { (openEntry s.sys.kind s).sys with subsysId := b.subsysId }
    mem := { (openEntry s.sys.kind s).mem with
      ready := true
      remapPc := if (openEntry s.sys.kind s).sys.kind = 2 then (openEntry s.sys.kind s).mem.remapPc
        else (openEntry s.sys.kind s).mem.retiredPc }
    wh := { (openEntry s.sys.kind s).wh with
      romPhase := true, lastStatus := (openEntry s.sys.kind s).aon.time, lastRise := (openEntry s.sys.kind s).aon.time } }

/-- The end of the ROM phase. -/
def romOver (s : State) : State := { s with wh := { s.wh with romPhase := false } }

theorem startBoot_eq (b : BootInput) (s : State) :
    startBoot b s = doExtend 2 b.digest2 (romOver (doExtend 1 b.digest1 (doExtend 0 b.digest0 (swept b s)))) := rfl

theorem swept_cause (b : BootInput) (s : State) :
    State.cause (swept b s) = ({ s.sys with subsysId := b.subsysId }, s.mram, true, s.aon) := by
  obtain ⟨w, shape⟩ := openEntry_shape s.sys.kind s
  rw [swept, shape]; rfl

theorem startBoot_parts (b : BootInput) (s : State) :
    (startBoot b s).sys = { s.sys with subsysId := b.subsysId } ∧ (startBoot b s).wh.romPhase = false ∧ (startBoot b s).aon = s.aon := by
  have begun : State.cause (doExtend 1 b.digest1 (doExtend 0 b.digest0 (swept b s))) = _ :=
    (doExtend_cause 1 b.digest1 _).trans ((doExtend_cause 0 b.digest0 (swept b s)).trans (swept_cause b s))
  obtain ⟨sys, -, rom, aon⟩ := cause_parts (doExtend_cause 2 b.digest2 (romOver (doExtend 1 b.digest1 (doExtend 0 b.digest0 (swept b s)))))
  rw [startBoot_eq]
  refine ⟨sys.trans ?_, rom, aon.trans ?_⟩
  · exact (congrArg (·.1) begun :)
  · exact (congrArg (·.2.2.2) begun :)

/-- The fifth step before the last measurement: the cores, the lanes, CEIL, and LAST_TSN. -/
def tested (b : BootInput) (s : State) : State :=
  let s := startCeil (noteKat (startLanes b.katOk (startCores b.coresOk s)))
  if s.whd.powered then takeTsn (stateWord s).lastTsn s else s

theorem startFirmware_eq (b : BootInput) (s : State) : startFirmware b s = doClose (doExtend 3 b.digest3 (tested b s)) := rfl

theorem tested_boot (b : BootInput) (s : State) : (tested b s).boot = s.boot := by
  unfold tested
  dsimp only
  split
  · simp only [takeTsn_boot, startCeil_boot, noteKat_boot, startLanes_boot, startCores_boot]
  · simp only [startCeil_boot, noteKat_boot, startLanes_boot, startCores_boot]

theorem tested_aon (b : BootInput) (s : State) : (tested b s).aon = s.aon := by
  unfold tested
  dsimp only
  split
  · simp only [takeTsn_aon, startCeil_aon, noteKat_aon, startLanes_aon, startCores_aon]
  · simp only [startCeil_aon, noteKat_aon, startLanes_aon, startCores_aon]

/-- The cause of the start as the fourth step leaves it is that of the fifth. -/
theorem startFirmware_parts (b : BootInput) (s : State) :
    (startFirmware b s).sys.kind = s.sys.kind ∧ (startFirmware b s).sys.subsysId = s.sys.subsysId
      ∧ (startFirmware b s).wh.romPhase = s.wh.romPhase ∧ (startFirmware b s).aon = s.aon := by
  obtain ⟨sys, -, rom, aon⟩ := cause_parts
    ((doClose_cause (doExtend 3 b.digest3 (tested b s))).trans (doExtend_cause 3 b.digest3 (tested b s)))
  obtain ⟨-, -, -, kind, subsys, -, phase, -⟩ := boot_parts (tested_boot b s)
  rw [startFirmware_eq]
  exact ⟨(congrArg Sys.kind sys).trans kind, (congrArg Sys.subsysId sys).trans subsys, rom.trans phase, aon.trans (tested_aon b s)⟩

/-- The sixth step makes the device run. -/
theorem startLink_parts (i : TrainResult) (s : State) :
    (startLink i s).sys.phase = .running ∧ (startLink i s).sys.kind = s.sys.kind ∧ (startLink i s).sys.subsysId = s.sys.subsysId
      ∧ (startLink i s).wh.romPhase = s.wh.romPhase ∧ (startLink i s).wh.epochValid = s.wh.epochValid
      ∧ (startLink i s).wh.epoch = s.wh.epoch ∧ (startLink i s).whd = s.whd ∧ (startLink i s).aon.time = s.aon.time := by
  have clock := trainLink_aon i { s with sys := { s.sys with phase := .running } }
  obtain ⟨phase, -, -, kind, subsys, -, rom, valid, epoch, whd⟩ :=
    boot_parts (trainLink_boot i { s with sys := { s.sys with phase := .running } })
  unfold startLink
  dsimp only
  generalize trainLink i { s with sys := { s.sys with phase := .running } } = u at *
  split
  · exact ⟨phase, kind, subsys, rom, valid, epoch, whd, congrArg Aon.time clock⟩
  · obtain ⟨phase', -, -, kind', subsys', -, rom', valid', epoch', whd'⟩ := boot_parts (loadDefaults_boot u)
    exact ⟨phase'.trans phase, kind'.trans kind, subsys'.trans subsys, rom'.trans rom, valid'.trans valid, epoch'.trans epoch,
      whd'.trans whd, (congrArg Aon.time ((loadDefaults_aon u).trans clock) :)⟩

/-- The state in which the device is READY. -/
def readied (b : BootInput) (i : TrainResult) (s : State) : State :=
  let u := startLink i (startFirmware b (startBoot b s))
  { u with
    sys := { u.sys with ready := true, readyAt := u.aon.time }, mram := { u.mram with cleanMark := false }
    pwr := { u.pwr with idleFrom := u.aon.time } }

/-- What the start-up sequence comes to. -/
def startedUp (b : BootInput) (i : TrainResult) (s : State) : State :=
  startReplay (redoContexts (startRetract (startEvents (readied b i s))))

theorem startUpSequence_runs (b : BootInput) (i : TrainResult) (h : s.sys.phase = .stepOne) :
    exec (.startUpSequence b i) s = .next (startedUp b i s) :=
  congrArg Host.Outcome.next (if_neg (not_not.2 h))

theorem startedUp_boot (b : BootInput) (i : TrainResult) (s : State) : (startedUp b i s).boot = (readied b i s).boot := by
  simp only [startedUp, startReplay_boot, redoContexts_boot, startRetract_boot, startEvents_boot]

/-- The device is READY and its cause is that of the start. -/
theorem startedUp_parts (b : BootInput) (i : TrainResult) (s : State) :
    (startedUp b i s).sys.phase = .running ∧ (startedUp b i s).sys.ready = true ∧ (startedUp b i s).sys.readyAt = s.aon.time
      ∧ (startedUp b i s).mram.cleanMark = false ∧ (startedUp b i s).wh.romPhase = false ∧ (startedUp b i s).sys.kind = s.sys.kind
      ∧ (startedUp b i s).sys.subsysId = b.subsysId := by
  obtain ⟨phase, ready, at_, kind, subsys, clean, rom, -, -, -⟩ := boot_parts (startedUp_boot b i s)
  obtain ⟨runs, kind', subsys', rom', -, -, -, clock⟩ := startLink_parts i (startFirmware b (startBoot b s))
  obtain ⟨kind'', subsys'', rom'', aon⟩ := startFirmware_parts b (startBoot b s)
  obtain ⟨sys, romOff, aon'⟩ := startBoot_parts b s
  exact ⟨phase.trans runs, ready, at_.trans (clock.trans ((congrArg Aon.time aon).trans (congrArg Aon.time aon'))), clean,
    rom.trans (rom'.trans (rom''.trans romOff)), kind.trans (kind'.trans (kind''.trans (congrArg Sys.kind sys :))),
    subsys.trans (subsys'.trans (subsys''.trans (congrArg Sys.subsysId sys :)))⟩

/-- The Weighhouse and the epoch as the fifth step leaves them. -/
theorem startedUp_weighhouse (b : BootInput) (i : TrainResult) (s : State) :
    (startedUp b i s).whd = (startFirmware b (startBoot b s)).whd
      ∧ (startedUp b i s).wh.epochValid = (startFirmware b (startBoot b s)).wh.epochValid
      ∧ (startedUp b i s).wh.epoch = (startFirmware b (startBoot b s)).wh.epoch := by
  obtain ⟨-, -, -, -, -, -, -, valid, epoch, whd⟩ := boot_parts (startedUp_boot b i s)
  obtain ⟨-, -, -, -, valid', epoch', whd', -⟩ := startLink_parts i (startFirmware b (startBoot b s))
  exact ⟨whd.trans whd', valid.trans valid', epoch.trans epoch'⟩

/-! ### The measurements -/

/-- The boot's entry holds these digests, over a Weighhouse that serves. -/
def Measured (start epoch : Nat) (stages : List (List Byte)) (rest : List LedgerEntry) (u : State) : Prop :=
  whServes u = true ∧ (∃ e, currentEntry u = some e ∧ e.epoch = epoch ∧ e.state = 0 ∧ e.stages = stages ∧ e.start = start)
    ∧ (stateWord u).nextEpoch = epoch + 1 ∧ u.whd.ledger.tail = rest

section

variable {start epoch : Nat} {stages : List (List Byte)} {rest : List LedgerEntry} {u v : State}

theorem Measured.ofWhd (h : Measured start epoch stages rest u) (hw : v.whd = u.whd) : Measured start epoch stages rest v := by
  simpa only [Measured, whServes, currentEntry, stateWord, hw] using h

/-- An EXTEND in its turn. -/
theorem Measured.extend (h : Measured start epoch stages rest u) {stage : Nat} (digest : List Byte) (hst : stage = stages.length)
    (hlt : stage < 4) (hrom : u.wh.romPhase = decide (stage ≤ 1)) :
    Measured start epoch (stages ++ [padTo 48 digest]) rest (doExtend stage digest u) := by
  obtain ⟨serves, ⟨e, current, hepoch, hstate, hstages, hstart⟩, next, tail⟩ := h
  have ok := (extendOk_iff current).2 ⟨hstate, hstages ▸ hst, hlt, hrom⟩
  have appends : doExtend stage digest u = withCurrent (fun e => { e with stages := e.stages ++ [padTo 48 digest] }) u := by
    rw [doExtend, mbServe_serves serves ok, modCurrent_changes current]
  rw [appends]
  refine ⟨serves, ⟨_, withCurrent_current current (currentEntry_some current).choose_spec.2, hepoch, hstate, ?_, hstart⟩, next,
    (withCurrent_tail _ u).trans tail⟩
  exact congrArg (· ++ [padTo 48 digest]) hstages

end

/-- With a Weighhouse that serves the boot's entry holds its first three digests after the fourth step. -/
theorem startBoot_measures (b : BootInput) (hs : whServes s = true) (hn : (stateWord s).nextEpoch ≠ 0xFFFFFFFF) :
    Measured s.sys.kind (stateWord s).nextEpoch [padTo 48 b.digest0, padTo 48 b.digest1, padTo 48 b.digest2]
      (s.whd.ledger.take 4095) (startBoot b s) := by
  obtain ⟨e, current, ⟨hepoch, hstate, hstages, hstart⟩, next, tail, serves⟩ := openEntry_opens s.sys.kind hs hn
  have opened : Measured s.sys.kind (stateWord s).nextEpoch [] (s.whd.ledger.take 4095) (openEntry s.sys.kind s) :=
    ⟨serves, ⟨e, current, hepoch, hstate, hstages, hstart⟩, next, tail⟩
  have none_yet : Measured s.sys.kind (stateWord s).nextEpoch [] (s.whd.ledger.take 4095) (swept b s) := opened.ofWhd rfl
  have first := none_yet.extend (stage := 0) b.digest0 rfl (by decide) (congrArg (·.2.2.1) (swept_cause b s))
  have rom : (doExtend 0 b.digest0 (swept b s)).wh.romPhase = true :=
    congrArg (·.2.2.1) ((doExtend_cause 0 b.digest0 (swept b s)).trans (swept_cause b s))
  have second := first.extend (stage := 1) b.digest1 rfl (by decide) rom
  have measured : Measured s.sys.kind (stateWord s).nextEpoch _ (s.whd.ledger.take 4095)
      (romOver (doExtend 1 b.digest1 (doExtend 0 b.digest0 (swept b s)))) := second.ofWhd rfl
  exact measured.extend (stage := 2) b.digest2 rfl (by decide) rfl

/-- The entry of the boot is closed and its epoch released. -/
theorem startFirmware_closes (b : BootInput) (hph : s.sys.phase = .stepOne) (hs : whServes s = true)
    (hn : (stateWord s).nextEpoch ≠ 0xFFFFFFFF) :
    ∃ v e, startFirmware b (startBoot b s) = closedEntry e v
      ∧ Measured s.sys.kind (stateWord s).nextEpoch
          [padTo 48 b.digest0, padTo 48 b.digest1, padTo 48 b.digest2, padTo 48 b.digest3] (s.whd.ledger.take 4095) v
      ∧ currentEntry v = some e ∧ dieUp v = true := by
  have three := startBoot_measures b hs hn
  obtain ⟨sys, romOff, -⟩ := startBoot_parts b s
  obtain ⟨phase, -, -, -, -, -, rom, -, -, whd⟩ := boot_parts (tested_boot b (startBoot b s))
  have four := (three.ofWhd whd).extend (stage := 3) b.digest3 rfl (by decide) (rom.trans romOff)
  obtain ⟨sys', -⟩ := cause_parts (doExtend_cause 3 b.digest3 (tested b (startBoot b s)))
  have steps : (doExtend 3 b.digest3 (tested b (startBoot b s))).sys.phase = .stepOne :=
    (congrArg Sys.phase sys').trans (phase.trans ((congrArg Sys.phase sys :).trans hph))
  obtain ⟨serves, ⟨e, current, hepoch, hstate, hstages, -⟩, -, -⟩ := id four
  have all : e.stages.length = 4 := by rw [hstages]; rfl
  have closes : Host.Outcome.next (doClose (doExtend 3 b.digest3 (tested b (startBoot b s)))) = (.next _ : Out) :=
    close_releases serves current hstate all (by rw [hepoch]; exact hn)
  refine ⟨_, e, (startFirmware_eq b _).trans (Host.Outcome.next.inj closes), four, current, ?_⟩
  rw [dieUp, steps]; rfl

/-- The boot's entry after the start-up sequence. -/
theorem startedUp_entry (b : BootInput) (i : TrainResult) (hph : s.sys.phase = .stepOne) (hs : whServes s = true)
    (hn : (stateWord s).nextEpoch ≠ 0xFFFFFFFF) :
    ∃ e, currentEntry (startedUp b i s) = some e ∧ e.state = 1 ∧ e.epoch = (stateWord s).nextEpoch
      ∧ e.stages = [padTo 48 b.digest0, padTo 48 b.digest1, padTo 48 b.digest2, padTo 48 b.digest3] ∧ e.start = s.sys.kind
      ∧ (stateWord (startedUp b i s)).nextEpoch = (stateWord s).nextEpoch + 1 ∧ (startedUp b i s).whd.released = some e.epoch
      ∧ (startedUp b i s).wh.epochValid = true ∧ (startedUp b i s).wh.epoch = e.epoch
      ∧ (startedUp b i s).whd.ledger.tail = s.whd.ledger.take 4095 := by
  obtain ⟨v, e, closes, ⟨-, ⟨e', current', hepoch, -, hstages, hstart⟩, next, tail⟩, current, up⟩ := startFirmware_closes b hph hs hn
  obtain rfl : e = e' := Option.some.inj (current.symm.trans current')
  obtain ⟨whd, valid, epoch⟩ := startedUp_weighhouse b i s
  rw [closes] at whd valid epoch
  obtain ⟨closed, released, published, rest, -⟩ := closedEntry_leaves current
  obtain ⟨isValid, isEpoch⟩ := published up
  have word : stateWord (closedEntry e v) = stateWord v := by
    unfold closedEntry
    dsimp only
    split <;> rfl
  refine ⟨{ e with state := 1, timeClose := whTime v }, ?_, rfl, hepoch, hstages, hstart, ?_, ?_, valid.trans isValid,
    epoch.trans isEpoch, ?_⟩
  · rw [currentEntry, whd]; exact closed
  · rw [stateWord_congr whd, word, next]
  · rw [whd]; exact released
  · rw [whd]; exact rest.trans tail

/-- The meters stand over a start. -/
theorem startedUp_meters (b : BootInput) (i : TrainResult) (hph : s.sys.phase = .stepOne) :
    (startedUp b i s).whd.meters = s.whd.meters := by
  have kept := execStartUpSequence_kept b i s
  have runs : execStartUpSequence b i s = .next (startedUp b i s) := startUpSequence_runs b i hph
  rw [runs] at kept
  exact congrArg (·.1) (kept : (startedUp b i s).kept = s.kept)

end Sys2Proof.Proofs
end

section
/-! PROOFS. Replay and its reports (17 R433, R434, R436), and the start-up sequence with them. -/

namespace Sys2Proof.Proofs

open Sys2Proof.Machine Sys2Proof.Safety Sys2Proof.Laws

variable {s t u v : State}

/-! ### The end of one command, seen from the others -/

theorem findEntry_setEntry_ne {jsn j : Nat} {f : JournalEntry → JournalEntry} (hf : ∀ e, (f e).jsn = e.jsn) (h : j ≠ jsn) (s : State) :
    findEntry (setEntry jsn f s) j = findEntry s j := by
  have named : ∀ x : JournalEntry, ((if x.jsn = jsn then f x else x).jsn == j) = (x.jsn == j) := by
    intro x; split <;> simp [hf]
  change (s.jrn.entries.map fun x => if x.jsn = jsn then f x else x).find? (fun x => x.jsn == j) = _
  rw [List.find?_map, show ((fun x : JournalEntry => x.jsn == j) ∘ fun x => if x.jsn = jsn then f x else x)
    = fun x => x.jsn == j from funext named]
  change (findEntry s j).map _ = _
  cases he : findEntry s j with
  | none => rfl
  | some e => exact congrArg some (if_neg (by rw [findEntry_jsn he]; exact h))

theorem findRun_setRun_ne {jsn j : Nat} {f : RunInfo → RunInfo} (hf : ∀ r, (f r).jsn = r.jsn) (h : j ≠ jsn) (s : State) :
    findRun (setRun jsn f s) j = findRun s j := by
  have named : ∀ x : RunInfo, ((if x.jsn = jsn then f x else x).jsn == j) = (x.jsn == j) := by
    intro x; split <;> simp [hf]
  change (s.jrn.runs.map fun x => if x.jsn = jsn then f x else x).find? (fun x => x.jsn == j) = _
  rw [List.find?_map, show ((fun x : RunInfo => x.jsn == j) ∘ fun x => if x.jsn = jsn then f x else x)
    = fun x => x.jsn == j from funext named]
  change (findRun s j).map _ = _
  cases hr : findRun s j with
  | none => rfl
  | some r => exact congrArg some (if_neg (by rw [(by simpa using List.find?_some hr : r.jsn = j)]; exact h))

/-- From u to v the command jsn may have ended; no other command's entry, run or abort record has changed. -/
def Aside (jsn : Nat) (u v : State) : Prop :=
  (∀ j, j ≠ jsn → findEntry v j = findEntry u j ∧ findRun v j = findRun u j)
    ∧ (∃ l, v.jrn.retire = u.jrn.retire ++ l ∧ l.length ≤ 1 ∧ ∀ w ∈ l, w.state = 2) ∧ v.sys.kind = u.sys.kind ∧ v.device = u.device

namespace Aside

variable {jsn : Nat}

theorem refl (jsn : Nat) (u : State) : Aside jsn u u :=
  ⟨fun _ _ => ⟨rfl, rfl⟩, ⟨[], (List.append_nil _).symm, by decide, fun w hw => by cases hw⟩, rfl, rfl⟩

/-- An event before the end changes no journal. -/
theorem after_events (he : OnlyEvents s u) (h : Aside jsn u v) : Aside jsn s v := by
  obtain ⟨others, retire, kind, device⟩ := h
  refine ⟨fun j hj => ?_, ?_, kind.trans (congrArg Sys.kind he.sys), device.trans he.device⟩
  · rw [← findEntry_congr he.jrn j, ← findRun_congr he.jrn j]; exact others j hj
  · rwa [he.jrn] at retire

/-- No other command's abort is recorded by it. -/
theorem abortRecordedFor (h : Aside jsn u v) (j : Nat) : abortRecordedFor v j = abortRecordedFor u j := by
  obtain ⟨-, ⟨l, retire, -, ended⟩, -, -⟩ := h
  have none_new : (l.any fun w => w.jsn == j && w.state == 1) = false := by
    rw [List.any_eq_false]
    intro w hw
    simp [ended w hw]
  rw [Machine.abortRecordedFor, Machine.abortRecordedFor, retire, List.any_append, none_new, Bool.or_false]

theorem retire_length (h : Aside jsn u v) : v.jrn.retire.length ≤ u.jrn.retire.length + 1 := by
  obtain ⟨-, ⟨l, retire, one, -⟩, -, -⟩ := h
  rw [retire, List.length_append]
  omega

theorem retire_mem (h : Aside jsn u v) {w : RetireWord} (hw : w ∈ u.jrn.retire) : w ∈ v.jrn.retire := by
  obtain ⟨-, ⟨l, retire, -, -⟩, -, -⟩ := h
  rw [retire]
  exact List.mem_append_left _ hw

end Aside

/-- The report that comes before the end is of the command alone. -/
theorem reportFirst_others (e : JournalEntry) (s : State) {j : Nat} (hj : j ≠ e.jsn) :
    findEntry (reportFirst e s) j = findEntry s j ∧ findRun (reportFirst e s) j = findRun s j := by
  unfold reportFirst
  split
  · generalize hu : ({ s with sys := { s.sys with toReport := s.sys.toReport.filter (· != e.jsn) } } : State) = u
    have posted : (postTo (entryCq e) (mkCpl e 1 0 0 0 false) u).jrn = s.jrn := (postTo_jrn ..).trans (by rw [← hu])
    exact ⟨findEntry_congr posted j,
      (findRun_setRun_ne (f := fun r => { r with announced := true }) (fun _ => rfl) hj _).trans (findRun_congr posted j)⟩
  · exact ⟨rfl, rfl⟩

/-- A retire word and the end of a command's run are its own. -/
theorem retireNow_aside (e : JournalEntry) (r : RunInfo) (st : Nat) (r0 r1 : Word) (s : State) :
    Aside e.jsn s (retireNow e r st r0 r1 s) := by
  have freed : ∀ x : State, (if e.source = 65 then beginFree e.jsn x else x).jrn.retire = x.jrn.retire
      ∧ (if e.source = 65 then beginFree e.jsn x else x).jrn.runs = x.jrn.runs := by
    intro x; split <;> exact ⟨rfl, rfl⟩
  have entries : ∀ x : State, ∀ j, j ≠ e.jsn → findEntry (if e.source = 65 then beginFree e.jsn x else x) j = findEntry x j := by
    intro x j hj
    split
    · exact findEntry_setEntry_ne (f := fun e => { e with slot := .freeing }) (fun _ => rfl) hj x
    · rfl
  refine ⟨fun j hj => ⟨?_, ?_⟩, ⟨[{ jsn := e.jsn, state := 2, status := st, result0 := r0, result1 := r1 }], ?_, Nat.le_refl 1,
    fun w hw => by rw [List.mem_singleton.1 hw]⟩, ?_, retireNow_device ..⟩
  · unfold retireNow
    dsimp only
    rw [findEntry_congr (abortMissed_jrn ..), findEntry_congr (replayEnded_jrn ..), entries _ j hj, findEntry_congr (postTo_jrn ..),
      findEntry_congr (freePending_jrn ..), findEntry_congr (unpin_jrn ..)]
    exact (reportFirst_others e _ hj).1
  · unfold retireNow
    dsimp only
    rw [findRun_congr (abortMissed_jrn ..), findRun_congr (replayEnded_jrn ..), findRun, (freed _).2, ← findRun,
      findRun_congr (postTo_jrn ..), findRun_congr (freePending_jrn ..), findRun_congr (unpin_jrn ..)]
    refine Eq.trans ?_ (reportFirst_others e { s with jrn := { s.jrn with
      retire := s.jrn.retire ++ [{ jsn := e.jsn, state := 2, status := st, result0 := r0, result1 := r1 }] } } hj).2
    refine (List.find?_filter ..).trans (congrArg (fun p => List.find? p _) (funext fun x => ?_))
    by_cases hx : x.jsn = j
    · simp [hx, hj]
    · simp [hx]
  · unfold retireNow
    dsimp only
    simp only [abortMissed_jrn, replayEnded_jrn, (freed _).1, postTo_jrn, freePending_jrn, unpin_jrn, reportFirst_retire]
  · exact (boot_parts (retireNow_boot e r st r0 r1 s)).2.2.2.1

theorem endWith_aside (jsn st r0 r1 : Nat) (s : State) : Aside jsn s (endWith jsn st r0 r1 s) := by
  unfold endWith endCommand
  split
  · next e r he hr =>
    have own := findEntry_jsn he
    subst own
    dsimp only
    split
    · exact retireNow_aside ..
    · exact ⟨fun j hj => ⟨rfl, findRun_setRun_ne (f := fun r' => { r' with
          phase := .unretired
          final := some (if st = stOk ∧ r.retried then stOkRetried else st, wd r0, wd r1) }) (fun _ => rfl) hj s⟩,
        ⟨[], (List.append_nil _).symm, by decide, fun w hw => by cases hw⟩, rfl, rfl⟩
  · exact Aside.refl jsn s

theorem endEarly_aside (e : JournalEntry) (st : Nat) (s : State) : Aside e.jsn s (endEarly e st s) := by
  unfold endEarly
  dsimp only
  split_ifs
  · exact .after_events (raise_onlyEvents ..) (endWith_aside ..)
  · exact endWith_aside ..
  · exact .after_events (drawFree_onlyEvents s) (endWith_aside ..)
  · exact .after_events (drawFree_onlyEvents s) (endWith_aside ..)
  · exact .after_events (drawFree_onlyEvents s) (endWith_aside ..)
  · exact .after_events ((drawFree_onlyEvents s).trans (drawFree_onlyEvents _)) (endWith_aside ..)

theorem endAtReset_aside (e : JournalEntry) (st : Nat) (s : State) : Aside e.jsn s (endAtReset e st s) := by
  unfold endAtReset
  split
  · split
    · exact .after_events (raise_onlyEvents ..) (endWith_aside ..)
    · exact .after_events ((drawFree_onlyEvents s).trans (raise_onlyEvents ..)) (endWith_aside ..)
  · split
    · exact endWith_aside ..
    · exact endEarly_aside ..

/-- Replay leaves every command but the one in hand. -/
theorem replayOne_aside (s : State) (j : Nat) : Aside j s (replayOne s j) := by
  unfold replayOne
  split
  · next e r he hr =>
    have own := findEntry_jsn he
    subst own
    split_ifs
    · exact .refl _ s
    · exact endAtReset_aside ..
    · exact endAtReset_aside ..
    · exact .refl _ s
  · exact .refl _ s

/-! ### Replay -/

/-- A command that is ended at a start ends with its status. -/
theorem endAtReset_ends {j : Nat} {e : JournalEntry} {r : RunInfo} {st : Nat} (h : Held j e r s) (hst : st ≠ stOk) :
    Ends j st s (endAtReset e st s) := by
  have named := h.jsn_eq
  subst named
  unfold endAtReset
  split
  · split
    · next n _ =>
      obtain ⟨retired, gone, device, out⟩ := (h.ofJrn (raise_jrn evDurable e.jsn _ s)).endWith_fail hst
        (r0 := (findRun s e.jsn).elim 0 (·.done)) (r1 := n)
      exact ⟨⟨_, retired, rfl, rfl, rfl⟩, gone, device.trans (raise_device ..), (raise_onlyEvents ..).out_prefix.trans out⟩
    · have events := (drawFree_onlyEvents s).trans (raise_onlyEvents evDurable e.jsn ((findRun (drawFree s) e.jsn).elim 0 (·.done)) _)
      obtain ⟨retired, gone, device, out⟩ := (h.ofJrn events.jrn).endWith_fail hst
        (r0 := (findRun (drawFree s) e.jsn).elim 0 (·.done)) (r1 := Config.freeNat s.freeCount)
      exact ⟨⟨_, retired, rfl, rfl, rfl⟩, gone, device.trans events.device, events.out_prefix.trans out⟩
  · next hw =>
    split
    · exact endsWith_ends (h.endWith_fail hst)
    · exact endEarly_fail h (Bool.eq_false_iff.2 hw) hst

/-- A command that has ended stays so. -/
theorem replay_after {j st : Nat} (l : List Nat) (hr : RetiredWith j st v) (hg : findRun v j = none) :
    RetiredWith j st (l.foldl replayOne v) ∧ findRun (l.foldl replayOne v) j = none ∧ (l.foldl replayOne v).device = v.device := by
  induction l generalizing v with
  | nil => exact ⟨hr, hg, rfl⟩
  | cons x l ih =>
    have aside := replayOne_aside v x
    have gone : findRun (replayOne v x) j = none := by
      by_cases hx : j = x
      · subst hx
        have skipped : replayOne v j = v := by
          unfold replayOne
          rw [hg]
          cases findEntry v j <;> rfl
        rw [skipped]; exact hg
      · exact (aside.1 j hx).2.trans hg
    have retired : RetiredWith j st (replayOne v x) := hr.imp fun w hw => ⟨aside.retire_mem hw.1, hw.2⟩
    obtain ⟨retired', gone', device⟩ := ih retired gone
    exact ⟨retired', gone', device.trans aside.2.2.2⟩

/-- The status with which a command ends at a start that is not a warm reset (R433, R434). -/
def replayStatus (s : State) (j : Nat) : Nat := if abortRecordedFor s j then stAbortedByHost else stAbortedByReset

theorem replayOne_ends {j : Nat} {e : JournalEntry} {r : RunInfo} (he : findEntry s j = some e) (hr : findRun s j = some r)
    (hrep : r.replayed = true) (hph : r.phase = .accepted) (hkind : s.sys.kind ≠ 2) :
    replayOne s j = endAtReset e (replayStatus s j) s := by
  unfold replayOne replayStatus
  rw [he, hr]
  dsimp only
  rw [if_neg (by simp [hrep, hph])]
  split
  · rfl
  · rw [if_pos (by simp [hkind])]

/-- Every command that is to end ends. -/
theorem replay_ends {j : Nat} {e : JournalEntry} {r : RunInfo} (l : List Nat) (hj : j ∈ l) (he : findEntry s j = some e)
    (hr : findRun s j = some r) (hrep : r.replayed = true) (hph : r.phase = .accepted) (hkind : s.sys.kind ≠ 2)
    (hroom : s.jrn.retire.length + l.length ≤ 16384) :
    RetiredWith j (replayStatus s j) (l.foldl replayOne s) ∧ findRun (l.foldl replayOne s) j = none
      ∧ (l.foldl replayOne s).device = s.device := by
  induction l generalizing s with
  | nil => cases hj
  | cons x l ih =>
    rw [List.length_cons] at hroom
    by_cases hx : j = x
    · subst hx
      have held : Held j e r s := ⟨he, hr, decide_eq_true (by omega)⟩
      have bad : replayStatus s j ≠ stOk := by
        unfold replayStatus; split <;> decide
      obtain ⟨retired, gone, device, -⟩ := endAtReset_ends held bad
      obtain ⟨retired', gone', device'⟩ := replay_after l retired gone
      rw [List.foldl_cons, replayOne_ends he hr hrep hph hkind]
      exact ⟨retired', gone', device'.trans device⟩
    · have aside := replayOne_aside s x
      obtain ⟨entry, run⟩ := aside.1 j hx
      have later : j ∈ l := (List.mem_cons.1 hj).resolve_left hx
      have same : replayStatus (replayOne s x) j = replayStatus s j := by rw [replayStatus, replayStatus, aside.abortRecordedFor]
      obtain ⟨retired, gone, device⟩ := ih later (entry.trans he) (run.trans hr) (by rw [aside.2.2.1]; exact hkind)
        (by have := aside.retire_length; omega)
      rw [same] at retired
      exact ⟨retired, gone, device.trans aside.2.2.2⟩

/-- After a warm reset a command that Table 17-4 does not end is left to run again. -/
theorem replay_leaves {j : Nat} {e : JournalEntry} {r : RunInfo} (l : List Nat) (he : findEntry s j = some e)
    (hr : findRun s j = some r) (hab : abortRecordedFor s j = false) (hkind : s.sys.kind = 2) (hend : endsByReset e = false)
    (hhdm : ∀ x ∈ r.list, x.hdm = false) :
    findRun (l.foldl replayOne s) j = some r ∧ (l.foldl replayOne s).device = s.device := by
  induction l generalizing s with
  | nil => exact ⟨hr, rfl⟩
  | cons x l ih =>
    have aside := replayOne_aside s x
    have stays : findEntry (replayOne s x) j = some e ∧ findRun (replayOne s x) j = some r := by
      by_cases hx : j = x
      · subst hx
        have mapped : (r.list.any fun x => x.hdm) = false := by
          rw [List.any_eq_false]; intro x hx; rw [hhdm x hx]; decide
        have left : replayOne s j = s := by
          unfold replayOne
          rw [he, hr]
          dsimp only
          split_ifs with h₁ h₂ h₃
          · rfl
          · rw [hab] at h₂; cases h₂
          · simp [hkind, hend, mapped] at h₃
          · rfl
        rw [left]; exact ⟨he, hr⟩
      · exact ⟨(aside.1 j hx).1.trans he, (aside.1 j hx).2.trans hr⟩
    obtain ⟨run, device⟩ := ih stays.1 stays.2 ((aside.abortRecordedFor j).trans hab) (aside.2.2.1.trans hkind)
    exact ⟨run, device.trans aside.2.2.2⟩

/-! ### Reports -/

/-- The configurations of the completion rings. -/
def ringCfgs (s : State) : List RingCfg := s.cmd.cplRings.map (·.cfg)

theorem getCq_cfg (h : ringCfgs t = ringCfgs s) (n : Nat) : (getCq n t).cfg = (getCq n s).cfg := by
  have each : (t.cmd.cplRings[n]?).map (·.cfg) = (s.cmd.cplRings[n]?).map (·.cfg) := by
    rw [← List.getElem?_map, ← List.getElem?_map]; exact congrArg (·[n]?) h
  simp only [getCq, List.getD_eq_getElem?_getD]
  cases ht : t.cmd.cplRings[n]? <;> cases hs : s.cmd.cplRings[n]? <;> simp_all

/-- From u to v reports have been made: every entry is named as before, the rings are configured as before, and no report is new. -/
def Reports (u v : State) : Prop :=
  (∀ j, (findEntry v j).map (fun e => (e.source, e.words)) = (findEntry u j).map fun e => (e.source, e.words))
    ∧ ringCfgs v = ringCfgs u ∧ v.sys.toReport = u.sys.toReport ∧ v.device = u.device

namespace Reports

theorem refl (u : State) : Reports u u := ⟨fun _ => rfl, rfl, rfl, rfl⟩

theorem trans (h : Reports s t) (h' : Reports t u) : Reports s u := by
  obtain ⟨names, cfgs, left, device⟩ := h
  obtain ⟨names', cfgs', left', device'⟩ := h'
  exact ⟨fun j => (names' j).trans (names j), cfgs'.trans cfgs, left'.trans left, device'.trans device⟩

theorem of_jrn (hj : t.jrn = s.jrn) (hc : ringCfgs t = ringCfgs s) (hs : t.sys = s.sys) (hd : t.device = s.device) : Reports s t :=
  ⟨fun j => by rw [findEntry_congr hj], hc, by rw [hs], hd⟩

theorem of_onlyEvents (h : OnlyEvents s t) : Reports s t := by
  obtain ⟨e, g, cmd⟩ := h.cmd
  exact of_jrn h.jrn (by rw [ringCfgs, cmd]; rfl) h.sys h.device

end Reports

theorem setCq_cfgs {f : CplRing → CplRing} (hf : ∀ r, (f r).cfg = r.cfg) (n : Nat) (s : State) : ringCfgs (setCq n f s) = ringCfgs s := by
  change (s.cmd.cplRings.modify n f).map (·.cfg) = _
  refine List.ext_getElem? fun m => ?_
  rw [ringCfgs, List.getElem?_map, List.getElem?_map, List.getElem?_modify]
  split
  · cases s.cmd.cplRings[m]? with
    | none => rfl
    | some r => exact congrArg some (hf r)
  · simp

theorem cplPost_reports (n : Nat) (c : Completion) (s : State) : Reports s (cplPost n c s) := by
  have rings := cplPost_onlyRings n c s
  refine .of_jrn rings.jrn ?_ rings.sys rings.device
  have written : ringCfgs (cplWrite n c s) = ringCfgs s := by
    have ring : ringCfgs (setCq n (cplAdvance c) (hostStore ((getCq n s).cfg.base.toNat + 32 * (getCq n s).tail)
        (wordBytes (cplWords c (if c.source < 64 then sqHead c.source s else 0) (getCq n s).phase)) s)) = ringCfgs s :=
      (setCq_cfgs (f := cplAdvance c) (fun _ => rfl) n _).trans
        (congrArg (fun c : Cmd => c.cplRings.map CplRing.cfg) (hostStore_cmd ..) :)
    refine Eq.trans ?_ ring
    exact congrArg (fun c : Cmd => c.cplRings.map (·.cfg)) (msixTrigger_cmd _ _ _)
  have waits : ringCfgs (setCq n (fun r => { r with waiting := r.waiting ++ [c] }) s) = ringCfgs s :=
    setCq_cfgs (f := fun r => { r with waiting := r.waiting ++ [c] }) (fun _ => rfl) n s
  unfold cplPost
  dsimp only
  split_ifs
  · exact written
  · exact (Reports.of_onlyEvents (raise_onlyEvents ..)).2.1.trans waits
  · exact waits

theorem postTo_reports (ring : Nat) (c : Completion) (s : State) : Reports s (postTo ring c s) := by
  unfold postTo
  split_ifs
  · exact .of_jrn rfl rfl rfl rfl
  · exact .of_jrn rfl rfl rfl rfl
  · exact cplPost_reports ring c s

theorem setRun_reports (j : Nat) (f : RunInfo → RunInfo) (s : State) : Reports s (setRun j f s) := ⟨fun _ => rfl, rfl, rfl, rfl⟩

theorem beginFree_reports (j : Nat) (s : State) : Reports s (beginFree j s) := by
  refine ⟨fun i => ?_, rfl, rfl, rfl⟩
  by_cases hi : i = j
  · subst hi
    rw [beginFree, findEntry_setEntry_same (f := fun e => { e with slot := .freeing }) (fun _ => rfl), Option.map_map]
    rfl
  · rw [beginFree, findEntry_setEntry_ne (f := fun e => { e with slot := .freeing }) (fun _ => rfl) hi]

/-- The reports that are left once one of them has been made. -/
def reportTaken (j : Nat) (s : State) : State := { s with sys := { s.sys with toReport := s.sys.toReport.filter (· != j) } }

/-- A report waits for its ring, or is made. -/
theorem reportOne_cases (s : State) (j : Nat) :
    reportOne s j = s ∧ (∀ e, findEntry s j = some e → e.source ≠ 65 ∧ (getCq (entryCq e) s).cfg.en = false)
      ∨ Reports (reportTaken j s) (reportOne s j) := by
  unfold reportOne
  split
  · next he => exact .inl ⟨rfl, fun e h => by rw [he] at h; cases h⟩
  · next e he =>
    split
    · next h =>
      simp only [Bool.and_eq_true, Bool.not_eq_true', ne_eq] at h
      exact .inl ⟨rfl, fun e' h' => by rw [he] at h'; cases h'; simpa using h⟩
    · right
      dsimp only
      split
      · exact (postTo_reports ..).trans (setRun_reports ..)
      · next w _ =>
        have durable : Reports (reportTaken j s) (reportDurable e w (reportTaken j s)) := by
          unfold reportDurable
          split
          · exact .of_onlyEvents (raise_onlyEvents ..)
          · exact .refl _
        have posted := durable.trans (postTo_reports (entryCq e) (mkCpl e 3 w.status w.result0 w.result1 false) _)
        split
        · exact posted.trans (beginFree_reports j _)
        · exact posted

/-- What a run of reports leaves. -/
def Reported (u v : State) : Prop :=
  (∀ j, (findEntry v j).map (fun e => (e.source, e.words)) = (findEntry u j).map fun e => (e.source, e.words))
    ∧ ringCfgs v = ringCfgs u ∧ (∀ j, j ∈ v.sys.toReport → j ∈ u.sys.toReport) ∧ v.device = u.device

theorem reportOne_reported (s : State) (j : Nat) : Reported s (reportOne s j) := by
  obtain ⟨same, -⟩ | ⟨names, cfgs, left, device⟩ := reportOne_cases s j
  · rw [same]; exact ⟨fun _ => rfl, rfl, fun _ h => h, rfl⟩
  · refine ⟨names, cfgs, fun i hi => ?_, device⟩
    rw [left] at hi
    exact (List.mem_filter.1 hi).1

/-- A command that can be reported is. -/
def Reportable (s : State) (j : Nat) : Prop := ∃ e, findEntry s j = some e ∧ (e.source = 65 ∨ (getCq (entryCq e) s).cfg.en = true)

theorem Reportable.of_reported {j : Nat} (h : Reportable s j) (hr : Reported s t) : Reportable t j := by
  obtain ⟨e, he, hen⟩ := h
  obtain ⟨names, cfgs, -, -⟩ := hr
  have name := names j
  rw [he] at name
  cases ht : findEntry t j with
  | none => rw [ht] at name; cases name
  | some e' =>
    rw [ht] at name
    obtain ⟨source, words⟩ := Prod.mk.inj (Option.some.inj name)
    refine ⟨e', ht, ?_⟩
    have ring : entryCq e' = entryCq e := by simp only [entryCq, pktWord, words]
    rw [source, ring, getCq_cfg cfgs]
    exact hen

theorem reportOne_takes {j : Nat} (h : Reportable s j) : j ∉ (reportOne s j).sys.toReport := by
  obtain ⟨-, waits⟩ | ⟨-, -, left, -⟩ := reportOne_cases s j
  · obtain ⟨e, he, hen⟩ := h
    obtain ⟨source, off⟩ := waits e he
    obtain h | h := hen
    · exact absurd h source
    · rw [off] at h; cases h
  · rw [left]; simp [reportTaken]

theorem reports_reported (l : List Nat) (s : State) :
    Reported s (l.foldl reportOne s) ∧ ∀ j, Reportable s j → j ∈ l ∨ j ∉ s.sys.toReport → j ∉ (l.foldl reportOne s).sys.toReport := by
  induction l generalizing s with
  | nil =>
    refine ⟨⟨fun _ => rfl, rfl, fun _ h => h, rfl⟩, fun j _ hj => ?_⟩
    exact hj.resolve_left (List.not_mem_nil)
  | cons x l ih =>
    obtain ⟨⟨names', cfgs', left', device'⟩, gone⟩ := ih (reportOne s x)
    have one := reportOne_reported s x
    obtain ⟨names, cfgs, left, device⟩ := id one
    refine ⟨⟨fun j => (names' j).trans (names j), cfgs'.trans cfgs, fun j hj => left j (left' j hj), device'.trans device⟩,
      fun j hrep hj => gone j (hrep.of_reported one) ?_⟩
    by_cases hx : j = x
    · subst hx; exact .inr (reportOne_takes hrep)
    · refine hj.imp (fun h => (List.mem_cons.1 h).resolve_left hx) fun h h' => h (left j h')

/-- Settles O39: the start-up sequence, replay and its reports. -/
theorem startUpAndReplay : Obligations.StartUpAndReplay := by
  refine ⟨⟨fun b i s hph => ?_, fun b i s hph hs hn => ?_⟩, fun j e r s hfw he hr hrep hph hroom hkind => ?_,
    fun j e r s hfw he hr hab hkind hend hhdm => ?_, fun s hfw hposted => ?_⟩
  · obtain ⟨phase, ready, at_, clean, rom, kind, subsys⟩ := startedUp_parts b i s
    exact ⟨_, startUpSequence_runs b i hph, phase, ready, at_, clean, rom, kind, subsys, startedUp_meters b i hph⟩
  · obtain ⟨e, rest⟩ := startedUp_entry b i hph hs hn
    exact ⟨_, e, startUpSequence_runs b i hph, rest⟩
  · have listed : j ∈ s.jrn.entries.map (·.jsn) := List.mem_map.2 ⟨e, List.mem_of_find?_eq_some he, findEntry_jsn he⟩
    obtain ⟨retired, gone, device⟩ := replay_ends _ listed he hr hrep hph hkind (by rwa [List.length_map])
    exact ⟨_, congrArg Host.Outcome.next (if_neg (by rw [hfw]; decide)), retired, gone, device⟩
  · exact ⟨_, congrArg Host.Outcome.next (if_neg (by rw [hfw]; decide)), replay_leaves _ he hr hab hkind hend hhdm⟩
  · obtain ⟨⟨-, -, left, device⟩, gone⟩ := reports_reported s.sys.toReport s
    let u := s.sys.toReport.foldl reportOne s
    have runs : exec .replayReportPosted s = .next (if reportsDone u then
        raiseN evSysReplayPosted { u with sys := { u.sys with replayPosted := true } } else u) :=
      congrArg Host.Outcome.next (if_neg (by rw [hfw, hposted]; decide))
    have same : ∀ v, v = (if reportsDone u then raiseN evSysReplayPosted { u with sys := { u.sys with replayPosted := true } } else u) →
        v.sys.toReport = u.sys.toReport ∧ v.device = u.device := by
      rintro v rfl
      split
      · have raised := raiseN_onlyEvents evSysReplayPosted { u with sys := { u.sys with replayPosted := true } }
        exact ⟨(congrArg Sys.toReport raised.sys :), raised.device⟩
      · exact ⟨rfl, rfl⟩
    obtain ⟨list, dev⟩ := same _ rfl
    refine ⟨_, runs, fun j e he hen => ?_, fun j hj => ?_, dev.trans device⟩
    · rw [list]
      exact gone j ⟨e, he, hen⟩ (Decidable.em _)
    · rw [list] at hj
      exact left j hj

end Sys2Proof.Proofs
end

section
/-! PROOFS. The host link (02 R45, R47, R55-R57; O41): what link negotiation, an ATS invalidation and the unmasking of a vector
leave. -/

namespace Sys2Proof.Proofs

open Sys2Proof.Machine Sys2Proof.Safety Sys2Proof.Laws

variable {s : State}

/-! ### Link negotiation -/

theorem offeredMode_cases (o : LinkOffer) :
    (offeredMode o = 1 ∧ o.io = true ∧ o.cache = true ∧ o.mem = true ∧ 3 ≤ o.rate ∧ (o.width = 4 ∨ o.width = 8 ∨ o.width = 16))
      ∨ (offeredMode o = 2
        ∧ (o.io = false ∨ o.cache = false ∨ o.mem = false ∨ o.rate < 3 ∨ (o.width ≠ 4 ∧ o.width ≠ 8 ∧ o.width ≠ 16))) := by
  unfold offeredMode
  split
  · next h =>
    simp only [cxlWidth, Bool.and_eq_true, Bool.or_eq_true, beq_iff_eq, decide_eq_true_eq] at h
    obtain ⟨⟨⟨⟨io, cache⟩, mem⟩, rate⟩, width⟩ := h
    exact .inl ⟨rfl, io, cache, mem, rate, or_assoc.1 width⟩
  · next h =>
    refine .inr ⟨rfl, ?_⟩
    simp only [cxlWidth, Bool.and_eq_true, Bool.or_eq_true, beq_iff_eq, decide_eq_true_eq] at h
    cases hio : o.io <;> cases hcache : o.cache <;> cases hmem : o.mem <;> simp_all
    omega

theorem enterMode_cxl {o : LinkOffer} (h : offeredMode o = 1) (hif : Hif) :
    enterMode o hif = { hif with mode := 1, rate := o.rate, width := o.width } := by
  rw [enterMode, h, if_pos rfl]

theorem enterMode_pcie {o : LinkOffer} (h : offeredMode o = 2) (hif : Hif) :
    enterMode o hif = { hif with
      mode := 2, rate := o.rate, width := o.width, memEn := false, cacheEn := false, committed := false, hdmBase := 0, hdmSize := 0 } := by
  rw [enterMode, h]; exact if_neg (show ¬(2 : Nat) = 1 by decide)

theorem linkNegotiation_onlyEvents (o : LinkOffer) (h : hostUp s = true) :
    ∃ t, exec (.linkNegotiation o) s = .next t ∧ OnlyEvents (setHif (enterMode o) s) t := by
  refine ⟨_, congrArg Host.Outcome.next (if_neg (by rw [h]; decide)), ?_⟩
  dsimp only
  split
  · exact .refl _
  · exact raise_onlyEvents ..

theorem linkNegotiation_ends (o : LinkOffer) (h : hostUp s = true) :
    ∃ t, exec (.linkNegotiation o) s = .next t ∧ t.hif.rate = o.rate ∧ t.hif.width = o.width
      ∧ (o.io = true ∧ o.cache = true ∧ o.mem = true ∧ 3 ≤ o.rate ∧ (o.width = 4 ∨ o.width = 8 ∨ o.width = 16) → t.hif.mode = 1 ∧ t.hif.memEn = s.hif.memEn
          ∧ t.hif.committed = s.hif.committed)
      ∧ (o.io = false ∨ o.cache = false ∨ o.mem = false ∨ o.rate < 3 ∨ (o.width ≠ 4 ∧ o.width ≠ 8 ∧ o.width ≠ 16) → t.hif.mode = 2 ∧ t.hif.memEn = false
          ∧ t.hif.cacheEn = false ∧ t.hif.committed = false ∧ (∀ h, hdmMap h t = none))
      ∧ t.device = s.device ∧ t.jrn = s.jrn := by
  obtain ⟨t, runs, raised⟩ := linkNegotiation_onlyEvents o h
  obtain ⟨a, p, hif⟩ := raised.hif
  refine ⟨t, runs, ?_⟩
  obtain ⟨mode, io, cache, mem, rate, width⟩ | ⟨mode, lacks⟩ := offeredMode_cases o
  · have entered : (setHif (enterMode o) s).hif = { s.hif with mode := 1, rate := o.rate, width := o.width } := enterMode_cxl mode _
    rw [entered] at hif
    refine ⟨by rw [hif], by rw [hif], fun _ => by rw [hif]; exact ⟨rfl, rfl, rfl⟩, fun lacks => ?_, raised.device, raised.jrn⟩
    simp only [io, cache, mem, Bool.true_eq_false, false_or] at lacks
    omega
  · have entered : (setHif (enterMode o) s).hif = { s.hif with
        mode := 2, rate := o.rate, width := o.width, memEn := false, cacheEn := false, committed := false, hdmBase := 0, hdmSize := 0 } :=
      enterMode_pcie mode _
    rw [entered] at hif
    refine ⟨by rw [hif], by rw [hif], fun ⟨io, cache, mem, rate, width⟩ => ?_, fun _ => ?_, raised.device, raised.jrn⟩
    · simp only [io, cache, mem, Bool.true_eq_false, false_or] at lacks
      omega
    · have uncommitted : t.hif.committed = false := by rw [hif]
      exact ⟨by rw [hif], by rw [hif], by rw [hif], uncommitted, hdmMap_eq_none_of_uncommitted uncommitted⟩

/-! ### ATS -/

theorem not_overlaps {a n b m : Nat} : (!overlaps a n b m) = true ↔ b + m ≤ a ∨ a + n ≤ b := by
  simp only [overlaps, Bool.not_eq_true', Bool.and_eq_false_iff, decide_eq_false_iff_not]
  omega

/-- The host interface with the translations of a range dropped. -/
def invalidated (addr size : Nat) (gone : Bool) (h : Hif) : Hif :=
  { h with
    atc := h.atc.filter fun p => !overlaps addr size p.1 p.2
    atcBad := (if gone then [(addr, size)] else []) ++ h.atcBad.filter fun p => !overlaps addr size p.1 p.2 }

theorem atsInvalidate_runs (addr size : Nat) (gone : Bool) (h : hostUp s = true) :
    exec (.atsInvalidate addr size gone) s = .next (emit (.atsComplete addr size) (setHif (invalidated addr size gone) s)) :=
  congrArg Host.Outcome.next (if_neg (by rw [h]; decide))

theorem translates_gone {addr size a n : Nat} {t : State} (hbad : (addr, size) ∈ t.hif.atcBad) (h1 : addr < a + n) (h2 : a < addr + size)
    (h : translates a n t = true) : t.hif.atsEn = false := by
  have hit : (t.hif.atcBad.any fun p => overlaps a n p.1 p.2) = true :=
    List.any_eq_true.2 ⟨_, hbad, by simp [overlaps, h1, h2]⟩
  rw [translates, hit, Bool.and_true] at h
  simpa using (Bool.and_eq_true_iff.1 h).2

/-! ### MSI-X vectors -/

/-- The vector is unmasked. -/
def vectorUnmasked (v : Nat) (s : State) : State := setHif (fun h => { h with unmasked := tabSet false v true h.unmasked }) s

theorem vectorUnmasked_same (v : Nat) (s : State) : tabGet false (vectorUnmasked v s).hif.unmasked v = true :=
  tabGet_tabSet false v true s.hif.unmasked

theorem msixUnmask_runs {v : Nat} (h : hostUp s = true) (hopen : mmioOpen s) (hv : v < 256) :
    exec (.msixUnmask v) s = .next (msixRelease v (vectorUnmasked v s)) := by
  refine congrArg Host.Outcome.next ?_
  rw [onMmio_of_open hopen, h, if_neg (by simpa using hv)]
  rfl

theorem msixUnmask_sends {v : Nat} (hopen : mmioOpen s) (hp : tabGet false s.hif.pba v = true) (hm : s.hif.funcMask = false) :
    msixRelease v (vectorUnmasked v s)
      = emit (.msix v) (setHif (fun h => { h with pba := tabSet false v false h.pba }) (vectorUnmasked v s)) := by
  refine if_pos ?_
  have pending : tabGet false (vectorUnmasked v s).hif.pba v = true := hp
  have mask : (vectorUnmasked v s).hif.funcMask = false := hm
  have carried : (vectorUnmasked v s).hif.ideIo.state ≠ .insecure := hopen
  rw [vectorUnmasked_same, pending, mask, decide_eq_true carried]
  rfl

theorem msixUnmask_waits {v : Nat} (h : tabGet false s.hif.pba v = false ∨ s.hif.funcMask = true) :
    msixRelease v (vectorUnmasked v s) = vectorUnmasked v s := by
  refine if_neg ?_
  have pending : tabGet false (vectorUnmasked v s).hif.pba v = tabGet false s.hif.pba v := rfl
  have mask : (vectorUnmasked v s).hif.funcMask = s.hif.funcMask := rfl
  rw [pending, mask]
  rcases h with h | h <;> simp [h]

/-- Settles O41: each command of the link has its one effect on the host interface. -/
theorem hostLinkCommands : Obligations.HostLinkCommands := by
  refine ⟨fun o s h => linkNegotiation_ends o h, fun s h => ?_, fun s h hn => ?_, fun base size iw lock s h => ?_,
    fun line s h hm hc => congrArg Host.Outcome.next (if_pos ⟨h, hm, hc⟩), fun addr size gone s h => ?_,
    fun v s h hopen hv hp hm => ?_, fun v s h hopen hv hp => ?_⟩
  · have up : hostUp s = true := by rw [hostUp, h]; decide
    refine congrArg Host.Outcome.next ((if_neg (by rw [up]; decide)).trans (if_neg ?_))
    rw [configEarly, h]; decide
  · refine congrArg Host.Outcome.next ((if_neg (by rw [h]; decide)).trans (if_pos ?_))
    exact decide_eq_true hn
  · change Host.Outcome.next (onMmio s _) = _
    rw [h, Bool.or_true, if_pos rfl, onMmio, ite_self]
  · refine ⟨_, atsInvalidate_runs addr size gone h, rfl, fun p => ?_, fun hgone a n h1 h2 ht => ?_, rfl⟩
    · refine List.mem_filter.trans (and_congr_right fun _ => ?_)
      exact not_overlaps
    · refine translates_gone ?_ h1 h2 ht
      subst hgone
      exact List.mem_cons_self
  · refine ⟨_, msixUnmask_runs h hopen hv, ?_⟩
    rw [msixUnmask_sends hopen hp hm]
    exact ⟨rfl, tabGet_tabSet false v false s.hif.pba, vectorUnmasked_same v s, fun k hk => tabGet_tabSet_ne false false _ hk, rfl⟩
  · refine ⟨_, msixUnmask_runs h hopen hv, ?_⟩
    rw [msixUnmask_waits hp]
    exact ⟨rfl, vectorUnmasked_same v s, rfl, fun k hk => tabGet_tabSet_ne false true _ hk, rfl⟩

end Sys2Proof.Proofs
end

section
/-! PROOFS. The DOE mailbox and the IDE streams (02 R49, R51-R53; O42): the poison of a failed epoch, the recovery of a stream, and
the end of a write that waits for its data. -/

namespace Sys2Proof.Machine

/-- The IDE streams, and what their recovery leaves. -/
def State.streams (s : State) : (Ide × Ide) × Mem × Fmt × Cart × List JournalEntry :=
  ((s.hif.ideIo, s.hif.ideCm), s.mem, s.fmt, s.cart, s.jrn.entries)

end Sys2Proof.Machine

namespace Sys2Proof.Proofs

open Sys2Proof.Machine Sys2Proof.Safety Sys2Proof.Laws

variable {s t : State}

/-! ### The DOE mailbox -/

theorem doeObject_length (v ty : Nat) (l : List Byte) : (doeObject v ty l).length = l.length + 8 := by
  simp only [doeObject, List.length_append, leBytes_length]
  omega

/-- A request of a device that runs, told apart by its length, the mailbox and its protocol. -/
theorem doeRequest_runs (v ty : Nat) (l : List Byte) (h : s.sys.phase = .running) :
    exec (.doeRequest v ty l) s = .next (if 65528 < l.length then setDoe (fun d => { d with error := true }) s
      else if s.hif.doe.request.isSome then s
      else if (v, ty) = (1, 0) then doeAnswer (doeObject 1 0 (discoveryAnswer (byteAt l 0))) s
      else if (v, ty) = (0x1E98, 2) then doeAnswer (doeObject 0x1E98 2 (cdatAnswer (leNat (slice l 2 2)))) s
      else if (v, ty) = (1, 1) ∨ (v, ty) = (1, 2) then doeToWeighhouse ty l s else s) := by
  have up : hostUp s = true := by rw [hostUp, h]; decide
  have late : configEarly s = false := by rw [configEarly, h]; decide
  change execDoeRequest v ty l s = _
  rw [execDoeRequest, up, late, doeObject_length]
  have long : 65536 < l.length + 8 ↔ 65528 < l.length := by omega
  simp only [long]
  rfl

theorem doeRequest_fits {v ty : Nat} {l : List Byte} (h : s.sys.phase = .running) (hl : l.length ≤ 65528) (hn : s.hif.doe.request = none) :
    exec (.doeRequest v ty l) s = .next (if (v, ty) = (1, 0) then doeAnswer (doeObject 1 0 (discoveryAnswer (byteAt l 0))) s
      else if (v, ty) = (0x1E98, 2) then doeAnswer (doeObject 0x1E98 2 (cdatAnswer (leNat (slice l 2 2)))) s
      else if (v, ty) = (1, 1) ∨ (v, ty) = (1, 2) then doeToWeighhouse ty l s else s) := by
  rw [doeRequest_runs v ty l h, if_neg (by omega), hn]
  rfl

theorem doeRequest_spdm {l : List Byte} (h : s.sys.phase = .running) (hl : l.length ≤ 65528) (hn : s.hif.doe.request = none) :
    exec (.doeRequest 1 1 l) s = .next (doeToWeighhouse 1 l s) := doeRequest_fits h hl hn

/-! ### Poison -/

theorem mem_poisonLine {a b : Nat} (s : State) :
    a ∈ (poisonLine s b).mem.hbmPoison ↔ a = b + 32 ∨ a = b ∨ a ∈ s.mem.hbmPoison := by
  rw [poisonLine, mem_insertNat, mem_insertNat]

theorem mem_poisonLines {a : Nat} (l : List Nat) (s : State) :
    a ∈ (l.foldl poisonLine s).mem.hbmPoison ↔ a ∈ s.mem.hbmPoison ∨ a ∈ l ∨ ∃ b ∈ l, a = b + 32 := by
  induction l generalizing s with
  | nil => simp
  | cons b l ih =>
    rw [List.foldl_cons, ih, mem_poisonLine]
    simp only [List.mem_cons, exists_eq_or_imp]
    tauto

/-- Poisoning lines changes the list of poisoned words alone. -/
theorem poisonLines_shape (l : List Nat) (s : State) :
    l.foldl poisonLine s = { s with mem := { s.mem with hbmPoison := (l.foldl poisonLine s).mem.hbmPoison } } := by
  induction l generalizing s with
  | nil => rfl
  | cons b l ih => rw [List.foldl_cons, ih]; rfl

/-! ### IDE streams -/

theorem ideOf_setIde (st : IdeStream) (f : Ide → Ide) (s : State) : ideOf st (setIde st f s) = f (ideOf st s) := by cases st <;> rfl

/-- The streams of a state whose events alone differ. -/
theorem ideOf_congr (st : IdeStream) (h : t.hif.ideIo = s.hif.ideIo ∧ t.hif.ideCm = s.hif.ideCm) : ideOf st t = ideOf st s := by
  cases st
  · exact h.1
  · exact h.2

theorem OnlyEvents.ide (h : OnlyEvents s t) (st : IdeStream) : ideOf st t = ideOf st s := by
  obtain ⟨a, p, hif⟩ := h.hif
  exact ideOf_congr st (by rw [hif]; exact ⟨rfl, rfl⟩)

/-- A change of a unit's state changes its record and raises its event. -/
theorem setUnit_onlyEvents (u st cause : Nat) (s : State) :
    OnlyEvents (modUnit u (fun x => { x with state := st, cause := cause }) s) (setUnit u st cause s) := by
  unfold setUnit
  dsimp only
  split
  · exact .refl _
  · exact raise_onlyEvents ..

/-- The state of a stream that has failed, its epoch poisoned. -/
def ideFailed (st : IdeStream) (lines : List Nat) (s : State) : State :=
  lines.foldl poisonLine (setIde st (fun _ => { state := .insecure, failAt := s.aon.time, epoch := [] }) s)

theorem ideFailed_shape (st : IdeStream) (lines : List Nat) (s : State) :
    ideOf st (ideFailed st lines s) = { state := .insecure, failAt := s.aon.time, epoch := [] }
      ∧ (∀ a, a ∈ (ideFailed st lines s).mem.hbmPoison ↔ a ∈ s.mem.hbmPoison ∨ a ∈ lines ∨ ∃ b ∈ lines, a = b + 32)
      ∧ (ideFailed st lines s).mem.hbm = s.mem.hbm ∧ (ideFailed st lines s).jrn = s.jrn ∧ (ideFailed st lines s).fmt = s.fmt := by
  let d : Ide := { state := .insecure, failAt := s.aon.time, epoch := [] }
  have shape : ideFailed st lines s = _ := poisonLines_shape lines (setIde st (fun _ => d) s)
  have poisoned : ∀ a, _ := fun a => mem_poisonLines (a := a) lines (setIde st (fun _ => d) s)
  have rest : (setIde st (fun _ => d) s).mem = s.mem ∧ (setIde st (fun _ => d) s).jrn = s.jrn ∧ (setIde st (fun _ => d) s).fmt = s.fmt := by
    cases st <;> exact ⟨rfl, rfl, rfl⟩
  obtain ⟨mem, jrn, fmt⟩ := rest
  refine ⟨?_, fun a => ?_, ?_, ?_, ?_⟩
  · rw [shape]
    exact (ideOf_congr st ⟨rfl, rfl⟩).trans (ideOf_setIde st (fun _ => d) s)
  · rw [← mem]; exact poisoned a
  · rw [shape, ← mem]
  · rw [shape]; exact jrn
  · rw [shape]; exact fmt

theorem ideIntegrityFail_ends (st : IdeStream) (n at_ : Nat) (h : (ideOf st s).state = .secure) :
    let lines := (ideOf st s).epoch.drop ((ideOf st s).epoch.length - n)
    ∃ t, exec (.ideIntegrityFail st n at_) s = .next t ∧ (ideOf st t).state = .insecure ∧ (ideOf st t).epoch = []
      ∧ (ideOf st t).failAt = max s.aon.time at_
      ∧ (∀ a ∈ lines, a ∈ t.mem.hbmPoison ∧ a + 32 ∈ t.mem.hbmPoison)
      ∧ (∀ a ∈ t.mem.hbmPoison, a ∈ s.mem.hbmPoison ∨ a ∈ lines ∨ ∃ b ∈ lines, a = b + 32)
      ∧ t.mem.hbm = s.mem.hbm ∧ t.jrn = s.jrn ∧ t.fmt = s.fmt := by
  intro lines
  have same : ideOf st (atTime at_ s) = ideOf st s := ideOf_congr st ⟨rfl, rfl⟩
  have runs : exec (.ideIntegrityFail st n at_) s = .next (raiseN evHifIdeFail (setUnit unHost 1 0 (ideFailed st lines (atTime at_ s)))) := by
    refine congrArg Host.Outcome.next ?_
    dsimp only
    rw [same, if_neg (by rw [h]; decide)]
    rfl
  obtain ⟨ide, poison, hbm, jrn, fmt⟩ := ideFailed_shape st lines (atTime at_ s)
  have events := (setUnit_onlyEvents unHost 1 0 (ideFailed st lines (atTime at_ s))).trans (raiseN_onlyEvents evHifIdeFail _)
  have ide' := (events.ide st).trans ((ideOf_congr st ⟨rfl, rfl⟩).trans ide)
  have mem : (raiseN evHifIdeFail (setUnit unHost 1 0 (ideFailed st lines (atTime at_ s)))).mem = (ideFailed st lines (atTime at_ s)).mem :=
    events.mem
  refine ⟨_, runs, by rw [ide'], by rw [ide'], by rw [ide']; rfl, fun a ha => ?_, fun a ha => ?_, ?_, events.jrn.trans jrn,
    (device_fmt events.device).trans fmt⟩
  · rw [mem, poison, poison]
    exact ⟨.inr (.inl ha), .inr (.inr ⟨a, ha, rfl⟩)⟩
  · rw [mem, poison] at ha
    exact ha
  · rw [mem, hbm]; rfl

/-! ### Recovery of a stream -/

theorem OnlyRings.streams (h : OnlyRings s t) : t.streams = s.streams := by
  obtain ⟨c, e, g, l, a, p, o, n, rfl, -⟩ := h; rfl

theorem OnlyEvents.streams (h : OnlyEvents s t) : t.streams = s.streams := (OnlyRings.of_onlyEvents h).streams

theorem msixRelease_streams (v : Nat) (s : State) : (msixRelease v s).streams = s.streams := by
  unfold msixRelease
  split <;> rfl

theorem foldl_streams {α : Type} {f : State → α → State} (hf : ∀ s x, (f s x).streams = s.streams) (l : List α) (s : State) :
    (l.foldl f s).streams = s.streams := by
  induction l generalizing s with
  | nil => rfl
  | cons x l ih => rw [List.foldl_cons, ih, hf]

theorem pumpRings_streams (s : State) : (pumpRings s).streams = s.streams :=
  ((OnlyRings.foldl (fun s n => cplPump_onlyRings n _ s) _ s).trans (evtPump_onlyRings _)).streams

theorem setUnit_streams (u st cause : Nat) (s : State) : (setUnit u st cause s).streams = s.streams :=
  (setUnit_onlyEvents u st cause s).streams

/-- The host unit comes back once no stream is Insecure. -/
def hostRestored (s : State) : State :=
  if s.hif.ideIo.state = .insecure ∨ s.hif.ideCm.state = .insecure then s else setUnit unHost 0 0 s

/-- The host's transfers begin again once a stream is secure. -/
def streamRecovers (s : State) : State :=
  (hostFetching (hostRestored (pumpRings (msixPump s)))).foldl (fun s j => markRetried j s)
    (addTransient unHost (hostRestored (pumpRings (msixPump s))))

theorem modUnit_streams (u : Nat) (f : SysUnit → SysUnit) (s : State) : (modUnit u f s).streams = s.streams := rfl

theorem hostRestored_streams (s : State) : (hostRestored s).streams = s.streams := by
  unfold hostRestored
  split
  · rfl
  · exact setUnit_streams ..

theorem streamRecovers_streams (s : State) : (streamRecovers s).streams = s.streams := by
  have pumped : (pumpRings (msixPump s)).streams = s.streams :=
    (pumpRings_streams _).trans (foldl_streams (fun s v => msixRelease_streams v s) _ s)
  rw [streamRecovers, foldl_streams (f := fun s j => markRetried j s) (fun _ _ => rfl), addTransient, modUnit_streams,
    hostRestored_streams, pumped]

theorem ideKeysEstablished_ends (st : IdeStream) (hup : hostUp s = true) (hm : st = .io ∨ s.hif.mode = 1) :
    ∃ t, exec (.ideKeysEstablished st) s = .next t ∧ (ideOf st t).state = .secure ∧ (ideOf st t).epoch = []
      ∧ t.mem = s.mem ∧ t.fmt = s.fmt ∧ t.jrn.entries.map (·.jsn) = s.jrn.entries.map (·.jsn) ∧ t.cart = s.cart := by
  let u := setIde st (fun d => { d with state := .secure, epoch := [] }) s
  have runs : exec (.ideKeysEstablished st) s = .next (if (ideOf st s).state ≠ .insecure then u else streamRecovers u) := by
    change execIdeKeysEstablished st s = _
    rw [execIdeKeysEstablished, if_neg]
    · dsimp only [streamRecovers, hostRestored, u]
    rintro (h | ⟨rfl, h⟩)
    · rw [hup] at h; cases h
    · exact h (hm.resolve_left (by decide))
  have streams : ∀ t, t = (if (ideOf st s).state ≠ .insecure then u else streamRecovers u) → t.streams = u.streams := by
    rintro t rfl
    split
    · rfl
    · exact streamRecovers_streams u
  obtain ⟨ide, rest⟩ := Prod.mk.inj (streams _ rfl)
  obtain ⟨mem, rest⟩ := Prod.mk.inj rest
  obtain ⟨fmt, rest⟩ := Prod.mk.inj rest
  obtain ⟨cart, entries⟩ := Prod.mk.inj rest
  have stream := (ideOf_congr st (Prod.mk.inj ide)).trans (ideOf_setIde st _ s)
  have old : u.mem = s.mem ∧ u.fmt = s.fmt ∧ u.jrn.entries = s.jrn.entries ∧ u.cart = s.cart := by
    cases st <;> exact ⟨rfl, rfl, rfl, rfl⟩
  obtain ⟨mem', fmt', entries', cart'⟩ := old
  exact ⟨_, runs, by rw [stream], by rw [stream], mem.trans mem', fmt.trans fmt', by rw [entries, entries'], cart.trans cart'⟩

/-! ### A write that waits for its data too long -/

/-- Nothing is in the pipeline. -/
def Unformed (s : State) : Prop := s.fmt.active = [] ∧ s.fmt.opened = none ∧ s.fmt.closed = []

/-- From s to t the write commands keep their names, the journal stays, and nothing comes into the pipeline. -/
def SameWrites (s t : State) : Prop := t.jrn = s.jrn ∧ t.fmt.writes.map (·.jsn) = s.fmt.writes.map (·.jsn)

namespace SameWrites

theorem refl (s : State) : SameWrites s s := ⟨rfl, rfl⟩

theorem trans {u : State} (h : SameWrites s t) (h' : SameWrites t u) : SameWrites s u := by
  obtain ⟨jrn, writes⟩ := h
  obtain ⟨jrn', writes'⟩ := h'
  exact ⟨jrn'.trans jrn, writes'.trans writes⟩

theorem of_onlyPorter (h : OnlyPorter s t) : SameWrites s t := by
  obtain ⟨q, events⟩ := h
  refine ⟨events.jrn, ?_⟩
  rw [device_fmt events.device]

theorem foldl {α : Type} {f : State → α → State} (hf : ∀ s x, SameWrites s (f s x)) (l : List α) (s : State) : SameWrites s (l.foldl f s) := by
  induction l generalizing s with
  | nil => exact refl s
  | cons x l ih => exact (hf s x).trans (ih _)

end SameWrites

theorem giveUp_unformed (p : Nat) (h : Unformed s) :
    (giveUp s p).jrn = s.jrn ∧ (giveUp s p).fmt.writes = s.fmt.writes ∧ Unformed (giveUp s p) := by
  obtain ⟨active, opened, closed⟩ := h
  simp [giveUp, dropAssembled, cutEnd, Unformed, active, opened, closed]

theorem giveUps_unformed (l : List Nat) (h : Unformed s) :
    (l.foldl giveUp s).jrn = s.jrn ∧ (l.foldl giveUp s).fmt.writes = s.fmt.writes := by
  induction l generalizing s with
  | nil => exact ⟨rfl, rfl⟩
  | cons p l ih =>
    obtain ⟨jrn, writes, unformed⟩ := giveUp_unformed p h
    obtain ⟨jrn', writes'⟩ := ih unformed
    exact ⟨jrn'.trans jrn, writes'.trans writes⟩

theorem setWrite_sameWrites (jsn : Nat) {f : WriteRun → WriteRun} (hf : ∀ w, (f w).jsn = w.jsn) (s : State) :
    SameWrites s (setWrite jsn f s) := by
  refine ⟨rfl, (List.map_map ..).trans (List.map_congr_left fun w _ => ?_)⟩
  simp only [Function.comp_apply]
  split
  · exact hf w
  · rfl

theorem porterTry_sameWrites {owner size : Nat} {h : Word} (ht : porterTry owner size s = some (h, t)) : SameWrites s t := by
  unfold porterTry at ht
  dsimp only at ht
  split at ht
  · cases ht
    split
    · exact ⟨rfl, rfl⟩
    · exact ⟨rfl, rfl⟩
  · cases ht

theorem fitBuffers_sameWrites (jsn : Nat) (s : State) : SameWrites s (fitBuffers jsn s) := by
  unfold fitBuffers
  split
  · exact .refl s
  · dsimp only
    split
    · exact (setWrite_sameWrites jsn (by exact fun _ => rfl) s).trans (.foldl (fun s h => .of_onlyPorter (freeBuffer_onlyPorter 1 h s)) _ _)
    · refine .foldl (fun s _ => ?_) _ s
      split
      · next granted => exact (porterTry_sameWrites granted).trans (setWrite_sameWrites jsn (by exact fun _ => rfl) _)
      · exact .refl s

theorem fitAll_sameWrites (s : State) : SameWrites s (fitAll s) := .foldl (fun s j => fitBuffers_sameWrites j s) _ s

/-- The context of a write command stands behind its last item. -/
def positionTaken (w : WriteRun) (s : State) : State := (afterLast w).elim s fun n => setCtx w.ctx (fun c => { c with position := n }) s

theorem positionTaken_leaves (w : WriteRun) (s : State) : (positionTaken w s).jrn = s.jrn ∧ (positionTaken w s).fmt = s.fmt := by
  unfold positionTaken
  cases afterLast w <;> exact ⟨rfl, rfl⟩

/-- A write command that ends with a status other than OK is retired with it and is no longer among the writes. -/
theorem finishWrite_fails {w : WriteRun} {e : JournalEntry} {r : RunInfo} {st r1 : Nat} (hst : st ≠ stOk) (held : Held w.jsn e r s) :
    RetiredWith w.jsn st (finishWrite w st r1 s) ∧ findRun (finishWrite w st r1 s) w.jsn = none
      ∧ (finishWrite w st r1 s).fmt.writes = s.fmt.writes.filter (·.jsn != w.jsn) := by
  generalize hu : ({ s with fmt := { s.fmt with writes := s.fmt.writes.filter (·.jsn != w.jsn) } } : State) = u
  have freed : OnlyPorter u (w.bufs.foldl (fun s h => freeBuffer 1 h s) u) := OnlyPorter.foldl (fun s h => freeBuffer_onlyPorter 1 h s) _ _
  have finishes : finishWrite w st r1 s
      = endWith w.jsn st w.durable r1 (raise evDurable w.jsn w.durable (positionTaken w (w.bufs.foldl (fun s h => freeBuffer 1 h s) u))) := by
    rw [finishWrite, positionTaken, hu]
    cases afterLast w <;> rfl
  obtain ⟨q, events⟩ := freed
  have raised := raise_onlyEvents evDurable w.jsn w.durable (positionTaken w (w.bufs.foldl (fun s h => freeBuffer 1 h s) u))
  have ends := (held.ofJrn (raised.jrn.trans ((positionTaken_leaves w _).1.trans (events.jrn.trans (by rw [← hu]))))).endWith_fail hst
    (r0 := w.durable) (r1 := r1)
  obtain ⟨retired, gone, -⟩ := id ends
  rw [finishes]
  refine ⟨⟨_, retired, rfl, rfl, rfl⟩, gone, ?_⟩
  · rw [device_fmt (endsWith_device ends), device_fmt raised.device, (positionTaken_leaves w _).2, device_fmt events.device, ← hu]

/-- The one write of an empty pipeline ends at once. -/
theorem endWritesNow_one {w : WriteRun} {e : JournalEntry} {r : RunInfo} {st : Nat} (r1 : Option Nat) (hst : st ≠ stOk)
    (hw : s.fmt.writes = [w]) (hu : Unformed s) (held : Held w.jsn e r s) :
    RetiredWith w.jsn st (endWritesNow [w.jsn] st r1 s) ∧ findRun (endWritesNow [w.jsn] st r1 s) w.jsn = none
      ∧ (endWritesNow [w.jsn] st r1 s).fmt.writes = [] := by
  let ps := (List.range 4).filter fun p => s.fmt.writes.any fun x => x.partition == p && [w.jsn].contains x.jsn
  obtain ⟨jrn, writes⟩ := giveUps_unformed ps hu
  generalize hg : ps.foldl giveUp s = g at jrn writes
  let again := fun (x : WriteRun) =>
    if ps.contains x.partition && !([w.jsn].contains x.jsn) && x.ending.isNone then replaceRun x else x
  have named : (g.fmt.writes.map again) = [w] := by
    rw [writes, hw]
    simp [again]
  generalize hf : fitAll { g with fmt := { g.fmt with writes := g.fmt.writes.map again } } = f
  have fitted : SameWrites { g with fmt := { g.fmt with writes := g.fmt.writes.map again } } f := by
    rw [← hf]; exact fitAll_sameWrites _
  obtain ⟨jrn', names⟩ := fitted
  replace names : f.fmt.writes.map (·.jsn) = [w.jsn] := names.trans (by rw [named]; rfl)
  obtain ⟨x, hx, hxj⟩ : ∃ x, f.fmt.writes = [x] ∧ x.jsn = w.jsn := by simpa [List.map_eq_singleton_iff] using names
  have found : findWrite w.jsn f = some x := by simp [findWrite, hx, hxj]
  have own : Held ({ x with placedItems := x.durable } : WriteRun).jsn e r f := by
    change Held x.jsn e r f
    rw [hxj]
    exact held.ofJrn (jrn'.trans jrn)
  obtain ⟨retired, gone, left⟩ := finishWrite_fails (r1 := r1.getD (firstResult x)) hst own
  generalize ht : finishWrite { x with placedItems := x.durable } st (r1.getD (firstResult x)) f = t at retired gone left
  have none_left : t.fmt.writes = [] := by rw [left, hx]; simp
  have ends : endWritesNow [w.jsn] st r1 s = t := by
    have settled : settleWrites t = t := by rw [settleWrites, none_left]; rfl
    unfold endWritesNow
    dsimp only
    rw [hg, hf, List.foldl_cons, List.foldl_nil, found]
    exact (congrArg settleWrites ht).trans settled
  rw [ends]
  rw [← hxj]
  exact ⟨retired, gone, none_left⟩

theorem ideKeyTimeout_runs (st : IdeStream) (at_ : Nat) (h : (ideOf st s).state = .insecure)
    (hp : passedMs (ideOf st s).failAt (max s.aon.time at_) 60000 = true) :
    exec (.ideKeyTimeout st at_) s = .next (if carriesFetches st (setUnit unHost 2 0 (atTime at_ s)) then
      endWritesNow (hostFetching (setUnit unHost 2 0 (atTime at_ s))) stInternalFault none (setUnit unHost 2 0 (atTime at_ s))
      else setUnit unHost 2 0 (atTime at_ s)) := by
  have same : ideOf st (atTime at_ s) = ideOf st s := ideOf_congr st ⟨rfl, rfl⟩
  have due : passedMs (ideOf st s).failAt (atTime at_ s).aon.time 60000 = true := hp
  change execIdeKeyTimeout st at_ s = _
  rw [execIdeKeyTimeout]
  dsimp only
  rw [same, h, due, if_neg (by decide)]

theorem carriesFetches_congr (st : IdeStream) (hm : t.hif.mode = s.hif.mode) (ha : t.hif.atsEn = s.hif.atsEn) :
    carriesFetches st t = carriesFetches st s := by
  unfold carriesFetches
  rw [hm, ha]

/-- Settles O42: the DOE mailbox and the IDE streams. -/
theorem doeAndIde : Obligations.DoeAndIde := by
  refine ⟨fun v ty l s h hl => ?_, fun v ty l s h hl hr => ?_, fun l s h hl hn => ?_, fun l s h hl hn ha => ?_, fun l s h hl hn ha => ?_,
    fun s => rfl, fun st n at_ s h => ideIntegrityFail_ends st n at_ h, fun st s hup hm => ideKeysEstablished_ends st hup hm,
    fun st at_ s h hp hc => ?_, fun st at_ s w e r h hp hc hw hf ha ho hcl hg he hr hfree => ?_⟩
  · rw [doeRequest_runs v ty l h, if_pos hl]
    rfl
  · rw [doeRequest_runs v ty l h, if_neg (by omega), if_pos hr]
  · exact ⟨_, _, doeRequest_fits h hl hn, rfl, rfl, rfl, rfl⟩
  · refine ⟨_, (doeRequest_spdm h hl hn).trans (congrArg Host.Outcome.next (if_pos ha)), ?_, spdmReply_whd ..⟩
    exact spdmReply_out false (spdmError 0x03) s
  · exact (doeRequest_spdm h hl hn).trans (congrArg Host.Outcome.next (if_neg (not_not.2 ha)))
  · have unit := setUnit_onlyEvents unHost 2 0 (atTime at_ s)
    obtain ⟨a, p, hif⟩ := unit.hif
    have carries : carriesFetches st (setUnit unHost 2 0 (atTime at_ s)) = false :=
      (carriesFetches_congr st (by rw [hif]; rfl) (by rw [hif]; rfl)).trans hc
    refine ⟨_, (ideKeyTimeout_runs st at_ h hp).trans (congrArg Host.Outcome.next (if_neg (by rw [carries]; decide))), rfl, ?_, setUnit_jrn ..⟩
    exact (device_fmt unit.device).trans rfl
  · have unit := setUnit_onlyEvents unHost 2 0 (atTime at_ s)
    obtain ⟨a, p, hif⟩ := unit.hif
    have carries : carriesFetches st (setUnit unHost 2 0 (atTime at_ s)) = true :=
      (carriesFetches_congr st (by rw [hif]; rfl) (by rw [hif]; rfl)).trans hc
    have fmt : (setUnit unHost 2 0 (atTime at_ s)).fmt = s.fmt := (device_fmt unit.device).trans rfl
    have jrn : (setUnit unHost 2 0 (atTime at_ s)).jrn = s.jrn := setUnit_jrn ..
    have fetching : hostFetching (setUnit unHost 2 0 (atTime at_ s)) = [w.jsn] := by
      rw [← hf, hostFetching, hostFetching, fmt]
      simp only [findRun_congr jrn]
    have runs := ideKeyTimeout_runs st at_ h hp
    rw [if_pos carries, fetching] at runs
    have held : Held w.jsn e r s := ⟨he, hr, hfree⟩
    obtain ⟨retired, gone, left⟩ := endWritesNow_one (st := stInternalFault) none (by decide) (fmt ▸ hw) ⟨fmt ▸ ha, fmt ▸ ho, fmt ▸ hcl⟩ (held.ofJrn jrn)
    refine ⟨_, runs, retired, gone, left, ?_⟩
    rw [endWritesNow_mem]
    exact unit.mem

end Sys2Proof.Proofs
end

section
/-! PROOFS. Register accesses (00 R9, 02 Table 2-8, 18 R448-R452; O43): a write to a register that is no command of its own leaves what is in
force (`f_inForce`), block by block. -/

namespace Sys2Proof.Machine

/-- The register groups in force, memory, and what a host's write to a register never reaches. -/
def State.inForce (s : State) :=
  ((s.vfy.margin, s.hlk.cfg, s.mon.cfg, s.spm.cfg, s.thm.cfg),
    (s.drv.loops.map (·.cfg), s.cmd.subRings.map (·.cfg), s.cmd.cplRings.map (·.cfg), s.cmd.evt.cfg),
    (s.mem.hbm, s.mem.armed, s.mem.flip), (s.jrn, s.fmt, s.ctx), (s.mram, s.cart, s.whd, s.sys))

end Sys2Proof.Machine

namespace Sys2Proof.Proofs

open Sys2Proof.Machine Sys2Proof.Safety Sys2Proof.Laws

variable {s t : State}

/-- An event raised changes nothing in force: the event ring keeps its configuration. -/
theorem OnlyEvents.inForce (h : OnlyEvents s t) (hb : t.bell = s.bell) : t.inForce = s.inForce := by
  obtain ⟨e, g, a, p, o, n, rfl, -⟩ := h
  have cfg : e.cfg = s.cmd.evt.cfg := congrArg Prod.snd hb
  simp only [State.inForce, cfg]

theorem refuseAccess_onlyEvents (offset size : Nat) (write : Bool) (s : State) :
    OnlyEvents (logAccess offset size write s) (refuseAccess offset size write s) := by
  unfold refuseAccess
  dsimp only
  split
  · exact raise_onlyEvents ..
  · exact (raise_onlyEvents ..).trans (emit_onlyEvents ..)

theorem refuseAccess_inForce (offset size : Nat) (write : Bool) (s : State) : (refuseAccess offset size write s).inForce = s.inForce := by
  refine ((refuseAccess_onlyEvents offset size write s).inForce ?_).trans rfl
  unfold refuseAccess
  dsimp only
  split
  · exact raise_bell ..
  · exact (emit_bell ..).trans (raise_bell ..)

theorem map_modify {α β : Type} {g : α → β} {f : α → α} (hf : ∀ x, g (f x) = g x) (n : Nat) (l : List α) : (l.modify n f).map g = l.map g := by
  refine List.ext_getElem? fun m => ?_
  rw [List.getElem?_map, List.getElem?_map, List.getElem?_modify]
  split
  · cases l[m]? with
    | none => rfl
    | some x => exact congrArg some (hf x)
  · simp

/-! ### Writes of BAR0 -/

theorem setHif_inForce (f : Hif → Hif) (s : State) : (setHif f s).inForce = s.inForce := rfl

theorem writeSq_inForce (n k : Nat) (v : Word) (s : State) : (writeSq n k v s).inForce = s.inForce := by
  have cfgs := map_modify (g := SubRing.cfg) (f := fun r : SubRing => { r with shadow := ringShadow true k v r.shadow }) (fun _ => rfl) n s.cmd.subRings
  simp only [State.inForce, writeSq, cfgs]

theorem writeCq_inForce (n k : Nat) (v : Word) (s : State) : (writeCq n k v s).inForce = s.inForce := by
  have cfgs := map_modify (g := CplRing.cfg) (f := fun r : CplRing => if k = 4 then { r with vector := bits v 0 8, vecEn := bitAt v 8 }
    else { r with shadow := ringShadow false k v r.shadow }) (fun _ => by split <;> rfl) n s.cmd.cplRings
  simp only [State.inForce, writeCq, setCq, cfgs]

theorem writeEvq_inForce (k : Nat) (v : Word) (s : State) : (writeEvq k v s).inForce = s.inForce := by
  have cfg : (if k = 4 then { s.cmd.evt with vector := bits v 0 8, vecEn := bitAt v 8 }
      else { s.cmd.evt with shadow := ringShadow false k v s.cmd.evt.shadow }).cfg = s.cmd.evt.cfg := by split <;> rfl
  simp only [State.inForce, writeEvq, cfg]

theorem setGroup_inForce (g : Nat) (f : EventGroup → EventGroup) (s : State) : (setGroup g f s).inForce = s.inForce := rfl

theorem writeCmd_inForce (o : Nat) (v : Word) (s : State) : (writeCmd o v s).inForce = s.inForce := by
  unfold writeCmd
  split_ifs
  · exact writeSq_inForce ..
  · exact writeCq_inForce ..
  · exact writeEvq_inForce ..
  · rfl
  · exact setGroup_inForce ..
  · rfl

theorem setLoop_inForce {f : Loop → Loop} (hf : ∀ l, (f l).cfg = l.cfg) (n : Nat) (s : State) : (setLoop n f s).inForce = s.inForce := by
  have cfgs := map_modify (g := Loop.cfg) hf n s.drv.loops
  simp only [State.inForce, setLoop, cfgs]

theorem writeHif_inForce (o : Nat) (v : Word) (s : State) : (writeHif o v s).inForce = s.inForce := by
  unfold writeHif; split_ifs <;> rfl

theorem writeCph_inForce (o : Nat) (v : Word) (s : State) : (writeCph o v s).inForce = s.inForce := by
  unfold writeCph; split_ifs <;> rfl

theorem writeVfy_inForce (o : Nat) (v : Word) (s : State) : (writeVfy o v s).inForce = s.inForce := by
  unfold writeVfy; split_ifs <;> rfl

theorem writeHlk_inForce (o : Nat) (v : Word) (s : State) : (writeHlk o v s).inForce = s.inForce := by
  unfold writeHlk; split_ifs <;> rfl

theorem writeDrv_inForce (o : Nat) (v : Word) (s : State) : (writeDrv o v s).inForce = s.inForce := by
  unfold writeDrv
  split_ifs
  · rfl
  · rfl
  · rfl
  · rfl
  · exact setLoop_inForce (f := fun l => { l with shadow := loopShadow (o % 0x400) v l.shadow }) (fun _ => rfl) _ s
  · rfl

theorem writeSpm_inForce (o : Nat) (v : Word) (s : State) : (writeSpm o v s).inForce = s.inForce := by
  unfold writeSpm; split_ifs <;> rfl

theorem setPrt_inForce (p : Prt) (s : State) : State.inForce { s with prt := p } = s.inForce := rfl

theorem writePrt_inForce (o : Nat) (v : Word) (s : State) : (writePrt o v s).inForce = s.inForce := by
  unfold writePrt
  split_ifs
  · exact setPrt_inForce ..
  · exact setPrt_inForce ..
  · exact setPrt_inForce ..
  · rfl

theorem setFlipShadow_inForce (f : FlipCfg) (s : State) :
    State.inForce { s with mem := { s.mem with flipSh := f } } = s.inForce := rfl

theorem writeMem_inForce (o : Nat) (v : Word) (s : State) : (writeMem o v s).inForce = s.inForce := by
  unfold writeMem
  split_ifs
  · rfl
  · rfl
  · exact setFlipShadow_inForce ..
  · exact setFlipShadow_inForce ..
  · rfl

theorem setThmShadow_inForce (g : ThmGroup) (s : State) :
    State.inForce { s with thm := { s.thm with shadow := g } } = s.inForce := rfl

theorem writeThm_inForce (o : Nat) (v : Word) (s : State) : (writeThm o v s).inForce = s.inForce := by
  unfold writeThm
  dsimp only
  split_ifs
  · exact setThmShadow_inForce ..
  · exact setThmShadow_inForce ..
  · rfl
  · rfl

theorem setPwr_inForce (p : Pwr) (s : State) : State.inForce { s with pwr := p } = s.inForce := rfl

theorem writePwr_inForce (o : Nat) (v : Word) (s : State) : (writePwr o v s).inForce = s.inForce := by
  unfold writePwr
  split_ifs
  · exact setPwr_inForce ..
  · rfl
  · rfl

theorem setWh_inForce (w : Wh) (s : State) : State.inForce { s with wh := w } = s.inForce := rfl

theorem writeWh_inForce (o : Nat) (v : Word) (s : State) : (writeWh o v s).inForce = s.inForce := by
  unfold writeWh
  dsimp only
  split_ifs
  · exact setWh_inForce ..
  · rfl

theorem writeBlock_inForce (offset : Nat) (v : Word) (s : State) : (writeBlock offset v s).inForce = s.inForce := by
  unfold writeBlock
  dsimp only
  split
  · exact writeHif_inForce ..
  · exact writeCmd_inForce ..
  · exact writeCph_inForce ..
  · exact writeVfy_inForce ..
  · exact writeHlk_inForce ..
  · exact writeDrv_inForce ..
  · exact writeSpm_inForce ..
  · exact writePrt_inForce ..
  · exact writeMem_inForce ..
  · exact writeThm_inForce ..
  · exact writePwr_inForce ..
  · exact writeWh_inForce ..
  · rfl

/-! ### Writes outside BAR0 -/

theorem msixRelease_inForce (v : Nat) (s : State) : (msixRelease v s).inForce = s.inForce := by
  unfold msixRelease
  split <;> rfl

theorem msixPump_inForce (s : State) : (msixPump s).inForce = s.inForce := by
  unfold msixPump
  generalize List.range 256 = l
  induction l generalizing s with
  | nil => rfl
  | cons v l ih => rw [List.foldl_cons, ih, msixRelease_inForce]

theorem writeVector_inForce (n k x : Nat) (s : State) : (writeVector n k x s).inForce = s.inForce := by
  unfold writeVector
  dsimp only
  split
  · exact msixRelease_inForce ..
  · rfl

theorem writeConfig_inForce (a x : Nat) (s : State) : (writeConfig a x s).inForce = s.inForce := by
  unfold writeConfig
  split_ifs
  · rfl
  · rfl
  · exact msixPump_inForce _
  · rfl
  · rfl
  · rfl
  · rfl
  · rfl

theorem writeOutsideDword_inForce (a x : Nat) (s : State) : (writeOutsideDword a x s).inForce = s.inForce := by
  unfold writeOutsideDword
  split_ifs
  · rfl
  · rfl
  · exact writeVector_inForce ..
  · rfl
  · exact writeConfig_inForce ..

theorem writeOutside_inForce (offset size : Nat) (v : Word) (s : State) : (writeOutside offset size v s).inForce = s.inForce := by
  unfold writeOutside
  dsimp only
  split_ifs
  · exact (writeOutsideDword_inForce ..).trans (writeOutsideDword_inForce ..)
  · exact writeOutsideDword_inForce ..

theorem registerWrite_inForce (offset size : Nat) (v : Word) (s : State) :
    ∃ t, exec (.registerWrite offset size v) s = .next t ∧ t.inForce = s.inForce := by
  refine ⟨_, rfl, ?_⟩
  unfold onMmio
  split_ifs
  · rfl
  · rfl
  · rfl
  · exact writeOutside_inForce ..
  · rfl
  · rfl
  · exact refuseAccess_inForce ..
  · exact writeBlock_inForce ..

/-- Settles O43: refused accesses are logged, and a write changes shadows and fields. -/
theorem registerAccesses : Obligations.RegisterAccesses := by
  refine ⟨fun offset size write s hopen hup hr ht hbad => ?_, fun offset size write s hopen hup hr he hf => ?_,
    fun offset size v s hlt hopen hup hr ht he => ?_, fun offset size v s => ?_, fun v s hopen hup hp => ?_⟩
  · have runs : exec (.mmioAccessRefused offset size write) s = .next (refuseAccess offset size write s) := by
      refine congrArg Host.Outcome.next ?_
      rw [onMmio_of_open hopen, hup, if_neg (by decide), hr, if_neg (by decide), ht]
      refine if_pos ?_
      rcases hbad with h | h <;> simp [h]
    have events := refuseAccess_onlyEvents offset size write s
    obtain ⟨a, p, hif⟩ := events.hif
    refine ⟨_, runs, rfl, fun hv => ?_, fun hv => ?_, fun hw => ?_, events.device, events.jrn⟩
    · rw [hif]
      simp [logAccess, setHif, hv]
    · rw [hif]
      simp [logAccess, setHif, hv]
    · subst hw
      exact List.mem_append_right _ (List.mem_singleton_self _)
  · refine congrArg Host.Outcome.next ?_
    rw [onMmio_of_open hopen, hup, hr, he, hf, Bool.not_true, Bool.or_false, Bool.and_false]
    rfl
  · have runs : exec (.registerWrite offset size v) s = .next (refuseAccess offset size true s) := by
      refine congrArg Host.Outcome.next ?_
      rw [onMmio_of_open hopen, hup, if_neg (by decide), if_neg (by omega), hr, if_neg (by decide), ht, if_neg (by decide), he]
      rfl
    exact ⟨_, runs, rfl, (refuseAccess_onlyEvents offset size true s).device⟩
  · obtain ⟨t, runs, same⟩ := registerWrite_inForce offset size v s
    obtain ⟨groups, rest⟩ := Prod.mk.inj same
    obtain ⟨rings, rest⟩ := Prod.mk.inj rest
    obtain ⟨mem, rest⟩ := Prod.mk.inj rest
    obtain ⟨front, kept⟩ := Prod.mk.inj rest
    simp only [Prod.mk.injEq] at groups rings mem front kept
    obtain ⟨margin, hlk, mon, spm, thm⟩ := groups
    obtain ⟨loops, subs, cpls, evt⟩ := rings
    obtain ⟨hbm, armed, flip⟩ := mem
    obtain ⟨jrn, fmt, ctx⟩ := front
    obtain ⟨mram, cart, whd, sys⟩ := kept
    exact ⟨t, runs, margin, hlk, mon, spm, thm, loops, subs, cpls, evt, hbm, armed, flip, jrn, fmt, ctx, mram, cart, whd, sys⟩
  · have reach : unreachable 0x800010 s = false := by simp [unreachable, hp]
    have touches : touchesRegister 0x800010 8 = true := by decide
    have exact_ : exactAccess 0x800010 8 = true := by decide
    refine congrArg Host.Outcome.next ?_
    rw [onMmio_of_open hopen, hup, if_neg (by decide), if_neg (by decide), reach, if_neg (by decide), touches, if_neg (by decide),
      exact_, if_neg (by decide)]
    rfl

end Sys2Proof.Proofs
end

section
/-! PROOFS. Protected memory and the HDM window over it (02 R39, 14 R364, R366, R374; O44): what a word reads as once it is written, and
that a write reaches its own word only (`OnlyWord`). -/

namespace Sys2Proof.Proofs

open Sys2Proof.Machine Sys2Proof.Safety Sys2Proof.Laws

variable {s t : State}

/-! ### Bytes put into a memory -/

theorem putBytes_from (a : Nat) (l : List Byte) (k : Nat) (m : Table Byte) (x : Nat) :
    tabGet 0 ((l.zipIdx k).foldl (fun m p => tabSet 0 (a + p.2) p.1 m) m) x
      = if a + k ≤ x ∧ x < a + k + l.length then l.getD (x - (a + k)) 0 else tabGet 0 m x := by
  induction l generalizing k m with
  | nil =>
    rw [if_neg (by simp only [List.length_nil]; omega)]
    rfl
  | cons b l ih =>
    rw [List.zipIdx_cons, List.foldl_cons, ih, List.length_cons]
    by_cases hx : x = a + k
    · subst hx
      rw [if_neg (by omega), if_pos (by omega), tabGet_tabSet, Nat.sub_self]
      rfl
    · rw [tabGet_tabSet_ne _ _ _ hx]
      by_cases hin : a + k ≤ x ∧ x < a + k + (l.length + 1)
      · obtain ⟨j, hj⟩ : ∃ j, x - (a + k) = j + 1 := ⟨x - (a + k) - 1, by omega⟩
        rw [if_pos (by omega), if_pos hin, hj, List.getD_cons_succ, show x - (a + (k + 1)) = j by omega]
      · rw [if_neg (by omega), if_neg hin]

/-- A byte of a memory after bytes have been put into it. -/
theorem tabGet_putBytes (a : Nat) (l : List Byte) (m : List Host.Cell) (x : Nat) :
    tabGet 0 (putBytes a l m) x = if a ≤ x ∧ x < a + l.length then l.getD (x - a) 0 else tabGet 0 m x :=
  putBytes_from a l 0 m x

theorem tabGet_putBytes_at {a i : Nat} {l : List Byte} (m : List Host.Cell) (h : i < l.length) :
    tabGet 0 (putBytes a l m) (a + i) = l.getD i 0 := by
  rw [tabGet_putBytes, if_pos (by omega), Nat.add_sub_cancel_left]

theorem tabGet_putBytes_out {a x : Nat} {l : List Byte} (m : List Host.Cell) (h : x < a ∨ a + l.length ≤ x) :
    tabGet 0 (putBytes a l m) x = tabGet 0 m x := by
  rw [tabGet_putBytes, if_neg (by omega)]

/-! ### The code of a word without errors -/

theorem gfMulFrom_zero (n b : Nat) : gfMulFrom n 0 b 0 = 0 := by
  induction n generalizing b with
  | zero => rfl
  | succ n ih =>
    rw [gfMulFrom, Nat.xor_self, ite_self]
    exact ih _

theorem errSymbol_zero (i : Nat) : errSymbol 0 i = 0 := by simp [errSymbol, bitsN]

theorem hbmSyndrome_zero (k : Nat) : hbmSyndrome k 0 = 0 := by
  rw [hbmSyndrome]
  generalize List.range 36 = l
  induction l with
  | nil => rfl
  | cons i l ih => rw [List.foldl_cons, gfMul, gfMulFrom_zero, errSymbol_zero, Nat.xor_self, ih]

theorem hbmDecode_zero : hbmDecode 0 = .clean := by
  rw [hbmDecode, hbmSyndrome_zero, hbmSyndrome_zero, hbmSyndrome_zero]
  rfl

theorem xorBytes_zero (l : List Byte) : xorBytes l 0 = l := by
  refine List.ext_getElem? fun i => ?_
  simp only [xorBytes, List.getElem?_map, List.getElem?_zipIdx, errSymbol_zero]
  cases l[i]? <;> simp

/-- A word without errors reads as it was written, poisoned or not. -/
theorem hbmReadCopy_sound {a : Nat} (hw : isWritten a s = true) (he : tabGet 0 s.mem.hbmErr a = 0) :
    hbmReadCopy a s = (if s.mem.hbmPoison.contains a then .poisoned else .good, hbmBytes a s, s) := by
  rw [hbmReadCopy, if_neg (by rw [hw]; decide)]
  dsimp only
  rw [he, hbmDecode_zero]
  change (if (s.mem.hbmPoison.contains a != (0 : BitVec 288).getLsbD 256) then ReadKind.poisoned else .good, xorBytes (hbmBytes a s) 0, s) = _
  rw [xorBytes_zero]
  simp

theorem hbmReadCopy_unwritten {a : Nat} (hw : isWritten a s = false) : hbmReadCopy a s = (.good, List.replicate 32 0, s) := by
  rw [hbmReadCopy, if_pos (by rw [hw]; rfl)]

/-- Outside the system region a read is one read of the word. -/
theorem hbmRead_single {a : Nat} (h : sysGranule (granuleOf a) = false) : hbmRead a s = hbmReadCopy a s := by
  rw [hbmRead]
  rcases hbmReadCopy a s with ⟨k, l, u⟩
  cases k
  · rfl
  · dsimp only; rw [h]; rfl
  · dsimp only; rw [h]; rfl

theorem hdm_unsystem {a : Nat} (h : a < 2 ^ 34) : sysGranule (granuleOf a) = false := by
  have below : ¬ 0x400000 ≤ granuleOf a := by rw [granuleOf]; omega
  rw [sysGranule, decide_eq_false below]
  rfl

/-! ### Writes of one word -/

/-- From s to t the word at an address may have been written, and no other. -/
structure OnlyWord (a : Nat) (s t : State) : Prop where
  shape : ∃ h e p w, t = { s with mem := { s.mem with hbm := h, hbmErr := e, hbmPoison := p, written := w } }
  bytes : ∀ x, x < a ∨ a + 32 ≤ x → tabGet 0 t.mem.hbm x = tabGet 0 s.mem.hbm x
  errs : ∀ x, x ≠ a → tabGet 0 t.mem.hbmErr x = tabGet 0 s.mem.hbmErr x
  poison : ∀ x, x ≠ a → (x ∈ t.mem.hbmPoison ↔ x ∈ s.mem.hbmPoison)
  written : ∀ g, g ∈ s.mem.written → g ∈ t.mem.written

namespace OnlyWord

variable {a : Nat}

theorem refl (a : Nat) (s : State) : OnlyWord a s s := ⟨⟨_, _, _, _, rfl⟩, fun _ _ => rfl, fun _ _ => rfl, fun _ _ => .rfl, fun _ h => h⟩

theorem trans {u : State} (h : OnlyWord a s t) (h' : OnlyWord a t u) : OnlyWord a s u := by
  obtain ⟨⟨b, e, p, w, rfl⟩, bytes, errs, poison, written⟩ := h
  obtain ⟨⟨b', e', p', w', rfl⟩, bytes', errs', poison', written'⟩ := h'
  exact ⟨⟨_, _, _, _, rfl⟩, fun x hx => (bytes' x hx).trans (bytes x hx), fun x hx => (errs' x hx).trans (errs x hx),
    fun x hx => (poison' x hx).trans (poison x hx), fun g hg => written' g (written g hg)⟩

theorem armed (h : OnlyWord a s t) : t.mem.armed = s.mem.armed := by obtain ⟨⟨_, _, _, _, rfl⟩, -⟩ := h; rfl
theorem ready (h : OnlyWord a s t) : t.mem.ready = s.mem.ready := by obtain ⟨⟨_, _, _, _, rfl⟩, -⟩ := h; rfl
theorem sram (h : OnlyWord a s t) : t.mem.sram = s.mem.sram := by obtain ⟨⟨_, _, _, _, rfl⟩, -⟩ := h; rfl
theorem poisonMerges (h : OnlyWord a s t) : t.mem.poisonMerges = s.mem.poisonMerges := by obtain ⟨⟨_, _, _, _, rfl⟩, -⟩ := h; rfl
theorem hif (h : OnlyWord a s t) : t.hif = s.hif := by obtain ⟨⟨_, _, _, _, rfl⟩, -⟩ := h; rfl
theorem jrn (h : OnlyWord a s t) : t.jrn = s.jrn := by obtain ⟨⟨_, _, _, _, rfl⟩, -⟩ := h; rfl
theorem fmt (h : OnlyWord a s t) : t.fmt = s.fmt := by obtain ⟨⟨_, _, _, _, rfl⟩, -⟩ := h; rfl

end OnlyWord

/-- A word written while no flip is armed. -/
theorem hbmPut_unarmed (a : Nat) (l : List Byte) (p : Bool) (h : s.mem.armed = false) :
    hbmPut a l p s = { s with mem := { s.mem with
      hbm := putBytes a l s.mem.hbm
      hbmErr := tabSet 0 a 0 s.mem.hbmErr
      hbmPoison := if p then insertNat a s.mem.hbmPoison else s.mem.hbmPoison.filter (· != a) } } := by
  have miss : flipHit clsHbm a s = false := by rw [flipHit, h]; rfl
  rw [hbmPut, miss]
  rfl

theorem hbmPut_onlyWord {a : Nat} {l : List Byte} (hl : l.length = 32) (p : Bool) (h : s.mem.armed = false) : OnlyWord a s (hbmPut a l p s) := by
  rw [hbmPut_unarmed a l p h]
  refine ⟨⟨_, _, _, _, rfl⟩, fun x hx => tabGet_putBytes_out _ (by rw [hl]; exact hx), fun x hx => tabGet_tabSet_ne 0 0 s.mem.hbmErr hx, fun x hx => ?_,
    fun _ h => h⟩
  dsimp only
  split
  · rw [mem_insertNat]
    exact or_iff_right hx
  · rw [List.mem_filter]
    simp [hx]

/-- The bytes, the code and the poison of a word that has been written. -/
theorem hbmPut_word {a : Nat} {l : List Byte} (hl : l.length = 32) (p : Bool) (h : s.mem.armed = false) :
    (∀ i, i < 32 → tabGet 0 (hbmPut a l p s).mem.hbm (a + i) = l.getD i 0) ∧ tabGet 0 (hbmPut a l p s).mem.hbmErr a = 0
      ∧ (a ∈ (hbmPut a l p s).mem.hbmPoison ↔ p = true) := by
  rw [hbmPut_unarmed a l p h]
  refine ⟨fun i hi => tabGet_putBytes_at _ (by rw [hl]; exact hi), tabGet_tabSet 0 a 0 s.mem.hbmErr, ?_⟩
  dsimp only
  cases p
  · simp
  · simp [mem_insertNat]

theorem fillGranule_unarmed (a : Nat) (h : s.mem.armed = false) :
    fillGranule a s = if isWritten a s then s else { s with mem := { s.mem with written := insertNat (granuleOf a) s.mem.written } } := by
  have miss : ∀ w, flipHit clsHbm w s = false := fun w => by rw [flipHit, h]; rfl
  unfold fillGranule
  dsimp only
  rw [miss]
  simp

theorem fillGranule_onlyWord (a : Nat) (h : s.mem.armed = false) : OnlyWord a s (fillGranule a s) := by
  rw [fillGranule_unarmed a h]
  split
  · exact .refl a s
  · exact ⟨⟨_, _, _, _, rfl⟩, fun _ _ => rfl, fun _ _ => rfl, fun _ _ => .rfl, fun g hg => mem_insertNat.2 (.inr hg)⟩

/-- The granule of a write is written from then on; its words are as they were. -/
theorem fillGranule_word (a : Nat) (h : s.mem.armed = false) :
    granuleOf a ∈ (fillGranule a s).mem.written ∧ (fillGranule a s).mem.hbm = s.mem.hbm
      ∧ (fillGranule a s).mem.hbmErr = s.mem.hbmErr ∧ (fillGranule a s).mem.hbmPoison = s.mem.hbmPoison := by
  rw [fillGranule_unarmed a h]
  split
  · next hw => exact ⟨List.contains_iff_mem.1 hw, rfl, rfl, rfl⟩
  · exact ⟨mem_insertNat.2 (.inl rfl), rfl, rfl, rfl⟩

/-- A whole word outside the system region. -/
theorem hbmWrite_word {a : Nat} {l : List Byte} (hl : l.length = 32) (h : s.mem.armed = false) (hs : sysGranule (granuleOf a) = false) :
    OnlyWord a s (hbmWrite a l s) ∧ (∀ i, i < 32 → tabGet 0 (hbmWrite a l s).mem.hbm (a + i) = l.getD i 0)
      ∧ tabGet 0 (hbmWrite a l s).mem.hbmErr a = 0 ∧ a ∉ (hbmWrite a l s).mem.hbmPoison
      ∧ granuleOf a ∈ (hbmWrite a l s).mem.written := by
  have whole : hbmWrite a l s = hbmPut a l false (fillGranule a s) := by
    rw [hbmWrite, hs]
    rfl
  have filled := fillGranule_onlyWord (s := s) a h
  have unarmed := filled.armed.trans h
  obtain ⟨bytes, err, poison⟩ := hbmPut_word (a := a) hl false unarmed
  have put := hbmPut_onlyWord (a := a) hl false unarmed
  rw [whole]
  exact ⟨filled.trans put, bytes, err, fun hp => Bool.false_ne_true (poison.1 hp), put.written _ (fillGranule_word a h).1⟩

/-- The bytes of a word of which some are given. -/
def mergeBytes (l : List (Option Byte)) (old : List Byte) : List Byte := old.zipIdx.map fun p => (l.getD p.2 none).getD p.1

theorem mergeBytes_length (l : List (Option Byte)) (old : List Byte) : (mergeBytes l old).length = old.length := by simp [mergeBytes]

theorem mergeBytes_getD (l : List (Option Byte)) {old : List Byte} {i : Nat} (h : i < old.length) :
    (mergeBytes l old).getD i 0 = (l.getD i none).getD (old.getD i 0) := by
  simp [mergeBytes, List.getD_eq_getElem?_getD, List.getElem?_eq_getElem h]

theorem hbmBytes_length (a : Nat) (s : State) : (hbmBytes a s).length = 32 := by simp [hbmBytes]

theorem hbmBytes_getD {a i : Nat} (h : i < 32) : (hbmBytes a s).getD i 0 = tabGet 0 s.mem.hbm (a + i) := by
  simp [hbmBytes, List.getD_eq_getElem?_getD, List.getElem?_range h]

/-- A word of a written granule without errors, part of which is written. -/
theorem filled_read {a : Nat} (h : s.mem.armed = false) (he : tabGet 0 s.mem.hbmErr a = 0) :
    hbmReadCopy a (fillGranule a s)
      = (if s.mem.hbmPoison.contains a then .poisoned else .good, hbmBytes a s, fillGranule a s) := by
  obtain ⟨written, bytes, errs, poison⟩ := fillGranule_word a h
  rw [hbmReadCopy_sound (List.contains_iff_mem.2 written) (by rw [errs]; exact he), poison]
  simp only [hbmBytes, bytes]

theorem hbmMerge_good {a : Nat} (l : List (Option Byte)) (h : s.mem.armed = false) (he : tabGet 0 s.mem.hbmErr a = 0)
    (hp : a ∉ s.mem.hbmPoison) : hbmMerge a l s = hbmPut a (mergeBytes l (hbmBytes a s)) false (fillGranule a s) := by
  have clean : s.mem.hbmPoison.contains a = false := by simpa using hp
  rw [hbmMerge]
  dsimp only
  rw [filled_read h he, clean]
  rfl

/-- The merge of a poisoned word, once it is written. -/
def mergePoisoned (a : Nat) (s : State) : State :=
  let s := { s with mem := { s.mem with poisonMerges := sat64 s.mem.poisonMerges 1 } }
  raise evEccPoisonMerge a clsHbm (logError clsHbm a (Config.freeNat s.freeCount % 256) 3 (drawFree s))

theorem hbmMerge_poisoned {a : Nat} (l : List (Option Byte)) (h : s.mem.armed = false) (he : tabGet 0 s.mem.hbmErr a = 0)
    (hp : a ∈ s.mem.hbmPoison) :
    hbmMerge a l s = mergePoisoned a (hbmPut a (mergeBytes l (hbmBytes a s)) true (fillGranule a s)) := by
  have poisoned : s.mem.hbmPoison.contains a = true := by simpa using hp
  rw [hbmMerge]
  dsimp only
  rw [filled_read h he, poisoned]
  rfl

/-- A poison merge is logged: the words of memory stay. -/
theorem mergePoisoned_leaves (a : Nat) (s : State) :
    (mergePoisoned a s).mem.hbm = s.mem.hbm ∧ (mergePoisoned a s).mem.hbmPoison = s.mem.hbmPoison
      ∧ (mergePoisoned a s).mem.poisonMerges = sat64 s.mem.poisonMerges 1 ∧ (mergePoisoned a s).jrn = s.jrn := by
  have logged : ∀ pos u, (logError clsHbm a pos 3 u).mem.hbm = u.mem.hbm ∧ (logError clsHbm a pos 3 u).mem.hbmPoison = u.mem.hbmPoison
      ∧ (logError clsHbm a pos 3 u).mem.poisonMerges = u.mem.poisonMerges ∧ (logError clsHbm a pos 3 u).jrn = u.jrn := by
    intro pos u
    unfold logError
    dsimp only
    rw [if_neg (show ¬(3 = 1) by decide)]
    split_ifs <;> exact ⟨rfl, rfl, rfl, rfl⟩
  unfold mergePoisoned
  dsimp only
  have raised := raise_onlyEvents evEccPoisonMerge a clsHbm
    (logError clsHbm a (Config.freeNat s.freeCount % 256) 3 (drawFree { s with mem := { s.mem with poisonMerges := sat64 s.mem.poisonMerges 1 } }))
  obtain ⟨hbm, poison, merges, jrn⟩ := logged (Config.freeNat s.freeCount % 256)
    (drawFree { s with mem := { s.mem with poisonMerges := sat64 s.mem.poisonMerges 1 } })
  exact ⟨(congrArg Mem.hbm raised.mem).trans hbm, (congrArg Mem.hbmPoison raised.mem).trans poison,
    (congrArg Mem.poisonMerges raised.mem).trans merges, raised.jrn.trans jrn⟩

/-- A word of a partial write, sound and outside the system region. -/
theorem ptlWord_word {a : Nat} {l : List (Option Byte)} (hl : l.length = 32) (h : s.mem.armed = false)
    (hs : sysGranule (granuleOf a) = false) (he : tabGet 0 s.mem.hbmErr a = 0) (hp : a ∉ s.mem.hbmPoison) :
    OnlyWord a s (ptlWord a l s)
      ∧ ∀ i, i < 32 → tabGet 0 (ptlWord a l s).mem.hbm (a + i) = (l.getD i none).getD (tabGet 0 s.mem.hbm (a + i)) := by
  unfold ptlWord
  split_ifs with hnone hsome
  · refine ⟨.refl a s, fun i hi => ?_⟩
    have unset : l.getD i none = none := by
      rw [List.getD_eq_getElem _ _ (by omega)]
      exact Option.isNone_iff_eq_none.1 (List.all_eq_true.1 hnone _ (List.getElem_mem _))
    rw [unset]
    rfl
  · obtain ⟨only, bytes, -⟩ := hbmWrite_word (l := l.map fun o => o.getD 0) (by rw [List.length_map]; exact hl) h hs
    refine ⟨only, fun i hi => (bytes i hi).trans ?_⟩
    obtain ⟨x, hx⟩ := Option.isSome_iff_exists.1 (List.all_eq_true.1 hsome _ (List.getElem_mem (show i < l.length by omega)))
    rw [List.getD_eq_getElem _ _ (by rw [List.length_map]; omega), List.getD_eq_getElem _ _ (by omega), List.getElem_map, hx]
    rfl
  · have filled := fillGranule_onlyWord (s := s) a h
    have len : (mergeBytes l (hbmBytes a s)).length = 32 := (mergeBytes_length ..).trans (hbmBytes_length ..)
    have unarmed := filled.armed.trans h
    rw [hbmMerge_good l h he hp]
    refine ⟨filled.trans (hbmPut_onlyWord len false unarmed), fun i hi => ?_⟩
    rw [(hbmPut_word len false unarmed).1 i hi, mergeBytes_getD l (by rw [hbmBytes_length]; exact hi), hbmBytes_getD hi]

/-! ### Lines -/

theorem hdmMap_aligned {hpa a : Nat} (h : hdmMap hpa s = some a) : a % 64 = 0 := by
  unfold hdmMap at h
  split at h
  · cases h; exact Nat.mul_mod_left _ _
  · cases h

/-- What the decoder maps depends on the host interface's settings and on READY of memory. -/
theorem hdmMap_noteEpoch {hpa dpa : Nat} (hh : t.hif = s.hif) (hr : t.mem.ready = s.mem.ready) :
    hdmMap hpa (noteEpoch dpa t) = hdmMap hpa s := by
  have map : hdmMap hpa t = hdmMap hpa s := by simp only [hdmMap, hh, hr]
  rw [← map, noteEpoch]
  split <;> rfl

theorem noteEpoch_leaves (dpa : Nat) (s : State) :
    (noteEpoch dpa s).mem = s.mem ∧ (noteEpoch dpa s).jrn = s.jrn ∧ (noteEpoch dpa s).fmt = s.fmt ∧ (noteEpoch dpa s).out = s.out := by
  unfold noteEpoch
  split <;> exact ⟨rfl, rfl, rfl, rfl⟩

/-- A line of which both words are sound is answered as they read. -/
theorem cxlMemRead_good {hpa a : Nat} {l0 l1 : List Byte} (hm : hdmMap hpa s = some a) (h0 : hbmRead a s = (.good, l0, s))
    (h1 : hbmRead (a + 32) s = (.good, l1, s)) : exec (.cxlMemRead hpa) s = .next (emit (.memData (l0 ++ l1) false) s) := by
  change execCxlMemRead hpa s = _
  rw [execCxlMemRead, hm]
  dsimp only
  rw [h0]
  dsimp only
  rw [h1]
  rfl

/-- The answer to a line of which a word is not sound. -/
def answerPoison (s : State) : State :=
  emit (.memData ((List.range 64).map fun i => Config.freeByte (s.freeCount * 64 + i)) true)
    (raiseN evHifHdmPoison { drawFree s with hif := { s.hif with poison := satAdd 0x7FFF s.hif.poison 1 } })

theorem cxlMemRead_poisoned {hpa a : Nat} {k0 k1 : ReadKind} {l0 l1 : List Byte} (hm : hdmMap hpa s = some a)
    (h0 : hbmRead a s = (k0, l0, s)) (h1 : hbmRead (a + 32) s = (k1, l1, s)) (hk : ¬(k0 = .good ∧ k1 = .good)) :
    exec (.cxlMemRead hpa) s = .next (answerPoison s) := by
  change execCxlMemRead hpa s = _
  rw [execCxlMemRead, hm]
  dsimp only
  rw [h0]
  dsimp only
  rw [h1]
  dsimp only
  rw [if_neg hk]
  rfl

theorem hbmRead_written {a : Nat} (ha : a < 2 ^ 34) (hw : granuleOf a ∈ s.mem.written) (he : tabGet 0 s.mem.hbmErr a = 0) :
    hbmRead a s = (if s.mem.hbmPoison.contains a then .poisoned else .good, hbmBytes a s, s) := by
  rw [hbmRead_single (hdm_unsystem ha), hbmReadCopy_sound (List.contains_iff_mem.2 hw) he]

/-- Both words of a line lie in one granule below the system region. -/
theorem line_granule {a : Nat} (ha : a % 64 = 0) (hl : a < 2 ^ 34) : a + 32 < 2 ^ 34 ∧ granuleOf (a + 32) = granuleOf a := by
  unfold granuleOf
  omega

/-- The two words of a line after a write of both. -/
theorem memWr_words {a : Nat} {data : List Byte} (ha : a % 64 = 0) (hl : a < 2 ^ 34) (h : s.mem.armed = false) :
    ∃ t, hbmWrite (a + 32) (slice data 32 32) (hbmWrite a (slice data 0 32) s) = t
      ∧ (∀ i, i < 64 → tabGet 0 t.mem.hbm (a + i) = data.getD i 0)
      ∧ (∀ x, (x < a ∨ a + 64 ≤ x) → tabGet 0 t.mem.hbm x = tabGet 0 s.mem.hbm x)
      ∧ tabGet 0 t.mem.hbmErr a = 0 ∧ tabGet 0 t.mem.hbmErr (a + 32) = 0 ∧ a ∉ t.mem.hbmPoison ∧ a + 32 ∉ t.mem.hbmPoison
      ∧ granuleOf a ∈ t.mem.written ∧ t.mem.sram = s.mem.sram ∧ t.mem.ready = s.mem.ready ∧ t.hif = s.hif ∧ t.jrn = s.jrn ∧ t.fmt = s.fmt := by
  obtain ⟨hl', granule⟩ := line_granule ha hl
  have len0 : (slice data 0 32).length = 32 := by simp [slice]
  have len1 : (slice data 32 32).length = 32 := by simp [slice]
  obtain ⟨only, bytes, err, sound, written⟩ := hbmWrite_word len0 h (hdm_unsystem hl)
  obtain ⟨only', bytes', err', sound', -⟩ := hbmWrite_word (a := a + 32) len1 (only.armed.trans h) (hdm_unsystem hl')
  refine ⟨_, rfl, fun i hi => ?_, fun x hx => ?_, ?_, err', ?_, sound', only'.written _ written, only'.sram.trans only.sram,
    only'.ready.trans only.ready, only'.hif.trans only.hif, only'.jrn.trans only.jrn, only'.fmt.trans only.fmt⟩
  · obtain low | ⟨j, rfl⟩ : i < 32 ∨ ∃ j, i = 32 + j := by
      by_cases h : i < 32
      · exact .inl h
      · exact .inr ⟨i - 32, by omega⟩
    · rw [only'.bytes _ (by omega), bytes i low]
      simp [slice, List.getD_eq_getElem?_getD, low]
    · rw [← Nat.add_assoc, bytes' j (by omega)]
      simp [slice, List.getD_eq_getElem?_getD, show j < 32 by omega]
  · rw [only'.bytes x (by omega), only.bytes x (by omega)]
  · rw [only'.errs a (by omega), err]
  · rw [only'.poison a (by omega)]
    exact sound

/-- A line as its two words give it. -/
theorem line_bytes {a : Nat} {data : List Byte} (hd : data.length = 64) (h : ∀ i, i < 64 → tabGet 0 s.mem.hbm (a + i) = data.getD i 0) :
    hbmBytes a s ++ hbmBytes (a + 32) s = data := by
  refine List.ext_getElem (by simp [hbmBytes_length, hd]) fun i hi hi' => ?_
  have byte := h i (by omega)
  rw [List.getD_eq_getElem _ _ hi'] at byte
  rw [← byte, List.getElem_append]
  split
  · simp [hbmBytes]
  · next hge =>
    rw [hbmBytes_length] at hge
    simp [hbmBytes, Nat.add_assoc, show 32 + (i - 32) = i by omega]

/-- A whole line written reads back. -/
theorem memWr_readsBack {hpa a : Nat} {data : List Byte} (hm : hdmMap hpa s = some a) (ha : a < 2 ^ 34) (hd : data.length = 64)
    (h : s.mem.armed = false) :
    ∃ t u, exec (.memWr hpa data) s = .next t ∧ .memCmp ∈ t.out
      ∧ (∀ i, i < 64 → tabGet 0 t.mem.hbm (a + i) = data.getD i 0)
      ∧ (∀ x, (x < a ∨ a + 64 ≤ x) → tabGet 0 t.mem.hbm x = tabGet 0 s.mem.hbm x)
      ∧ t.mem.sram = s.mem.sram ∧ t.jrn = s.jrn ∧ t.fmt = s.fmt
      ∧ exec (.cxlMemRead hpa) t = .next u ∧ u.out = t.out ++ [.memData data false] ∧ u.mem = t.mem := by
  obtain ⟨w, hw, bytes, others, err, err', sound, sound', written, sram, ready, hif, jrn, fmt⟩ :=
    memWr_words (data := data) (hdmMap_aligned hm) ha h
  obtain ⟨ha', granule⟩ := line_granule (hdmMap_aligned hm) ha
  obtain ⟨mem, jrn', fmt', -⟩ := noteEpoch_leaves a w
  let t := emit .memCmp (noteEpoch a w)
  have runs : exec (.memWr hpa data) s = .next t := by
    change execMemWr hpa data s = _
    rw [execMemWr, hm]
    dsimp only [t]
    rw [hw]
  have memT : t.mem = w.mem := mem
  have mapped : hdmMap hpa t = some a := (hdmMap_noteEpoch hif ready).trans hm
  have read0 : hbmRead a t = (.good, hbmBytes a t, t) := by
    rw [hbmRead_written ha (by rw [memT]; exact written) (by rw [memT]; exact err), memT, if_neg (by simpa using sound)]
  have read1 : hbmRead (a + 32) t = (.good, hbmBytes (a + 32) t, t) := by
    rw [hbmRead_written ha' (by rw [memT, granule]; exact written) (by rw [memT]; exact err'), memT, if_neg (by simpa using sound')]
  have line : hbmBytes a t ++ hbmBytes (a + 32) t = data := line_bytes hd fun i hi => by rw [memT]; exact bytes i hi
  refine ⟨t, _, runs, List.mem_append_right _ (List.mem_singleton_self _), by rw [memT]; exact bytes, by rw [memT]; exact others,
    by rw [memT]; exact sram, jrn'.trans jrn, fmt'.trans fmt, cxlMemRead_good mapped read0 read1, ?_, rfl⟩
  rw [line]
  rfl

/-- A line of a granule never written reads zeros. -/
theorem cxlMemRead_zeros {hpa a : Nat} (hm : hdmMap hpa s = some a) (ha : a < 2 ^ 34) (hw : a / 4096 ∉ s.mem.written) :
    exec (.cxlMemRead hpa) s = .next { s with out := s.out ++ [.memData (List.replicate 64 0) false] } := by
  obtain ⟨ha', granule⟩ := line_granule (hdmMap_aligned hm) ha
  have unwritten : ∀ b, granuleOf b = granuleOf a → isWritten b s = false := fun b hb => by
    rw [isWritten, hb]
    simpa [granuleOf] using hw
  have read : ∀ b, b < 2 ^ 34 → granuleOf b = granuleOf a → hbmRead b s = (.good, List.replicate 32 0, s) := fun b hb hg => by
    rw [hbmRead_single (hdm_unsystem hb), hbmReadCopy_unwritten (unwritten b hg)]
  exact cxlMemRead_good hm (read a ha rfl) (read (a + 32) ha' granule)

/-- A line of which a word is poisoned answers with poison. -/
theorem cxlMemRead_answersPoison {hpa a : Nat} (hm : hdmMap hpa s = some a) (ha : a < 2 ^ 34) (hw : a / 4096 ∈ s.mem.written)
    (he : tabGet 0 s.mem.hbmErr a = 0) (he' : tabGet 0 s.mem.hbmErr (a + 32) = 0) (hp : a ∈ s.mem.hbmPoison ∨ a + 32 ∈ s.mem.hbmPoison) :
    exec (.cxlMemRead hpa) s = .next (answerPoison s) := by
  obtain ⟨ha', granule⟩ := line_granule (hdmMap_aligned hm) ha
  refine cxlMemRead_poisoned hm (hbmRead_written ha hw he) (hbmRead_written ha' (by rw [granule]; exact hw) he') ?_
  rcases hp with hp | hp <;> simp [hp]

theorem answerPoison_leaves (s : State) :
    (∃ l, .memData l true ∈ (answerPoison s).out) ∧ (answerPoison s).hif.poison = min 0x7FFF (s.hif.poison + 1)
      ∧ (answerPoison s).mem = s.mem ∧ (answerPoison s).jrn = s.jrn := by
  have raised := raiseN_onlyEvents evHifHdmPoison { drawFree s with hif := { s.hif with poison := satAdd 0x7FFF s.hif.poison 1 } }
  obtain ⟨a, p, hif⟩ := raised.hif
  exact ⟨⟨_, List.mem_append_right _ (List.mem_singleton_self _)⟩, (congrArg Hif.poison hif :), raised.mem, raised.jrn⟩

/-- The line of a partial write, as its two words. -/
theorem memWrPtl_runs {hpa a : Nat} (data : List (Option Byte)) (hm : hdmMap hpa s = some a) :
    exec (.memWrPtl hpa data) s = .next (emit .memCmp (noteEpoch a
      (ptlWord (a + 32) (((List.range 64).map fun i => data.getD i none).drop 32)
        (ptlWord a (((List.range 64).map fun i => data.getD i none).take 32) s)))) := by
  change execMemWrPtl hpa data s = _
  rw [execMemWrPtl, hm]

/-- The bytes that a partial write carries for each word of its line. -/
theorem ptl_halves (data : List (Option Byte)) :
    (∀ i, i < 32 → (((List.range 64).map fun i => data.getD i none).take 32).getD i none = data.getD i none)
      ∧ (∀ i, i < 32 → (((List.range 64).map fun i => data.getD i none).drop 32).getD i none = data.getD (32 + i) none) := by
  refine ⟨fun i hi => ?_, fun i hi => ?_⟩
  · simp [List.getD_eq_getElem?_getD, hi]
  · simp [List.getD_eq_getElem?_getD, List.getElem?_range (show 32 + i < 64 by omega)]

/-- A write of part of a sound line changes the bytes it carries. -/
theorem memWrPtl_sound {hpa a : Nat} (data : List (Option Byte)) (hm : hdmMap hpa s = some a) (ha : a < 2 ^ 34) (h : s.mem.armed = false)
    (he : tabGet 0 s.mem.hbmErr a = 0) (he' : tabGet 0 s.mem.hbmErr (a + 32) = 0) (hp : a ∉ s.mem.hbmPoison)
    (hp' : a + 32 ∉ s.mem.hbmPoison) :
    ∃ t, exec (.memWrPtl hpa data) s = .next t ∧ .memCmp ∈ t.out
      ∧ (∀ i, i < 64 → tabGet 0 t.mem.hbm (a + i) = (data.getD i none).getD (tabGet 0 s.mem.hbm (a + i)))
      ∧ (∀ x, (x < a ∨ a + 64 ≤ x) → tabGet 0 t.mem.hbm x = tabGet 0 s.mem.hbm x)
      ∧ t.mem.sram = s.mem.sram ∧ t.jrn = s.jrn ∧ t.fmt = s.fmt := by
  obtain ⟨ha', -⟩ := line_granule (hdmMap_aligned hm) ha
  obtain ⟨first, second⟩ := ptl_halves data
  let l := (List.range 64).map fun i => data.getD i none
  obtain ⟨only, bytes⟩ := ptlWord_word (l := l.take 32) (by simp [l]) h (hdm_unsystem ha) he hp
  obtain ⟨only', bytes'⟩ := ptlWord_word (a := a + 32) (l := l.drop 32) (by simp [l]) (only.armed.trans h) (hdm_unsystem ha')
    (by rw [only.errs _ (by omega)]; exact he') (by rw [only.poison _ (by omega)]; exact hp')
  generalize hw : ptlWord (a + 32) (l.drop 32) (ptlWord a (l.take 32) s) = w at only' bytes'
  obtain ⟨mem, jrn, fmt, -⟩ := noteEpoch_leaves a w
  have runs : exec (.memWrPtl hpa data) s = .next (emit .memCmp (noteEpoch a w)) := by
    rw [memWrPtl_runs data hm]
    exact congrArg (fun w => Host.Outcome.next (emit .memCmp (noteEpoch a w))) hw
  have memT : (emit .memCmp (noteEpoch a w)).mem = w.mem := mem
  refine ⟨_, runs, List.mem_append_right _ (List.mem_singleton_self _), fun i hi => ?_, fun x hx => ?_, ?_, jrn.trans (only'.jrn.trans only.jrn),
    fmt.trans (only'.fmt.trans only.fmt)⟩
  · rw [memT]
    obtain low | ⟨j, rfl⟩ : i < 32 ∨ ∃ j, i = 32 + j := by
      by_cases h : i < 32
      · exact .inl h
      · exact .inr ⟨i - 32, by omega⟩
    · rw [only'.bytes _ (by omega), bytes i low, first i low]
    · rw [← Nat.add_assoc, bytes' j (by omega), second j (by omega), only.bytes _ (by omega)]
  · rw [memT, only'.bytes x (by omega), only.bytes x (by omega)]
  · rw [memT, only'.sram, only.sram]

/-- A poisoned word written in part stays poisoned. -/
theorem memWrPtl_poisoned {hpa a i j : Nat} {x : Byte} (data : List (Option Byte)) (hm : hdmMap hpa s = some a)
    (h : s.mem.armed = false) (he : tabGet 0 s.mem.hbmErr a = 0) (hp : a ∈ s.mem.hbmPoison)
    (hi : i < 32) (hj : j < 32) (hx : data.getD i none = some x) (hn : data.getD j none = none) (hr : ∀ k, 32 ≤ k → data.getD k none = none) :
    ∃ t, exec (.memWrPtl hpa data) s = .next t ∧ a ∈ t.mem.hbmPoison ∧ t.mem.poisonMerges = sat64 s.mem.poisonMerges 1
      ∧ tabGet 0 t.mem.hbm (a + i) = x ∧ t.jrn = s.jrn := by
  obtain ⟨first, second⟩ := ptl_halves data
  let l := (List.range 64).map fun i => data.getD i none
  have len : (l.take 32).length = 32 := by simp [l]
  have some_given : ¬ (l.take 32).all Option.isNone = true := fun hall => by
    have given := List.all_eq_true.1 hall _ (List.getElem_mem (show i < (l.take 32).length by omega))
    rw [← List.getD_eq_getElem _ none, first i hi, hx] at given
    cases given
  have some_left : ¬ (l.take 32).all Option.isSome = true := fun hall => by
    have given := List.all_eq_true.1 hall _ (List.getElem_mem (show j < (l.take 32).length by omega))
    rw [← List.getD_eq_getElem _ none, first j hj, hn] at given
    cases given
  have rest_none : (l.drop 32).all Option.isNone = true := List.all_eq_true.2 fun o ho => by
    obtain ⟨k, hk, rfl⟩ := List.getElem_of_mem ho
    have short : k < 32 := by simpa [l] using hk
    rw [← List.getD_eq_getElem _ none, second k short, hr _ (by omega)]
    rfl
  let put := hbmPut a (mergeBytes (l.take 32) (hbmBytes a s)) true (fillGranule a s)
  have first_word : ptlWord a (l.take 32) s = mergePoisoned a put := by
    rw [ptlWord, if_neg some_given, if_neg some_left, hbmMerge_poisoned _ h he hp]
  have runs : exec (.memWrPtl hpa data) s = .next (emit .memCmp (noteEpoch a (mergePoisoned a put))) := by
    rw [memWrPtl_runs data hm]
    have second_word : ptlWord (a + 32) (l.drop 32) (ptlWord a (l.take 32) s) = mergePoisoned a put := by
      rw [first_word, ptlWord, if_pos rest_none]
    exact congrArg (fun w => Host.Outcome.next (emit .memCmp (noteEpoch a w))) second_word
  obtain ⟨mem, jrn, -⟩ := noteEpoch_leaves a (mergePoisoned a put)
  obtain ⟨hbm, poison, merges, jrn'⟩ := mergePoisoned_leaves a put
  have filled := fillGranule_onlyWord (s := s) a h
  have unarmed := filled.armed.trans h
  have merged : (mergeBytes (l.take 32) (hbmBytes a s)).length = 32 := (mergeBytes_length ..).trans (hbmBytes_length ..)
  obtain ⟨bytes, -, marked⟩ := hbmPut_word (a := a) merged true unarmed
  have memT : (emit .memCmp (noteEpoch a (mergePoisoned a put))).mem = (mergePoisoned a put).mem := mem
  refine ⟨_, runs, ?_, ?_, ?_, jrn.trans (jrn'.trans ((hbmPut_onlyWord merged true unarmed).jrn.trans filled.jrn))⟩
  · rw [memT, poison]
    exact marked.2 rfl
  · rw [memT, merges]
    rw [(filled.trans (hbmPut_onlyWord merged true unarmed)).poisonMerges]
  · rw [memT, hbm, bytes i hi, mergeBytes_getD _ (by rw [hbmBytes_length]; exact hi), first i hi, hx]
    rfl

/-- Settles O44: whole lines, lines not there or poisoned, and partial writes. -/
theorem hdmLinesAndPartialWrites : Obligations.HdmLinesAndPartialWrites := by
  refine ⟨⟨fun hpa a data s hm ha hd h => memWr_readsBack hm ha hd h, fun hpa a s hm ha hw => cxlMemRead_zeros hm ha hw,
    fun hpa a s hm ha hw he he' hp => ?_, fun hpa data part s hm => ?_⟩, fun hpa a data s hm ha h he he' hp hp' => ?_,
    fun hpa a data s i j x hm ha h _ he hp hi hj hx hn hr => memWrPtl_poisoned data hm h he hp hi hj hx hn hr⟩
  · obtain ⟨⟨l, sent⟩, poison, mem, jrn⟩ := answerPoison_leaves s
    exact ⟨_, l, cxlMemRead_answersPoison hm ha hw he he' hp, sent, poison, mem, jrn⟩
  · refine ⟨?_, ?_, ?_⟩
    · change execCxlMemRead hpa s = _
      rw [execCxlMemRead, hm]
    · change execMemWr hpa data s = _
      rw [execMemWr, hm]
    · change execMemWrPtl hpa part s = _
      rw [execMemWrPtl, hm]
  · obtain ⟨t, runs, cmp, bytes, others⟩ := memWrPtl_sound data hm ha h he he' hp hp'
    exact ⟨t, runs, cmp, fun _ => bytes, others⟩

end Sys2Proof.Proofs
end

section
/-! PROOFS. The count of ticks and their lengths, compatibility mode, the verify margin and the Weighhouse (01 R13-R15, 09 R259): `f_pulse` says
that a part of a tick other than its count and its transfers leaves them as they are. -/

namespace Sys2Proof.Machine

def State.pulse (s : State) : Word × Nat × Nat × Bool × Bool × Nat × Bool × Bool × Margin × Margin × Commit × Weighhouse :=
    (s.sys.tickCount, s.sys.tickStart, s.sys.lastPeriod, s.sys.shortTick, s.sys.synth, s.sys.taskMisses, s.cmd.compatT4,
    s.cmd.compatActive, s.vfy.margin, s.vfy.shadow, s.vfy.commit, s.whd)

end Sys2Proof.Machine

namespace Sys2Proof.Proofs

open Sys2Proof.Machine Sys2Proof.Safety Sys2Proof.Laws

@[simp] theorem pulse_mk sys hif cmd jrn ctx pkr cph fmt tec vfy hlk drv mon spm prt mem thm pwr aon wh whd mram cart mgt pending out freeCount :
    (State.mk sys hif cmd jrn ctx pkr cph fmt tec vfy hlk drv mon spm prt mem thm pwr aon wh whd mram
      cart mgt pending out freeCount).pulse =
      (sys.tickCount, sys.tickStart, sys.lastPeriod, sys.shortTick, sys.synth, sys.taskMisses, cmd.compatT4, cmd.compatActive,
          vfy.margin, vfy.shadow, vfy.commit, whd) := rfl

@[simp] theorem pulse_fold (s : State) : (s.sys.tickCount, s.sys.tickStart, s.sys.lastPeriod, s.sys.shortTick, s.sys.synth,
    s.sys.taskMisses, s.cmd.compatT4, s.cmd.compatActive, s.vfy.margin, s.vfy.shadow, s.vfy.commit, s.whd) = s.pulse := rfl

@[simp] theorem foldl_pulse {α : Type} {f : State → α → State} (hf : ∀ s x, (f s x).pulse = s.pulse) (l : List α) (s : State) :
    (l.foldl f s).pulse = s.pulse := by
  induction l generalizing s with
  | nil => rfl
  | cons a t ih => rw [List.foldl_cons, ih, hf]

@[simp] theorem ite_pulse (c : Prop) [Decidable c] (a b : State) : (if c then a else b).pulse = if c then a.pulse else b.pulse :=
  apply_ite State.pulse c a b

theorem optMap_pulse {f : State → State} (hf : ∀ s, (f s).pulse = s.pulse) {o : Option State} {m : Word × Nat × Nat × Bool ×
    Bool × Nat × Bool × Bool × Margin × Margin × Commit × Weighhouse}
    (ho : ∀ r, o = some r → r.pulse = m) (r : State) (h : o.map f = some r) : r.pulse = m := by
  obtain ⟨u, hu, rfl⟩ := Option.map_eq_some_iff.1 h
  rw [hf, ho u hu]

theorem getD_pulse {o : Option State} {m : Word × Nat × Nat × Bool × Bool × Nat × Bool × Bool × Margin × Margin × Commit ×
    Weighhouse} (ho : ∀ r, o = some r → r.pulse = m) (s : State) (hs : s.pulse = m) :
    (o.getD s).pulse = m := by
  cases o with
  | none => exact hs
  | some u => exact ho u rfl

/-! ### Events and buffers -/

theorem OnlyEvents.pulse {s t : State} (h : OnlyEvents s t) : t.pulse = s.pulse := by
  obtain ⟨_, _, _, _, _, _, rfl, -⟩ := h; rfl

theorem OnlyPorter.pulse {s t : State} (h : OnlyPorter s t) : t.pulse = s.pulse := h.elim fun _ h => h.pulse

theorem OnlyRings.pulse {s t : State} (h : OnlyRings s t) : t.pulse = s.pulse := by
  obtain ⟨_, _, _, _, _, _, _, _, rfl, -⟩ := h; rfl

@[simp] theorem emit_pulse (o : Output) (s : State) : (emit o s).pulse = s.pulse := (emit_onlyEvents o s).pulse
@[simp] theorem drawFree_pulse (s : State) : (drawFree s).pulse = s.pulse := rfl
@[simp] theorem msixTrigger_pulse (vec : Nat) (en : Bool) (s : State) : (msixTrigger vec en s).pulse = s.pulse := (msixTrigger_onlyEvents vec en s).pulse
@[simp] theorem hostStore_pulse (addr : Nat) (l : List Byte) (s : State) : (hostStore addr l s).pulse = s.pulse := (hostStore_onlyEvents addr l s).pulse
@[simp] theorem raise_pulse (src p0 p1 : Nat) (s : State) : (raise src p0 p1 s).pulse = s.pulse := (raise_onlyEvents ..).pulse
@[simp] theorem raiseP_pulse (src p0 : Nat) (s : State) : (raiseP src p0 s).pulse = s.pulse := (raiseP_onlyEvents ..).pulse
@[simp] theorem raiseN_pulse (src : Nat) (s : State) : (raiseN src s).pulse = s.pulse := (raiseN_onlyEvents ..).pulse
@[simp] theorem freeBuffer_pulse (o : Nat) (h : Word) (s : State) : (freeBuffer o h s).pulse = s.pulse :=
  (freeBuffer_onlyPorter o h s).pulse
@[simp] theorem cplPost_pulse (n : Nat) (c : Completion) (s : State) : (cplPost n c s).pulse = s.pulse := (cplPost_onlyRings n c s).pulse
@[simp] theorem cplPump_pulse (n k : Nat) (s : State) : (cplPump n k s).pulse = s.pulse := (cplPump_onlyRings n k s).pulse
@[simp] theorem evtPump_pulse (s : State) : (evtPump s).pulse = s.pulse := (evtPump_onlyRings s).pulse

theorem fwHandle_onlyPorter (o : Nat) (h : Word) (s : State) : OnlyPorter s (fwHandle o h s) := by
  unfold fwHandle
  split
  · exact .of_prt _ s
  · exact .of_onlyEvents (.refl s)

theorem takeBuf_onlyPorter (p owner : Nat) (s : State) : OnlyPorter s (takeBuf p owner s).2 :=
  (OnlyPorter.of_prt _ s).trans (.of_onlyEvents (drawFree_onlyEvents _))

/-- A request that waited is served: the Porter's records change, and events. -/
theorem serveOne_onlyPorter (s : State) : OnlyPorter s (serveOne s) := by
  unfold serveOne
  split
  · exact .of_onlyEvents (.refl s)
  · next p r _ =>
    dsimp only
    refine OnlyPorter.trans (.of_prt { s.prt with waiting := s.prt.waiting.erase r } s) ?_
    refine OnlyPorter.trans ?_ ((takeBuf_onlyPorter ..).trans ((fwResult_onlyPorter ..).trans (fwHandle_onlyPorter ..)))
    split
    · exact .of_prt _ _
    · exact .of_onlyEvents (.refl _)

@[simp] theorem serveOne_pulse (s : State) : (serveOne s).pulse = s.pulse := (serveOne_onlyPorter s).pulse

@[simp] theorem mgtReturn_pulse (c : Completion) (s : State) : (mgtReturn c s).pulse = s.pulse := by
  unfold mgtReturn; simp
@[simp] theorem postTo_pulse (ring : Nat) (c : Completion) (s : State) : (postTo ring c s).pulse = s.pulse := by
  unfold postTo; simp
@[simp] theorem setRun_pulse (jsn : Nat) (f : RunInfo → RunInfo) (s : State) : (setRun jsn f s).pulse = s.pulse := by
  unfold setRun; simp
@[simp] theorem setEntry_pulse (jsn : Nat) (f : JournalEntry → JournalEntry) (s : State) : (setEntry jsn f s).pulse =
    s.pulse := by
  unfold setEntry; simp
@[simp] theorem postAccepted_pulse (e : JournalEntry) (s : State) : (postAccepted e s).pulse = s.pulse := by
  unfold postAccepted; simp
@[simp] theorem beginFree_pulse (jsn : Nat) (s : State) : (beginFree jsn s).pulse = s.pulse := by
  unfold beginFree; simp
@[simp] theorem setSlot_pulse (t : Bool × Nat) (k : KeySlot) (s : State) : (setSlot t k s).pulse = s.pulse := by
  unfold setSlot; simp
@[simp] theorem freePending_pulse (e : JournalEntry) (s : State) : (freePending e s).pulse = s.pulse := by
  unfold freePending; simp
@[simp] theorem endPhase_pulse (s : State) : (endPhase s).pulse = s.pulse := by
  unfold endPhase; simp
@[simp] theorem replayDone_pulse (s : State) : (replayDone s).pulse = s.pulse := by
  unfold replayDone; simp
@[simp] theorem replayEnded_pulse (wasReplayed : Bool) (s : State) : (replayEnded wasReplayed s).pulse = s.pulse := by
  unfold replayEnded; simp
@[simp] theorem abortMissed_pulse (jsn : Nat) (s : State) : (abortMissed jsn s).pulse = s.pulse := by
  unfold abortMissed; simp
@[simp] theorem reportFirst_pulse (e : JournalEntry) (s : State) : (reportFirst e s).pulse = s.pulse := by
  unfold reportFirst; simp
@[simp] theorem unpin_pulse (e : JournalEntry) (s : State) : (unpin e s).pulse = s.pulse := by
  unfold unpin; simp
@[simp] theorem retireNow_pulse (e : JournalEntry) (r : RunInfo) (status : Nat) (r0 r1 : Word) (s : State) :
    (retireNow e r status r0 r1 s).pulse = s.pulse := by
  unfold retireNow; simp
@[simp] theorem endCommand_pulse (jsn status : Nat) (r0 r1 : Word) (s : State) : (endCommand jsn status r0 r1
    s).pulse = s.pulse := by
  unfold endCommand; (repeat' split) <;> simp
@[simp] theorem endWith_pulse (jsn status r0 r1 : Nat) (s : State) : (endWith jsn status r0 r1 s).pulse = s.pulse := by
  unfold endWith; simp
@[simp] theorem endR0_pulse (jsn st r0 : Nat) (s : State) : (endR0 jsn st r0 s).pulse = s.pulse := by
  unfold endR0; simp
@[simp] theorem endR1_pulse (jsn st r1 : Nat) (s : State) : (endR1 jsn st r1 s).pulse = s.pulse := by
  unfold endR1; simp
@[simp] theorem modUnit_pulse (u : Nat) (f : SysUnit → SysUnit) (s : State) : (modUnit u f s).pulse = s.pulse := by
  unfold modUnit; simp
@[simp] theorem setUnit_pulse (u st cause : Nat) (s : State) : (setUnit u st cause s).pulse = s.pulse := by
  unfold setUnit; simp
@[simp] theorem addTransient_pulse (u : Nat) (s : State) : (addTransient u s).pulse = s.pulse := by
  unfold addTransient; simp
@[simp] theorem wakeNow_pulse (s : State) : (wakeNow s).pulse = s.pulse := by
  unfold wakeNow; simp
@[simp] theorem modLane_pulse (n : Nat) (f : HlkLane → HlkLane) (s : State) : (modLane n f s).pulse = s.pulse := by
  unfold modLane; simp
@[simp] theorem sendBlocks_pulse (lane : Nat) (l : List (BitVec 2 × Word)) (s : State) : (sendBlocks lane l s).pulse = s.pulse := by
  unfold sendBlocks; simp
@[simp] theorem sendFrame_pulse (ftype source index : Nat) (data : List Word) (s : State) : (sendFrame ftype source index data s).pulse = s.pulse := by
  unfold sendFrame; (repeat' split) <;> simp
@[simp] theorem sendControl_pulse (ftype : Nat) (data : List Word) (s : State) : (sendControl ftype data s).pulse = s.pulse := by
  unfold sendControl; simp
@[simp] theorem sendInhibit_pulse (s : State) : (sendInhibit s).pulse = s.pulse := by
  unfold sendInhibit; rw [emit_pulse, foldl_pulse (fun s n => by split <;> simp)]
@[simp] theorem inhibitOn_pulse (src : Nat) (s : State) : (inhibitOn src s).pulse = s.pulse := by
  unfold inhibitOn; dsimp only; split <;> simp
@[simp] theorem setDetector_pulse (track wrap : Nat) (d : Detector) (s : State) : (setDetector track wrap d s).pulse = s.pulse := by
  unfold setDetector; simp
@[simp] theorem setPool_pulse (p : Nat) (f : Pool → Pool) (s : State) : (setPool p f s).pulse = s.pulse := by
  unfold setPool; simp
@[simp] theorem setBuf_pulse (p i : Nat) (b : BufRec) (s : State) : (setBuf p i b s).pulse = s.pulse := by
  unfold setBuf; simp
@[simp] theorem takeBuf_pulse (p owner : Nat) (s : State) : (takeBuf p owner s).2.pulse = s.pulse := by
  unfold takeBuf; simp
theorem porterTry_pulse (owner size : Nat) (s : State) (q : (Word × State)) (hr : porterTry owner size s = some q) :
    q.2.pulse = s.pulse := by
  unfold porterTry at hr; dsimp only at hr; split at hr
  · cases hr; rw [takeBuf_pulse]; split <;> rfl
  · cases hr
@[simp] theorem clearBuffer_pulse (p i : Nat) (s : State) : (clearBuffer p i s).pulse = s.pulse := by
  unfold clearBuffer; simp
@[simp] theorem returnBuf_pulse (s : State) (pi : Nat × Nat) : (returnBuf s pi).pulse = s.pulse := by
  unfold returnBuf; simp
@[simp] theorem serveWaiting_pulse (y0 : Nat) (s : State) : (serveWaiting y0 s).pulse = s.pulse := by
  induction y0 generalizing s with
  | zero => rfl
  | succ n ih => unfold serveWaiting; rw [ih, serveOne_pulse]
@[simp] theorem publishPool_pulse (s : State) (p : Nat) : (publishPool s p).pulse = s.pulse := by
  unfold publishPool; simp
@[simp] theorem porterSettle_pulse (s : State) : (porterSettle s).pulse = s.pulse := by
  unfold porterSettle; simp
@[simp] theorem armTransfer_pulse (s : State) : (armTransfer s).pulse = s.pulse := by
  unfold armTransfer; simp
@[simp] theorem releaseLive_pulse (l : List (Nat × Bool)) (s : State) : (releaseLive l s).pulse = s.pulse := by
  unfold releaseLive; simp
@[simp] theorem pumpRings_pulse (s : State) : (pumpRings s).pulse = s.pulse := by
  unfold pumpRings; simp
@[simp] theorem ringTransfer_pulse (s : State) : (ringTransfer s).pulse = s.pulse := by
  unfold ringTransfer; dsimp only; (repeat' split) <;> simp
@[simp] theorem setCtx_pulse (n : Nat) (f : Context → Context) (s : State) : (setCtx n f s).pulse = s.pulse := by
  unfold setCtx; simp
@[simp] theorem endWriteAt_pulse (e : JournalEntry) (st r1 : Nat) (s : State) : (endWriteAt e st r1 s).pulse = s.pulse := by
  unfold endWriteAt; simp
@[simp] theorem endWrite_pulse (e : JournalEntry) (st : Nat) (s : State) : (endWrite e st s).pulse = s.pulse := by
  unfold endWrite; simp
@[simp] theorem dropDict_pulse (ctx : Nat) (s : State) : (dropDict ctx s).pulse = s.pulse := by
  unfold dropDict; simp
@[simp] theorem burnIv_pulse (n : Nat) (s : State) : (burnIv n s).pulse = s.pulse := by
  unfold burnIv; simp
@[simp] theorem setLoop_pulse (n : Nat) (f : Loop → Loop) (s : State) : (setLoop n f s).pulse = s.pulse := by
  unfold setLoop; simp
@[simp] theorem stopLoop_pulse (openLoop : Bool) (s : State) : (stopLoop openLoop s).pulse = s.pulse := by
  unfold stopLoop; simp
@[simp] theorem stopCurrents_pulse (s : State) : (stopCurrents s).pulse = s.pulse := by
  unfold stopCurrents; simp
@[simp] theorem beginStop_pulse (cause : Nat) (s : State) : (beginStop cause s).pulse = s.pulse := by
  unfold beginStop; simp
@[simp] theorem recurringStop_pulse (cause : Nat) (s : State) : (recurringStop cause s).pulse = s.pulse := by
  unfold recurringStop; simp
@[simp] theorem safeStop_pulse (loop cause : Nat) (s : State) : (safeStop loop cause s).pulse = s.pulse := by
  unfold safeStop; simp
@[simp] theorem feTrip_pulse (n : Nat) (e24 : Int) (s : State) : (feTrip n e24 s).pulse = s.pulse := by
  unfold feTrip; simp
@[simp] theorem feCheck_pulse (n : Nat) (e24 : Int) (s : State) : (feCheck n e24 s).pulse = s.pulse := by
  unfold feCheck; simp
@[simp] theorem addBusy_pulse (n : Nat) (s : State) : (addBusy n s).pulse = s.pulse := by
  unfold addBusy; simp
@[simp] theorem missingLoop_pulse (n src : Nat) (s : State) : (missingLoop n src s).pulse = s.pulse := by
  unfold missingLoop; simp
@[simp] theorem satEvents_pulse (n : Nat) (sats : List Nat) (s : State) : (satEvents n sats s).pulse = s.pulse := by
  unfold satEvents; (repeat' split) <;> simp
@[simp] theorem deliver_pulse (n : Nat) (s : State) : (deliver n s).pulse = s.pulse := by
  unfold deliver; simp
@[simp] theorem computeLoop_pulse (n : Nat) (e24 fb : Int) (s : State) : (computeLoop n e24 fb s).pulse = s.pulse := by
  unfold computeLoop; simp
@[simp] theorem runLoop_pulse (inp : List (Nat × Int)) (n : Nat) (s : State) : (runLoop inp n s).pulse = s.pulse := by
  unfold runLoop; (repeat' split) <;> simp
@[simp] theorem keep24_pulse (x : Rat) (s : State) : (keep24 x s).2.pulse = s.pulse := by
  unfold keep24; dsimp only; (repeat' split) <;> simp
@[simp] theorem profileDone_pulse (n : Nat) (s : State) : (profileDone n s).pulse = s.pulse := by
  unfold profileDone; simp
@[simp] theorem profileStep_pulse (period n : Nat) (s : State) : (profileStep period n s).pulse = s.pulse := by
  unfold profileStep; simp
@[simp] theorem droverTransfer_pulse (s : State) : (droverTransfer s).pulse = s.pulse := by
  unfold droverTransfer; (repeat' split) <;> simp
@[simp] theorem modeChange_pulse (made n : Nat) (s : State) : (modeChange made n s).2.pulse = s.pulse := by
  unfold modeChange; dsimp only; (repeat' split) <;> simp
@[simp] theorem modeChanges_pulse (s : State) : (modeChanges s).pulse = s.pulse := by
  unfold modeChanges; generalize (0 : Nat) = m; generalize List.range 32 = l
  induction l generalizing m s with
  | nil => rfl
  | cons a t ih => exact (ih _ _).trans (modeChange_pulse _ _ _)
@[simp] theorem takeTargets_pulse (s : State) : (takeTargets s).pulse = s.pulse := by
  unfold takeTargets; simp
@[simp] theorem droverChanges_pulse (s : State) : (droverChanges s).pulse = s.pulse := by
  unfold droverChanges; simp
@[simp] theorem applyOut_pulse (n : Nat) (c : Int) (s : State) : (applyOut n c s).pulse = s.pulse := by
  unfold applyOut; simp
@[simp] theorem overrunLoop_pulse (n : Nat) (late : Bool) (s : State) : (overrunLoop n late s).pulse = s.pulse := by
  unfold overrunLoop; dsimp only; (repeat' split) <;> simp
@[simp] theorem abandon_pulse (n : Nat) (s : State) : (abandon n s).pulse = s.pulse := by
  unfold abandon; simp
@[simp] theorem edgeLoop_pulse (unfinished : List Nat) (n : Nat) (s : State) : (edgeLoop unfinished n s).pulse =
    s.pulse := by
  unfold edgeLoop; dsimp only; (repeat' split) <;> simp
@[simp] theorem unposted_pulse (s : State) : (unposted s).pulse = s.pulse := by
  unfold unposted; simp
@[simp] theorem busyEdge_pulse (s : State) : (busyEdge s).pulse = s.pulse := by
  unfold busyEdge; simp
@[simp] theorem droverTick_pulse (period : Nat) (unfinished : List Nat) (inp : List (Nat × Int)) (s : State) :
    (droverTick period unfinished inp s).pulse = s.pulse := by
  unfold droverTick; simp
@[simp] theorem reloadSections_pulse (s : State) : (reloadSections s).pulse = s.pulse := by
  unfold reloadSections; simp
@[simp] theorem setSensor_pulse (n : Nat) (f : Sensor → Sensor) (s : State) : (setSensor n f s).pulse = s.pulse := by
  unfold setSensor; simp
@[simp] theorem sensorFail_pulse (n : Nat) (s : State) : (sensorFail n s).pulse = s.pulse := by
  unfold sensorFail; simp
@[simp] theorem channelFail_pulse (n : Nat) (s : State) : (channelFail n s).pulse = s.pulse := by
  unfold channelFail; simp
@[simp] theorem checkEncoders_pulse (t : TickInput) (s : State) : (checkEncoders t s).pulse = s.pulse := by
  unfold checkEncoders; simp
@[simp] theorem checkTension_pulse (t : TickInput) (s : State) : (checkTension t s).pulse = s.pulse := by
  unfold checkTension; (repeat' split) <;> simp
@[simp] theorem checkChannel_pulse (t : TickInput) (s : State) (i : Nat) : (checkChannel t s i).pulse = s.pulse := by
  unfold checkChannel; simp
@[simp] theorem checkCurrent_pulse (t : TickInput) (s : State) (i : Nat) : (checkCurrent t s i).pulse = s.pulse := by
  unfold checkCurrent; (repeat' split) <;> simp
@[simp] theorem checkSensors_pulse (t : TickInput) (s : State) : (checkSensors t s).pulse = s.pulse := by
  unfold checkSensors; simp
@[simp] theorem readServoFrame_pulse (t : TickInput) (s : State) : (readServoFrame t s).pulse = s.pulse := by
  unfold readServoFrame; dsimp only; (repeat' split) <;> simp
@[simp] theorem bandLocked_pulse (s : State) : (bandLocked s).pulse = s.pulse := by
  unfold bandLocked; (repeat' split) <;> simp
@[simp] theorem writeGate_pulse (on : Bool) (s : State) : (writeGate on s).pulse = s.pulse := by
  unfold writeGate; simp
@[simp] theorem releaseInhibit_pulse (s : State) : (releaseInhibit s).pulse = s.pulse := by
  unfold releaseInhibit; simp
@[simp] theorem chooseStep_pulse (st : Nat) (s : State) : (chooseStep st s).pulse = s.pulse := by
  unfold chooseStep; simp
@[simp] theorem applyStep_pulse (s : State) : (applyStep s).pulse = s.pulse := by
  unfold applyStep; simp
@[simp] theorem capDown_pulse (s : State) : (capDown s).pulse = s.pulse := by
  unfold capDown; simp
@[simp] theorem modCart_pulse (f : Cartridge → Cartridge) (s : State) : (modCart f s).pulse = s.pulse := by
  unfold modCart; simp
@[simp] theorem cutEnd_pulse (p n : Nat) (s : State) : (cutEnd p n s).pulse = s.pulse := by
  unfold cutEnd; simp
theorem openDataset_pulse (p : Nat) (s : State) (q : State) (hr : openDataset p s = some q) : q.pulse = s.pulse := by
  unfold openDataset at hr; split at hr
  · cases hr
  · split at hr
    · cases hr
    · rename_i heq
      have := porterTry_pulse _ _ _ _ heq
      cases hr; simpa using this
@[simp] theorem parkOpened_pulse (s : State) : (parkOpened s).pulse = s.pulse := by
  unfold parkOpened; (repeat' split) <;> simp
@[simp] theorem modOpened_pulse (f : OpenDataset → OpenDataset) (s : State) : (modOpened f s).pulse = s.pulse := by
  unfold modOpened; simp
@[simp] theorem setWrite_pulse (jsn : Nat) (f : WriteRun → WriteRun) (s : State) : (setWrite jsn f s).pulse = s.pulse
    := by
  unfold setWrite; simp
theorem putFrameBytes_pulse (n : Nat) (meter : Option Nat) (w : WriteRun) (first : Nat) (s : State) (q : State) (hr
    : putFrameBytes n meter w first s = some q) : q.pulse = s.pulse := by
  unfold putFrameBytes at hr; split at hr
  · cases hr
  · dsimp only at hr; split at hr
    · cases hr; simp
    · refine optMap_pulse (fun _ => by simp) (fun r h => ?_) q hr
      have := openDataset_pulse _ _ _ h; simpa using this
@[simp] theorem noteDone_pulse (jsn : Nat) (s : State) : (noteDone jsn s).pulse = s.pulse := by
  unfold noteDone; (repeat' split) <;> simp
@[simp] theorem sealOpen_pulse (ctx : Nat) (s : State) : (sealOpen ctx s).pulse = s.pulse := by
  unfold sealOpen; (repeat' split) <;> simp
theorem closeFrame_pulse (s : State) (q : State) (hr : closeFrame s = some q) : q.pulse = s.pulse := by
  unfold closeFrame at hr; split at hr
  · cases hr; rfl
  · split at hr
    · cases hr; rfl
    · dsimp only at hr; split at hr
      · cases hr; simp
      · exact optMap_pulse (fun _ => by simp) (fun r h => putFrameBytes_pulse _ _ _ _ _ _ h) q hr
theorem closeDataset_pulse (s : State) (q : State) (hr : closeDataset s = some q) : q.pulse = s.pulse := by
  unfold closeDataset at hr; split at hr
  · cases hr
  · rename_i heq
    have := closeFrame_pulse _ _ heq
    split at hr <;> cases hr <;> simp [this]
@[simp] theorem closeOpen_pulse (s : State) : (closeOpen s).pulse = s.pulse := getD_pulse (fun r h => closeDataset_pulse
    _ _ h) _ rfl
@[simp] theorem noteSeq_pulse (seq : Nat) (marks : List (Nat × Nat)) (s : State) : (noteSeq seq marks s).pulse =
    s.pulse := by
  unfold noteSeq; simp
@[simp] theorem formWith_pulse (ds : Dataset) (w : WrittenDataset) (s : State) : (formWith ds w s).pulse = s.pulse := by
  unfold formWith; simp
@[simp] theorem closeGroup_pulse (p : Nat) (s : State) : (closeGroup p s).pulse = s.pulse := by
  unfold closeGroup; simp
@[simp] theorem joinGroup_pulse (p : Nat) (trunc : Bool) (s : State) : (joinGroup p trunc s).2.2.pulse = s.pulse := by
  unfold joinGroup; dsimp only; (repeat' split) <;> simp
@[simp] theorem formData_pulse (o : OpenDataset) (s : State) : (formData o s).pulse = s.pulse := by
  unfold formData; simp
theorem formBare_pulse (ds : Dataset) (s : State) (q : State) (hr : formBare ds s = some q) : q.pulse = s.pulse := by
  unfold formBare at hr; split at hr
  · cases hr
  · cases hp : porterTry 6 8388608 s with
    | none => rw [hp] at hr; cases hr
    | some p => rw [hp] at hr; cases hr; exact porterTry_pulse _ _ _ _ hp
theorem formParity_pulse (g : C3Group) (y0 : Nat) (s : State) (q : State) (hr : formParity g y0 s = some q) : q.pulse
    = s.pulse := by
  induction y0 generalizing s with
  | zero => unfold formParity at hr; cases hr; rfl
  | succ n ih =>
    unfold formParity at hr; dsimp only at hr; split at hr
    · cases hr
    · rename_i heq; rw [ih _ hr, formBare_pulse _ _ _ heq]
@[simp] theorem formNext_pulse (y0 : Nat) (s : State) : (formNext y0 s).pulse = s.pulse := by
  induction y0 generalizing s with
  | zero => rfl
  | succ n ih =>
    unfold formNext; split
    · split
      · rename_i heq; rw [ih, formParity_pulse _ _ _ _ heq]
      · rfl
    · split
      · rfl
      · split
        · rw [ih]; simp
        · rfl
@[simp] theorem formAll_pulse (s : State) : (formAll s).pulse = s.pulse := by
  unfold formAll; simp
@[simp] theorem countPass_pulse (track : Nat) (s : State) : (countPass track s).pulse = s.pulse := by
  unfold countPass; simp
@[simp] theorem countSlots_pulse (s : State) : (countSlots s).pulse = s.pulse := by
  unfold countSlots; simp
@[simp] theorem countNoise_pulse (track : Nat) (d : Detector) (ys : List Rat) (word : List Bool) (s : State) :
    (countNoise track d ys word s).pulse = s.pulse := by
  unfold countNoise; simp
@[simp] theorem ratioEvent_pulse (r : WrapRecord) (s : State) : (ratioEvent r s).pulse = s.pulse := by
  unfold ratioEvent; simp
@[simp] theorem leaveWrap_pulse (s : State) : (leaveWrap s).pulse = s.pulse := by
  unfold leaveWrap; simp
@[simp] theorem endMediaExclusions_pulse (s : State) : (endMediaExclusions s).pulse = s.pulse := by
  unfold endMediaExclusions; simp
@[simp] theorem toBand_pulse (b : Nat) (s : State) : (toBand b s).pulse = s.pulse := by
  unfold toBand; simp
@[simp] theorem atWrap_pulse (w : Nat) (s : State) : (atWrap w s).pulse = s.pulse := by
  unfold atWrap; dsimp only; (repeat' split) <;> simp
@[simp] theorem putOnTape_pulse (d : Dataset) (s : State) : (putOnTape d s).pulse = s.pulse := by
  unfold putOnTape; (repeat' split) <;> simp
@[simp] theorem putInRun_pulse (d : Dataset) (s : State) : (putInRun d s).pulse = s.pulse := by
  unfold putInRun; simp
@[simp] theorem markRetried_pulse (jsn : Nat) (s : State) : (markRetried jsn s).pulse = s.pulse := by
  unfold markRetried; simp
@[simp] theorem finishWrite_pulse (w : WriteRun) (st : Nat) (r1 : Nat) (s : State) : (finishWrite w st r1 s).pulse =
    s.pulse := by
  unfold finishWrite; (repeat' split) <;> simp
@[simp] theorem settleWrite_pulse (s : State) (jsn : Nat) : (settleWrite s jsn).pulse = s.pulse := by
  unfold settleWrite; (repeat' split) <;> simp
@[simp] theorem settleWrites_pulse (s : State) : (settleWrites s).pulse = s.pulse := by
  unfold settleWrites; simp
@[simp] theorem stopWrite_pulse (jsn st : Nat) (r1 : Option Nat) (s : State) : (stopWrite jsn st r1 s).pulse = s.pulse := by
  have hs : ∀ (c : Nat) (u : State), ((closeFrame u).getD (sealOpen c u)).pulse = u.pulse :=
    fun c u => getD_pulse (fun r h => closeFrame_pulse _ _ h) _ (by simp)
  unfold stopWrite; dsimp only; (repeat' split) <;> simp [hs]
@[simp] theorem stopAllWrites_pulse (st : Nat) (s : State) : (stopAllWrites st s).pulse = s.pulse := by
  unfold stopAllWrites; simp
@[simp] theorem flushOpen_pulse (s : State) : (flushOpen s).pulse = s.pulse := by
  unfold flushOpen; dsimp only; (repeat' split) <;> simp
@[simp] theorem afterWrites_pulse (s : State) : (afterWrites s).pulse = s.pulse := by
  unfold afterWrites; simp
@[simp] theorem retractEvent_pulse (jsn seq p reason : Nat) (repl : Bool) (s : State) : (retractEvent jsn seq p
    reason repl s).pulse = s.pulse := by
  unfold retractEvent; simp
@[simp] theorem retract_pulse (d : WrittenDataset) (reason : Nat) (s : State) : (retract d reason s).pulse = s.pulse
    := by
  unfold retract; simp
@[simp] theorem dropDataset_pulse (d : WrittenDataset) (s : State) : (dropDataset d s).pulse = s.pulse := by
  unfold dropDataset; simp
@[simp] theorem dropAssembled_pulse (p : Nat) (s : State) : (dropAssembled p s).pulse = s.pulse := by
  unfold dropAssembled; simp
@[simp] theorem fitBuffers_pulse (jsn : Nat) (s : State) : (fitBuffers jsn s).pulse = s.pulse := by
  unfold fitBuffers; split
  · rfl
  · dsimp only; split
    · rw [foldl_pulse (fun s h => freeBuffer_pulse _ _ _)]; simp
    · refine foldl_pulse (fun s _ => ?_) _ _; split
      · rename_i heq; rw [setWrite_pulse, porterTry_pulse _ _ _ _ heq]
      · rfl
@[simp] theorem fitAll_pulse (s : State) : (fitAll s).pulse = s.pulse := by
  unfold fitAll; simp
@[simp] theorem restartPipeline_pulse (p : Nat) (s : State) : (restartPipeline p s).pulse = s.pulse := by
  unfold restartPipeline; simp
@[simp] theorem setActive_pulse (seq : Nat) (f : WrittenDataset → WrittenDataset) (s : State) : (setActive seq f
    s).pulse = s.pulse := by
  unfold setActive; simp
@[simp] theorem renameMarks_pulse (old new : Nat) (s : State) : (renameMarks old new s).pulse = s.pulse := by
  unfold renameMarks; simp
@[simp] theorem layDown_pulse (d : WrittenDataset) (reason : Nat) (s : State) : (layDown d reason s).pulse = s.pulse
    := by
  unfold layDown; simp
@[simp] theorem replaceDataset_pulse (d : WrittenDataset) (s : State) : (replaceDataset d s).pulse = s.pulse := by
  unfold replaceDataset; simp
@[simp] theorem truncateAway_pulse (s : State) (d : WrittenDataset) : (truncateAway s d).pulse = s.pulse := by
  unfold truncateAway; simp
@[simp] theorem failFrom_pulse (p n : Nat) (s : State) : (failFrom p n s).pulse = s.pulse := by
  unfold failFrom; simp
@[simp] theorem endRunSoon_pulse (s : State) : (endRunSoon s).pulse = s.pulse := by
  unfold endRunSoon; simp
@[simp] theorem lastingFailure_pulse (d : WrittenDataset) (s : State) : (lastingFailure d s).pulse = s.pulse := by
  unfold lastingFailure; simp
@[simp] theorem wholeRewrite_pulse (seq : Nat) (s : State) : (wholeRewrite seq s).pulse = s.pulse := by
  unfold wholeRewrite; (repeat' split) <;> simp
@[simp] theorem payDue_pulse (s : State) : (payDue s).pulse = s.pulse := by
  unfold payDue; simp
@[simp] theorem noteMiscorrect_pulse (seq subset row : Nat) (s : State) : (noteMiscorrect seq subset row s).pulse = s.pulse := by
  unfold noteMiscorrect; simp
@[simp] theorem learn_pulse (d : Dataset) (v : VerifyResult) (x : VerifyDecode) (s : State) : (learn d v x s).pulse = s.pulse := by
  unfold learn; (repeat' split) <;> simp
@[simp] theorem noteDecode_pulse (d : Dataset) (v : VerifyResult) (x : VerifyDecode) (s : State) : (noteDecode d v x s).pulse = s.pulse := by
  unfold noteDecode; (repeat' split) <;> simp
@[simp] theorem countFail_pulse (margin : Bool) (track : Nat) (s : State) : (countFail margin track s).pulse = s.pulse
    := by
  unfold countFail; simp
@[simp] theorem failFirst_pulse (seq m track : Nat) (margin : Bool) (s : State) : (failFirst seq m track margin
    s).pulse = s.pulse := by
  unfold failFirst; simp
@[simp] theorem firstResultOf_pulse (v : VerifyResult) (d : WrittenDataset) (s : State) : (firstResultOf v d s).pulse
    = s.pulse := by
  unfold firstResultOf; simp
@[simp] theorem failCopy_pulse (f : FailedCw) (c : Nat) (s : State) : (failCopy f c s).pulse = s.pulse := by
  unfold failCopy; simp
@[simp] theorem copyResult_pulse (v : VerifyResult) (d : WrittenDataset) (c : Nat) (s : State) : (copyResult v d c s).pulse = s.pulse := by
  unfold copyResult; (repeat' split) <;> simp
@[simp] theorem applyResult_pulse (s : State) (v : VerifyResult) : (applyResult s v).pulse = s.pulse := by
  unfold applyResult; (repeat' split) <;> simp
@[simp] theorem failSlots_pulse (seq : Nat) (p : Nat → Bool) (s : State) : (failSlots seq p s).pulse = s.pulse := by
  unfold failSlots; refine foldl_pulse (fun s x => ?_) _ _; split
  · rfl
  · split <;> simp
@[simp] theorem failCopies_pulse (seq : Nat) (p : Nat → Bool) (s : State) : (failCopies seq p s).pulse = s.pulse := by
  unfold failCopies; refine foldl_pulse (fun s x => ?_) _ _; split <;> simp
@[simp] theorem failWindow_pulse (seq lo hi : Nat) (s : State) : (failWindow seq lo hi s).pulse = s.pulse := by
  unfold failWindow; simp
@[simp] theorem failBehind_pulse (back len : Nat) (s : State) : (failBehind back len s).pulse = s.pulse := by
  unfold failBehind; (repeat' split) <;> simp
@[simp] theorem lateResults_pulse (s : State) : (lateResults s).pulse = s.pulse := by
  unfold lateResults; split
  · rfl
  · dsimp only; (repeat' split) <;> simp
@[simp] theorem disableWrites_pulse (s : State) : (disableWrites s).pulse = s.pulse := by
  unfold disableWrites; simp
@[simp] theorem excludeTrack_pulse (t c : Nat) (s : State) : (excludeTrack t c s).pulse = s.pulse := by
  unfold excludeTrack; simp
@[simp] theorem retryItems_pulse (seq : Nat) (s : State) : (retryItems seq s).pulse = s.pulse := by
  unfold retryItems; (repeat' split) <;> simp
@[simp] theorem judgeTrack_pulse (d : WrittenDataset) (s : State) (t : Nat) : (judgeTrack d s t).pulse = s.pulse := by
  unfold judgeTrack; (repeat' split) <;> simp
@[simp] theorem judgeDatasets_pulse (before : List Nat) (s : State) : (judgeDatasets before s).pulse = s.pulse := by
  unfold judgeDatasets; simp
@[simp] theorem takeResults_pulse (l : List VerifyResult) (s : State) : (takeResults l s).pulse = s.pulse := by
  unfold takeResults; simp
@[simp] theorem placeCopy_pulse (seq : Nat) (p : List Nat × State) (f : FailedCw) : (placeCopy seq p f).2.pulse =
    p.2.pulse := by
  obtain ⟨free, s⟩ := p
  unfold placeCopy; dsimp only; (repeat' split) <;> simp
@[simp] theorem fixCopies_pulse (seq : Nat) (s : State) : (fixCopies seq s).pulse = s.pulse := by
  unfold fixCopies; split
  · rfl
  · generalize candidates seq s = l; generalize List.replicate 64 8 = f
    have h : ∀ (p : List Nat × State), (l.foldl (fun p c => placeCopy seq p c.2) p).2.pulse = p.2.pulse := by
      induction l with
      | nil => exact fun _ => rfl
      | cons a t ih => intro p; rw [List.foldl_cons, ih, placeCopy_pulse]
    exact h (f, s)
@[simp] theorem writtenEvent_pulse (d : Dataset) (s : State) (jsn : Nat) : (writtenEvent d s jsn).pulse = s.pulse := by
  unfold writtenEvent; simp
@[simp] theorem datasetWritten_pulse (seq : Nat) (s : State) : (datasetWritten seq s).pulse = s.pulse := by
  unfold datasetWritten; (repeat' split) <;> simp
@[simp] theorem decideAt_pulse (writing c3 : Bool) (s : State) : (decideAt writing c3 s).pulse = s.pulse := by
  unfold decideAt; simp
@[simp] theorem earlyWarning_pulse (r : TapeRun) (s : State) : (earlyWarning r s).2.pulse = s.pulse := by
  unfold earlyWarning; (repeat' split) <;> simp
@[simp] theorem startDataset_pulse (seq : Nat) (r : TapeRun) (bits : Nat) (s : State) : (startDataset seq r bits
    s).pulse = s.pulse := by
  unfold startDataset; simp
@[simp] theorem finishRun_pulse (p : Nat) (s : State) : (finishRun p s).pulse = s.pulse := by
  unfold finishRun; simp
theorem startEod_pulse (r : TapeRun) (bits : Nat) (s : State) (q : State) (hr : startEod r bits s = some q) : q.pulse
    = s.pulse := by
  unfold startEod at hr; dsimp only at hr; split at hr
  · cases hr
  · rename_i heq; have := formBare_pulse _ _ _ heq
    cases hr; rw [startDataset_pulse]; split <;> exact this
@[simp] theorem beginClose_pulse (r : TapeRun) (bits : Nat) (s : State) : (beginClose r bits s).pulse = s.pulse := by
  unfold beginClose; dsimp only; split
  · rename_i heq; rw [startEod_pulse _ _ _ _ heq]; simp
  · simp
@[simp] theorem closeAtEnd_pulse (r : TapeRun) (s : State) : (closeAtEnd r s).pulse = s.pulse := by
  unfold closeAtEnd; (repeat' split) <;> simp
@[simp] theorem beginRunOut_pulse (r : TapeRun) (s : State) : (beginRunOut r s).pulse = s.pulse := by
  unfold beginRunOut; simp
@[simp] theorem nextInRun_pulse (r : TapeRun) (bits : Nat) (s : State) : (nextInRun r bits s).pulse = s.pulse := by
  unfold nextInRun; dsimp only; (repeat' split) <;> simp
@[simp] theorem fixEdge_pulse (task : Bool) (s : State) : (fixEdge task s).pulse = s.pulse := by
  unfold fixEdge; (repeat' split) <;> simp
@[simp] theorem failTick_pulse (off : Bool) (s : State) : (failTick off s).pulse = s.pulse := by
  unfold failTick; (repeat' split) <;> simp
@[simp] theorem runTick_pulse (writeLate verifyLate task : Bool) (s : State) : (runTick writeLate verifyLate task s).pulse = s.pulse := by
  unfold runTick; dsimp only; (repeat' split) <;> simp
@[simp] theorem interruptRun_pulse (s : State) : (interruptRun s).pulse = s.pulse := by
  unfold interruptRun; dsimp only; (repeat' split) <;> simp
@[simp] theorem levelTransfer_pulse (s : State) : (levelTransfer s).pulse = s.pulse := by
  unfold levelTransfer; simp
@[simp] theorem decodeTransfer_pulse (s : State) : (decodeTransfer s).pulse = s.pulse := by
  unfold decodeTransfer; (repeat' split) <;> simp
@[simp] theorem detectTransfer_pulse (s : State) : (detectTransfer s).pulse = s.pulse := by
  unfold detectTransfer; (repeat' split) <;> simp
@[simp] theorem giveUpDataset_pulse (s : State) (d : WrittenDataset) : (giveUpDataset s d).pulse = s.pulse := by
  unfold giveUpDataset; simp
@[simp] theorem giveUp_pulse (s : State) (p : Nat) : (giveUp s p).pulse = s.pulse := by
  unfold giveUp; simp
@[simp] theorem endWritesNow_pulse (js : List Nat) (st : Nat) (r1 : Option Nat) (s : State) :
    (endWritesNow js st r1 s).pulse = s.pulse := by
  unfold endWritesNow; dsimp only
  rw [settleWrites_pulse, foldl_pulse (fun s j => by split <;> simp)]; simp
@[simp] theorem loseTape_pulse (st : Nat) (s : State) : (loseTape st s).pulse = s.pulse := by
  unfold loseTape; simp
@[simp] theorem dropMove_pulse (jsn : Nat) (s : State) : (dropMove jsn s).pulse = s.pulse := by
  unfold dropMove; simp
@[simp] theorem endSets_pulse (s : State) : (endSets s).pulse = s.pulse := by
  unfold endSets; simp
@[simp] theorem endMode_pulse (s : State) (j : DrvJob) : (endMode s j).pulse = s.pulse := by
  unfold endMode; simp
@[simp] theorem endMove_pulse (s : State) (j : DrvJob) : (endMove s j).pulse = s.pulse := by
  unfold endMove; simp
@[simp] theorem droverJobs_pulse (s : State) : (droverJobs s).pulse = s.pulse := by
  unfold droverJobs; simp
@[simp] theorem dropCapture_pulse (jsn : Nat) (s : State) : (dropCapture jsn s).pulse = s.pulse := by
  unfold dropCapture; simp
@[simp] theorem captureOne_pulse (unfinished : List Nat) (s : State) (j : DrvJob) :
    (captureOne unfinished s j).pulse = s.pulse := by
  unfold captureOne; split
  · dsimp only; (repeat' split)
    · rfl
    · rw [setRun_pulse, addBusy_pulse]; rfl
    · rw [endR0_pulse, dropCapture_pulse, setRun_pulse, addBusy_pulse]; rfl
  · rfl
@[simp] theorem captureTick_pulse (unfinished : List Nat) (s : State) : (captureTick unfinished s).pulse = s.pulse := by
  unfold captureTick; simp
@[simp] theorem monTransfer_pulse (s : State) : (monTransfer s).pulse = s.pulse := by
  unfold monTransfer; simp
@[simp] theorem spmTransfer_pulse (s : State) : (spmTransfer s).pulse = s.pulse := by
  unfold spmTransfer; simp
@[simp] theorem stopRunIfStopped_pulse (was : Bool) (s : State) : (stopRunIfStopped was s).pulse = s.pulse := by
  unfold stopRunIfStopped; simp
@[simp] theorem updateCaps_pulse (s : State) : (updateCaps s).pulse = s.pulse := by
  unfold updateCaps; simp
@[simp] theorem sendMask_pulse (s : State) : (sendMask s).pulse = s.pulse := by
  unfold sendMask; simp
@[simp] theorem failLink_pulse (s : State) : (failLink s).pulse = s.pulse := by
  unfold failLink; simp
@[simp] theorem linkFails_pulse (s : State) : (linkFails s).pulse = s.pulse := by
  unfold linkFails; simp
@[simp] theorem retireLane_pulse (n : Nat) (s : State) : (retireLane n s).pulse = s.pulse := by
  unfold retireLane; simp
@[simp] theorem maskChange_pulse (s : State) (p : Nat × Bool) : (maskChange s p).pulse = s.pulse := by
  unfold maskChange; simp
@[simp] theorem beginRetrain_pulse (s : State) : (beginRetrain s).pulse = s.pulse := by
  unfold beginRetrain; (repeat' split) <;> simp
@[simp] theorem hlkTransfer_pulse (s : State) : (hlkTransfer s).pulse = s.pulse := by
  unfold hlkTransfer; simp
@[simp] theorem drainTick_pulse (s : State) : (drainTick s).pulse = s.pulse := by
  unfold drainTick; simp
@[simp] theorem linkTick_pulse (s : State) : (linkTick s).pulse = s.pulse := by
  unfold linkTick; simp
@[simp] theorem levelCross_pulse (n : Nat) (old new level : Int) (crit : Bool) (s : State) : (levelCross n old new
    level crit s).pulse = s.pulse := by
  unfold levelCross; simp
@[simp] theorem levelEvents_pulse (before : List Int) (s : State) : (levelEvents before s).pulse = s.pulse := by
  unfold levelEvents; simp
@[simp] theorem publishThermal_pulse (s : State) : (publishThermal s).pulse = s.pulse := by
  unfold publishThermal; simp
@[simp] theorem thmTransfer_pulse (s : State) : (thmTransfer s).pulse = s.pulse := by
  unfold thmTransfer; simp
@[simp] theorem slackTick_pulse (tension : Option Int) (s : State) : (slackTick tension s).pulse = s.pulse := by
  unfold slackTick; simp
@[simp] theorem overrunEvents_pulse (t : TickInput) (s : State) : (overrunEvents t s).pulse = s.pulse := by
  unfold overrunEvents; simp
@[simp] theorem runLost_pulse (y0 : Nat) (s : State) : (runLost y0 s).pulse = s.pulse := by
  induction y0 generalizing s with
  | zero => rfl
  | succ n ih => unfold runLost; rw [ih, runTick_pulse]
@[simp] theorem sendWriteData_pulse (lines : List (List Bool)) (s : State) : (sendWriteData lines s).pulse = s.pulse := by
  unfold sendWriteData; simp
@[simp] theorem sendTickBits_pulse (s t : State) : (sendTickBits s t).pulse = t.pulse := by
  unfold sendTickBits; (repeat' split) <;> simp
@[simp] theorem writeTick_pulse (t : TickInput) (after : Bool) (s : State) : (writeTick t after s).pulse = s.pulse := by
  unfold writeTick; simp
@[simp] theorem noteSpeed_pulse (inp : List (Nat × Int)) (s : State) : (noteSpeed inp s).pulse = s.pulse := by
  unfold noteSpeed; (repeat' split) <;> simp
@[simp] theorem droverPart_pulse (t : TickInput) (s : State) : (droverPart t s).pulse = s.pulse := by
  unfold droverPart; simp
@[simp] theorem sendRate_pulse (s : State) : (sendRate s).pulse = s.pulse := by
  unfold sendRate; simp
@[simp] theorem tickTask_pulse (t : TickInput) (s : State) : (tickTask t s).pulse = s.pulse := by
  unfold tickTask; simp
@[simp] theorem tapeCheck_pulse (s : State) : (tapeCheck s).pulse = s.pulse := by
  unfold tapeCheck; simp
@[simp] theorem meetPoison_pulse (s : State) : (meetPoison s).pulse = s.pulse := by
  unfold meetPoison; (repeat' split) <;> simp

end Sys2Proof.Proofs
end

section
/-! PROOFS. The journal, the formatter, the Weighhouse, the phase and the count of ticks (12, 13): `f_helm` says that the Drover's work, its
checks and the retry of a safe stop leave them as they are; `f_aon` the same of device time and its block. -/

namespace Sys2Proof.Machine

def State.helm (s : State) : Journal × Fmt × Weighhouse × BootPhase × Word := (s.jrn, s.fmt, s.whd, s.sys.phase, s.sys.tickCount)

end Sys2Proof.Machine

namespace Sys2Proof.Proofs

open Sys2Proof.Machine Sys2Proof.Safety Sys2Proof.Laws

@[simp] theorem helm_mk sys hif cmd jrn ctx pkr cph fmt tec vfy hlk drv mon spm prt mem thm pwr aon wh whd mram cart mgt pending out freeCount :
    (State.mk sys hif cmd jrn ctx pkr cph fmt tec vfy hlk drv mon spm prt mem thm pwr aon wh whd mram
      cart mgt pending out freeCount).helm =
      (jrn, fmt, whd, sys.phase, sys.tickCount) := rfl

@[simp] theorem helm_fold (s : State) : (s.jrn, s.fmt, s.whd, s.sys.phase, s.sys.tickCount) = s.helm := rfl

@[simp] theorem foldl_helm {α : Type} {f : State → α → State} (hf : ∀ s x, (f s x).helm = s.helm) (l : List α) (s : State) :
    (l.foldl f s).helm = s.helm := by
  induction l generalizing s with
  | nil => rfl
  | cons a t ih => rw [List.foldl_cons, ih, hf]

@[simp] theorem ite_helm (c : Prop) [Decidable c] (a b : State) : (if c then a else b).helm = if c then a.helm else b.helm :=
  apply_ite State.helm c a b

theorem optMap_helm {f : State → State} (hf : ∀ s, (f s).helm = s.helm) {o : Option State} {m : Journal × Fmt × Weighhouse × BootPhase × Word}
    (ho : ∀ r, o = some r → r.helm = m) (r : State) (h : o.map f = some r) : r.helm = m := by
  obtain ⟨u, hu, rfl⟩ := Option.map_eq_some_iff.1 h
  rw [hf, ho u hu]

theorem getD_helm {o : Option State} {m : Journal × Fmt × Weighhouse × BootPhase × Word} (ho : ∀ r, o = some r → r.helm = m) (s : State) (hs : s.helm = m) :
    (o.getD s).helm = m := by
  cases o with
  | none => exact hs
  | some u => exact ho u rfl

/-! ### Events and buffers -/

theorem OnlyEvents.helm {s t : State} (h : OnlyEvents s t) : t.helm = s.helm := by
  obtain ⟨_, _, _, _, _, _, rfl, -⟩ := h; rfl

theorem OnlyPorter.helm {s t : State} (h : OnlyPorter s t) : t.helm = s.helm := h.elim fun _ h => h.helm

@[simp] theorem emit_helm (o : Output) (s : State) : (emit o s).helm = s.helm := (emit_onlyEvents o s).helm
@[simp] theorem drawFree_helm (s : State) : (drawFree s).helm = s.helm := rfl
@[simp] theorem msixTrigger_helm (vec : Nat) (en : Bool) (s : State) : (msixTrigger vec en s).helm = s.helm := (msixTrigger_onlyEvents vec en s).helm
@[simp] theorem hostStore_helm (addr : Nat) (l : List Byte) (s : State) : (hostStore addr l s).helm = s.helm := (hostStore_onlyEvents addr l s).helm
@[simp] theorem raise_helm (src p0 p1 : Nat) (s : State) : (raise src p0 p1 s).helm = s.helm := (raise_onlyEvents ..).helm
@[simp] theorem raiseP_helm (src p0 : Nat) (s : State) : (raiseP src p0 s).helm = s.helm := (raiseP_onlyEvents ..).helm
@[simp] theorem raiseN_helm (src : Nat) (s : State) : (raiseN src s).helm = s.helm := (raiseN_onlyEvents ..).helm
@[simp] theorem freeBuffer_helm (o : Nat) (h : Word) (s : State) : (freeBuffer o h s).helm = s.helm :=
  (freeBuffer_onlyPorter o h s).helm

@[simp] theorem modUnit_helm (u : Nat) (f : SysUnit → SysUnit) (s : State) : (modUnit u f s).helm = s.helm := by
  unfold modUnit; simp
@[simp] theorem setUnit_helm (u st cause : Nat) (s : State) : (setUnit u st cause s).helm = s.helm := by
  unfold setUnit; simp
@[simp] theorem addTransient_helm (u : Nat) (s : State) : (addTransient u s).helm = s.helm := by
  unfold addTransient; simp
@[simp] theorem modLane_helm (n : Nat) (f : HlkLane → HlkLane) (s : State) : (modLane n f s).helm = s.helm := by
  unfold modLane; simp
@[simp] theorem sendBlocks_helm (lane : Nat) (l : List (BitVec 2 × Word)) (s : State) : (sendBlocks lane l s).helm = s.helm := by
  unfold sendBlocks; simp
@[simp] theorem sendInhibit_helm (s : State) : (sendInhibit s).helm = s.helm := by
  unfold sendInhibit; rw [emit_helm, foldl_helm (fun s n => by split <;> simp)]
@[simp] theorem inhibitOn_helm (src : Nat) (s : State) : (inhibitOn src s).helm = s.helm := by
  unfold inhibitOn; dsimp only; split <;> simp
@[simp] theorem setLoop_helm (n : Nat) (f : Loop → Loop) (s : State) : (setLoop n f s).helm = s.helm := by
  unfold setLoop; simp
@[simp] theorem stopLoop_helm (openLoop : Bool) (s : State) : (stopLoop openLoop s).helm = s.helm := by
  unfold stopLoop; simp
@[simp] theorem stopCurrents_helm (s : State) : (stopCurrents s).helm = s.helm := by
  unfold stopCurrents; simp
@[simp] theorem beginStop_helm (cause : Nat) (s : State) : (beginStop cause s).helm = s.helm := by
  unfold beginStop; simp
@[simp] theorem recurringStop_helm (cause : Nat) (s : State) : (recurringStop cause s).helm = s.helm := by
  unfold recurringStop; simp
@[simp] theorem safeStop_helm (loop cause : Nat) (s : State) : (safeStop loop cause s).helm = s.helm := by
  unfold safeStop; simp
@[simp] theorem feTrip_helm (n : Nat) (e24 : Int) (s : State) : (feTrip n e24 s).helm = s.helm := by
  unfold feTrip; simp
@[simp] theorem feCheck_helm (n : Nat) (e24 : Int) (s : State) : (feCheck n e24 s).helm = s.helm := by
  unfold feCheck; simp
@[simp] theorem addBusy_helm (n : Nat) (s : State) : (addBusy n s).helm = s.helm := by
  unfold addBusy; simp
@[simp] theorem missingLoop_helm (n src : Nat) (s : State) : (missingLoop n src s).helm = s.helm := by
  unfold missingLoop; simp [-ite_jrn]
@[simp] theorem satEvents_helm (n : Nat) (sats : List Nat) (s : State) : (satEvents n sats s).helm = s.helm := by
  unfold satEvents; (repeat' split) <;> simp
@[simp] theorem deliver_helm (n : Nat) (s : State) : (deliver n s).helm = s.helm := by
  unfold deliver; simp
@[simp] theorem computeLoop_helm (n : Nat) (e24 fb : Int) (s : State) : (computeLoop n e24 fb s).helm = s.helm := by
  unfold computeLoop; simp
@[simp] theorem runLoop_helm (inp : List (Nat × Int)) (n : Nat) (s : State) : (runLoop inp n s).helm = s.helm := by
  unfold runLoop; (repeat' split) <;> simp
@[simp] theorem keep24_helm (x : Rat) (s : State) : (keep24 x s).2.helm = s.helm := by
  unfold keep24; dsimp only; (repeat' split) <;> simp
@[simp] theorem profileDone_helm (n : Nat) (s : State) : (profileDone n s).helm = s.helm := by
  unfold profileDone; simp
@[simp] theorem profileStep_helm (period n : Nat) (s : State) : (profileStep period n s).helm = s.helm := by
  unfold profileStep; simp
@[simp] theorem droverTransfer_helm (s : State) : (droverTransfer s).helm = s.helm := by
  unfold droverTransfer; (repeat' split) <;> simp
@[simp] theorem modeChange_helm (made n : Nat) (s : State) : (modeChange made n s).2.helm = s.helm := by
  unfold modeChange; dsimp only; (repeat' split) <;> simp
@[simp] theorem modeChanges_helm (s : State) : (modeChanges s).helm = s.helm := by
  unfold modeChanges; generalize (0 : Nat) = m; generalize List.range 32 = l
  induction l generalizing m s with
  | nil => rfl
  | cons a t ih => exact (ih _ _).trans (modeChange_helm _ _ _)
@[simp] theorem takeTargets_helm (s : State) : (takeTargets s).helm = s.helm := by
  unfold takeTargets; simp
@[simp] theorem droverChanges_helm (s : State) : (droverChanges s).helm = s.helm := by
  unfold droverChanges; simp
@[simp] theorem applyOut_helm (n : Nat) (c : Int) (s : State) : (applyOut n c s).helm = s.helm := by
  unfold applyOut; simp
@[simp] theorem overrunLoop_helm (n : Nat) (late : Bool) (s : State) : (overrunLoop n late s).helm = s.helm := by
  unfold overrunLoop; dsimp only; (repeat' split) <;> simp
@[simp] theorem abandon_helm (n : Nat) (s : State) : (abandon n s).helm = s.helm := by
  unfold abandon; simp
@[simp] theorem edgeLoop_helm (unfinished : List Nat) (n : Nat) (s : State) : (edgeLoop unfinished n s).helm =
    s.helm := by
  unfold edgeLoop; dsimp only; (repeat' split) <;> simp
@[simp] theorem unposted_helm (s : State) : (unposted s).helm = s.helm := by
  unfold unposted; simp
@[simp] theorem busyEdge_helm (s : State) : (busyEdge s).helm = s.helm := by
  unfold busyEdge; simp
@[simp] theorem droverTick_helm (period : Nat) (unfinished : List Nat) (inp : List (Nat × Int)) (s : State) :
    (droverTick period unfinished inp s).helm = s.helm := by
  unfold droverTick; simp
@[simp] theorem postLoop_helm (m : List (Nat × Int)) (n : Nat) (s : State) : (postLoop m n s).helm = s.helm := by
  unfold postLoop; simp
@[simp] theorem postAll_helm (m : List (Nat × Int)) (s : State) : (postAll m s).helm = s.helm := by
  unfold postAll; simp
@[simp] theorem dacDone_helm (s : State) : (dacDone s).helm = s.helm := by
  unfold dacDone; dsimp only; (repeat' split) <;> simp
@[simp] theorem setSensor_helm (n : Nat) (f : Sensor → Sensor) (s : State) : (setSensor n f s).helm = s.helm := by
  unfold setSensor; simp
@[simp] theorem sensorFail_helm (n : Nat) (s : State) : (sensorFail n s).helm = s.helm := by
  unfold sensorFail; simp
@[simp] theorem channelFail_helm (n : Nat) (s : State) : (channelFail n s).helm = s.helm := by
  unfold channelFail; simp
@[simp] theorem checkEncoders_helm (t : TickInput) (s : State) : (checkEncoders t s).helm = s.helm := by
  unfold checkEncoders; simp [-ite_jrn]
@[simp] theorem checkTension_helm (t : TickInput) (s : State) : (checkTension t s).helm = s.helm := by
  unfold checkTension; (repeat' split) <;> simp
@[simp] theorem checkChannel_helm (t : TickInput) (s : State) (i : Nat) : (checkChannel t s i).helm = s.helm := by
  unfold checkChannel; simp
@[simp] theorem checkCurrent_helm (t : TickInput) (s : State) (i : Nat) : (checkCurrent t s i).helm = s.helm := by
  unfold checkCurrent; (repeat' split) <;> simp
@[simp] theorem checkSensors_helm (t : TickInput) (s : State) : (checkSensors t s).helm = s.helm := by
  unfold checkSensors; simp
@[simp] theorem checkOfftrack_helm (s : State) : (checkOfftrack s).helm = s.helm := by
  have k : ∀ (u : State) x, ({ u with mon := x } : State).helm = u.helm := fun _ _ => rfl
  unfold checkOfftrack; dsimp only; split
  · rfl
  · rw [k]; split
    · exact inhibitOn_helm _ _
    · rfl
@[simp] theorem sensorPass_helm (n : Nat) (s : State) : (sensorPass n s).helm = s.helm := by
  unfold sensorPass; simp
@[simp] theorem sensorLasts_helm (n : Nat) (both : Bool) (s : State) : (sensorLasts n both s).helm = s.helm := by
  unfold sensorLasts; simp
@[simp] theorem retrySensor_helm (failed : List Nat) (both : Bool) (s : State) (n : Nat) : (retrySensor failed both
    s n).helm = s.helm := by
  unfold retrySensor; simp
@[simp] theorem restoreLoops_helm (s : State) : (restoreLoops s).helm = s.helm := by
  unfold restoreLoops; simp
@[simp] theorem slackTick_helm (tension : Option Int) (s : State) : (slackTick tension s).helm = s.helm := by
  unfold slackTick; simp
@[simp] theorem noteSpeed_helm (inp : List (Nat × Int)) (s : State) : (noteSpeed inp s).helm = s.helm := by
  unfold noteSpeed; (repeat' split) <;> simp
@[simp] theorem droverPart_helm (t : TickInput) (s : State) : (droverPart t s).helm = s.helm := by
  unfold droverPart; simp

/-! ### Device time -/

@[simp] theorem sendInhibit_aon (s : State) : (sendInhibit s).aon = s.aon := by
  unfold sendInhibit; rw [emit_aon, foldl_aon (fun s n => by split <;> simp)]
@[simp] theorem inhibitOn_aon (src : Nat) (s : State) : (inhibitOn src s).aon = s.aon := by
  unfold inhibitOn; dsimp only; split <;> simp
@[simp] theorem stopLoop_aon (openLoop : Bool) (s : State) : (stopLoop openLoop s).aon = s.aon := by
  unfold stopLoop; simp
@[simp] theorem stopCurrents_aon (s : State) : (stopCurrents s).aon = s.aon := by
  unfold stopCurrents; simp [foldl_aon]
@[simp] theorem beginStop_aon (cause : Nat) (s : State) : (beginStop cause s).aon = s.aon := by
  unfold beginStop; simp
@[simp] theorem recurringStop_aon (cause : Nat) (s : State) : (recurringStop cause s).aon = s.aon := by
  unfold recurringStop; simp
@[simp] theorem safeStop_aon (loop cause : Nat) (s : State) : (safeStop loop cause s).aon = s.aon := by
  unfold safeStop; simp
@[simp] theorem feTrip_aon (n : Nat) (e24 : Int) (s : State) : (feTrip n e24 s).aon = s.aon := by
  unfold feTrip; simp
@[simp] theorem feCheck_aon (n : Nat) (e24 : Int) (s : State) : (feCheck n e24 s).aon = s.aon := by
  unfold feCheck; simp
@[simp] theorem addBusy_aon (n : Nat) (s : State) : (addBusy n s).aon = s.aon := by
  unfold addBusy; simp
@[simp] theorem missingLoop_aon (n src : Nat) (s : State) : (missingLoop n src s).aon = s.aon := by
  unfold missingLoop; simp
@[simp] theorem satEvents_aon (n : Nat) (sats : List Nat) (s : State) : (satEvents n sats s).aon = s.aon := by
  unfold satEvents; (repeat' split) <;> simp
@[simp] theorem deliver_aon (n : Nat) (s : State) : (deliver n s).aon = s.aon := by
  unfold deliver; simp
@[simp] theorem computeLoop_aon (n : Nat) (e24 fb : Int) (s : State) : (computeLoop n e24 fb s).aon = s.aon := by
  unfold computeLoop; simp
@[simp] theorem runLoop_aon (inp : List (Nat × Int)) (n : Nat) (s : State) : (runLoop inp n s).aon = s.aon := by
  unfold runLoop; (repeat' split) <;> simp
@[simp] theorem keep24_aon (x : Rat) (s : State) : (keep24 x s).2.aon = s.aon := by
  unfold keep24; dsimp only; (repeat' split) <;> simp
@[simp] theorem profileDone_aon (n : Nat) (s : State) : (profileDone n s).aon = s.aon := by
  unfold profileDone; simp
@[simp] theorem profileStep_aon (period n : Nat) (s : State) : (profileStep period n s).aon = s.aon := by
  unfold profileStep; simp
@[simp] theorem droverTransfer_aon (s : State) : (droverTransfer s).aon = s.aon := by
  unfold droverTransfer; (repeat' split) <;> simp
@[simp] theorem modeChange_aon (made n : Nat) (s : State) : (modeChange made n s).2.aon = s.aon := by
  unfold modeChange; dsimp only; (repeat' split) <;> simp
@[simp] theorem modeChanges_aon (s : State) : (modeChanges s).aon = s.aon := by
  unfold modeChanges; generalize (0 : Nat) = m; generalize List.range 32 = l
  induction l generalizing m s with
  | nil => rfl
  | cons a t ih => exact (ih _ _).trans (modeChange_aon _ _ _)
@[simp] theorem takeTargets_aon (s : State) : (takeTargets s).aon = s.aon := by
  unfold takeTargets; simp
@[simp] theorem droverChanges_aon (s : State) : (droverChanges s).aon = s.aon := by
  unfold droverChanges; simp
@[simp] theorem applyOut_aon (n : Nat) (c : Int) (s : State) : (applyOut n c s).aon = s.aon := by
  unfold applyOut; simp
@[simp] theorem overrunLoop_aon (n : Nat) (late : Bool) (s : State) : (overrunLoop n late s).aon = s.aon := by
  unfold overrunLoop; dsimp only; (repeat' split) <;> simp
@[simp] theorem abandon_aon (n : Nat) (s : State) : (abandon n s).aon = s.aon := by
  unfold abandon; simp
@[simp] theorem edgeLoop_aon (unfinished : List Nat) (n : Nat) (s : State) : (edgeLoop unfinished n s).aon =
    s.aon := by
  unfold edgeLoop; dsimp only; (repeat' split) <;> simp
@[simp] theorem unposted_aon (s : State) : (unposted s).aon = s.aon := by
  unfold unposted; simp [foldl_aon]
@[simp] theorem busyEdge_aon (s : State) : (busyEdge s).aon = s.aon := by
  unfold busyEdge; simp
@[simp] theorem droverTick_aon (period : Nat) (unfinished : List Nat) (inp : List (Nat × Int)) (s : State) :
    (droverTick period unfinished inp s).aon = s.aon := by
  unfold droverTick; simp [foldl_aon]
@[simp] theorem postLoop_aon (m : List (Nat × Int)) (n : Nat) (s : State) : (postLoop m n s).aon = s.aon := by
  unfold postLoop; simp
@[simp] theorem postAll_aon (m : List (Nat × Int)) (s : State) : (postAll m s).aon = s.aon := by
  unfold postAll; simp [foldl_aon]
@[simp] theorem dacDone_aon (s : State) : (dacDone s).aon = s.aon := by
  unfold dacDone; dsimp only; (repeat' split) <;> simp
@[simp] theorem setSensor_aon (n : Nat) (f : Sensor → Sensor) (s : State) : (setSensor n f s).aon = s.aon := by
  unfold setSensor; simp
@[simp] theorem sensorFail_aon (n : Nat) (s : State) : (sensorFail n s).aon = s.aon := by
  unfold sensorFail; simp
@[simp] theorem channelFail_aon (n : Nat) (s : State) : (channelFail n s).aon = s.aon := by
  unfold channelFail; simp
@[simp] theorem checkEncoders_aon (t : TickInput) (s : State) : (checkEncoders t s).aon = s.aon := by
  unfold checkEncoders; simp
@[simp] theorem checkTension_aon (t : TickInput) (s : State) : (checkTension t s).aon = s.aon := by
  unfold checkTension; (repeat' split) <;> simp
@[simp] theorem checkChannel_aon (t : TickInput) (s : State) (i : Nat) : (checkChannel t s i).aon = s.aon := by
  unfold checkChannel; simp
@[simp] theorem checkCurrent_aon (t : TickInput) (s : State) (i : Nat) : (checkCurrent t s i).aon = s.aon := by
  unfold checkCurrent; (repeat' split) <;> simp
@[simp] theorem checkSensors_aon (t : TickInput) (s : State) : (checkSensors t s).aon = s.aon := by
  unfold checkSensors; simp [foldl_aon]
@[simp] theorem checkOfftrack_aon (s : State) : (checkOfftrack s).aon = s.aon := by
  have k : ∀ (u : State) x, ({ u with mon := x } : State).aon = u.aon := fun _ _ => rfl
  unfold checkOfftrack; dsimp only; split
  · rfl
  · rw [k]; split
    · exact inhibitOn_aon _ _
    · rfl
@[simp] theorem sensorPass_aon (n : Nat) (s : State) : (sensorPass n s).aon = s.aon := by
  unfold sensorPass; simp
@[simp] theorem sensorLasts_aon (n : Nat) (both : Bool) (s : State) : (sensorLasts n both s).aon = s.aon := by
  unfold sensorLasts; simp
@[simp] theorem retrySensor_aon (failed : List Nat) (both : Bool) (s : State) (n : Nat) : (retrySensor failed both
    s n).aon = s.aon := by
  unfold retrySensor; simp
@[simp] theorem restoreLoops_aon (s : State) : (restoreLoops s).aon = s.aon := by
  unfold restoreLoops; simp [foldl_aon]
@[simp] theorem slackTick_aon (tension : Option Int) (s : State) : (slackTick tension s).aon = s.aon := by
  unfold slackTick; simp
@[simp] theorem noteSpeed_aon (inp : List (Nat × Int)) (s : State) : (noteSpeed inp s).aon = s.aon := by
  unfold noteSpeed; (repeat' split) <;> simp
@[simp] theorem droverPart_aon (t : TickInput) (s : State) : (droverPart t s).aon = s.aon := by
  unfold droverPart; simp

end Sys2Proof.Proofs
end

section
/-! PROOFS. Ticks (01 R13-R15, 09 R259, 18 R450; O46): the parts of a tick, of which the count and the transfers at core cycle 16 alone
change what `State.pulse` holds. -/

namespace Sys2Proof.Proofs

open Sys2Proof.Machine Sys2Proof.Safety Sys2Proof.Laws

variable {s u : State}

theorem pulse_parts (h : u.pulse = s.pulse) :
    (u.sys.tickCount = s.sys.tickCount ∧ u.sys.tickStart = s.sys.tickStart ∧ u.sys.lastPeriod = s.sys.lastPeriod
        ∧ u.sys.shortTick = s.sys.shortTick ∧ u.sys.synth = s.sys.synth ∧ u.sys.taskMisses = s.sys.taskMisses)
      ∧ (u.cmd.compatT4 = s.cmd.compatT4 ∧ u.cmd.compatActive = s.cmd.compatActive)
      ∧ (u.vfy.margin = s.vfy.margin ∧ u.vfy.shadow = s.vfy.shadow ∧ u.vfy.commit = s.vfy.commit) ∧ u.whd = s.whd := by
  simp only [State.pulse, Prod.mk.injEq] at h
  tauto

/-! ### The transfers -/

/-- VFY_MARGIN is taken, or its shadow reloaded. -/
theorem vfyTransfer_parts (s : State) :
    (vfyTransfer s).sys = s.sys ∧ (vfyTransfer s).cmd.compatT4 = s.cmd.compatT4 ∧ (vfyTransfer s).whd = s.whd
      ∧ (vfyTransfer s).vfy.commit.pending = false
      ∧ (vfyTransfer s).vfy.margin = (if s.vfy.commit.pending && marginOk s.vfy.shadow then s.vfy.shadow else s.vfy.margin) := by
  by_cases hp : s.vfy.commit.pending = true
  · by_cases hm : marginOk s.vfy.shadow = true
    · have taken : vfyTransfer s = { s with vfy := { s.vfy with margin := s.vfy.shadow, commit := .none } } := by
        rw [vfyTransfer, hp, hm]
        rfl
      rw [taken, hp, hm]
      exact ⟨rfl, rfl, rfl, rfl, rfl⟩
    · have reloaded : { s.vfy with shadow := s.vfy.margin, commit := { pending := false, err := true } } = (vfyTransfer s).vfy
          ∧ OnlyEvents { s with vfy := { s.vfy with shadow := s.vfy.margin, commit := { pending := false, err := true } } } (vfyTransfer s) := by
        have refused : vfyTransfer s = raiseN evVfyCfgErr
            { s with vfy := { s.vfy with shadow := s.vfy.margin, commit := { pending := false, err := true } } } := by
          rw [vfyTransfer, if_neg (by rw [hp]; decide), if_neg hm]
        have raised := raiseN_onlyEvents evVfyCfgErr
          { s with vfy := { s.vfy with shadow := s.vfy.margin, commit := { pending := false, err := true } } }
        rw [refused]
        exact ⟨(device_vfy raised.device).symm, raised⟩
      obtain ⟨vfy, raised⟩ := reloaded
      obtain ⟨e, g, cmd⟩ := raised.cmd
      refine ⟨raised.sys, (congrArg Cmd.compatT4 cmd :), (device_whd raised.device :), by rw [← vfy], ?_⟩
      rw [← vfy, Bool.eq_false_of_not_eq_true hm, Bool.and_false]
      rfl
  · have waits : vfyTransfer s = s := by
      rw [vfyTransfer, Bool.eq_false_of_not_eq_true hp]
      rfl
    rw [waits, Bool.eq_false_of_not_eq_true hp]
    exact ⟨rfl, rfl, rfl, rfl, rfl⟩

/-- After the transfers of core cycle 16. -/
theorem transfers_parts (s : State) :
    ((transfers s).sys.tickCount = s.sys.tickCount ∧ (transfers s).sys.tickStart = s.sys.tickStart
        ∧ (transfers s).sys.lastPeriod = s.sys.lastPeriod ∧ (transfers s).sys.shortTick = s.sys.shortTick
        ∧ (transfers s).sys.synth = s.sys.synth ∧ (transfers s).sys.taskMisses = s.sys.taskMisses)
      ∧ (transfers s).cmd.compatActive = s.cmd.compatT4 ∧ (transfers s).vfy.commit.pending = false
      ∧ (transfers s).vfy.margin = (if s.vfy.commit.pending && marginOk s.vfy.shadow then s.vfy.shadow else s.vfy.margin)
      ∧ (transfers s).whd = s.whd := by
  have before : (armTransfer (ringTransfer s)).pulse = s.pulse := by rw [armTransfer_pulse, ringTransfer_pulse]
  have runs : ∃ x : State, transfers s = { x with cmd := { x.cmd with compatActive := x.cmd.compatT4 } }
      ∧ x.pulse = (vfyTransfer (armTransfer (ringTransfer s))).pulse := by
    refine ⟨_, rfl, ?_⟩
    rw [detectTransfer_pulse, decodeTransfer_pulse, levelTransfer_pulse, thmTransfer_pulse, spmTransfer_pulse, monTransfer_pulse,
      hlkTransfer_pulse]
  obtain ⟨x, runs, after⟩ := runs
  obtain ⟨sys, t4, whd, pending, margin⟩ := vfyTransfer_parts (armTransfer (ringTransfer s))
  obtain ⟨⟨count, start, period, short, synth, misses⟩, ⟨t4', -⟩, ⟨margin', shadow', commit'⟩, whd'⟩ := pulse_parts before
  obtain ⟨⟨count'', start'', period'', short'', synth'', misses''⟩, ⟨t4'', -⟩, ⟨margin'', -, commit''⟩, whd''⟩ := pulse_parts after
  rw [runs]
  rw [sys] at count'' start'' period'' short'' synth'' misses''
  rw [margin', shadow', commit'] at margin
  refine ⟨⟨count''.trans count, start''.trans start, period''.trans period, short''.trans short, synth''.trans synth, misses''.trans misses⟩,
    t4''.trans (t4.trans t4'), ?_, margin''.trans margin, whd''.trans (whd.trans whd')⟩
  exact (congrArg Commit.pending commit'').trans pending

/-! ### The rest of a tick -/

theorem captureTick_aon (unfinished : List Nat) (s : State) : (captureTick unfinished s).aon = s.aon := by
  refine foldl_aon (fun s j => ?_) _ s
  unfold captureOne
  split
  · dsimp only
    split
    · rfl
    · split
      · rfl
      · exact endWith_aon ..
  · rfl

/-- The count of a tick. -/
theorem tickFront_parts (t : TickInput) (s : State) :
    let u := overrunEvents t (countTick t (captureTick t.unfinished s))
    (u.sys.tickCount = s.sys.tickCount + 1 ∧ u.sys.tickStart = max s.aon.time t.at_ ∧ u.sys.lastPeriod = t.period % 2 ^ 20
        ∧ u.sys.synth = s.sys.synth ∧ u.sys.taskMisses = s.sys.taskMisses)
      ∧ u.cmd.compatT4 = s.cmd.compatT4
      ∧ (u.vfy.margin = s.vfy.margin ∧ u.vfy.shadow = s.vfy.shadow ∧ u.vfy.commit = s.vfy.commit) ∧ u.whd = s.whd := by
  intro u
  obtain ⟨⟨count, -, -, -, synth, misses⟩, ⟨t4, -⟩, vfy, whd⟩ := pulse_parts (captureTick_pulse t.unfinished s)
  obtain ⟨⟨count', start', period', -, synth', misses'⟩, ⟨t4', -⟩, vfy', whd'⟩ :=
    pulse_parts (overrunEvents_pulse t (countTick t (captureTick t.unfinished s)))
  obtain ⟨margin, shadow, commit⟩ := vfy
  obtain ⟨margin', shadow', commit'⟩ := vfy'
  refine ⟨⟨count'.trans ?_, start'.trans ?_, period'.trans rfl, synth'.trans synth, misses'.trans misses⟩, t4'.trans t4,
    ⟨margin'.trans margin, shadow'.trans shadow, commit'.trans commit⟩, whd'.trans whd⟩
  · exact congrArg (· + 1) count
  · exact congrArg (fun a : Aon => max a.time t.at_) (captureTick_aon t.unfinished s)

/-- What a tick comes to, from its count and its transfers. -/
structure Ticked (short : Bool) (t : TickInput) (s u : State) : Prop where
  count : u.sys.tickCount = s.sys.tickCount + 1
  start : u.sys.tickStart = max s.aon.time t.at_
  period : u.sys.lastPeriod = t.period % 2 ^ 20
  short : u.sys.shortTick = short
  synth : u.sys.synth = s.sys.synth
  compat : u.cmd.compatActive = s.cmd.compatT4
  pending : u.vfy.commit.pending = false
  margin : u.vfy.margin = if s.vfy.commit.pending && marginOk s.vfy.shadow then s.vfy.shadow else s.vfy.margin
  whd : u.whd = s.whd

/-- The tick before its transfers: counted, the run's bits passed, and its length judged. -/
def beforeTransfers (servo after : Bool) (t : TickInput) (s : State) : State :=
  let s := takeResults t.verify (meetPoison (overrunEvents t (countTick t (captureTick t.unfinished s))))
  let s := if servo then writeTick t after s else s
  let s := if servo && !after then shortCheck t s else { s with sys := { s.sys with shortTick := false } }
  if t.taskDone then applyStep (capDown s) else s

/-- The tick from its transfers on, but for the watch over its task. -/
def afterTransfers (was : Bool) (t : TickInput) (s : State) : State :=
  tapeCheck (stopRunIfStopped was (tickTask t (droverJobs (sendRate (porterSettle (droverPart t (publishThermal (linkTick s))))))))

theorem fullTick_eq (servo after : Bool) (t : TickInput) (s : State) :
    fullTick servo after t s = taskCheck t (afterTransfers s.drv.safeStop t (transfers (beforeTransfers servo after t s))) := rfl

theorem shortCheck_parts (t : TickInput) (s : State) :
    (shortCheck t s).pulse = State.pulse { s with sys := { s.sys with shortTick := decide (t.period < 38400) } } := by
  unfold shortCheck
  dsimp only
  split
  · exact raise_pulse ..
  · rfl

theorem beforeTransfers_parts (servo after : Bool) (t : TickInput) (s : State) :
    ∃ x : State, x.pulse = (overrunEvents t (countTick t (captureTick t.unfinished s))).pulse
      ∧ (beforeTransfers servo after t s).pulse
        = State.pulse { x with sys := { x.sys with shortTick := servo && !after && decide (t.period < 38400) } } := by
  let x := if servo then writeTick t after (takeResults t.verify (meetPoison (overrunEvents t (countTick t (captureTick t.unfinished s)))))
    else takeResults t.verify (meetPoison (overrunEvents t (countTick t (captureTick t.unfinished s))))
  refine ⟨x, ?_, ?_⟩
  · dsimp only [x]
    cases servo
    · rw [if_neg (by decide), takeResults_pulse, meetPoison_pulse]
    · rw [if_pos rfl, writeTick_pulse, takeResults_pulse, meetPoison_pulse]
  · have stepped : ∀ u : State, (if t.taskDone then applyStep (capDown u) else u).pulse = u.pulse := by
      intro u
      split
      · rw [applyStep_pulse, capDown_pulse]
      · rfl
    refine (stepped _).trans ?_
    cases hc : servo && !after
    · rw [if_neg (by decide)]
      rfl
    · rw [if_pos rfl]
      exact shortCheck_parts t x

theorem afterTransfers_pulse (was : Bool) (t : TickInput) (s : State) : (afterTransfers was t s).pulse = s.pulse := by
  rw [afterTransfers, tapeCheck_pulse, stopRunIfStopped_pulse, tickTask_pulse, droverJobs_pulse, sendRate_pulse, porterSettle_pulse,
    droverPart_pulse, publishThermal_pulse, linkTick_pulse]

/-- A tick whose task is done, or the first without it, makes no core fail. -/
theorem taskCheck_passes {t : TickInput} (h : t.taskDone = true ∨ s.sys.taskMisses = 0) :
    taskCheck t s = { s with sys := { s.sys with taskMisses := if t.taskDone then 0 else s.sys.taskMisses + 1 } } := by
  have few : (if t.taskDone then 0 else s.sys.taskMisses + 1) < 2 := by
    rcases h with h | h
    · rw [h, if_pos rfl]; decide
    · split
      · decide
      · omega
  unfold taskCheck
  dsimp only
  rw [decide_eq_true few]
  rfl

theorem fullTick_ticked (servo after : Bool) {t : TickInput} (h : t.taskDone = true ∨ s.sys.taskMisses = 0) :
    Ticked (servo && !after && decide (t.period < 38400)) t s (fullTick servo after t s) := by
  obtain ⟨⟨count, start, period, synth, misses⟩, t4, ⟨margin, shadow, commit⟩, whd⟩ := tickFront_parts t s
  obtain ⟨x, hx, before⟩ := beforeTransfers_parts servo after t s
  obtain ⟨⟨count1, start1, period1, -, synth1, misses1⟩, ⟨t41, -⟩, ⟨margin1, shadow1, commit1⟩, whd1⟩ := pulse_parts hx
  obtain ⟨⟨count2, start2, period2, short2, synth2, misses2⟩, ⟨t42, -⟩, ⟨margin2, shadow2, commit2⟩, whd2⟩ := pulse_parts before
  obtain ⟨⟨count3, start3, period3, short3, synth3, misses3⟩, compat, pending, margin3, whd3⟩ :=
    transfers_parts (beforeTransfers servo after t s)
  obtain ⟨⟨count4, start4, period4, short4, synth4, misses4⟩, ⟨-, compat4⟩, ⟨margin4, -, commit4⟩, whd4⟩ :=
    pulse_parts (afterTransfers_pulse s.drv.safeStop t (transfers (beforeTransfers servo after t s)))
  have task : t.taskDone = true ∨ (afterTransfers s.drv.safeStop t (transfers (beforeTransfers servo after t s))).sys.taskMisses = 0 :=
    h.imp_right fun h => misses4.trans (misses3.trans (misses2.trans (misses1.trans (misses.trans h))))
  rw [margin2, margin1, margin, shadow2, shadow1, shadow, commit2, commit1, commit] at margin3
  rw [fullTick_eq, taskCheck_passes task]
  exact {
    count := count4.trans (count3.trans (count2.trans (count1.trans count)))
    start := start4.trans (start3.trans (start2.trans (start1.trans start)))
    period := period4.trans (period3.trans (period2.trans (period1.trans period)))
    short := short4.trans (short3.trans short2)
    synth := synth4.trans (synth3.trans (synth2.trans (synth1.trans synth)))
    compat := compat4.trans (compat.trans (t42.trans (t41.trans t4)))
    pending := (congrArg Commit.pending commit4).trans pending
    margin := margin4.trans margin3
    whd := whd4.trans (whd3.trans (whd2.trans (whd1.trans whd))) }

/-! ### Servo and synthetic ticks -/

/-- The frames of a lock in progress count no longer. -/
def framesDropped (s : State) : State := { s with mon := { s.mon with frames := 0 } }

theorem servoTick_runs {t : TickInput} (hp : s.sys.phase = .running) (hl3 : s.pwr.state ≠ 4) (hs : s.sys.synth = false) (hl : s.mon.lock = true)
    (hlong : t.period ≤ 160000) :
    exec (.servoTick t) s = .next (fullTick true (decide (s.mon.frames ≠ 0)) t (framesDropped s)) := by
  have ticks : ticking s = true := by simp [ticking, hp, hl3]
  refine congrArg Host.Outcome.next ((if_neg ?_).trans (if_neg ?_))
  · rw [ticks, hs, hl]
    simpa using hlong
  · change s.sys.phase ≠ .coldStop
    rw [hp]
    decide

theorem servoTick_none {t : TickInput}
    (h : s.sys.phase = .off ∨ s.pwr.state = 4 ∨ s.sys.synth = true ∨ s.mon.lock = false ∨ 160000 < t.period) :
    exec (.servoTick t) s = .next s := by
  refine congrArg Host.Outcome.next (if_pos ?_)
  rcases h with h | h | h | h | h <;> simp [ticking, h]

/-- The tick source has become synthetic. -/
def synthetic (s : State) : State :=
  if s.sys.synth then s else { s with sys := { s.sys with synth := true }, mon := { s.mon with frames := 0 } }

theorem synthetic_parts (s : State) :
    (synthetic s).pulse = State.pulse { s with sys := { s.sys with synth := true } } ∧ (synthetic s).sys.phase = s.sys.phase
      ∧ (synthetic s).aon = s.aon ∧ (synthetic s).jrn = s.jrn ∧ (synthetic s).fmt = s.fmt ∧ (synthetic s).mem = s.mem := by
  unfold synthetic
  split
  · next h => exact ⟨by rw [State.pulse, h]; rfl, rfl, rfl, rfl, rfl, rfl⟩
  · exact ⟨rfl, rfl, rfl, rfl, rfl, rfl⟩

theorem syntheticTick_runs (t : TickInput) (hp : s.sys.phase ≠ .off) (hl3 : s.pwr.state ≠ 4) :
    exec (.syntheticTick t) s = .next (tickWork false false t (synthetic s)) := by
  have ticks : ticking s = true := by simp [ticking, hp, hl3]
  exact congrArg Host.Outcome.next (if_neg (by rw [ticks]; decide))

/-- Over a tick the INSTANCE stays. -/
theorem servoTick_inst {t : TickInput} {u : State} (h : exec (.servoTick t) s = .next u) : u.mram.inst = s.mram.inst := by
  have kept := execServoTick_kept t s
  rw [show execServoTick t s = .next u from h] at kept
  exact congrArg (fun k => k.2.2) (kept : u.kept = s.kept)

theorem syntheticTick_inst {t : TickInput} {u : State} (h : exec (.syntheticTick t) s = .next u) : u.mram.inst = s.mram.inst := by
  have kept := execSyntheticTick_kept t s
  rw [show execSyntheticTick t s = .next u from h] at kept
  exact congrArg (fun k => k.2.2) (kept : u.kept = s.kept)

/-- A synthetic tick of a running device. -/
theorem syntheticTick_ends {t : TickInput} (hp : s.sys.phase = .running) (hl3 : s.pwr.state ≠ 4) (h : t.taskDone = true ∨ s.sys.taskMisses = 0) :
    ∃ u, exec (.syntheticTick t) s = .next u ∧ u.sys.tickCount = s.sys.tickCount + 1 ∧ u.sys.synth = true
      ∧ u.sys.tickStart = max s.aon.time t.at_ ∧ u.sys.shortTick = false ∧ u.cmd.compatActive = s.cmd.compatT4
      ∧ u.vfy.margin = (if s.vfy.commit.pending && marginOk s.vfy.shadow then s.vfy.shadow else s.vfy.margin)
      ∧ u.whd = s.whd ∧ u.mram.inst = s.mram.inst := by
  obtain ⟨pulse, phase, aon, -⟩ := synthetic_parts s
  obtain ⟨⟨count, -, -, -, synth, misses⟩, ⟨t4, -⟩, ⟨margin, shadow, commit⟩, whd⟩ := pulse_parts pulse
  have running : ¬(synthetic s).sys.phase = .coldStop := by rw [phase, hp]; decide
  have runs : exec (.syntheticTick t) s = .next (fullTick false false t (synthetic s)) :=
    (syntheticTick_runs t (by rw [hp]; decide) hl3).trans (congrArg Host.Outcome.next (if_neg running))
  have ticked := fullTick_ticked (s := synthetic s) false false (t := t) (h.imp_right fun h => misses.trans h)
  refine ⟨_, runs, ticked.count.trans (congrArg (· + 1) count), ticked.synth.trans synth, ?_, ticked.short, ticked.compat.trans t4, ?_,
    ticked.whd.trans whd, syntheticTick_inst runs⟩
  · rw [ticked.start, aon]
  · rw [ticked.margin, margin, shadow, commit]

/-- In a cold stop a tick brings loop 0 to rest. -/
theorem syntheticTick_coldStop (t : TickInput) (hp : s.sys.phase = .coldStop) (hl3 : s.pwr.state ≠ 4) :
    ∃ u, exec (.syntheticTick t) s = .next u ∧ u.sys.tickCount = s.sys.tickCount + 1 ∧ u.sys.phase = .coldStop
      ∧ u.jrn = s.jrn ∧ u.fmt = s.fmt ∧ u.mem = s.mem ∧ u.whd = s.whd := by
  obtain ⟨pulse, phase, -, jrn, fmt, mem⟩ := synthetic_parts s
  obtain ⟨⟨count, -⟩, -, -, whd⟩ := pulse_parts pulse
  have cold : (synthetic s).sys.phase = .coldStop := phase.trans hp
  have runs : exec (.syntheticTick t) s = .next (droverPart t (countTick t (synthetic s))) :=
    (syntheticTick_runs t (by rw [hp]; decide) hl3).trans (congrArg Host.Outcome.next (if_pos cold))
  have helm := droverPart_helm t (countTick t (synthetic s))
  simp only [State.helm, Prod.mk.injEq] at helm
  obtain ⟨jrn', fmt', whd', phase', count'⟩ := helm
  refine ⟨_, runs, count'.trans (congrArg (· + 1) count), phase'.trans cold, jrn'.trans jrn, fmt'.trans fmt, ?_, whd'.trans whd⟩
  rw [droverPart_mem]
  exact mem

/-- Settles O46: the two kinds of tick. -/
theorem ticksCountAndTransfer : Obligations.TicksCountAndTransfer := by
  refine ⟨fun t s hp hl3 hs hl hlong h => ?_, fun t s h => servoTick_none h, fun t s hp hl3 h => syntheticTick_ends hp hl3 h,
    fun t s hp hl3 => syntheticTick_coldStop t hp hl3⟩
  have runs := servoTick_runs hp hl3 hs hl hlong
  have ticked := fullTick_ticked (s := framesDropped s) true (decide (s.mon.frames ≠ 0)) (t := t) h
  refine ⟨_, runs, ticked.count, ticked.start, ticked.period, ticked.short.trans ?_, ticked.compat, ticked.pending, ticked.margin, ticked.whd,
    servoTick_inst runs⟩
  rw [Bool.true_and, Bool.and_comm]
  simp

end Sys2Proof.Proofs
end

section
/-! PROOFS. Servo lock and its loss, and the end of a safe stop (01 R14, 13 R342-R346; O47). -/

namespace Sys2Proof.Proofs

open Sys2Proof.Machine Sys2Proof.Safety Sys2Proof.Laws

variable {s t : State}

/-! ### Servo lock and loss -/

theorem servoFrameDetected_runs (fast : Bool) (hs : s.sys.synth = true) (hp : s.sys.phase ≠ .off) :
    exec (.servoFrameDetected fast) s = .next (if !fast then { s with mon := { s.mon with frames := 0 } }
      else { s with
        mon := { s.mon with frames := s.mon.frames + 1, lock := s.mon.lock || decide (16 ≤ s.mon.frames + 1) }
        sys := { s.sys with synth := decide (s.mon.frames + 1 ≤ 16) } }) := by
  refine congrArg Host.Outcome.next (if_neg ?_)
  rw [hs]
  simpa using hp

theorem servoLoss_ends (at_ : Nat) (h : s.mon.lock = true) :
    ∃ t, exec (.servoLoss at_) s = .next t ∧ t.mon.lock = false ∧ t.mon.inhibit = true ∧ t.mon.inhSrc.getLsbD 0 = true
      ∧ t.sys.synth = true ∧ t.mon.lossAt = some (max s.aon.time at_) ∧ (s.mon.inhibit = false → .inhibit ∈ t.out)
      ∧ t.fmt = s.fmt ∧ t.jrn = s.jrn ∧ t.mem = s.mem ∧ t.drv = s.drv := by
  let lost : State := { atTime at_ s with
    mon := { s.mon with lock := false, frames := 0, lossAt := some (max s.aon.time at_), goodTicks := 0 }
    sys := { s.sys with synth := true } }
  have runs : exec (.servoLoss at_) s = .next (inhibitOn 0 lost) := by
    refine congrArg Host.Outcome.next (if_neg ?_)
    change ¬(!s.mon.lock) = true
    rw [h]
    decide
  obtain ⟨u, ⟨l, o, rfl, -⟩, events, sent⟩ := inhibitOn_shape 0 lost
  have mon := inhibitOn_mon 0 lost
  refine ⟨_, runs, by rw [mon], by rw [mon], ?_, (congrArg Sys.synth events.sys :), by rw [mon], fun hi => ?_, (device_fmt events.device :),
    events.jrn, events.mem, (device_drv events.device :)⟩
  · rw [mon]
    simp
  · exact events.out_prefix.subset (sent hi)

theorem writeGate_course (on : Bool) (s : State) : (writeGate on s).course = s.course := by
  unfold writeGate sendControl sendFrame
  split <;> rfl

theorem course_run (h : t.course = s.course) : t.fmt.run.isSome = s.fmt.run.isSome ∧ t.sys.step = s.sys.step :=
  ⟨congrArg (·.1) h, congrArg (·.2.1) h⟩

/-- A run that is interrupted ends, and the step is that of no run. -/
theorem finishRun_ends (p : Nat) (s : State) : (finishRun p s).fmt.run = none ∧ (finishRun p s).sys.step = 0x1F := by
  have after : ∀ u : State, (afterWrites (writeGate false u)).course = u.course := fun u => by rw [afterWrites_course, writeGate_course]
  unfold finishRun
  dsimp only
  refine ⟨Option.not_isSome_iff_eq_none.1 ?_, ?_⟩
  · rw [(course_run (after _)).1]
    exact Bool.false_ne_true
  · exact (course_run (after _)).2

theorem interruptRun_ends (h : s.fmt.run.isSome = true) : (interruptRun s).fmt.run = none ∧ (interruptRun s).sys.step = 0x1F := by
  obtain ⟨r, hr⟩ := Option.isSome_iff_exists.1 h
  have finishes : ∃ u, interruptRun s = finishRun r.partition u := by
    unfold interruptRun
    rw [hr]
    exact ⟨_, rfl⟩
  obtain ⟨u, hu⟩ := finishes
  rw [hu]
  exact finishRun_ends ..

/-- The loss has lasted 200 ms: the run that is in progress ends. -/
theorem servoLossTimeout_runs (sfn at_ : Nat) {x : Nat} (hx : s.mon.lossAt = some x) (hl : s.mon.lock = false)
    (hp : passedMs x (max s.aon.time at_) 200 = true) :
    exec (.servoLossTimeout sfn at_) s = .next (
      if s.fmt.run.isNone then { atTime at_ s with mon := { s.mon with lossAt := none } }
      else if (s.mon.lossSfn.any fun q => decide (absDiff q sfn ≤ fiveDatasets)) then
        lastingServoLoss (interruptRun { atTime at_ s with mon := { s.mon with lossAt := none, sfn := sfn, lossSfn := some sfn } })
      else interruptRun { atTime at_ s with mon := { s.mon with lossAt := none, sfn := sfn, lossSfn := some sfn } }) := by
  have lossAt : (atTime at_ s).mon.lossAt = some x := hx
  have due : ¬((atTime at_ s).mon.lock || !passedMs x (atTime at_ s).aon.time 200) = true := by
    change ¬(s.mon.lock || !passedMs x (max s.aon.time at_) 200) = true
    rw [hl, hp]
    decide
  change execServoLossTimeout sfn at_ s = _
  rw [execServoLossTimeout]
  dsimp only
  rw [lossAt]
  dsimp only
  rw [if_neg due]
  change Host.Outcome.next (if s.fmt.run.isNone then _ else if _ then _ else _) = _
  cases hq : s.mon.lossSfn with
  | none =>
    have old : (atTime at_ s).mon.lossSfn = none := hq
    rw [old]
    rfl
  | some q =>
    have old : (atTime at_ s).mon.lossSfn = some q := hq
    rw [old]
    rfl

theorem servoLossTimeout_ends (sfn at_ : Nat) {x : Nat} (hx : s.mon.lossAt = some x) (hl : s.mon.lock = false)
    (hp : passedMs x (max s.aon.time at_) 200 = true) (hr : s.fmt.run.isSome = true) :
    ∃ t, exec (.servoLossTimeout sfn at_) s = .next t ∧ t.fmt.run = none ∧ t.mon.lossAt = none ∧ t.mon.lossSfn = some sfn
      ∧ t.sys.step = 0x1F ∧ t.whd = s.whd := by
  let lost : State := { atTime at_ s with mon := { s.mon with lossAt := none, sfn := sfn, lossSfn := some sfn } }
  obtain ⟨run, step⟩ := interruptRun_ends (s := lost) hr
  have gear := interruptRun_gear lost
  have running : ¬ s.fmt.run.isNone = true := by
    cases hn : s.fmt.run with
    | none => rw [hn] at hr; cases hr
    | some r => exact Bool.false_ne_true
  have runs := servoLossTimeout_runs sfn at_ hx hl hp
  rw [if_neg running] at runs
  refine ⟨_, runs, ?_⟩
  split
  · have after := lastingServoLoss_gear (interruptRun lost)
    obtain ⟨run', step'⟩ := course_run (lastingServoLoss_course (interruptRun lost))
    have none_left : (lastingServoLoss (interruptRun lost)).fmt.run = none := by
      rw [run] at run'
      exact Option.not_isSome_iff_eq_none.1 (by rw [run']; exact Bool.false_ne_true)
    have mon : (lastingServoLoss (interruptRun lost)).mon = lost.mon := gear_mon (after.trans gear)
    exact ⟨none_left, congrArg Mon.lossAt mon, congrArg Mon.lossSfn mon, step'.trans step, (gear_whd (after.trans gear) :)⟩
  · have mon : (interruptRun lost).mon = lost.mon := gear_mon gear
    exact ⟨run, congrArg Mon.lossAt mon, congrArg Mon.lossSfn mon, step, (gear_whd gear :)⟩

/-! ### The end of a safe stop -/

theorem stopReached_iff : stopReached s = true ↔ s.mon.openLoop = true ∨ ∃ x, s.mon.slowFrom = some x ∧ passedMs x s.aon.time 100 = true := by
  unfold stopReached
  cases s.mon.slowFrom <;> simp

/-- The DIAG commands that end change the journal and its rings alone. -/
theorem endDiagStops_device (s : State) : (endDiagStops s).device = s.device := by
  unfold endDiagStops
  refine List.foldlRecOn (motive := fun t : State => t.device = s.device) _ _ rfl fun t h e _ => ?_
  split
  · split
    · exact (endBare_device ..).trans h
    · exact h
  · exact h

/-- The stop is over and the retry due. -/
def stopOver (s : State) : State := { s with drv := { s.drv with safeStop := false }, mon := { s.mon with stopped := true } }

theorem safeStopEnd_ends (at_ : Nat) (hs : s.drv.safeStop = true) (hp : s.sys.phase = .running)
    (hr : s.mon.openLoop = true ∨ ∃ x, s.mon.slowFrom = some x ∧ passedMs x (max s.aon.time at_) 100 = true) :
    ∃ t, exec (.safeStopEnd at_) s = .next t ∧ t.drv.safeStop = false ∧ t.mon.stopped = true ∧ t.drv.loops = s.drv.loops
      ∧ t.mon.inhibit = s.mon.inhibit ∧ t.mem = s.mem ∧ t.fmt = s.fmt ∧ t.whd = s.whd := by
  let u := stopOver (atTime at_ s)
  let v := if unitState unTransport u = 0 then setUnit unTransport 1 0 u else u
  have reached : stopReached (atTime at_ s) = true := stopReached_iff.2 hr
  have runs : exec (.safeStopEnd at_) s = .next (endDiagStops (raiseN evDrvSafeStopDone v)) := by
    refine congrArg Host.Outcome.next (if_neg ?_)
    rw [reached]
    change ¬(!s.drv.safeStop || s.sys.phase != .running || !true) = true
    rw [hs, hp]
    decide
  have marked : v.drv = u.drv ∧ v.mon = u.mon ∧ v.mem = u.mem ∧ v.fmt = u.fmt ∧ v.whd = u.whd := by
    dsimp only [v]
    split
    · have unit := setUnit_onlyEvents unTransport 1 0 u
      exact ⟨(device_drv unit.device :), (device_mon unit.device :), unit.mem, (device_fmt unit.device :), (device_whd unit.device :)⟩
    · exact ⟨rfl, rfl, rfl, rfl, rfl⟩
  have device : (endDiagStops (raiseN evDrvSafeStopDone v)).device = v.device :=
    (endDiagStops_device _).trans (raiseN_onlyEvents evDrvSafeStopDone v).device
  obtain ⟨drv, mon, mem, fmt, whd⟩ := marked
  have drv' := (device_drv device).trans drv
  have mon' := (device_mon device).trans mon
  exact ⟨_, runs, congrArg Drv.safeStop drv', congrArg Mon.stopped mon', (congrArg Drv.loops drv' :), (congrArg Mon.inhibit mon' :),
    (device_mem device).trans mem, (device_fmt device).trans fmt, (device_whd device).trans whd⟩

theorem safeStopEnd_waits (at_ : Nat) (h : s.drv.safeStop = false ∨ s.sys.phase ≠ .running
    ∨ (s.mon.openLoop = false ∧ ∀ x, s.mon.slowFrom = some x → passedMs x (max s.aon.time at_) 100 = false)) :
    exec (.safeStopEnd at_) s = .next (atTime at_ s) := by
  refine congrArg Host.Outcome.next (if_pos ?_)
  change (!s.drv.safeStop || s.sys.phase != .running || !stopReached (atTime at_ s)) = true
  rcases h with h | h | ⟨ho, hx⟩
  · rw [h]; rfl
  · simp [h]
  · have unreached : stopReached (atTime at_ s) = false := by
      refine Bool.eq_false_of_not_eq_true fun hr => ?_
      obtain hr | ⟨x, hs, hp⟩ := stopReached_iff.1 hr
      · exact Bool.false_ne_true (ho.symm.trans hr)
      · exact Bool.false_ne_true ((hx x hs).symm.trans hp)
    rw [unreached, Bool.not_false, Bool.or_true]

/-! ### The retry -/

theorem setUnit_gear (u st cause : Nat) (s : State) : (setUnit u st cause s).gear = s.gear := (setUnit_onlyEvents u st cause s).gear

theorem modUnit_gear (u : Nat) (f : SysUnit → SysUnit) (s : State) : (modUnit u f s).gear = s.gear := rfl

theorem addTransient_gear (u : Nat) (s : State) : (addTransient u s).gear = s.gear := modUnit_gear ..

theorem markWaiters_device (s : State) : (markWaiters s).device = s.device := by
  unfold markWaiters
  refine List.foldlRecOn (motive := fun t : State => t.device = s.device) _ _ rfl fun t h e _ => ?_
  split
  · split
    · exact h
    · exact h
  · exact h

theorem retrySensor_drv (failed : List Nat) (both : Bool) (s : State) (n : Nat) : (retrySensor failed both s n).drv = s.drv := by
  unfold retrySensor
  dsimp only
  split
  · split
    · rw [sensorLasts, gear_drv (raiseP_gear ..), gear_drv (setUnit_gear ..)]
      rfl
    · unfold sensorPass
      dsimp only
      split
      · rw [gear_drv (setUnit_gear ..)]
        rfl
      · rfl
  · rfl

/-- The units of a retry: the transport is back in service, and a retry that failed nowhere was of a transient fault. -/
def unitsRetried (failed : List Nat) (s : State) : State :=
  let s := if unitState unTransport s = 1 then setUnit unTransport 0 0 s else s
  if failed.isEmpty then addTransient unTransport s else s

theorem unitsRetried_leaves (failed : List Nat) (s : State) :
    (unitsRetried failed s).gear = s.gear ∧ (unitsRetried failed s).helm = s.helm ∧ (unitsRetried failed s).aon = s.aon
      ∧ (unitsRetried failed s).mem = s.mem := by
  unfold unitsRetried
  dsimp only
  split_ifs
  · exact ⟨by rw [addTransient_gear, setUnit_gear], by rw [addTransient_helm, setUnit_helm], by rw [addTransient_aon, setUnit_aon],
      by rw [addTransient_mem, setUnit_mem]⟩
  · exact ⟨addTransient_gear .., addTransient_helm .., addTransient_aon .., addTransient_mem ..⟩
  · exact ⟨setUnit_gear .., setUnit_helm .., setUnit_aon .., setUnit_mem ..⟩
  · exact ⟨rfl, rfl, rfl, rfl⟩

/-- The retry but for the sensors that fail in it. -/
def retryDone (failed : List Nat) (s : State) : State :=
  let s := (List.range 3).foldl (retrySensor failed (failed.contains 0 && failed.contains 1)) (markWaiters (restoreLoops s))
  let s := unitsRetried failed s
  { s with mon := { s.mon with stopped := false, safeCause := 0, openLoop := false } }

theorem safeStopRetry_runs (failed : List Nat) (at_ : Nat) (hs : s.mon.stopped = true) (hp : s.sys.phase = .running) :
    exec (.safeStopRetry failed at_) s = .next (((List.range 3).filter fun n => sensorState n s == 0).foldl
      (fun s n => if failed.contains n then sensorFail n s else s) (retryDone failed (atTime at_ s))) := by
  refine congrArg Host.Outcome.next (if_neg ?_)
  change ¬(!s.mon.stopped || s.sys.phase != .running) = true
  rw [hs, hp]
  decide

theorem retryDone_leaves (failed : List Nat) (s : State) :
    (retryDone failed s).drv = (restoreLoops s).drv ∧ (retryDone failed s).whd = s.whd ∧ (retryDone failed s).fmt = s.fmt
      ∧ (retryDone failed s).mem = s.mem ∧ (retryDone failed s).aon = s.aon := by
  let u := markWaiters (restoreLoops s)
  let v := (List.range 3).foldl (retrySensor failed (failed.contains 0 && failed.contains 1)) u
  obtain ⟨gear, helm, aon, mem⟩ := unitsRetried_leaves failed v
  have waiters := markWaiters_device (restoreLoops s)
  have drv : v.drv = u.drv :=
    List.foldlRecOn (motive := fun t : State => t.drv = u.drv) _ _ rfl fun t h n _ => (retrySensor_drv _ _ t n).trans h
  have helm' : v.helm = u.helm := foldl_helm (fun s n => retrySensor_helm _ _ s n) _ u
  have restored := restoreLoops_helm s
  simp only [State.helm, Prod.mk.injEq] at helm helm' restored
  obtain ⟨-, fmt, whd, -, -⟩ := helm
  obtain ⟨-, fmt', whd', -, -⟩ := helm'
  obtain ⟨-, fmt'', whd'', -, -⟩ := restored
  have aon' : v.aon = u.aon := foldl_aon (fun s n => retrySensor_aon _ _ s n) _ u
  have mem' : v.mem = u.mem := foldl_mem (fun s n => retrySensor_mem _ _ s n) _ u
  exact ⟨(gear_drv gear).trans (drv.trans (device_drv waiters)), whd.trans (whd'.trans ((device_whd waiters).trans whd'')),
    fmt.trans (fmt'.trans ((device_fmt waiters).trans fmt'')), mem.trans (mem'.trans ((device_mem waiters).trans (restoreLoops_mem s))),
    aon.trans (aon'.trans ((device_aon waiters).trans (restoreLoops_aon s)))⟩

/-- Loop 0 with its limits and AUTO again. -/
def loopRestored (l : Loop) : Loop := { l with cfg := { l.cfg with amax := (8000, 0), jmax := (320000, 0) }, modeReq := 2 }

theorem restoreLoops_drv (s : State) :
    (restoreLoops s).drv.safeStop = s.drv.safeStop ∧ (restoreLoops s).drv.loops[0]? = (s.drv.loops[0]?).map loopRestored := by
  unfold restoreLoops
  dsimp only
  refine List.foldlRecOn (motive := fun t : State => t.drv.safeStop = s.drv.safeStop ∧ t.drv.loops[0]? = (s.drv.loops[0]?).map loopRestored)
    _ _ ⟨rfl, ?_⟩ fun t h i _ => ?_
  · exact List.getElem?_modify_eq ..
  · split
    · refine ⟨h.1, Eq.trans ?_ h.2⟩
      change (t.drv.loops.modify (2 + i) _)[0]? = _
      simp
    · exact h

/-- A sensor's failure is of no other stop than the one that may begin. -/
theorem sensorFail_stopped (n : Nat) (s : State) : (sensorFail n s).mon.stopped = s.mon.stopped := by
  have begins : ∀ c (u : State), (beginStop c u).mon.stopped = u.mon.stopped := by
    intro c u
    change (stopCurrents (stopLoop _ (inhibitOn 3 u))).mon.stopped = u.mon.stopped
    rw [stopCurrents_mon, stopLoop_mon, inhibitOn_mon]
  have recurs : ∀ c (u : State), (recurringStop c u).mon.stopped = u.mon.stopped := by
    intro c u
    have marked : ∀ (b : Bool) (x : State), (if b then setUnit unDrover 2 0 x else x).mon.stopped = x.mon.stopped := by
      intro b x
      split
      · exact congrArg Mon.stopped (gear_mon (setUnit_gear ..))
      · rfl
    rw [recurringStop]
    split
    · rfl
    · exact marked _ _
  unfold sensorFail
  split
  · rfl
  · dsimp only
    split
    · unfold safeStop
      split
      · rw [gear_mon (setUnit_gear ..), gear_mon (raiseP_gear ..)]
        rfl
      · rw [recurs, gear_mon (raise_gear ..), begins, gear_mon (setUnit_gear ..), gear_mon (raiseP_gear ..)]
        rfl
    · rw [gear_mon (raiseP_gear ..)]
      rfl

/-- Settles O47: servo lock, its loss, the end of a safe stop and its retry. -/
theorem servoLockLossAndSafeStop : Obligations.ServoLockLossAndSafeStop := by
  refine ⟨⟨fun s hs hp => servoFrameDetected_runs true hs hp, fun s hs hp => servoFrameDetected_runs false hs hp, fun fast s hs => ?_,
    fun at_ s h => servoLoss_ends at_ h, fun at_ s h => ?_, fun sfn at_ s x hx hl hp hr => ?_,
    fun sfn at_ s x hx hl hp hr => servoLossTimeout_ends sfn at_ hx hl hp hr⟩,
    fun at_ s hs hp hr => safeStopEnd_ends at_ hs hp hr, fun at_ s h => safeStopEnd_waits at_ h, fun at_ s hs hp => ?_,
    fun failed at_ s hs hp => ?_, fun failed at_ s hs => ?_⟩
  · exact congrArg Host.Outcome.next (if_pos (by rw [hs]; rfl))
  · refine congrArg Host.Outcome.next (if_pos ?_)
    change (!s.mon.lock) = true
    rw [h]
    rfl
  · refine ⟨_, (servoLossTimeout_runs sfn at_ hx hl hp).trans (congrArg Host.Outcome.next (if_pos (by rw [hr]; rfl))), rfl, rfl, rfl⟩
  · obtain ⟨drv, whd, fmt, mem, -⟩ := retryDone_leaves [] (atTime at_ s)
    obtain ⟨safe, loop⟩ := restoreLoops_drv (atTime at_ s)
    have none_fail : ∀ l : List Nat, ∀ u : State, l.foldl (fun s n => if ([] : List Nat).contains n then sensorFail n s else s) u = u :=
      fun l u => List.foldl_fixed l
    have runs := safeStopRetry_runs [] at_ hs hp
    rw [none_fail] at runs
    exact ⟨_, runs, rfl, rfl, rfl, (congrArg Drv.safeStop drv).trans safe, (congrArg (fun d : Drv => d.loops[0]?) drv).trans loop, mem, fmt, whd⟩
  · obtain ⟨-, whd, -, -, aon⟩ := retryDone_leaves failed (atTime at_ s)
    have fails : ∀ (u : State) n, (if failed.contains n then sensorFail n u else u).helm = u.helm
        ∧ (if failed.contains n then sensorFail n u else u).aon = u.aon
        ∧ (if failed.contains n then sensorFail n u else u).mon.stopped = u.mon.stopped := by
      intro u n
      split
      · exact ⟨sensorFail_helm .., sensorFail_aon .., sensorFail_stopped ..⟩
      · exact ⟨rfl, rfl, rfl⟩
    let l := (List.range 3).filter fun n => sensorState n s == 0
    have helm' := foldl_helm (fun u n => (fails u n).1) l (retryDone failed (atTime at_ s))
    have aon' := foldl_aon (fun u n => (fails u n).2.1) l (retryDone failed (atTime at_ s))
    refine ⟨_, safeStopRetry_runs failed at_ hs hp, ?_, ?_, ?_⟩
    · exact List.foldlRecOn (motive := fun t : State => t.mon.stopped = false) l _ rfl fun t h n _ => (fails t n).2.2.trans h
    · exact (congrArg Aon.time aon').trans (congrArg Aon.time aon)
    · exact (congrArg (fun h => h.2.2.1) helm').trans whd
  · refine congrArg Host.Outcome.next (if_pos ?_)
    change (!s.mon.stopped || s.sys.phase != .running) = true
    rw [hs]
    rfl

end Sys2Proof.Proofs
end

section
/-! PROOFS. The Drover's registers, the eager loops and the DAC (12 R308-R317, R331; O48). -/

namespace Sys2Proof.Proofs

open Sys2Proof.Machine Sys2Proof.Safety Sys2Proof.Laws

variable {s t : State}

/-! ### What the work of one loop reaches -/

/-- From s to t loop k has run: no other loop than those of a safe stop has changed, and whether the measurements were posted stands. -/
def OnlyLoop (k : Nat) (s t : State) : Prop :=
  (∀ n, n ≠ k → n ≠ 0 → n ≠ 2 → n ≠ 3 → t.drv.loops[n]? = s.drv.loops[n]?) ∧ t.drv.posted = s.drv.posted

namespace OnlyLoop

variable {k : Nat}

theorem refl (k : Nat) (s : State) : OnlyLoop k s s := ⟨fun _ _ _ _ _ => rfl, rfl⟩

theorem trans {u : State} (h : OnlyLoop k s t) (h' : OnlyLoop k t u) : OnlyLoop k s u :=
  ⟨fun n hk h0 h2 h3 => (h'.1 n hk h0 h2 h3).trans (h.1 n hk h0 h2 h3), h'.2.trans h.2⟩

theorem of_drv (h : t.drv = s.drv) : OnlyLoop k s t := ⟨fun _ _ _ _ _ => by rw [h], by rw [h]⟩

theorem of_onlyEvents (h : OnlyEvents s t) : OnlyLoop k s t := .of_drv (device_drv h.device)

end OnlyLoop

theorem setLoop_loops (k : Nat) (f : Loop → Loop) (s : State) (n : Nat) (h : n ≠ k) : (setLoop k f s).drv.loops[n]? = s.drv.loops[n]? := by
  change (s.drv.loops.modify k f)[n]? = _
  simp [Ne.symm h]

theorem setLoop_onlyLoop (k : Nat) (f : Loop → Loop) (s : State) : OnlyLoop k s (setLoop k f s) :=
  ⟨fun n hk _ _ _ => setLoop_loops k f s n hk, rfl⟩

theorem inhibitOn_drv (src : Nat) (s : State) : (inhibitOn src s).drv = s.drv := by
  obtain ⟨u, ⟨l, o, rfl, -⟩, events, -⟩ := inhibitOn_shape src s
  exact (device_drv events.device :)

theorem stopLoop_onlyLoop (k : Nat) (o : Bool) (s : State) : OnlyLoop k s (stopLoop o s) := by
  unfold stopLoop
  split
  · exact ⟨fun n _ h0 _ _ => setLoop_loops 0 _ (drawFree s) n h0, rfl⟩
  · exact ⟨fun n _ h0 _ _ => setLoop_loops 0 _ s n h0, rfl⟩

theorem stopCurrents_onlyLoop (k : Nat) (s : State) : OnlyLoop k s (stopCurrents s) := by
  unfold stopCurrents
  refine List.foldlRecOn (motive := fun t : State => OnlyLoop k s t) _ _ (.refl k s) fun t h i hi => ?_
  split
  · have small : i < 2 := List.mem_range.1 hi
    exact h.trans ⟨fun n _ _ h2 h3 => setLoop_loops (2 + i) _ t n (by omega), rfl⟩
  · exact h

theorem safeStop_onlyLoop (k loop cause : Nat) (s : State) : OnlyLoop k s (safeStop loop cause s) := by
  have begins : OnlyLoop k s (beginStop cause s) :=
    (OnlyLoop.of_drv (inhibitOn_drv 3 s)).trans ((stopLoop_onlyLoop k _ _).trans (stopCurrents_onlyLoop k _))
  have recurs : ∀ u : State, (recurringStop cause u).drv = u.drv := by
    have marked : ∀ (b : Bool) (x : State), (if b then setUnit unDrover 2 0 x else x).drv = x.drv := by
      intro b x
      split
      · exact gear_drv (setUnit_gear ..)
      · rfl
    intro u
    rw [recurringStop]
    split
    · rfl
    · exact marked _ _
  unfold safeStop
  split
  · exact .refl k s
  · exact begins.trans ((OnlyLoop.of_onlyEvents (raise_onlyEvents ..)).trans (.of_drv (recurs _)))

theorem feTrip_onlyLoop (k : Nat) (e : Int) (s : State) : OnlyLoop k s (feTrip k e s) := by
  have counted : ∀ (u : State) c, OnlyLoop k u { u with drv := { u.drv with feTrips := c } } := fun _ _ => ⟨fun _ _ _ _ _ => rfl, rfl⟩
  unfold feTrip
  dsimp only
  split_ifs
  · refine OnlyLoop.trans ?_ (.of_drv (inhibitOn_drv ..))
    exact (setLoop_onlyLoop ..).trans ((counted _ _).trans (.of_onlyEvents (raise_onlyEvents ..)))
  · refine OnlyLoop.trans ?_ (safeStop_onlyLoop ..)
    exact (setLoop_onlyLoop ..).trans ((counted _ _).trans (.of_onlyEvents (raise_onlyEvents ..)))
  · exact (setLoop_onlyLoop ..).trans ((counted _ _).trans (.of_onlyEvents (raise_onlyEvents ..)))

theorem feCheck_onlyLoop (k : Nat) (e : Int) (s : State) : OnlyLoop k s (feCheck k e s) := by
  have trips : ∀ (b : Bool) (u : State), OnlyLoop k u (if b then feTrip k e u else u) := by
    intro b u
    split
    · exact feTrip_onlyLoop k e u
    · exact .refl k u
  rw [feCheck]
  split
  · exact .refl k s
  · exact (setLoop_onlyLoop k _ s).trans (trips _ _)

theorem addBusy_onlyLoop (k n : Nat) (s : State) : OnlyLoop k s (addBusy n s) := ⟨fun _ _ _ _ _ => rfl, rfl⟩

theorem missingLoop_onlyLoop (k src : Nat) (s : State) : OnlyLoop k s (missingLoop k src s) := by
  have counted : ∀ (u : State) c, OnlyLoop k u { u with drv := { u.drv with missingCnt := c } } := fun _ _ => ⟨fun _ _ _ _ _ => rfl, rfl⟩
  unfold missingLoop
  dsimp only
  refine OnlyLoop.trans ?_ ((counted _ _).trans (.of_onlyEvents (raise_onlyEvents ..)))
  split
  · exact setLoop_onlyLoop ..
  · exact (setLoop_onlyLoop ..).trans (setLoop_onlyLoop ..)

theorem satEvents_onlyLoop (k : Nat) (sats : List Nat) (s : State) : OnlyLoop k s (satEvents k sats s) := by
  have counted : ∀ c, OnlyLoop k s { s with drv := { s.drv with sats := c } } := fun _ => ⟨fun _ _ _ _ _ => rfl, rfl⟩
  unfold satEvents
  split
  · exact .refl k s
  · exact (counted _).trans (.of_onlyEvents (raise_onlyEvents ..))

theorem deliver_onlyLoop (k : Nat) (s : State) : OnlyLoop k s (deliver k s) := by
  unfold deliver
  dsimp only
  split_ifs
  · exact ⟨fun _ _ _ _ _ => rfl, rfl⟩
  · exact setLoop_onlyLoop ..
  · exact setLoop_onlyLoop ..

/-- The sections of a loop in AUTO, or the output of one in MANUAL. -/
def loopOutput (k : Nat) (m : Int) (msat : Bool) (s : State) : State :=
  if (getLoop k s).mode = 2 then
    let s := if (getLoop k s).presetDue then addBusy (60 * (getLoop k s).cfg.nsec) (setLoop k (presetLoop m) s) else s
    satEvents k (autoStep m msat (getLoop k s)).2 (setLoop k (fun _ => (autoStep m msat (getLoop k s)).1) s)
  else setLoop k (manualStep msat) s

theorem loopOutput_onlyLoop (k : Nat) (m : Int) (msat : Bool) (s : State) : OnlyLoop k s (loopOutput k m msat s) := by
  unfold loopOutput
  split
  · dsimp only
    refine OnlyLoop.trans ?_ ((setLoop_onlyLoop ..).trans (satEvents_onlyLoop ..))
    split
    · exact (setLoop_onlyLoop ..).trans (addBusy_onlyLoop ..)
    · exact .refl k s
  · exact setLoop_onlyLoop ..

/-- A loop with its input, before its checks. -/
def loopInput (k : Nat) (e fb : Int) (s : State) : State :=
  setLoop k (fun x => { x with
    missing := false, fbLast := fb, err24 := e, before := x.sections, codeBefore := x.code }) s

theorem computeLoop_eq (k : Nat) (e fb : Int) (s : State) :
    computeLoop k e fb s = deliver k (loopOutput k (sat24 (errorMantissa e (getLoop k s).cfg.inExp))
      (decide (errorMantissa e (getLoop k s).cfg.inExp ≠ sat24 (errorMantissa e (getLoop k s).cfg.inExp)))
      (addBusy (48 + if (getLoop k s).mode = 2 then 14 * (getLoop k s).cfg.nsec else 0) (feCheck k e (loopInput k e fb s)))) := rfl

theorem runLoop_onlyLoop (inp : List (Nat × Int)) (k : Nat) (s : State) : OnlyLoop k s (runLoop inp k s) := by
  unfold runLoop
  split
  · exact .refl k s
  · split
    · exact missingLoop_onlyLoop ..
    · rw [computeLoop_eq]
      exact (setLoop_onlyLoop ..).trans ((feCheck_onlyLoop ..).trans ((addBusy_onlyLoop ..).trans
        ((loopOutput_onlyLoop ..).trans (deliver_onlyLoop ..))))

theorem postLoop_onlyLoop (m : List (Nat × Int)) (k : Nat) (s : State) : OnlyLoop k s (postLoop m k s) := by
  unfold postLoop
  dsimp only
  split_ifs
  · exact .refl k s
  · exact ⟨fun _ _ _ _ _ => rfl, rfl⟩
  · exact runLoop_onlyLoop ..

/-- A loop that is not eager, or is off, does not take a post. -/
theorem postLoop_idle {k : Nat} (m : List (Nat × Int)) (h : (getLoop k s).cfg.eager = false ∨ (getLoop k s).mode = 0) : postLoop m k s = s := by
  unfold postLoop
  dsimp only
  exact if_pos (by rcases h with h | h <;> simp [h])

/-! ### A post of measurements -/

theorem getLoop_of_some {n : Nat} {l : Loop} (h : s.drv.loops[n]? = some l) : getLoop n s = l := by
  rw [getLoop, List.getD_eq_getElem?_getD, h, Option.getD_some]

theorem setLoop_same {n : Nat} {l : Loop} (f : Loop → Loop) (h : s.drv.loops[n]? = some l) : (setLoop n f s).drv.loops[n]? = some (f l) := by
  change (s.drv.loops.modify n f)[n]? = _
  simp [h]

/-- Posts to some of the loops leave every loop that is not eager and no safe stop moves. -/
theorem posts_loops (m : List (Nat × Int)) (work : List Nat) (s : State) :
    (work.foldl (fun s n => postLoop m n s) s).drv.posted = s.drv.posted
      ∧ ∀ n l, s.drv.loops[n]? = some l → l.cfg.eager = false → n ≠ 0 → n ≠ 2 → n ≠ 3 →
        (work.foldl (fun s n => postLoop m n s) s).drv.loops[n]? = some l := by
  induction work generalizing s with
  | nil => exact ⟨rfl, fun _ _ h _ _ _ _ => h⟩
  | cons k work ih =>
    obtain ⟨posted, stay⟩ := ih (postLoop m k s)
    obtain ⟨others, posted'⟩ := postLoop_onlyLoop m k s
    refine ⟨posted.trans posted', fun n l hl he h0 h2 h3 => stay n l ?_ he h0 h2 h3⟩
    by_cases hk : n = k
    · subst hk
      rw [postLoop_idle m (.inl (by rw [getLoop_of_some hl]; exact he))]
      exact hl
    · exact (others n hk h0 h2 h3).trans hl

/-- A state whose Drover has taken the posted measurements. -/
def postTaken (s : State) : State := { s with drv := { s.drv with posted := true } }

theorem postAll_eq (m : List (Nat × Int)) (s : State) : postAll m s = (List.range 32).foldl (fun s n => postLoop m n s) (postTaken s) := rfl

theorem checkOfftrack_drv (s : State) : (checkOfftrack s).drv = s.drv := by
  have counted : ∀ (u : State) x, ({ u with mon := x } : State).drv = u.drv := fun _ _ => rfl
  unfold checkOfftrack
  dsimp only
  split
  · rfl
  · rw [counted]
    split
    · exact inhibitOn_drv ..
    · rfl

theorem stopRunIfStopped_aon (was : Bool) (s : State) : (stopRunIfStopped was s).aon = s.aon := by
  unfold stopRunIfStopped
  split
  · dsimp only
    split
    · rw [loseTape_aon, interruptRun_aon]
    · exact interruptRun_aon s
  · rfl

theorem stopRunIfStopped_same {was : Bool} (h : s.drv.safeStop = was) : stopRunIfStopped was s = s :=
  if_neg (by rw [h]; cases was <;> decide)

theorem servoMeasurementPost_runs (m : List (Nat × Int)) (c : Nat) (h : s.sys.phase ≠ .off) :
    exec (.servoMeasurementPost m c) s
      = .next (stopRunIfStopped s.drv.safeStop (checkOfftrack (postAll (postedSources m s) s))) := by
  change execServoMeasurementPost m c s = _
  rw [execServoMeasurementPost, if_neg h]

/-- What follows the loops of a post leaves the Drover, the time and the ticks. -/
theorem stopRunIfStopped_post (was : Bool) (s : State) :
    (stopRunIfStopped was (checkOfftrack s)).drv = s.drv ∧ (stopRunIfStopped was (checkOfftrack s)).aon = s.aon
      ∧ (stopRunIfStopped was (checkOfftrack s)).whd = s.whd
      ∧ (stopRunIfStopped was (checkOfftrack s)).sys.tickCount = s.sys.tickCount := by
  obtain ⟨⟨count, -⟩, -, -, whd⟩ := pulse_parts (stopRunIfStopped_pulse was (checkOfftrack s))
  have helm := checkOfftrack_helm s
  simp only [State.helm, Prod.mk.injEq] at helm
  obtain ⟨-, -, whd', -, count'⟩ := helm
  exact ⟨(gear_drv (stopRunIfStopped_gear ..)).trans (checkOfftrack_drv s), (stopRunIfStopped_aon ..).trans (checkOfftrack_aon s),
    whd.trans whd', count.trans count'⟩

theorem postAll_stays (m : List (Nat × Int)) (s : State) :
    (postAll m s).aon = s.aon ∧ (postAll m s).whd = s.whd ∧ (postAll m s).sys.tickCount = s.sys.tickCount := by
  have helm := postAll_helm m s
  simp only [State.helm, Prod.mk.injEq] at helm
  obtain ⟨-, -, whd, -, count⟩ := helm
  exact ⟨postAll_aon m s, whd, count⟩

theorem servoMeasurementPost_ends (m : List (Nat × Int)) (c : Nat) (h : s.sys.phase ≠ .off) :
    ∃ t, exec (.servoMeasurementPost m c) s = .next t ∧ t.drv.posted = true ∧ t.sys.tickCount = s.sys.tickCount
      ∧ (∀ n l, s.drv.loops[n]? = some l → l.cfg.eager = false → n ≠ 0 → n ≠ 2 → n ≠ 3 → t.drv.loops[n]? = some l)
      ∧ t.whd = s.whd ∧ t.aon = s.aon := by
  obtain ⟨drv, aon, whd, count⟩ := stopRunIfStopped_post s.drv.safeStop (postAll (postedSources m s) s)
  obtain ⟨aon', whd', count'⟩ := postAll_stays (postedSources m s) s
  obtain ⟨posted, loops⟩ := posts_loops (postedSources m s) (List.range 32) (postTaken s)
  rw [← postAll_eq] at posted loops
  refine ⟨_, servoMeasurementPost_runs m c h, ?_, count.trans count', ?_, whd.trans whd', aon.trans aon'⟩
  · rw [drv, posted]
    rfl
  · rw [drv]
    exact loops

/-- A work list of which one entry acts. -/
theorem foldl_once {α β : Type} {f : β → α → β} {a : α} {l : List α} {b : β} (hn : l.Nodup) (ha : a ∈ l) (before : ∀ x ∈ l, x ≠ a → f b x = b)
    (after : ∀ x ∈ l, x ≠ a → f (f b a) x = f b a) : l.foldl f b = f b a := by
  induction l with
  | nil => cases ha
  | cons x l ih =>
    obtain ⟨hx, hl⟩ := List.nodup_cons.1 hn
    rw [List.foldl_cons]
    by_cases h : x = a
    · subst h
      refine List.foldlRecOn (motive := fun y => y = f b x) l f rfl fun y hy z hz => ?_
      rw [hy]
      exact after z (List.mem_cons_of_mem _ hz) fun h => hx (h ▸ hz)
    · rw [before x List.mem_cons_self h]
      exact ih hl ((List.mem_cons.1 ha).resolve_left (Ne.symm h)) (fun z hz => before z (List.mem_cons_of_mem _ hz))
        (fun z hz => after z (List.mem_cons_of_mem _ hz))

/-- An eager loop in MANUAL, with no sources and no watch over its error, whose sink is a DAC. -/
structure ManualDac (l : Loop) : Prop where
  eager : l.cfg.eager = true
  mode : l.mode = 1
  fbSrc : l.cfg.fbSrc = 0
  spSrc : l.cfg.spSrc = 0
  feTime : l.cfg.feTime = 0
  sink : l.cfg.sink = 3 ∨ l.cfg.sink = 4

/-- The code of an eager loop of which no other waits goes to the DAC. -/
theorem deliver_dac {n : Nat} {l : Loop} (hl : s.drv.loops[n]? = some l) (eager : l.cfg.eager = true) (sink : l.cfg.sink = 3 ∨ l.cfg.sink = 4)
    (hq : s.drv.dacQueue = []) : deliver n s = { s with drv := { s.drv with dacQueue := [(n, l.code)] } } := by
  unfold deliver
  dsimp only
  rw [getLoop_of_some hl, if_pos eager, if_pos sink, hq]
  rfl

/-- A post to such a loop: its output waits for the DAC. -/
theorem postLoop_manual {n : Nat} {l : Loop} (m : List (Nat × Int)) (hl : s.drv.loops[n]? = some l) (h : ManualDac l) (hq : s.drv.dacQueue = []) :
    ∃ (e : Int) (c : Nat) (b : Bool), postLoop m n s = { setLoop n (manualStep b) (addBusy c (loopInput n e 0 s)) with
      drv := { (setLoop n (manualStep b) (addBusy c (loopInput n e 0 s))).drv with
        dacQueue := [(n, clampI l.cfg.outMin l.cfg.outMax l.manOut)] } } := by
  have loop := getLoop_of_some hl
  have runs : postLoop m n s = runLoop (eagerInputs m s) n s := by
    unfold postLoop
    dsimp only
    rw [loop, h.eager, h.mode, if_neg (by decide), hq, if_neg (by simp)]
  have error : ∃ e, loopError n (eagerInputs m s) s = .inr (e, 0) := by
    unfold loopError
    dsimp only
    rw [loop, h.fbSrc, h.spSrc]
    refine ⟨_, congrArg Sum.inr (congrArg (Prod.mk _) ?_)⟩
    simp
  obtain ⟨e, error⟩ := error
  have input : (loopInput n e 0 s).drv.loops[n]? = some { l with missing := false, fbLast := 0, err24 := e, before := l.sections, codeBefore := l.code } :=
    setLoop_same _ hl
  have checked : feCheck n e (loopInput n e 0 s) = loopInput n e 0 s := by
    rw [feCheck, getLoop_of_some input]
    exact if_pos h.feTime
  have compute : runLoop (eagerInputs m s) n s = computeLoop n e 0 s := by
    rw [runLoop, if_neg (by rw [loop, h.mode]; decide), error]
  refine ⟨e, 48 + if l.mode = 2 then 14 * l.cfg.nsec else 0,
    decide (errorMantissa e l.cfg.inExp ≠ sat24 (errorMantissa e l.cfg.inExp)), ?_⟩
  rw [runs, compute, computeLoop_eq, checked, loop]
  generalize (48 + if l.mode = 2 then 14 * l.cfg.nsec else 0) = c
  generalize decide (errorMantissa e l.cfg.inExp ≠ sat24 (errorMantissa e l.cfg.inExp)) = b
  have busy : (addBusy c (loopInput n e 0 s)).drv.loops[n]?
      = some { l with missing := false, fbLast := 0, err24 := e, before := l.sections, codeBefore := l.code } := input
  have output : loopOutput n (sat24 (errorMantissa e l.cfg.inExp)) b (addBusy c (loopInput n e 0 s))
      = setLoop n (manualStep b) (addBusy c (loopInput n e 0 s)) := by
    rw [loopOutput, getLoop_of_some busy]
    exact if_neg (by rw [h.mode]; decide)
  rw [output]
  exact deliver_dac (setLoop_same (manualStep b) busy) h.eager h.sink hq

/-- A post in which one loop alone acts, an eager one in MANUAL. -/
theorem postAll_manual {n : Nat} {l : Loop} (m : List (Nat × Int)) (hn : n < 32) (hl : s.drv.loops[n]? = some l) (h : ManualDac l)
    (hq : s.drv.dacQueue = []) (idle : ∀ k x, s.drv.loops[k]? = some x → k ≠ n → x.cfg.eager = false ∨ x.mode = 0) :
    (postAll m s).drv.dacQueue = [(n, clampI l.cfg.outMin l.cfg.outMax l.manOut)] ∧ (postAll m s).drv.safeStop = s.drv.safeStop := by
  have idleLoop : ∀ (u : State) k, u.drv.loops[k]? = s.drv.loops[k]? → k ≠ n → postLoop m k u = u := by
    intro u k hu hk
    refine postLoop_idle m ?_
    cases hx : s.drv.loops[k]? with
    | none => exact .inl (by rw [getLoop, List.getD_eq_getElem?_getD, hu, hx]; rfl)
    | some x => rw [getLoop_of_some (hu.trans hx)]; exact idle k x hx hk
  obtain ⟨e, c, b, posted⟩ := postLoop_manual m (s := postTaken s) hl h hq
  have others : ∀ k, k ≠ n → (postLoop m n (postTaken s)).drv.loops[k]? = s.drv.loops[k]? := by
    intro k hk
    rw [posted]
    exact (setLoop_loops n _ _ k hk).trans (setLoop_loops n _ (postTaken s) k hk)
  have once : postAll m s = postLoop m n (postTaken s) := by
    rw [postAll_eq]
    exact foldl_once List.nodup_range (List.mem_range.2 hn) (fun k _ hk => idleLoop _ k rfl hk)
      fun k _ hk => idleLoop _ k (others k hk) hk
  rw [once, posted]
  exact ⟨rfl, rfl⟩

theorem servoMeasurementPost_manual {n : Nat} {l : Loop} (m : List (Nat × Int)) (c : Nat) (hp : s.sys.phase ≠ .off) (hn : n < 32)
    (hl : s.drv.loops[n]? = some l) (h : ManualDac l) (hq : s.drv.dacQueue = [])
    (idle : ∀ k x, s.drv.loops[k]? = some x → k ≠ n → x.cfg.eager = false ∨ x.mode = 0) :
    ∃ t, exec (.servoMeasurementPost m c) s = .next t
      ∧ t.drv.dacQueue = [(n, clampI l.cfg.outMin l.cfg.outMax l.manOut)] ∧ t.jrn = s.jrn ∧ t.mem = s.mem ∧ t.fmt = s.fmt := by
  obtain ⟨queue, stop⟩ := postAll_manual (postedSources m s) hn hl h hq idle
  have drv := checkOfftrack_drv (postAll (postedSources m s) s)
  have helm := (checkOfftrack_helm (postAll (postedSources m s) s)).trans (postAll_helm ..)
  simp only [State.helm, Prod.mk.injEq] at helm
  obtain ⟨jrn, fmt, -⟩ := helm
  refine ⟨_, servoMeasurementPost_runs m c hp, ?_⟩
  rw [stopRunIfStopped_same ((congrArg Drv.safeStop drv).trans stop)]
  exact ⟨(congrArg Drv.dacQueue drv).trans queue, jrn, (checkOfftrack_mem _).trans (postAll_mem ..), fmt⟩

/-! ### The DAC -/

theorem dacWriteDone_none (h : s.drv.dacQueue = []) : exec .dacWriteDone s = .next s := by
  have same : dacDone s = s := by rw [dacDone, h]
  change execDacWriteDone s = _
  rw [execDacWriteDone, same, stopRunIfStopped_same rfl]

/-- The state whose DAC queue is q. -/
def dacQueued (q : List (Nat × Int)) (s : State) : State := { s with drv := { s.drv with dacQueue := q } }

theorem applyOut_ends (n : Nat) (c : Int) (s : State) :
    (applyOut n c s).drv = (setLoop n (fun l => { l with output := c }) s).drv
      ∧ (applyOut n c s).out = s.out ++ (if isHardSink (getLoop n s).cfg.sink then [.sink (getLoop n s).cfg.sink c] else [])
      ∧ (applyOut n c s).mem = s.mem := by
  unfold applyOut
  dsimp only
  split
  · exact ⟨rfl, rfl, rfl⟩
  · exact ⟨rfl, (List.append_nil _).symm, rfl⟩

theorem dacDone_oldest {n : Nat} {c : Int} {q : List (Nat × Int)} (h : s.drv.dacQueue = (n, c) :: q)
    (hw : ∀ p ∈ s.drv.waitPost, p.1 ≠ n) : dacDone s = applyOut n c (dacQueued q s) := by
  have drv := (applyOut_ends n c (dacQueued q s)).1
  have none : (applyOut n c (dacQueued q s)).drv.waitPost.find? (·.1 == n) = none := by
    rw [drv]
    exact List.find?_eq_none.2 fun p hp => by simpa using hw p hp
  rw [dacDone, h]
  change (match (applyOut n c (dacQueued q s)).drv.waitPost.find? (·.1 == n) with
    | .none => applyOut n c (dacQueued q s)
    | some (_, m) => _) = _
  rw [none]

theorem dacWriteDone_oldest {n : Nat} {c : Int} {q : List (Nat × Int)} (h : s.drv.dacQueue = (n, c) :: q)
    (hw : ∀ p ∈ s.drv.waitPost, p.1 ≠ n) :
    ∃ t, exec .dacWriteDone s = .next t ∧ t.drv.dacQueue = q
      ∧ t.drv.loops = s.drv.loops.modify n (fun l => { l with output := c })
      ∧ t.out = s.out ++ (if isHardSink (getLoop n s).cfg.sink then [.sink (getLoop n s).cfg.sink c] else [])
      ∧ t.jrn = s.jrn ∧ t.mem = s.mem ∧ t.fmt = s.fmt := by
  obtain ⟨drv, out, mem⟩ := applyOut_ends n c (dacQueued q s)
  have helm := applyOut_helm n c (dacQueued q s)
  simp only [State.helm, Prod.mk.injEq] at helm
  obtain ⟨jrn, fmt, -⟩ := helm
  refine ⟨applyOut n c (dacQueued q s), ?_, congrArg Drv.dacQueue drv, congrArg Drv.loops drv, out, jrn, mem, fmt⟩
  have stop : (applyOut n c (dacQueued q s)).drv.safeStop = s.drv.safeStop := (congrArg Drv.safeStop drv :)
  change execDacWriteDone s = _
  rw [execDacWriteDone, dacDone_oldest h hw, stopRunIfStopped_same stop]

/-! ### The registers of a loop -/

theorem drvCoefWrite_taken (loop sec reg : Nat) (v : Word) (hopen : mmioOpen s) (hr : reg < 6)
    (h : s.cmd.compatActive = false ∨ ((getLoop loop s).mode ≠ 2 ∧ (getLoop loop s).modeReq ≠ 2)) :
    exec (.drvCoefWrite loop sec reg v) s
      = .next (setLoop loop (fun l => { l with hostCoef := true, sections := l.sections.modify sec (setCoef reg v) }) s) := by
  have allowed : ¬ (s.cmd.compatActive && ((getLoop loop s).mode == 2 || (getLoop loop s).modeReq == 2)) = true := by
    rcases h with h | ⟨mode, req⟩
    · simp [h]
    · simp [mode, req]
  change execDrvCoefWrite loop sec reg v s = _
  rw [execDrvCoefWrite, onMmio_of_open hopen]
  dsimp only
  rw [if_neg (by omega), if_neg allowed]

theorem drvCoefWrite_refused (loop sec reg : Nat) (v : Word) (hopen : mmioOpen s) (hr : reg < 6) (hc : s.cmd.compatActive = true)
    (hm : (getLoop loop s).mode = 2) :
    exec (.drvCoefWrite loop sec reg v) s = .next (raise evDrvCoefRefused loop (coefOffset loop sec reg) s) := by
  change execDrvCoefWrite loop sec reg v s = _
  rw [execDrvCoefWrite, onMmio_of_open hopen]
  dsimp only
  rw [if_neg (by omega), if_pos (by rw [hc, hm]; rfl)]

theorem drvModeWrite_taken (loop : Nat) (v : Word) (hopen : mmioOpen s) :
    exec (.drvModeWrite loop v) s = .next (setLoop loop (fun l => { l with
      modeReq := if bits v 0 2 = 3 then l.modeReq else bits v 0 2, manOut := fromTwos 24 (bits v 8 24) }) s) := by
  change execDrvModeWrite loop v s = _
  rw [execDrvModeWrite, onMmio_of_open hopen]

theorem drvTargetWrite_taken (loop : Nat) (v : Word) (hopen : mmioOpen s) :
    exec (.drvTargetWrite loop v) s = .next (setLoop loop (fun l => { l with targetNext := some (fromTwos 24 (bits v 0 24)) }) s) := by
  change execDrvTargetWrite loop v s = _
  rw [execDrvTargetWrite, onMmio_of_open hopen]

/-- Settles O48: a register write reaches its loop alone; a post runs the eager loops, and only those, whose codes the DAC takes one by one. -/
theorem droverRegistersAndEagerLoops : Obligations.DroverRegistersAndEagerLoops := by
  refine ⟨fun loop sec reg v s hopen hr h => drvCoefWrite_taken loop sec reg v hopen hr h,
    fun loop sec reg v s hopen hr hc hm => ⟨_, drvCoefWrite_refused loop sec reg v hopen hr hc hm, rfl, device_drv (raise_onlyEvents ..).device⟩,
    fun loop v s hopen => drvModeWrite_taken loop v hopen, fun loop v s hopen => drvTargetWrite_taken loop v hopen,
    fun m c s hp => servoMeasurementPost_ends m c hp, ?_, fun s h => dacWriteDone_none h, fun s n c q h hw => dacWriteDone_oldest h hw⟩
  intro m c s n l hp hn hl eager mode fb sp fe sink hq idle
  exact servoMeasurementPost_manual m c hp hn hl ⟨eager, mode, fb, sp, fe, sink⟩ hq idle

end Sys2Proof.Proofs
end

section
/-! PROOFS. The cipher engine, MRAM, the journal and the cartridge: `f_vault` says that a store to HBM leaves them. -/

namespace Sys2Proof.Machine

def State.vault (s : State) : Cph × Mram × Journal × Cart := (s.cph, s.mram, s.jrn, s.cart)

end Sys2Proof.Machine

namespace Sys2Proof.Proofs

open Sys2Proof.Machine Sys2Proof.Safety Sys2Proof.Laws

@[simp] theorem vault_mk sys hif cmd jrn ctx pkr cph fmt tec vfy hlk drv mon spm prt mem thm pwr aon wh whd mram cart mgt pending out freeCount :
    (State.mk sys hif cmd jrn ctx pkr cph fmt tec vfy hlk drv mon spm prt mem thm pwr aon wh whd mram cart mgt pending out freeCount).vault = (cph, mram, jrn, cart) := rfl

@[simp] theorem vault_fold (s : State) : (s.cph, s.mram, s.jrn, s.cart) = s.vault := rfl

@[simp] theorem foldl_vault {α : Type} {f : State → α → State} (hf : ∀ s x, (f s x).vault = s.vault) (l : List α) (s : State) :
    (l.foldl f s).vault = s.vault := by
  induction l generalizing s with
  | nil => rfl
  | cons a t ih => rw [List.foldl_cons, ih, hf]

@[simp] theorem ite_vault (c : Prop) [Decidable c] (a b : State) : (if c then a else b).vault = if c then a.vault else b.vault :=
  apply_ite State.vault c a b

theorem optMap_vault {f : State → State} (hf : ∀ s, (f s).vault = s.vault) {o : Option State} {m : Cph × Mram × Journal × Cart}
    (ho : ∀ r, o = some r → r.vault = m) (r : State) (h : o.map f = some r) : r.vault = m := by
  obtain ⟨u, hu, rfl⟩ := Option.map_eq_some_iff.1 h
  rw [hf, ho u hu]

theorem getD_vault {o : Option State} {m : Cph × Mram × Journal × Cart} (ho : ∀ r, o = some r → r.vault = m) (s : State) (hs : s.vault = m) :
    (o.getD s).vault = m := by
  cases o with
  | none => exact hs
  | some u => exact ho u rfl

/-! ### Events and buffers -/

theorem OnlyEvents.vault {s t : State} (h : OnlyEvents s t) : t.vault = s.vault := by
  obtain ⟨_, _, _, _, _, _, rfl, -⟩ := h; rfl

theorem OnlyPorter.vault {s t : State} (h : OnlyPorter s t) : t.vault = s.vault := h.elim fun _ h => h.vault

@[simp] theorem emit_vault (o : Output) (s : State) : (emit o s).vault = s.vault := (emit_onlyEvents o s).vault
@[simp] theorem drawFree_vault (s : State) : (drawFree s).vault = s.vault := rfl
@[simp] theorem msixTrigger_vault (vec : Nat) (en : Bool) (s : State) : (msixTrigger vec en s).vault = s.vault := (msixTrigger_onlyEvents vec en s).vault
@[simp] theorem hostStore_vault (addr : Nat) (l : List Byte) (s : State) : (hostStore addr l s).vault = s.vault := (hostStore_onlyEvents addr l s).vault
@[simp] theorem raise_vault (src p0 p1 : Nat) (s : State) : (raise src p0 p1 s).vault = s.vault := (raise_onlyEvents ..).vault
@[simp] theorem raiseP_vault (src p0 : Nat) (s : State) : (raiseP src p0 s).vault = s.vault := (raiseP_onlyEvents ..).vault
@[simp] theorem raiseN_vault (src : Nat) (s : State) : (raiseN src s).vault = s.vault := (raiseN_onlyEvents ..).vault
@[simp] theorem freeBuffer_vault (o : Nat) (h : Word) (s : State) : (freeBuffer o h s).vault = s.vault :=
  (freeBuffer_onlyPorter o h s).vault

@[simp] theorem modUnit_vault (u : Nat) (f : SysUnit → SysUnit) (s : State) : (modUnit u f s).vault = s.vault := by
  unfold modUnit; simp
@[simp] theorem setUnit_vault (u st cause : Nat) (s : State) : (setUnit u st cause s).vault = s.vault := by
  unfold setUnit; simp
@[simp] theorem setTable_vault (cls : Nat) (t : List ErrEntry) (s : State) : (setTable cls t s).vault = s.vault := by
  unfold setTable; simp
@[simp] theorem overTable_vault (cls : Nat) (s : State) : (overTable cls s).vault = s.vault := by
  unfold overTable; simp
@[simp] theorem logError_vault (cls addr pos kind : Nat) (s : State) : (logError cls addr pos kind s).vault = s.vault
    := by
  unfold logError; simp
@[simp] theorem failWrites_vault (st : Nat) (s : State) : (failWrites st s).vault = s.vault := by
  unfold failWrites; simp
@[simp] theorem flipDone_vault (cls addr : Nat) (s : State) : (flipDone cls addr s).vault = s.vault := by
  unfold flipDone; simp
@[simp] theorem hbmPut_vault (a : Nat) (l : List Byte) (poison : Bool) (s : State) : (hbmPut a l poison s).vault =
    s.vault := by
  unfold hbmPut; simp
@[simp] theorem fillGranule_vault (a : Nat) (s : State) : (fillGranule a s).vault = s.vault := by
  unfold fillGranule; simp [-ite_jrn]
@[simp] theorem hbmWrite_vault (a : Nat) (l : List Byte) (s : State) : (hbmWrite a l s).vault = s.vault := by
  unfold hbmWrite; simp
@[simp] theorem pcCorrected_vault (pc : Nat) (s : State) : (pcCorrected pc s).vault = s.vault := by
  unfold pcCorrected; simp
@[simp] theorem pcRetire_vault (pc : Nat) (s : State) : (pcRetire pc s).vault = s.vault := by
  unfold pcRetire; simp
@[simp] theorem memDegraded_vault (addr : Nat) (s : State) : (memDegraded addr s).vault = s.vault := by
  unfold memDegraded; simp
@[simp] theorem pcLasting_vault (pc addr : Nat) (s : State) : (pcLasting pc addr s).vault = s.vault := by
  unfold pcLasting; simp
@[simp] theorem pcFailing_vault (a : Nat) (s : State) : (pcFailing a s).vault = s.vault := by
  unfold pcFailing; simp
@[simp] theorem lostWord_vault (a : Nat) (l : List Byte) (poison : Bool) (s : State) : (lostWord a l poison s).vault
    = s.vault := by
  unfold lostWord; simp
@[simp] theorem fixedWord_vault (a i : Nat) (s : State) : (fixedWord a i s).vault = s.vault := by
  unfold fixedWord; simp
@[simp] theorem hbmReadCopy_vault (a : Nat) (s : State) : (hbmReadCopy a s).2.2.vault = s.vault := by
  unfold hbmReadCopy; dsimp only; (repeat' split) <;> simp
@[simp] theorem hbmMerge_vault (a : Nat) (l : List (Option Byte)) (s : State) : (hbmMerge a l s).vault = s.vault := by
  have h := (hbmReadCopy_vault a (fillGranule a s)).trans (fillGranule_vault a s)
  unfold hbmMerge; dsimp only; split
  · rename_i heq; exact (hbmPut_vault _ _ _ _).trans ((congrArg (fun p => p.2.2.vault) heq).symm.trans h)
  · rename_i heq
    have h1 := (congrArg (fun p => p.2.2.vault) heq).symm.trans h
    simpa using h1
@[simp] theorem storeHbm_vault (y0 : Nat) (a : Nat) (l : List Byte) (s : State) : (storeHbm y0 a l s).vault = s.vault := by
  induction y0 generalizing a l s with
  | zero => rfl
  | succ n ih => unfold storeHbm; (repeat' split) <;> simp [ih]

/-- The parts of a state that a store to HBM leaves. -/
theorem vault_parts {s t : State} (h : t.vault = s.vault) : t.cph = s.cph ∧ t.mram = s.mram ∧ t.jrn = s.jrn ∧ t.cart = s.cart := by
  simpa only [State.vault, Prod.mk.injEq] using h

@[simp] theorem stampHeader_vault (j : CipherJob) (s : State) : (stampHeader j s).vault = s.vault := by
  unfold stampHeader jobOutput
  dsimp only
  rw [storeHbm_vault, storeHbm_vault]

end Sys2Proof.Proofs
end

section
/-! PROOFS. The two copies of CEIL: `f_copies` says that the lanes of the cipher engine leave them. -/

namespace Sys2Proof.Machine

def State.copies (s : State) : CeilCopy × CeilCopy := (s.mram.ceilA, s.mram.ceilB)

end Sys2Proof.Machine

namespace Sys2Proof.Proofs

open Sys2Proof.Machine Sys2Proof.Safety Sys2Proof.Laws

@[simp] theorem copies_mk sys hif cmd jrn ctx pkr cph fmt tec vfy hlk drv mon spm prt mem thm pwr aon wh whd mram cart mgt pending out freeCount :
    (State.mk sys hif cmd jrn ctx pkr cph fmt tec vfy hlk drv mon spm prt mem thm pwr aon wh whd mram cart mgt pending out freeCount).copies = (mram.ceilA, mram.ceilB) := rfl

@[simp] theorem copies_fold (s : State) : (s.mram.ceilA, s.mram.ceilB) = s.copies := rfl

@[simp] theorem foldl_copies {α : Type} {f : State → α → State} (hf : ∀ s x, (f s x).copies = s.copies) (l : List α) (s : State) :
    (l.foldl f s).copies = s.copies := by
  induction l generalizing s with
  | nil => rfl
  | cons a t ih => rw [List.foldl_cons, ih, hf]

@[simp] theorem ite_copies (c : Prop) [Decidable c] (a b : State) : (if c then a else b).copies = if c then a.copies else b.copies :=
  apply_ite State.copies c a b

theorem optMap_copies {f : State → State} (hf : ∀ s, (f s).copies = s.copies) {o : Option State} {m : CeilCopy × CeilCopy}
    (ho : ∀ r, o = some r → r.copies = m) (r : State) (h : o.map f = some r) : r.copies = m := by
  obtain ⟨u, hu, rfl⟩ := Option.map_eq_some_iff.1 h
  rw [hf, ho u hu]

theorem getD_copies {o : Option State} {m : CeilCopy × CeilCopy} (ho : ∀ r, o = some r → r.copies = m) (s : State) (hs : s.copies = m) :
    (o.getD s).copies = m := by
  cases o with
  | none => exact hs
  | some u => exact ho u rfl

/-! ### Events and buffers -/

theorem OnlyEvents.copies {s t : State} (h : OnlyEvents s t) : t.copies = s.copies := by
  obtain ⟨_, _, _, _, _, _, rfl, -⟩ := h; rfl

theorem OnlyPorter.copies {s t : State} (h : OnlyPorter s t) : t.copies = s.copies := h.elim fun _ h => h.copies

@[simp] theorem emit_copies (o : Output) (s : State) : (emit o s).copies = s.copies := (emit_onlyEvents o s).copies
@[simp] theorem drawFree_copies (s : State) : (drawFree s).copies = s.copies := rfl
@[simp] theorem msixTrigger_copies (vec : Nat) (en : Bool) (s : State) : (msixTrigger vec en s).copies = s.copies := (msixTrigger_onlyEvents vec en s).copies
@[simp] theorem hostStore_copies (addr : Nat) (l : List Byte) (s : State) : (hostStore addr l s).copies = s.copies := (hostStore_onlyEvents addr l s).copies
@[simp] theorem raise_copies (src p0 p1 : Nat) (s : State) : (raise src p0 p1 s).copies = s.copies := (raise_onlyEvents ..).copies
@[simp] theorem raiseP_copies (src p0 : Nat) (s : State) : (raiseP src p0 s).copies = s.copies := (raiseP_onlyEvents ..).copies
@[simp] theorem raiseN_copies (src : Nat) (s : State) : (raiseN src s).copies = s.copies := (raiseN_onlyEvents ..).copies
@[simp] theorem freeBuffer_copies (o : Nat) (h : Word) (s : State) : (freeBuffer o h s).copies = s.copies :=
  (freeBuffer_onlyPorter o h s).copies

/-! ### Stores to HBM -/

@[simp] theorem storeHbm_copies (n a : Nat) (l : List Byte) (s : State) : (storeHbm n a l s).copies = s.copies := by
  obtain ⟨-, mram, -⟩ := vault_parts (storeHbm_vault n a l s)
  exact congrArg (fun m : Mram => (m.ceilA, m.ceilB)) mram
@[simp] theorem stampHeader_copies (j : CipherJob) (s : State) : (stampHeader j s).copies = s.copies := by
  obtain ⟨-, mram, -⟩ := vault_parts (stampHeader_vault j s)
  exact congrArg (fun m : Mram => (m.ceilA, m.ceilB)) mram

/-! ### The lanes -/

@[simp] theorem setSlot_copies (t : Bool × Nat) (k : KeySlot) (s : State) : (setSlot t k s).copies = s.copies := by
  unfold setSlot; simp
@[simp] theorem endPhase_copies (s : State) : (endPhase s).copies = s.copies := by
  unfold endPhase; simp
@[simp] theorem raiseCeil_copies (s : State) : (raiseCeil s).copies = s.copies := by
  unfold raiseCeil; simp
@[simp] theorem exhaust_copies (t : Bool × Nat) (which : Nat) (s : State) : (exhaust t which s).copies = s.copies := by
  unfold exhaust; simp
@[simp] theorem countDraw_copies (s : State) : (countDraw s).copies = s.copies := by
  unfold countDraw; simp
@[simp] theorem drawLimited_copies (t : Bool × Nat) (s : State) : (drawLimited t s).2.copies = s.copies := by
  unfold drawLimited; dsimp only; (repeat' split) <;> simp
@[simp] theorem drawNormal_copies (t : Bool × Nat) (s : State) : (drawNormal t s).2.copies = s.copies := by
  unfold drawNormal; dsimp only; (repeat' split) <;> simp
@[simp] theorem drawIv_copies (t : Bool × Nat) (s : State) : (drawIv t s).2.copies = s.copies := by
  unfold drawIv; (repeat' split) <;> simp
@[simp] theorem finishJob_copies (j : CipherJob) (lane result : Nat) (s : State) : (finishJob j lane result s).copies =
    s.copies := by
  unfold finishJob; simp
@[simp] theorem setLane_copies (n : Nat) (f : Lane → Lane) (s : State) : (setLane n f s).copies = s.copies := by
  unfold setLane; simp
@[simp] theorem startJob_copies (n : Nat) (j : CipherJob) (s : State) : (startJob n j s).copies = s.copies := by
  unfold startJob; dsimp only; split
  · have h := drawIv_copies (j.req.dev, j.req.slot) s
    split <;> (rename_i heq; rw [heq] at h; simpa using h)
  · split <;> simp
@[simp] theorem unqueue_copies (j : CipherJob) (s : State) : (unqueue j s).copies = s.copies := by
  unfold unqueue; simp
@[simp] theorem resumeJob_copies (n : Nat) (a : SaveArea) (s : State) : (resumeJob n a s).copies = s.copies := by
  unfold resumeJob; simp
@[simp] theorem laneFill_copies (y0 n : Nat) (s : State) : (laneFill y0 n s).copies = s.copies := by
  induction y0 generalizing s with
  | zero => rfl
  | succ k ih => unfold laneFill; (repeat' split) <;> simp [ih]
@[simp] theorem laneNext_copies (n : Nat) (s : State) : (laneNext n s).copies = s.copies := laneFill_copies _ n s
@[simp] theorem suspend_copies (n : Nat) (j : CipherJob) (s : State) : (suspend n j s).copies = s.copies := by
  unfold suspend; simp
@[simp] theorem placeJob_copies (j : CipherJob) (s : State) : (placeJob j s).copies = s.copies := by
  unfold placeJob; (repeat' split) <;> simp
@[simp] theorem pumpLanes_copies (s : State) : (pumpLanes s).copies = s.copies := by
  unfold pumpLanes; simp
@[simp] theorem endStarting_copies (s : State) : (endStarting s).copies = s.copies := by
  unfold endStarting; (repeat' split) <;> simp

end Sys2Proof.Proofs
end

section
/-! PROOFS. The lanes, the requests that wait and those that are done: `f_bench` says that running one request and drawing an IV leave them. -/

namespace Sys2Proof.Machine

def State.bench (s : State) : List Lane × List CipherJob × List CipherDone × BitVec 8 := (s.cph.lanes, s.cph.queue, s.cph.done, s.cph.degraded)

end Sys2Proof.Machine

namespace Sys2Proof.Proofs

open Sys2Proof.Machine Sys2Proof.Safety Sys2Proof.Laws

@[simp] theorem bench_mk sys hif cmd jrn ctx pkr cph fmt tec vfy hlk drv mon spm prt mem thm pwr aon wh whd mram cart mgt pending out freeCount :
    (State.mk sys hif cmd jrn ctx pkr cph fmt tec vfy hlk drv mon spm prt mem thm pwr aon wh whd mram
      cart mgt pending out freeCount).bench =
      (cph.lanes, cph.queue, cph.done, cph.degraded) := rfl

@[simp] theorem bench_fold (s : State) : (s.cph.lanes, s.cph.queue, s.cph.done, s.cph.degraded) = s.bench := rfl

@[simp] theorem foldl_bench {α : Type} {f : State → α → State} (hf : ∀ s x, (f s x).bench = s.bench) (l : List α) (s : State) :
    (l.foldl f s).bench = s.bench := by
  induction l generalizing s with
  | nil => rfl
  | cons a t ih => rw [List.foldl_cons, ih, hf]

@[simp] theorem ite_bench (c : Prop) [Decidable c] (a b : State) : (if c then a else b).bench = if c then a.bench else b.bench :=
  apply_ite State.bench c a b

theorem optMap_bench {f : State → State} (hf : ∀ s, (f s).bench = s.bench) {o : Option State} {m : List Lane × List CipherJob × List CipherDone × BitVec 8}
    (ho : ∀ r, o = some r → r.bench = m) (r : State) (h : o.map f = some r) : r.bench = m := by
  obtain ⟨u, hu, rfl⟩ := Option.map_eq_some_iff.1 h
  rw [hf, ho u hu]

theorem getD_bench {o : Option State} {m : List Lane × List CipherJob × List CipherDone × BitVec 8} (ho : ∀ r, o =
    some r → r.bench = m) (s : State) (hs : s.bench = m) :
    (o.getD s).bench = m := by
  cases o with
  | none => exact hs
  | some u => exact ho u rfl

/-! ### Events and buffers -/

theorem OnlyEvents.bench {s t : State} (h : OnlyEvents s t) : t.bench = s.bench := by
  obtain ⟨_, _, _, _, _, _, rfl, -⟩ := h; rfl

theorem OnlyPorter.bench {s t : State} (h : OnlyPorter s t) : t.bench = s.bench := h.elim fun _ h => h.bench

@[simp] theorem emit_bench (o : Output) (s : State) : (emit o s).bench = s.bench := (emit_onlyEvents o s).bench
@[simp] theorem drawFree_bench (s : State) : (drawFree s).bench = s.bench := rfl
@[simp] theorem msixTrigger_bench (vec : Nat) (en : Bool) (s : State) : (msixTrigger vec en s).bench = s.bench := (msixTrigger_onlyEvents vec en s).bench
@[simp] theorem hostStore_bench (addr : Nat) (l : List Byte) (s : State) : (hostStore addr l s).bench = s.bench := (hostStore_onlyEvents addr l s).bench
@[simp] theorem raise_bench (src p0 p1 : Nat) (s : State) : (raise src p0 p1 s).bench = s.bench := (raise_onlyEvents ..).bench
@[simp] theorem raiseP_bench (src p0 : Nat) (s : State) : (raiseP src p0 s).bench = s.bench := (raiseP_onlyEvents ..).bench
@[simp] theorem raiseN_bench (src : Nat) (s : State) : (raiseN src s).bench = s.bench := (raiseN_onlyEvents ..).bench
@[simp] theorem freeBuffer_bench (o : Nat) (h : Word) (s : State) : (freeBuffer o h s).bench = s.bench :=
  (freeBuffer_onlyPorter o h s).bench

@[simp] theorem setCq_bench (n : Nat) (f : CplRing → CplRing) (s : State) : (setCq n f s).bench = s.bench := by
  unfold setCq; simp
@[simp] theorem cplWrite_bench (n : Nat) (c : Completion) (s : State) : (cplWrite n c s).bench = s.bench := by
  unfold cplWrite; simp
@[simp] theorem cplPost_bench (n : Nat) (c : Completion) (s : State) : (cplPost n c s).bench = s.bench := by
  unfold cplPost; simp
@[simp] theorem mgtReturn_bench (c : Completion) (s : State) : (mgtReturn c s).bench = s.bench := by
  unfold mgtReturn; simp
@[simp] theorem postTo_bench (ring : Nat) (c : Completion) (s : State) : (postTo ring c s).bench = s.bench := by
  unfold postTo; simp
@[simp] theorem setRun_bench (jsn : Nat) (f : RunInfo → RunInfo) (s : State) : (setRun jsn f s).bench = s.bench := by
  unfold setRun; simp
@[simp] theorem setEntry_bench (jsn : Nat) (f : JournalEntry → JournalEntry) (s : State) : (setEntry jsn f s).bench =
    s.bench := by
  unfold setEntry; simp
@[simp] theorem postAccepted_bench (e : JournalEntry) (s : State) : (postAccepted e s).bench = s.bench := by
  unfold postAccepted; simp
@[simp] theorem beginFree_bench (jsn : Nat) (s : State) : (beginFree jsn s).bench = s.bench := by
  unfold beginFree; simp
@[simp] theorem setSlot_bench (t : Bool × Nat) (k : KeySlot) (s : State) : (setSlot t k s).bench = s.bench := by
  unfold setSlot; simp
@[simp] theorem freePending_bench (e : JournalEntry) (s : State) : (freePending e s).bench = s.bench := by
  unfold freePending; simp
@[simp] theorem endPhase_bench (s : State) : (endPhase s).bench = s.bench := by
  unfold endPhase; simp
@[simp] theorem replayDone_bench (s : State) : (replayDone s).bench = s.bench := by
  unfold replayDone; simp
@[simp] theorem replayEnded_bench (wasReplayed : Bool) (s : State) : (replayEnded wasReplayed s).bench = s.bench := by
  unfold replayEnded; simp
@[simp] theorem abortMissed_bench (jsn : Nat) (s : State) : (abortMissed jsn s).bench = s.bench := by
  unfold abortMissed; simp
@[simp] theorem reportFirst_bench (e : JournalEntry) (s : State) : (reportFirst e s).bench = s.bench := by
  unfold reportFirst; simp
@[simp] theorem unpin_bench (e : JournalEntry) (s : State) : (unpin e s).bench = s.bench := by
  unfold unpin; simp
@[simp] theorem retireNow_bench (e : JournalEntry) (r : RunInfo) (status : Nat) (r0 r1 : Word) (s : State) :
    (retireNow e r status r0 r1 s).bench = s.bench := by
  unfold retireNow; simp
@[simp] theorem endCommand_bench (jsn status : Nat) (r0 r1 : Word) (s : State) : (endCommand jsn status r0 r1
    s).bench = s.bench := by
  unfold endCommand; (repeat' split) <;> simp
@[simp] theorem endWith_bench (jsn status r0 r1 : Nat) (s : State) : (endWith jsn status r0 r1 s).bench = s.bench := by
  unfold endWith; simp
@[simp] theorem modUnit_bench (u : Nat) (f : SysUnit → SysUnit) (s : State) : (modUnit u f s).bench = s.bench := by
  unfold modUnit; simp
@[simp] theorem setUnit_bench (u st cause : Nat) (s : State) : (setUnit u st cause s).bench = s.bench := by
  unfold setUnit; simp
@[simp] theorem setTable_bench (cls : Nat) (t : List ErrEntry) (s : State) : (setTable cls t s).bench = s.bench := by
  unfold setTable; simp
@[simp] theorem overTable_bench (cls : Nat) (s : State) : (overTable cls s).bench = s.bench := by
  unfold overTable; simp
@[simp] theorem logError_bench (cls addr pos kind : Nat) (s : State) : (logError cls addr pos kind s).bench = s.bench
    := by
  unfold logError; simp
@[simp] theorem failWrites_bench (st : Nat) (s : State) : (failWrites st s).bench = s.bench := by
  unfold failWrites; simp
@[simp] theorem flipDone_bench (cls addr : Nat) (s : State) : (flipDone cls addr s).bench = s.bench := by
  unfold flipDone; simp
@[simp] theorem hbmPut_bench (a : Nat) (l : List Byte) (poison : Bool) (s : State) : (hbmPut a l poison s).bench =
    s.bench := by
  unfold hbmPut; simp
@[simp] theorem pcCorrected_bench (pc : Nat) (s : State) : (pcCorrected pc s).bench = s.bench := by
  unfold pcCorrected; simp
@[simp] theorem pcRetire_bench (pc : Nat) (s : State) : (pcRetire pc s).bench = s.bench := by
  unfold pcRetire; simp
@[simp] theorem memDegraded_bench (addr : Nat) (s : State) : (memDegraded addr s).bench = s.bench := by
  unfold memDegraded; simp
@[simp] theorem pcLasting_bench (pc addr : Nat) (s : State) : (pcLasting pc addr s).bench = s.bench := by
  unfold pcLasting; simp
@[simp] theorem pcFailing_bench (a : Nat) (s : State) : (pcFailing a s).bench = s.bench := by
  unfold pcFailing; simp
@[simp] theorem lostWord_bench (a : Nat) (l : List Byte) (poison : Bool) (s : State) : (lostWord a l poison s).bench
    = s.bench := by
  unfold lostWord; simp
@[simp] theorem fixedWord_bench (a i : Nat) (s : State) : (fixedWord a i s).bench = s.bench := by
  unfold fixedWord; simp
@[simp] theorem hbmReadCopy_bench (a : Nat) (s : State) : (hbmReadCopy a s).2.2.bench = s.bench := by
  unfold hbmReadCopy; dsimp only; (repeat' split) <;> simp
@[simp] theorem mirrorLost_bench (a : Nat) (s : State) : (mirrorLost a s).bench = s.bench := by
  unfold mirrorLost; simp
@[simp] theorem hbmRead_bench (a : Nat) (s : State) : (hbmRead a s).2.2.bench = s.bench := by
  have h := fun a u => hbmReadCopy_bench a u
  unfold hbmRead; split
  · rename_i heq; exact (congrArg (fun p => p.2.2.bench) heq).symm.trans (h _ _)
  · rename_i heq
    have h1 := (congrArg (fun p => p.2.2.bench) heq).symm.trans (h _ _)
    split
    · split
      · rename_i heq2; exact (hbmPut_bench _ _ _ _).trans (((congrArg (fun p => p.2.2.bench) heq2).symm.trans (h _ _)).trans h1)
      · rename_i heq2; exact (mirrorLost_bench _ _).trans (((congrArg (fun p => p.2.2.bench) heq2).symm.trans (h _ _)).trans h1)
    · exact h1
@[simp] theorem readHdm_bench (y0 : Nat) (y1 : Nat) (y2 : Nat) (s : State) : (readHdm y0 y1 y2 s).2.2.bench = s.bench
    := by
  induction y0 generalizing s y1 y2 with
  | zero => rfl
  | succ n ih =>
    unfold readHdm; split
    · rfl
    · exact (ih _ _ _).trans (hbmRead_bench (y1 / 32 * 32) s)
@[simp] theorem raiseCeil_bench (s : State) : (raiseCeil s).bench = s.bench := by
  unfold raiseCeil; simp
@[simp] theorem exhaust_bench (t : Bool × Nat) (which : Nat) (s : State) : (exhaust t which s).bench = s.bench := by
  unfold exhaust; simp
@[simp] theorem countDraw_bench (s : State) : (countDraw s).bench = s.bench := by
  unfold countDraw; simp
@[simp] theorem drawLimited_bench (t : Bool × Nat) (s : State) : (drawLimited t s).2.bench = s.bench := by
  unfold drawLimited; dsimp only; (repeat' split) <;> simp
@[simp] theorem drawNormal_bench (t : Bool × Nat) (s : State) : (drawNormal t s).2.bench = s.bench := by
  unfold drawNormal; dsimp only; (repeat' split) <;> simp
@[simp] theorem drawIv_bench (t : Bool × Nat) (s : State) : (drawIv t s).2.bench = s.bench := by
  unfold drawIv; (repeat' split) <;> simp
@[simp] theorem storeHbm_bench (n a : Nat) (l : List Byte) (s : State) : (storeHbm n a l s).bench = s.bench := by
  obtain ⟨cph, -⟩ := vault_parts (storeHbm_vault n a l s)
  exact congrArg (fun c : Cph => (c.lanes, c.queue, c.done, c.degraded)) cph
@[simp] theorem jobOutput_bench (addr : Nat) (l : List Byte) (s : State) : (jobOutput addr l s).bench = s.bench := by
  unfold jobOutput; simp
@[simp] theorem runEncrypt_bench (j : CipherJob) (s : State) : (runEncrypt j s).bench = s.bench := by
  unfold runEncrypt jobInput
  have h := readHdm_bench (j.req.len / 32 + 2) j.req.src.toNat j.req.len s
  split; rename_i heq; simp at heq; simp [← heq.2, h]
@[simp] theorem jobInput_bench (addr n : Nat) (s : State) : (jobInput addr n s).2.bench = s.bench := by
  simp [jobInput]
@[simp] theorem openFrameAt_bench (addr : Nat) (j : CipherJob) (s : State) : (openFrameAt addr j s).2.2.bench = s.bench := by
  simp [openFrameAt]
@[simp] theorem runUnwrap_bench (j : CipherJob) (s : State) : (runUnwrap j s).2.bench = s.bench := by
  unfold runUnwrap; dsimp only; split <;> simp
@[simp] theorem jobDone_bench (j : CipherJob) (o : CipherOutcome) (s : State) : (jobDone j o s).2.bench = s.bench := by
  unfold jobDone; split_ifs <;> simp

end Sys2Proof.Proofs
end

section
/-! PROOFS. CEIL raises and writes to CPH_INSTANCE (06 R152, R153, R156; O52). -/

namespace Sys2Proof.Proofs

open Sys2Proof.Machine Sys2Proof.Safety Sys2Proof.Laws

variable {s t : State}

/-! ### A raise that is durable -/

theorem ceilNow_of_copies (h : t.copies = s.copies) : ceilNow t = ceilNow s := by
  simp only [State.copies, Prod.mk.injEq] at h
  obtain ⟨a, b⟩ := h
  rw [ceilNow, ceilCopy, a, b]
  rfl

/-- Two copies of which the first is not the older one. -/
theorem ceilOf_first {a b : CeilCopy} (ha : ceilValid a = true) (hb : ceilValid b = true → b.seqNo ≤ a.seqNo) : ceilOf a b = a.ceil := by
  rw [ceilOf, if_pos]
  · rfl
  · cases h : ceilValid b with
    | false => simp [ha]
    | true => simp [ha, hb h]

/-- Two copies of which the second is the newer one. -/
theorem ceilOf_second {a b : CeilCopy} (hb : ceilValid b = true) (h : a.seqNo < b.seqNo) : ceilOf a b = b.ceil := by
  rw [ceilOf, if_neg, if_pos hb]
  · rfl
  · simp [hb, Nat.not_le.2 h]

theorem ceilValid_of_none (h : ceilCopy s = none) : ceilValid s.mram.ceilA = false ∧ ceilValid s.mram.ceilB = false := by
  rw [ceilCopy] at h
  split_ifs at h with first second
  have notB : ceilValid s.mram.ceilB = false := by simpa using second
  exact ⟨by simpa [notB] using first, notB⟩

/-- A CEIL that is written is the one in force, while the sequence number has room. -/
theorem ceilNow_writeCeil {c : Nat} (h : (ceilCopy s).all (fun k => decide (k.seqNo + 1 < 2 ^ 32)) = true) : ceilNow (writeCeil c s) = c := by
  have valid : ∀ n, ceilValid (mkCeil c n) = true := fun n => ceilValid_mkCeil c n
  unfold writeCeil
  dsimp only
  split
  · next first =>
    rw [first] at h ⊢
    have room : s.mram.ceilA.seqNo + 1 < 2 ^ 32 := of_decide_eq_true h
    exact ceilOf_second (valid _) (by change _ < (s.mram.ceilA.seqNo + 1) % 2 ^ 32; rw [Nat.mod_eq_of_lt room]; exact Nat.lt_succ_self _)
  · next other =>
    refine ceilOf_first (valid _) fun hB => ?_
    have second : ceilCopy s = some s.mram.ceilB := by
      rcases ceilCopy_cases s with ⟨first, -⟩ | ⟨second, -⟩ | none
      · exact absurd first other
      · exact second
      · exact absurd (hB.symm.trans (ceilValid_of_none none).2) (by decide)
    rw [second] at h ⊢
    have room : s.mram.ceilB.seqNo + 1 < 2 ^ 32 := of_decide_eq_true h
    change _ ≤ (s.mram.ceilB.seqNo + 1) % 2 ^ 32
    rw [Nat.mod_eq_of_lt room]
    exact Nat.le_succ _

/-- A state of which no raise is being written. -/
def ceilSettled (s : State) : State := { s with mram := { s.mram with ceilNext := none } }

/-- The requests that wait for a raise go to the lanes. -/
def placeWaiting (s : State) : State :=
  pumpLanes (s.cph.ceilWait.foldl (fun s j => placeJob j s) { s with cph := { s.cph with ceilWait := [] } })

theorem placeWaiting_copies (s : State) : (placeWaiting s).copies = s.copies := by
  unfold placeWaiting
  rw [pumpLanes_copies, foldl_copies fun s j => placeJob_copies j s]
  rfl

theorem ceilRaiseDurable_some {c : Nat} (h : s.mram.ceilNext = some c) :
    exec .ceilRaiseDurable s = .next (placeWaiting (endStarting (writeCeil c (ceilSettled s)))) := by
  change execCeilRaiseDurable s = _
  rw [execCeilRaiseDurable, h]
  rfl

theorem ceilRaiseDurable_none (h : s.mram.ceilNext = none) : exec .ceilRaiseDurable s = .next s := by
  change execCeilRaiseDurable s = _
  rw [execCeilRaiseDurable, h]

/-! ### INSTANCE -/

theorem cphInstanceWrite_refused (v : Word) (hopen : mmioOpen s) (h : anyActive s = true) :
    exec (.cphInstanceWrite v) s = .next (raise evCphInstanceRefused (v.toNat % 2 ^ 32) 0 s) := by
  change execCphInstanceWrite v s = _
  rw [execCphInstanceWrite, onMmio_of_open hopen]
  dsimp only
  rw [if_pos h, BitVec.toNat_ofNat]

/-- The state with another INSTANCE. -/
def withInstance (v : Word) (s : State) : State := { s with mram := { s.mram with inst := BitVec.ofNat 32 v.toNat } }

theorem instance_same_iff (v : Word) (s : State) : BitVec.ofNat 32 v.toNat = s.mram.inst ↔ s.mram.inst.toNat = v.toNat % 2 ^ 32 := by
  rw [← BitVec.toNat_inj, BitVec.toNat_ofNat, eq_comm]

theorem cphInstanceWrite_taken (v : Word) (hopen : mmioOpen s) (h : anyActive s = false)
    (hn : s.cph.ceilErr = false ∨ s.mram.inst.toNat = v.toNat % 2 ^ 32) :
    exec (.cphInstanceWrite v) s = .next (withInstance v s) := by
  have plain : ¬ (s.cph.ceilErr && decide (BitVec.ofNat 32 v.toNat ≠ s.mram.inst)) = true := by
    rcases hn with hn | hn
    · simp [hn]
    · simp [(instance_same_iff v s).2 hn]
  change execCphInstanceWrite v s = _
  rw [execCphInstanceWrite, onMmio_of_open hopen]
  dsimp only
  rw [if_neg (by simp [h]), if_neg plain]
  rfl

theorem cphInstanceWrite_repairs (v : Word) (hopen : mmioOpen s) (h : anyActive s = false) (he : s.cph.ceilErr = true)
    (hn : s.mram.inst.toNat ≠ v.toNat % 2 ^ 32) : exec (.cphInstanceWrite v) s = .next (ceilRepair (withInstance v s)) := by
  have changed : (s.cph.ceilErr && decide (BitVec.ofNat 32 v.toNat ≠ s.mram.inst)) = true := by
    simpa [he] using fun same => hn ((instance_same_iff v s).1 same)
  change execCphInstanceWrite v s = _
  rw [execCphInstanceWrite, onMmio_of_open hopen]
  dsimp only
  rw [if_neg (by simp [h]), if_pos changed]
  rfl

/-- What the end of a limited phase leaves. -/
theorem endPhase_leaves (s : State) :
    (endPhase s).mram = s.mram ∧ (endPhase s).cph.ceilErr = s.cph.ceilErr ∧ (endPhase s).cph.lanes = s.cph.lanes ∧ (endPhase s).jrn = s.jrn := by
  unfold endPhase
  split <;> exact ⟨rfl, rfl, rfl, rfl⟩

/-- The end of a limited phase moves no counter. -/
theorem endPhase_counters (s : State) (h : ∀ p ∈ s.cph.ctxSlots ++ s.cph.devSlots, p.2.counter = 0) :
    ∀ p ∈ (endPhase s).cph.ctxSlots ++ (endPhase s).cph.devSlots, p.2.counter = 0 := by
  unfold endPhase
  split
  · exact h
  · intro p hp
    rw [List.mem_append, List.mem_filter, List.mem_filter, List.mem_map, List.mem_map] at hp
    rcases hp with ⟨⟨q, hq, rfl⟩, -⟩ | ⟨⟨q, hq, rfl⟩, -⟩
    · exact h q (List.mem_append_left _ hq)
    · exact h q (List.mem_append_right _ hq)

/-- A slot whose normal counter is 0. -/
def recounted (p : Nat × KeySlot) : Nat × KeySlot := (p.1, { p.2 with counter := 0 })

/-- The state of R156 before the limited phase ends. -/
def ceilFresh (s : State) : State := { s with
  mram := { s.mram with ceilA := mkCeil (2 ^ 20) 1, ceilB := mkCeil (2 ^ 20) 2, ceilNext := none }
  cph := { s.cph with
    ceilErr := false
    ctxSlots := (s.cph.ctxSlots.map recounted).filter (fun p => decide (p.2 ≠ KeySlot.none))
    devSlots := (s.cph.devSlots.map recounted).filter (fun p => decide (p.2 ≠ KeySlot.none)) } }

theorem ceilRepair_eq (s : State) : ceilRepair s = endPhase (ceilFresh s) := rfl

theorem ceilFresh_counters (s : State) : ∀ p ∈ (ceilFresh s).cph.ctxSlots ++ (ceilFresh s).cph.devSlots, p.2.counter = 0 := by
  intro p hp
  rw [List.mem_append, ceilFresh, List.mem_filter, List.mem_filter, List.mem_map, List.mem_map] at hp
  rcases hp with ⟨⟨q, -, rfl⟩, -⟩ | ⟨⟨q, -, rfl⟩, -⟩ <;> rfl

theorem ceilOf_mkCeil (c m n : Nat) : ceilOf (mkCeil c m) (mkCeil c n) = c :=
  (ceilOf_of_valid (ceilValid_mkCeil c m) (ceilValid_mkCeil c n)).elim id id

theorem ceilNow_ceilFresh (s : State) : ceilNow (ceilFresh s) = 2 ^ 20 := by
  have now : ceilNow (ceilFresh s) = ceilOf (mkCeil (2 ^ 20) 1) (mkCeil (2 ^ 20) 2) := rfl
  rw [now, ceilOf_mkCeil]

theorem ceilRepair_ends (s : State) :
    (ceilRepair s).mram.inst = s.mram.inst ∧ (ceilRepair s).cph.ceilErr = false ∧ ceilNow (ceilRepair s) = 2 ^ 20
      ∧ (∀ p ∈ (ceilRepair s).cph.ctxSlots ++ (ceilRepair s).cph.devSlots, p.2.counter = 0)
      ∧ (ceilRepair s).cph.lanes = s.cph.lanes ∧ (ceilRepair s).jrn = s.jrn := by
  obtain ⟨mram, err, lanes, jrn⟩ := endPhase_leaves (ceilFresh s)
  rw [ceilRepair_eq, mram, err, lanes, jrn, ceilNow_of_copies (endPhase_copies _)]
  exact ⟨rfl, rfl, ceilNow_ceilFresh s, endPhase_counters _ (ceilFresh_counters s), rfl, rfl⟩

/-- Settles O52: a durable raise is in force; a new INSTANCE with no key ACTIVE ends CEIL_ERR. -/
theorem ceilingAndInstance : Obligations.CeilingAndInstance := by
  refine ⟨fun s c h hs => ⟨_, ceilRaiseDurable_some h, ?_⟩, fun s h => ceilRaiseDurable_none h,
    fun v s hopen h => ⟨_, cphInstanceWrite_refused v hopen h, rfl, (raise_onlyEvents ..).device⟩,
    fun v s hopen h hn => cphInstanceWrite_taken v hopen h hn, fun v s hopen h he hn => ⟨_, cphInstanceWrite_repairs v hopen h he hn, ?_⟩⟩
  · rw [ceilNow_of_copies (placeWaiting_copies _), ceilNow_of_copies (endStarting_copies _)]
    exact ceilNow_writeCeil hs
  · obtain ⟨inst, err, now, counters, lanes, jrn⟩ := ceilRepair_ends (withInstance v s)
    exact ⟨by rw [inst]; exact BitVec.toNat_ofNat .., err, now, counters, lanes, jrn⟩

end Sys2Proof.Proofs
end

section
/-! PROOFS. Requests of the cipher engine: they are posted, draw their IVs, end and are cancelled (06 R151-R155, R164-R168; O51). -/

namespace Sys2Proof.Proofs

open Sys2Proof.Machine Sys2Proof.Safety Sys2Proof.Laws

variable {s t : State} {n : Nat}

/-! ### Slots and lanes -/

theorem getSlot_setSlot_other {x y : Bool × Nat} (h : x ≠ y) (k : KeySlot) (s : State) : getSlot x (setSlot y k s) = getSlot x s := by
  obtain ⟨xd, xn⟩ := x
  obtain ⟨yd, yn⟩ := y
  cases xd <;> cases yd
  · exact tabGet_tabSet_ne _ _ _ fun hn => h (congrArg _ hn)
  · rfl
  · rfl
  · exact tabGet_tabSet_ne _ _ _ fun hn => h (congrArg _ hn)

theorem bench_parts (h : t.bench = s.bench) :
    t.cph.lanes = s.cph.lanes ∧ t.cph.queue = s.cph.queue ∧ t.cph.done = s.cph.done ∧ t.cph.degraded = s.cph.degraded := by
  simpa only [State.bench, Prod.mk.injEq] using h

theorem laneOf_congr (h : t.cph.lanes = s.cph.lanes) (n : Nat) : laneOf n t = laneOf n s := by rw [laneOf, laneOf, h]

theorem laneOf_setLane_same (h : n < s.cph.lanes.length) (f : Lane → Lane) : laneOf n (setLane n f s) = f (laneOf n s) := by
  change (s.cph.lanes.modify n f).getD n _ = f (s.cph.lanes.getD n _)
  simp [List.getD_eq_getElem?_getD, List.getElem?_eq_getElem h]

theorem laneOf_setLane_other {m : Nat} (h : m ≠ n) (f : Lane → Lane) (s : State) : laneOf m (setLane n f s) = laneOf m s := by
  change (s.cph.lanes.modify n f).getD m _ = s.cph.lanes.getD m _
  simp [List.getD_eq_getElem?_getD, h.symm]

theorem lane_of_job {j : CipherJob} (h : (laneOf n s).job = some j) : n < s.cph.lanes.length := by
  by_contra outside
  rw [laneOf, List.getD_eq_default _ _ (by omega)] at h
  cases h

/-- Each lane that runs nothing holds nothing suspended. -/
def LanesRested (s : State) : Prop := ∀ n, (laneOf n s).job = none → (laneOf n s).saved = []

theorem lanesRested_of (h : ∀ l ∈ s.cph.lanes, l.job = none → l.saved = []) : LanesRested s := by
  intro n
  by_cases hn : n < s.cph.lanes.length
  · rw [laneOf, List.getD_eq_getElem _ _ hn]
    exact h _ (List.getElem_mem hn)
  · rw [laneOf, List.getD_eq_default _ _ (by omega)]
    exact fun _ => rfl

/-! ### Lanes that stand idle with nothing waiting -/

theorem nextJob_none (h : s.cph.queue = []) : nextJob s = none := by rw [nextJob, h]; rfl

theorem laneNext_idle (hq : s.cph.queue = []) (h : (laneOf n s).job = none → (laneOf n s).saved = []) : laneNext n s = s := by
  have fill : laneNext n s = laneFill 1 n s := by rw [laneNext, hq]; rfl
  rw [fill, laneFill]
  split
  · rfl
  · next busy =>
    have free : (laneOf n s).job = none := by
      cases hj : (laneOf n s).job with
      | none => rfl
      | some j => exact absurd (by rw [hj]; rfl) busy
    rw [h free, nextJob_none hq]
    rfl

theorem pumpLanes_idle (hq : s.cph.queue = []) (h : LanesRested s) : pumpLanes s = s :=
  List.foldlRecOn (motive := fun t => t = s) _ _ rfl fun t ht k _ => by rw [ht, laneNext_idle hq (h k)]

/-! ### A request starts -/

/-- A request on its lane. -/
def onLane (n : Nat) (j : CipherJob) (s : State) : State :=
  setLane n (fun l => { l with job := some { j with order := s.cph.nextOrder } })
    { s with cph := { s.cph with nextOrder := s.cph.nextOrder + 1 } }

theorem onLane_done (n : Nat) (j : CipherJob) (s : State) : (onLane n j s).cph.done = s.cph.done := rfl

theorem stampHeader_cph (j : CipherJob) (s : State) : (stampHeader j s).cph = s.cph := (vault_parts (stampHeader_vault j s)).1

/-- The state with one more request that waits for a raise. -/
def ceilWaits (j : CipherJob) (s : State) : State := { s with cph := { s.cph with ceilWait := s.cph.ceilWait ++ [j] } }

/-- An ENCRYPT on a lane as its draw turns out. -/
def startDrawn (n : Nat) (j : CipherJob) : Draw × State → State
  | (.drawn iv lim, s) => onLane n { j with drawn := true, iv := iv, limited := lim } (stampHeader { j with drawn := true, iv := iv, limited := lim } s)
  | (.wait, s) => ceilWaits j s
  | (.refused r, s) => finishJob j n r s

theorem startJob_encrypt {j : CipherJob} (h : j.req.op = 1) (n : Nat) (s : State) :
    (∀ iv lim u, drawIv (j.req.dev, j.req.slot) s = (.drawn iv lim, u) →
      startJob n j s = onLane n { j with drawn := true, iv := iv, limited := lim }
        (stampHeader { j with drawn := true, iv := iv, limited := lim } u))
    ∧ (∀ u, drawIv (j.req.dev, j.req.slot) s = (.wait, u) →
      startJob n j s = ceilWaits j u)
    ∧ (∀ r u, drawIv (j.req.dev, j.req.slot) s = (.refused r, u) → startJob n j s = finishJob j n r u) := by
  have draws : startJob n j s = startDrawn n j (drawIv (j.req.dev, j.req.slot) s) := if_pos h
  refine ⟨fun iv lim u hd => ?_, fun u hd => ?_, fun r u hd => ?_⟩
  · rw [draws, hd]
    rfl
  · rw [draws, hd]
    rfl
  · rw [draws, hd]
    rfl

theorem startJob_other {j : CipherJob} (h : j.req.op ≠ 1) (n : Nat) (s : State) :
    startJob n j s = finishJob { j with iv := j.req.iv } n 2 s ∨ startJob n j s = onLane n { j with iv := j.req.iv } s := by
  unfold startJob
  dsimp only
  rw [if_neg h]
  split
  · exact .inl rfl
  · exact .inr rfl


/-! ### What is done stays done -/

theorem startJob_done (n : Nat) (j : CipherJob) (s : State) : s.cph.done <+: (startJob n j s).cph.done := by
  have same : ∀ {u v : State}, u.cph.done = v.cph.done → v.cph.done <+: u.cph.done := fun h => h ▸ List.prefix_refl _
  by_cases h : j.req.op = 1
  · obtain ⟨drawn, wait, refused⟩ := startJob_encrypt h n s
    have kept : (drawIv (j.req.dev, j.req.slot) s).2.cph.done = s.cph.done := (bench_parts (drawIv_bench ..)).2.2.1
    rcases hd : drawIv (j.req.dev, j.req.slot) s with ⟨d, u⟩
    rw [hd] at kept
    cases d with
    | drawn iv lim =>
      rw [drawn iv lim u hd, onLane_done, stampHeader_cph]
      exact same kept
    | wait =>
      rw [wait u hd]
      exact same kept
    | refused r =>
      rw [refused r u hd, ← (kept : u.cph.done = _)]
      exact List.prefix_append ..
  · rcases startJob_other h n s with ends | runs
    · rw [ends]
      exact List.prefix_append ..
    · rw [runs]
      exact List.prefix_refl _

theorem laneFill_done (k n : Nat) (s : State) : s.cph.done <+: (laneFill k n s).cph.done := by
  induction k generalizing s with
  | zero => exact List.prefix_refl _
  | succ k ih =>
    have start : ∀ q, s.cph.done <+: (laneFill k n (startJob n q (unqueue q s))).cph.done := fun q =>
      (startJob_done n q (unqueue q s)).trans (ih _)
    unfold laneFill
    split
    · exact List.prefix_refl _
    · split
      · split
        · exact start _
        · exact List.prefix_refl _
      · exact List.prefix_refl _
      · exact start _
      · exact List.prefix_refl _

theorem laneNext_done (n : Nat) (s : State) : s.cph.done <+: (laneNext n s).cph.done := by
  rw [laneNext]
  exact laneFill_done ..

theorem pumpLanes_done (s : State) : s.cph.done <+: (pumpLanes s).cph.done := by
  unfold pumpLanes
  generalize List.range 8 = lanes
  induction lanes generalizing s with
  | nil => exact List.prefix_refl _
  | cons n lanes ih => exact (laneNext_done n s).trans (ih _)

/-! ### A request that is posted -/

/-- The request of a descriptor as it is posted. -/
def postedJob (desc : List Word) (s : State) : CipherJob :=
  { req := decodeRequest desc, drawn := false, iv := 0, limited := false, suspends := 0, order := 0, posted := s.cph.nextPost }

/-- The slot that a descriptor names. -/
def postedSlot (desc : List Word) : Bool × Nat := ((decodeRequest desc).dev, (decodeRequest desc).slot)

/-- The state in which a request of a descriptor finds its lane. -/
def postedTo (desc : List Word) (s : State) : State :=
  drawFree { s with cph := { s.cph with desc := (List.range 8).map fun i => desc.getD i 0, nextPost := s.cph.nextPost + 1 } }

theorem cphRqPush_idle (desc : List Word) (h : idleLanes s ≠ []) :
    ∃ n ∈ idleLanes s, exec (.cphRqPush desc) s = .next (pumpLanes (startJob n (postedJob desc s) (postedTo desc s))) := by
  have lanes : ∀ l : List Nat, l ≠ [] → ∀ i, l.getD (i % l.length) 0 ∈ l := by
    intro l hl i
    have small : i % l.length < l.length := Nat.mod_lt _ (List.length_pos_of_ne_nil hl)
    rw [List.getD_eq_getElem _ _ small]
    exact List.getElem_mem small
  refine ⟨_, lanes _ h (Config.freeNat s.freeCount), ?_⟩
  let u : State := { s with cph := { s.cph with desc := (List.range 8).map fun i => desc.getD i 0, nextPost := s.cph.nextPost + 1 } }
  have idle : idleLanes u = idleLanes s := rfl
  have placed : placeJob (postedJob desc s) u
      = startJob ((idleLanes s).getD (Config.freeNat s.freeCount % (idleLanes s).length) 0) (postedJob desc s) (postedTo desc s) := by
    rw [placeJob, idle]
    cases hl : idleLanes s with
    | nil => exact absurd hl h
    | cons a l => rfl
  exact congrArg (fun v => Host.Outcome.next (pumpLanes v)) placed

theorem drawIv_active {x : Bool × Nat} (ha : (getSlot x s).use = .active) (hp : limitedPhase s = false) : drawIv x s = drawNormal x s := by
  rw [drawIv, ha]
  exact if_neg (by simp [hp])

theorem drawNormal_below {x : Bool × Nat} (small : (getSlot x s).counter < 2 ^ 63) (below : (getSlot x s).counter < ceilNow s) :
    drawNormal x s = (.drawn (mkIv s.mram.inst (getSlot x s).counter) false,
      countDraw (setSlot x { getSlot x s with counter := (getSlot x s).counter + 1 } s)) := by
  unfold drawNormal
  dsimp only
  rw [if_neg (Nat.not_le.2 small), if_neg (Nat.not_le.2 below)]

theorem drawNormal_waits {x : Bool × Nat} (small : (getSlot x s).counter < 2 ^ 63) (above : ceilNow s ≤ (getSlot x s).counter) :
    drawNormal x s = (.wait, raiseCeil s) := by
  unfold drawNormal
  dsimp only
  rw [if_neg (Nat.not_le.2 small), if_pos above]

theorem drawNormal_spent {x : Bool × Nat} (spent : 2 ^ 63 ≤ (getSlot x s).counter) : drawNormal x s = (.refused 4, exhaust x 0 s) := by
  unfold drawNormal
  dsimp only
  rw [if_pos spent]

theorem mem_idleLanes (h : n ∈ idleLanes s) : n < 8 ∧ (laneOf n s).saved = [] := by
  rw [idleLanes, List.mem_filter, List.mem_range] at h
  obtain ⟨small, idle⟩ := h
  simp only [Bool.and_eq_true, List.isEmpty_iff] at idle
  exact ⟨small, idle.2⟩

theorem setSlot_leaves (x : Bool × Nat) (k : KeySlot) (s : State) :
    (setSlot x k s).cph.lanes = s.cph.lanes ∧ (setSlot x k s).cph.queue = s.cph.queue ∧ (setSlot x k s).cph.done = s.cph.done
      ∧ (setSlot x k s).cph.nextOrder = s.cph.nextOrder ∧ (setSlot x k s).mram = s.mram ∧ (setSlot x k s).jrn = s.jrn
      ∧ (setSlot x k s).cart = s.cart := by
  unfold setSlot
  split <;> exact ⟨rfl, rfl, rfl, rfl, rfl, rfl, rfl⟩

/-- The state after a draw under slot x, which leaves k there, with the frame header of request j stamped. -/
def stamped (x : Bool × Nat) (k : KeySlot) (j : CipherJob) (s : State) : State := stampHeader j (countDraw (setSlot x k s))

theorem stamped_stays (x : Bool × Nat) (k : KeySlot) (j : CipherJob) (s : State) :
    (stamped x k j s).cph.lanes = s.cph.lanes ∧ (stamped x k j s).cph.queue = s.cph.queue ∧ (stamped x k j s).cph.done = s.cph.done
      ∧ (stamped x k j s).cph.nextOrder = s.cph.nextOrder ∧ (stamped x k j s).mram = s.mram ∧ (stamped x k j s).jrn = s.jrn
      ∧ (stamped x k j s).cart = s.cart := by
  obtain ⟨cph, mram, jrn, cart⟩ := vault_parts (stampHeader_vault j (countDraw (setSlot x k s)))
  rw [stamped, cph, mram, jrn, cart]
  exact setSlot_leaves x k s

theorem stamped_slots (x : Bool × Nat) (k : KeySlot) (j : CipherJob) (s : State) :
    getSlot x (stamped x k j s) = k ∧ ∀ y, y ≠ x → getSlot y (stamped x k j s) = getSlot y s := by
  have slots : ∀ y, getSlot y (stamped x k j s) = getSlot y (setSlot x k s) := fun y => getSlot_congr (stampHeader_cph ..) y
  exact ⟨(slots x).trans (getSlot_setSlot_same ..), fun y hy => (slots y).trans (getSlot_setSlot_other hy ..)⟩

theorem onLane_lane (h : n < s.cph.lanes.length) (j : CipherJob) :
    laneOf n (onLane n j s) = { laneOf n s with job := some { j with order := s.cph.nextOrder } } :=
  laneOf_setLane_same (s := { s with cph := { s.cph with nextOrder := s.cph.nextOrder + 1 } }) h _

theorem onLane_others {m : Nat} (h : m ≠ n) (j : CipherJob) (s : State) : laneOf m (onLane n j s) = laneOf m s :=
  laneOf_setLane_other h _ _

theorem onLane_rested (hn : n < s.cph.lanes.length) (h : LanesRested s) (j : CipherJob) : LanesRested (onLane n j s) := by
  intro m
  by_cases hm : m = n
  · subst hm
    rw [onLane_lane hn]
    exact fun busy => absurd busy (by simp)
  · rw [onLane_others hm]
    exact h m

theorem lanesRested_congr (lanes : t.cph.lanes = s.cph.lanes) (h : LanesRested s) : LanesRested t := by
  intro m
  rw [laneOf_congr lanes]
  exact h m

theorem getSlot_ceilWaits {j : CipherJob} (h : t.cph = s.cph) (x : Bool × Nat) : getSlot x (ceilWaits j t) = getSlot x s :=
  (getSlot_congr h x : getSlot x t = _)

theorem raiseCeil_ends (s : State) :
    (raiseCeil s).cph = s.cph ∧ (raiseCeil s).mram.ceilNext = some (s.mram.ceilNext.getD (ceilNow s + 2 ^ 20))
      ∧ ceilNow (raiseCeil s) = ceilNow s := by
  refine ⟨?_, ?_, ceilNow_of_copies (raiseCeil_copies s)⟩
  · unfold raiseCeil
    split <;> rfl
  · unfold raiseCeil
    cases hn : s.mram.ceilNext with
    | none => rfl
    | some c => simpa using hn

/-- What an ENCRYPT needs to be placed: eight lanes, of which one idles, nothing that waits, and an ACTIVE slot. -/
structure EncryptPosted (desc : List Word) (s : State) : Prop where
  op : (decodeRequest desc).op = 1
  active : (getSlot (postedSlot desc) s).use = .active
  phase : limitedPhase s = false
  lanes : s.cph.lanes.length = 8
  queue : s.cph.queue = []
  rested : ∀ l ∈ s.cph.lanes, l.job = none → l.saved = []
  idle : idleLanes s ≠ []

theorem cphRqPush_drawn {desc : List Word} (h : EncryptPosted desc s) (below : (getSlot (postedSlot desc) s).counter < ceilNow s)
    (small : (getSlot (postedSlot desc) s).counter < 2 ^ 63) :
    ∃ t n, exec (.cphRqPush desc) s = .next t ∧ n ∈ idleLanes s
      ∧ laneOf n t = { job := some { req := decodeRequest desc, drawn := true, limited := false, suspends := 0, order := s.cph.nextOrder
                                     posted := s.cph.nextPost, iv := mkIv s.mram.inst (getSlot (postedSlot desc) s).counter }
                       saved := [] }
      ∧ getSlot (postedSlot desc) t = { getSlot (postedSlot desc) s with counter := (getSlot (postedSlot desc) s).counter + 1 }
      ∧ (∀ x, x ≠ postedSlot desc → getSlot x t = getSlot x s)
      ∧ (∀ m, m ≠ n → laneOf m t = laneOf m s) ∧ t.cph.done = s.cph.done ∧ t.mram = s.mram ∧ t.jrn = s.jrn ∧ t.cart = s.cart := by
  obtain ⟨n, hn, push⟩ := cphRqPush_idle desc h.idle
  obtain ⟨bound, saved⟩ := mem_idleLanes hn
  let k : KeySlot := { getSlot (postedSlot desc) s with counter := (getSlot (postedSlot desc) s).counter + 1 }
  let j : CipherJob := { postedJob desc s with
    drawn := true, iv := mkIv s.mram.inst (getSlot (postedSlot desc) s).counter, limited := false }
  have draws : drawIv (postedSlot desc) (postedTo desc s)
      = (.drawn (mkIv s.mram.inst (getSlot (postedSlot desc) s).counter) false, countDraw (setSlot (postedSlot desc) k (postedTo desc s))) := by
    rw [drawIv_active (s := postedTo desc s) h.active h.phase]
    exact drawNormal_below (s := postedTo desc s) small below
  have start : startJob n (postedJob desc s) (postedTo desc s) = onLane n j (stamped (postedSlot desc) k j (postedTo desc s)) :=
    (startJob_encrypt (j := postedJob desc s) h.op n (postedTo desc s)).1 _ _ _ draws
  obtain ⟨lanes, queue, done, order, mram, jrn, cart⟩ := stamped_stays (postedSlot desc) k j (postedTo desc s)
  obtain ⟨same, others⟩ := stamped_slots (postedSlot desc) k j (postedTo desc s)
  generalize stamped (postedSlot desc) k j (postedTo desc s) = w at *
  have room : n < w.cph.lanes.length := by
    rw [lanes]
    exact h.lanes.symm ▸ bound
  have rested := onLane_rested room (lanesRested_congr lanes (lanesRested_of (s := postedTo desc s) h.rested)) j
  refine ⟨onLane n j w, n, ?_, hn, ?_, same, others, fun m hm => ?_, done, mram, jrn, cart⟩
  · rw [push, start, pumpLanes_idle (s := onLane n j w) (queue.trans h.queue) rested]
  · rw [onLane_lane room, laneOf_congr lanes, order]
    exact congrArg (Lane.mk _) saved
  · rw [onLane_others hm, laneOf_congr lanes]
    rfl

theorem cphRqPush_waits {desc : List Word} (h : EncryptPosted desc s) (above : ceilNow s ≤ (getSlot (postedSlot desc) s).counter)
    (small : (getSlot (postedSlot desc) s).counter < 2 ^ 63) :
    ∃ t, exec (.cphRqPush desc) s = .next t ∧ (∀ x, getSlot x t = getSlot x s) ∧ t.cph.lanes = s.cph.lanes
      ∧ t.cph.ceilWait = s.cph.ceilWait ++ [postedJob desc s]
      ∧ t.mram.ceilNext = some (s.mram.ceilNext.getD (ceilNow s + 2 ^ 20)) ∧ ceilNow t = ceilNow s ∧ t.cph.done = s.cph.done := by
  obtain ⟨n, -, push⟩ := cphRqPush_idle desc h.idle
  have draws : drawIv (postedSlot desc) (postedTo desc s) = (.wait, raiseCeil (postedTo desc s)) := by
    rw [drawIv_active (s := postedTo desc s) h.active h.phase]
    exact drawNormal_waits (s := postedTo desc s) small above
  have start := (startJob_encrypt (j := postedJob desc s) h.op n (postedTo desc s)).2.1 _ draws
  obtain ⟨cph, next, ceil⟩ := raiseCeil_ends (postedTo desc s)
  have rested := lanesRested_congr (congrArg Cph.lanes cph) (lanesRested_of (s := postedTo desc s) h.rested)
  refine ⟨ceilWaits (postedJob desc s) (raiseCeil (postedTo desc s)), ?_, fun x => (getSlot_ceilWaits cph x :),
    (congrArg Cph.lanes cph :), ?_, next, ceil, (congrArg Cph.done cph :)⟩
  · rw [push, start]
    exact congrArg Host.Outcome.next (pumpLanes_idle (s := ceilWaits _ _) ((congrArg Cph.queue cph).trans h.queue) rested)
  · exact (congrArg (fun c : Cph => c.ceilWait ++ [postedJob desc s]) cph :)

theorem exhaust_cph (x : Bool × Nat) (which : Nat) (s : State) :
    (exhaust x which s).cph = (setSlot x { getSlot x s with use := .exhausted } s).cph := by
  unfold exhaust
  dsimp only
  split
  · exact (raiseN_onlyEvents ..).cph
  · exact (raise_onlyEvents ..).cph

theorem cphRqPush_spent {desc : List Word} (h : EncryptPosted desc s) (spent : 2 ^ 63 ≤ (getSlot (postedSlot desc) s).counter) :
    ∃ t d, exec (.cphRqPush desc) s = .next t ∧ t.cph.done = s.cph.done ++ [d] ∧ d.result = 4 ∧ d.cookie = desc.getD 7 0
      ∧ (getSlot (postedSlot desc) t).use = .exhausted ∧ t.cph.lanes = s.cph.lanes := by
  obtain ⟨n, -, push⟩ := cphRqPush_idle desc h.idle
  have draws : drawIv (postedSlot desc) (postedTo desc s) = (.refused 4, exhaust (postedSlot desc) 0 (postedTo desc s)) := by
    rw [drawIv_active (s := postedTo desc s) h.active h.phase]
    exact drawNormal_spent (s := postedTo desc s) spent
  have start := (startJob_encrypt (j := postedJob desc s) h.op n (postedTo desc s)).2.2 _ _ draws
  have cph := exhaust_cph (postedSlot desc) 0 (postedTo desc s)
  obtain ⟨lanes, queue, done, -⟩ := setSlot_leaves (postedSlot desc)
    { getSlot (postedSlot desc) (postedTo desc s) with use := .exhausted } (postedTo desc s)
  rw [← cph] at lanes queue done
  have slot : (getSlot (postedSlot desc) (exhaust (postedSlot desc) 0 (postedTo desc s))).use = .exhausted := by
    rw [getSlot_congr cph, getSlot_setSlot_same]
  generalize exhaust (postedSlot desc) 0 (postedTo desc s) = w at *
  have rested : LanesRested (finishJob (postedJob desc s) n 4 w) :=
    lanesRested_congr (t := finishJob (postedJob desc s) n 4 w) lanes (lanesRested_of (s := postedTo desc s) h.rested)
  refine ⟨finishJob (postedJob desc s) n 4 w, _, ?_, (congrArg (· ++ [_]) done :), rfl, rfl, slot, lanes⟩
  rw [push, start, pumpLanes_idle (s := finishJob (postedJob desc s) n 4 w) (queue.trans h.queue) rested]

/-! ### Requests that are cancelled or end -/

theorem cphRqCancel_queued {c : Word} {j : CipherJob} (h : s.cph.queue.find? (·.req.cookie == c) = some j) :
    ∃ t d rest, exec (.cphRqCancel c) s = .next t ∧ t.cph.done = s.cph.done ++ d :: rest ∧ d.result = 6 ∧ d.cookie = c := by
  have cancel : cancelJob c s = finishJob j 0 6 (unqueue j s) := by rw [cancelJob, h]
  obtain ⟨rest, hr⟩ := pumpLanes_done (finishJob j 0 6 (unqueue j s))
  have cookie : j.req.cookie = c := by simpa using List.find?_some h
  refine ⟨pumpLanes (finishJob j 0 6 (unqueue j s)), ⟨6, 0, j.limited, j.suspends, j.iv, j.req.cookie⟩, rest, ?_, ?_, rfl, cookie⟩
  · rw [← cancel]
    rfl
  · rw [← hr]
    exact List.append_assoc ..

/-- The state after the request of a lane has run, with its completion. -/
def jobEnded (n : Nat) (j : CipherJob) (o : CipherOutcome) (s : State) : State :=
  finishJob j n (jobDone j o s).1 (setLane n (fun l => { l with job := none }) (jobDone j o s).2)

theorem cphRequestComplete_some {o : CipherOutcome} {j : CipherJob} (h : (laneOf n s).job = some j) :
    exec (.cphRequestComplete n o) s = .next (laneNext n (jobEnded n j o s)) := by
  change execCphRequestComplete n o s = _
  rw [execCphRequestComplete, h]
  rfl

theorem cphRequestComplete_none {o : CipherOutcome} (h : (laneOf n s).job = none) : exec (.cphRequestComplete n o) s = .next s := by
  change execCphRequestComplete n o s = _
  rw [execCphRequestComplete, h]

theorem jobEnded_ends {j : CipherJob} (hn : n < s.cph.lanes.length) (o : CipherOutcome) :
    (jobEnded n j o s).cph.done = s.cph.done ++ [⟨(jobDone j o s).1, n, j.limited, j.suspends, j.iv, j.req.cookie⟩]
      ∧ (jobEnded n j o s).cph.queue = s.cph.queue ∧ inService n (jobEnded n j o s) = inService n s
      ∧ laneOf n (jobEnded n j o s) = { laneOf n s with job := none } := by
  obtain ⟨lanes, queue, done, degraded⟩ := bench_parts (jobDone_bench j o s)
  unfold jobEnded
  generalize (jobDone j o s).2 = u at *
  refine ⟨(congrArg (· ++ [_]) done :), queue, (congrArg (fun b : BitVec 8 => !b.getLsbD n) degraded :), ?_⟩
  rw [← laneOf_congr lanes]
  exact laneOf_setLane_same (s := u) (by rw [lanes]; exact hn) _

theorem jobDone_result (j : CipherJob) (o : CipherOutcome) (s : State) :
    (j.req.op = 1 → (jobDone j o s).1 = 0) ∧ (j.req.op = 2 → o.tagOk = false → (jobDone j o s).1 = 1) := by
  refine ⟨fun h => ?_, fun h bad => ?_⟩
  · rw [jobDone, if_pos h]
  · rw [jobDone, if_neg (by omega), if_pos h, bad]
    rcases openFrameAt j.req.src.toNat j s with ⟨text, ok, u⟩
    exact if_neg (by simp)

/-- A lane that runs nothing, with nothing waiting: the newest suspended request resumes. -/
theorem laneNext_resumes (hq : s.cph.queue = []) (hs : inService n s = true) (hn : n < s.cph.lanes.length) (free : (laneOf n s).job = none) :
    laneOf n (laneNext n s) = { job := (laneOf n s).saved.getLast?.map (·.job), saved := (laneOf n s).saved.dropLast } := by
  have fill : laneNext n s = laneFill 1 n s := by rw [laneNext, hq]; rfl
  cases last : (laneOf n s).saved.getLast? with
  | none =>
    have empty := List.getLast?_eq_none_iff.1 last
    rw [laneNext_idle hq fun _ => empty]
    generalize laneOf n s = l at *
    obtain ⟨job, saved⟩ := l
    cases free
    cases empty
    rfl
  | some a =>
    have resumed : laneNext n s = resumeJob n a s := by
      rw [fill, laneFill, if_neg (by rw [free, hs]; decide), last, nextJob_none hq]
    rw [resumed]
    exact laneOf_setLane_same hn _

theorem cphRequestComplete_ends {o : CipherOutcome} {j : CipherJob} (h : (laneOf n s).job = some j) :
    ∃ t d rest, exec (.cphRequestComplete n o) s = .next t ∧ t.cph.done = s.cph.done ++ d :: rest
      ∧ d.result = (jobDone j o s).1 ∧ (j.req.op = 1 → d.result = 0) ∧ (j.req.op = 2 → o.tagOk = false → d.result = 1)
      ∧ (s.cph.queue = [] → (laneOf n s).saved = [] → t.mem = (jobDone j o s).2.mem) ∧ d.lane = n ∧ d.iv = j.iv ∧ d.cookie = j.req.cookie
      ∧ (s.cph.queue = [] → inService n s = true →
          laneOf n t = { job := (laneOf n s).saved.getLast?.map (·.job), saved := (laneOf n s).saved.dropLast }) := by
  have hn := lane_of_job h
  obtain ⟨done, queue, service, lane⟩ := jobEnded_ends (j := j) hn o
  obtain ⟨rest, hr⟩ := laneNext_done n (jobEnded n j o s)
  obtain ⟨encrypt, decrypt⟩ := jobDone_result j o s
  have room : n < (jobEnded n j o s).cph.lanes.length := by
    have lanes := (bench_parts (jobDone_bench j o s)).1
    change n < ((jobDone j o s).2.cph.lanes.modify n _).length
    rw [List.length_modify, lanes]
    exact hn
  refine ⟨_, ⟨(jobDone j o s).1, n, j.limited, j.suspends, j.iv, j.req.cookie⟩, rest, cphRequestComplete_some h, ?_, rfl, encrypt, decrypt,
    fun hq hs => ?_, rfl, rfl, rfl, fun hq hs => ?_⟩
  · rw [← hr, done]
    exact List.append_assoc ..
  · rw [laneNext_idle (queue.trans hq) fun _ => by rw [lane]; exact hs]
    rfl
  · rw [laneNext_resumes (queue.trans hq) (service.trans hs) room (by rw [lane]), lane]

/-- Settles O51: a draw moves the counter of its slot; what ends or is cancelled gives a completion. -/
theorem cipherRequests : Obligations.CipherRequests := by
  refine ⟨?_, ?_, ?_, fun c j s h => cphRqCancel_queued h, fun s d rest h => ?_, fun s h => ?_, fun n o s j h => cphRequestComplete_ends h,
    fun n o s h => cphRequestComplete_none h⟩
  · rintro desc s ⟨op, active, phase, below, small, -, lanes, queue, rested, idle⟩
    exact cphRqPush_drawn ⟨op, active, phase, lanes, queue, rested, idle⟩ below small
  · rintro desc s ⟨op, active, phase, above, small, lanes, queue, rested, idle⟩
    exact cphRqPush_waits ⟨op, active, phase, lanes, queue, rested, idle⟩ above small
  · rintro desc s ⟨op, active, phase, spent, lanes, queue, rested, idle⟩
    exact cphRqPush_spent ⟨op, active, phase, lanes, queue, rested, idle⟩ spent
  · change execCphCqPop s = _
    rw [execCphCqPop, h]
  · change execCphCqPop s = _
    rw [execCphCqPop, h]

end Sys2Proof.Proofs
end

section
/-! PROOFS. The Porter's operations (14 R354-R359, Tables 14-7, 14-8; O53). -/

namespace Sys2Proof.Proofs

open Sys2Proof.Machine Sys2Proof.Safety Sys2Proof.Laws

variable {s t : State}

/-! ### Buffer records -/

theorem fwResult_eq (o w : Nat) (s : State) :
    fwResult o w s = { s with prt := { s.prt with fwResult := if isCore o then wd w else s.prt.fwResult } } := by
  unfold fwResult
  split <;> rfl

theorem fwHandle_eq (o : Nat) (h : Word) (s : State) :
    fwHandle o h s = { s with prt := { s.prt with fwArg := if isCore o then h else s.prt.fwArg } } := by
  unfold fwHandle
  split <;> rfl

theorem getPool_setPool_same {p : Nat} (hp : p < s.prt.pools.length) (f : Pool → Pool) : getPool p (setPool p f s) = f (getPool p s) := by
  change (s.prt.pools.modify p f).getD p _ = f (s.prt.pools.getD p _)
  simp [List.getD_eq_getElem?_getD, List.getElem?_eq_getElem hp]

theorem getPool_setPool_other {p q : Nat} (h : q ≠ p) (f : Pool → Pool) (s : State) : getPool q (setPool p f s) = getPool q s := by
  change (s.prt.pools.modify p f).getD q _ = s.prt.pools.getD q _
  simp [List.getD_eq_getElem?_getD, h.symm]

theorem getBuf_congr (h : t.prt.pools = s.prt.pools) (p i : Nat) : getBuf p i t = getBuf p i s := by rw [getBuf, getBuf, getPool, getPool, h]

theorem getBuf_setBuf_same {p : Nat} (hp : p < s.prt.pools.length) (i : Nat) (b : BufRec) : getBuf p i (setBuf p i b s) = b := by
  rw [getBuf, setBuf, getPool_setPool_same hp]
  exact tabGet_tabSet ..

theorem getBuf_setBuf_other {p i q j : Nat} (h : (q, j) ≠ (p, i)) (b : BufRec) (s : State) : getBuf q j (setBuf p i b s) = getBuf q j s := by
  rw [getBuf, getBuf, setBuf]
  by_cases hq : q = p
  · subst hq
    by_cases hp : q < s.prt.pools.length
    · rw [getPool_setPool_same hp]
      exact tabGet_tabSet_ne _ _ _ fun hj => h (by rw [hj])
    · have outside : ∀ u : State, u.prt.pools.length = s.prt.pools.length → getPool q u = .reset 0 := fun u hu => by
        rw [getPool, List.getD_eq_default _ _ (by omega)]
      rw [outside s rfl, outside _ (List.length_modify ..)]
  · rw [getPool_setPool_other hq]

/-! ### Refusals -/

theorem refuse_parts (c o r : Nat) (h : Word) (s : State) :
    (refuse c o r h s).prt = { s.prt with
      refuseLog := s.prt.refuseLog.set s.prt.refusePtr
        { caller := c, gen := hGen h, index := hIndex h, pool := hPool h, op := o, reason := r, valid := true }
      refusePtr := (s.prt.refusePtr + 1) % 16, refusals := sat64 s.prt.refusals 1 }
    ∧ (refuse c o r h s).mem = s.mem ∧ (refuse c o r h s).mram = s.mram ∧ (refuse c o r h s).jrn = s.jrn := by
  have events := raise_onlyEvents evPrtRefused h.toNat (c + o * 2 ^ 8 + r * 2 ^ 11) { s with prt := { s.prt with
    refuseLog := s.prt.refuseLog.set s.prt.refusePtr
      { caller := c, gen := hGen h, index := hIndex h, pool := hPool h, op := o, reason := r, valid := true }
    refusePtr := (s.prt.refusePtr + 1) % 16, refusals := sat64 s.prt.refusals 1 } }
  exact ⟨device_prt events.device, (device_mem events.device :), (device_mram events.device :), (events.jrn :)⟩

theorem porterRefused (c o r : Nat) (h : Word) (s : State) :
    PorterRefused c o r h s (fwResult c (0x11 + if o = 0 then 0 else 2 ^ 8 + r * 2 ^ 9) (refuse c o r h s)) := by
  obtain ⟨prt, mem, mram, jrn⟩ := refuse_parts c o r h s
  rw [fwResult_eq]
  generalize refuse c o r h s = u at *
  refine ⟨(congrArg Prt.pools prt :), (congrArg Prt.waiting prt :), (congrArg Prt.refusals prt :), (congrArg Prt.refuseLog prt :),
    (congrArg Prt.refusePtr prt :), fun core => if_pos core, mem, mram, jrn⟩

theorem ownerOp_refused {op owner r : Nat} {h : Word} {other : Nat} (hop : op ≠ 0) (hr : refuseReason op owner h other s = some r) :
    PorterRefused owner op r h s (ownerOp op owner h other s) := by
  have refused := porterRefused owner op r h s
  rw [if_neg hop, ← Nat.add_assoc] at refused
  rw [ownerOp, hr]
  exact refused

/-! ### The checks of Table 14-8 -/

section
variable {op owner : Nat} {h : Word} {other : Nat}

theorem reason_badHandle (bad : ¬ handleGood h s) : refuseReason op owner h other s = some 1 := by
  unfold refuseReason
  refine if_pos ?_
  by_contra none
  obtain ⟨epoch, index, gen⟩ := not_or.1 none |>.imp_right not_or.1
  exact bad ⟨not_not.1 epoch, not_le.1 index, not_not.1 gen⟩

theorem reason_goodHandle (good : handleGood h s) : refuseReason op owner h other s =
    let b := getBuf (hPool h) (hIndex h) s
    if !b.allocated then some 2
    else if !b.owners.contains owner || (op = 3 && !b.owners.contains other) then some 3
    else if (op = 2 ∧ finalOwner b = owner) ∨ ((op = 3 ∨ op = 4) ∧ finalOwner b ≠ owner) then some 4
    else if op = 4 ∧ 1 < b.owners.length then some 5
    else if op = 1 ∧ b.owners.contains other then some 6
    else if op = 1 ∧ 8 ≤ b.owners.length then some 7
    else none := by
  obtain ⟨epoch, index, gen⟩ := good
  unfold refuseReason
  exact if_neg fun bad => bad.elim (fun h => h epoch) fun h => h.elim (fun h => absurd index (not_lt.2 h)) fun h => h gen

/-- The checks that follow the handle's, of a buffer that is allocated to the caller. -/
theorem reason_owned (good : handleGood h s) (alloc : (getBuf (hPool h) (hIndex h) s).allocated = true)
    (owned : owner ∈ (getBuf (hPool h) (hIndex h) s).owners) (third : op = 3 → other ∈ (getBuf (hPool h) (hIndex h) s).owners) :
    refuseReason op owner h other s =
      let b := getBuf (hPool h) (hIndex h) s
      if (op = 2 ∧ finalOwner b = owner) ∨ ((op = 3 ∨ op = 4) ∧ finalOwner b ≠ owner) then some 4
      else if op = 4 ∧ 1 < b.owners.length then some 5
      else if op = 1 ∧ other ∈ b.owners then some 6
      else if op = 1 ∧ 8 ≤ b.owners.length then some 7
      else none := by
  rw [reason_goodHandle good]
  have listed : ¬ (!(getBuf (hPool h) (hIndex h) s).owners.contains owner
      || (op = 3 && !(getBuf (hPool h) (hIndex h) s).owners.contains other)) = true := by
    by_cases h3 : op = 3
    · simp [owned, third h3]
    · simp [owned, h3]
  dsimp only
  rw [if_neg (by simp [alloc]), if_neg listed]
  simp only [List.contains_iff_mem]

end

/-- The checks of Table 14-8, in their order. -/
theorem refuseReason_table (op owner : Nat) (h : Word) (new : Nat) (s : State) (first : 1 ≤ op) (last : op ≤ 4) :
    let b := getBuf (hPool h) (hIndex h) s
    (¬ handleGood h s → refuseReason op owner h new s = some 1)
    ∧ (handleGood h s → b.allocated = false → refuseReason op owner h new s = some 2)
    ∧ (handleGood h s → b.allocated = true → owner ∉ b.owners → refuseReason op owner h new s = some 3)
    ∧ (handleGood h s → b.allocated = true → owner ∈ b.owners → finalOwner b = owner → 1 < b.owners.length →
        refuseReason 2 owner h new s = some 4 ∧ refuseReason 4 owner h new s = some 5)
    ∧ (handleGood h s → b.allocated = true → owner ∈ b.owners → finalOwner b ≠ owner →
        refuseReason 4 owner h new s = some 4 ∧ (new ∈ b.owners → refuseReason 3 owner h new s = some 4))
    ∧ (handleGood h s → b.allocated = true → owner ∈ b.owners → new ∈ b.owners → refuseReason 1 owner h new s = some 6)
    ∧ (handleGood h s → b.allocated = true → owner ∈ b.owners → new ∉ b.owners → 8 ≤ b.owners.length →
        refuseReason 1 owner h new s = some 7) := by
  refine ⟨reason_badHandle, fun good free => ?_, fun good alloc out => ?_, fun good alloc owned final many => ⟨?_, ?_⟩,
    fun good alloc owned final => ⟨?_, fun hn => ?_⟩, fun good alloc owned hn => ?_, fun good alloc owned hn full => ?_⟩
  · rw [reason_goodHandle good]
    exact if_pos (by simp [free])
  · rw [reason_goodHandle good]
    simp [alloc, out]
  · rw [reason_owned good alloc owned (fun h => absurd h (by decide))]
    simp [final]
  · rw [reason_owned good alloc owned (fun h => absurd h (by decide))]
    simp [final, many]
  · rw [reason_owned good alloc owned (fun h => absurd h (by decide))]
    simp [final]
  · rw [reason_owned good alloc owned fun _ => hn]
    simp [final]
  · rw [reason_owned good alloc owned (fun h => absurd h (by decide))]
    simp [hn]
  · rw [reason_owned good alloc owned (fun h => absurd h (by decide))]
    simp [hn, full]

/-! ### Operations that pass -/

theorem ownerOp_passed {op owner : Nat} {h : Word} {other : Nat} (hr : refuseReason op owner h other s = none) :
    ownerOp op owner h other s = fwResult owner 0 (applyOwner op owner h other s) := by rw [ownerOp, hr]

theorem hPool_lt (h : Word) : hPool h < 4 := by
  rw [hPool, bits, bitsN]
  exact Nat.mod_lt _ (by decide)

theorem bufferBecomes_setBuf (owner : Nat) (h : Word) (b : BufRec) (hp : s.prt.pools.length = 4) :
    BufferBecomes h b s (fwResult owner 0 (setBuf (hPool h) (hIndex h) b s)) := by
  rw [fwResult_eq]
  exact ⟨getBuf_setBuf_same (by rw [hp]; exact hPool_lt h) (hIndex h) b, fun p i hi => getBuf_setBuf_other hi b s, rfl, rfl, rfl, rfl⟩

theorem indexOf_mem {l : List Nat} {x : Nat} (h : x ∈ l) : ∃ i, indexOf? (· == x) l = some i ∧ l.getD i 0 = x := by
  induction l with
  | nil => cases h
  | cons a l ih =>
    rw [indexOf?]
    by_cases ha : a = x
    · exact ⟨0, if_pos (by simpa using ha), ha⟩
    · obtain ⟨i, hi, at_i⟩ := ih ((List.mem_cons.1 h).resolve_left (Ne.symm ha))
      exact ⟨i + 1, by rw [if_neg (by simpa using ha), hi]; rfl, at_i⟩

/-- A buffer without one of its owners: the final owner is the one named, where it is still listed. -/
theorem dropOwner_final {o fin : Nat} {b : BufRec} (hf : fin ∈ b.owners) (hne : fin ≠ o) : finalOwner (dropOwner o fin b) = fin := by
  obtain ⟨i, hi, at_i⟩ := indexOf_mem (List.mem_filter.2 ⟨hf, by simpa using hne⟩ : fin ∈ b.owners.filter (· != o))
  rw [finalOwner, dropOwner]
  dsimp only
  rw [hi]
  exact at_i

theorem ownerOp_becomes {op owner : Nat} {h : Word} {other : Nat} {b : BufRec} (hp : s.prt.pools.length = 4)
    (hr : refuseReason op owner h other s = none) (hb : applyOwner op owner h other s = setBuf (hPool h) (hIndex h) b s) :
    BufferBecomes h b s (ownerOp op owner h other s) := by
  rw [ownerOp_passed hr, hb]
  exact bufferBecomes_setBuf owner h b hp

section
variable {owner new : Nat} {h : Word} (hp : s.prt.pools.length = 4) (good : handleGood h s)
  (alloc : (getBuf (hPool h) (hIndex h) s).allocated = true) (owned : owner ∈ (getBuf (hPool h) (hIndex h) s).owners)
include hp good alloc owned

theorem share_passes (fresh : new ∉ (getBuf (hPool h) (hIndex h) s).owners) (room : (getBuf (hPool h) (hIndex h) s).owners.length < 8) :
    ∃ t, exec (.share owner h new) s = .next t
      ∧ BufferBecomes h { getBuf (hPool h) (hIndex h) s with owners := (getBuf (hPool h) (hIndex h) s).owners ++ [new] } s t := by
  refine ⟨_, rfl, ownerOp_becomes hp ?_ rfl⟩
  rw [reason_owned good alloc owned (fun h => absurd h (by decide))]
  simp [fresh, room]

theorem release_passes (final : finalOwner (getBuf (hPool h) (hIndex h) s) ≠ owner) :
    ∃ t c, exec (.release owner h) s = .next t ∧ BufferBecomes h c s t
      ∧ c.owners = (getBuf (hPool h) (hIndex h) s).owners.filter (· != owner) ∧ c.allocated = true
      ∧ c.gen = (getBuf (hPool h) (hIndex h) s).gen
      ∧ (finalOwner (getBuf (hPool h) (hIndex h) s) ∈ (getBuf (hPool h) (hIndex h) s).owners →
          finalOwner c = finalOwner (getBuf (hPool h) (hIndex h) s)) := by
  refine ⟨_, dropOwner owner (finalOwner (getBuf (hPool h) (hIndex h) s)) (getBuf (hPool h) (hIndex h) s), rfl, ownerOp_becomes hp ?_ rfl,
    rfl, alloc, rfl, fun listed => dropOwner_final listed final⟩
  rw [reason_owned good alloc owned (fun h => absurd h (by decide))]
  simp [final]

theorem transfer_passes (listed : new ∈ (getBuf (hPool h) (hIndex h) s).owners) (final : finalOwner (getBuf (hPool h) (hIndex h) s) = owner)
    (hne : new ≠ owner) :
    ∃ t c, exec (.transfer owner h new) s = .next t ∧ BufferBecomes h c s t
      ∧ c.owners = (getBuf (hPool h) (hIndex h) s).owners.filter (· != owner) ∧ c.allocated = true
      ∧ c.gen = (getBuf (hPool h) (hIndex h) s).gen ∧ finalOwner c = new := by
  refine ⟨_, dropOwner owner new (getBuf (hPool h) (hIndex h) s), rfl, ownerOp_becomes hp ?_ ?_, rfl, alloc, rfl,
    dropOwner_final listed hne⟩
  · rw [reason_owned good alloc owned fun _ => listed]
    simp [final]
  · exact congrArg (fun b => setBuf (hPool h) (hIndex h) b s) (if_neg (Ne.symm hne))

/-- A buffer that is freed: a second FREE of it finds no buffer that is allocated. -/
theorem free_passes (final : finalOwner (getBuf (hPool h) (hIndex h) s) = owner)
    (alone : (getBuf (hPool h) (hIndex h) s).owners.length ≤ 1) :
    ∃ t, exec (.free owner h) s = .next t
      ∧ BufferBecomes h { allocated := false, gen := (getBuf (hPool h) (hIndex h) s).gen, owners := [], final := 0, returning := true } s t
      ∧ ∀ other, ∃ u, exec (.free other h) t = .next u ∧ PorterRefused other 4 2 h t u := by
  have becomes : BufferBecomes h { allocated := false, gen := (getBuf (hPool h) (hIndex h) s).gen, owners := [], final := 0, returning := true } s
      (ownerOp 4 owner h 0 s) := by
    refine ownerOp_becomes hp ?_ rfl
    rw [reason_owned good alloc owned (fun h => absurd h (by decide))]
    simp [final, alone]
  refine ⟨_, rfl, becomes, fun other => ⟨_, rfl, ownerOp_refused (by decide) ?_⟩⟩
  obtain ⟨freed, -, -, -, mram, -⟩ := becomes
  obtain ⟨epoch, index, gen⟩ := good
  have still : handleGood h (ownerOp 4 owner h 0 s) := ⟨by rw [mram]; exact epoch, index, by rw [freed]; exact gen⟩
  exact (refuseReason_table 4 other h 0 _ (by decide) (by decide)).2.1 still (by rw [freed])

end

/-! ### ALLOC -/

theorem porterTry_none {owner size : Nat} (h : grantPool owner (poolFor size) s = none) : porterTry owner size s = none := by
  unfold porterTry
  dsimp only
  rw [h]

/-- The state in which a pool of a larger size than asked for is counted. -/
def fellBack (b : Bool) (s : State) : State := if b then { s with prt := { s.prt with fallbacks := sat64 s.prt.fallbacks 1 } } else s

theorem porterTry_some {owner size p : Nat} (h : grantPool owner (poolFor size) s = some p) :
    porterTry owner size s = some (takeBuf p owner (fellBack (decide (poolFor size < p)) s)) := by
  unfold porterTry
  dsimp only
  rw [h]
  refine congrArg (fun u => some (takeBuf p owner u)) ?_
  unfold fellBack
  by_cases fell : poolFor size < p <;> simp [fell]

/-- A pool that grants is large enough and has a buffer that may be taken. -/
theorem grantPool_some {owner own p : Nat} (h : grantPool owner own s = some p) : p < 4 ∧ own ≤ p ∧ usedBufs p s < poolCount p := by
  have range := List.mem_range.1 (List.mem_of_find?_eq_some h)
  have can := List.find?_some h
  simp only [Bool.and_eq_true, decide_eq_true_eq] at can
  obtain ⟨large, can⟩ := can
  have some_free : 1 ≤ poolCount p - usedBufs p s := by
    refine can.trans ?_
    unfold takable
    dsimp only
    split_ifs <;> omega
  exact ⟨range, large, by omega⟩

theorem size_le_bufBytes {size p : Nat} (hs : sizeOk size = true) (hp : p < 4) (large : poolFor size ≤ p) : size ≤ bufBytes p := by
  have most : size ≤ 8388608 := by
    simp only [sizeOk, Bool.and_eq_true, decide_eq_true_eq] at hs
    exact hs.2
  unfold poolFor at large
  obtain rfl | rfl | rfl | rfl : p = 0 ∨ p = 1 ∨ p = 2 ∨ p = 3 := by omega
  all_goals
    change size ≤ _
    split_ifs at large <;> simp [bufBytes] <;> omega

/-- A key whose value is not the default is listed with it. -/
theorem mem_of_tabGet {α : Type} {d x : α} {l : Table α} {a : Nat} (h : tabGet d l a = x) (hd : x ≠ d) : (a, x) ∈ l := by
  induction l with
  | nil => exact absurd h.symm hd
  | cons kv l ih =>
    obtain ⟨k, v⟩ := kv
    rw [tabGet] at h
    split at h
    · next hk => rw [hk, ← h]; exact List.mem_cons_self
    · exact List.mem_cons_of_mem _ (ih h)

/-- A pool of which not every buffer is used has one that is not busy. -/
theorem exists_free {p : Nat} (h : usedBufs p s < poolCount p) : ∃ i < poolCount p, busyBuf (getBuf p i s) = false := by
  by_contra none
  push Not at none
  have busy : List.range (poolCount p) ⊆ ((getPool p s).bufs.filter fun kv => busyBuf kv.2).map (·.1) := by
    intro i hi
    have used : busyBuf (getBuf p i s) = true := by simpa using none i (List.mem_range.1 hi)
    have listed : (i, getBuf p i s) ∈ (getPool p s).bufs := mem_of_tabGet rfl fun fresh => by
      rw [fresh] at used
      exact absurd used (by decide)
    exact List.mem_map.2 ⟨_, List.mem_filter.2 ⟨listed, used⟩, rfl⟩
  have many := (List.nodup_range.subperm busy).length_le
  rw [List.length_range, List.length_map] at many
  exact absurd h (Nat.not_lt.2 many)

theorem freeIndex_free {p : Nat} (h : usedBufs p s < poolCount p) : freeIndex p s < poolCount p ∧ busyBuf (getBuf p (freeIndex p s) s) = false := by
  obtain ⟨i, hi, free⟩ := exists_free h
  have listed : i ∈ (List.range (poolCount p)).filter fun i => !busyBuf (getBuf p i s) :=
    List.mem_filter.2 ⟨List.mem_range.2 hi, by simp [free]⟩
  have chosen : freeIndex p s ∈ (List.range (poolCount p)).filter fun i => !busyBuf (getBuf p i s) := by
    have small := Nat.mod_lt (Config.freeNat s.freeCount) (List.length_pos_of_mem listed)
    unfold freeIndex
    dsimp only
    rw [List.getD_eq_getElem _ _ small]
    exact List.getElem_mem small
  obtain ⟨range, open_⟩ := List.mem_filter.1 chosen
  exact ⟨List.mem_range.1 range, by simpa using open_⟩

/-- A buffer record that its first owner takes. -/
def takenBuf (g owner : Nat) : BufRec := { allocated := true, gen := nextGen g, owners := [owner], final := 0, returning := false }

theorem takeBuf_ends {p owner : Nat} (hp : p < s.prt.pools.length) :
    let t := (takeBuf p owner s).2
    (takeBuf p owner s).1 = mkHandle (nextGen (getBuf p (freeIndex p s) s).gen) (freeIndex p s) p s.mram.prtEpoch
      ∧ getBuf p (freeIndex p s) t = takenBuf (getBuf p (freeIndex p s) s).gen owner
      ∧ (∀ q j, (q, j) ≠ (p, freeIndex p s) → getBuf q j t = getBuf q j s) ∧ t.prt.allocs = sat64 s.prt.allocs 1 ∧ t.mem = s.mem
      ∧ t.prt.refusals = s.prt.refusals ∧ t.prt.waiting = s.prt.waiting := by
  let u := setBuf p (freeIndex p s) (takenBuf (getBuf p (freeIndex p s) s).gen owner) s
  have won : ∀ q j, getBuf q j (takeBuf p owner s).2 = getBuf q j u := by
    intro q j
    change tabGet .fresh (getPool q (setPool p (fun x => { x with lastWin := x.lastWin.set (ownerClass owner) owner }) u)).bufs j = _
    by_cases hq : q = p
    · rw [hq, getPool_setPool_same (by change p < (s.prt.pools.modify p _).length; rwa [List.length_modify])]
      rfl
    · rw [getPool_setPool_other hq]
      rfl
  exact ⟨rfl, (won _ _).trans (getBuf_setBuf_same hp ..), fun q j h => (won q j).trans (getBuf_setBuf_other h ..), rfl, rfl, rfl, rfl⟩

theorem alloc_granted {owner size p : Nat} (wait : Bool) (hs : sizeOk size = true) (hp : s.prt.pools.length = 4)
    (hg : grantPool owner (poolFor size) s = some p) :
    ∃ t i, exec (.alloc owner size wait) s = .next t ∧ size ≤ bufBytes p ∧ i < poolCount p ∧ busyBuf (getBuf p i s) = false
      ∧ getBuf p i t = takenBuf (getBuf p i s).gen owner
      ∧ (∀ q j, (q, j) ≠ (p, i) → getBuf q j t = getBuf q j s) ∧ t.prt.allocs = sat64 s.prt.allocs 1
      ∧ (isCore owner = true → t.prt.fwArg = mkHandle (nextGen (getBuf p i s).gen) i p s.mram.prtEpoch ∧ t.prt.fwResult = 0)
      ∧ t.mem = s.mem ∧ t.prt.refusals = s.prt.refusals ∧ t.prt.waiting = s.prt.waiting := by
  obtain ⟨small, large, room⟩ := grantPool_some hg
  have run : exec (.alloc owner size wait) s = .next (allocOp owner size wait s) := rfl
  have passed : ¬ (!sizeOk size) = true := by simp [hs]
  rw [run, allocOp, if_neg passed, porterTry_some hg]
  have same : ∃ f, fellBack (decide (poolFor size < p)) s = { s with prt := { s.prt with fallbacks := f } } := by
    unfold fellBack
    split
    · exact ⟨_, rfl⟩
    · exact ⟨s.prt.fallbacks, rfl⟩
  obtain ⟨f, same⟩ := same
  rw [same]
  let u : State := { s with prt := { s.prt with fallbacks := f } }
  obtain ⟨range, free⟩ := freeIndex_free (s := u) room
  obtain ⟨handle, taken, others, allocs, mem, refusals, waiting⟩ := takeBuf_ends (s := u) (owner := owner) (p := p) (by exact hp ▸ small)
  refine ⟨fwHandle owner (takeBuf p owner u).1 (fwResult owner 0 (takeBuf p owner u).2), freeIndex p u, rfl,
    size_le_bufBytes hs small large, range, free, ?_⟩
  rw [fwResult_eq, fwHandle_eq, handle]
  generalize (takeBuf p owner u).2 = w at *
  exact ⟨taken, others, allocs, fun core => ⟨if_pos core, if_pos core⟩, mem, refusals, waiting⟩

theorem alloc_waits {owner size : Nat} (hs : sizeOk size = true) (hg : grantPool owner (poolFor size) s = none) :
    exec (.alloc owner size true) s = .next { s with prt := { s.prt with waiting := s.prt.waiting ++ [(owner, size)] } } := by
  have passed : ¬ (!sizeOk size) = true := by simp [hs]
  change execAlloc owner size true s = _
  rw [execAlloc, allocOp, if_neg passed, porterTry_none hg]
  rfl

theorem alloc_noBuffer {owner size : Nat} (hs : sizeOk size = true) (hg : grantPool owner (poolFor size) s = none) :
    ∃ t, exec (.alloc owner size false) s = .next t ∧ t.prt.noBuffer = sat64 s.prt.noBuffer 1 ∧ t.prt.pools = s.prt.pools
      ∧ (isCore owner = true → t.prt.fwResult = 0x30) ∧ t.prt.waiting = s.prt.waiting ∧ t.mem = s.mem := by
  have passed : ¬ (!sizeOk size) = true := by simp [hs]
  have events := raise_onlyEvents evPrtNoBuffer owner size { s with prt := { s.prt with noBuffer := sat64 s.prt.noBuffer 1 } }
  have prt : (noBuffer owner size s).prt = { s.prt with noBuffer := sat64 s.prt.noBuffer 1 } := device_prt events.device
  have mem : (noBuffer owner size s).mem = s.mem := (device_mem events.device :)
  refine ⟨fwResult owner 0x30 (noBuffer owner size s), ?_, ?_⟩
  · change execAlloc owner size false s = _
    rw [execAlloc, allocOp, if_neg passed, porterTry_none hg]
    rfl
  · rw [fwResult_eq]
    generalize noBuffer owner size s = u at *
    exact ⟨(congrArg Prt.noBuffer prt :), (congrArg Prt.pools prt :), fun core => if_pos core, (congrArg Prt.waiting prt :), mem⟩

theorem alloc_refused {owner size : Nat} (wait : Bool) (hs : size = 0 ∨ 8388608 < size) :
    ∃ t, exec (.alloc owner size wait) s = .next t ∧ PorterRefused owner 0 0 (wd size) s t := by
  have refused : (!sizeOk size) = true := by
    simp only [sizeOk, Bool.not_eq_true', Bool.and_eq_false_iff, decide_eq_false_iff_not]
    omega
  refine ⟨_, ?_, porterRefused owner 0 0 (wd size) s⟩
  change execAlloc owner size wait s = _
  rw [execAlloc, allocOp, if_pos refused]
  rfl

/-- Settles O53: the Porter hands out a free buffer of a pool that is large enough, and what its checks refuse changes no record. -/
theorem porterOperations : Obligations.PorterOperations := by
  refine ⟨fun owner size wait s p hs hp hg => alloc_granted wait hs hp hg, fun owner size s hs hg => alloc_waits hs hg,
    fun owner size s hs hg => alloc_noBuffer hs hg, fun owner size wait s hs => alloc_refused wait hs, ?_, ?_,
    fun op owner h new s first last => refuseReason_table op owner h new s first last⟩
  · intro owner h new s hp
    refine ⟨?_, ?_, ?_, ?_⟩
    · rintro ⟨good, alloc, owned, fresh, room⟩
      exact share_passes hp good alloc owned fresh room
    · rintro ⟨good, alloc, owned, final⟩
      exact release_passes hp good alloc owned final
    · rintro ⟨good, alloc, owned, listed, final, hne⟩
      exact transfer_passes hp good alloc owned listed final hne
    · rintro ⟨good, alloc, owned, final, alone⟩
      exact free_passes hp good alloc owned final alone
  · intro owner h new s r
    exact ⟨fun hr => ⟨_, rfl, ownerOp_refused (by decide) hr⟩, fun hr => ⟨_, rfl, ownerOp_refused (by decide) hr⟩,
      fun hr => ⟨_, rfl, ownerOp_refused (by decide) hr⟩, fun hr => ⟨_, rfl, ownerOp_refused (by decide) hr⟩⟩

end Sys2Proof.Proofs
end

section
/-! PROOFS. Frames of the head link (11 R284, R286; O49). -/

namespace Sys2Proof.Proofs

open Sys2Proof.Machine Sys2Proof.Safety Sys2Proof.Laws

/-- A lane in the mask and locked whose count of block errors stands above the 16 bits of Table 11-13. -/
def overfullLane : HlkLane := { HlkLane.reset with active := true, locked := true, blockErr := 65536 }

/-- A head link of that lane. -/
def overfullLink : State := { State.reset with hlk := { Hlk.reset with lanes := [overfullLane] } }

/-- A row of no blocks on lane 0. -/
def emptyRow : LinkFrame := { lane := 0, before := 0, blocks := [] }

/-- No block error is counted of a row without blocks: the lane's count stays as it stands, and is not brought down to 65,535. -/
theorem samples_emptyRow : exec (.samples emptyRow) overfullLink = .next overfullLink := rfl

/-- Refutes O49: its clause for blocks that begin no frame gives the lane min 65535 (BLOCK_ERR + errors) in every state. With no block
error the model leaves the lane alone, so a state whose count stands at 65,536 keeps it. -/
theorem not_headLinkFramesAndLanes : ¬ Obligations.HeadLinkFramesAndLanes := by
  unfold Obligations.HeadLinkFramesAndLanes
  rintro ⟨⟨-, counted, -⟩, -⟩
  obtain ⟨t, run, hlk, -⟩ := counted emptyRow overfullLink rfl rfl (.samples emptyRow) (.inl rfl)
  have same : overfullLink = t := Host.Outcome.next.inj (samples_emptyRow.symm.trans run)
  have counts : overfullLink.hlk.lanes.map (·.blockErr) = [65535] := by
    rw [same, hlk]
    rfl
  exact absurd counts (by decide)

end Sys2Proof.Proofs
end

section
/-! PROOFS. Thermal samples, failed sensors and the thermal cap (15 R378-R387; O54). -/

namespace Sys2Proof.Proofs

open Sys2Proof.Machine Sys2Proof.Safety Sys2Proof.Laws

variable {s t : State}

/-! ### What thermal work leaves -/

@[simp] theorem modThm_helm (n : Nat) (f : ThmSensor → ThmSensor) (s : State) : (modThm n f s).helm = s.helm := by
  unfold modThm; simp
@[simp] theorem refreshEff_helm (s : State) : (refreshEff s).helm = s.helm := by
  unfold refreshEff; simp
@[simp] theorem refreshRates_helm (s : State) : (refreshRates s).helm = s.helm := by
  unfold refreshRates; refine foldl_helm (fun s x => ?_) _ _; (repeat' split) <;> simp
@[simp] theorem sensorStays_helm (n : Nat) (s : State) : (sensorStays n s).helm = s.helm := by
  unfold sensorStays; simp
@[simp] theorem failSensor_helm (n : Nat) (c2 : Option Int) (s : State) : (failSensor n c2 s).helm = s.helm := by
  unfold failSensor; (repeat' split) <;> simp
@[simp] theorem readmit_helm (n : Nat) (raw : Int) (s : State) : (readmit n raw s).helm = s.helm := by
  unfold readmit; simp
@[simp] theorem checkGrid_helm (n : Nat) (raw : Int) (s : State) : (checkGrid n raw s).helm = s.helm := by
  unfold checkGrid; (repeat' split) <;> simp
@[simp] theorem checkWeighhouse_helm (raw : Int) (s : State) : (checkWeighhouse raw s).helm = s.helm := by
  unfold checkWeighhouse; simp
@[simp] theorem chooseRate_helm (s : State) : (chooseRate s).helm = s.helm := by
  unfold chooseRate; simp [-ite_jrn]
@[simp] theorem sampleSensor_helm (sensor : Nat) (raw : Int) (s : State) : (sampleSensor sensor raw s).helm =
    s.helm := by
  unfold sampleSensor; dsimp only; (repeat' split) <;> simp

theorem gear_thm (h : t.gear = s.gear) : t.thm = s.thm := by
  simp only [State.gear, Prod.mk.injEq] at h
  exact h.2.2.1

/-! ### Sensors -/

theorem getThm_congr (h : t.thm = s.thm) (k : Nat) : getThm k t = getThm k s := by rw [getThm, getThm, h]

theorem modThm_thm (h : t.thm = s.thm) (n : Nat) (f : ThmSensor → ThmSensor) : (modThm n f t).thm = (modThm n f s).thm := by
  rw [modThm, modThm, h]

theorem getThm_modThm_same {n : Nat} (hn : n < s.thm.sensors.length) (f : ThmSensor → ThmSensor) : getThm n (modThm n f s) = f (getThm n s) := by
  change (s.thm.sensors.modify n f).getD n _ = f (s.thm.sensors.getD n _)
  simp [List.getD_eq_getElem?_getD, List.getElem?_eq_getElem hn]

theorem getThm_modThm_other {n k : Nat} (h : k ≠ n) (f : ThmSensor → ThmSensor) (s : State) : getThm k (modThm n f s) = getThm k s := by
  change (s.thm.sensors.modify n f).getD k _ = s.thm.sensors.getD k _
  simp [List.getD_eq_getElem?_getD, h.symm]

/-- A sensor that does not exist is not changed. -/
theorem getThm_modThm_absent {n : Nat} (hn : ¬ n < s.thm.sensors.length) (f : ThmSensor → ThmSensor) (k : Nat) :
    getThm k (modThm n f s) = getThm k s := by
  have same : s.thm.sensors.modify n f = s.thm.sensors := List.modify_eq_self (Nat.not_lt.1 hn)
  change (s.thm.sensors.modify n f).getD k _ = _
  rw [same]
  rfl

/-- From s to t no reading that was sampled, no failure and not the cap has changed: at most rates, and what failed sensors count as. -/
structure OnlyReadings (s t : State) : Prop where
  raw : ∀ k, (getThm k t).raw = (getThm k s).raw
  state : ∀ k, (getThm k t).state = (getThm k s).state
  eff : ∀ k, (getThm k s).state = 0 → (getThm k t).eff = (getThm k s).eff
  failures : t.thm.failures = s.thm.failures
  cap : t.thm.cap = s.thm.cap
  hold : t.thm.holdEnd = s.thm.holdEnd

namespace OnlyReadings

theorem refl (s : State) : OnlyReadings s s := ⟨fun _ => rfl, fun _ => rfl, fun _ _ => rfl, rfl, rfl, rfl⟩

theorem trans {u : State} (h : OnlyReadings s t) (h' : OnlyReadings t u) : OnlyReadings s u :=
  ⟨fun k => (h'.raw k).trans (h.raw k), fun k => (h'.state k).trans (h.state k),
    fun k hk => (h'.eff k ((h.state k).trans hk)).trans (h.eff k hk), h'.failures.trans h.failures, h'.cap.trans h.cap, h'.hold.trans h.hold⟩

/-- A change of one sensor that keeps what it was sampled at, whether it failed and, in service, its reading. -/
theorem modThm (n : Nat) (f : ThmSensor → ThmSensor) (s : State) (raw : (f (getThm n s)).raw = (getThm n s).raw)
    (state : (f (getThm n s)).state = (getThm n s).state) (eff : (getThm n s).state = 0 → (f (getThm n s)).eff = (getThm n s).eff) :
    OnlyReadings s (modThm n f s) := by
  have sensor : ∀ k, getThm k (Machine.modThm n f s) = getThm k s ∨ (k = n ∧ getThm k (Machine.modThm n f s) = f (getThm n s)) := by
    intro k
    by_cases hn : n < s.thm.sensors.length
    · by_cases hk : k = n
      · exact .inr ⟨hk, hk ▸ getThm_modThm_same hn f⟩
      · exact .inl (getThm_modThm_other hk f s)
    · exact .inl (getThm_modThm_absent hn f k)
  refine ⟨fun k => ?_, fun k => ?_, fun k hk => ?_, rfl, rfl, rfl⟩
  · rcases sensor k with h | ⟨rfl, h⟩
    · rw [h]
    · rw [h, raw]
  · rcases sensor k with h | ⟨rfl, h⟩
    · rw [h]
    · rw [h, state]
  · rcases sensor k with h | ⟨rfl, h⟩
    · rw [h]
    · rw [h, eff hk]

theorem foldl {f : State → Nat → State} (hf : ∀ s n, OnlyReadings s (f s n)) (l : List Nat) (s : State) : OnlyReadings s (l.foldl f s) := by
  induction l generalizing s with
  | nil => exact refl s
  | cons n l ih => exact (hf s n).trans (ih _)

end OnlyReadings

theorem refreshEff_onlyReadings (s : State) : OnlyReadings s (refreshEff s) := by
  unfold refreshEff
  refine .foldl (fun s n => ?_) _ s
  split
  · exact .refl s
  · next failed => exact .modThm n _ s rfl rfl fun h => absurd h failed

theorem refreshRates_onlyReadings (s : State) : OnlyReadings s (refreshRates s) := by
  have drawn : ∀ u : State, OnlyReadings u (drawFree u) := fun _ => ⟨fun _ => rfl, fun _ => rfl, fun _ _ => rfl, rfl, rfl, rfl⟩
  unfold refreshRates
  refine .foldl (fun s n => ?_) _ s
  split
  · exact .refl s
  · split
    · exact .modThm n _ s rfl rfl fun _ => rfl
    · exact (drawn s).trans (.modThm n _ (drawFree s) rfl rfl fun _ => rfl)

theorem chooseRate_onlyReadings (s : State) : OnlyReadings s (chooseRate s) := by
  have cooled : ∀ (b : Bool) (u : State) x, OnlyReadings u (if b then { u with thm := { u.thm with coolSince := x } } else u) := by
    intro b u x
    split <;> exact ⟨fun _ => rfl, fun _ => rfl, fun _ _ => rfl, rfl, rfl, rfl⟩
  have chosen : ∀ (u : State) (slow : Bool), OnlyReadings u
      (if nearLevel 80 u then { u with thm := { u.thm with fast := true } }
      else if slow then { u with thm := { u.thm with fast := false } } else u) := by
    intro u slow
    split_ifs
    · exact ⟨fun _ => rfl, fun _ => rfl, fun _ _ => rfl, rfl, rfl, rfl⟩
    · exact ⟨fun _ => rfl, fun _ => rfl, fun _ _ => rfl, rfl, rfl, rfl⟩
    · exact .refl u
  exact (cooled (nearLevel 96 s) s s.aon.time).trans (chosen ..)

/-! ### A sample -/

/-- The rate that a sample gives a sensor in service. -/
def sampleRate (n : Nat) (raw : Int) (now : Nat) (s : State) : State :=
  match oldSample now (getThm n s).samples with
  | some (t, v) => if (getThm n s).state = 0 then modThm n (fun x => { x with rate := rateBetween t v now raw }) s else s
  | none => s

theorem sampleRate_onlyReadings (n : Nat) (raw : Int) (now : Nat) (s : State) : OnlyReadings s (sampleRate n raw now s) := by
  unfold sampleRate
  split
  · split
    · exact .modThm n _ s rfl rfl fun _ => rfl
    · exact .refl s
  · exact .refl s

/-- A sensor's sample before its checks. -/
def sampleTaken (n : Nat) (raw : Int) (s : State) : State :=
  modThm n (fun x => { x with
    raw := raw, eff := if x.state = 0 then raw else x.eff, lastAt := some s.aon.time
    samples := keepSamples s.aon.time (x.samples ++ [(s.aon.time, raw)]) }) s

/-- The checks of a sample. -/
def sampleChecked (n : Nat) (raw : Int) (s : State) : State :=
  if n = 32 then checkWeighhouse raw (sampleTaken n raw s) else checkGrid n raw (sampleTaken n raw s)

theorem sampleSensor_eq (n : Nat) (raw : Int) (s : State) :
    sampleSensor n raw s = chooseRate (refreshRates (refreshEff (sampleRate n raw s.aon.time (sampleChecked n raw s)))) := rfl

theorem sampleSensor_onlyReadings (n : Nat) (raw : Int) (s : State) : OnlyReadings (sampleChecked n raw s) (sampleSensor n raw s) := by
  rw [sampleSensor_eq]
  exact (sampleRate_onlyReadings ..).trans ((refreshEff_onlyReadings _).trans ((refreshRates_onlyReadings _).trans (chooseRate_onlyReadings _)))

theorem thermalSample_runs (n : Nat) (raw : Int) (at_ : Nat) (h : s.sys.phase ≠ .off) :
    exec (.thermalSample n raw at_) s = .next (sampleSensor n raw (atTime at_ s)) := by
  change execThermalSample n raw at_ s = _
  rw [execThermalSample]
  exact congrArg Host.Outcome.next (if_neg h)

theorem thermalSample_off (n : Nat) (raw : Int) (at_ : Nat) (h : s.sys.phase = .off) :
    exec (.thermalSample n raw at_) s = .next (atTime at_ s) := by
  change execThermalSample n raw at_ s = _
  rw [execThermalSample]
  exact congrArg Host.Outcome.next (if_pos h)

theorem sampleSensor_stays (n : Nat) (raw : Int) (s : State) : (sampleSensor n raw s).jrn = s.jrn ∧ (sampleSensor n raw s).mem = s.mem := by
  have helm := sampleSensor_helm n raw s
  simp only [State.helm, Prod.mk.injEq] at helm
  exact ⟨helm.1, sampleSensor_mem ..⟩

section
variable {n : Nat} {raw : Int}

theorem sampleTaken_same (hn : n < s.thm.sensors.length) (h0 : (getThm n s).state = 0) :
    (getThm n (sampleTaken n raw s)).raw = raw ∧ (getThm n (sampleTaken n raw s)).eff = raw
      ∧ (getThm n (sampleTaken n raw s)).state = 0 ∧ (getThm n (sampleTaken n raw s)).diffs = (getThm n s).diffs := by
  rw [sampleTaken, getThm_modThm_same hn]
  exact ⟨rfl, if_pos h0, h0, rfl⟩

theorem sampleTaken_others {k : Nat} (h : k ≠ n) : getThm k (sampleTaken n raw s) = getThm k s := getThm_modThm_other h _ s

/-- A grid sensor in service whose third sample over 12 degrees this is not stays in service. -/
theorem checkGrid_passes (h0 : (getThm n s).state = 0) (few : (getThm n s).diffs < 2) : OnlyReadings s (checkGrid n raw s) := by
  unfold checkGrid
  dsimp only
  split
  · exact .refl s
  · rw [if_pos h0]
    split
    · exact .refl s
    · rw [if_neg (by split <;> omega)]
      exact .modThm n _ s rfl rfl fun _ => rfl

theorem neighbours_other (n : Nat) : n ∉ neighbours n := by
  unfold neighbours
  split_ifs <;> simp <;> omega

theorem consensus_sampleTaken : goodNeighbours n (sampleTaken n raw s) = goodNeighbours n s ∧ consensus2 n (sampleTaken n raw s) = consensus2 n s := by
  have others : ∀ k ∈ neighbours n, getThm k (sampleTaken n raw s) = getThm k s := fun k hk =>
    sampleTaken_others fun h => neighbours_other n (h ▸ hk)
  have good : goodNeighbours n (sampleTaken n raw s) = goodNeighbours n s :=
    List.filter_congr fun k hk => by rw [others k hk]
  have effs : (goodNeighbours n s).map (fun k => (getThm k (sampleTaken n raw s)).eff) = (goodNeighbours n s).map fun k => (getThm k s).eff :=
    List.map_congr_left fun k hk => by rw [others k (List.mem_of_mem_filter hk)]
  refine ⟨good, ?_⟩
  rw [consensus2, consensus2, good, effs]

/-- What the failure of a sensor leaves. -/
structure SensorFailed (n : Nat) (s t : State) : Prop where
  raw : (getThm n t).raw = (getThm n s).raw
  state : (getThm n t).state ≠ 0
  failures : t.thm.failures = sat64 s.thm.failures 1
  hold : t.thm.holdEnd = s.aon.time + holdCycles

theorem sensorStays_thm (n : Nat) (s : State) : (sensorStays n s).thm = (modThm n (fun x => { x with state := 2 }) s).thm :=
  (device_thm (raiseP_onlyEvents ..).device).trans (gear_thm (setUnit_gear ..))

/-- A sensor's record at its failure. -/
def sensorDown (n : Nat) (s : State) : State :=
  let s := modThm n (fun x => { x with state := 1, failedAt := s.aon.time, diffs := 0, agreeFrom := none, samples := [] }) s
  { s with thm := { s.thm with failures := sat64 s.thm.failures 1, holdEnd := s.aon.time + holdCycles } }

theorem failSensor_thm (n : Nat) (c2 : Option Int) (s : State) :
    (failSensor n c2 s).thm = (sensorDown n s).thm
      ∨ (failSensor n c2 s).thm = (modThm n (fun x => { x with state := 2 }) (sensorDown n s)).thm := by
  have marked : ∀ (c : Prop) [Decidable c] (u : State), (if c then setUnit unThermal 1 0 u else u).thm = u.thm := by
    intro c _ u
    split
    · exact gear_thm (setUnit_gear ..)
    · rfl
  have ends : ∀ (again : Bool) (u : State), u.thm = (sensorDown n s).thm →
      (if again then sensorStays n u else u).thm = (sensorDown n s).thm
        ∨ (if again then sensorStays n u else u).thm = (modThm n (fun x => { x with state := 2 }) (sensorDown n s)).thm := by
    intro again u hu
    split
    · exact .inr ((sensorStays_thm n u).trans (modThm_thm hu _ _))
    · exact .inl hu
  unfold failSensor
  dsimp only
  cases c2 with
  | none => exact ends _ _ ((device_thm (raiseP_onlyEvents ..).device).trans (marked _ (sensorDown n s)))
  | some v => exact ends _ _ ((device_thm (raise_onlyEvents ..).device).trans (marked _ (sensorDown n s)))

theorem failSensor_fails (hn : n < s.thm.sensors.length) (c2 : Option Int) : SensorFailed n s (failSensor n c2 s) := by
  have down : getThm n (sensorDown n s) = { getThm n s with state := 1, failedAt := s.aon.time, diffs := 0, agreeFrom := none, samples := [] } :=
    getThm_modThm_same hn _
  rcases failSensor_thm n c2 s with h | h
  · refine ⟨?_, ?_, ?_, ?_⟩
    · rw [getThm_congr h, down]
    · rw [getThm_congr h, down]
      exact (by decide : (1 : Nat) ≠ 0)
    · rw [h]
      rfl
    · rw [h]
      rfl
  · have last : getThm n (failSensor n c2 s) = { getThm n (sensorDown n s) with state := 2 } :=
      (getThm_congr h n).trans (getThm_modThm_same (s := sensorDown n s) (by change n < (s.thm.sensors.modify n _).length; rwa [List.length_modify]) _)
    refine ⟨?_, ?_, ?_, ?_⟩
    · rw [last, down]
    · rw [last]
      exact (by decide : (2 : Nat) ≠ 0)
    · rw [h]
      rfl
    · rw [h]
      rfl

theorem consensus_disagrees {c2 : Int} (h0 : (getThm n s).state = 0) (third : (getThm n s).diffs = 2)
    (many : 2 ≤ (goodNeighbours n s).length) (hc : consensus2 n s = some c2) (far : agrees raw c2 = false) :
    checkGrid n raw s = failSensor n (some c2) (modThm n (fun x => { x with diffs := 3 }) s) := by
  have third : (if agrees raw c2 = true then 0 else (getThm n s).diffs + 1) = 3 := by rw [far, third]; rfl
  unfold checkGrid
  dsimp only
  rw [hc]
  dsimp only
  rw [if_pos h0, if_neg (by omega), third, if_pos rfl]

theorem sampleSensor_serves {at_ : Nat} (hp : s.sys.phase ≠ .off) (hl : s.thm.sensors.length = 33) (hn : n < 32) (h0 : (getThm n s).state = 0)
    (few : (getThm n s).diffs < 2) :
    ∃ t, exec (.thermalSample n raw at_) s = .next t ∧ (getThm n t).raw = raw ∧ (getThm n t).eff = raw ∧ (getThm n t).state = 0
      ∧ (∀ k, k ≠ n → (getThm k t).raw = (getThm k s).raw ∧ (getThm k t).state = (getThm k s).state)
      ∧ t.thm.failures = s.thm.failures ∧ t.thm.cap = s.thm.cap ∧ t.jrn = s.jrn ∧ t.mem = s.mem := by
  let u := sampleTaken n raw (atTime at_ s)
  obtain ⟨raw', eff, state, diffs⟩ := sampleTaken_same (s := atTime at_ s) (raw := raw) (by change n < s.thm.sensors.length; omega) h0
  have checked : OnlyReadings u (sampleChecked n raw (atTime at_ s)) := by
    rw [sampleChecked, if_neg (by omega)]
    exact checkGrid_passes state (by rw [diffs]; exact few)
  have done := checked.trans (sampleSensor_onlyReadings n raw (atTime at_ s))
  obtain ⟨jrn, mem⟩ := sampleSensor_stays n raw (atTime at_ s)
  refine ⟨_, thermalSample_runs n raw at_ hp, (done.raw n).trans raw', (done.eff n state).trans eff, (done.state n).trans state,
    fun k hk => ?_, done.failures, done.cap, jrn, mem⟩
  have same : getThm k u = getThm k s := sampleTaken_others (s := atTime at_ s) hk
  exact ⟨(done.raw k).trans (congrArg ThmSensor.raw same), (done.state k).trans (congrArg ThmSensor.state same)⟩

theorem sampleSensor_fails {at_ : Nat} {c2 : Int} (hp : s.sys.phase ≠ .off) (hl : s.thm.sensors.length = 33) (hn : n < 32)
    (h0 : (getThm n s).state = 0) (third : (getThm n s).diffs = 2) (many : 2 ≤ (goodNeighbours n s).length) (hc : consensus2 n s = some c2)
    (far : agrees raw c2 = false) :
    ∃ t, exec (.thermalSample n raw at_) s = .next t ∧ (getThm n t).raw = raw ∧ (getThm n t).state ≠ 0
      ∧ t.thm.failures = sat64 s.thm.failures 1 ∧ t.thm.holdEnd = max s.aon.time at_ + holdCycles ∧ t.jrn = s.jrn ∧ t.mem = s.mem := by
  let u := sampleTaken n raw (atTime at_ s)
  have room : n < s.thm.sensors.length := by omega
  obtain ⟨raw', -, state, diffs⟩ := sampleTaken_same (s := atTime at_ s) (raw := raw) room h0
  obtain ⟨good, consensus⟩ := consensus_sampleTaken (s := atTime at_ s) (n := n) (raw := raw)
  have checked : sampleChecked n raw (atTime at_ s) = failSensor n (some c2) (modThm n (fun x => { x with diffs := 3 }) u) := by
    rw [sampleChecked, if_neg (by omega)]
    exact consensus_disagrees state (diffs.trans third) (by rw [good]; exact many) (consensus.trans hc) far
  have length : u.thm.sensors.length = s.thm.sensors.length := List.length_modify ..
  have counted := OnlyReadings.modThm n (fun x => { x with diffs := 3 }) u rfl rfl fun _ => rfl
  have failed := failSensor_fails (s := modThm n (fun x => { x with diffs := 3 }) u) (n := n)
    (by change n < (u.thm.sensors.modify n _).length; rw [List.length_modify]; omega) (some c2)
  rw [← checked] at failed
  have rest := sampleSensor_onlyReadings n raw (atTime at_ s)
  obtain ⟨jrn, mem⟩ := sampleSensor_stays n raw (atTime at_ s)
  exact ⟨_, thermalSample_runs n raw at_ hp, (rest.raw n).trans (failed.raw.trans ((counted.raw n).trans raw')),
    (rest.state n).symm ▸ failed.state, rest.failures.trans failed.failures, rest.hold.trans failed.hold, jrn, mem⟩

theorem sampleWeighhouse_range {at_ : Nat} (hp : s.sys.phase ≠ .off) (hl : s.thm.sensors.length = 33) (h0 : (getThm 32 s).state = 0) :
    ∃ t, exec (.thermalSample 32 raw at_) s = .next t ∧ ((getThm 32 t).state = 0 ↔ -320 ≤ raw ∧ raw ≤ 1200)
      ∧ (getThm 32 t).raw = raw ∧ t.jrn = s.jrn ∧ t.mem = s.mem := by
  let u := sampleTaken 32 raw (atTime at_ s)
  obtain ⟨raw', -, state, -⟩ := sampleTaken_same (s := atTime at_ s) (n := 32) (raw := raw) (by change 32 < s.thm.sensors.length; omega) h0
  have checked : sampleChecked 32 raw (atTime at_ s) = checkWeighhouse raw u := if_pos rfl
  have length : 32 < u.thm.sensors.length := by
    change 32 < (s.thm.sensors.modify 32 _).length
    rw [List.length_modify]
    omega
  have rest := sampleSensor_onlyReadings 32 raw (atTime at_ s)
  rw [checked] at rest
  obtain ⟨jrn, mem⟩ := sampleSensor_stays 32 raw (atTime at_ s)
  by_cases out : raw < -320 ∨ 1200 < raw
  · have failed := failSensor_fails length none
    have fails : checkWeighhouse raw u = failSensor 32 none u := if_pos ⟨state, out⟩
    rw [fails] at rest
    exact ⟨_, thermalSample_runs 32 raw at_ hp, ⟨fun h => absurd ((rest.state 32).symm.trans h) failed.state, fun h => absurd h (by omega)⟩,
      (rest.raw 32).trans (failed.raw.trans raw'), jrn, mem⟩
  · have passes : checkWeighhouse raw u = u := if_neg fun h => out h.2
    rw [passes] at rest
    exact ⟨_, thermalSample_runs 32 raw at_ hp, ⟨fun _ => by omega, fun _ => (rest.state 32).trans state⟩, (rest.raw 32).trans raw', jrn, mem⟩

/-! ### A failure that lasts -/

theorem thmSensorLasting_lasts {at_ : Nat} (h1 : (getThm n s).state = 1) (h : passedMs (getThm n s).failedAt (max s.aon.time at_) 10000 = true) :
    ∃ t, exec (.thmSensorLasting n at_) s = .next t ∧ (getThm n t).state = 2 ∧ (∀ k, k ≠ n → getThm k t = getThm k s)
      ∧ t.jrn = s.jrn ∧ t.mem = s.mem := by
  have hn : n < s.thm.sensors.length := by
    by_contra outside
    rw [getThm, List.getD_eq_default _ _ (Nat.not_lt.1 outside)] at h1
    cases h1
  have thm := sensorStays_thm n (atTime at_ s)
  have helm := sensorStays_helm n (atTime at_ s)
  simp only [State.helm, Prod.mk.injEq] at helm
  refine ⟨sensorStays n (atTime at_ s), ?_, ?_, fun k hk => ?_, helm.1, sensorStays_mem ..⟩
  · change execThmSensorLasting n at_ s = _
    rw [execThmSensorLasting]
    exact congrArg Host.Outcome.next (if_pos ⟨h1, h⟩)
  · rw [getThm_congr thm, getThm_modThm_same (s := atTime at_ s) hn]
  · exact (getThm_congr thm k).trans (getThm_modThm_other hk _ (atTime at_ s))

theorem thmSensorLasting_not {at_ : Nat} (h : (getThm n s).state ≠ 1 ∨ passedMs (getThm n s).failedAt (max s.aon.time at_) 10000 = false) :
    exec (.thmSensorLasting n at_) s = .next (atTime at_ s) := by
  change execThmSensorLasting n at_ s = _
  rw [execThmSensorLasting]
  refine congrArg Host.Outcome.next (if_neg fun ⟨h1, h2⟩ => ?_)
  rcases h with h | h
  · exact h h1
  · exact Bool.noConfusion (h.symm.trans h2)

end

/-! ### The cap -/

/-- From s to t the thermal block and the speed block become q and p, and events may have been raised. -/
def SetsCap (q : Thm) (p : Spm) (s t : State) : Prop := OnlyEvents { s with thm := q, spm := p } t

namespace SetsCap

variable {q q' : Thm} {p p' : Spm} {u : State}

theorem trans (h : SetsCap q p s t) (h' : SetsCap q' p' t u) : SetsCap q' p' s u := by
  obtain ⟨e, g, a, b, o, n, rfl, sent⟩ := h
  obtain ⟨e', g', a', b', o', n', rfl, sent'⟩ := h'
  exact ⟨e', g', a', b', o', n', rfl, sent.trans sent'⟩

theorem events (h : SetsCap q p s t) (h' : OnlyEvents t u) : SetsCap q p s u := OnlyEvents.trans h h'

theorem setThm (h : SetsCap q p s t) (q' : Thm) : SetsCap q' p s { t with thm := q' } := by
  obtain ⟨e, g, a, b, o, n, rfl, sent⟩ := h
  exact ⟨e, g, a, b, o, n, rfl, sent⟩

theorem thm (h : SetsCap q p s t) : t.thm = q := (device_thm h.device :)

theorem spm (h : SetsCap q p s t) : t.spm = p := (device_spm h.device :)

end SetsCap

theorem setCap_sets (c : Nat) (s : State) :
    ∃ d, SetsCap { s.thm with cap := c, downs := d } { s.spm with thermalCap := c } s (setCap c s) := by
  have events := raise_onlyEvents evThmThrottle c
    (hottest { s with thm := { s.thm with cap := c }, spm := { s.spm with thermalCap := c } })
    { s with thm := { s.thm with cap := c }, spm := { s.spm with thermalCap := c } }
  unfold setCap
  dsimp only
  split
  · exact ⟨s.thm.downs, .refl _⟩
  · split
    · have raised : SetsCap { s.thm with cap := c } { s.spm with thermalCap := c } s _ := events
      generalize raise evThmThrottle c _ _ = r at raised ⊢
      rw [raised.thm]
      exact ⟨sat64 s.thm.downs 1, raised.setThm _⟩
    · exact ⟨s.thm.downs, events⟩

/-- The cap's own state after a rule: sensors and configuration stand, and the speed's cap follows. -/
structure CapOf (s : State) (q : Thm) (p : Spm) : Prop where
  sensors : q.sensors = s.thm.sensors
  cfg : q.cfg = s.thm.cfg
  agree : s.spm.thermalCap = s.thm.cap → p.thermalCap = q.cap

/-- The rule of R385 before it notes whether a sensor is hot. -/
def capMoved (hot cool : Bool) (s : State) : State :=
  if hot then
    let s' : State := { s with thm := { s.thm with tCool := s.aon.time } }
    if !s'.thm.wasHot || passedMs s'.thm.tDown s.aon.time s.thm.cfg.downMs then
      setCap (s'.thm.cap - s.thm.cfg.downSteps) { s' with thm := { s'.thm with tDown := s.aon.time } }
    else s'
  else if !cool then { s with thm := { s.thm with tCool := s.aon.time } }
  else if s.thm.holdEnd ≤ s.aon.time ∧ passedMs s.thm.tCool s.aon.time s.thm.cfg.upMs = true
      ∧ passedMs s.thm.tUp s.aon.time s.thm.cfg.upMs = true ∧ s.thm.cap < 24 then
    setCap (s.thm.cap + 1) { s with thm := { s.thm with tUp := s.aon.time } }
  else s

theorem capRule_eq (hot cool : Bool) (s : State) :
    capRule hot cool s = { capMoved hot cool s with thm := { (capMoved hot cool s).thm with wasHot := hot } } := rfl

/-- What the rule of R385 makes of the cap. -/
structure CapRule (hot cool : Bool) (s : State) (q : Thm) (p : Spm) : Prop extends CapOf s q p where
  whenHot : hot = true → s.thm.wasHot = false → q.cap = s.thm.cap - s.thm.cfg.downSteps
  whenWarm : hot = false → cool = false → q.cap = s.thm.cap
  whenCool : hot = false → cool = true → s.thm.holdEnd ≤ s.aon.time → s.thm.cap < 24 → passedMs s.thm.tCool s.aon.time s.thm.cfg.upMs = true →
    passedMs s.thm.tUp s.aon.time s.thm.cfg.upMs = true → q.cap = s.thm.cap + 1

theorem capMoved_sets (hot cool : Bool) (s : State) : ∃ q p, SetsCap q p s (capMoved hot cool s) ∧ CapRule hot cool s q p := by
  unfold capMoved
  split
  · next isHot =>
    dsimp only
    split
    · obtain ⟨d, sets⟩ := setCap_sets (s.thm.cap - s.thm.cfg.downSteps)
        { s with thm := { s.thm with tCool := s.aon.time, tDown := s.aon.time } }
      exact ⟨_, _, sets, ⟨rfl, rfl, fun _ => rfl⟩, fun _ _ => rfl, fun h => absurd isHot (by simp [h]), fun h => absurd isHot (by simp [h])⟩
    · next late =>
      exact ⟨{ s.thm with tCool := s.aon.time }, s.spm, .refl _, ⟨rfl, rfl, id⟩, fun _ h => absurd h (by simp at late; simp [late.1]),
        fun h => absurd isHot (by simp [h]), fun h => absurd isHot (by simp [h])⟩
  · next notHot =>
    split
    · next notCool =>
      exact ⟨{ s.thm with tCool := s.aon.time }, s.spm, .refl _, ⟨rfl, rfl, id⟩, fun h => absurd h notHot, fun _ _ => rfl,
        fun _ h => absurd notCool (by simp [h])⟩
    · next isCool =>
      split
      · obtain ⟨d, sets⟩ := setCap_sets (s.thm.cap + 1) { s with thm := { s.thm with tUp := s.aon.time } }
        exact ⟨_, _, sets, ⟨rfl, rfl, fun _ => rfl⟩, fun h => absurd h notHot, fun _ h => absurd (by simp [h]) isCool, fun _ _ _ _ _ _ => rfl⟩
      · next stays =>
        exact ⟨s.thm, s.spm, .refl _, ⟨rfl, rfl, id⟩, fun h => absurd h notHot, fun _ _ => rfl,
          fun _ _ hold small tCool tUp => absurd ⟨hold, tCool, tUp, small⟩ stays⟩

theorem capRule_sets (hot cool : Bool) (s : State) : ∃ q p, SetsCap q p s (capRule hot cool s) ∧ CapRule hot cool s q p := by
  obtain ⟨q, p, sets, rule⟩ := capMoved_sets hot cool s
  rw [capRule_eq, sets.thm]
  exact ⟨{ q with wasHot := hot }, p, sets.setThm _, ⟨rule.sensors, rule.cfg, rule.agree⟩, rule.whenHot, rule.whenWarm, rule.whenCool⟩

/-! ### The critical state -/

theorem critSensor_congr (sensors : t.thm.sensors = s.thm.sensors) (cfg : t.thm.cfg = s.thm.cfg) : critSensor t = critSensor s := by
  unfold critSensor thmCfg getThm
  rw [sensors, cfg]

/-- The critical state ends when every sensor is cool. -/
def critCooled (cool : Bool) (s : State) : State := if cool then { s with thm := { s.thm with crit := false, stopped := false } } else s

/-- The critical state of a sensor at or above CRIT, before it is timed. -/
def critEntered (n : Nat) (s : State) : State :=
  let u := setCap 0 { s with thm := { s.thm with crit := true } }
  if s.thm.crit then u
  else raise evThmCrit n (temp12 (getThm n u).eff) { u with thm := { u.thm with critEntries := sat64 u.thm.critEntries 1 } }

/-- The time at CRIT at step 0. -/
def critTimed (s : State) : State :=
  if s.thm.stopped then s
  else if atStepZero s then { s with thm := { s.thm with critFrom := some (s.thm.critFrom.getD s.aon.time) } }
  else { s with thm := { s.thm with critFrom := none } }

/-- No sensor is at CRIT. -/
def critLeft (s : State) : State := if s.thm.stopped then s else { s with thm := { s.thm with critFrom := none } }

theorem critRule_none {cool : Bool} (h : critSensor (critCooled cool s) = none) : critRule cool s = critLeft (critCooled cool s) := by
  unfold critRule
  dsimp only
  rw [show critSensor (if cool then _ else _) = none from h]
  rfl

theorem critRule_some {cool : Bool} {n : Nat} (h : critSensor (critCooled cool s) = some n) :
    critRule cool s = critTimed (critEntered n (critCooled cool s)) := by
  unfold critRule
  dsimp only
  rw [show critSensor (if cool then _ else _) = some n from h]
  rfl

theorem critCooled_sets (cool : Bool) (s : State) : ∃ q, SetsCap q s.spm s (critCooled cool s) ∧ q.cap = s.thm.cap ∧ CapOf s q s.spm := by
  unfold critCooled
  split
  · exact ⟨_, .refl _, rfl, rfl, rfl, id⟩
  · exact ⟨_, .refl _, rfl, rfl, rfl, id⟩

theorem critEntered_sets (n : Nat) (s : State) :
    ∃ q p, SetsCap q p s (critEntered n s) ∧ q.cap = 0 ∧ p.thermalCap = 0 ∧ q.crit = true ∧ CapOf s q p := by
  obtain ⟨d, sets⟩ := setCap_sets 0 { s with thm := { s.thm with crit := true } }
  have sets' : SetsCap _ _ s (setCap 0 { s with thm := { s.thm with crit := true } }) := sets
  unfold critEntered
  dsimp only
  generalize setCap 0 { s with thm := { s.thm with crit := true } } = u at *
  split
  · exact ⟨_, _, sets', rfl, rfl, rfl, rfl, rfl, fun _ => rfl⟩
  · rw [sets'.thm]
    refine ⟨_, _, (sets'.setThm _).events (raise_onlyEvents ..), rfl, rfl, rfl, rfl, rfl, fun _ => rfl⟩

theorem critTimed_sets {q : Thm} {p : Spm} {u : State} (h : SetsCap q p u s) : ∃ f, SetsCap { q with critFrom := f } p u (critTimed s) := by
  unfold critTimed
  rw [h.thm]
  split_ifs
  · exact ⟨q.critFrom, h⟩
  · exact ⟨_, h.setThm _⟩
  · exact ⟨_, h.setThm _⟩

theorem critLeft_sets {q : Thm} {p : Spm} {u : State} (h : SetsCap q p u s) : ∃ f, SetsCap { q with critFrom := f } p u (critLeft s) := by
  unfold critLeft
  rw [h.thm]
  split_ifs
  · exact ⟨q.critFrom, h⟩
  · exact ⟨_, h.setThm _⟩

/-- What R387 makes of the cap. -/
structure CritRule (s : State) (q : Thm) (p : Spm) : Prop extends CapOf s q p where
  crit : (critSensor s).isSome = true → q.cap = 0 ∧ p.thermalCap = 0 ∧ q.crit = true
  none : critSensor s = none → q.cap = s.thm.cap

theorem critRule_sets (cool : Bool) (s : State) : ∃ q p, SetsCap q p s (critRule cool s) ∧ CritRule s q p := by
  obtain ⟨q, sets, cap, cool'⟩ := critCooled_sets cool s
  have same : critSensor (critCooled cool s) = critSensor s :=
    critSensor_congr (by rw [sets.thm]; exact cool'.sensors) (by rw [sets.thm]; exact cool'.cfg)
  cases hn : critSensor s with
  | none =>
    obtain ⟨f, left⟩ := critLeft_sets sets
    rw [critRule_none (same.trans hn)]
    exact ⟨_, _, left, ⟨cool'.sensors, cool'.cfg, cool'.agree⟩, fun h => absurd h (by simp [hn]), fun _ => cap⟩
  | some n =>
    obtain ⟨q', p', entered, cap', thermal, crit, of⟩ := critEntered_sets n (critCooled cool s)
    obtain ⟨f, timed⟩ := critTimed_sets (sets.trans entered)
    rw [critRule_some (same.trans hn)]
    refine ⟨_, _, timed, ⟨?_, ?_, fun _ => thermal.trans cap'.symm⟩, fun _ => ⟨cap', thermal, crit⟩, fun h => absurd h (by simp [hn])⟩
    · exact of.sensors.trans (by rw [sets.thm]; exact cool'.sensors)
    · exact of.cfg.trans (by rw [sets.thm]; exact cool'.cfg)

/-! ### THROTTLE_EVALUATION and THERMAL_STOP -/

theorem throttleEvaluation_runs {at_ : Nat} (hp : s.sys.phase = .running)
    (heard : (getThm 32 s).state ≠ 0 ∨ passedMs ((getThm 32 s).lastAt.getD s.sys.readyAt) (max s.aon.time at_) 10 = false) :
    exec (.throttleEvaluation at_) s
      = .next (critRule (isCool s) (capRule (isHot s) (isCool s) (atTime at_ s))) := by
  have quiet : weighhouseSilent (atTime at_ s) = atTime at_ s := if_neg fun ⟨h1, h2⟩ => by
    rcases heard with h | h
    · exact h h1
    · exact Bool.noConfusion (h.symm.trans h2)
  have running : ¬ (atTime at_ s).sys.phase ≠ .running := fun h => h hp
  change execThrottleEvaluation at_ s = _
  rw [execThrottleEvaluation]
  dsimp only
  rw [if_neg running, quiet]
  rfl

theorem throttleEvaluation_ends {at_ : Nat} (hp : s.sys.phase = .running)
    (heard : (getThm 32 s).state ≠ 0 ∨ passedMs ((getThm 32 s).lastAt.getD s.sys.readyAt) (max s.aon.time at_) 10 = false) :
    ∃ t, exec (.throttleEvaluation at_) s = .next t ∧ (s.spm.thermalCap = s.thm.cap → t.spm.thermalCap = t.thm.cap)
      ∧ ((critSensor s).isSome = true → t.thm.cap = 0 ∧ t.spm.thermalCap = 0 ∧ t.thm.crit = true)
      ∧ (critSensor s = none → isHot s = true → s.thm.wasHot = false → t.thm.cap = s.thm.cap - s.thm.cfg.downSteps)
      ∧ (critSensor s = none → isHot s = false → isCool s = false → t.thm.cap = s.thm.cap)
      ∧ (critSensor s = none → isHot s = false → isCool s = true → s.thm.holdEnd ≤ max s.aon.time at_ → s.thm.cap < 24 →
          passedMs s.thm.tCool (max s.aon.time at_) s.thm.cfg.upMs = true →
          passedMs s.thm.tUp (max s.aon.time at_) s.thm.cfg.upMs = true → t.thm.cap = s.thm.cap + 1)
      ∧ t.thm.sensors = s.thm.sensors ∧ t.jrn = s.jrn ∧ t.mem = s.mem ∧ t.fmt = s.fmt := by
  obtain ⟨q, p, moved, rule⟩ := capRule_sets (isHot s) (isCool s) (atTime at_ s)
  obtain ⟨q', p', sets, crit⟩ := critRule_sets (isCool s) (capRule (isHot s) (isCool s) (atTime at_ s))
  have sensor : critSensor (capRule (isHot s) (isCool s) (atTime at_ s)) = critSensor s :=
    critSensor_congr (by rw [moved.thm]; exact rule.sensors) (by rw [moved.thm]; exact rule.cfg)
  have both := moved.trans sets
  have cap : critSensor s = none → (critRule (isCool s) (capRule (isHot s) (isCool s) (atTime at_ s))).thm.cap = q.cap := fun h => by
    rw [both.thm, crit.none (sensor.trans h), moved.thm]
  refine ⟨_, throttleEvaluation_runs hp heard, fun h => ?_, fun h => ?_, fun none hot was => (cap none).trans (rule.whenHot hot was),
    fun none hot cool => (cap none).trans (rule.whenWarm hot cool),
    fun none hot cool hold small tCool tUp => (cap none).trans (rule.whenCool hot cool hold small tCool tUp), ?_, both.jrn, ?_, ?_⟩
  · rw [both.spm, both.thm]
    refine crit.agree ?_
    rw [moved.spm, moved.thm]
    exact rule.agree h
  · rw [both.spm, both.thm]
    exact crit.crit (by rw [sensor]; exact h)
  · rw [both.thm, crit.sensors, moved.thm]
    exact rule.sensors
  · exact (device_mem both.device :)
  · exact (device_fmt both.device :)

theorem throttleEvaluation_not {at_ : Nat} (h : s.sys.phase ≠ .running) : exec (.throttleEvaluation at_) s = .next (atTime at_ s) := by
  change execThrottleEvaluation at_ s = _
  rw [execThrottleEvaluation]
  exact congrArg Host.Outcome.next (if_pos h)

theorem thermalStop_stops {at_ t0 : Nat} (hf : s.thm.critFrom = some t0) (hs : s.thm.stopped = false)
    (h : passedMs t0 (max s.aon.time at_) 1000 = true) :
    ∃ t, exec (.thermalStop at_) s = .next t ∧ t.thm.stopped = true ∧ t.thm.cap = s.thm.cap ∧ t.thm.sensors = s.thm.sensors
      ∧ t.mem = s.mem := by
  have goes : ¬ ((atTime at_ s).thm.stopped || !passedMs t0 (atTime at_ s).aon.time 1000) = true := by
    change ¬ (s.thm.stopped || !passedMs t0 (max s.aon.time at_) 1000) = true
    simp [hs, h]
  have from_ : (atTime at_ s).thm.critFrom = some t0 := hf
  refine ⟨endRunSoon { atTime at_ s with thm := { s.thm with stopped := true, critFrom := some (max s.aon.time at_) } }, ?_, rfl, rfl, rfl, rfl⟩
  change execThermalStop at_ s = _
  rw [execThermalStop]
  dsimp only
  rw [from_]
  exact congrArg Host.Outcome.next (if_neg goes)

theorem thermalStop_not {at_ : Nat} (h : s.thm.critFrom = none ∨ s.thm.stopped = true) : exec (.thermalStop at_) s = .next (atTime at_ s) := by
  change execThermalStop at_ s = _
  rw [execThermalStop]
  dsimp only
  cases hf : (atTime at_ s).thm.critFrom with
  | none => rfl
  | some t0 =>
    have stopped : s.thm.stopped = true := h.resolve_left fun none => by cases none.symm.trans hf
    exact congrArg Host.Outcome.next (if_pos (by change (s.thm.stopped || _) = true; rw [stopped]; rfl))

/-- Settles O54: samples set readings, the third disagreement fails a sensor, and the cap follows R385 and R387. -/
theorem thermalSamplesAndCap : Obligations.ThermalSamplesAndCap :=
  ⟨fun _ _ _ _ hp hl hn h0 few => sampleSensor_serves hp hl hn h0 few,
    fun _ _ _ _ _ hp hl hn h0 third many hc far => sampleSensor_fails hp hl hn h0 third many hc far,
    fun _ _ _ hp hl h0 => sampleWeighhouse_range hp hl h0, fun n raw at_ _ h => thermalSample_off n raw at_ h,
    fun _ _ _ h1 h => thmSensorLasting_lasts h1 h, fun _ _ _ h => thmSensorLasting_not h,
    fun _ _ hp heard => throttleEvaluation_ends hp heard, fun _ _ h => throttleEvaluation_not h,
    fun _ _ _ hf hs h => thermalStop_stops hf hs h, fun _ _ h => thermalStop_not h⟩

end Sys2Proof.Proofs
end

section
/-! PROOFS. Power states, the cartridge's presence and the slack switch (15 R393-R402; O55). -/

namespace Sys2Proof.Proofs

open Sys2Proof.Machine Sys2Proof.Safety Sys2Proof.Laws

variable {s t : State}

/-! ### What the removal of a cartridge leaves -/

@[simp] theorem endMediaExclusions_gear (s : State) : (endMediaExclusions s).gear = s.gear := by
  unfold endMediaExclusions; simp
@[simp] theorem dropHeld_gear (s : State) : (dropHeld s).gear = s.gear := by
  unfold dropHeld; simp
@[simp] theorem endMediaExclusions_aon (s : State) : (endMediaExclusions s).aon = s.aon := by
  unfold endMediaExclusions; simp
@[simp] theorem dropHeld_aon (s : State) : (dropHeld s).aon = s.aon := by
  unfold dropHeld; simp

theorem recordTruncs_parts (ser : List Byte) (ps : List Nat) (s : State) :
    (recordTruncs ser ps s).gear = s.gear ∧ (recordTruncs ser ps s).aon = s.aon := ⟨rfl, rfl⟩

/-! ### Idle entry -/

/-- What the returns and the levels of the Porter leave. -/
def State.doze (s : State) : Pwr × Hlk × Aon × Journal × Ctx × List Host.Cell := (s.pwr, s.hlk, s.aon, s.jrn, s.ctx, s.mem.sram)

theorem returnBuf_doze (s : State) (pi : Nat × Nat) : State.doze (returnBuf s pi) = State.doze s := by
  change State.doze (clearBuffer pi.1 pi.2 s) = _
  unfold clearBuffer
  split <;> rfl

theorem publishPool_doze (s : State) (p : Nat) : State.doze (publishPool s p) = State.doze s := by
  unfold publishPool
  dsimp only
  split
  · obtain ⟨_, _, _, _, _, _, h, -⟩ := raise_onlyEvents evPrtPoolLow p (poolFree p s)
      (setPool p (fun q => { q with free := poolFree p s, minFree := min q.minFree (poolFree p s) }) s)
    rw [h]
    rfl
  · rfl

theorem foldl_doze {α : Type} {f : State → α → State} (hf : ∀ s x, State.doze (f s x) = State.doze s) (l : List α) (s : State) :
    State.doze (l.foldl f s) = State.doze s := by
  induction l generalizing s with
  | nil => rfl
  | cons a t ih => rw [List.foldl_cons, ih, hf]

/-- What an entry into L3 leaves: the context cache is written back, and the rest is saved. -/
theorem saveForL3_ends (s : State) :
    (saveForL3 s).pwr = { s.pwr with saved := true } ∧ (saveForL3 s).hlk = s.hlk ∧ (saveForL3 s).aon = s.aon ∧ (saveForL3 s).jrn = s.jrn
      ∧ (saveForL3 s).ctx = { s.ctx with lines := [] } ∧ (saveForL3 s).mem.sram = s.mem.sram := by
  have kept := (foldl_doze publishPool_doze (List.range 4) _).trans (foldl_doze returnBuf_doze (returns s) s)
  simp only [State.doze, Prod.mk.injEq] at kept
  obtain ⟨pwr, hlk, aon, jrn, ctx, sram⟩ := kept
  unfold saveForL3
  dsimp only
  rw [pwr, hlk, aon, jrn, ctx, sram]
  exact ⟨rfl, rfl, rfl, rfl, rfl, rfl⟩

/-- The state that has left run, before what L1 to L3 switch off. -/
def idleSince (s : State) : State := if s.pwr.state = 0 then { s with pwr := { s.pwr with idleFrom := s.aon.time } } else s

/-- What L1 and L2 switch off. -/
def switchedOff (k : Nat) (s : State) : State :=
  let s := if 2 ≤ k then linkIdle s else s
  if 3 ≤ k then { s with aon := { s.aon with reelEn := false } } else s

/-- The state entered, before it is reported. -/
def entered (k : Nat) (s : State) : State := { s with pwr := { s.pwr with state := k, entries := s.pwr.entries.modify (k - 1) (sat64 · 1) } }

theorem enterState_eq (k : Nat) (s : State) :
    enterState k s = raiseP evPwrStateChange k (entered k (if k = 4 then saveForL3 (switchedOff k (idleSince s)) else switchedOff k (idleSince s))) := rfl

theorem switchedOff_ends (k : Nat) (s : State) :
    (2 ≤ k → ∀ l ∈ (switchedOff k s).hlk.lanes, l.active = false) ∧ (k < 2 → (switchedOff k s).hlk = s.hlk)
      ∧ (3 ≤ k → (switchedOff k s).aon.reelEn = false) ∧ (switchedOff k s).mem = s.mem ∧ (switchedOff k s).ctx = s.ctx
      ∧ (switchedOff k s).jrn = s.jrn ∧ (switchedOff k s).pwr = s.pwr := by
  have idle : ∀ l ∈ (linkIdle s).hlk.lanes, l.active = false := fun l hl => by
    obtain ⟨x, -, rfl⟩ := List.mem_map.1 hl
    rfl
  unfold switchedOff
  by_cases two : 2 ≤ k <;> by_cases three : 3 ≤ k
  · rw [if_pos two, if_pos three]
    exact ⟨fun _ => idle, fun h => absurd two (by omega), fun _ => rfl, rfl, rfl, rfl, rfl⟩
  · rw [if_pos two, if_neg three]
    exact ⟨fun _ => idle, fun h => absurd two (by omega), fun h => absurd h three, rfl, rfl, rfl, rfl⟩
  · exact absurd three (by omega)
  · rw [if_neg two, if_neg three]
    exact ⟨fun h => absurd h two, fun _ => rfl, fun h => absurd h three, rfl, rfl, rfl, rfl⟩

theorem enterState_ends (k : Nat) (s : State) :
    (enterState k s).pwr.state = k ∧ (2 ≤ k → ∀ l ∈ (enterState k s).hlk.lanes, l.active = false)
      ∧ (k < 2 → (enterState k s).hlk = s.hlk) ∧ (3 ≤ k → (enterState k s).aon.reelEn = false)
      ∧ (k = 4 → (enterState k s).ctx.lines = [] ∧ (enterState k s).pwr.saved = true)
      ∧ (k ≠ 4 → (enterState k s).mem = s.mem ∧ (enterState k s).ctx = s.ctx) ∧ (enterState k s).ctx.records = s.ctx.records
      ∧ (enterState k s).jrn = s.jrn ∧ (enterState k s).mem.sram = s.mem.sram := by
  obtain ⟨lanes, link, reel, mem, ctx, jrn, -⟩ := switchedOff_ends k (idleSince s)
  have since : (idleSince s).hlk = s.hlk ∧ (idleSince s).mem = s.mem ∧ (idleSince s).ctx = s.ctx ∧ (idleSince s).jrn = s.jrn := by
    unfold idleSince
    split <;> exact ⟨rfl, rfl, rfl, rfl⟩
  obtain ⟨hlk', mem', ctx', jrn'⟩ := since
  rw [hlk'] at link
  rw [mem'] at mem
  rw [ctx'] at ctx
  rw [jrn'] at jrn
  rw [enterState_eq]
  generalize switchedOff k (idleSince s) = u at *
  have ends : ∀ w : State,
      (raiseP evPwrStateChange k (entered k w)).pwr = (entered k w).pwr ∧ (raiseP evPwrStateChange k (entered k w)).hlk = w.hlk
        ∧ (raiseP evPwrStateChange k (entered k w)).aon = w.aon ∧ (raiseP evPwrStateChange k (entered k w)).ctx = w.ctx
        ∧ (raiseP evPwrStateChange k (entered k w)).mem = w.mem ∧ (raiseP evPwrStateChange k (entered k w)).jrn = w.jrn := fun w => by
    have events := raiseP_onlyEvents evPwrStateChange k (entered k w)
    exact ⟨device_pwr events.device, (device_hlk events.device :), (device_aon events.device :), (events.ctx :), (device_mem events.device :),
      (events.jrn :)⟩
  by_cases four : k = 4
  · obtain ⟨spwr, shlk, saon, sjrn, sctx, ssram⟩ := saveForL3_ends u
    rw [if_pos four]
    obtain ⟨epwr, ehlk, eaon, ectx, emem, ejrn⟩ := ends (saveForL3 u)
    rw [epwr, ehlk, eaon, ectx, emem, ejrn, shlk, saon, sjrn, sctx, ssram, mem, jrn]
    refine ⟨rfl, lanes, link, reel, fun _ => ⟨rfl, ?_⟩, fun h => absurd four h, (congrArg Ctx.records ctx :), rfl, rfl⟩
    exact (congrArg Pwr.saved spwr :)
  · rw [if_neg four]
    obtain ⟨epwr, ehlk, eaon, ectx, emem, ejrn⟩ := ends u
    rw [epwr, ehlk, eaon, ectx, emem, ejrn, mem, jrn, ctx]
    exact ⟨rfl, lanes, link, reel, fun h => absurd h four, fun _ => ⟨rfl, rfl⟩, rfl, rfl, rfl⟩

/-- What is allowed of a state deeper than run (15 Table 15-3, R394; 02 R44). -/
def idleAllowed (k : Nat) (s : State) : Bool :=
  decide (wakeMicros k ≤ s.pwr.tolerance) && decide (k ≤ s.pwr.allowedMax) && !(k == 4 && s.hif.committed && s.hif.memEn)

theorem foldl_max_mem (l : List Nat) (a : Nat) : l.foldl max a = a ∨ l.foldl max a ∈ l := by
  induction l generalizing a with
  | nil => exact .inl rfl
  | cons b l ih =>
    rw [List.foldl_cons]
    rcases ih (max a b) with h | h
    · rw [h]
      rcases Nat.le_total b a with hb | hb
      · exact .inl (Nat.max_eq_left hb)
      · exact .inr (by rw [Nat.max_eq_right hb]; exact List.mem_cons_self)
    · exact .inr (List.mem_cons_of_mem _ h)

theorem deepest_allowed (h : deepest s ≠ 0) : deepest s < 5 ∧ idleAllowed (deepest s) s = true := by
  have listed : deepest s ∈ (List.range 5).filter fun k => k == 0 || idleAllowed k s := (foldl_max_mem _ 0).resolve_left h
  obtain ⟨range, ok⟩ := List.mem_filter.1 listed
  rw [Bool.or_eq_true, beq_iff_eq] at ok
  exact ⟨List.mem_range.1 range, ok.resolve_left h⟩

theorem wakeMicros_mono {j k : Nat} (h : j ≤ k) (hk : k < 5) : wakeMicros j ≤ wakeMicros k := by
  have all : ∀ k < 5, ∀ j ≤ k, wakeMicros j ≤ wakeMicros k := by decide
  exact all k hk j h

/-- A state that is not deeper than the deepest allowed one is within the tolerance. -/
theorem idle_within {k : Nat} (h : deepest s ≠ 0) (hk : k ≤ deepest s) (h4 : k = 4 → deepest s = 4) :
    wakeMicros k ≤ s.pwr.tolerance ∧ k ≤ s.pwr.allowedMax ∧ (k = 4 → s.hif.committed = true → s.hif.memEn = false) := by
  obtain ⟨small, ok⟩ := deepest_allowed h
  simp only [idleAllowed, Bool.and_eq_true, decide_eq_true_eq] at ok
  obtain ⟨⟨tolerance, allowed⟩, link⟩ := ok
  refine ⟨(wakeMicros_mono hk small).trans tolerance, hk.trans allowed, fun four committed => ?_⟩
  simpa [h4 four, committed] using link

theorem reachable_le (s : State) : reachable s ≤ deepest s ∧ (reachable s = 4 → deepest s = 4) ∧ (deepest s ≠ 0 → reachable s ≠ 0) := by
  unfold reachable
  split
  · next h => exact ⟨by omega, fun h3 => absurd h3 (by decide), fun _ => by decide⟩
  · exact ⟨le_refl _, id, id⟩

/-- The state that an idle core enters at a time. -/
def idleTarget (at_ : Nat) (s : State) : Nat :=
  if s.pwr.now = true ∨ s.pwr.idleDelay = 0 ∨ (s.pwr.state ≠ 0 ∧ passedMs s.pwr.idleFrom (max s.aon.time at_) s.pwr.idleDelay = true) then
    reachable s
  else 1

theorem idleEntry_runs {at_ : Nat} (hi : idleNow s = true) (hd : deepest s ≠ 0) :
    exec (.idleEntry at_) s
      = .next (if idleTarget at_ s ≤ s.pwr.state then atTime at_ s else enterState (idleTarget at_ s) (atTime at_ s)) := by
  have idle : ¬ (!idleNow (atTime at_ s) || deepest (atTime at_ s) == 0) = true := by
    change ¬ (!idleNow s || deepest s == 0) = true
    simp [hi, hd]
  have target : (if (atTime at_ s).pwr.now || (atTime at_ s).pwr.idleDelay == 0
      || ((atTime at_ s).pwr.state != 0 && passedMs (atTime at_ s).pwr.idleFrom (atTime at_ s).aon.time (atTime at_ s).pwr.idleDelay)
      then reachable (atTime at_ s) else 1) = idleTarget at_ s := by
    refine if_congr ?_ rfl rfl
    change (s.pwr.now || s.pwr.idleDelay == 0 || (s.pwr.state != 0 && passedMs s.pwr.idleFrom (max s.aon.time at_) s.pwr.idleDelay)) = true ↔ _
    simp [or_assoc]
  change execIdleEntry at_ s = _
  rw [execIdleEntry]
  dsimp only
  rw [if_neg idle, target]
  rfl

theorem idleTarget_within {at_ : Nat} (hd : deepest s ≠ 0) : idleTarget at_ s ≤ deepest s ∧ (idleTarget at_ s = 4 → deepest s = 4) := by
  obtain ⟨le, four, -⟩ := reachable_le s
  unfold idleTarget
  split
  · exact ⟨le, four⟩
  · exact ⟨by omega, fun h => absurd h (by decide)⟩

theorem idleEntry_ends {at_ : Nat} (hi : idleNow s = true) (hd : deepest s ≠ 0) :
    let k := idleTarget at_ s
    (s.pwr.state < k → ∃ t, exec (.idleEntry at_) s = .next t ∧ t.pwr.state = k ∧ wakeMicros k ≤ s.pwr.tolerance
        ∧ k ≤ s.pwr.allowedMax ∧ (k = 4 → s.hif.committed = true → s.hif.memEn = false)
        ∧ (2 ≤ k → ∀ l ∈ t.hlk.lanes, l.active = false) ∧ (k = 1 → t.hlk = s.hlk) ∧ (3 ≤ k → t.aon.reelEn = false)
        ∧ (k = 4 → t.ctx.lines = [] ∧ t.pwr.saved = true) ∧ (k ≠ 4 → t.mem = s.mem ∧ t.ctx = s.ctx) ∧ t.ctx.records = s.ctx.records
        ∧ t.jrn = s.jrn ∧ t.mem.sram = s.mem.sram)
      ∧ (k ≤ s.pwr.state → exec (.idleEntry at_) s = .next (atTime at_ s)) := by
  dsimp only
  obtain ⟨le, four⟩ := idleTarget_within (at_ := at_) hd
  obtain ⟨tolerance, allowed, link⟩ := idle_within hd le four
  obtain ⟨state, lanes, hlk, reel, saved, kept, records, jrn, sram⟩ := enterState_ends (idleTarget at_ s) (atTime at_ s)
  refine ⟨fun deeper => ⟨_, (idleEntry_runs hi hd).trans (congrArg Host.Outcome.next (if_neg (Nat.not_le.2 deeper))), state, tolerance, allowed,
    link, lanes, fun one => hlk (by omega), reel, saved, kept, records, jrn, sram⟩, fun there => ?_⟩
  exact (idleEntry_runs hi hd).trans (congrArg Host.Outcome.next (if_pos there))

theorem idleEntry_not {at_ : Nat} (h : idleNow s = false ∨ deepest s = 0) : exec (.idleEntry at_) s = .next (atTime at_ s) := by
  change execIdleEntry at_ s = _
  rw [execIdleEntry]
  refine congrArg Host.Outcome.next (if_pos ?_)
  change (!idleNow s || deepest s == 0) = true
  rcases h with h | h
  · rw [h]; rfl
  · rw [h, beq_self_eq_true, Bool.or_true]

/-! ### Wakes -/

theorem wakeNow_out (h : s.pwr.state ≠ 0) : wakeNow s = { s with pwr := { s.pwr with waking := true } } := by
  unfold wakeNow
  split
  · next there =>
    have waking : s.pwr.waking = true := by simpa [h] using there
    have same : s.pwr = { s.pwr with waking := true } := by rw [← waking]
    exact congrArg (fun p => { s with pwr := p }) same
  · rfl

theorem wakeNow_run (h : s.pwr.state = 0) : wakeNow s = s := if_pos (.inl h)

theorem wakeTrigger_wakes {k : WakeKind} (hk : k ≠ .cxlMem ∨ s.pwr.state = 4) (h : s.pwr.state ≠ 0) :
    exec (.wakeTrigger k) s = .next { s with pwr := { s.pwr with waking := true } } := by
  have wakes : ¬ (k = .cxlMem ∧ s.pwr.state ≠ 4) := fun ⟨mem, not4⟩ => hk.elim (fun h => h mem) fun h => not4 h
  change execWakeTrigger k s = _
  rw [execWakeTrigger, if_neg wakes, wakeNow_out h]

theorem wakeTrigger_not {k : WakeKind} (h : s.pwr.state = 0 ∨ (k = .cxlMem ∧ s.pwr.state ≠ 4)) : exec (.wakeTrigger k) s = .next s := by
  change execWakeTrigger k s = _
  rw [execWakeTrigger]
  split
  · rfl
  · next h' => rw [wakeNow_run (h.resolve_right h')]

/-! ### The head link alone -/

/-- From s to t the head link may differ, and events may have been raised; whether the whole link was tried is w. -/
def OnlyHead (w : Bool) (s t : State) : Prop := ∃ h : Hlk, h.wholeRetry = w ∧ OnlyEvents { s with hlk := h } t

namespace OnlyHead

variable {w w' : Bool} {u : State}

theorem of_hlk {h : Hlk} (hw : h.wholeRetry = w) (s : State) : OnlyHead w s { s with hlk := h } := ⟨h, hw, .refl _⟩

theorem refl (hw : s.hlk.wholeRetry = w) : OnlyHead w s s := ⟨s.hlk, hw, .refl s⟩

theorem of_onlyEvents (hw : s.hlk.wholeRetry = w) (h : OnlyEvents s t) : OnlyHead w s t := ⟨s.hlk, hw, h⟩

theorem trans (h : OnlyHead w s t) (h' : OnlyHead w' t u) : OnlyHead w' s u := by
  obtain ⟨q, -, e, g, a, p, o, n, rfl, sent⟩ := h
  obtain ⟨q', hw, e', g', a', p', o', n', rfl, sent'⟩ := h'
  exact ⟨q', hw, e', g', a', p', o', n', rfl, sent.trans sent'⟩

theorem wholeRetry (h : OnlyHead w s t) : t.hlk.wholeRetry = w := by
  obtain ⟨q, hw, e, g, a, p, o, n, rfl, -⟩ := h
  exact hw

theorem foldl {f : State → Nat → State} (hf : ∀ s n, s.hlk.wholeRetry = w → OnlyHead w s (f s n)) (l : List Nat) (hw : s.hlk.wholeRetry = w) :
    OnlyHead w s (l.foldl f s) := by
  induction l generalizing s with
  | nil => exact .refl hw
  | cons n l ih => exact (hf s n hw).trans (ih (hf s n hw).wholeRetry)

end OnlyHead

section
variable {w : Bool}

theorem modLane_onlyHead (n : Nat) (f : HlkLane → HlkLane) (hw : s.hlk.wholeRetry = w) : OnlyHead w s (modLane n f s) :=
  .of_hlk (h := { s.hlk with lanes := s.hlk.lanes.modify n f }) hw s

theorem laneFailing_onlyHead (n : Nat) (c : LaneFault) (hw : s.hlk.wholeRetry = w) : OnlyHead w s (laneFailing n c s) := by
  unfold laneFailing
  dsimp only
  split_ifs
  · exact .refl hw
  · exact (OnlyHead.of_hlk (h := { s.hlk with maskNext := s.hlk.maskNext ++ [(n, false)] }) hw s).trans (modLane_onlyHead n _ hw)
  · exact modLane_onlyHead n _ hw

theorem trainLane_onlyHead (tr : TrainResult) (s : State) (n : Nat) (hw : s.hlk.wholeRetry = w) : OnlyHead w s (trainLane tr s n) := by
  have fails : ∀ c (u : State), OnlyHead w s u →
      OnlyHead w s (laneFailing n c (modLane n (fun l => { l with active := false, locked := false }) u)) := fun c u h =>
    h.trans ((modLane_onlyHead n _ h.wholeRetry).trans (laneFailing_onlyHead n c h.wholeRetry))
  unfold trainLane
  dsimp only
  generalize (if inboundLane n then tr.rxOk.getLsbD n else tr.txOk.getLsbD (n - 12)) = ok
  split_ifs
  · exact .refl hw
  · exact modLane_onlyHead n _ hw
  · exact fails _ _ (.of_onlyEvents hw (raise_onlyEvents ..))
  · exact fails _ s (.refl hw)

theorem updateCaps_onlyHead (hw : s.hlk.wholeRetry = w) : OnlyHead w s (updateCaps s) := by
  have capped : ∀ (r x : Nat) (b : Prop) [Decidable b], OnlyHead w s
      (if b then raise evHlkStepCap r x { s with hlk := { s.hlk with capRead := r, capWrite := x } }
      else { s with hlk := { s.hlk with capRead := r, capWrite := x } }) := by
    intro r x b _
    have set := OnlyHead.of_hlk (h := { s.hlk with capRead := r, capWrite := x }) hw s
    split
    · exact set.trans (.of_onlyEvents hw (raise_onlyEvents ..))
    · exact set
  exact capped ..

theorem sendBlocks_onlyHead (n : Nat) (l : List (BitVec 2 × Word)) (hw : s.hlk.wholeRetry = w) : OnlyHead w s (sendBlocks n l s) := by
  unfold sendBlocks
  dsimp only
  exact (modLane_onlyHead n _ hw).trans (.of_onlyEvents hw (emit_onlyEvents ..))

theorem sendMask_onlyHead (hw : s.hlk.wholeRetry = w) : OnlyHead w s (sendMask s) := by
  unfold sendMask sendControl sendFrame
  split
  · exact .refl hw
  · next n _ =>
    have sent := sendBlocks_onlyHead n (frameBlocks 0xC 0x7F (getLane n s).txSeq 0 [wd (maskOf s)]) hw
    exact sent.trans (modLane_onlyHead n _ sent.wholeRetry)

/-- The link as its training begins, every lane anew. -/
def trainingBegins (tr : TrainResult) (s : State) : State :=
  { s with hlk := { s.hlk with
    retraining := none, maskNext := [], nextIndex := [], ahead := [], samples := [], h64Id := tr.ident, h64RstN := true
    lanes := s.hlk.lanes.map fun l => { l with failing := false } } }

/-- The link whose training has ended. -/
def linkTrained (s : State) : State := { s with hlk := { s.hlk with state := if s.hlk.lanes.any (·.retired) then 3 else 2 } }

/-- The link after its lanes were trained one by one. -/
def lanesTrained (tr : TrainResult) (s : State) : State := (List.range 16).foldl (trainLane tr) (trainingBegins tr s)

/-- The link in service, without a retry of the whole link behind it. -/
def linkServes (s : State) : State := { s with hlk := { s.hlk with wholeRetry := false } }

/-- A trained link whose mask was sent: too few lanes, or in service. -/
def linkSettled (tried : Bool) (s : State) : State :=
  if tooFew s then linkFails s else updateCaps (if tried then addTransient unHeadLink (linkServes s) else linkServes s)

theorem trainLink_eq {tr : TrainResult} (hi : identOk tr.ident = true) (s : State) :
    trainLink tr s = linkSettled (lanesTrained tr s).hlk.wholeRetry (sendMask (linkTrained (lanesTrained tr s))) := by
  have passes : ¬ (!identOk tr.ident) = true := by rw [hi]; decide
  unfold trainLink lanesTrained
  generalize List.range 16 = lanes
  dsimp only
  rw [if_neg passes]
  rfl

theorem lanesTrained_onlyHead (tr : TrainResult) (hw : s.hlk.wholeRetry = false) : OnlyHead false s (lanesTrained tr s) := by
  have begins : OnlyHead false s (trainingBegins tr s) := by
    unfold trainingBegins
    exact ⟨_, by exact hw, .refl _⟩
  unfold lanesTrained
  generalize List.range 16 = lanes
  exact begins.trans (OnlyHead.foldl (fun u n h => trainLane_onlyHead tr u n h) lanes begins.wholeRetry)

theorem linkTrained_onlyHead {w : Bool} (hw : s.hlk.wholeRetry = w) : OnlyHead w s (linkTrained s) := by
  unfold linkTrained
  exact ⟨_, by exact hw, .refl _⟩

theorem linkSettled_onlyHead (hw : s.hlk.wholeRetry = false) : ∃ w, OnlyHead w s (linkSettled false s) := by
  unfold linkSettled
  split
  · have fails : linkFails s = updateCaps { s with hlk := { s.hlk with state := 1, wholeRetry := true, retraining := none, maskNext := [] } } :=
      if_neg (by rw [hw]; decide)
    rw [fails]
    exact ⟨true, (OnlyHead.of_hlk rfl s).trans (updateCaps_onlyHead rfl)⟩
  · exact ⟨false, (OnlyHead.of_hlk rfl s).trans (updateCaps_onlyHead (s := linkServes s) rfl)⟩

/-- A whole link that trains for the first time: nothing but the link changes. -/
theorem trainLink_onlyHead {tr : TrainResult} (hi : identOk tr.ident = true) (hw : s.hlk.wholeRetry = false) :
    ∃ w, OnlyHead w s (trainLink tr s) := by
  have lanes := lanesTrained_onlyHead tr hw
  have trained := lanes.trans (linkTrained_onlyHead lanes.wholeRetry)
  have sent := trained.trans (sendMask_onlyHead trained.wholeRetry)
  obtain ⟨w, settled⟩ := linkSettled_onlyHead sent.wholeRetry
  rw [trainLink_eq hi, lanes.wholeRetry]
  exact ⟨w, sent.trans settled⟩

end

/-! ### WAKE_COMPLETE -/

namespace OnlyHead

theorem parts {w : Bool} (h : OnlyHead w s t) :
    t.jrn = s.jrn ∧ t.mem = s.mem ∧ t.mram = s.mram ∧ t.aon = s.aon ∧ t.pwr = s.pwr := by
  obtain ⟨q, -, events⟩ := h
  exact ⟨(events.jrn :), (device_mem events.device :), (device_mram events.device :), (device_aon events.device :), (device_pwr events.device :)⟩

end OnlyHead

/-- The core in run, its reels as the cartridge says, before the link trains. -/
def awakened (k : Nat) (s : State) : State :=
  let s := if 3 ≤ k then { s with aon := { s.aon with reelEn := s.cart.inDrive.isSome } } else s
  { s with pwr := { s.pwr with state := 0, waking := false } }

theorem awakened_ends (k : Nat) (s : State) :
    (awakened k s).pwr.state = 0 ∧ (awakened k s).pwr.waking = false ∧ (awakened k s).jrn = s.jrn ∧ (awakened k s).mem = s.mem
      ∧ (awakened k s).mram = s.mram ∧ (awakened k s).hlk = s.hlk ∧ (3 ≤ k → (awakened k s).aon.reelEn = s.cart.inDrive.isSome) := by
  unfold awakened
  dsimp only
  split
  · exact ⟨rfl, rfl, rfl, rfl, rfl, rfl, fun _ => rfl⟩
  · next h => exact ⟨rfl, rfl, rfl, rfl, rfl, rfl, fun h3 => absurd h3 h⟩

theorem awake_eq (k : Nat) (tr : TrainResult) (s : State) :
    awake k tr s = raiseP evPwrStateChange 0 (if 2 ≤ k ∧ (awakened k s).hlk.state ≠ 4 then trainLink tr (awakened k s) else awakened k s) := rfl

/-- A wake that does not train the link, or trains it for the first time with a right IDENT. -/
theorem awake_ends {k : Nat} {tr : TrainResult}
    (h : k ≤ 1 ∨ s.hlk.state = 4 ∨ (identOk tr.ident = true ∧ s.hlk.wholeRetry = false)) :
    (awake k tr s).pwr.state = 0 ∧ (awake k tr s).pwr.waking = false ∧ (awake k tr s).jrn = s.jrn ∧ (awake k tr s).mem = s.mem
      ∧ (awake k tr s).mram = s.mram ∧ (3 ≤ k → (awake k tr s).aon.reelEn = s.cart.inDrive.isSome) := by
  obtain ⟨state, waking, jrn, mem, mram, hlk, reel⟩ := awakened_ends k s
  have trained : ∃ w, OnlyHead w (awakened k s)
      (if 2 ≤ k ∧ (awakened k s).hlk.state ≠ 4 then trainLink tr (awakened k s) else awakened k s) := by
    split
    · next trains =>
      rw [hlk] at trains
      obtain ⟨ident, first⟩ := (h.resolve_left (by omega)).resolve_left trains.2
      exact trainLink_onlyHead ident (by rw [hlk]; exact first)
    · exact ⟨_, .refl rfl⟩
  obtain ⟨w, trained⟩ := trained
  rw [awake_eq]
  generalize (if 2 ≤ k ∧ (awakened k s).hlk.state ≠ 4 then trainLink tr (awakened k s) else awakened k s) = u at *
  obtain ⟨jrn', mem', mram', aon', pwr'⟩ := (trained.trans (.of_onlyEvents trained.wholeRetry (raiseP_onlyEvents evPwrStateChange 0 u))).parts
  rw [jrn', mem', mram', aon', pwr']
  exact ⟨state, waking, jrn, mem, mram, reel⟩

theorem awake_link {k : Nat} {tr : TrainResult} (h : k ≤ 1) : (awake k tr s).hlk = s.hlk := by
  have rests : ¬ (2 ≤ k ∧ (awakened k s).hlk.state ≠ 4) := by omega
  rw [awake_eq, if_neg rests]
  exact (device_hlk (raiseP_onlyEvents ..).device).trans (awakened_ends k s).2.2.2.2.2.1

/-- The state that a wake starts from: on the way out of L3 the SRAM is swept. -/
def wakeFrom (s : State) : State := if s.pwr.state = 4 then restoreL3 s else s

theorem wakeFrom_ends (s : State) :
    (wakeFrom s).hlk = s.hlk ∧ (wakeFrom s).jrn = s.jrn ∧ (wakeFrom s).mem.hbm = s.mem.hbm ∧ (wakeFrom s).cart = s.cart
      ∧ (s.pwr.state ≠ 4 → (wakeFrom s).mem.sram = s.mem.sram ∧ (wakeFrom s).mram = s.mram)
      ∧ (s.pwr.state = 4 → (wakeFrom s).mem.sram = [] ∧ (wakeFrom s).mram.cleanMark = false) := by
  unfold wakeFrom
  split
  · next h => exact ⟨rfl, rfl, rfl, rfl, fun h' => absurd h h', fun _ => ⟨rfl, rfl⟩⟩
  · next h => exact ⟨rfl, rfl, rfl, rfl, fun _ => ⟨rfl, rfl⟩, fun h' => absurd h' h⟩

theorem wakeComplete_runs {tr : TrainResult} (hw : s.pwr.waking = true) (hp : s.sys.phase = .running) :
    exec (.wakeComplete tr) s = .next (awake s.pwr.state tr (wakeFrom s)) := by
  have goes : ¬ (!s.pwr.waking || decide (s.sys.phase ≠ .running)) = true := by simp [hw, hp]
  change execWakeComplete tr s = _
  rw [execWakeComplete, if_neg goes]
  rfl

theorem wakeComplete_ends {tr : TrainResult} (hw : s.pwr.waking = true) (hp : s.sys.phase = .running) :
    ∃ t, exec (.wakeComplete tr) s = .next t ∧ (s.pwr.state ≤ 1 → t.hlk = s.hlk)
      ∧ (s.pwr.state ≤ 1 ∨ s.hlk.state = 4 ∨ (identOk tr.ident = true ∧ s.hlk.wholeRetry = false) →
          t.pwr.state = 0 ∧ t.pwr.waking = false ∧ t.jrn = s.jrn ∧ t.mem.hbm = s.mem.hbm
          ∧ (s.pwr.state ≠ 4 → t.mem.sram = s.mem.sram ∧ t.mram = s.mram)
          ∧ (s.pwr.state = 4 → t.mem.sram = [] ∧ t.mram.cleanMark = false)
          ∧ (3 ≤ s.pwr.state → t.aon.reelEn = s.cart.inDrive.isSome)) := by
  obtain ⟨hlk, jrn, hbm, cart, stays, swept⟩ := wakeFrom_ends s
  refine ⟨_, wakeComplete_runs hw hp, fun h => (awake_link h).trans hlk, fun h => ?_⟩
  obtain ⟨state, waking, jrn', mem', mram', reel⟩ := awake_ends (s := wakeFrom s) (k := s.pwr.state) (tr := tr) (by rw [hlk]; exact h)
  rw [mem', mram', cart] at *
  exact ⟨state, waking, jrn'.trans jrn, hbm, stays, swept, reel⟩

theorem wakeComplete_not {tr : TrainResult} (h : s.pwr.waking = false ∨ s.sys.phase ≠ .running) :
    exec (.wakeComplete tr) s = .next s := by
  change execWakeComplete tr s = _
  rw [execWakeComplete]
  exact congrArg Host.Outcome.next (if_pos (by rcases h with h | h <;> simp [h]))

/-! ### The cartridge's presence and the slack switch -/

theorem wakeNow_parts (s : State) : (s.pwr.state ≠ 0 → (wakeNow s).pwr.waking = true) ∧ ∃ p, wakeNow s = { s with pwr := p } :=
  ⟨fun h => by rw [wakeNow_out h], wakeNow_shape s⟩

theorem removeCart_parts (s : State) :
    (removeCart s).pwr = s.pwr ∧ (removeCart s).aon = s.aon ∧ (removeCart s).cart.inDrive = none
      ∧ (s.cart.inDrive.isSome = true → (removeCart s).cart = Cart.reset) := by
  unfold removeCart
  cases hc : s.cart.inDrive with
  | none => exact ⟨rfl, rfl, hc, fun h => nomatch h⟩
  | some c =>
    have gear : ∀ u : State, u.gear = s.gear → u.pwr = s.pwr := fun u h => by
      simp only [State.gear, Prod.mk.injEq] at h
      exact h.2.2.2.1
    refine ⟨gear _ ?_, ?_, rfl, fun _ => rfl⟩
    · simp [(recordTruncs_parts ..).1]
    · simp [(recordTruncs_parts ..).2]

theorem cartPresenceChange_inserts {c : Cartridge} (h : s.aon.cartPresent = false) :
    ∃ t, exec (.cartPresenceChange (some c)) s = .next t ∧ t.aon.cartPresent = true ∧ t.cart = { Cart.reset with inDrive := some c }
      ∧ t.fmt = s.fmt ∧ t.jrn = s.jrn ∧ t.mem = s.mem ∧ (s.pwr.state ≠ 0 → t.pwr.waking = true) := by
  let u : State := { s with aon := { s.aon with cartPresent := true }, cart := { Cart.reset with inDrive := some c } }
  have events := raiseP_onlyEvents evPwrCartChange 1 u
  have pwr : (raiseP evPwrCartChange 1 u).pwr = s.pwr := (device_pwr events.device :)
  obtain ⟨wakes, p, shape⟩ := wakeNow_parts (raiseP evPwrCartChange 1 u)
  refine ⟨wakeNow (raiseP evPwrCartChange 1 u), ?_, ?_, ?_, ?_, ?_, ?_, fun out => wakes (by rw [pwr]; exact out)⟩
  · change execCartPresenceChange (some c) s = _
    rw [execCartPresenceChange, if_neg (by rw [h]; exact fun h => nomatch h)]
    rfl
  all_goals rw [shape]
  · exact (congrArg Aon.cartPresent (device_aon events.device) :)
  · exact (device_cart events.device :)
  · exact (device_fmt events.device :)
  · exact (events.jrn :)
  · exact (device_mem events.device :)

theorem cartPresenceChange_removes (h : s.aon.cartPresent = true) :
    ∃ t, exec (.cartPresenceChange none) s = .next t ∧ t.aon.cartPresent = false ∧ t.cart.inDrive = none
      ∧ (s.cart.inDrive.isSome = true → t.cart = Cart.reset) ∧ (s.pwr.state ≠ 0 → t.pwr.waking = true) := by
  let u : State := { s with aon := { s.aon with cartPresent := false } }
  obtain ⟨pwr, aon, drive, cart⟩ := removeCart_parts u
  have events := raiseP_onlyEvents evPwrCartChange 0 (removeCart u)
  obtain ⟨wakes, p, shape⟩ := wakeNow_parts (raiseP evPwrCartChange 0 (removeCart u))
  have run : exec (.cartPresenceChange none) s = .next (wakeNow (raiseP evPwrCartChange 0 (removeCart u))) := by
    change execCartPresenceChange none s = _
    rw [execCartPresenceChange, if_neg (by rw [h]; decide)]
    rfl
  have wakes' : s.pwr.state ≠ 0 → (wakeNow (raiseP evPwrCartChange 0 (removeCart u))).pwr.waking = true := fun out =>
    wakes (by rw [device_pwr events.device, pwr]; exact out)
  refine ⟨_, run, ?_, ?_, fun hc => ?_, wakes'⟩
  all_goals rw [shape]
  · exact (congrArg Aon.cartPresent ((device_aon events.device).trans aon) :)
  · exact ((congrArg Cart.inDrive (device_cart events.device)).trans drive :)
  · exact ((device_cart events.device).trans (cart hc) :)

theorem cartPresenceChange_same {c : Option Cartridge} (h : s.aon.cartPresent = c.isSome) : exec (.cartPresenceChange c) s = .next s := by
  change execCartPresenceChange c s = _
  rw [execCartPresenceChange, if_pos h.symm]

/-- The slack switch reads as the input says. -/
def slackTaken (a : Bool) (s : State) : State := { s with aon := { s.aon with slack := a } }

theorem tapeSlack_runs (a : Bool) (s : State) :
    exec (.tapeSlack a) s = .next (if a && !s.aon.slack then raiseN evPwrTapeSlack (slackTaken a s) else slackTaken a s) := rfl

theorem tapeSlack_ends (a : Bool) (s : State) :
    ∃ t, exec (.tapeSlack a) s = .next t ∧ t.aon = { s.aon with slack := a } ∧ t.jrn = s.jrn ∧ t.mem = s.mem
      ∧ ((a = false ∨ s.aon.slack = true) → t.out = s.out ∧ t.hif = s.hif ∧ t.cmd = s.cmd)
      ∧ (a = true → s.aon.slack = false → t = raiseN evPwrTapeSlack { s with aon := { s.aon with slack := a } }) := by
  refine ⟨_, tapeSlack_runs a s, ?_⟩
  split
  · next raised =>
    rw [Bool.and_eq_true, Bool.not_eq_true'] at raised
    have events := raiseN_onlyEvents evPwrTapeSlack (slackTaken a s)
    exact ⟨(device_aon events.device :), (events.jrn :), (device_mem events.device :), fun h => absurd raised (by rcases h with h | h <;> simp [h]),
      fun _ _ => rfl⟩
  · next quiet => exact ⟨rfl, rfl, rfl, fun _ => ⟨rfl, rfl, rfl⟩, fun ha hs => absurd (by simp [ha, hs]) quiet⟩

/-- Settles O55: an idle core goes as deep as its tolerance allows, a wake brings it back, and the pins take their new value. -/
theorem powerStatesAndPins : Obligations.PowerStatesAndPins :=
  ⟨fun _ _ hi hd => idleEntry_ends hi hd, fun _ _ h => idleEntry_not h, fun _ _ hk h => wakeTrigger_wakes hk h, fun _ _ h => wakeTrigger_not h,
    fun _ h => congrArg Host.Outcome.next (wakeNow_out h), fun _ h => congrArg Host.Outcome.next (wakeNow_run h),
    fun _ _ hw hp => wakeComplete_ends hw hp, fun _ _ h => wakeComplete_not h, fun _ _ h => cartPresenceChange_inserts h,
    fun _ h => cartPresenceChange_removes h, fun _ _ h => cartPresenceChange_same h, fun a s => tapeSlack_ends a s⟩

end Sys2Proof.Proofs
end

section
/-! PROOFS. The control cores: kicks, watchdogs, retries and roles (17 R440-R443; O56). -/

namespace Sys2Proof.Proofs

open Sys2Proof.Machine Sys2Proof.Safety Sys2Proof.Laws

variable {s t : State} {c : Nat}

/-! ### Bits of the cores -/

theorem coreBit_getLsbD {c : Nat} (hc : c < 4) (k : Nat) : (coreBit c).getLsbD k = decide (k = c) := by
  by_cases hk : k < 4
  · have all : ∀ c < 4, ∀ k < 4, (coreBit c).getLsbD k = decide (k = c) := by decide
    exact all c hc k hk
  · rw [BitVec.getLsbD_of_ge _ _ (Nat.not_lt.1 hk)]
    exact (decide_eq_false (by omega)).symm

theorem withCore_getLsbD (b : BitVec 4) (hc : c < 4) (k : Nat) : (b ||| coreBit c).getLsbD k = (b.getLsbD k || decide (k = c)) := by
  rw [BitVec.getLsbD_or, coreBit_getLsbD hc]

theorem withoutCore_getLsbD (b : BitVec 4) (hc : c < 4) (k : Nat) :
    (b &&& (15 ^^^ coreBit c)).getLsbD k = (b.getLsbD k && !decide (k = c)) := by
  rw [BitVec.getLsbD_and, BitVec.getLsbD_xor, coreBit_getLsbD hc]
  by_cases hk : k < 4
  · have all : ∀ k < 4, (15 : BitVec 4).getLsbD k = true := by decide
    rw [all k hk, Bool.true_xor]
  · rw [BitVec.getLsbD_of_ge b _ (Nat.not_lt.1 hk), Bool.false_and, Bool.false_and]

/-- The cores in service are those that are not out. -/
theorem foldl_coreBit (out : Nat → Bool) (hc : c < 4) :
    ((List.range 4).foldl (fun b k => if out k then b else b ||| coreBit k) (0 : BitVec 4)).getLsbD c = !out c := by
  have all : ∀ a b d e : Bool, ∀ c < 4, ([(0, a), (1, b), (2, d), (3, e)].foldl (fun (x : BitVec 4) p => if p.2 then x else x ||| coreBit p.1) 0).getLsbD c
      = !([a, b, d, e].getD c false) := by decide
  have this := all (out 0) (out 1) (out 2) (out 3) c hc
  obtain rfl | rfl | rfl | rfl : c = 0 ∨ c = 1 ∨ c = 2 ∨ c = 3 := by omega
  all_goals exact this

theorem assignRoles_up (hc : c < 4) (s : State) : (assignRoles s).sys.coresUp.getLsbD c = !coreOut c s := foldl_coreBit (fun k => coreOut k s) hc

/-! ### Units -/

theorem setUnit_sys (u st cause : Nat) (s : State) :
    (setUnit u st cause s).sys = { s.sys with units := s.sys.units.modify u fun x => { x with state := st, cause := cause } } := by
  unfold setUnit
  dsimp only
  split
  · rfl
  · exact (raise_onlyEvents ..).sys

theorem unitState_modify_other {u v : Nat} (h : v ≠ u) (f : SysUnit → SysUnit) (l : List SysUnit) :
    ((l.modify u f).getD v .zero).state = (l.getD v .zero).state := by
  simp [List.getD_eq_getElem?_getD, h.symm]

theorem unitState_modify_keeps (u : Nat) (f : SysUnit → SysUnit) (l : List SysUnit) (v : Nat) (hf : ∀ x, (f x).state = x.state) :
    ((l.modify u f).getD v .zero).state = (l.getD v .zero).state := by
  rw [List.getD_eq_getElem?_getD, List.getD_eq_getElem?_getD, List.getElem?_modify]
  cases l[v]? with
  | none => rfl
  | some x => by_cases h : u = v <;> simp [h, hf]

theorem unitState_modify_zero (u cause : Nat) (l : List SysUnit) :
    ((l.modify u fun x => { x with state := 0, cause := cause }).getD u .zero).state = 0 := by
  rw [List.getD_eq_getElem?_getD, List.getElem?_modify]
  cases l[u]? with
  | none => rfl
  | some x => simp

/-! ### A core that lasts or is retried -/

theorem coreOut_congr (h : t.sys = s.sys) (c : Nat) : coreOut c t = coreOut c s := by
  unfold coreOut unitState
  rw [h]

/-- The state in which a core is lasting, before the roles. -/
def coreDown (c : Nat) (s : State) : State :=
  raiseP evSysCoreLasting c (setUnit (unCore0 + c) 2 0 { s with sys := { s.sys with
    faulted := s.sys.faulted &&& (15 ^^^ coreBit c), lasting := s.sys.lasting ||| coreBit c } })

theorem coreLasting_eq (c : Nat) (s : State) : coreLasting c s = assignRoles (coreDown c s) := rfl

theorem assignRoles_parts (s : State) :
    (assignRoles s).sys.faulted = s.sys.faulted ∧ (assignRoles s).sys.lasting = s.sys.lasting ∧ (assignRoles s).jrn = s.jrn
      ∧ (assignRoles s).mem = s.mem ∧ (assignRoles s).fmt = s.fmt := ⟨rfl, rfl, rfl, rfl, rfl⟩

theorem helm_parts (h : t.helm = s.helm) : t.jrn = s.jrn ∧ t.fmt = s.fmt := by
  simp only [State.helm, Prod.mk.injEq] at h
  exact ⟨h.1, h.2.1⟩

theorem coreDown_parts (c : Nat) (s : State) :
    (coreDown c s).sys.faulted = s.sys.faulted &&& (15 ^^^ coreBit c) ∧ (coreDown c s).sys.lasting = s.sys.lasting ||| coreBit c
      ∧ (coreDown c s).jrn = s.jrn ∧ (coreDown c s).mem = s.mem ∧ (coreDown c s).fmt = s.fmt := by
  let u : State := { s with sys := { s.sys with
    faulted := s.sys.faulted &&& (15 ^^^ coreBit c), lasting := s.sys.lasting ||| coreBit c } }
  have sys := (raiseP_onlyEvents evSysCoreLasting c (setUnit (unCore0 + c) 2 0 u)).sys.trans (setUnit_sys ..)
  obtain ⟨jrn, fmt⟩ := helm_parts ((raiseP_helm evSysCoreLasting c (setUnit (unCore0 + c) 2 0 u)).trans (setUnit_helm ..))
  have mem : (coreDown c s).mem = u.mem := (raiseP_mem ..).trans (setUnit_mem ..)
  exact ⟨(congrArg Sys.faulted sys :), (congrArg Sys.lasting sys :), jrn, mem, fmt⟩

theorem coreLasting_ends (hc : c < 4) (s : State) :
    (coreLasting c s).sys.faulted.getLsbD c = false ∧ (coreLasting c s).sys.lasting.getLsbD c = true
      ∧ (coreLasting c s).sys.coresUp.getLsbD c = false ∧ (coreLasting c s).jrn = s.jrn ∧ (coreLasting c s).mem = s.mem
      ∧ (coreLasting c s).fmt = s.fmt := by
  obtain ⟨faulted, lasting, jrn, mem, fmt⟩ := coreDown_parts c s
  have lasts : (coreDown c s).sys.lasting.getLsbD c = true := by
    rw [lasting, withCore_getLsbD _ hc]
    simp
  rw [coreLasting_eq]
  obtain ⟨faulted', lasting', jrn', mem', fmt'⟩ := assignRoles_parts (coreDown c s)
  rw [assignRoles_up hc, faulted', lasting', jrn', mem', fmt', faulted, withoutCore_getLsbD _ hc]
  refine ⟨by simp, lasts, ?_, jrn, mem, fmt⟩
  rw [coreOut, lasts]
  rfl

theorem coreRetry_parts (c : Nat) (s : State) :
    (coreRetry c s).sys = { s.sys with
        faulted := s.sys.faulted ||| coreBit c
        units := s.sys.units.modify (unCore0 + c) fun x => { x with state := 1, cause := 0 } }
      ∧ (coreRetry c s).jrn = s.jrn ∧ (coreRetry c s).mem = s.mem ∧ (coreRetry c s).fmt = s.fmt := by
  let u : State := { s with sys := { s.sys with faulted := s.sys.faulted ||| coreBit c } }
  have sys := (raiseP_onlyEvents evSysCoreFault c (setUnit (unCore0 + c) 1 0 u)).sys.trans (setUnit_sys ..)
  obtain ⟨jrn, fmt⟩ := helm_parts ((raiseP_helm evSysCoreFault c (setUnit (unCore0 + c) 1 0 u)).trans (setUnit_helm ..))
  exact ⟨sys, jrn, coreRetry_mem c s, fmt⟩

/-- A core that is retried is out, and a role that it had goes to the next. -/
theorem coreRetry_ends (hc : c < 4) (s : State) :
    (assignRoles (coreRetry c s)).sys.faulted.getLsbD c = true ∧ (assignRoles (coreRetry c s)).sys.coresUp.getLsbD c = false
      ∧ (c = 0 → coreOut 1 s = false → (assignRoles (coreRetry c s)).sys.tickCore = 1) ∧ (c = 3 → (assignRoles (coreRetry c s)).sys.mgtCore = 2)
      ∧ (assignRoles (coreRetry c s)).jrn = s.jrn ∧ (assignRoles (coreRetry c s)).mem = s.mem ∧ (assignRoles (coreRetry c s)).fmt = s.fmt := by
  obtain ⟨sys, jrn, mem, fmt⟩ := coreRetry_parts c s
  obtain ⟨faulted', -, jrn', mem', fmt'⟩ := assignRoles_parts (coreRetry c s)
  have faulted : (coreRetry c s).sys.faulted.getLsbD c = true := by
    rw [sys]
    exact (withCore_getLsbD _ hc c).trans (by simp)
  have out : coreOut c (coreRetry c s) = true := by
    rw [coreOut, faulted]
    simp
  refine ⟨faulted, by rw [assignRoles_up hc, out]; rfl, fun h0 next => ?_, fun h3 => ?_, jrn, mem, fmt⟩
  · subst h0
    have other : coreOut 1 (coreRetry 0 s) = false := by
      rw [coreOut, Bool.or_eq_false_iff, Bool.or_eq_false_iff] at next
      obtain ⟨⟨lasting, fault⟩, unit⟩ := next
      rw [coreOut, unitState, sys, Bool.or_eq_false_iff, Bool.or_eq_false_iff]
      refine ⟨⟨lasting, (withCore_getLsbD _ (by decide) 1).trans (by rw [fault]; rfl)⟩, ?_⟩
      exact (congrArg (· == 3) (unitState_modify_other (by decide) _ s.sys.units)).trans unit
    change (if !coreOut 0 (coreRetry 0 s) then 0 else if !coreOut 1 (coreRetry 0 s) then 1 else 2) = 1
    rw [out, other]
    rfl
  · subst h3
    change (if !coreOut 3 (coreRetry 3 s) then 3 else 2) = 2
    rw [out]
    rfl

/-! ### Kicks and watchdogs -/

theorem sysCoreKick_kicks {at_ : Nat} (hc : c < 4) (hl : s.sys.cores.length = 4) :
    ∃ t, exec (.sysCoreKick c at_) s = .next t ∧ (t.sys.cores[c]?.map (·.lastKick)) = some (max s.aon.time at_)
      ∧ (∀ k, k ≠ c → t.sys.cores[k]? = s.sys.cores[k]?) ∧ t.sys.faulted = s.sys.faulted ∧ t.sys.coresUp = s.sys.coresUp
      ∧ t.jrn = s.jrn ∧ t.mem = s.mem := by
  refine ⟨setCore c (fun x => { x with lastKick := max s.aon.time at_ }) (atTime at_ s), rfl, ?_, fun k hk => ?_, rfl, rfl, rfl, rfl⟩
  · change ((s.sys.cores.modify c _)[c]?.map _) = _
    simp [List.getElem?_eq_getElem (hl ▸ hc : c < s.sys.cores.length)]
  · change (s.sys.cores.modify c _)[k]? = _
    simp [hk.symm]

/-- The watchdog of a core that is to be looked at. -/
structure Expired (c at_ : Nat) (x : CoreState) (s : State) : Prop where
  core : s.sys.cores[c]? = some x
  phase : s.sys.phase = .running
  four : c < 4
  up : coreOut c s = false
  late : passedMs x.lastKick (max s.aon.time at_) 1 = true

theorem getCore {x : CoreState} (h : s.sys.cores[c]? = some x) (d : CoreState) : s.sys.cores.getD c d = x := by
  rw [List.getD_eq_getElem?_getD, h, Option.getD_some]

theorem coreWatchdogExpiry_faults {at_ : Nat} {x : CoreState} (h : Expired c at_ x s) :
    exec (.coreWatchdogExpiry c at_) s = .next (coreFault c (atTime at_ s)) := by
  have goes : ¬ (decide (s.sys.phase ≠ .running) || decide (4 ≤ c) || coreOut c s || !passedMs x.lastKick (max s.aon.time at_) 1) = true := by
    simp [h.phase, h.up, h.late, h.four]
  have last : ((atTime at_ s).sys.cores.getD c { lastKick := 0, lastRetry := none }).lastKick = x.lastKick := congrArg CoreState.lastKick (getCore h.core _)
  change execCoreWatchdogExpiry c at_ s = _
  rw [execCoreWatchdogExpiry]
  dsimp only
  rw [last]
  exact congrArg Host.Outcome.next (if_neg goes)

theorem coreWatchdogExpiry_not {at_ : Nat} {x : CoreState} (hx : s.sys.cores[c]? = some x)
    (h : s.sys.phase ≠ .running ∨ 4 ≤ c ∨ coreOut c s = true ∨ passedMs x.lastKick (max s.aon.time at_) 1 = false) :
    exec (.coreWatchdogExpiry c at_) s = .next (atTime at_ s) := by
  have stays : (decide (s.sys.phase ≠ .running) || decide (4 ≤ c) || coreOut c s || !passedMs x.lastKick (max s.aon.time at_) 1) = true := by
    rcases h with h | h | h | h <;> simp [h]
  have last : ((atTime at_ s).sys.cores.getD c { lastKick := 0, lastRetry := none }).lastKick = x.lastKick := congrArg CoreState.lastKick (getCore hx _)
  change execCoreWatchdogExpiry c at_ s = _
  rw [execCoreWatchdogExpiry]
  dsimp only
  rw [last]
  exact congrArg Host.Outcome.next (if_pos stays)

/-- A fault while no other core is out, of a core that interprets nothing. -/
theorem coreFault_alone {x : CoreState} (hx : s.sys.cores[c]? = some x) (other : otherFault c s = false) (idle : interpretedBy c s = []) :
    let u : State := { s with freeCount := s.freeCount + s.jrn.runs.length }
    coreFault c s = if x.lastRetry.any fun t => !passedMs t s.aon.time 60000 then coreLasting c (raiseP evSysCoreFault c u)
      else assignRoles (coreRetry c u) := by
  dsimp only
  unfold coreFault
  rw [if_neg (by rw [other]; decide), idle]
  dsimp only
  rw [getCore hx]
  rfl

theorem watchdog_retries {at_ : Nat} {x : CoreState} (h : Expired c at_ x s) (other : otherFault c s = false) (idle : interpretedBy c s = [])
    (first : x.lastRetry = none) :
    ∃ t, exec (.coreWatchdogExpiry c at_) s = .next t ∧ t.sys.faulted.getLsbD c = true ∧ t.sys.coresUp.getLsbD c = false
      ∧ (c = 0 → coreOut 1 s = false → t.sys.tickCore = 1) ∧ (c = 3 → t.sys.mgtCore = 2)
      ∧ t.jrn = s.jrn ∧ t.mem = s.mem ∧ t.fmt = s.fmt := by
  have fault := coreFault_alone (s := atTime at_ s) h.core other idle
  dsimp only at fault
  rw [first, if_neg (by simp)] at fault
  exact ⟨_, (coreWatchdogExpiry_faults h).trans (congrArg Host.Outcome.next fault), coreRetry_ends h.four _⟩

theorem watchdog_lasts {at_ t1 : Nat} {x : CoreState} (h : Expired c at_ x s) (other : otherFault c s = false) (idle : interpretedBy c s = [])
    (again : x.lastRetry = some t1) (soon : passedMs t1 (max s.aon.time at_) 60000 = false) :
    ∃ t, exec (.coreWatchdogExpiry c at_) s = .next t ∧ t.sys.lasting.getLsbD c = true ∧ t.sys.coresUp.getLsbD c = false
      ∧ t.jrn = s.jrn ∧ t.mem = s.mem ∧ t.fmt = s.fmt := by
  have recurs : x.lastRetry.any (fun t => !passedMs t (atTime at_ s).aon.time 60000) = true := by
    rw [again]
    change (!passedMs t1 (max s.aon.time at_) 60000) = true
    rw [soon]
    rfl
  have fault := coreFault_alone (s := atTime at_ s) h.core other idle
  dsimp only at fault
  rw [if_pos recurs] at fault
  let u : State := { atTime at_ s with freeCount := s.freeCount + s.jrn.runs.length }
  have events := raiseP_onlyEvents evSysCoreFault c u
  obtain ⟨-, lasting, up, jrn, mem, fmt⟩ := coreLasting_ends h.four (raiseP evSysCoreFault c u)
  exact ⟨_, (coreWatchdogExpiry_faults h).trans (congrArg Host.Outcome.next fault), lasting, up, jrn.trans (events.jrn :),
    mem.trans (device_mem events.device :), fmt.trans (device_fmt events.device :)⟩

/-! ### The end of a retry -/

theorem coreRetryDone_fails {at_ : Nat} (hp : s.sys.phase = .running) (hc : c < 4) (hf : s.sys.faulted.getLsbD c = true) :
    ∃ t, exec (.coreRetryDone c false at_) s = .next t ∧ t.sys.faulted.getLsbD c = false ∧ t.sys.lasting.getLsbD c = true
      ∧ t.sys.coresUp.getLsbD c = false ∧ t.jrn = s.jrn ∧ t.mem = s.mem ∧ t.fmt = s.fmt := by
  have goes : ¬ (decide (s.sys.phase ≠ .running) || !s.sys.faulted.getLsbD c) = true := by simp [hp, hf]
  refine ⟨coreLasting c (atTime at_ s), ?_, coreLasting_ends hc _⟩
  change execCoreRetryDone c false at_ s = _
  rw [execCoreRetryDone]
  exact congrArg Host.Outcome.next ((if_neg goes).trans (if_pos rfl))

/-- A core after a retry that has passed, before the roles. -/
def coreBack (c : Nat) (s : State) : State :=
  addTransient (unCore0 + c) (setUnit (unCore0 + c) 0 0
    (setCore c (fun _ => { lastKick := s.aon.time, lastRetry := some s.aon.time })
      { s with sys := { s.sys with faulted := s.sys.faulted &&& (15 ^^^ coreBit c) } }))

theorem coreBack_parts (c : Nat) (s : State) :
    (coreBack c s).sys.faulted = s.sys.faulted &&& (15 ^^^ coreBit c) ∧ (coreBack c s).sys.lasting = s.sys.lasting
      ∧ unitState (unCore0 + c) (coreBack c s) = 0 ∧ (coreBack c s).jrn = s.jrn ∧ (coreBack c s).mem = s.mem ∧ (coreBack c s).fmt = s.fmt := by
  let u := setCore c (fun _ => { lastKick := s.aon.time, lastRetry := some s.aon.time })
    { s with sys := { s.sys with faulted := s.sys.faulted &&& (15 ^^^ coreBit c) } }
  have sys := setUnit_sys (unCore0 + c) 0 0 u
  obtain ⟨jrn, fmt⟩ := helm_parts ((addTransient_helm (unCore0 + c) (setUnit (unCore0 + c) 0 0 u)).trans (setUnit_helm ..))
  have mem : (coreBack c s).mem = u.mem := (addTransient_mem ..).trans (setUnit_mem ..)
  refine ⟨(congrArg Sys.faulted sys :), (congrArg Sys.lasting sys :), ?_, jrn, mem, fmt⟩
  change (((setUnit (unCore0 + c) 0 0 u).sys.units.modify (unCore0 + c) fun x =>
    { x with transient := satAdd (2 ^ 32 - 1) x.transient 1 }).getD (unCore0 + c) .zero).state = 0
  refine (unitState_modify_keeps (unCore0 + c) _ _ (unCore0 + c) (by exact fun _ => rfl)).trans ?_
  rw [sys]
  exact unitState_modify_zero (unCore0 + c) 0 u.sys.units

theorem coreRetryDone_passes {at_ : Nat} (hp : s.sys.phase = .running) (hc : c < 4) (hf : s.sys.faulted.getLsbD c = true)
    (hl : s.sys.lasting.getLsbD c = false) :
    ∃ t, exec (.coreRetryDone c true at_) s = .next t ∧ t.sys.faulted.getLsbD c = false ∧ t.sys.coresUp.getLsbD c = true
      ∧ (∀ k, k ≠ c → t.sys.faulted.getLsbD k = s.sys.faulted.getLsbD k) ∧ t.sys.lasting = s.sys.lasting
      ∧ t.jrn = s.jrn ∧ t.mem = s.mem ∧ t.fmt = s.fmt := by
  have goes : ¬ (decide (s.sys.phase ≠ .running) || !s.sys.faulted.getLsbD c) = true := by simp [hp, hf]
  obtain ⟨faulted, lasting, unit, jrn, mem, fmt⟩ := coreBack_parts c (atTime at_ s)
  obtain ⟨faulted', lasting', jrn', mem', fmt'⟩ := assignRoles_parts (coreBack c (atTime at_ s))
  have clear : (coreBack c (atTime at_ s)).sys.faulted.getLsbD c = false := by
    rw [faulted, withoutCore_getLsbD _ hc]
    simp
  refine ⟨assignRoles (coreBack c (atTime at_ s)), ?_, clear, ?_, fun k hk => ?_, lasting, jrn, mem, fmt⟩
  · change execCoreRetryDone c true at_ s = _
    rw [execCoreRetryDone]
    exact congrArg Host.Outcome.next ((if_neg goes).trans (if_neg (by decide)))
  · rw [assignRoles_up hc, coreOut, clear, lasting, unit]
    change (!(s.sys.lasting.getLsbD c || false || (0 == 3))) = true
    rw [hl]
    rfl
  · rw [faulted', faulted, withoutCore_getLsbD _ hc]
    simp [hk]

theorem coreRetryDone_not {ok : Bool} {at_ : Nat} (h : s.sys.phase ≠ .running ∨ s.sys.faulted.getLsbD c = false) :
    exec (.coreRetryDone c ok at_) s = .next (atTime at_ s) := by
  change execCoreRetryDone c ok at_ s = _
  rw [execCoreRetryDone]
  refine congrArg Host.Outcome.next (if_pos ?_)
  change (decide (s.sys.phase ≠ .running) || !s.sys.faulted.getLsbD c) = true
  rcases h with h | h <;> simp [h]

/-- Settles O56: a core that does not kick is put out of service and retried, its roles go on, and a retry brings it back or makes it last. -/
theorem controlCores : Obligations.ControlCores := by
  refine ⟨fun c at_ s hc hl => sysCoreKick_kicks hc hl, fun c at_ s x hx h => coreWatchdogExpiry_not hx h, ?_, ?_, ?_,
    fun c at_ s hp hc hf hl => coreRetryDone_passes hp hc hf hl, fun c at_ s hp hc hf => coreRetryDone_fails hp hc hf,
    fun c ok at_ s h => coreRetryDone_not h⟩
  · intro c at_ s x core phase four up late other
    exact (coreWatchdogExpiry_faults ⟨core, phase, four, up, late⟩).trans (congrArg Host.Outcome.next (if_pos other))
  · intro c at_ s x core phase four up late other idle first
    exact watchdog_retries ⟨core, phase, four, up, late⟩ other idle first
  · intro c at_ s x t1 core phase four up late other idle again soon
    exact watchdog_lasts ⟨core, phase, four, up, late⟩ other idle again soon

end Sys2Proof.Proofs
end

section
/-! PROOFS. Blocks are fetched, encoded and checked (02 R52, 14 R359; O57). -/

namespace Sys2Proof.Proofs

open Sys2Proof.Machine Sys2Proof.Safety Sys2Proof.Laws

/-- The list entry of the record that is fetched: 2 bytes at host address 0. -/
def twoBytes : ListEntry := { address := 0, length := 2, eor := true, hdm := false, rsvd := 0 }

/-- The command of that record. -/
def fetchingRun : RunInfo := newRun 1 [twoBytes] false

/-- A write of that record which holds two buffer handles that Porter refuses: no buffer of theirs is allocated. -/
def staleWrite : WriteRun :=
  { jsn := 1, ctx := 0, partition := 0, tenant := 0, level := 0, persist := false, subscribe := false, filemarks := 0, lens := [2],
    input := [], encoded := 0, blocks := [], nextBlock := 0, placedBytes := 0, placedItems := 0, firstItem := none, startEnd := 0,
    done := 0, marks := [], durable := 0, ending := none, carry := [], histFrom := 0, base := 0, badItem := none, bufs := [1, 1],
    spent := none }

/-- The write alone in the formatter, with host memory in reach and the vector 83 of PRT_REFUSED's group unmasked. -/
def staleFetch : State :=
  { State.reset with
    hif := { Hif.reset with busMaster := true, unmasked := [(83, true)] }
    jrn := { Journal.reset with runs := [fetchingRun] }
    fmt := { Fmt.reset with writes := [staleWrite] } }

/-- The fetch of one byte needs one buffer of the two; Porter refuses the other's FREE, and PRT_REFUSED sends its vector. -/
theorem fetch_sendsVector :
    ∃ t, exec (.hostRecordFetch 1 [0] true) staleFetch = .next t ∧ t.out = [.hostRead 0 1, .msix 83] := ⟨_, rfl, rfl⟩

/-- Refutes O57: its clause for a fetch gives the read of host memory as the step's only output in every state. A buffer that the write
no longer needs goes back at the fetch (02 R52), and where Porter refuses its handle, the event's vector is sent as well. -/
theorem not_blocksAreEncodedAndChecked : ¬ Obligations.BlocksAreEncodedAndChecked := by
  unfold Obligations.BlocksAreEncodedAndChecked
  rintro ⟨fetch, -⟩
  obtain ⟨reads, -⟩ := fetch 1 [0] true staleFetch staleWrite fetchingRun twoBytes 0 rfl rfl rfl rfl rfl rfl rfl (by decide) (by decide)
    rfl (by decide) (by decide) rfl rfl rfl
  obtain ⟨t, -, run, -, -, -, -, -, -, out, -⟩ := reads rfl
  obtain ⟨u, run', out'⟩ := fetch_sendsVector
  have same : t = u := Host.Outcome.next.inj (run.symm.trans run')
  have outputs : [Output.hostRead 0 1, .msix 83] = [.hostRead 0 1] := by
    rw [← out', ← same, out]
    rfl
  exact absurd outputs (by decide)

end Sys2Proof.Proofs
end

section
/-! PROOFS. Blocks are placed in frames and metered (06 R146-R151, 07 R191, 16 R405; O58). -/

namespace Sys2Proof.Proofs

open Sys2Proof.Machine Sys2Proof.Safety Sys2Proof.Laws

variable {s : State} {w : WriteRun} {o : OpenDataset} {b : EncBlock}

/-! ### A single write that is still being placed -/

theorem findWrite_single (h : s.fmt.writes = [w]) : findWrite w.jsn s = some w := by
  rw [findWrite, h]
  exact List.find?_cons_of_pos (beq_self_eq_true w.jsn)

theorem allPlaced_part (h : w.placedBytes ≠ streamTotal w) : allPlaced w = false := by simp [allPlaced, h]

/-- The open dataset is closed for no command that waits: the one write it could wait for still has bytes to place. -/
theorem flushOpen_part (hw : s.fmt.writes = [w]) (going : w.ending = none) (part : allPlaced w = false) : flushOpen s = s := by
  rw [flushOpen]
  cases s.fmt.opened with
  | none => rfl
  | some o =>
    refine if_neg fun wants => ?_
    obtain ⟨f, -, h⟩ := List.any_eq_true.1 wants
    rw [Bool.and_eq_true] at h
    obtain ⟨has, placed⟩ := h
    obtain ⟨x, -, hx⟩ := List.any_eq_true.1 has
    have own : (waitedFor f.1 f.2 s).contains w.jsn = true := by
      rw [waitedFor, List.contains_iff_mem, List.mem_map] at hx
      obtain ⟨v, hv, -⟩ := hx
      have single : v = w := List.mem_singleton.1 (hw ▸ (List.mem_filter.1 hv).1)
      rw [waitedFor, List.contains_iff_mem]
      exact List.mem_map.2 ⟨w, single ▸ hv, rfl⟩
    rw [hw] at placed
    simp [going, part] at placed
    exact absurd (List.contains_iff_mem.1 own) placed

theorem settleWrites_part (hw : s.fmt.writes = [w]) (going : w.ending = none) (part : allPlaced w = false) :
    settleWrites s = s := by
  rw [settleWrites, hw]
  change settleWrite s w.jsn = s
  rw [settleWrite, findWrite_single hw]
  dsimp only
  rw [going]
  dsimp only
  rw [part]
  rfl

theorem afterWrites_part (hw : s.fmt.writes = [w]) (going : w.ending = none) (part : allPlaced w = false)
    (hc : s.fmt.closed = []) (hg : s.fmt.c3Groups = []) : afterWrites s = s := by
  rw [afterWrites, flushOpen_part hw going part, formAll, hc, hg]
  exact settleWrites_part hw going part

/-! ### Bytes that enter the open dataset -/

/-- The state with o as the open dataset. -/
def withOpened (o : OpenDataset) (s : State) : State := { s with fmt := { s.fmt with opened := some o } }

theorem modOpened_some (h : s.fmt.opened = some o) (f : OpenDataset → OpenDataset) : modOpened f s = withOpened (f o) s := by
  rw [modOpened, h]
  rfl

/-- The dataset o' is o with n more bytes of user area, metered to a tenant or not. -/
structure Grown (n : Nat) (meter : Option Nat) (o o' : OpenDataset) : Prop where
  ds : o'.ds = { o.ds with userBytes := o.ds.userBytes + n }
  frameOpen : o'.frameOpen = o.frameOpen
  frameBlocks : o'.frameBlocks = o.frameBlocks
  chunk : o'.chunk = o.chunk
  tally : o'.tally = meter.elim o.tally fun t => tabUpd 0 t (· + n) o.tally
  jsns : o.jsns <+: o'.jsns

theorem joinDataset_leaves (jsn done : Nat) (o : OpenDataset) :
    (joinDataset jsn done o).frameOpen = o.frameOpen ∧ (joinDataset jsn done o).frameBlocks = o.frameBlocks
      ∧ (joinDataset jsn done o).chunk = o.chunk ∧ o.jsns <+: (joinDataset jsn done o).jsns := by
  unfold joinDataset
  split
  · exact ⟨rfl, rfl, rfl, List.prefix_rfl⟩
  · exact ⟨rfl, rfl, rfl, List.prefix_append ..⟩

/-- Frame bytes for which the open dataset has room all enter it. -/
theorem putFrameBytes_fits {n : Nat} (ho : s.fmt.opened = some o) (some' : n ≠ 0) (room : n ≤ roomLeft o) (meter : Option Nat) (w : WriteRun)
    (first : Nat) : ∃ o', putFrameBytes n meter w first s = some (withOpened o' s) ∧ Grown n meter o o' := by
  obtain ⟨isOpen, blocks, chunk, jsns⟩ := joinDataset_leaves w.jsn w.done o
  rw [putFrameBytes, ho]
  dsimp only
  rw [Nat.min_eq_left room, Nat.sub_self, if_pos rfl, modOpened_some ho]
  refine ⟨_, rfl, rfl, isOpen, blocks, chunk, ?_, jsns⟩
  cases meter with
  | none => rfl
  | some t => exact if_neg some'

/-! ### A block that is put behind the open frame's -/

/-- The write run after its next block has been placed. -/
def blockTaken (b : EncBlock) (w : WriteRun) : WriteRun :=
  { w with blocks := w.blocks.drop 1, nextBlock := w.nextBlock + 1, placedBytes := w.placedBytes + b.input.length }

/-- The state after the block of a single write w has been placed in the open dataset, now o'. -/
def blockPut (b : EncBlock) (w : WriteRun) (o' : OpenDataset) (s : State) : State :=
  addReady (blockLen b) { s with
    fmt := { s.fmt with opened := some o', writes := [blockTaken b w] }
    pkr := { s.pkr with outBytes := sat64 s.pkr.outBytes (blockLen b) } }

/-- What the open frame and dataset must be for a block in the midst of its stream to join them. -/
structure TakesBlock (b : EncBlock) (w : WriteRun) (o : OpenDataset) : Prop where
  part : w.placedBytes + b.input.length ≠ streamTotal w
  items : blockItems b w = []
  frameOpen : o.frameOpen = true
  frameBlocks : o.frameBlocks < 15
  access : o.ds.apOffset.isSome = true
  room : blockLen b ≤ roomLeft o

theorem endFrame_part (ho : s.fmt.opened = some o) (few : o.frameBlocks < 16) (access : o.ds.apOffset.isSome = true) : endFrame s = s := by
  rw [endFrame, ho]
  exact if_neg (by simp [few, Option.isSome_iff_ne_none.1 access])

theorem streamEnd_part (hw : s.fmt.writes = [w]) (part : w.placedBytes ≠ streamTotal w) : streamEnd w.jsn s = s := by
  rw [streamEnd, findWrite_single hw]
  exact if_pos part

theorem closeFull_open (ho : s.fmt.opened = some o) (isOpen : o.frameOpen = true) : closeFull s = s := by
  rw [closeFull, ho]
  exact if_neg (by simp [isOpen])

/-- The block's bytes join the open frame. -/
theorem putBlock_joins (hw : s.fmt.writes = [w]) (ho : s.fmt.opened = some o) (h : TakesBlock b w o) :
    ∃ o', putBlock b w s = blockPut b w o' s ∧ Grown (blockLen b) (some w.tenant) (extendFrame b o) o' := by
  obtain ⟨o', put, grown⟩ := putFrameBytes_fits (s := withOpened (extendFrame b o) s) (o := extendFrame b o) (n := blockLen b) rfl
    (by rw [blockLen]; omega) h.room (some w.tenant) w (recordAt w.placedBytes w s).1
  refine ⟨o', ?_, grown⟩
  have own : setWrite w.jsn (blockTaken b) (withOpened o' (withOpened (extendFrame b o) s)) = { s with fmt := { s.fmt with opened := some o', writes := [blockTaken b w] } } := by
    rw [setWrite, withOpened, withOpened, hw]
    exact congrArg (fun l => { s with fmt := { s.fmt with opened := some o', writes := l } }) (congrArg (· :: []) (if_pos rfl))
  have frame : endFrame (blockPut b w o' s) = blockPut b w o' s := by
    refine endFrame_part (o := o') rfl ?_ ?_
    · rw [grown.frameBlocks]
      exact Nat.succ_lt_succ h.frameBlocks
    · rw [grown.ds]
      exact h.access
  have stream : streamEnd w.jsn (blockPut b w o' s) = blockPut b w o' s := streamEnd_part (w := blockTaken b w) rfl h.part
  have full : closeFull (blockPut b w o' s) = blockPut b w o' s := closeFull_open (o := o') rfl (grown.frameOpen.trans h.frameOpen)
  have items : placeItems w.jsn (blockItems b w) s = s := by rw [h.items]; rfl
  rw [putBlock]
  dsimp only
  rw [items, modOpened_some ho, findWrite_single (s := withOpened (extendFrame b o) s) hw, Option.getD_some, put]
  dsimp only
  rw [show (fun w : WriteRun => { w with
    blocks := w.blocks.drop 1, nextBlock := w.nextBlock + 1, placedBytes := w.placedBytes + b.input.length }) = blockTaken b from rfl, own]
  change closeFull (streamEnd w.jsn (endFrame (blockPut b w o' s))) = _
  rw [frame, stream, full]

/-- The command's run is the one in turn, with a checked block at the head of those that wait. -/
structure PlacesNext (jsn : Nat) (w : WriteRun) (b : EncBlock) (s : State) : Prop where
  writes : s.fmt.writes = [w]
  jsn_eq : w.jsn = jsn
  closed : s.fmt.closed = []
  groups : s.fmt.c3Groups = []
  going : w.ending = none
  records : w.filemarks = 0
  turn : placeTurn jsn s = true
  loaded : s.cart.loaded = true
  next : w.blocks.head? = some b
  checked : b.checked = true
  part : w.placedBytes + b.input.length < streamTotal w

theorem formatterPlaceBlock_next {jsn lane : Nat} {check retry : Bool} (h : PlacesNext jsn w b s) :
    exec (.formatterPlaceBlock jsn lane check retry) s = .next (afterWrites (placeBlock b w lane check retry s)) := by
  obtain ⟨rest, blocks⟩ : ∃ rest, w.blocks = b :: rest := by
    have head := h.next
    cases hb : w.blocks with
    | nil =>
      rw [hb] at head
      nomatch head
    | cons a rest =>
      rw [hb] at head
      exact ⟨rest, congrArg (· :: rest) (Option.some.inj head)⟩
  have part : w.placedBytes ≠ streamTotal w := by have := h.part; omega
  have found : findWrite jsn s = some w := h.jsn_eq ▸ findWrite_single h.writes
  change execFormatterPlaceBlock jsn lane check retry s = _
  rw [execFormatterPlaceBlock, found]
  dsimp only
  rw [h.going, allPlaced_part part, h.turn, h.loaded, if_neg (by simp), if_neg (not_not.2 h.records), if_neg part, blocks]
  dsimp only
  rw [if_pos h.checked]

/-- Nothing is flushed, formed or ended once the block is in. -/
theorem afterWrites_blockPut {jsn : Nat} {t : State} {o' : OpenDataset} (h : PlacesNext jsn w b s) (hc : t.fmt.closed = s.fmt.closed)
    (hg : t.fmt.c3Groups = s.fmt.c3Groups) : afterWrites (blockPut b w o' t) = blockPut b w o' t :=
  afterWrites_part (s := blockPut b w o' t) (w := blockTaken b w) rfl h.going (allPlaced_part (w := blockTaken b w) (Nat.ne_of_lt h.part))
    (hc.trans h.closed) (hg.trans h.groups)

theorem spanBlocked_fits {n : Nat} (ho : s.fmt.opened = some o) (room : n ≤ roomLeft o) : spanBlocked n s = false := by
  rw [spanBlocked, ho]
  simp [Nat.not_lt.2 room]

theorem tabGet_tabUpd_same (k n : Nat) (l : Table Nat) : tabGet 0 (tabUpd 0 k (· + n) l) k = tabGet 0 l k + n := tabGet_tabSet ..

theorem tabGet_tabUpd_other {k j n : Nat} (h : j ≠ k) (l : Table Nat) : tabGet 0 (tabUpd 0 k (· + n) l) j = tabGet 0 l j := tabGet_tabSet_ne _ _ _ h

/-- A block that joins the open frame. -/
theorem placeBlock_joins {lane : Nat} {check retry : Bool} (hw : s.fmt.writes = [w]) (ho : s.fmt.opened = some o) (same : o.ds.partition = w.partition)
    (joins : joinsFrame w.jsn b (blockItems b w) o = true) (room : 16 + blockLen b ≤ roomLeft o) (h : TakesBlock b w o) :
    ∃ o', placeBlock b w lane check retry s = blockPut b w o' s ∧ Grown (blockLen b) (some w.tenant) (extendFrame b o) o' := by
  obtain ⟨o', put, grown⟩ := putBlock_joins hw ho h
  refine ⟨o', ?_, grown⟩
  have into : (s.fmt.opened.any fun o => o.ds.partition == w.partition && joinsFrame w.jsn b (blockItems b w) o) = true := by
    rw [ho, Option.any_some, same, joins, beq_self_eq_true, Bool.and_self]
  rw [placeBlock, if_pos into, spanBlocked_fits ho room, ← put]
  exact if_neg (by decide)

/-! ### A block that begins a frame -/

/-- The header of the frame that a block begins, under the IV drawn for it. -/
def frameHeader (b : EncBlock) (w : WriteRun) (iv : BitVec 96) (limited : Bool) (s : State) : TapeFrame :=
  { alg := 1, limited := limited, label := (getSlot (false, w.ctx) s).label, ivInst := iv.toNat % 2 ^ 32, ivCount := iv.toNat / 2 ^ 32
    tenant := w.tenant, record := (recordAt w.placedBytes w s).1, offset := (recordAt w.placedBytes w s).2, access := !b.hist, ctLen := 0
    bytes := [], tag := [], inLen := 0 }

/-- The dataset o' is o with the header of a frame f that it begins. -/
structure Headed (f : TapeFrame) (o o' : OpenDataset) : Prop where
  ds : o'.ds = { o.ds with userBytes := o.ds.userBytes + 32, frames := o.ds.frames ++ [f] }
  frameOpen : o'.frameOpen = true
  frameBlocks : o'.frameBlocks = 0
  chunk : o'.chunk = []
  tally : o'.tally = o.tally

theorem putHeader_fits (ho : s.fmt.opened = some o) (access : o.ds.apOffset.isSome = true) (room : 32 ≤ roomLeft o) (w : WriteRun) (b : EncBlock)
    (iv : BitVec 96) (limited : Bool) :
    ∃ o', putHeader w b iv false limited s = some (withOpened o' s) ∧ Headed (frameHeader b w iv limited s) o o' := by
  let o₁ : OpenDataset := { o with
    frameOpen := true, frameBlocks := 0, frameHead := o.ds.userBytes, frameJsn := w.jsn, chunk := []
    ds := { o.ds with frames := o.ds.frames ++ [frameHeader b w iv limited s] } }
  obtain ⟨o', put, grown⟩ := putFrameBytes_fits (s := withOpened o₁ s) (o := o₁) (n := 32) rfl (by decide) room none w (recordAt w.placedBytes w s).1
  refine ⟨o', ?_, grown.ds, grown.frameOpen, grown.frameBlocks, grown.chunk, grown.tally⟩
  have kept : setAccess o.ds.userBytes w.nextBlock (recordAt w.placedBytes w s).1 (recordAt w.placedBytes w s).2 o = o := if_pos access
  rw [putHeader]
  dsimp only
  rw [modOpened_some ho, kept]
  exact put

theorem runOnLane_cph (n : Nat) (s : State) : ∃ c, runOnLane n s = { s with cph := c } ∧ c.ctxSlots = s.cph.ctxSlots ∧ c.devSlots = s.cph.devSlots := by
  unfold runOnLane
  split
  · exact ⟨s.cph, rfl, rfl, rfl⟩
  · exact ⟨_, rfl, rfl, rfl⟩

theorem runOnLanes_cph (l : List Nat) (s : State) :
    ∃ c, l.foldl (fun s n => runOnLane n s) s = { s with cph := c } ∧ c.ctxSlots = s.cph.ctxSlots ∧ c.devSlots = s.cph.devSlots := by
  induction l generalizing s with
  | nil => exact ⟨s.cph, rfl, rfl, rfl⟩
  | cons n l ih =>
    obtain ⟨c, first, ctx, dev⟩ := runOnLane_cph n s
    obtain ⟨c', others, ctx', dev'⟩ := ih (runOnLane n s)
    refine ⟨c', others.trans ?_, ctx'.trans ?_, dev'.trans ?_⟩
    · rw [first]
    · rw [first]; exact ctx
    · rw [first]; exact dev

/-- What a frame's draw needs of the key slot, the cipher engine and its lanes. -/
structure FrameDraws (w : WriteRun) (lane : Nat) (s : State) : Prop where
  fresh : w.spent = none
  lanes : framesOpen lane s = true
  active : (getSlot (false, w.ctx) s).use = .active
  free : limitedPhase s = false
  inService : s.cph.degraded ≠ BitVec.allOnes 8
  below : (getSlot (false, w.ctx) s).counter < ceilNow s
  small : (getSlot (false, w.ctx) s).counter < 2 ^ 63

/-- The IV is INSTANCE and COUNTER of the context's slot, whose COUNTER moves on; nothing outside the cipher engine changes. -/
theorem startFrame_draws {lane : Nat} {retry : Bool} (h : FrameDraws w lane s) :
    ∃ c, startFrame w lane true retry s
        = .ready (mkIv s.mram.inst (getSlot (false, w.ctx) s).counter) false false { s with cph := c }
      ∧ getSlot (false, w.ctx) { s with cph := c } = { getSlot (false, w.ctx) s with counter := (getSlot (false, w.ctx) s).counter + 1 } := by
  generalize hk : getSlot (false, w.ctx) s = k at *
  have used : ¬ k.use = .empty := by rw [← hk, h.active]; decide
  have drawn : drawFrame w.ctx s = .ready (mkIv s.mram.inst k.counter) false false
      (countDraw (setSlot (false, w.ctx) { k with counter := k.counter + 1 } s)) := by
    rw [drawFrame, drawIv_active h.active h.free, drawNormal_below h.small h.below, hk]
  obtain ⟨c, lanes, ctx, -⟩ := runOnLanes_cph ((frameLanes lane (countDraw (setSlot (false, w.ctx) { k with counter := k.counter + 1 } s))).take 2)
    (countDraw (setSlot (false, w.ctx) { k with counter := k.counter + 1 } s))
  refine ⟨c, ?_, ?_⟩
  · rw [startFrame, hk, if_neg used, if_neg h.inService, h.fresh]
    dsimp only
    rw [h.lanes, drawn]
    exact congrArg (FrameStart.ready (mkIv s.mram.inst k.counter) false false) lanes
  · exact (congrArg (fun l => tabGet KeySlot.none l w.ctx) ctx).trans (getSlot_setSlot_same (false, w.ctx) _ s)

theorem roomLeft_headed {f : TapeFrame} {o' : OpenDataset} (h : Headed f o o') : roomLeft o' = roomLeft o - 32 := by
  rw [roomLeft, h.ds, roomLeft, Nat.sub_sub]

/-- A block that begins a frame in the open dataset. -/
theorem placeBlock_begins {lane : Nat} {retry : Bool} (hw : s.fmt.writes = [w]) (ho : s.fmt.opened = some o) (same : o.ds.partition = w.partition)
    (between : o.frameOpen = false) (fits : frameFits w.jsn (blockItems b w) o = true) (space : partitionFull w.partition s = false)
    (room : 64 + blockLen b ≤ roomLeft o) (access : o.ds.apOffset.isSome = true) (items : blockItems b w = []) (checked : b.checked = true)
    (part : w.placedBytes + b.input.length ≠ streamTotal w) (draws : FrameDraws w lane s) :
    ∃ c o₁ o', placeBlock b w lane true retry s = blockPut b w o' (addReady 48 (withOpened o₁ { s with cph := c }))
      ∧ getSlot (false, w.ctx) { s with cph := c } = { getSlot (false, w.ctx) s with counter := (getSlot (false, w.ctx) s).counter + 1 }
      ∧ Headed (frameHeader b w (mkIv s.mram.inst (getSlot (false, w.ctx) s).counter) false { s with cph := c }) o o₁
      ∧ Grown (blockLen b) (some w.tenant) (extendFrame b o₁) o' := by
  obtain ⟨c, start, slot⟩ := startFrame_draws (retry := retry) draws
  obtain ⟨o₁, header, headed⟩ := putHeader_fits (s := { s with cph := c }) (o := o) ho access (by omega) w b
    (mkIv s.mram.inst (getSlot (false, w.ctx) s).counter) false
  have takes : TakesBlock b w o₁ :=
    { part := part, items := items, frameOpen := headed.frameOpen, frameBlocks := by rw [headed.frameBlocks]; decide
      access := by rw [headed.ds]; exact access
      room := by rw [roomLeft_headed headed]; omega }
  obtain ⟨o', put, grown⟩ := putBlock_joins (s := addReady 48 (withOpened o₁ { s with cph := c })) hw rfl takes
  refine ⟨c, o₁, o', ?_, slot, headed, grown⟩
  have apart : (s.fmt.opened.any fun o => o.ds.partition == w.partition && joinsFrame w.jsn b (blockItems b w) o) = false := by
    rw [ho, Option.any_some, joinsFrame, between]
    simp
  have place : newFramePlace w.partition w.jsn (blockItems b w) s = some s := by
    have shut : closeFrame s = some s := by
      rw [closeFrame, ho]
      exact if_pos (by rw [between]; rfl)
    rw [newFramePlace, shut]
    dsimp only
    rw [ho]
    dsimp only
    rw [space, fits, if_neg (by simp), if_pos ⟨same, rfl⟩]
  have later : ((s.fmt.opened.any fun o => o.ds.apOffset.isNone) && b.hist) = false := by
    rw [ho, Option.any_some, ← Option.not_isSome, access]
    rfl
  rw [placeBlock, apart, if_neg (by decide), placeInNewFrame, place]
  dsimp only
  rw [later, if_neg Bool.false_ne_true]
  dsimp only
  rw [findWrite_single hw, Option.getD_some, checked, if_neg (by decide), spanBlocked_fits ho (by omega), if_neg (by decide), start, writeFrame,
    header]
  exact put

theorem extendFrame_leaves (b : EncBlock) (o : OpenDataset) :
    (extendFrame b o).frameOpen = o.frameOpen ∧ (extendFrame b o).frameBlocks = o.frameBlocks + 1
      ∧ (extendFrame b o).chunk = o.chunk ++ blockBytes b ∧ (extendFrame b o).tally = o.tally := ⟨rfl, rfl, rfl, rfl⟩

theorem grown_userBytes {n : Nat} {m : Option Nat} {o' : OpenDataset} (h : Grown n m o o') : o'.ds.userBytes = o.ds.userBytes + n := by rw [h.ds]

theorem grown_frames {n : Nat} {m : Option Nat} {o' : OpenDataset} (h : Grown n m o o') : o'.ds.frames = o.ds.frames := by rw [h.ds]

/-- A block is metered to its tenant alone. -/
theorem grown_tally {n t : Nat} {o' : OpenDataset} (h : Grown n (some t) o o') :
    tabGet 0 o'.tally t = tabGet 0 o.tally t + n ∧ ∀ x, x ≠ t → tabGet 0 o'.tally x = tabGet 0 o.tally x := by
  rw [h.tally]
  exact ⟨tabGet_tabUpd_same .., fun x hx => tabGet_tabUpd_other hx _⟩

theorem modify_concat {α : Type} (f : α → α) (l : List α) (x : α) : (l ++ [x]).modify l.length f = l ++ [f x] := by
  induction l with
  | nil => rfl
  | cons a l ih => exact congrArg (a :: ·) ih

/-- The last frame of the dataset is the one that the block extends. -/
theorem extendFrame_last {f : TapeFrame} {l : List TapeFrame} (h : o.ds.frames = l ++ [f]) :
    (extendFrame b o).ds.frames = l ++ [{ f with inLen := f.inLen + b.input.length }] := by
  change o.ds.frames.modify (o.ds.frames.length - 1) _ = _
  rw [h, List.length_append, List.length_singleton, Nat.add_sub_cancel, modify_concat]

/-- Settles O58: the block joins the open frame, or begins one with the IV drawn for it. -/
theorem blocksArePlacedInFrames : Obligations.BlocksArePlacedInFrames := by
  intro jsn lane retry s w o b rest hw hj ho hc hg going records turn loaded blocks checked part items same access room
  subst hj
  have next : PlacesNext w.jsn w b s := ⟨hw, rfl, hc, hg, going, records, turn, loaded, by rw [blocks]; rfl, checked, part⟩
  have waiting : w.blocks.drop 1 = rest := by rw [blocks]; rfl
  constructor
  · intro joins few
    have isOpen : o.frameOpen = true := by
      simp only [joinsFrame, Bool.and_eq_true] at joins
      exact joins.1.1.1.1.1
    obtain ⟨o', put, grown⟩ := placeBlock_joins (lane := lane) (check := true) (retry := retry) hw ho same (items.symm ▸ joins) (by omega)
      ⟨Nat.ne_of_lt part, items, isOpen, few, access, by omega⟩
    obtain ⟨metered, others⟩ := grown_tally grown
    refine ⟨blockPut b w o' s, blockTaken b w, o', ?_, rfl, waiting, rfl, rfl, rfl, rfl, (grown_userBytes grown :), ?_, grown.chunk, grown.frameBlocks,
      metered, others, rfl, rfl, rfl, rfl⟩
    · rw [formatterPlaceBlock_next next, put, afterWrites_blockPut next rfl rfl]
    · rw [grown_frames grown]
      exact List.length_modify ..
  · intro between fits space fresh lanes active free inService below small
    obtain ⟨c, o₁, o', put, slot, headed, grown⟩ := placeBlock_begins (retry := retry) hw ho same between (items.symm ▸ fits) space room access items
      checked (Nat.ne_of_lt part) ⟨fresh, lanes, active, free, inService, below, small⟩
    have frames : o₁.ds.frames = o.ds.frames ++ [frameHeader b w (mkIv s.mram.inst (getSlot (false, w.ctx) s).counter) false { s with cph := c }] := by
      rw [headed.ds]
    have bytes : o₁.ds.userBytes = o.ds.userBytes + 32 := by rw [headed.ds]
    refine ⟨blockPut b w o' (addReady 48 (withOpened o₁ { s with cph := c })), blockTaken b w, o',
      { frameHeader b w (mkIv s.mram.inst (getSlot (false, w.ctx) s).counter) false { s with cph := c } with inLen := 0 + b.input.length },
      ?_, rfl, waiting, rfl, grown.frameOpen.trans headed.frameOpen, ?_, (grown_frames grown).trans (extendFrame_last frames), rfl, ?_,
      Nat.zero_add _, rfl, ?_, rfl, Nat.mod_add_div' _ _, ?_, ?_, rfl, rfl⟩
    · rw [formatterPlaceBlock_next next, put]
      exact congrArg Host.Outcome.next (afterWrites_blockPut (t := addReady 48 (withOpened o₁ { s with cph := c })) next rfl rfl)
    · rw [grown_userBytes grown, ← bytes]
      rfl
    · rw [grown.chunk, (extendFrame_leaves b o₁).2.2.1, headed.chunk, List.nil_append]
    · exact (congrArg KeySlot.label slot :)
    · exact (congrArg KeySlot.counter slot :)
    · rw [(grown_tally grown).1, (extendFrame_leaves b o₁).2.2.2, headed.tally]

end Sys2Proof.Proofs
end

section
/-! PROOFS. The open dataset is closed, and writing runs begin (04 R109, 06 R148, 07 R476, 13 R349; O59). -/

namespace Sys2Proof.Proofs

open Sys2Proof.Machine Sys2Proof.Safety Sys2Proof.Laws

variable {s : State} {w : WriteRun} {o : OpenDataset}

/-! ### No dataset is formed -/

theorem formAll_empty (hc : s.fmt.closed = []) (hg : s.fmt.c3Groups = []) : formAll s = s := by rw [formAll, hc, hg]; rfl

/-- Without a boot epoch and without a complete C3 group no dataset is formed (16 R410). -/
theorem formAll_noEpoch (hg : s.fmt.c3Groups = []) (noEpoch : s.wh.epochValid = false) : formAll s = s := by
  rw [formAll]
  generalize s.fmt.closed.length + s.fmt.c3Groups.length = n
  cases n with
  | zero => rfl
  | succ n =>
    have group : readyGroup s = none := by rw [readyGroup, hg]; rfl
    have shut : ∀ o, mayForm o s = false := fun o => by rw [mayForm, noEpoch]; rfl
    rw [formNext, group]
    dsimp only
    cases s.fmt.closed.find? (isNext (formPartition s)) with
    | none => rfl
    | some o => exact if_neg (by rw [shut]; decide)

theorem afterWrites_noEpoch (ho : s.fmt.opened = none) (hg : s.fmt.c3Groups = []) (noEpoch : s.wh.epochValid = false) :
    afterWrites s = settleWrites s := by
  have unopened : flushOpen s = s := by rw [flushOpen, ho]
  rw [afterWrites, unopened, formAll_noEpoch hg noEpoch]

theorem settleWrites_none (h : s.fmt.writes = []) : settleWrites s = s := by rw [settleWrites, h]; rfl

/-! ### The dataset that has waited is closed -/

theorem datasetIdleClose_due {at_ : Nat} (ho : s.fmt.opened = some o) (items : o.itemJsns ≠ [])
    (due : passedMs o.lastAt (max s.aon.time at_) 100 = true) :
    exec (.datasetIdleClose at_) s = .next (afterWrites (closeOpen (atTime at_ s))) := by
  have some' : o.itemJsns.isEmpty = false := by simpa using items
  have closes : ((atTime at_ s).fmt.opened.any fun o => !o.itemJsns.isEmpty && passedMs o.lastAt (atTime at_ s).aon.time 100) = true := by
    change (s.fmt.opened.any fun o => !o.itemJsns.isEmpty && passedMs o.lastAt (max s.aon.time at_) 100) = true
    rw [ho, Option.any_some, some', due]
    rfl
  exact congrArg Host.Outcome.next (if_pos closes)

theorem datasetIdleClose_early {at_ : Nat}
    (h : ∀ o, s.fmt.opened = some o → o.itemJsns = [] ∨ passedMs o.lastAt (max s.aon.time at_) 100 = false) :
    exec (.datasetIdleClose at_) s = .next (atTime at_ s) := by
  refine congrArg Host.Outcome.next (if_neg fun closes => ?_)
  change (s.fmt.opened.any fun o => !o.itemJsns.isEmpty && passedMs o.lastAt (max s.aon.time at_) 100) = true at closes
  cases ho : s.fmt.opened with
  | none =>
    rw [ho] at closes
    nomatch closes
  | some o =>
    rw [ho, Option.any_some, Bool.and_eq_true, Bool.not_eq_true', List.isEmpty_eq_false_iff] at closes
    obtain ⟨items, due⟩ := closes
    rcases h o ho with none' | early
    · exact items none'
    · exact absurd (due.symm.trans early) (by decide)

/-- The dataset that closes as o does. -/
def parked (o : OpenDataset) : OpenDataset :=
  { o with ds := { o.ds with closedEarly := decide (0 < roomLeft o), dirSpill := decide (4704 < o.ds.entries) }, reserved := framesNeeded o.tally }

theorem parkOpened_some (ho : s.fmt.opened = some o) :
    (parkOpened s).fmt.opened = none ∧ (parkOpened s).fmt.closed = s.fmt.closed ++ [parked o] ∧ (parkOpened s).fmt.writes = s.fmt.writes
      ∧ (parkOpened s).fmt.c3Groups = s.fmt.c3Groups ∧ (parkOpened s).wh.epochValid = s.wh.epochValid ∧ (parkOpened s).jrn = s.jrn
      ∧ (parkOpened s).mem = s.mem := by
  rw [parkOpened, ho]
  exact ⟨rfl, rfl, rfl, rfl, rfl, rfl, rfl⟩

theorem closeOpen_parks {u : State} (hu : closeFrame s = some u) (ho : u.fmt.opened = some o) (has : o.jsns ≠ []) : closeOpen s = parkOpened u := by
  have some' : o.jsns.isEmpty = false := by simpa using has
  rw [closeOpen, closeDataset, hu]
  dsimp only
  rw [ho, Option.any_some, some', Bool.false_and, if_neg Bool.false_ne_true]
  rfl

theorem closeFrame_between (ho : s.fmt.opened = some o) (between : o.frameOpen = false) : closeFrame s = some s := by
  rw [closeFrame, ho]
  exact if_pos (by rw [between]; rfl)

theorem setWrite_single (hw : s.fmt.writes = [w]) (f : WriteRun → WriteRun) :
    setWrite w.jsn f s = { s with fmt := { s.fmt with writes := [f w] } } := by
  rw [setWrite, hw]
  exact congrArg (fun l => { s with fmt := { s.fmt with writes := l } }) (congrArg (· :: []) (if_pos rfl))

theorem noteDone_single (hw : s.fmt.writes = [w]) (ho : s.fmt.opened = some o) :
    ∃ d m, noteDone w.jsn s = { s with fmt := { s.fmt with opened := some { o with marks := m }, writes := [{ w with done := d }] } } := by
  rw [noteDone, findWrite_single hw]
  dsimp only
  rw [setWrite_single hw]
  exact ⟨_, _, modOpened_some (s := { s with fmt := { s.fmt with writes := [{ w with done := _ }] } }) (o := o) ho _⟩

/-- The dataset with its last frame encrypted and tagged. -/
def sealedWith (key : List Byte) (o : OpenDataset) : OpenDataset :=
  { o with frameOpen := false, chunk := [],
           ds := { o.ds with frames := o.ds.frames.modify (o.ds.frames.length - 1) (sealFrame o.ds.partition key o.chunk) } }

theorem sealOpen_own {ctx : Nat} (ho : s.fmt.opened = some o) (has : o.ds.frames ≠ []) :
    sealOpen ctx s = withOpened (sealedWith (slotKey (false, ctx) s) o) s := by
  have some' : o.ds.frames.isEmpty = false := by simpa using has
  rw [sealOpen, ho]
  dsimp only
  rw [some', if_pos (by decide)]
  rfl

/-- The open frame ends with its tag, in the room that the dataset has left. -/
theorem closeFrame_seals {f : TapeFrame} {fs : List TapeFrame} (hw : s.fmt.writes = [w]) (ho : s.fmt.opened = some o) (isOpen : o.frameOpen = true)
    (frames : o.ds.frames = fs ++ [f]) (own : o.frameJsn = w.jsn) (room : 16 ≤ roomLeft o) :
    ∃ d o', closeFrame s = some { s with fmt := { s.fmt with opened := some o', writes := [{ w with done := d }] } }
      ∧ o'.ds.frames = fs ++ [sealFrame o.ds.partition (slotKey (false, w.ctx) s) o.chunk f] ∧ o'.ds.userBytes = o.ds.userBytes + 16
      ∧ o'.tally = o.tally ∧ o.jsns <+: o'.jsns := by
  obtain ⟨o₁, put, grown⟩ := putFrameBytes_fits (n := 16) ho (by decide) room none w ((o.ds.frames.getLast?).elim ((o.firstRec).getD 0) (·.record))
  have frames₁ : o₁.ds.frames = fs ++ [f] := (grown_frames grown).trans frames
  have part₁ : o₁.ds.partition = o.ds.partition := by rw [grown.ds]
  let o₂ : OpenDataset := { o₁ with ds := { o₁.ds with
    contBytes := if o₁.ds.contBytes = o₁.ds.userBytes - 16 ∧ o₁.ds.frames.isEmpty ∧ o₁.ds.contBytes ≠ 0
      then o₁.ds.userBytes else o₁.ds.contBytes } }
  have sealed' : sealOpen w.ctx (withOpened o₂ s) = withOpened (sealedWith (slotKey (false, w.ctx) s) o₂) s :=
    sealOpen_own (s := withOpened o₂ s) (o := o₂) rfl (by change o₁.ds.frames ≠ []; rw [frames₁]; simp)
  obtain ⟨d, m, noted⟩ := noteDone_single (s := withOpened (sealedWith (slotKey (false, w.ctx) s) o₂) s) (w := w) hw rfl
  refine ⟨d, { sealedWith (slotKey (false, w.ctx) s) o₂ with marks := m }, ?_, ?_, (grown_userBytes grown :), grown.tally, grown.jsns⟩
  · rw [closeFrame, ho]
    dsimp only
    rw [isOpen, if_neg (by decide), own, findWrite_single hw]
    dsimp only
    rw [put]
    change some (noteDone w.jsn (sealOpen w.ctx (withOpened o₂ s))) = _
    rw [sealed', noted]
    rfl
  · change o₁.ds.frames.modify (o₁.ds.frames.length - 1) (sealFrame o₁.ds.partition _ o₁.chunk) = _
    rw [frames₁, List.length_append, List.length_singleton, Nat.add_sub_cancel, modify_concat, part₁, grown.chunk]

/-- What closes in its time, between frames, is the open dataset as it stands. -/
theorem idleClose_between {at_ : Nat} (ho : s.fmt.opened = some o) (items : o.itemJsns ≠ []) (has : o.jsns ≠ []) (between : o.frameOpen = false)
    (due : passedMs o.lastAt (max s.aon.time at_) 100 = true) (hw : s.fmt.writes = []) (hg : s.fmt.c3Groups = [])
    (noEpoch : s.wh.epochValid = false) :
    ∃ t, exec (.datasetIdleClose at_) s = .next t ∧ t.fmt.opened = none ∧ t.fmt.closed = s.fmt.closed ++ [parked o] ∧ t.jrn = s.jrn
      ∧ t.mem = s.mem := by
  obtain ⟨opened, closed, writes, groups, epoch, jrn, mem⟩ := parkOpened_some (s := atTime at_ s) (o := o) ho
  refine ⟨parkOpened (atTime at_ s), ?_, opened, closed, jrn, mem⟩
  rw [datasetIdleClose_due ho items due, closeOpen_parks (closeFrame_between (s := atTime at_ s) ho between) ho has,
    afterWrites_noEpoch opened (groups.trans hg) (epoch.trans noEpoch), settleWrites_none (writes.trans hw)]

/-- An open frame is sealed first. -/
theorem idleClose_inFrame {at_ : Nat} {f : TapeFrame} {fs : List TapeFrame} (ho : s.fmt.opened = some o) (items : o.itemJsns ≠ [])
    (has : o.jsns ≠ []) (isOpen : o.frameOpen = true) (frames : o.ds.frames = fs ++ [f]) (hw : s.fmt.writes = [w]) (own : o.frameJsn = w.jsn)
    (going : w.ending = none) (part : allPlaced w = false) (room : 16 ≤ roomLeft o)
    (due : passedMs o.lastAt (max s.aon.time at_) 100 = true) (hg : s.fmt.c3Groups = []) (noEpoch : s.wh.epochValid = false) :
    ∃ t o', exec (.datasetIdleClose at_) s = .next t ∧ t.fmt.opened = none ∧ t.fmt.closed = s.fmt.closed ++ [parked o']
      ∧ o'.ds.frames = fs ++ [sealFrame o.ds.partition (slotKey (false, w.ctx) s) o.chunk f] ∧ o'.ds.userBytes = o.ds.userBytes + 16
      ∧ o'.tally = o.tally ∧ t.jrn = s.jrn ∧ t.mem = s.mem := by
  obtain ⟨d, o', shut, frames', bytes, tally, jsns⟩ := closeFrame_seals (s := atTime at_ s) hw ho isOpen frames own room
  have has' : o'.jsns ≠ [] := fun none' => has (List.prefix_nil.1 (none' ▸ jsns))
  have parks := closeOpen_parks (s := atTime at_ s) shut rfl has'
  generalize hu : ({ atTime at_ s with fmt := { (atTime at_ s).fmt with opened := some o', writes := [{ w with done := d }] } } : State) = u at *
  obtain ⟨opened, closed, writes, groups, epoch, jrn, mem⟩ := parkOpened_some (s := u) (o := o') (by rw [← hu])
  have settled : settleWrites (parkOpened u) = parkOpened u :=
    settleWrites_part (w := { w with done := d }) (writes.trans (by rw [← hu])) going part
  refine ⟨parkOpened u, o', ?_, opened, closed.trans (by rw [← hu]; rfl), frames', bytes, tally, jrn.trans (by rw [← hu]; rfl),
    mem.trans (by rw [← hu]; rfl)⟩
  rw [datasetIdleClose_due ho items due, parks,
    afterWrites_noEpoch opened (groups.trans (by rw [← hu]; exact hg)) (epoch.trans (by rw [← hu]; exact noEpoch)), settled]

/-! ### A writing run begins -/

theorem writingRunStart_may {at_ p : Nat} (atStep : Bool) (hc : s.fmt.closed = []) (hg : s.fmt.c3Groups = []) (hr : s.fmt.run = none)
    (cart : (loadedCart s).isSome = true) (free : tapeHeld s = false) (up : tapeDown s = false) (epoch : s.wh.epochValid = true)
    (runs : firmwareRuns s = true) (may : mayStartRun (atTime at_ s) = true) (hp : runPartition s = some p) :
    exec (.writingRunStart at_ atStep) s = .next (approach p atStep (atTime at_ s)) := by
  have some' : (loadedCart s).isNone = false := by rw [← Option.not_isSome, cart]; rfl
  change execWritingRunStart at_ atStep s = _
  rw [execWritingRunStart]
  dsimp only
  rw [formAll_empty (s := atTime at_ s) hc hg, if_neg, show runPartition (atTime at_ s) = some p from hp]
  change ¬(s.fmt.run.isSome || (loadedCart s).isNone || tapeHeld s || tapeDown s || !s.wh.epochValid || !firmwareRuns s
    || !mayStartRun (atTime at_ s)) = true
  rw [hr, some', free, up, epoch, runs, may]
  decide

theorem writingRunStart_mayNot {at_ : Nat} (atStep : Bool) (hc : s.fmt.closed = []) (hg : s.fmt.c3Groups = [])
    (h : s.fmt.run.isSome = true ∨ (loadedCart s).isNone = true ∨ tapeHeld s = true ∨ s.wh.epochValid = false) :
    exec (.writingRunStart at_ atStep) s = .next (atTime at_ s) := by
  change execWritingRunStart at_ atStep s = _
  rw [execWritingRunStart]
  dsimp only
  rw [formAll_empty (s := atTime at_ s) hc hg, if_pos]
  change (s.fmt.run.isSome || (loadedCart s).isNone || tapeHeld s || tapeDown s || !s.wh.epochValid || !firmwareRuns s
    || !mayStartRun (atTime at_ s)) = true
  rcases h with h | h | h | h <;> simp [h]

theorem retried_jrn (l : List WriteRun) (s : State) : ∃ j, l.foldl (fun s w => markRetried w.jsn s) s = { s with jrn := j } := by
  induction l generalizing s with
  | nil => exact ⟨s.jrn, rfl⟩
  | cons w l ih => exact ih (markRetried w.jsn s)

/-- What a run's beginning does to the tape leaves where items are placed. -/
theorem beforeRun_placeEnd (p : Nat) (s : State) : (beforeRun p s).fmt.placeEnd = s.fmt.placeEnd := by
  have base : ∀ u : State, (recordBase p u).fmt.placeEnd = u.fmt.placeEnd := fun u => by
    unfold recordBase
    split
    · rfl
    · dsimp only
      split <;> rfl
  have history : ∀ u : State, (writeHistory u).fmt = u.fmt := fun u => by unfold writeHistory; split <;> rfl
  unfold beforeRun
  dsimp only
  rw [base]
  split
  · rfl
  · rw [history, writeStatus_fmt]

theorem cutChain_fmt (p n : Nat) (s : State) : (cutChain p n s).fmt = s.fmt := by unfold cutChain; split <;> rfl

theorem leaveWrap_fmt (s : State) : (leaveWrap s).fmt = s.fmt := by
  have event : ∀ r (u : State), (ratioEvent r u).fmt = u.fmt := fun r u => by
    unfold ratioEvent
    split
    · exact device_fmt (raise_onlyEvents ..).device
    · rfl
  unfold leaveWrap
  dsimp only
  split
  · exact event _ _
  · rfl

theorem atWrap_fmt (w : Nat) (s : State) : (atWrap w s).fmt = s.fmt := by
  have left := leaveWrap_fmt s
  unfold atWrap
  generalize leaveWrap s = u at *
  split
  · rfl
  · dsimp only
    split <;> exact left

theorem writeGate_leaves (on : Bool) (s : State) : (writeGate on s).fmt = s.fmt ∧ (writeGate on s).spm = s.spm := by
  unfold writeGate sendControl sendFrame
  split <;> exact ⟨rfl, rfl⟩

/-- A run begins in its partition with its run-in. -/
theorem beginWritingRun_ends (p : Nat) (s : State) :
    ∃ r, (beginWritingRun p s).fmt.run = some r ∧ r.partition = p ∧ r.runIn = true ∧ r.ending = false ∧ (beginWritingRun p s).spm.mode = 1
      ∧ (beginWritingRun p s).fmt.placeEnd = s.fmt.placeEnd := by
  unfold beginWritingRun
  dsimp only
  rw [(writeGate_leaves _ _).1, (writeGate_leaves _ _).2]
  refine ⟨_, rfl, rfl, rfl, rfl, rfl, ?_⟩
  split <;> split <;> simp [dropHeld, atWrap_fmt, cutChain_fmt, beforeRun_placeEnd]

theorem approach_begins {p : Nat} (locked : s.mon.lock = true) :
    ∃ r, (approach p true s).fmt.run = some r ∧ r.partition = p ∧ r.runIn = true ∧ r.ending = false ∧ (approach p true s).spm.mode = 1
      ∧ (approach p true s).mem = s.mem ∧ (approach p true s).fmt.placeEnd = s.fmt.placeEnd := by
  obtain ⟨j, hj⟩ := retried_jrn s.fmt.writes { s with fmt := { s.fmt with approached := false } }
  unfold approach
  dsimp only
  rw [locked, Bool.and_self, if_pos rfl, hj]
  split
  · obtain ⟨r, run, part, runIn, going, mode, place⟩ := beginWritingRun_ends p { s with fmt := { s.fmt with approached := false }, jrn := j }
    exact ⟨r, run, part, runIn, going, mode, beginWritingRun_mem .., place⟩
  · obtain ⟨r, run, part, runIn, going, mode, place⟩ := beginWritingRun_ends p { s with fmt := { s.fmt with approached := false } }
    exact ⟨r, run, part, runIn, going, mode, beginWritingRun_mem .., place⟩

/-! ### The second approach fails too -/

/-- A write command that ends leaves the writes; the rest of the formatter stays. -/
theorem finishWrite_fmt (w : WriteRun) (st r1 : Nat) (s : State) :
    (finishWrite w st r1 s).fmt = { s.fmt with writes := s.fmt.writes.filter (·.jsn != w.jsn) } := by
  have freed : OnlyPorter { s with fmt := { s.fmt with writes := s.fmt.writes.filter (·.jsn != w.jsn) } } _ :=
    OnlyPorter.foldl (fun s h => freeBuffer_onlyPorter 1 h s) w.bufs _
  obtain ⟨q, events⟩ := freed
  have finishes : finishWrite w st r1 s = endWith w.jsn st w.durable r1 (raise evDurable w.jsn w.durable (positionTaken w
      (w.bufs.foldl (fun s h => freeBuffer 1 h s) { s with fmt := { s.fmt with writes := s.fmt.writes.filter (·.jsn != w.jsn) } }))) := by
    rw [finishWrite, positionTaken]
    cases afterLast w <;> rfl
  rw [finishes, device_fmt (endWith_device ..), device_fmt (raise_onlyEvents ..).device, (positionTaken_leaves ..).2, device_fmt events.device]

/-- Of a single write that is to end nothing but the write leaves the formatter. -/
theorem settleWrites_ending {x : Nat × Option Nat} (hw : s.fmt.writes = [w]) (ending : w.ending = some x) :
    ∃ l, l ⊆ [w] ∧ (settleWrites s).fmt = { s.fmt with writes := l } := by
  have one : settleWrites s = settleWrite s w.jsn := by rw [settleWrites, hw]; rfl
  rw [one, settleWrite, findWrite_single hw]
  dsimp only
  rw [ending]
  dsimp only
  split
  · exact ⟨[w], List.Subset.refl _, by rw [← hw]⟩
  · exact ⟨_, fun x hx => hw ▸ (List.mem_filter.1 hx).1, finishWrite_fmt ..⟩

/-- A single write with no dataset open gets its ending status; the run and the approach stay as they are. -/
theorem stopWrite_single {st : Nat} {r1 : Option Nat} (hw : s.fmt.writes = [w]) (ho : s.fmt.opened = none) :
    ∃ w' l t h, stopWrite w.jsn st r1 s = { s with fmt := { s.fmt with writes := [w'], placeEnd := l, truncate := t }, pkr := h } ∧ w'.jsn = w.jsn := by
  have shut : (s.fmt.opened.any fun o => o.frameOpen && o.frameJsn == w.jsn) = false := by rw [ho]; rfl
  have closes : closeOpen s = s := by rw [closeOpen, closeDataset, closeFrame, ho]; simp [parkOpened, ho]
  rw [stopWrite, findWrite_single hw]
  dsimp only
  rw [shut, if_neg Bool.false_ne_true, findWrite_single hw, Option.getD_some]
  split
  · rw [setWrite_single hw]
    exact ⟨_, _, _, _, rfl, rfl⟩
  · rw [closes]
    refine ⟨_, _, _, _, setWrite_single (s := cutEnd _ _ { s with fmt := { s.fmt with truncate := _ } }) hw _, rfl⟩

theorem afterWrites_ending {x : Nat × Option Nat} (hw : s.fmt.writes = [w]) (ending : w.ending = some x) (ho : s.fmt.opened = none)
    (hc : s.fmt.closed = []) (hg : s.fmt.c3Groups = []) :
    (afterWrites s).fmt.run = s.fmt.run ∧ (afterWrites s).fmt.approached = s.fmt.approached
      ∧ ∀ w' ∈ (afterWrites s).fmt.writes, w'.ending = some x := by
  obtain ⟨l, sub, fmt⟩ := settleWrites_ending hw ending
  rw [afterWrites_empty ho hc hg, fmt]
  exact ⟨rfl, rfl, fun v hv => (List.mem_singleton.1 (sub hv)) ▸ ending⟩

/-- The one write that still places items ends with MEDIA_ERROR and the end of data. -/
theorem lastingServoLoss_single (hw : s.fmt.writes = [w]) (going : w.ending = none) (part : allPlaced w = false) (ho : s.fmt.opened = none)
    (hc : s.fmt.closed = []) (hg : s.fmt.c3Groups = []) :
    (lastingServoLoss s).fmt.run = s.fmt.run ∧ (lastingServoLoss s).fmt.approached = s.fmt.approached
      ∧ ∀ w' ∈ (lastingServoLoss s).fmt.writes, ∃ n, w'.ending = some (stMediaError, some n) := by
  have events : (raiseP evDrvServoLost s.mon.sfn s).fmt = s.fmt := device_fmt (raiseP_onlyEvents ..).device
  unfold lastingServoLoss
  generalize raiseP evDrvServoLost s.mon.sfn s = u at *
  rw [← events] at hw ho hc hg ⊢
  have own : (u.fmt.writes.filter fun w => w.ending.isNone && !allPlaced w).map (fun w => (w.jsn, w.partition)) = [(w.jsn, w.partition)] := by
    rw [hw]
    simp [going, part]
  dsimp only
  rw [own]
  obtain ⟨w', l, t, h, stopped, jsn⟩ := stopWrite_single (st := stMediaError) (r1 := none) hw ho
  rw [List.foldl_cons, List.foldl_nil, stopped]
  dsimp only
  rw [← jsn, setWrite_single (w := w') rfl]
  exact And.imp_right (And.imp_right fun all x hx => ⟨_, all x hx⟩) (afterWrites_ending rfl rfl ho hc hg)

theorem approach_again {p : Nat} {atStep : Bool} (lost : s.mon.lock = false ∨ atStep = false) (first : s.fmt.approached = false) :
    approach p atStep s = { s with fmt := { s.fmt with approached := true } } := by
  have not' : (s.mon.lock && atStep) = false := by rcases lost with h | h <;> simp [h]
  unfold approach
  dsimp only
  rw [not', if_neg Bool.false_ne_true, first, if_neg Bool.false_ne_true]

theorem approach_fails {p : Nat} {atStep : Bool} (lost : s.mon.lock = false ∨ atStep = false) (second : s.fmt.approached = true) :
    approach p atStep s = lastingServoLoss { s with fmt := { s.fmt with approached := false } } := by
  have not' : (s.mon.lock && atStep) = false := by rcases lost with h | h <;> simp [h]
  unfold approach
  dsimp only
  rw [not', if_neg Bool.false_ne_true, second, if_pos rfl]

/-! ### The status page -/

theorem loadedCart_some (h : (loadedCart s).isSome = true) : s.cart.loaded = true ∧ s.cart.inDrive.isSome = true := by
  unfold loadedCart at h
  split at h
  · rename_i both
    exact ⟨(Bool.and_eq_true .. ▸ both).1, h⟩
  · exact absurd h (by decide)

/-- The page that is due is written to the cartridge, which stays loaded. -/
theorem writeStatus_writes (dirty : Bool) (h : s.cart.inDrive.isSome = true) :
    (writeStatus dirty s).cart.statusDue = false ∧ (writeStatus dirty s).cart.loaded = s.cart.loaded ∧ (writeStatus dirty s).jrn = s.jrn := by
  refine ⟨?_, congrArg (·.2.2.1) (writeStatus_front dirty s), front_jrn (writeStatus_front dirty s)⟩
  obtain ⟨c, hc⟩ := Option.isSome_iff_exists.1 h
  rw [writeStatus, hc]

theorem cmStatusWrite_not (h : s.cart.statusDue = false ∨ loadedCart s = none ∨ s.fmt.run.isSome = true) : exec .cmStatusWrite s = .next s := by
  refine congrArg Host.Outcome.next (if_neg ?_)
  rcases h with h | h | h
  · simp [h]
  · simp [h]
  · simp [h, ← Option.not_isSome]

end Sys2Proof.Proofs
end

section
/-! PROOFS. Datasets are released (09 R249, R250; O59). -/

namespace Sys2Proof.Proofs

open Sys2Proof.Machine Sys2Proof.Safety Sys2Proof.Laws

variable {s : State} {d : WrittenDataset}

/-! ### Tally frames of the dataset -/

theorem tallyFrames_length (d : WrittenDataset) (epoch n tsn : Nat) (l : List (Nat × Nat)) : (tallyFrames d epoch n tsn l).length = n := by
  induction n generalizing tsn l with
  | zero => rfl
  | succ n ih => rw [tallyFrames, List.length_cons, ih]

theorem tallyFrames_seq (d : WrittenDataset) (epoch n tsn : Nat) (l : List (Nat × Nat)) : ∀ f ∈ tallyFrames d epoch n tsn l, f.seq = d.ds.seq := by
  induction n generalizing tsn l with
  | zero => exact fun f hf => absurd hf (List.not_mem_nil)
  | succ n ih =>
    intro f hf
    rw [tallyFrames] at hf
    rcases List.mem_cons.1 hf with rfl | later
    · rfl
    · exact ih _ _ f later

theorem noteBlocked_fmt (s : State) : (noteBlocked s).fmt = s.fmt := by
  unfold noteBlocked
  split_ifs
  · rfl
  · rfl
  · exact (device_fmt (raiseP_onlyEvents ..).device :)

theorem sendTally_parts (d : WrittenDataset) (s : State) :
    (sendTally d s).fmt = s.fmt ∧ (sendTally d s).mram = { s.mram with
      tallies := s.mram.tallies ++ tallyFrames d d.ds.bootEpoch (framesNeeded d.tally) s.mram.nextTsn d.tally
      nextTsn := s.mram.nextTsn + framesNeeded d.tally } := by
  unfold sendTally pumpTally
  dsimp only
  rw [noteBlocked_fmt, (noteBlocked_parts _).2.2.2]
  split <;> exact ⟨rfl, rfl⟩

/-! ### Steps of a release -/

theorem c3Take_none (d : WrittenDataset) (hg : s.fmt.c3Groups = []) : c3Take d s = s := by
  unfold c3Take
  split
  · rfl
  · rw [hg]
    exact congrArg (fun l => { s with fmt := { s.fmt with c3Groups := l } }) hg.symm

/-- The subscriptions told of the dataset are told that it is verified, and are listed no more. -/
theorem verifiedEvents_parts (d : WrittenDataset) (s : State) :
    (verifiedEvents d s).fmt = s.fmt ∧ ∃ l, (verifiedEvents d s).mram = { s.mram with written := l } := by
  unfold verifiedEvents
  generalize s.mram.written.filter (·.seq == d.ds.seq) = ws
  induction ws generalizing s with
  | nil => exact ⟨rfl, s.mram.written, rfl⟩
  | cons w ws ih =>
    have events := (raise_onlyEvents evDatasetVerified w.jsn (datasetParam d.ds)
      { s with mram := { s.mram with written := s.mram.written.filter fun x => !(x.jsn == w.jsn && x.seq == w.seq) } }).device
    obtain ⟨fmt, l, mram⟩ := ih (raise evDatasetVerified w.jsn (datasetParam d.ds)
      { s with mram := { s.mram with written := s.mram.written.filter fun x => !(x.jsn == w.jsn && x.seq == w.seq) } })
    exact ⟨fmt.trans (device_fmt events :), l, mram.trans (by rw [device_mram events])⟩

theorem retriedAll_jrn (l : List Nat) (s : State) : ∃ j, l.foldl (fun s j => markRetried j s) s = { s with jrn := j } := by
  induction l generalizing s with
  | nil => exact ⟨s.jrn, rfl⟩
  | cons w l ih => exact ih (markRetried w s)

/-- The end of the dataset, with no write command whose record runs on. -/
theorem durableTo_noWrites (d : WrittenDataset) (hw : s.fmt.writes = []) : durableTo d s = d.ds.firstItem + itemCount d.ds := by
  rw [durableTo, hw]
  rfl

/-- The release record of a dataset. -/
def releaseOf (d : WrittenDataset) (s : State) : ReleaseRecord :=
  { serial := (s.cart.inDrive).elim [] cartSerial, partition := d.ds.partition, seq := d.ds.seq, endItem := d.ds.firstItem + itemCount d.ds
    whole := durableTo d s }

/-- The durable end of a partition is n. -/
def endDurable (p n : Nat) (s : State) : State := { s with fmt := { s.fmt with durableEnd := s.fmt.durableEnd.set p n } }

theorem endDurable_mram (p n : Nat) (s : State) : (endDurable p n s).mram = s.mram := rfl

theorem endDurable_fmt (p n : Nat) (s : State) : (endDurable p n s).fmt = { s.fmt with durableEnd := s.fmt.durableEnd.set p n } := rfl

/-- What a data dataset's release has recorded before its events: its release record, its tally and the durable end. -/
def releaseRecorded (d : WrittenDataset) (s : State) : State :=
  endDurable d.ds.partition (durableTo d s) (sendTally d (recordRelease d s))

theorem releaseRecorded_parts (d : WrittenDataset) (s : State) :
    (releaseRecorded d s).fmt = { s.fmt with durableEnd := s.fmt.durableEnd.set d.ds.partition (durableTo d s) }
      ∧ releaseOf d s ∈ (releaseRecorded d s).mram.releases ∧ d.ds.seq ∈ (releaseRecorded d s).mram.releasing
      ∧ (releaseRecorded d s).mram.tallies
        = s.mram.tallies ++ tallyFrames d d.ds.bootEpoch (framesNeeded d.tally) s.mram.nextTsn d.tally
      ∧ (releaseRecorded d s).mram.nextTsn = s.mram.nextTsn + framesNeeded d.tally := by
  obtain ⟨fmt, mram⟩ := sendTally_parts d (recordRelease d s)
  rw [releaseRecorded, endDurable_fmt, endDurable_mram, fmt, mram]
  exact ⟨rfl, List.mem_append_right _ (List.mem_singleton_self _), List.mem_append_right _ (List.mem_singleton_self _), rfl, rfl⟩

/-- The commands of a rewritten dataset are marked as retried. -/
def rewrittenRetried (d : WrittenDataset) (s : State) : State :=
  if d.ds.rewritten then d.itemJsns.foldl (fun s j => markRetried j s) s else s

theorem rewrittenRetried_jrn (d : WrittenDataset) (s : State) : ∃ j, rewrittenRetried d s = { s with jrn := j } := by
  unfold rewrittenRetried
  split
  · exact retriedAll_jrn ..
  · exact ⟨s.jrn, rfl⟩

/-- The dataset leaves the pipeline. -/
def leavesPipeline (d : WrittenDataset) (s : State) : State :=
  countDurable d.ds.seq { s with
    fmt := { s.fmt with
      active := s.fmt.active.filter (·.ds.seq != d.ds.seq), leaving := s.fmt.leaving ++ [(d.ds.seq, d.buf)]
      releasedCount := sat64 s.fmt.releasedCount 1 }
    vfy := { s.vfy with failedCws := s.vfy.failedCws.filter (·.seq != d.ds.seq) } }

theorem leavesPipeline_parts (d : WrittenDataset) (hw : s.fmt.writes = []) :
    (leavesPipeline d s).fmt = { s.fmt with
        active := s.fmt.active.filter (·.ds.seq != d.ds.seq), leaving := s.fmt.leaving ++ [(d.ds.seq, d.buf)]
        releasedCount := sat64 s.fmt.releasedCount 1 }
      ∧ (leavesPipeline d s).mram = s.mram := by
  rw [leavesPipeline, countDurable]
  dsimp only
  rw [hw]
  exact ⟨rfl, rfl⟩

theorem releaseDataset_recorded (kind : d.ds.kind = 0) :
    releaseDataset d s = afterWrites (leavesPipeline d (rewrittenRetried d (verifiedEvents d (c3Take d (releaseRecorded d s))))) := by
  unfold releaseDataset
  dsimp only
  rw [if_pos kind]
  rfl

/-- A data dataset is released: its record, its tally, the durable end, and the dataset leaves the pipeline. -/
theorem releaseDataset_data (kind : d.ds.kind = 0) (hw : s.fmt.writes = []) (ho : s.fmt.opened = none) (hc : s.fmt.closed = [])
    (hg : s.fmt.c3Groups = []) :
    (releaseDataset d s).fmt = { s.fmt with
        durableEnd := s.fmt.durableEnd.set d.ds.partition (d.ds.firstItem + itemCount d.ds)
        active := s.fmt.active.filter (·.ds.seq != d.ds.seq), leaving := s.fmt.leaving ++ [(d.ds.seq, d.buf)]
        releasedCount := sat64 s.fmt.releasedCount 1 }
      ∧ ∃ l, (releaseDataset d s).mram = { (releaseRecorded d s).mram with written := l } := by
  obtain ⟨recorded, -⟩ := releaseRecorded_parts d s
  have taken : c3Take d (releaseRecorded d s) = releaseRecorded d s := c3Take_none d (by rw [recorded]; exact hg)
  obtain ⟨told, l, mram⟩ := verifiedEvents_parts d (releaseRecorded d s)
  obtain ⟨j, retried⟩ := rewrittenRetried_jrn d (verifiedEvents d (releaseRecorded d s))
  rw [releaseDataset_recorded kind, taken, retried]
  rw [recorded, durableTo_noWrites d hw] at told
  generalize verifiedEvents d (releaseRecorded d s) = u at *
  obtain ⟨fmt, kept⟩ := leavesPipeline_parts (s := { u with jrn := j }) d (by change u.fmt.writes = []; rw [told]; exact hw)
  generalize leavesPipeline d { u with jrn := j } = v at *
  have fmt' := fmt
  rw [show ({ u with jrn := j } : State).fmt = u.fmt from rfl, told] at fmt'
  have settled : afterWrites v = v := by
    rw [afterWrites_empty (by rw [fmt']; exact ho) (by rw [fmt']; exact hc) (by rw [fmt']; exact hg), settleWrites_none (by rw [fmt']; exact hw)]
  rw [settled]
  exact ⟨fmt', l, kept.trans mram⟩

/-! ### O59 -/

theorem datasetRelease_some (free : heldBack s = false) (hd : releasable s = some d) : exec .datasetRelease s = .next (releaseDataset d s) := by
  change execDatasetRelease s = _
  rw [execDatasetRelease, free, if_neg Bool.false_ne_true, hd]

theorem datasetRelease_none (h : heldBack s = true ∨ releasable s = none) : exec .datasetRelease s = .next s := by
  change execDatasetRelease s = _
  rw [execDatasetRelease]
  rcases h with h | h
  · rw [if_pos h]
  · rw [h]
    split <;> rfl

/-- The buffer of a dataset whose release record is durable goes back to the Porter. -/
theorem releaseRecordDurable_some {seq : Nat} {h : Word} (hl : s.fmt.leaving.find? (·.1 == seq) = some (seq, h)) :
    ∃ t, exec (.releaseRecordDurable seq) s = .next t ∧ t.fmt.leaving = s.fmt.leaving.filter (·.1 != seq)
      ∧ t.mram.releasing = s.mram.releasing.filter (· != seq) ∧ t.mram.releases = s.mram.releases ∧ t.mem = s.mem ∧ t.jrn = s.jrn := by
  obtain ⟨q, events⟩ := freeBuffer_onlyPorter 6 h { s with
    fmt := { s.fmt with leaving := s.fmt.leaving.filter (·.1 != seq) }
    mram := { s.mram with releasing := s.mram.releasing.filter (· != seq) } }
  refine ⟨_, ?_, (congrArg Fmt.leaving (device_fmt events.device) :), (congrArg Mram.releasing (device_mram events.device) :),
    (congrArg Mram.releases (device_mram events.device) :), (events.mem :), (events.jrn :)⟩
  change execReleaseRecordDurable seq s = _
  rw [execReleaseRecordDurable, hl]

theorem releaseRecordDurable_none {seq : Nat} (hl : s.fmt.leaving.find? (·.1 == seq) = none) : exec (.releaseRecordDurable seq) s = .next s := by
  change execReleaseRecordDurable seq s = _
  rw [execReleaseRecordDurable, hl]

/-- Settles O59: closing, the run's beginning, the status page and the release, each by its lemma. -/
theorem datasetsCloseRunAndRelease : Obligations.DatasetsCloseRunAndRelease := by
  refine ⟨?_, ?_, ?_, ?_, ?_, ?_, ?_, ?_, ?_, ?_, ?_, ?_⟩
  · intro at_ s o ho items has between due hw hg noEpoch
    obtain ⟨t, run, opened, closed, jrn, mem⟩ := idleClose_between ho items has between due hw hg noEpoch
    exact ⟨t, parked o, run, opened, closed, rfl, rfl, rfl, rfl, jrn, mem⟩
  · intro at_ s o w f fs ho items has isOpen frames hw own going part room due hg noEpoch
    obtain ⟨t, o', run, opened, closed, sealed', bytes, tally, jrn, mem⟩ :=
      idleClose_inFrame ho items has isOpen frames hw own going part room due hg noEpoch
    exact ⟨t, parked o', run, opened, closed, sealed', bytes, tally, jrn, mem⟩
  · exact fun at_ s h => datasetIdleClose_early h
  · intro at_ s p hc hg hr cart free up epoch runs may hp locked
    obtain ⟨r, run, part, runIn, going, mode, mem, place⟩ := approach_begins (p := p) (s := atTime at_ s) locked
    exact ⟨_, r, writingRunStart_may true hc hg hr cart free up epoch runs may hp, run, part, runIn, going, mode, mem, place⟩
  · intro at_ atStep s p w hc hg ho hr cart free up epoch runs may hp lost
    have starts := writingRunStart_may atStep hc hg hr cart free up epoch runs may hp
    refine ⟨fun first => ?_, fun second hw going part => ?_⟩
    · rw [starts, approach_again (s := atTime at_ s) lost first]
      rfl
    · rw [starts, approach_fails (s := atTime at_ s) lost second]
      obtain ⟨run, approached, ends⟩ := lastingServoLoss_single
        (s := { atTime at_ s with fmt := { (atTime at_ s).fmt with approached := false } }) hw going part ho hc hg
      exact ⟨_, rfl, run.trans hr, approached, lastingServoLoss_mem _, ends⟩
  · exact fun at_ atStep s hc hg h => writingRunStart_mayNot atStep hc hg h
  · intro s due cart idle
    obtain ⟨loaded, inDrive⟩ := loadedCart_some cart
    obtain ⟨statusDue, loaded', jrn⟩ := writeStatus_writes s.cart.dirty inDrive
    refine ⟨writeStatus s.cart.dirty s, congrArg Host.Outcome.next (if_pos ?_), statusDue, loaded'.trans loaded, writeStatus_fmt .., jrn,
      writeStatus_mem ..⟩
    rw [due, cart, idle]
    rfl
  · exact fun s h => cmStatusWrite_not h
  · intro s d x free hd kind hx hw hc ho hg
    obtain ⟨fmt, l, mram⟩ := releaseDataset_data kind hw ho hc hg
    obtain ⟨-, release, releasing, tallies, tsn⟩ := releaseRecorded_parts d s
    generalize releaseRecorded d s = r at *
    refine ⟨releaseDataset d s, datasetRelease_some free hd, ?_, ⟨releaseOf d s, ?_, rfl, rfl, rfl⟩,
      ⟨tallyFrames d d.ds.bootEpoch (framesNeeded d.tally) s.mram.nextTsn d.tally, ?_, tallyFrames_length ..,
        tallyFrames_seq _ _ _ _ _⟩, ?_, ?_, ?_, ?_, ?_, releaseDataset_mem ..⟩
    · obtain ⟨small, -⟩ := List.getElem?_eq_some_iff.1 hx
      rw [fmt]
      simp [List.getD, small]
    · rw [mram]
      exact release
    · rw [mram]
      exact tallies
    · rw [mram]
      exact tsn
    · rw [fmt]
      intro a ha
      simpa using (List.mem_filter.1 ha).2
    · rw [fmt]
      exact List.mem_append_right _ (List.mem_singleton_self _)
    · rw [mram]
      exact releasing
    · rw [fmt]
  · exact fun s h => datasetRelease_none h
  · exact fun s seq h hl => releaseRecordDurable_some hl
  · exact fun s seq hl => releaseRecordDurable_none hl

end Sys2Proof.Proofs
end

section
/-! PROOFS. What is held of datasets, its counters and the cartridge: `f_kit` says that the order of recovery leaves them. -/

namespace Sys2Proof.Machine

def State.kit (s : State) : List HeldDataset × Nat × Nat × Bool × Nat × Cart := (s.tec.held, s.tec.c3Recovered, s.tec.c3Fail, s.tec.c3Read, s.tec.subsetFail, s.cart)

end Sys2Proof.Machine

namespace Sys2Proof.Proofs

open Sys2Proof.Machine Sys2Proof.Safety Sys2Proof.Laws

@[simp] theorem kit_mk sys hif cmd jrn ctx pkr cph fmt tec vfy hlk drv mon spm prt mem thm pwr aon wh whd mram cart mgt pending out freeCount :
    (State.mk sys hif cmd jrn ctx pkr cph fmt tec vfy hlk drv mon spm prt mem thm pwr aon wh whd mram
      cart mgt pending out freeCount).kit =
      (tec.held, tec.c3Recovered, tec.c3Fail, tec.c3Read, tec.subsetFail, cart) := rfl

@[simp] theorem kit_fold (s : State) : (s.tec.held, s.tec.c3Recovered, s.tec.c3Fail, s.tec.c3Read, s.tec.subsetFail, s.cart) = s.kit := rfl

@[simp] theorem foldl_kit {α : Type} {f : State → α → State} (hf : ∀ s x, (f s x).kit = s.kit) (l : List α) (s : State) :
    (l.foldl f s).kit = s.kit := by
  induction l generalizing s with
  | nil => rfl
  | cons a t ih => rw [List.foldl_cons, ih, hf]

@[simp] theorem ite_kit (c : Prop) [Decidable c] (a b : State) : (if c then a else b).kit = if c then a.kit else b.kit :=
  apply_ite State.kit c a b

theorem optMap_kit {f : State → State} (hf : ∀ s, (f s).kit = s.kit) {o : Option State} {m : List HeldDataset × Nat × Nat × Bool × Nat × Cart}
    (ho : ∀ r, o = some r → r.kit = m) (r : State) (h : o.map f = some r) : r.kit = m := by
  obtain ⟨u, hu, rfl⟩ := Option.map_eq_some_iff.1 h
  rw [hf, ho u hu]

theorem getD_kit {o : Option State} {m : List HeldDataset × Nat × Nat × Bool × Nat × Cart} (ho : ∀ r, o = some r → r.kit = m) (s : State) (hs : s.kit = m) :
    (o.getD s).kit = m := by
  cases o with
  | none => exact hs
  | some u => exact ho u rfl

/-! ### Events and buffers -/

theorem OnlyEvents.kit {s t : State} (h : OnlyEvents s t) : t.kit = s.kit := by
  obtain ⟨_, _, _, _, _, _, rfl, -⟩ := h; rfl

theorem OnlyPorter.kit {s t : State} (h : OnlyPorter s t) : t.kit = s.kit := h.elim fun _ h => h.kit

@[simp] theorem emit_kit (o : Output) (s : State) : (emit o s).kit = s.kit := (emit_onlyEvents o s).kit
@[simp] theorem drawFree_kit (s : State) : (drawFree s).kit = s.kit := rfl
@[simp] theorem msixTrigger_kit (vec : Nat) (en : Bool) (s : State) : (msixTrigger vec en s).kit = s.kit := (msixTrigger_onlyEvents vec en s).kit
@[simp] theorem hostStore_kit (addr : Nat) (l : List Byte) (s : State) : (hostStore addr l s).kit = s.kit := (hostStore_onlyEvents addr l s).kit
@[simp] theorem raise_kit (src p0 p1 : Nat) (s : State) : (raise src p0 p1 s).kit = s.kit := (raise_onlyEvents ..).kit
@[simp] theorem raiseP_kit (src p0 : Nat) (s : State) : (raiseP src p0 s).kit = s.kit := (raiseP_onlyEvents ..).kit
@[simp] theorem raiseN_kit (src : Nat) (s : State) : (raiseN src s).kit = s.kit := (raiseN_onlyEvents ..).kit
@[simp] theorem freeBuffer_kit (o : Nat) (h : Word) (s : State) : (freeBuffer o h s).kit = s.kit :=
  (freeBuffer_onlyPorter o h s).kit

@[simp] theorem setRun_kit (jsn : Nat) (f : RunInfo → RunInfo) (s : State) : (setRun jsn f s).kit = s.kit := by
  unfold setRun; simp
@[simp] theorem modUnit_kit (u : Nat) (f : SysUnit → SysUnit) (s : State) : (modUnit u f s).kit = s.kit := by
  unfold modUnit; simp
@[simp] theorem setUnit_kit (u st cause : Nat) (s : State) : (setUnit u st cause s).kit = s.kit := by
  unfold setUnit; simp
@[simp] theorem addTransient_kit (u : Nat) (s : State) : (addTransient u s).kit = s.kit := by
  unfold addTransient; simp
@[simp] theorem setDetector_kit (track wrap : Nat) (d : Detector) (s : State) : (setDetector track wrap d s).kit = s.kit := by
  unfold setDetector; simp
@[simp] theorem markRetried_kit (jsn : Nat) (s : State) : (markRetried jsn s).kit = s.kit := by
  unfold markRetried; simp
@[simp] theorem noteMiscorrect_kit (seq subset row : Nat) (s : State) : (noteMiscorrect seq subset row s).kit = s.kit := by
  unfold noteMiscorrect; simp
@[simp] theorem countDecode_kit (seq k : Nat) (st : DecodeStats) (r : Scheduled) (s : State) : (countDecode seq k st r s).kit = s.kit := by
  unfold countDecode; simp
@[simp] theorem adaptOver_kit (c : Reread) (seq : Nat) (s : State) : (adaptOver c seq s).kit = s.kit := by
  unfold adaptOver; (repeat' split) <;> simp
@[simp] theorem endMeasure_kit (s : State) : (endMeasure s).kit = s.kit := by
  unfold endMeasure; simp
@[simp] theorem beginMeasure_kit (seq : Nat) (m : Measure) (s : State) : (beginMeasure seq m s).kit = s.kit := by
  unfold beginMeasure; (repeat' split) <;> simp
@[simp] theorem recover_kit (seq passes : Nat) (noC3 : Bool) (s : State) : (recover seq passes noC3 s).kit =
    s.kit := by
  unfold recover; dsimp only; (repeat' split) <;> simp
@[simp] theorem recovered_kit (h : HeldDataset) (s : State) : (recovered h s).kit = s.kit := by
  unfold recovered; (repeat' split) <;> simp
@[simp] theorem afterMeasure_kit (seq passes : Nat) (noC3 : Bool) (s : State) : (afterMeasure seq passes noC3
    s).kit = s.kit := by
  unfold afterMeasure; (repeat' split) <;> simp
@[simp] theorem degradeChannel_kit (t : Nat) (s : State) : (degradeChannel t s).kit = s.kit := by
  unfold degradeChannel; simp

end Sys2Proof.Proofs
end

section
/-! PROOFS. The order of read recovery (08 R218, R223, 10 R262, R267, R270-R272; O60). -/

namespace Sys2Proof.Proofs

open Sys2Proof.Machine Sys2Proof.Safety Sys2Proof.Laws

variable {s t : State} {d : Dataset} {c : Cartridge} {h : HeldDataset} {q k passes : Nat} {noC3 : Bool}

/-! ### What is held of a dataset -/

theorem kit_parts (h : t.kit = s.kit) :
    t.tec.held = s.tec.held ∧ t.tec.c3Recovered = s.tec.c3Recovered ∧ t.tec.c3Fail = s.tec.c3Fail ∧ t.tec.c3Read = s.tec.c3Read
      ∧ t.tec.subsetFail = s.tec.subsetFail ∧ t.cart = s.cart := by
  simpa only [State.kit, Prod.mk.injEq] using h

theorem heldOf_congr (h : t.tec.held = s.tec.held) (x : Nat) : heldOf x t = heldOf x s := by rw [heldOf, heldOf, h]

theorem isLost_congr (h : t.tec.held = s.tec.held) (p : Nat × Nat) : isLost t p = isLost s p := by rw [isLost, isLost, heldOf_congr h]

theorem heldOf_seq (hh : heldOf q s = some h) : h.seq = q := by simpa using List.find?_some hh

theorem heldOf_setHeld {f : HeldDataset → HeldDataset} (hf : ∀ h, (f h).seq = h.seq) (q x : Nat) (s : State) :
    heldOf x (setHeld q f s) = (heldOf x s).map fun h => if h.seq = q then f h else h := by
  have same : (fun h : HeldDataset => h.seq == x) ∘ (fun h => if h.seq = q then f h else h) = fun h => h.seq == x := by
    funext h
    rw [Function.comp_apply]
    split
    · rw [hf]
    · rfl
  change (s.tec.held.map fun h => if h.seq = q then f h else h).find? (·.seq == x) = _
  rw [List.find?_map, same]
  rfl

theorem heldOf_setHeld_same {f : HeldDataset → HeldDataset} (hf : ∀ h, (f h).seq = h.seq) (q : Nat) (s : State) :
    heldOf q (setHeld q f s) = (heldOf q s).map f := by
  rw [heldOf_setHeld hf]
  cases hh : heldOf q s with
  | none => rfl
  | some h => exact congrArg some (if_pos (heldOf_seq hh))

theorem heldOf_setHeld_other {f : HeldDataset → HeldDataset} (hf : ∀ h, (f h).seq = h.seq) {x : Nat} (hx : x ≠ q) (s : State) :
    heldOf x (setHeld q f s) = heldOf x s := by
  rw [heldOf_setHeld hf]
  cases hh : heldOf x s with
  | none => rfl
  | some h => exact congrArg some (if_neg (heldOf_seq hh ▸ hx))

theorem setHeld_some {f : HeldDataset → HeldDataset} (hf : ∀ h, (f h).seq = h.seq) (hh : heldOf q s = some h) :
    heldOf q (setHeld q f s) = some (f h) := by
  rw [heldOf_setHeld_same hf, hh, Option.map_some]

theorem tapeDataset_seq (h : tapeDataset q s = some d) : d.seq = q := by
  obtain ⟨c, -, found⟩ := Option.bind_eq_some_iff.1 h
  simpa using List.find?_some found

theorem tapeDataset_loaded (h : (tapeDataset q s).isSome = true) : ∃ c d, loadedCart s = some c ∧ tapeDataset q s = some d := by
  obtain ⟨d, hd⟩ := Option.isSome_iff_exists.1 h
  obtain ⟨c, hc, -⟩ := Option.bind_eq_some_iff.1 hd
  exact ⟨c, d, hc, hd⟩

theorem loadedCart_congr (h : t.cart = s.cart) : loadedCart t = loadedCart s := by rw [loadedCart, loadedCart, h]

theorem c3Applies_congr (hc : t.cart = s.cart) (hr : t.tec.c3Read = s.tec.c3Read) : c3Applies q noC3 t = c3Applies q noC3 s := by
  rw [c3Applies, c3Applies, tapeDataset, tapeDataset, loadedCart_congr hc, hr]

/-! ### What follows a measure -/

theorem setUnit_tec (u st cause : Nat) (s : State) : (setUnit u st cause s).tec = s.tec := (device_tec (setUnit_onlyEvents u st cause s).device :)

theorem endMeasure_tec (s : State) : (endMeasure s).tec = { s.tec with recovering := none, rdPass := 0, c3Active := false } := by
  unfold endMeasure
  dsimp only
  split
  · exact setUnit_tec ..
  · rfl

theorem recovered_rdRetryOk (first : h.passes = 0) (s : State) : (recovered h s).tec.rdRetryOk = sat64 s.tec.rdRetryOk 1 := by
  unfold recovered
  rw [if_pos first]
  split <;> exact congrArg Tec.rdRetryOk (device_tec (raiseP_onlyEvents ..).device :)

theorem recover_done (hh : heldOf q s = some h) (all : h.failed = []) : recover q passes noC3 s = endMeasure s := by
  rw [recover]
  dsimp only
  rw [heldOf_congr (kit_parts (endMeasure_kit s)).1, hh]
  dsimp only
  rw [all]
  exact if_pos rfl

theorem recover_failed (hh : heldOf q s = some h) (some' : h.failed ≠ []) :
    recover q passes noC3 s = (nextMeasure h passes noC3 (endMeasure s)).elim (endMeasure s) fun m =>
      beginMeasure q m { endMeasure s with tec := { (endMeasure s).tec with recovering := some (q, passes, noC3) } } := by
  have not' : h.failed.isEmpty = false := by simpa using some'
  rw [recover]
  dsimp only
  rw [heldOf_congr (kit_parts (endMeasure_kit s)).1, hh]
  dsimp only
  rw [not', if_neg Bool.false_ne_true]
  cases nextMeasure h passes noC3 (endMeasure s) <;> rfl

theorem nextMeasure_retried (retried : h.retried = true) (no : c3Applies h.seq noC3 s = false) :
    nextMeasure h passes noC3 s = if h.passes < passes then some (.pass (h.passes + 1)) else none := by
  rw [nextMeasure, no, if_neg Bool.false_ne_true]
  dsimp only
  rw [retried]
  rfl

/-- After a retry or a pass: all is decoded, or without C3 the next pass begins, or every means is spent. -/
structure MeasureEnds (q passes : Nat) (noC3 : Bool) (h : HeldDataset) (s t : State) : Prop where
  decoded : h.failed = [] → t.tec.recovering = none ∧ (h.passes = 0 → t.tec.rdRetryOk = sat64 s.tec.rdRetryOk 1)
  goesOn : h.failed ≠ [] → c3Applies q noC3 s = false → h.passes < passes → t.tec.rdPass = h.passes + 1
  spent : h.failed ≠ [] → c3Applies q noC3 s = false → passes ≤ h.passes → t.tec.recovering = none

theorem afterMeasure_ends (hh : heldOf q s = some h) (retried : h.retried = true) :
    MeasureEnds q passes noC3 h s (afterMeasure q passes noC3 s) := by
  have own := heldOf_seq hh
  have c3 : c3Applies q noC3 s = false → c3Applies h.seq noC3 (endMeasure s) = false := fun no => by
    obtain ⟨-, -, -, c3Read, -, cart⟩ := kit_parts (endMeasure_kit s)
    rw [own, c3Applies_congr cart c3Read, no]
  have failed : h.failed ≠ [] → c3Applies q noC3 s = false → afterMeasure q passes noC3 s
      = (if h.passes < passes then some (.pass (h.passes + 1)) else none).elim (endMeasure s) fun m =>
        beginMeasure q m { endMeasure s with tec := { (endMeasure s).tec with recovering := some (q, passes, noC3) } } := fun some' no => by
    have not' : h.failed.isEmpty = false := by simpa using some'
    rw [afterMeasure, hh]
    dsimp only
    rw [not', Bool.false_and, if_neg Bool.false_ne_true, recover_failed hh some', nextMeasure_retried retried (c3 no)]
  refine ⟨fun all => ?_, fun some' no more => ?_, fun some' no less => ?_⟩
  · have done : afterMeasure q passes noC3 s = endMeasure (recovered h s) := by
      rw [afterMeasure, hh]
      dsimp only
      rw [all, retried, if_pos (by rfl)]
      exact recover_done (by rw [heldOf_congr (kit_parts (recovered_kit h s)).1, hh]) all
    rw [done, endMeasure_tec]
    exact ⟨rfl, fun first => recovered_rdRetryOk first s⟩
  · rw [failed some' no, if_pos more, Option.elim_some, beginMeasure]
    exact congrArg Tec.rdPass (device_tec (raise_onlyEvents ..).device :)
  · rw [failed some' no, if_neg (Nat.not_lt.2 less), Option.elim_none, endMeasure_tec]

/-! ### A first reading -/

theorem holdRecord_holds (q : Nat) (s : State) :
    ∃ h, heldOf q (holdRecord q s) = some h ∧ (∀ i, h.failed.contains i = isLost s (q, i)) ∧ (∀ x, x ≠ q → heldOf x (holdRecord q s) = heldOf x s) := by
  unfold holdRecord
  cases hh : heldOf q s with
  | some h => exact ⟨h, hh, fun i => by rw [isLost, hh]; rfl, fun x _ => rfl⟩
  | none =>
    have appended : ∀ x, heldOf x { s with tec := { s.tec with held := s.tec.held ++ [freshHeld q] } }
        = (heldOf x s).or ([freshHeld q].find? (·.seq == x)) := fun x => List.find?_append
    refine ⟨freshHeld q, ?_, fun i => by rw [isLost, hh]; rfl, fun x hx => ?_⟩
    · exact (appended q).trans (by rw [hh]; simp [freshHeld])
    · refine (appended x).trans ?_
      rw [List.find?_cons_of_neg (by simpa [freshHeld] using Ne.symm hx)]
      exact Option.or_none

/-- Nothing but what is held of datasets differs. -/
theorem holdRecord_shape (q : Nat) (s : State) : ∃ l, holdRecord q s = { s with tec := { s.tec with held := l } } := by
  unfold holdRecord
  split
  · exact ⟨s.tec.held, rfl⟩
  · exact ⟨_, rfl⟩

theorem setHeld_holdRecord_shape (q : Nat) (f : HeldDataset → HeldDataset) (s : State) :
    ∃ l, setHeld q f (holdRecord q s) = { s with tec := { s.tec with held := l } } := by
  obtain ⟨l, hl⟩ := holdRecord_shape q s
  rw [hl]
  exact ⟨_, rfl⟩

theorem noteMiscorrects_shape (q k : Nat) (l : List RowNow) (s : State) :
    ∃ n, (l.foldl (fun s x => noteMiscorrect q k x.row s) s).tec = { s.tec with c1Miscorrect := n }
      ∧ (l.foldl (fun s x => noteMiscorrect q k x.row s) s).jrn = s.jrn := by
  induction l generalizing s with
  | nil => exact ⟨s.tec.c1Miscorrect, rfl, rfl⟩
  | cons x l ih =>
    have events := raise_onlyEvents evTecC1Miscorrect q (x.row + k * 2 ^ 9) { s with tec := { s.tec with c1Miscorrect := sat64 s.tec.c1Miscorrect 1 } }
    obtain ⟨n, tec, jrn⟩ := ih (noteMiscorrect q k x.row s)
    exact ⟨n, tec.trans (by rw [noteMiscorrect, device_tec events.device]), jrn.trans (events.jrn :)⟩

theorem countDecode_parts (q k : Nat) (st : DecodeStats) (r : Scheduled) (s : State) :
    (countDecode q k st r s).tec.c2Symbols = sat64 s.tec.c2Symbols st.c2Symbols ∧ (countDecode q k st r s).tec.rdRetryOk = s.tec.rdRetryOk
      ∧ (countDecode q k st r s).jrn = s.jrn := by
  obtain ⟨n, tec, jrn⟩ := noteMiscorrects_shape q k (r.rows.filter (·.slip)) s
  unfold countDecode
  dsimp only
  rw [tec]
  exact ⟨rfl, rfl, jrn⟩

/-- What failed of the dataset's first reading is held as failed. -/
theorem noteSubset_holds (small : k < 16) (c : Reread) (st : DecodeStats) (r : Scheduled) (s : State) :
    ∃ h, heldOf q (noteSubset c q k st r s) = some h
      ∧ (∀ i, i ∈ h.failed ↔ i < 16 ∧ (isLost s (q, i) = true ∨ (r.ok = false ∧ i = k)))
      ∧ ∀ x, x ≠ q → heldOf x (noteSubset c q k st r s) = heldOf x s := by
  obtain ⟨h, hh, failed, others⟩ := holdRecord_holds q s
  unfold noteSubset
  dsimp only
  refine ⟨_, setHeld_some (fun _ => rfl) hh, fun i => ?_, fun x hx => ?_⟩
  · have failed' : i ∈ h.failed ↔ isLost s (q, i) = true := by rw [← failed, List.contains_iff_mem]
    cases hok : r.ok with
    | true => simp [failed']
    | false => simp [failed']
  · rw [heldOf_setHeld_other ?_ hx, others x hx]
    exact fun _ => rfl

theorem noteMissing_holds (q : Nat) (s : State) :
    ∃ h, heldOf q (noteMissing q s) = some h ∧ h.failed = List.range 16 ∧ h.notFound = true
      ∧ ∀ x, x ≠ q → heldOf x (noteMissing q s) = heldOf x s := by
  obtain ⟨h, hh, -, others⟩ := holdRecord_holds q s
  unfold noteMissing
  refine ⟨_, setHeld_some (fun _ => rfl) hh, rfl, rfl, fun x hx => ?_⟩
  rw [heldOf_setHeld_other ?_ hx, others x hx]
  exact fun _ => rfl

/-- The event of a sub-dataset that has failed, with its count. -/
def failNoted (ok : Bool) (q k : Nat) (s : State) : State :=
  if ok then s else raise evTecSubsetFail q k { s with tec := { s.tec with subsetFail := sat64 s.tec.subsetFail 1 } }

theorem failNoted_parts (ok : Bool) (q k : Nat) (s : State) :
    (failNoted ok q k s).tec = { s.tec with subsetFail := if ok then s.tec.subsetFail else sat64 s.tec.subsetFail 1 }
      ∧ (failNoted ok q k s).jrn = s.jrn ∧ (failNoted ok q k s).cart = s.cart := by
  cases ok with
  | true => exact ⟨rfl, rfl, rfl⟩
  | false =>
    have events := raise_onlyEvents evTecSubsetFail q k { s with tec := { s.tec with subsetFail := sat64 s.tec.subsetFail 1 } }
    exact ⟨(device_tec events.device :), (events.jrn :), (device_cart events.device :)⟩

theorem decodeSubset_some {x : Reread} {ahead inv : Nat} {r : Scheduled} (hr : readSubset x d k ahead s = some (inv, r)) :
    decodeSubset x d k ahead s = failNoted r.ok d.seq k
      (noteSubset x d.seq k (statsOfRows inv r) r (countDecode d.seq k (statsOfRows inv r) r s)) := by
  unfold decodeSubset
  rw [hr]
  rfl

theorem subdatasetDecode_may {ahead : Nat} {slots : List SlotReading} (found : Bool) (hc : loadedCart s = some c) (hd : tapeDataset q s = some d)
    (idle : s.fmt.run = none) (ticks : s.sys.synth = false) (free : s.tec.recovering = none) (small : k < 16) :
    exec (.subdatasetDecode q k found ahead slots) s
      = .next (if found then decodeSubset (rereadOf c d slots s) d k ahead s else noteMissing q s) := by
  change execSubdatasetDecode q k found ahead slots s = _
  rw [execSubdatasetDecode, hc, hd]
  dsimp only
  rw [idle, ticks, free, if_neg (by simp [small])]

theorem subdatasetDecode_not {found : Bool} {ahead : Nat} {slots : List SlotReading}
    (h : (tapeDataset q s).isNone = true ∨ s.fmt.run.isSome = true ∨ s.sys.synth = true ∨ s.tec.recovering.isSome = true ∨ 16 ≤ k) :
    exec (.subdatasetDecode q k found ahead slots) s = .next s := by
  change execSubdatasetDecode q k found ahead slots s = _
  rw [execSubdatasetDecode]
  cases hc : loadedCart s with
  | none => rfl
  | some c =>
    cases hd : tapeDataset q s with
    | none => rfl
    | some d =>
      refine congrArg Host.Outcome.next (if_pos ?_)
      rcases h with h | h | h | h | h
      · rw [hd] at h
        nomatch h
      all_goals simp [h]

/-- The first reading of a sub-dataset: its outcome is held and counted. -/
theorem subdatasetDecode_reads {ahead inv : Nat} {slots : List SlotReading} {r : Scheduled} (hc : loadedCart s = some c)
    (hd : tapeDataset q s = some d) (idle : s.fmt.run = none) (ticks : s.sys.synth = false) (free : s.tec.recovering = none) (small : k < 16)
    (hr : readSubset (rereadOf c d slots s) d k ahead s = some (inv, r)) :
    ∃ t h, exec (.subdatasetDecode q k true ahead slots) s = .next t ∧ heldOf q t = some h
      ∧ (∀ i, i ∈ h.failed ↔ i < 16 ∧ (isLost s (q, i) = true ∨ (r.ok = false ∧ i = k))) ∧ (∀ x, x ≠ q → heldOf x t = heldOf x s)
      ∧ t.tec.subsetFail = (if r.ok then s.tec.subsetFail else sat64 s.tec.subsetFail 1)
      ∧ t.tec.c2Symbols = sat64 s.tec.c2Symbols r.symbols ∧ t.jrn = s.jrn ∧ t.cart = s.cart ∧ t.mem = s.mem := by
  have mem := decodeSubset_mem (rereadOf c d slots s) d k ahead s
  have own := tapeDataset_seq hd
  rw [decodeSubset_some hr] at mem
  have runs := subdatasetDecode_may (ahead := ahead) (slots := slots) true hc hd idle ticks free small
  rw [if_pos rfl, decodeSubset_some hr] at runs
  rw [own] at mem runs
  obtain ⟨held, -, -, -, fails, cart⟩ := kit_parts (countDecode_kit q k (statsOfRows inv r) r s)
  obtain ⟨symbols, -, jrn⟩ := countDecode_parts q k (statsOfRows inv r) r s
  generalize countDecode q k (statsOfRows inv r) r s = u at *
  obtain ⟨h, hh, failed, others⟩ := noteSubset_holds (q := q) small (rereadOf c d slots s) (statsOfRows inv r) r u
  obtain ⟨l, shape⟩ : ∃ l, noteSubset (rereadOf c d slots s) q k (statsOfRows inv r) r u = { u with tec := { u.tec with held := l } } :=
    setHeld_holdRecord_shape ..
  generalize noteSubset (rereadOf c d slots s) q k (statsOfRows inv r) r u = v at *
  obtain ⟨tec, jrn', cart'⟩ := failNoted_parts r.ok q k v
  have held' : (failNoted r.ok q k v).tec.held = v.tec.held := by rw [tec]
  refine ⟨_, h, runs, (heldOf_congr held' q).trans hh, fun i => ?_, fun x hx => ?_, ?_, ?_, ?_, ?_, mem⟩
  · rw [failed, isLost_congr held]
  · rw [heldOf_congr held', others x hx, heldOf_congr held]
  · rw [tec, shape, fails]
  · rw [tec, shape]
    exact symbols
  · rw [jrn', shape, jrn]
  · rw [cart', shape, cart]

theorem subdatasetDecode_missing {ahead : Nat} {slots : List SlotReading} (hd : (tapeDataset q s).isSome = true) (idle : s.fmt.run = none)
    (ticks : s.sys.synth = false) (free : s.tec.recovering = none) (small : k < 16) :
    ∃ t h, exec (.subdatasetDecode q k false ahead slots) s = .next t ∧ heldOf q t = some h ∧ h.failed = List.range 16
      ∧ h.notFound = true ∧ (∀ x, x ≠ q → heldOf x t = heldOf x s) ∧ t.jrn = s.jrn ∧ t.cart = s.cart ∧ t.mem = s.mem := by
  obtain ⟨c, d, hc, hd'⟩ := tapeDataset_loaded hd
  obtain ⟨h, hh, failed, missing, others⟩ := noteMissing_holds q s
  obtain ⟨l, shape⟩ : ∃ l, noteMissing q s = { s with tec := { s.tec with held := l } } := setHeld_holdRecord_shape ..
  exact ⟨_, h, subdatasetDecode_may false hc hd' idle ticks free small, hh, failed, missing, others, by rw [if_neg Bool.false_ne_true, shape],
    by rw [if_neg Bool.false_ne_true, shape], noteMissing_mem ..⟩

theorem subdatasetDecode_waits {ahead : Nat} {slots : List SlotReading} (hc : loadedCart s = some c) (hd : tapeDataset q s = some d)
    (waits : readSubset (rereadOf c d slots s) d k ahead s = none) : exec (.subdatasetDecode q k true ahead slots) s = .next s := by
  have stays : decodeSubset (rereadOf c d slots s) d k ahead s = s := by
    unfold decodeSubset
    rw [waits]
  change execSubdatasetDecode q k true ahead slots s = _
  rw [execSubdatasetDecode, hc, hd]
  dsimp only
  rw [stays, if_pos rfl, ite_self]

end Sys2Proof.Proofs
end

section
/-! PROOFS. C3, the retry, the passes and blocks that do not decode (05 R126, R141, 08 R223, 10 R270-R272; O60). -/

namespace Sys2Proof.Proofs

open Sys2Proof.Machine Sys2Proof.Safety Sys2Proof.Laws

variable {s t : State} {d : Dataset} {c : Cartridge} {h : HeldDataset} {q k passes : Nat} {noC3 : Bool}

/-! ### C3 -/

/-- What is held of a member whose sub-dataset k C3 has recovered. -/
def c3Found (k : Nat) (h : HeldDataset) : HeldDataset := { h with failed := h.failed.filter (· != k), c3Used := true }

theorem isLost_c3Found (k q x i : Nat) (s : State) : isLost (setHeld q (c3Found k) s) (x, i) = (isLost s (x, i) && !(x == q && i == k)) := by
  rw [isLost, isLost, heldOf_setHeld (f := c3Found k) (fun _ => rfl)]
  cases hh : heldOf x s with
  | none => rfl
  | some h =>
    have own := heldOf_seq hh
    rw [Option.map_some, Option.any_some, Option.any_some, own]
    by_cases hx : x = q
    · rw [if_pos hx, c3Found, Bool.eq_iff_iff]
      simp [hx]
    · rw [if_neg hx]
      simp [hx]

/-- C3 recovers sub-dataset k of the listed members and nothing else. -/
theorem isLost_recovered (k : Nat) (l : List Dataset) (x i : Nat) (s : State) :
    isLost (l.foldl (fun s d => setHeld d.seq (c3Found k) s) s) (x, i) = (isLost s (x, i) && !(i == k && l.any (·.seq == x))) := by
  induction l generalizing s with
  | nil => simp
  | cons d l ih =>
    rw [List.foldl_cons, ih, isLost_c3Found, List.any_cons, BEq.comm (a := x)]
    have same : ∀ a u v r : Bool, ((a && !(v && u)) && !(u && r)) = (a && !(u && (v || r))) := by decide
    exact same ..

theorem c3Found_shape (k : Nat) (l : List Dataset) (s : State) :
    ∃ hs, l.foldl (fun s d => setHeld d.seq (c3Found k) s) s = { s with tec := { s.tec with held := hs } } := by
  induction l generalizing s with
  | nil => exact ⟨s.tec.held, rfl⟩
  | cons d l ih => exact ih (setHeld d.seq (c3Found k) s)

/-- C3 has been tried for sub-dataset k. -/
def c3TriedOnce (k : Nat) (h : HeldDataset) : HeldDataset := { h with c3Tried := h.c3Tried ++ [k] }

theorem isLost_c3Tried (k q : Nat) (p : Nat × Nat) (s : State) : isLost (setHeld q (c3TriedOnce k) s) p = isLost s p := by
  rw [isLost, isLost, heldOf_setHeld (f := c3TriedOnce k) (fun _ => rfl)]
  cases heldOf p.1 s with
  | none => rfl
  | some h =>
    rw [Option.map_some, Option.any_some, Option.any_some]
    split <;> rfl

/-- The members of the group that have lost sub-dataset k. -/
def c3Lost (c : Cartridge) (d : Dataset) (k : Nat) (s : State) : List Dataset :=
  (c3Members d (chainOf c d.partition)).filter fun x => isLost s (x.seq, k)

/-- The outcome of C3 for the group: at most four members can be recovered. -/
def c3Outcome (q k : Nat) (l : List Dataset) (s : State) : State :=
  if l.length ≤ 4 then
    { l.foldl (fun s d => setHeld d.seq (c3Found k) s) s with
      tec := { (l.foldl (fun s d => setHeld d.seq (c3Found k) s) s).tec with
        c3Recovered := sat64 (l.foldl (fun s d => setHeld d.seq (c3Found k) s) s).tec.c3Recovered l.length } }
  else raise evTecC3Unrecovered q k { s with tec := { s.tec with c3Fail := sat64 s.tec.c3Fail 1 } }

theorem c3Decode_runs (hr : s.tec.recovering = some (q, passes, noC3)) (hd : tapeDataset q s = some d) (hc : loadedCart s = some c)
    (active : s.tec.c3Active = true) (hh : heldOf q s = some h) (next : c3Next? h = some k) :
    exec (.c3Decode q k) s = .next (afterMeasure q passes noC3 (setHeld q (c3TriedOnce k) (c3Outcome q k (c3Lost c d k s) s))) := by
  change execC3Decode q k s = _
  rw [execC3Decode, hr, hd, hc]
  dsimp only
  rw [if_neg (by simp [active, hh, next])]
  rfl

theorem c3Decode_not (h : s.tec.recovering = none ∨ s.tec.c3Active = false) : exec (.c3Decode q k) s = .next s := by
  change execC3Decode q k s = _
  rw [execC3Decode]
  rcases h with h | h
  · rw [h]
  · split
    · rw [h, if_pos (.inr (.inl rfl))]
    · rfl

theorem c3Outcome_few {l : List Dataset} (few : l.length ≤ 4) :
    (∀ x i, isLost (c3Outcome q k l s) (x, i) = (isLost s (x, i) && !(i == k && l.any (·.seq == x))))
      ∧ (c3Outcome q k l s).tec.c3Recovered = sat64 s.tec.c3Recovered l.length ∧ (c3Outcome q k l s).tec.c3Fail = s.tec.c3Fail
      ∧ (c3Outcome q k l s).cart = s.cart ∧ (c3Outcome q k l s).mem = s.mem := by
  have lost := fun x i => isLost_recovered k l x i s
  obtain ⟨hs, shape⟩ := c3Found_shape k l s
  rw [shape] at lost
  rw [c3Outcome, if_pos few, shape]
  exact ⟨lost, rfl, rfl, rfl, rfl⟩

theorem c3Outcome_many {l : List Dataset} (many : 4 < l.length) :
    (∀ p, isLost (c3Outcome q k l s) p = isLost s p) ∧ (c3Outcome q k l s).tec.c3Recovered = s.tec.c3Recovered
      ∧ (c3Outcome q k l s).tec.c3Fail = sat64 s.tec.c3Fail 1 ∧ (c3Outcome q k l s).cart = s.cart ∧ (c3Outcome q k l s).mem = s.mem := by
  have events := raise_onlyEvents evTecC3Unrecovered q k { s with tec := { s.tec with c3Fail := sat64 s.tec.c3Fail 1 } }
  have tec := device_tec events.device
  rw [c3Outcome, if_neg (Nat.not_le.2 many)]
  exact ⟨fun p => isLost_congr (congrArg Tec.held tec :) p, (congrArg Tec.c3Recovered tec :), (congrArg Tec.c3Fail tec :),
    (device_cart events.device :), (events.mem :)⟩

/-! ### The dataset is read again -/

theorem countDecodes_parts {α : Type} (q : Nat) (f : α → Nat × DecodeStats × Scheduled) (l : List α) (s : State) :
    (l.foldl (fun s p => countDecode q (f p).1 (f p).2.1 (f p).2.2 s) s).kit = s.kit
      ∧ (l.foldl (fun s p => countDecode q (f p).1 (f p).2.1 (f p).2.2 s) s).tec.rdRetryOk = s.tec.rdRetryOk := by
  induction l generalizing s with
  | nil => exact ⟨rfl, rfl⟩
  | cons p l ih =>
    obtain ⟨kit, retries⟩ := ih (countDecode q (f p).1 (f p).2.1 (f p).2.2 s)
    exact ⟨kit.trans (countDecode_kit ..), retries.trans (countDecode_parts ..).2.1⟩

/-- The sub-datasets that stay failed when the dataset has been read again. -/
def stillFailed (c : Reread) (d : Dataset) (h : HeldDataset) (s : State) : List Nat :=
  h.failed.filter fun k => !(decide (k < 16) && (rereadSubset c d h s k).ok)

/-- What another reading leaves of what is held: of the dataset h becomes h', of no other dataset anything changes. -/
structure ReadsAgain (q : Nat) (failed : List Nat) (h h' : HeldDataset) (s t : State) : Prop where
  held : heldOf q t = some h'
  others : ∀ x, x ≠ q → heldOf x t = heldOf x s
  failed_eq : h'.failed = failed
  retried : h'.retried = h.retried
  passes : h'.passes = h.passes
  retries : t.tec.rdRetryOk = s.tec.rdRetryOk
  c3Read : t.tec.c3Read = s.tec.c3Read
  cart : t.cart = s.cart

theorem rereadDataset_reads (x : Reread) (hd : d.seq = q) (hh : heldOf q s = some h) :
    ∃ h', ReadsAgain q (stillFailed x d h s) h h' s (rereadDataset x d h s) := by
  unfold rereadDataset
  dsimp only
  rw [hd]
  generalize hks : (List.range 16).filter (fun k => h.failed.contains k || !(badRows h x.atf1 k).isEmpty) = ks
  obtain ⟨kit, retries⟩ := countDecodes_parts q (fun p : Nat × Scheduled => (p.1, statsOfRows 0 p.2, p.2))
    (ks.map fun k => (k, rereadSubset x d h s k)) s
  generalize (ks.map fun k => (k, rereadSubset x d h s k)).foldl (fun s p => countDecode q p.1 (statsOfRows 0 p.2) p.2 s) s = u at *
  obtain ⟨held, -, -, c3Read, -, cart⟩ := kit_parts kit
  refine ⟨_, setHeld_some ?_ ((heldOf_congr held q).trans hh), fun y hy => ?_, ?_, rfl, rfl, retries, c3Read, cart⟩
  · exact fun _ => rfl
  · rw [heldOf_setHeld_other ?_ hy, heldOf_congr held]
    exact fun _ => rfl
  · refine List.filter_congr fun k hk => congrArg (! ·) ?_
    rw [Bool.eq_iff_iff]
    simp only [List.any_map, List.any_eq_true, Function.comp_apply, Bool.and_eq_true, beq_iff_eq, decide_eq_true_eq, ← hks, List.mem_filter,
      List.mem_range, Bool.or_eq_true, List.contains_iff_mem]
    constructor
    · rintro ⟨j, ⟨small, -⟩, rfl, ok⟩
      exact ⟨small, ok⟩
    · rintro ⟨small, ok⟩
      exact ⟨k, ⟨small, .inl hk⟩, rfl, ok⟩

theorem readAgain_reads (x : Reread) (hd : d.seq = q) (found : Bool) (hh : heldOf q s = some h) :
    ∃ h', ReadsAgain q (if found then stillFailed x d h s else h.failed) h h' s (readAgain x d found s) := by
  rw [readAgain, hd, hh]
  dsimp only
  cases found with
  | true => exact rereadDataset_reads x hd hh
  | false =>
    rw [if_neg Bool.false_ne_true, if_neg Bool.false_ne_true]
    refine ⟨_, setHeld_some ?_ hh, fun y hy => ?_, rfl, rfl, rfl, rfl, rfl, rfl⟩
    · exact fun _ => rfl
    · rw [heldOf_setHeld_other ?_ hy]
      exact fun _ => rfl

/-! ### After the reading -/

/-- The dataset's automatic retry has been made. -/
def retriedOnce (h : HeldDataset) : HeldDataset := { h with retried := true }

/-- One recovery pass more has been made. -/
def passDone (h : HeldDataset) : HeldDataset := { h with passes := h.passes + 1 }

theorem afterReread {f : HeldDataset → HeldDataset} {failed : List Nat} {h' : HeldDataset} {u v : State} (reads : ReadsAgain q failed h h' s v)
    (hf : ∀ h, (f h).seq = h.seq) (kit : u.kit = (setHeld q f v).kit) (retries : u.tec.rdRetryOk = v.tec.rdRetryOk)
    (retried : (f h').retried = true) :
    heldOf q (afterMeasure q passes noC3 u) = some (f h') ∧ (∀ x, x ≠ q → heldOf x (afterMeasure q passes noC3 u) = heldOf x s)
      ∧ MeasureEnds q passes noC3 (f h') s (afterMeasure q passes noC3 u) ∧ (afterMeasure q passes noC3 u).cart = s.cart := by
  obtain ⟨held, -, -, c3Read, -, cart⟩ := kit_parts kit
  obtain ⟨held', -, -, -, -, cart'⟩ := kit_parts (afterMeasure_kit q passes noC3 u)
  have own : heldOf q u = some (f h') := by rw [heldOf_congr held, heldOf_setHeld_same hf, reads.held, Option.map_some]
  have same : c3Applies q noC3 u = c3Applies q noC3 s := c3Applies_congr (cart.trans reads.cart) (c3Read.trans reads.c3Read)
  obtain ⟨decoded, goesOn, spent⟩ := afterMeasure_ends (passes := passes) (noC3 := noC3) own retried
  rw [same] at goesOn spent
  rw [retries, reads.retries] at decoded
  refine ⟨(heldOf_congr held' q).trans own, fun x hx => ?_, ⟨decoded, goesOn, spent⟩, cart'.trans (cart.trans reads.cart)⟩
  rw [heldOf_congr held', heldOf_congr held, heldOf_setHeld_other hf hx, reads.others x hx]

theorem degradeChannel_rdRetryOk (n : Nat) (s : State) : (degradeChannel n s).tec.rdRetryOk = s.tec.rdRetryOk := by
  rw [degradeChannel, setUnit_tec]
  exact (congrArg Tec.rdRetryOk (device_tec (raiseP_onlyEvents ..).device) :)

/-- The retry reads the dataset again; a read channel without signal may be marked. -/
theorem readAutoRetry_runs {found : Bool} {slots : List SlotReading} (hr : s.tec.recovering = some (q, passes, noC3)) (turn : s.tec.rdPass = 15)
    (ticks : s.sys.synth = false) (hc : loadedCart s = some c) (hd : tapeDataset q s = some d) (hh : heldOf q s = some h) :
    ∃ u, exec (.readAutoRetry q found slots) s = .next (afterMeasure q passes noC3 u)
      ∧ u.kit = (setHeld q retriedOnce (readAgain (rereadOf c d slots s) d found s)).kit
      ∧ u.tec.rdRetryOk = (readAgain (rereadOf c d slots s) d found s).tec.rdRetryOk ∧ u.mem = s.mem := by
  change ∃ u, execReadAutoRetry q found slots s = _ ∧ _
  rw [execReadAutoRetry, hr, hc, hd, hh]
  dsimp only
  rw [if_neg (by simp [turn, ticks])]
  split
  · exact ⟨_, rfl, degradeChannel_kit .., degradeChannel_rdRetryOk .., (degradeChannel_mem ..).trans (readAgain_mem ..)⟩
  · exact ⟨_, rfl, rfl, rfl, readAgain_mem ..⟩

theorem readAutoRetry_not {found : Bool} {slots : List SlotReading} (h : s.tec.recovering = none ∨ s.tec.rdPass ≠ 15 ∨ s.sys.synth = true) :
    exec (.readAutoRetry q found slots) s = .next s := by
  change execReadAutoRetry q found slots s = _
  rw [execReadAutoRetry]
  rcases h with h | h
  · rw [h]
  · split
    · rw [if_pos (.inr h)]
    · rfl

theorem recoveryPass_runs {found : Bool} {slots : List SlotReading} (hr : s.tec.recovering = some (q, passes, noC3)) (first : s.tec.rdPass ≠ 0)
    (turn : s.tec.rdPass ≠ 15) (ticks : s.sys.synth = false) (hc : loadedCart s = some c) (hd : tapeDataset q s = some d) :
    exec (.recoveryPass q found slots) s = .next (afterMeasure q passes noC3 (setHeld q passDone (readAgain
      (passReading s.tec.rdPass (rereadOf c d slots s)) d found
      (if s.tec.rdPass = 2 then adaptOver (passReading s.tec.rdPass (rereadOf c d slots s)) q s else s)))) := by
  change execRecoveryPass q found slots s = _
  rw [execRecoveryPass, hr, hc, hd]
  dsimp only
  rw [if_neg (by simp [first, turn, ticks])]
  rfl

theorem recoveryPass_not {found : Bool} {slots : List SlotReading}
    (h : s.tec.recovering = none ∨ s.tec.rdPass = 0 ∨ s.tec.rdPass = 15 ∨ s.sys.synth = true) :
    exec (.recoveryPass q found slots) s = .next s := by
  change execRecoveryPass q found slots s = _
  rw [execRecoveryPass]
  rcases h with h | h
  · rw [h]
  · split
    · dsimp only
      rw [if_pos (.inr h)]
    · rfl

/-! ### Blocks that do not decode -/

/-- A block that did not decode at first is counted and its event raised. -/
def decodeErred (s : State) : State := raiseN evPkrDecodeErr { s with pkr := { s.pkr with decodeErrs := sat64 s.pkr.decodeErrs 1 } }

theorem decodeErred_parts (s : State) :
    (decodeErred s).pkr = { s.pkr with decodeErrs := sat64 s.pkr.decodeErrs 1 } ∧ (decodeErred s).tec = s.tec ∧ (decodeErred s).jrn = s.jrn
      ∧ (decodeErred s).mem = s.mem := by
  have events := raiseN_onlyEvents evPkrDecodeErr { s with pkr := { s.pkr with decodeErrs := sat64 s.pkr.decodeErrs 1 } }
  exact ⟨(device_pkr events.device :), (device_tec events.device :), (events.jrn :), (events.mem :)⟩

theorem pkrBlockDecoded_bad {jsn lane rec_ lane2 : Nat} {block hist : List Byte} {glitch : Bool} (reads : isReading jsn s = true)
    (bad : abfDecode block hist = none) :
    exec (.pkrBlockDecoded jsn lane rec_ block hist glitch lane2) s
      = .next { decodeErred s with tec := { (decodeErred s).tec with badBlocks := (decodeErred s).tec.badBlocks ++ [(jsn, rec_)] } } := by
  change execPkrBlockDecoded jsn lane rec_ block hist glitch lane2 s = _
  rw [execPkrBlockDecoded, reads, bad]
  rfl

/-- A block that decodes on another try: the lane that failed, taken out where it was another lane that decoded. -/
def laneJudged (lane lane2 : Nat) (s : State) : State :=
  if lane2 = lane then laneTransient (8 + lane) unUnpack s
  else setUnit unUnpack 2 lane (raiseP evPkrLaneDegraded (8 + lane)
    { s with pkr := { s.pkr with dDegraded := s.pkr.dDegraded ||| BitVec.ofNat 8 (2 ^ (lane % 8)) } })

theorem laneJudged_parts (lane lane2 : Nat) (s : State) :
    (laneJudged lane lane2 s).tec = s.tec ∧ (laneJudged lane lane2 s).mem = s.mem
      ∧ (laneJudged lane lane2 s).pkr = if lane2 = lane then s.pkr
        else { s.pkr with dDegraded := s.pkr.dDegraded ||| BitVec.ofNat 8 (2 ^ (lane % 8)) } := by
  unfold laneJudged
  split
  · exact ⟨rfl, rfl, rfl⟩
  · have events := raiseP_onlyEvents evPkrLaneDegraded (8 + lane)
      { s with pkr := { s.pkr with dDegraded := s.pkr.dDegraded ||| BitVec.ofNat 8 (2 ^ (lane % 8)) } }
    refine ⟨(setUnit_tec ..).trans (device_tec events.device :), (setUnit_mem ..).trans (events.mem :), ?_⟩
    exact (device_pkr (setUnit_onlyEvents ..).device :).trans (device_pkr events.device :)

theorem pkrBlockDecoded_glitch {jsn lane rec_ lane2 : Nat} {block hist : List Byte} (reads : isReading jsn s = true)
    (sound : (abfDecode block hist).isSome = true) :
    exec (.pkrBlockDecoded jsn lane rec_ block hist true lane2) s = .next (laneJudged lane lane2 (markRetried jsn (decodeErred s))) := by
  change execPkrBlockDecoded jsn lane rec_ block hist true lane2 s = _
  rw [execPkrBlockDecoded, reads, sound]
  rfl

theorem pkrBlockDecoded_not {jsn lane rec_ lane2 : Nat} {block hist : List Byte} {glitch : Bool}
    (h : isReading jsn s = false ∨ ((abfDecode block hist).isSome = true ∧ glitch = false)) :
    exec (.pkrBlockDecoded jsn lane rec_ block hist glitch lane2) s = .next s := by
  refine congrArg Host.Outcome.next (if_pos ?_)
  rcases h with h | ⟨sound, still⟩
  · simp [h]
  · simp [sound, still]

/-! ### O60 -/

/-- C3 recovers every member of the group, or fails for the group. -/
theorem c3Decode_ends (hr : s.tec.recovering = some (q, passes, noC3)) (hd : tapeDataset q s = some d) (hc : loadedCart s = some c)
    (active : s.tec.c3Active = true) (hh : heldOf q s = some h) (next : c3Next? h = some k) :
    ∃ t, exec (.c3Decode q k) s = .next t ∧ t.cart = s.cart ∧ t.mem = s.mem
      ∧ ((c3Lost c d k s).length ≤ 4 → (∀ x ∈ c3Members d (chainOf c d.partition), isLost t (x.seq, k) = false)
          ∧ t.tec.c3Recovered = sat64 s.tec.c3Recovered (c3Lost c d k s).length ∧ t.tec.c3Fail = s.tec.c3Fail
          ∧ (∀ x i, i ≠ k → isLost t (x, i) = isLost s (x, i)))
      ∧ (4 < (c3Lost c d k s).length → (∀ x i, isLost t (x, i) = isLost s (x, i)) ∧ t.tec.c3Fail = sat64 s.tec.c3Fail 1
          ∧ t.tec.c3Recovered = s.tec.c3Recovered) := by
  refine ⟨_, c3Decode_runs hr hd hc active hh next, ?_⟩
  have isMember : ∀ x ∈ c3Members d (chainOf c d.partition), isLost s (x.seq, k) = true → (c3Lost c d k s).any (·.seq == x.seq) = true :=
    fun x hx lost => List.any_eq_true.2 ⟨x, List.mem_filter.2 ⟨hx, lost⟩, beq_self_eq_true _⟩
  generalize c3Lost c d k s = l at *
  have tried := fun p => isLost_c3Tried k q p (c3Outcome q k l s)
  obtain ⟨held, recovered, fails, -, -, cart⟩ := kit_parts (afterMeasure_kit q passes noC3 (setHeld q (c3TriedOnce k) (c3Outcome q k l s)))
  have lost : ∀ p, isLost (afterMeasure q passes noC3 (setHeld q (c3TriedOnce k) (c3Outcome q k l s))) p = isLost (c3Outcome q k l s) p :=
    fun p => (isLost_congr held p).trans (tried p)
  rw [afterMeasure_mem, cart, recovered, fails]
  by_cases few : l.length ≤ 4
  · obtain ⟨gone, count, fail, cart', mem⟩ := c3Outcome_few (q := q) (k := k) (s := s) few
    refine ⟨cart', mem, fun _ => ⟨fun x hx => ?_, count, fail, fun x i hi => ?_⟩, fun many => absurd few (Nat.not_le.2 many)⟩
    · rw [lost, gone]
      cases was : isLost s (x.seq, k) with
      | false => rfl
      | true => simp [isMember x hx was]
    · rw [lost, gone]
      simp [hi]
  · obtain ⟨stays, count, fail, cart', mem⟩ := c3Outcome_many (q := q) (k := k) (s := s) (Nat.not_le.1 few)
    exact ⟨cart', mem, fun few' => absurd few' few, fun _ => ⟨fun x i => by rw [lost, stays], fail, count⟩⟩

/-- Settles O60: each measure of the order, by the lemma on what it leaves. -/
theorem readRecoveryOrder : Obligations.ReadRecoveryOrder := by
  refine ⟨?_, ?_, ?_, ?_, ?_, ?_, ?_, ?_, ?_, ?_, ?_, ?_, ?_⟩
  · exact fun q k ahead slots s c d inv r hc hd idle ticks free small hr => subdatasetDecode_reads hc hd idle ticks free small hr
  · exact fun q k ahead slots s c d hc hd waits => subdatasetDecode_waits hc hd waits
  · exact fun q k ahead slots s hd idle ticks free small => subdatasetDecode_missing hd idle ticks free small
  · exact fun q k found ahead slots s h => subdatasetDecode_not h
  · exact fun q k s passes noC3 d c h hr hd hc active hh next => c3Decode_ends hr hd hc active hh next
  · exact fun q k s h => c3Decode_not h
  · intro q found slots s passes noC3 c d h hr turn ticks hc hd hh
    obtain ⟨h', reads⟩ := readAgain_reads (rereadOf c d slots s) (tapeDataset_seq hd) found hh
    obtain ⟨u, runs, kit, retries, mem⟩ := readAutoRetry_runs (found := found) (slots := slots) hr turn ticks hc hd hh
    obtain ⟨own, others, ⟨decoded, goesOn, spent⟩, cart⟩ := afterReread (passes := passes) (noC3 := noC3) reads (f := retriedOnce)
      (fun _ => rfl) kit retries rfl
    have same : (retriedOnce h').passes = h.passes := reads.passes
    rw [same] at decoded goesOn spent
    refine ⟨_, retriedOnce h', runs, own, rfl, same, reads.failed_eq, others, decoded, goesOn, spent, cart, (afterMeasure_mem ..).trans mem⟩
  · exact fun q found slots s h => readAutoRetry_not h
  · intro q found slots s passes noC3 c d h hr first turn ticks hc hd hh retried
    dsimp only
    have runs := recoveryPass_runs (found := found) (slots := slots) hr first turn ticks hc hd
    generalize passReading s.tec.rdPass (rereadOf c d slots s) = x at *
    generalize hu : (if s.tec.rdPass = 2 then adaptOver x q s else s) = u at *
    have kit : u.kit = s.kit := by rw [← hu, ite_kit, adaptOver_kit, ite_self]
    have mem : u.mem = s.mem := by
      rw [← hu]
      split
      · exact adaptOver_mem ..
      · rfl
    obtain ⟨held, -, -, c3Read, -, cart'⟩ := kit_parts kit
    obtain ⟨h', reads⟩ := readAgain_reads x (tapeDataset_seq hd) found ((heldOf_congr held q).trans hh)
    obtain ⟨own, others, ⟨decoded, goesOn, spent⟩, cart⟩ := afterReread (passes := passes) (noC3 := noC3) reads (f := passDone)
      (fun _ => rfl) rfl rfl (reads.retried.trans retried)
    have same : (passDone h').passes = h.passes + 1 := congrArg (· + 1) reads.passes
    rw [c3Applies_congr cart' c3Read] at goesOn spent
    refine ⟨_, passDone h', runs, own, same, reads.failed_eq, fun y hy => (others y hy).trans (heldOf_congr held y), fun all => (decoded all).1,
      goesOn, spent, cart.trans cart', (afterMeasure_mem ..).trans ((readAgain_mem ..).trans mem)⟩
  · exact fun q found slots s h => recoveryPass_not h
  · intro jsn lane rec_ block hist glitch lane2 s reads bad
    obtain ⟨pkr, tec, jrn, mem⟩ := decodeErred_parts s
    exact ⟨_, pkrBlockDecoded_bad reads bad, by rw [tec], by rw [pkr], by rw [pkr], jrn, mem⟩
  · intro jsn lane rec_ block hist lane2 s reads sound
    obtain ⟨pkr, tec, -, mem⟩ := decodeErred_parts s
    obtain ⟨tec', mem', pkr'⟩ := laneJudged_parts lane lane2 (markRetried jsn (decodeErred s))
    refine ⟨_, pkrBlockDecoded_glitch reads sound, ?_, ?_, fun same => ?_, fun other => ?_, mem'.trans mem⟩
    · rw [tec']
      exact congrArg Tec.badBlocks tec
    · rw [pkr', apply_ite Pkr.decodeErrs, ite_self]
      exact congrArg Pkr.decodeErrs pkr
    · rw [pkr', if_pos same]
      exact (congrArg Pkr.dDegraded pkr :)
    · rw [pkr', if_neg other]
      exact (congrArg (fun p : Pkr => p.dDegraded ||| BitVec.ofNat 8 (2 ^ (lane % 8))) pkr :)
  · exact fun jsn lane rec_ block hist glitch lane2 s h => pkrBlockDecoded_not h

end Sys2Proof.Proofs
end
